-- ==== Sys2Proof/Word.lean ====
section
/-! DEFINITION. Words, bytes and the index ranges of the device (spec 00_scope R5; 01 R17). -/

namespace Sys2Proof

/-- One byte (R5). -/
abbrev Byte := BitVec 8
/-- A 16-bit value: an error code (R15), a U16 entry. -/
abbrev W16 := BitVec 16
/-- A 32-bit register or entry. -/
abbrev W32 := BitVec 32
/-- A 64-bit register or entry. -/
abbrev W64 := BitVec 64

/-- Function number: 0 is PF0, k is VF k (R490). -/
abbrev Fn := Fin 64
/-- Ibex cluster number (R17). -/
abbrev IbexId := Fin 8
/-- Quarter of a Braid (R73), which numbers its region. -/
abbrev Quarter := Fin 4
/-- Stream number. -/
abbrev StreamId := Fin 64
/-- Context number (R333). -/
abbrev CtxId := Fin 1024
/-- Queue number (Table 1.2). A queue holds at most one open step (R347), so the number names the step too. -/
abbrev QueueId := Fin 65536
/-- Hitch number (R363). -/
abbrev HitchId := Fin 4096
/-- Pseudo-channel number (R380). -/
abbrev PcId := Fin 32
/-- Coil pool number (R440). -/
abbrev PoolId := Fin 8

end Sys2Proof
end

