-- ==== Sys2Proof/Operand.lean ====
section
/-! DEFINITION. The operand types of the commands: what a host, an engine, a pin or a sensor supplies beside plain
words. Each type cites the rule that gives the command its operand. -/

namespace Sys2Proof

/-- Who makes a dictionary access (R530): a mailbox of a function, or a KDP master with the rights of PF0. -/
inductive Origin where
  | fn (k : Fn)
  | kdp
  deriving DecidableEq, Repr

/-- The faults a Braid region detects by itself (R103, Table 3.9). -/
inductive BraidCheck where
  | accUe | wregPar | feedPar
  deriving DecidableEq, Repr

/-- A fault that a region detects (R103): a quarter of the region, the check, the lowest strand involved and, for an accumulator
read, the entry. -/
structure RegionHit where
  q      : Quarter
  check  : BraidCheck
  strand : Fin 256
  entry  : Fin 2048
  deriving DecidableEq, Repr

/-- What a fetch of device from host memory brought back: the bytes, or a poisoned or failed completion (R269, R341). -/
inductive Fetched where
  | bytes (bs : List Byte)
  | failed
  deriving DecidableEq, Repr

/-- Payload bytes of a completion. -/
def Fetched.size : Fetched → Nat
  | .bytes bs => bs.length
  | .failed => 0

/-- Requester classes of the shared cache (Table 11.6). -/
inductive Requester where
  /-- tile walker staging and output pipe, scalar-core writes, preprocessing output: the herd's ways -/
  | herd (h : Fin 8)
  /-- preprocessing source reads and Gazelle reads: COMMON_WAYS -/
  | common
  /-- Gazelle writes, host port, save and restore, scrubber: no fill, write around -/
  | around
  deriving DecidableEq, Repr

/-- What opens a period (R346). -/
inductive PeriodSource where
  /-- a counted stream whose PERIOD_LEN has run, or PERIOD_MAX of a picture-driven stream -/
  | timer (n : StreamId)
  /-- the newest picture of the delivery queue of a picture-driven stream -/
  | picture (n : StreamId)
  /-- a queue that counts its own periods -/
  | queue (q : QueueId)
  deriving DecidableEq, Repr

/-- A parameter set as its codec's syntax gives it (R291, R293). -/
structure ParamSet where
  /-- a number for its kind and identifier -/
  ident   : Nat
  /-- nuh_layer_id; for AV1, 0 where operating point 0 holds it (R262) -/
  layer   : Nat
  /-- the sets that it refers to (R293) -/
  needs   : List Nat
  /-- it carries profile, level and picture size: a sequence-level set -/
  sizes   : Bool
  /-- its bytes, which the decoding of a picture refers to (R264) -/
  coded   : List Byte
  /-- parses under the codec's syntax -/
  parses  : Bool
  /-- frame_mbs_only_flag, slice groups, chroma_format_idc (0 monochrome, 1 4:2:0), an extension profile, large-scale tile decoding
  (R261) -/
  framesOnly : Bool
  groups  : Nat
  chroma  : Nat
  extension : Bool
  largeScale : Bool
  /-- profile_idc, general_profile_idc or seq_profile; level_idc, general_level_idc or seq_level_idx -/
  profile : Byte
  level   : Byte
  /-- dimensions and reference count within the declared level's limits -/
  limitsOk : Bool
  /-- edge of a CTB or superblock in luma samples; a macroblock's is 16 (R280) -/
  block   : Nat
  /-- coded width and height in luma samples -/
  width   : Nat
  height  : Nat
  depth   : Nat
  refs    : Nat
  /-- reorder limit of the bumping process, and its latency limit, 0 for none (R286) -/
  reorder : Nat
  latency : Nat
  cropLeft : Nat
  cropTop  : Nat
  /-- output size after the conformance window or render size -/
  outWidth  : Nat
  outHeight : Nat
  matrix    : Byte
  fullRange : Bool
  deriving DecidableEq, Repr

/-- A slice, tile or tile group of a picture: redundant_pic_cnt (R262), the 16 × 16 blocks that it covers without error, and those lost to
a syntax error inside its data (R291, VID_SLICE_SYNTAX). -/
structure SliceSyntax where
  redundant : Nat
  covered   : List Nat
  lost      : List Nat
  deriving DecidableEq, Repr

/-- What Table 8.3 looks at in a picture: of H.264 whether it is an IDR or an I picture, and recovery_frame_cnt of its recovery point SEI;
of H.265 the type of its NAL units; of AV1 whether its temporal unit holds a sequence header, and whether it is a key frame. -/
inductive PicKind where
  | h264 (idr intra : Bool) (recovery : Option Nat)
  | h265 (nal : Nat)
  | av1 (sequence key : Bool)
  deriving DecidableEq, Repr

/-- What the codec's decoding process says of one picture of an access unit (R264, R284, R286). Pictures are named by
numbers that the codec's syntax fixes; a name stands for one picture at a time. -/
structure PicSyntax where
  name      : Nat
  /-- nuh_layer_id; for AV1, 0 where operating point 0 holds it (R262) -/
  layer     : Nat
  /-- identifier of the parameter set it names -/
  ps        : Nat
  kind      : PicKind
  /-- an H.265 RASL picture, and the name of its CRA -/
  rasl      : Option Nat
  /-- names of the references it uses -/
  refs      : List Nat
  /-- reference mark it takes: 0 none, 1 short-term, 2 long-term -/
  refMark   : Nat
  /-- names whose reference mark it clears, and names that it makes long-term references, before it is decoded -/
  unmark    : List Nat
  toLong    : List Nat
  /-- its place in output order -/
  order     : Int
  /-- every earlier picture is output before it -/
  flush     : Bool
  slices    : List SliceSyntax
  /-- bytes its syntax occupies (R279) -/
  synBytes  : Nat
  /-- how many tiles it has (R280) -/
  tiles     : Nat
  /-- edge passes: the two tiles whose common edge each filters (R281) -/
  edges     : List (Nat × Nat)
  /-- AV1 film grain applies (R263) -/
  grain     : Bool
  /-- meant for output -/
  shown     : Bool
  /-- bins, elements or symbols of its parse (Table 8.5) -/
  bins      : Nat
  deriving DecidableEq, Repr

/-- What an entropy engine reads from one access unit, by the codec's standard (R278). -/
structure AuSyntax where
  sets : List ParamSet
  pics : List PicSyntax
  /-- AV1: the name that a show_existing_frame of the unit outputs (R286) -/
  shows : Option Nat
  deriving DecidableEq, Repr

/-- What a pixel engine reports for a completed work unit or edge pass (R281, R291). -/
structure UnitResult where
  /-- blocks reconstructed -/
  blocks  : Nat
  /-- blocks to conceal after an uncorrectable syntax or reference read (VID_MEM_UE) -/
  memUe   : List Nat
  /-- blocks predicted from a substituted reference (VID_MISSING_REF) -/
  subst   : List Nat
  /-- busy cycles -/
  cycles  : Nat
  deriving DecidableEq, Repr

/-- A pin or sensor sample of the supplies (R464). Power in mW, voltage in mV. -/
structure PowerReading where
  mw  : Nat
  v12 : Nat
  deriving DecidableEq, Repr

/-- What a finished start stage found (Table 17.2). -/
structure StageResult where
  /-- the stage's own check passed (ROM digest, self-test, store read, firmware checks) -/
  ok        : Bool
  /-- the three samples of the straps (R566): node ID in bits 6:0, boot select in bit 7 -/
  strap0    : Byte
  strap1    : Byte
  strap2    : Byte
  /-- elapsed milliseconds of the start so far -/
  ms        : Nat
  deriving DecidableEq, Repr

/-- What a translation completion of the host grants (R507). -/
inductive Xlate where
  | granted (page : W64) (log2 : Nat) (host : W64) (write : Bool)
  | refused (write : Bool)
  deriving DecidableEq, Repr

/-- A read of the device that waits for a completion (R511, R517). -/
inductive DevRead where
  | chunk (n : StreamId)
  | desc (q : QueueId)
  deriving DecidableEq, Repr

/-- A KDP request frame: its identifier kind, its header and its data (R543, R546). -/
structure KdpFrame where
  /-- sent on 0x200 (broadcast), else on 0x200 + N of this node -/
  broadcast : Bool
  data      : List Byte
  deriving DecidableEq, Repr

/-- TAP instructions (R623). -/
inductive TapInstr where
  | bypass | idcode | samplePreload | extest | extestPulse | extestTrain | clamp | highz
  deriving DecidableEq, Repr

/-- An on-die SRAM of the scrubber (R430), with the location in it. -/
inductive SramSite where
  | scratchpad (n : IbexId) (word : Nat)
  | accumulator (n : IbexId) (entry : Fin 2048) (pair : Fin 128)
  | cacheData (addr : Nat)
  | cacheTag (addr : Nat)
  | splice (addr : Nat)
  /-- the valid mask of 64 bytes of a splice entry: the page's key and which 64 bytes -/
  | spliceMask (page : Nat) (i : Fin 32)
  /-- the address of a splice entry -/
  | spliceTag (addr : Nat)
  | oryx
  deriving DecidableEq, Repr

/-- The engine whose watchdog expires (R291). -/
inductive VidEngine where
  | entropy (e : Fin 4)
  | pixel (p : Fin 16)
  deriving DecidableEq, Repr

/-- What the activity counters of one millisecond hold beside the array and lane operations that the state counts (R483): scalar
instructions, strand groups of dummy cycles, HBM bytes, blocks reconstructed, bytes on the link. -/
structure Activity where
  scalar : Nat
  dummyGroups : Nat
  hbmBytes : Nat
  blocks : Nat
  pcieBytes : Nat
  deriving DecidableEq, Repr

/-- What the activity counters of one millisecond hold for a context beside its array and lane operations (R374, R484): scalar
instructions, HBM bytes read and written, which depend on what the cache held, and the µs for which it held each Ibex. -/
structure CtxActivity where
  scalar : Nat
  hbmBytes : Nat
  heldUs : List Nat
  deriving DecidableEq, Repr

end Sys2Proof
end

