-- ==== Sys2Proof/Syntax.lean ====
section
/-! DEFINITION. The commands of the block: one constructor per row of spec/opcode_table.json, with the operands
the rules of spec/ give the command. Host commands carry the writing function, the address and the value; events of
an engine, a pin or a sensor carry what the outside supplies. -/

namespace Sys2Proof

/-- The commands. -/
inductive Instr where
  -- registers (00, 03, 04, 08)
  | registerWrite (fn : Fn) (off : Nat) (size : Nat) (v : W64) (nowUs : Nat)
  | brdCfgWrite (fn : Fn) (n : IbexId) (v : W32)
  | wlkCfgWrite (fn : Fn) (n : IbexId) (v : W32)
  | gzCfgWrite (fn : Fn) (v : W32)
  -- walker and Braid (03, 04, 05, 06, 07)
  | instructionLoad (n : IbexId) (cycles : Nat)
  | nop (n : IbexId)
  | endStep (n : IbexId) (cycles : Nat)
  | layer (n : IbexId)
  | mm (n : IbexId)
  | shadowLoad (n : IbexId) (q : Quarter)
  | knotIssue (n : IbexId) (q : Quarter) (held : Nat)
  | brdKnotHold (n : IbexId) (q : Quarter)
  | regionFault (n : IbexId) (hit : RegionHit) (also : List RegionHit)
  | outputTile (n : IbexId)
  | rampDown (n : IbexId)
  | rampGroupStep (n : IbexId)
  | clusterReset (n : IbexId) (inFlight : List Quarter)
  | syncRelease (q : QueueId)
  | walkerPreempt (n : IbexId) (cycles : Nat)
  | walkFetchTo (n : IbexId) (q : Option Quarter)
  | walkMemUe (n : IbexId) (q : Option Quarter)
  | wconv (n : IbexId)
  | wpool (n : IbexId) (stop : Option Nat)
  | wresample (n : IbexId) (stop : Option Nat)
  | wregroup (n : IbexId) (stop : Option Nat)
  | ssort (n : IbexId) (stop : Option Nat)
  | hist (n : IbexId)
  | layerDecision (q : QueueId)
  | vseq (n : IbexId) (stop : Option Nat)
  | vred (n : IbexId) (stop : Option Nat)
  | vmove (n : IbexId) (stop : Option Nat)
  | vopt (n : IbexId) (stop : Option Nat)
  | track (n : IbexId)
  | emit (n : IbexId)
  | sclWatchdog (n : IbexId)
  | hwait (n : IbexId) (cycles : Nat)
  | hsignal (n : IbexId)
  | hacquire (n : IbexId) (cycles : Nat)
  | hrelease (n : IbexId)
  | hitchTimeout (q : QueueId)
  | schHsigWrite (fn : Fn) (v : W32)
  | schHitchWrite (fn : Fn) (k : HitchId) (v : W64)
  -- Gazelle (08)
  | gzInTailWrite (fn : Fn) (n : StreamId) (v : W32)
  | chunkFetch (n : StreamId)
  | chunkArrival (n : StreamId) (got : Fetched)
  | auTimeout (n : StreamId)
  | creditTick (n : StreamId)
  | entropySelect (e : Fin 4) (aus : List (StreamId × AuSyntax))
  | syntaxStallResume (e : Fin 4)
  | syntaxComplete (e : Fin 4)
  | pixelUnitStart (p : Fin 16)
  | pixelUnitDone (p : Fin 16) (r : UnitResult)
  | vidEngineTo (e : VidEngine)
  | streamOpen (o : Origin) (n : StreamId)
  | streamClose (o : Origin) (n : StreamId)
  | streamReset (o : Origin) (n : StreamId)
  -- dictionary (16)
  | dictWrite (o : Origin) (index : BitVec 16) (sub : BitVec 8) (value : List Byte)
  | dictRead (o : Origin) (index : BitVec 16) (sub : BitVec 8)
  | commitDone (ok : Bool)
  | restore (o : Origin) (v : W16)
  | clear (o : Origin) (v : Byte)
  | snap (o : Origin) (v : Byte)
  | snapDone
  | apply (o : Origin) (v : Byte)
  -- preprocessing (09)
  | slotTakePicture (q : QueueId) (slot : Fin 64)
  | workItemStart (e : Fin 4)
  | workItemDone (e : Fin 4) (cycles : Nat)
  | slotVoid (q : QueueId) (slot : Fin 64)
  | fillClose (q : QueueId)
  -- scheduler (10)
  | periodOpen (src : PeriodSource) (nowUs : Nat)
  | passLimitExpiry (q : QueueId)
  | contextEnable (o : Origin) (c : CtxId)
  | contextReady (c : CtxId)
  | contextDisable (o : Origin) (c : CtxId)
  | contextDisabled (c : CtxId)
  | clearFault (o : Origin) (c : CtxId)
  | bind (fn : Fn) (q : QueueId) (nowUs : Nat)
  | unbind (fn : Fn) (q : QueueId)
  | queueRead (fn : Fn) (q : QueueId)
  | doorbellWrite (fn : Fn) (q : QueueId) (tail : W32)
  | descFetch (q : QueueId)
  | descArrival (q : QueueId) (d : Fetched) (nowUs : Nat)
  | saveDone (q : QueueId) (ok : Bool)
  | restoreDone (q : QueueId) (ok : Bool)
  | ledgerTick (c : CtxId) (a : CtxActivity)
  | genFillDone (q : QueueId)
  | detGenWrite (fn : Fn) (off : Nat) (v : W64)
  -- memory and integrity (11, 12)
  | cacheRead (r : Requester) (addr : Nat) (len : Nat)
  | cacheWrite (r : Requester) (addr : Nat) (bs : List Byte)
  | cacheAtomic (addr : Nat) (add : W64)
  | cacheFill (p : PcId) (waited : Nat)
  | refresh (p : PcId)
  | selfRefreshEntry (p : PcId)
  | powerDownEntry (p : PcId)
  | stackTempRead (celsius : Int)
  | cmdParityError (p : PcId)
  | pageRebuild (addr : Nat)
  | spliceWrite (addr : Nat) (bs : List Byte)
  | spliceHoldExpiry (page : Nat)
  | scrubPage
  | sramScrub (site : SramSite) (dataFlip : W64) (checkFlip : Byte)
  | memTagUe (site : SramSite)
  | flipArm (fn : Fn) (v : W32)
  -- Coil (13)
  | coilRequest (owner : BitVec 12) (bytes : Nat) (waitUs : Nat)
  | coilZeroDone (pool : PoolId) (k : Nat)
  | coilTimeout (owner : BitVec 12)
  | bufferRelease (pool : PoolId) (k : Nat)
  | alloc (fn : Fn) (cmd : W32)
  | free (fn : Fn) (cmd : W32)
  | reserve (fn : Fn) (cmd : W32)
  | query (fn : Fn) (cmd : W32)
  -- power (14)
  | powerSample (r : PowerReading)
  | slowLoopTick
  | energyTick (a : Activity)
  | droopFire (n : IbexId)
  | droopHoldEnd
  | tempSample (t : List Int)
  | thermalTrip
  | thermtripRelease (t : List Int)
  | idleEntry
  | napEntry
  | run (o : Origin)
  | nap (o : Origin)
  | standby (o : Origin)
  | wake (o : Origin)
  | wakeEvent
  | napExitDone
  -- package and start (17, 19)
  | vin12OutOfRange (mv : Nat)
  | vin12Overcurrent
  | vin12Return (mv : Nat)
  | auxSwitch (inRange : Bool)
  | coldStart
  | startStageDone (r : StageResult)
  | startTimeout
  | oryxWatchdog
  | oryxUe
  | warm (o : Origin)
  | confirm (o : Origin)
  | confirmTimer
  | advance (o : Origin)
  | updBegin (o : Origin) (value : List Byte)
  | updChunk (o : Origin) (value : List Byte)
  | updEnd (o : Origin) (v : Byte)
  | updProgramDone (flashOk : Bool)
  | updActivate (o : Origin) (v : Byte)
  | updAbort (o : Origin) (v : Byte)
  | extend (o : Origin) (value : List Byte)
  | attReq (o : Origin) (v : Byte)
  | attSignDone
  | devicePkDerived
  -- host port (15)
  | dpWindowWrite (fn : Fn) (off : Nat) (bs : List Byte) (poisoned : Bool)
  | dpWindowRead (fn : Fn) (off : Nat) (len : Nat)
  | dpStreamWrite (fn : Fn) (bs : List Byte) (allEnables poisoned : Bool)
  | dpStreamRead (fn : Fn) (len : Nat) (allEnables : Bool)
  | crConfigWrite (fn : Fn) (n : StreamId) (reg : Fin 3) (v : W64)
  | crHeadWrite (fn : Fn) (n : StreamId) (v : W32)
  | coalTimer (n : StreamId)
  | hpFnWrite (fn : Fn) (k : Fn) (v : W64) (atsEnable : Bool)
  | atsTranslation (fn : Fn) (x : Xlate)
  | atsInvalidate (fn : Fn) (page : W64) (log2 : Nat)
  | cplTimeout (r : DevRead)
  | bmeClear (fn : Fn)
  | bmeSet (fn : Fn)
  | d3hotEntry (fn : Fn)
  | d0Return (fn : Fn)
  | vfEnableChange (enable : Bool) (num : Nat)
  | linkDown
  | linkUp (speed : BitVec 3) (width : BitVec 5)
  | hpInternalError
  | fatalTlp
  | freeze (fn : Fn)
  | release (o : Origin)
  | flr (fn : Fn)
  | flrDone (fn : Fn)
  | perst
  | perstDeassert
  | hotReset
  | linkL1Exit
  -- KDP (16)
  | kdpRead (f : KdpFrame)
  | readSeg (f : KdpFrame)
  | kdpWrite (f : KdpFrame)
  | writeSeg (f : KdpFrame)
  | abort (f : KdpFrame)
  | discover (f : KdpFrame)
  | badFrame
  | kdpDupId
  | kdpTimeout
  | claimListenEnd
  | heartbeat
  | errorEvent
  | busOff
  | busOffRecovery
  | canTermChange (high : Bool)
  | tapInstruction (t : TapInstr)
  | testLogicReset
  -- completions added by later rows of the table
  | streamResetDone (n : StreamId)
  | streamCloseDone (n : StreamId)
  | napStageDone
  | powerLoss
  | canBusError (tec rec : W16)
  | msixUnmask (fn : Fn) (vec : Fin 32)
  | atsEnableClear (fn : Fn)
  | voltageSlewDone
  deriving DecidableEq, Repr

end Sys2Proof
end

