-- ==== Sys2Proof/Machine/Formats.lean ====
section
/-! DEFINITION. The fifteen number formats: exact values, decoding, sums, products and the conversion rule
(spec 02_number_formats). A finite value is a sign, a magnitude and a power of two, so no value is rounded until a rule
of the spec rounds it. -/

namespace Sys2Proof.Machine

/-- Format codes 0x0 to 0xE (R39, Table 2.1). -/
inductive Fmt where
  | s4 | s8 | u8 | s16 | s32 | e2m1 | e3m2 | e2m3 | e4m3 | e5m2 | h16 | b16 | f32 | bq8 | bq4
  deriving DecidableEq, Repr

/-- The format of a 4-bit code; code 0xF is reserved (R39). -/
def Fmt.ofCode : Nat → Option Fmt
  | 0 => some .s4 | 1 => some .s8 | 2 => some .u8 | 3 => some .s16 | 4 => some .s32 | 5 => some .e2m1
  | 6 => some .e3m2 | 7 => some .e2m3 | 8 => some .e4m3 | 9 => some .e5m2 | 10 => some .h16 | 11 => some .b16
  | 12 => some .f32 | 13 => some .bq8 | 14 => some .bq4 | _ => none

/-- The code of a format (Table 2.1). -/
def Fmt.code : Fmt → Nat
  | .s4 => 0 | .s8 => 1 | .u8 => 2 | .s16 => 3 | .s32 => 4 | .e2m1 => 5 | .e3m2 => 6 | .e2m3 => 7 | .e4m3 => 8
  | .e5m2 => 9 | .h16 => 10 | .b16 => 11 | .f32 => 12 | .bq8 => 13 | .bq4 => 14

/-- Bits of storage an element takes in its row: a 6-bit element takes a byte (R42; R122). -/
def Fmt.bits : Fmt → Nat
  | .s4 | .e2m1 | .bq4 => 4
  | .s8 | .u8 | .e3m2 | .e2m3 | .e4m3 | .e5m2 | .bq8 => 8
  | .s16 | .h16 | .b16 => 16
  | .s32 | .f32 => 32

/-- Integer class of Table 2.1. -/
def Fmt.isInt : Fmt → Bool
  | .s4 | .s8 | .u8 | .s16 | .s32 => true
  | _ => false

/-- Block-scaled class of Table 2.1. -/
def Fmt.isBlock : Fmt → Bool
  | .bq8 | .bq4 => true
  | _ => false

/-- Two elements to a byte (R40). -/
def Fmt.isHalfByte (f : Fmt) : Bool := f.bits == 4

/-- The format that reads an element's code: BQ8 elements are S8 codes and BQ4 elements E2M1 codes (Table 2.1). -/
def Fmt.element : Fmt → Fmt
  | .bq8 => .s8
  | .bq4 => .e2m1
  | f => f

/-- Least and greatest integer of an integer format (Table 2.2). -/
def Fmt.intRange : Fmt → Int × Int
  | .s4 => (-8, 7)
  | .s8 => (-128, 127)
  | .u8 => (0, 255)
  | .s16 => (-32768, 32767)
  | _ => (-2147483648, 2147483647)

/-- Exponent bits, mantissa bits M and bias of a float format (Table 2.3). -/
def Fmt.layout : Fmt → Nat × Nat × Nat
  | .e2m1 => (2, 1, 1)
  | .e3m2 => (3, 2, 3)
  | .e2m3 => (2, 3, 1)
  | .e4m3 => (4, 3, 7)
  | .e5m2 => (5, 2, 15)
  | .h16 => (5, 10, 15)
  | .b16 => (8, 7, 127)
  | _ => (8, 23, 127)

/-- The format has infinity codes (Table 2.4). -/
def Fmt.hasInf : Fmt → Bool
  | .e5m2 | .h16 | .b16 | .f32 => true
  | _ => false

/-- The format has NaN codes (Table 2.4). -/
def Fmt.hasNaN : Fmt → Bool
  | .e4m3 | .e5m2 | .h16 | .b16 | .f32 => true
  | _ => false

/-- The code of the largest finite value (Table 2.4). -/
def Fmt.maxCode : Fmt → Nat
  | .e2m1 => 0x7
  | .e3m2 => 0x1F
  | .e2m3 => 0x1F
  | .e4m3 => 0x7E
  | .e5m2 => 0x7B
  | .h16 => 0x7BFF
  | .b16 => 0x7F7F
  | _ => 0x7F7FFFFF

/-- The code of +infinity, for a format that has one (Table 2.4). -/
def Fmt.infCode : Fmt → Nat
  | .e5m2 => 0x7C
  | .h16 => 0x7C00
  | .b16 => 0x7F80
  | _ => 0x7F800000

/-- The NaN the device writes (R52, Table 2.4). -/
def Fmt.nanCode : Fmt → Nat
  | .e4m3 => 0x7F
  | .e5m2 => 0x7E
  | .h16 => 0x7E00
  | .b16 => 0x7FC0
  | _ => 0x7FC00000

/-- The weight of the sign bit of a float code (Table 2.3). -/
def Fmt.signWeight (f : Fmt) : Nat := 2 ^ (f.layout.1 + f.layout.2.1)

/-- An exact value: NaN, an infinity, or `mag * 2 ^ exp` with a sign that a zero keeps (R51). -/
inductive Val where
  | nan
  | inf (neg : Bool)
  | fin (neg : Bool) (mag : Nat) (exp : Int)
  deriving DecidableEq, Repr

/-- The value +0. -/
def Val.zero : Val := .fin false 0 0

/-- The exact value of an integer. -/
def Val.ofInt (i : Int) : Val := .fin (decide (i < 0)) i.natAbs 0

/-- The exact value 2 ^ e. -/
def Val.pow2 (e : Int) : Val := .fin false 1 e

/-- Multiplication of a value by 2 ^ e, exact (R54). -/
def Val.scale (e : Int) : Val → Val
  | .fin n m x => .fin n m (x + e)
  | v => v

/-- A value is NaN or infinite. -/
def Val.isSpecial : Val → Bool
  | .fin _ _ _ => false
  | _ => true

/-- A value is NaN. -/
def Val.isNaN : Val → Bool
  | .nan => true
  | _ => false

/-- Sign change. -/
def Val.neg : Val → Val
  | .nan => .nan
  | .inf n => .inf (!n)
  | .fin n m e => .fin (!n) m e

/-- Absolute value. -/
def Val.abs : Val → Val
  | .nan => .nan
  | .inf _ => .inf false
  | .fin _ m e => .fin false m e

/-- Magnitudes brought to one exponent: `m * 2 ^ (e - d)` for `d ≤ e`. -/
def alignMag (m : Nat) (e d : Int) : Nat := m * 2 ^ (e - d).toNat

/-- A signed integer of a sign and a magnitude. -/
def signedMag (neg : Bool) (m : Nat) : Int := if neg then -(m : Int) else m

/-- Exact comparison of finite values, as the sign of `a - b`; zeros of either sign are equal (R51). -/
def cmpFin (an : Bool) (am : Nat) (ae : Int) (bn : Bool) (bm : Nat) (be : Int) : Ordering :=
  let d := min ae be
  compare (signedMag an (alignMag am ae d)) (signedMag bn (alignMag bm be d))

/-- Numeric order of values that are not NaN; `none` when one is. -/
def Val.cmp : Val → Val → Option Ordering
  | .nan, _ => none
  | _, .nan => none
  | .inf a, .inf b => some (if a = b then .eq else if a then .lt else .gt)
  | .inf a, _ => some (if a then .lt else .gt)
  | _, .inf b => some (if b then .gt else .lt)
  | .fin an am ae, .fin bn bm be => some (cmpFin an am ae bn bm be)

/-- `a < b`, false for a NaN. -/
def Val.lt (a b : Val) : Bool := a.cmp b == some .lt

/-- `a ≤ b`, false for a NaN. -/
def Val.le (a b : Val) : Bool := a.cmp b == some .lt || a.cmp b == some .eq

/-- Numeric equality, false for a NaN; +0 and -0 are equal (R51). -/
def Val.eq (a b : Val) : Bool := a.cmp b == some .eq

/-- The exact product: NaN for a NaN operand and for infinity times zero (R59); a zero takes the sign of the exact
product (R630). -/
def Val.mul : Val → Val → Val
  | .nan, _ => .nan
  | _, .nan => .nan
  | .inf a, .inf b => .inf (a != b)
  | .inf a, .fin b m _ => if m = 0 then .nan else .inf (a != b)
  | .fin a m _, .inf b => if m = 0 then .nan else .inf (a != b)
  | .fin a m e, .fin b n f => .fin (a != b) (m * n) (e + f)

/-- A term that is a finite zero of negative sign. -/
def Val.isNegZero : Val → Bool
  | .fin true 0 _ => true
  | _ => false

/-- Exact sum of the finite terms of a list as `mant * 2 ^ exp`. -/
def finSum : List Val → Int × Int
  | [] => (0, 0)
  | .fin n m e :: vs =>
    let (sm, se) := finSum vs
    let d := min e se
    (signedMag n (alignMag m e d) + sm * (2 ^ (se - d).toNat : Nat), d)
  | _ :: vs => finSum vs

/-- The exact sum of float terms (R58, R59): NaN for a NaN term or infinities of opposite sign, an infinity for an
infinite term; an exact zero is -0 exactly when there is a term and every term is -0 (R630). -/
def Val.sum (vs : List Val) : Val :=
  if vs.any Val.isNaN then .nan
  else if vs.contains (.inf false) && vs.contains (.inf true) then .nan
  else if vs.contains (.inf false) then .inf false
  else if vs.contains (.inf true) then .inf true
  else
    let (m, e) := finSum vs
    if m = 0 then .fin (!vs.isEmpty && vs.all Val.isNegZero) 0 0
    else .fin (decide (m < 0)) m.natAbs e

/-- The exact sum of two values. -/
def Val.add (a b : Val) : Val := Val.sum [a, b]

/-- Two's-complement reading of a `w`-bit code. -/
def sext (w : Nat) (c : Nat) : Int :=
  let c := c % 2 ^ w
  if c < 2 ^ (w - 1) then (c : Int) else (c : Int) - (2 ^ w : Nat)

/-- The `w`-bit two's-complement code of an integer. -/
def wrap (w : Nat) (i : Int) : Nat := (i % (2 ^ w : Nat)).toNat

/-- The value of a code of a float format (R47 to R49, Table 2.3, Table 2.4). -/
def decodeFloat (f : Fmt) (c : Nat) : Val :=
  let (eb, mb, bias) := f.layout
  let neg := c / 2 ^ (eb + mb) % 2 == 1
  let e := c / 2 ^ mb % 2 ^ eb
  let m := c % 2 ^ mb
  if f = .e4m3 ∧ e = 15 ∧ m = 7 then .nan
  else if f.hasInf && e == 2 ^ eb - 1 then (if m = 0 then .inf neg else .nan)
  else if e = 0 then .fin neg m (1 - (bias : Int) - mb)
  else .fin neg (2 ^ mb + m) ((e : Int) - bias - mb)

/-- The value of an element code of a format that is not block-scaled (R46, R47). -/
def decodeElem (f : Fmt) (c : Nat) : Val :=
  if f.isInt then (if f = .u8 then Val.ofInt (c % 256 : Nat) else Val.ofInt (sext f.bits c)) else decodeFloat f c

/-- The value of an element of a block-scaled format with its block's scale byte (R53, R54). -/
def decodeBlock (f : Fmt) (scale c : Nat) : Val :=
  if scale = 0xFF then .nan
  else if f = .bq8 then (Val.ofInt (sext 8 c)).scale (-6 + (scale : Int) - 127)
  else (decodeFloat .e2m1 (c % 16)).scale ((scale : Int) - 127)

/-- The value of an element: `scale` is its block's scale byte where the format is block-scaled (R54). -/
def decodeVal (f : Fmt) (scale c : Nat) : Val := if f.isBlock then decodeBlock f scale c else decodeElem f c

/-- The floor of `m * 2 ^ e`. -/
def floorMag (m : Nat) (e : Int) : Nat := if 0 ≤ e then m * 2 ^ e.toNat else m / 2 ^ (-e).toNat

/-- The exact binary exponent `floor (log2 (m * 2 ^ e))` of a non-zero magnitude. -/
def log2Mag (m : Nat) (e : Int) : Int := (Nat.log2 m : Int) + e

/-- Row 4 of Table 2.5 for a float target: truncation toward zero of a finite value in range (R60, R61). -/
def packFloat (f : Fmt) (neg : Bool) (m : Nat) (x : Int) : Nat :=
  let (_, mb, bias) := f.layout
  let s := if neg then f.signWeight else 0
  if m = 0 then s
  else
    let e := max (log2Mag m x) (1 - (bias : Int))
    let q := floorMag m (x - e + mb)
    let body := if q < 2 ^ mb then q else ((e + bias).toNat * 2 ^ mb + (q - 2 ^ mb))
    s + min body f.maxCode

/-- Largest finite value of a float format. -/
def Fmt.maxVal (f : Fmt) : Val := decodeFloat f f.maxCode

/-- Truncation toward zero of a finite value to an integer. -/
def truncInt : Val → Int
  | .fin n m e => signedMag n (floorMag m e)
  | _ => 0

/-- Conversion of an exact value to a target that is not block-scaled: its code and whether it counts as a saturation
(R60, Table 2.5). -/
def convert (f : Fmt) (v : Val) : Nat × Bool :=
  if f.isInt then
    let (lo, hi) := f.intRange
    match v with
    | .nan => (0, true)
    | .inf n => (wrap f.bits (if n then lo else hi), true)
    | .fin _ _ _ =>
      if v.lt (Val.ofInt lo) then (wrap f.bits lo, true)
      else if (Val.ofInt hi).lt v then (wrap f.bits hi, true)
      else (wrap f.bits (truncInt v), false)
  else
    match v with
    | .nan => if f.hasNaN then (f.nanCode, false) else (0, true)
    | .inf n =>
      let s := if n then f.signWeight else 0
      if f.hasInf then (s + f.infCode, false) else (s + f.maxCode, true)
    | .fin n m e =>
      let s := if n then f.signWeight else 0
      if f.maxVal.lt v.abs then (s + f.maxCode, true) else (packFloat f n m e, false)

/-- Conversion to F32: the 32-bit code (R60). -/
def toF32 (v : Val) : W32 := BitVec.ofNat 32 (convert .f32 v).1

/-- The value of an F32 code. -/
def ofF32 (c : W32) : Val := decodeFloat .f32 c.toNat

/-- A value rounded once toward zero to F32, as a value (R58). -/
def roundF32 (v : Val) : Val := ofF32 (toF32 v)

/-- The canonical F32 NaN (Table 2.4). -/
def f32NaN : W32 := 0x7FC00000

/-- Magnitude of the greatest finite value of a list. -/
def maxAbs (vs : List Val) : Val := vs.foldl (fun a v => if a.lt v.abs then v.abs else a) Val.zero

/-- Encoding of one block of at most 32 source values: scale byte, element codes and counted saturations (R55, R56). -/
def encodeBlock (f : Fmt) (vs : List Val) : Nat × List Nat × Nat :=
  if vs.any Val.isSpecial then (0xFF, vs.map (fun _ => 0), 1)
  else
    match maxAbs vs with
    | .fin _ m e =>
      if m = 0 then (0, vs.map (fun _ => 0), 0)
      else
        let raw := log2Mag m e - (if f = .bq4 then 2 else 0)
        let x := min (max raw (-127)) 127
        let sat := if 127 < raw then 1 else 0
        let elem := fun (v : Val) =>
          if f = .bq8 then (convert .s8 ((v.scale (-x)).scale 6)).1 else (convert .e2m1 (v.scale (-x))).1
        ((x + 127).toNat, vs.map elem, sat)
    | _ => (0xFF, vs.map (fun _ => 0), 1)

/-- Saturating addition in S32: the sum and whether it saturated (R57). -/
def satS32 (i : Int) : W32 × Bool :=
  if i < -2147483648 then (0x80000000, true)
  else if 2147483647 < i then (0x7FFFFFFF, true)
  else (BitVec.ofInt 32 i, false)

/-- The accumulate stage for float pairs: the exact sum of the terms, rounded once to F32, and whether it clamped to
the largest finite value (R58, R59, R86). -/
def accF32 (terms : List Val) : W32 × Bool :=
  let v := Val.sum terms
  (toF32 v, (convert .f32 v).2)

/-- The halves of the three-pass split: high part and low part as B16 codes (R70). An infinite or NaN operand gives a
NaN low part. -/
def splitB16 (v : Val) : Nat × Nat :=
  let hi := (convert .b16 v).1
  (hi, (convert .b16 (Val.add v (decodeFloat .b16 hi).neg)).1)

end Sys2Proof.Machine
end

