-- ==== Sys2Proof/Machine/Arith.lean ====
section
/-! DEFINITION. Truncating arithmetic in F32, H16 and B16 (R231, R232, R237), and exact rational values (R316). Where a
function's value is not a dyadic number, it is computed as a lower bound of its magnitude with one more bit that says that
the bound is not exact, so that truncation and comparison see the exact value (log entry 10). -/

namespace Sys2Proof.Machine

/-- A magnitude `q * 2 ^ x`, with a sticky bit below. -/
def sticky (neg : Bool) (q : Nat) (x : Int) (inexact : Bool) : Val :=
  .fin neg (2 * q + (if inexact then 1 else 0)) (x - 1)

/-- Quotient of two values (IEEE 754 cases for zeros and infinities, R232). -/
def Val.div : Val → Val → Val
  | .nan, _ => .nan
  | _, .nan => .nan
  | .inf _, .inf _ => .nan
  | .inf a, .fin b _ _ => .inf (a != b)
  | .fin a _ _, .inf b => .fin (a != b) 0 0
  | .fin a m e, .fin b n f =>
    if n = 0 then (if m = 0 then .nan else .inf (a != b))
    else
      let k := 160 + Nat.log2 n
      sticky (a != b) (m * 2 ^ k / n) (e - f - k) (m * 2 ^ k % n != 0)

/-- Integer square root, bit by bit. -/
def isqrtLoop : Nat → Nat → Nat → Nat
  | 0, _, r => r
  | k + 1, v, r => if (r + 2 ^ k) * (r + 2 ^ k) ≤ v then isqrtLoop k v (r + 2 ^ k) else isqrtLoop k v r

/-- The floor of a square root. -/
def isqrt (v : Nat) : Nat := isqrtLoop (Nat.log2 v / 2 + 1) v 0

/-- Square root (R236, Table 7.4): a value below -0 gives NaN. -/
def Val.sqrt : Val → Val
  | .nan => .nan
  | .inf n => if n then .nan else .inf false
  | .fin n m e =>
    if m = 0 then .fin n 0 0
    else if n then .nan
    else
      let sh : Nat := 120 + (if (e % 2 = 0) then 0 else 1)
      let v := m * 2 ^ sh
      let r := isqrt v
      sticky false r ((e - (sh : Int)) / 2) (r * r != v)

/-- Reciprocal square root of a positive value. -/
def Val.rsqrt : Val → Val
  | .nan => .nan
  | .inf n => if n then .nan else .fin false 0 0
  | .fin n m e =>
    if m = 0 then .inf n
    else if n then .nan
    else
      let k : Nat := 240 + 2 * Nat.log2 m + (if e % 2 = 0 then 0 else 1)
      let v := 2 ^ k / m
      let r := isqrt v
      sticky false r ((-e - (k : Int)) / 2) (r * r * m != 2 ^ k)

/-- Fraction bits kept by the power and logarithm loops. -/
abbrev expBits : Nat := 320

/-- 2 ^ (f / 2 ^ n) for the low `n` bits of f, as a fixed-point number with `expBits` fraction bits: `root` is the
square root taken once more at every bit. -/
def exp2Loop : Nat → Nat → Nat → Nat → Nat
  | 0, _, _, acc => acc
  | n + 1, f, root, acc =>
    let root := isqrt (root * 2 ^ expBits)
    exp2Loop n f root (if f.testBit n then acc * root / 2 ^ expBits else acc)

/-- 2 ^ a (Table 7.4). -/
def Val.exp2 : Val → Val
  | .nan => .nan
  | .inf n => if n then .fin false 0 0 else .inf false
  | .fin n m e =>
    if m = 0 then .pow2 0
    else
      -- the integer part and the fraction bits of a, whose magnitude is below 2 ^ 12 where the result is not at a limit
      if 12 ≤ log2Mag m e then (if n then .fin false 1 (-5000) else .fin false 1 5000)
      else
        let fb := (-e).toNat
        let v := signedMag n (if 0 ≤ e then m * 2 ^ e.toNat else m)
        let i := v / (2 ^ fb : Nat)
        let f := (v % (2 ^ fb : Nat)).toNat
        if f = 0 then .pow2 i
        else sticky false (exp2Loop fb f (2 ^ (expBits + 1)) (2 ^ expBits)) (i - expBits) true

/-- Bits of log2 of a number in [1, 2), held with `expBits` fraction bits. -/
def log2Loop : Nat → Nat → Nat → Nat
  | 0, _, acc => acc
  | n + 1, y, acc =>
    let y2 := y * y / 2 ^ expBits
    if 2 ^ (expBits + 1) ≤ y2 then log2Loop n (y2 / 2) (2 * acc + 1) else log2Loop n y2 (2 * acc)

/-- log2 of a positive value (Table 7.4); a zero is the caller's. -/
def Val.log2 : Val → Val
  | .nan => .nan
  | .inf n => if n then .nan else .inf false
  | .fin n m e =>
    if m = 0 then .inf true
    else if n then .nan
    else
      let k := Nat.log2 m
      let i := (k : Int) + e
      if m = 2 ^ k then Val.ofInt i
      else
        let fr := log2Loop 128 (m * 2 ^ expBits / 2 ^ k) 0
        let v := i * (2 ^ 128 : Nat) + fr
        if 0 ≤ v then sticky false v.toNat (-128) true else sticky true (v + 1).natAbs (-128) true

/-- A result rounded once toward zero into a working format, and 1 when it counts as a saturation (R231, R232). -/
def wround (f : Fmt) (v : Val) : Val × Nat :=
  let c := convert f v
  (decodeFloat f c.1, if c.2 then 1 else 0)

/-- F32 operations, each rounded toward zero. -/
def fadd (a b : Val) : Val := roundF32 (Val.add a b)
/-- a - b. -/
def fsub (a b : Val) : Val := roundF32 (Val.add a b.neg)
/-- a × b. -/
def fmul (a b : Val) : Val := roundF32 (Val.mul a b)
/-- a / b. -/
def fdiv (a b : Val) : Val := roundF32 (Val.div a b)

/-- The floor of a finite value. -/
def floorVal : Val → Int
  | .fin n m e => if 0 ≤ e then signedMag n (m * 2 ^ e.toNat) else signedMag n m / ((2 ^ (-e).toNat : Nat) : Int)
  | _ => 0

/-- The ceiling of a finite value. -/
def ceilVal (v : Val) : Int := -floorVal v.neg

/-- The smaller of two values; NaN if either is; -0 below +0 (Table 7.4). -/
def Val.min (a b : Val) : Val :=
  if a.isNaN || b.isNaN then .nan
  else if a.lt b then a else if b.lt a then b else match a with | .fin true _ _ => a | _ => b

/-- The larger of two values; NaN if either is; +0 above -0. -/
def Val.max (a b : Val) : Val :=
  if a.isNaN || b.isNaN then .nan
  else if a.lt b then b else if b.lt a then a else match a with | .fin true _ _ => b | _ => a

/-! ### Exact rationals -/

/-- A rational number with a sign that a zero keeps: sign, numerator, positive denominator. -/
structure Frac where
  neg : Bool
  num : Nat
  den : Nat
  deriving DecidableEq, Repr

/-- The rational of an integer quotient. -/
def Frac.ofInt (i : Int) (d : Nat) : Frac := ⟨decide (i < 0), i.natAbs, d⟩

/-- The rational of a finite value. -/
def Frac.ofVal : Val → Frac
  | .fin n m e => if 0 ≤ e then ⟨n, m * 2 ^ e.toNat, 1⟩ else ⟨n, m, 2 ^ (-e).toNat⟩
  | _ => ⟨false, 0, 1⟩

/-- Product; a zero takes the sign of the product (R630). -/
def Frac.mul (a b : Frac) : Frac := ⟨a.neg != b.neg, a.num * b.num, a.den * b.den⟩

/-- Sum; an exact zero is -0 when both terms are -0 (R630). -/
def Frac.add (a b : Frac) : Frac :=
  let s := signedMag a.neg (a.num * b.den) + signedMag b.neg (b.num * a.den)
  if s = 0 then ⟨a.neg && b.neg && a.num == 0 && b.num == 0, 0, a.den * b.den⟩
  else ⟨decide (s < 0), s.natAbs, a.den * b.den⟩

/-- Difference. -/
def Frac.sub (a b : Frac) : Frac := a.add ⟨!b.neg, b.num, b.den⟩

/-- A quotient by a natural number. -/
def Frac.divNat (a : Frac) (n : Nat) : Frac := ⟨a.neg, a.num, a.den * n⟩

/-- The value of a rational, to a bit below every format's precision. -/
def Frac.toVal (a : Frac) : Val := sticky a.neg (a.num * 2 ^ 200 / a.den) (-200) (a.num * 2 ^ 200 % a.den != 0)

/-- A rational truncated to F32 and back. -/
def Frac.trunc32 (a : Frac) : Frac := Frac.ofVal (roundF32 a.toVal)

end Sys2Proof.Machine
end

