-- ==== Sys2Proof/Config.lean ====
section
/-! DEFINITION. What the spec leaves open: free values and the functions that other standards fix. Nothing here has a
body, so no statement can rest on a value. -/

namespace Sys2Proof.Config

/-- A fresh value the spec does not state, numbered by the counter `fresh` of State (log entry 3). -/
opaque freeWord : Nat → BitVec 64

/-- The values that each part carries in its fuses and its test data, by dictionary entry index × 256 + subindex (Tables 14.6,
16.5, 17.10; log entry 7). -/
opaque partValue : Nat → BitVec 64

/-- The boot ROM's bytes (R564, R583; log entry 7). -/
opaque bootRom : List Byte

/-- The 64-byte vendor public key whose hash is fused, by offset (R571; log entry 7). -/
opaque vendorKey : Nat → Byte

/-- The fused 32-byte seed of the device key (R585; log entry 7). -/
opaque deviceSeed : List Byte

/-- Rollback index, body length, body and signature bytes of the images of R4 in the A slots, by slot: 0 Oryx A, 2 Gazelle A
(R570, R574; log entry 7). -/
opaque factoryRollback : Nat → Nat
/-- Body length of a factory image, less 1 and before the limit of R570. -/
opaque factoryLen : Nat → Nat
/-- Body byte of a factory image. -/
opaque factoryBody : Nat → Nat → Byte
/-- Signature byte of a factory image. -/
opaque factorySig : Nat → Nat → Byte

/-- What the B slots hold at the end of test, by slot: 1 Oryx B, 3 Gazelle B (R569; log entry 7). -/
opaque factorySlotB : Nat → List Byte

/-- The parameter block: its bytes, and the value it gives each mask and delay register by offset (R392; log entry 7). -/
opaque paramBlock : List Byte

/-- The value that the parameter block gives a mask or delay register, by BAR0 offset (R392; log entry 7). -/
opaque paramValue : Nat → BitVec 64

/-- Signature byte of the device certificate, under the vendor key (R586; log entry 7). -/
opaque certByte : Nat → Byte

/-- The bytes that a codec's decoding process writes to a frame buffer for one work unit or edge pass of a picture, by offset: its luma and
chroma samples and its motion side data (R264; the standards of Table 8.1 fix the process; log entry 8). It reads the parameter sets
that the picture names, the coded bytes of its access unit, which picture of it this is, the frame buffers of the references, none for mid-grey, and the frame
buffer as the picture's earlier units left it. -/
opaque codecUnit (codec : Nat) (sets : List (List Byte)) (coded : List Byte) (name : Nat) (refs : List (Option (List Byte)))
    (frame : List Byte) (unit : Nat) : List (Nat × Byte)

/-- SLH-DSA-SHAKE-256s verification of a signature over a message under a public key (R571; FIPS 205 fixes the
algorithm; log entry 9). -/
opaque slhVerify (key msg sig : List Byte) : Bool

/-- Byte of the SLH-DSA-SHAKE-256f signature of a message under the device key, by offset (R587; log entry 9). -/
opaque slhSign (seed msg : List Byte) : Nat → Byte

/-- Byte of PK.root that key generation gives for SK.seed, SK.prf and PK.seed (R585; log entry 9). -/
opaque slhRoot (seeds : List Byte) : Nat → Byte

end Sys2Proof.Config
end

