-- ==== Sys2Proof/Machine/Codes.lean ====
section
/-! DEFINITION. The error codes of the device: the high byte is the family, the low byte the code (R15, R16). Each name
is the mnemonic of the code table of the chapter that owns the family. -/

namespace Sys2Proof.Machine

/-- Chapter 16: Index not assigned. -/
abbrev Code.DICT_NO_INDEX : W16 := 0x0101
/-- Chapter 16: Subindex not assigned. -/
abbrev Code.DICT_NO_SUB : W16 := 0x0102
/-- Chapter 16: Write to an RO or CONST entry. -/
abbrev Code.DICT_READ_ONLY : W16 := 0x0103
/-- Chapter 16: Length against R528. -/
abbrev Code.DICT_LENGTH : W16 := 0x0104
/-- Chapter 16: Access outside the origin's rights under R530, or a KDP write to APPLY. -/
abbrev Code.DICT_NOT_OWNER : W16 := 0x0105
/-- Chapter 16: Mailbox request, or SNAP, while an access is in progress. -/
abbrev Code.DICT_BUSY : W16 := 0x0106
/-- Chapter 16: Entry not served in the present power state under R536. -/
abbrev Code.DICT_UNAVAIL : W16 := 0x0107
/-- Chapter 16: Flash commit failed. -/
abbrev Code.DICT_COMMIT : W16 := 0x0108
/-- Chapter 16: Refused NaN, or a STR character outside 0x20–0x7E. -/
abbrev Code.DICT_VALUE : W16 := 0x0109
/-- Chapter 16: DM_REQ with OP 3 or a reserved bit set. -/
abbrev Code.DICT_REQ : W16 := 0x010A
/-- Chapter 16: Value of an entry of this chapter out of range. -/
abbrev Code.DICT_RANGE : W16 := 0x010B
/-- Chapter 16: KDP write with KDP_ACCESS at 0. -/
abbrev Code.DICT_KDP_LOCKED : W16 := 0x010C
/-- Chapter 16: Malformed KDP request. -/
abbrev Code.DICT_KDP_FRAME : W16 := 0x0110
/-- Chapter 16: TOGGLE or OFFSET mismatch under R548. -/
abbrev Code.DICT_KDP_SEQ : W16 := 0x0111
/-- Chapter 16: Transfer closed under R550. -/
abbrev Code.DICT_KDP_TIMEOUT : W16 := 0x0112
/-- Chapter 16: Request while a transfer is open. -/
abbrev Code.DICT_KDP_BUSY : W16 := 0x0113
/-- Chapter 16: Transfer aborted by the master. -/
abbrev Code.DICT_KDP_ABORT : W16 := 0x0114
/-- Chapter 16: Another node uses this node's ID. -/
abbrev Code.DICT_KDP_DUP_ID : W16 := 0x0115
/-- Chapter 16: Controller entered bus-off. -/
abbrev Code.DICT_KDP_BUS_OFF : W16 := 0x0116
/-- Chapter 15: Host-port dictionary write out of range. -/
abbrev Code.HP_DICT_RANGE : W16 := 0x0201
/-- Chapter 15: Write to a per-stream or per-function register from another function. -/
abbrev Code.HP_NOT_OWNER : W16 := 0x0202
/-- Chapter 15: Completion-ring setting written while the stream is not CLOSED. -/
abbrev Code.HP_RING_STATE : W16 := 0x0203
/-- Chapter 15: CR_BASEn, CR_CFGn or CR_WBn out of range. -/
abbrev Code.HP_RING_RANGE : W16 := 0x0204
/-- Chapter 15: Consumer index against R501. -/
abbrev Code.HP_CR_HEAD : W16 := 0x0205
/-- Chapter 15: Data-port access outside the permitted range. -/
abbrev Code.HP_DP_RANGE : W16 := 0x0206
/-- Chapter 15: Stream-aperture access against R495. -/
abbrev Code.HP_DP_ALIGN : W16 := 0x0207
/-- Chapter 15: ATS_MODE 1 or 2 without ATS Enable. -/
abbrev Code.HP_ATS_MODE : W16 := 0x0208
/-- Chapter 15: Release while the link is down. -/
abbrev Code.HP_CONTAIN_LINK : W16 := 0x0209
/-- Chapter 15: Host-port register field out of range. -/
abbrev Code.HP_CFG_RANGE : W16 := 0x020A
/-- Chapter 15: BAR0 access of a size or alignment against R492. -/
abbrev Code.HP_ACCESS : W16 := 0x020B
/-- Chapter 15: Port frozen under R515. -/
abbrev Code.HP_FROZEN : W16 := 0x0210
/-- Chapter 15: Translation refused under R507. -/
abbrev Code.HP_XLATE : W16 := 0x0211
/-- Chapter 15: Device request timed out under R511. -/
abbrev Code.HP_CPL_TIMEOUT : W16 := 0x0212
/-- Chapter 15: Poisoned write discarded under R497. -/
abbrev Code.HP_POISON_RX : W16 := 0x0213
/-- Chapter 17: Entry value out of range. -/
abbrev Code.START_DICT_RANGE : W16 := 0x0301
/-- Chapter 17: Command not allowed in the present state. -/
abbrev Code.START_STATE : W16 := 0x0302
/-- Chapter 17: Image header against Table 17.4. -/
abbrev Code.START_IMG_HDR : W16 := 0x0303
/-- Chapter 17: Vendor key does not match the fused hash. -/
abbrev Code.START_KEY : W16 := 0x0304
/-- Chapter 17: Signature check failed. -/
abbrev Code.START_SIG : W16 := 0x0305
/-- Chapter 17: ROLLBACK below the fused count. -/
abbrev Code.START_ROLLBACK : W16 := 0x0306
/-- Chapter 17: Pair not tested together under R575. -/
abbrev Code.START_PAIR_UNTESTED : W16 := 0x0307
/-- Chapter 17: Flash erase, program or read-back failed. -/
abbrev Code.START_FLASH : W16 := 0x0308
/-- Chapter 17: Self-test failed at stage 8. -/
abbrev Code.START_BIST : W16 := 0x0309
/-- Chapter 17: Start exceeded 2,000 ms. -/
abbrev Code.START_TIMEOUT : W16 := 0x030A
/-- Chapter 17: Oryx watchdog expired. -/
abbrev Code.START_WATCHDOG : W16 := 0x030B
/-- Chapter 17: Uncorrectable error in Oryx memory. -/
abbrev Code.START_ORYX_UE : W16 := 0x030C
/-- Chapter 17: Pair changed under R577. -/
abbrev Code.START_SLOT_SWITCH : W16 := 0x030D
/-- Chapter 17: Recovery entered; DETAIL holds MODE. -/
abbrev Code.START_RECOVERY : W16 := 0x030E
/-- Chapter 17: Update write not allowed in UPD_STATE or with a trial pair. -/
abbrev Code.START_UPD_STATE : W16 := 0x0310
/-- Chapter 17: Chunk offset, trailing bytes or length against R581. -/
abbrev Code.START_UPD_SEQ : W16 := 0x0311
/-- Chapter 17: Rollback fuse did not read back. -/
abbrev Code.START_FUSE : W16 := 0x0312
/-- Chapter 17: EXTEND names a register other than 6 or 7. -/
abbrev Code.START_EXTEND : W16 := 0x0313
/-- Chapter 17: Nonce or request while a report is signed. -/
abbrev Code.START_ATT_BUSY : W16 := 0x0314
/-- Chapter 14: Power dictionary write out of range. -/
abbrev Code.PWR_DICT_RANGE : W16 := 0x0401
/-- Chapter 14: COMMAND not allowed in the present state. -/
abbrev Code.PWR_STATE : W16 := 0x0402
/-- Chapter 14: Fused voltage table failed R461. -/
abbrev Code.PWR_FUSE : W16 := 0x0403
/-- Chapter 14: Slot closed because its context was shed. -/
abbrev Code.PWR_SHED : W16 := 0x0410
/-- Chapter 14: Fixed-frequency mode overridden under R471. -/
abbrev Code.PWR_FIXED_BROKEN : W16 := 0x0411
/-- Chapter 14: Throttle episode under R476. -/
abbrev Code.PWR_THROTTLE : W16 := 0x0412
/-- Chapter 14: MV9064-S below 0 °C; boost points withheld. -/
abbrev Code.PWR_COLD : W16 := 0x0413
/-- Chapter 14: Thermal trip under R477. -/
abbrev Code.PWR_TRIP : W16 := 0x0414
/-- Chapter 11: Memory dictionary write out of range. -/
abbrev Code.MEM_DICT_RANGE : W16 := 0x0501
/-- Chapter 11: Parameter block unusable; ROM defaults written under R392. -/
abbrev Code.MEM_PARAM_BLOCK : W16 := 0x0502
/-- Chapter 11: Access outside every aperture under R384. -/
abbrev Code.MEM_ADDR : W16 := 0x0503
/-- Chapter 11: Pseudo-channel failed under R393, or a request to a failed pseudo-channel. -/
abbrev Code.MEM_PC_FAIL : W16 := 0x0504
/-- Chapter 11: Stack temperature passed 85 °C; refresh interval halved. -/
abbrev Code.MEM_HOT : W16 := 0x0505
/-- Chapter 12: Uncorrectable HBM word not rebuilt, or uncorrectable SRAM word read. -/
abbrev Code.MEM_UE : W16 := 0x0510
/-- Chapter 12: Read of a poisoned word. -/
abbrev Code.MEM_POISON : W16 := 0x0511
/-- Chapter 12: Page rebuild failed under R423 or R426. -/
abbrev Code.MEM_PAGE_LOST : W16 := 0x0512
/-- Chapter 12: Scrub syndrome pointing to no single word. -/
abbrev Code.MEM_PAGE_MISMATCH : W16 := 0x0513
/-- Chapter 12: Uncorrectable SRAM word found by the scrubber. -/
abbrev Code.MEM_SRAM_UE : W16 := 0x0514
/-- Chapter 12: Location of dirty data lost under R431. -/
abbrev Code.MEM_TAG_UE : W16 := 0x0515
/-- Chapter 12: Arm write with FLIP_ENABLE at 0. -/
abbrev Code.MEM_FLIP_LOCKED : W16 := 0x0516
/-- Chapter 12: Arm write with a reserved domain or bad target. -/
abbrev Code.MEM_FLIP_RANGE : W16 := 0x0517
/-- Chapter 12: Scrub corrected a word that the word code had accepted with a wrong value, under R428. -/
abbrev Code.MEM_SILENT_FIX : W16 := 0x0518
/-- Chapter 13: Coil dictionary write out of range. -/
abbrev Code.COIL_DICT_RANGE : W16 := 0x0601
/-- Chapter 13: Regions did not fit; defaults or empty pools under R441. -/
abbrev Code.COIL_LAYOUT : W16 := 0x0602
/-- Chapter 13: Reserved OP or reserved command bit. -/
abbrev Code.COIL_CMD : W16 := 0x0603
/-- Chapter 13: Owner number invalid, not owned by the writing function, or DISABLED. -/
abbrev Code.COIL_OWNER : W16 := 0x0604
/-- Chapter 13: Size 0 or above 64 MiB, or a reservation above BUFFERS. -/
abbrev Code.COIL_SIZE : W16 := 0x0605
/-- Chapter 13: No grantable buffer under R447. -/
abbrev Code.COIL_EXHAUSTED : W16 := 0x0606
/-- Chapter 13: FREE of an address that is not the first byte of a buffer held by the owner. -/
abbrev Code.COIL_ADDR : W16 := 0x0607
/-- Chapter 13: Reservation beyond FREE under R446. -/
abbrev Code.COIL_RESERVE : W16 := 0x0608
/-- Chapter 13: Command written while DONE is 0. -/
abbrev Code.COIL_BUSY : W16 := 0x0609
/-- Chapter 13: Wait limit reached under R448. -/
abbrev Code.COIL_TIMEOUT : W16 := 0x060A
/-- Chapter 10: Dictionary write out of range. -/
abbrev Code.SCH_DICT_RANGE : W16 := 0x0701
/-- Chapter 10: Setting or command not allowed in the context's state. -/
abbrev Code.SCH_CTX_STATE : W16 := 0x0702
/-- Chapter 10: ENABLE check 1–5 of R335 failed. -/
abbrev Code.SCH_CTX_CONFIG : W16 := 0x0703
/-- Chapter 10: Window or save area not obtainable. -/
abbrev Code.SCH_CTX_MEMORY : W16 := 0x0704
/-- Chapter 10: Herd masks would overlap. -/
abbrev Code.SCH_HERD_CONFIG : W16 := 0x0705
/-- Chapter 10: Herd write with contexts in use. -/
abbrev Code.SCH_HERD_BUSY : W16 := 0x0706
/-- Chapter 10: Queue record field out of range. -/
abbrev Code.SCH_Q_RANGE : W16 := 0x0710
/-- Chapter 10: BIND of a bound queue, or UNBIND with an open step. -/
abbrev Code.SCH_Q_STATE : W16 := 0x0711
/-- Chapter 10: Context or function not owned, not enabled, or not the writer's. -/
abbrev Code.SCH_Q_CONTEXT : W16 := 0x0712
/-- Chapter 10: Doorbell of an unbound queue. -/
abbrev Code.SCH_DB_UNBOUND : W16 := 0x0713
/-- Chapter 10: Doorbell written by another function. -/
abbrev Code.SCH_DB_OWNER : W16 := 0x0714
/-- Chapter 10: Tail against R340. -/
abbrev Code.SCH_DB_RANGE : W16 := 0x0715
/-- Chapter 10: Descriptor fetch poisoned or failed. -/
abbrev Code.SCH_DESC_FETCH : W16 := 0x0716
/-- Chapter 10: Reserved descriptor field not 0. -/
abbrev Code.SCH_DESC_RSVD : W16 := 0x0717
/-- Chapter 10: SLOTS out of range, or a stream in two slots. -/
abbrev Code.SCH_DESC_SLOTS : W16 := 0x0718
/-- Chapter 10: Entry absent, unreadable or without a usable variant. -/
abbrev Code.SCH_DESC_ENTRY : W16 := 0x0719
/-- Chapter 10: Augmentation table misaligned or outside the window. -/
abbrev Code.SCH_DESC_AUG : W16 := 0x071A
/-- Chapter 10: Stream not owned by the function, or a picture slot in a queue without periods. -/
abbrev Code.SCH_DESC_STREAM : W16 := 0x071B
/-- Chapter 10: HITCH or N out of range. -/
abbrev Code.SCH_HITCH_FIELD : W16 := 0x0720
/-- Chapter 10: Context's herd not in HERDS. -/
abbrev Code.SCH_HITCH_ACCESS : W16 := 0x0721
/-- Chapter 10: Instruction or signal against LOCK, release by a non-holder, or a SCH_HITCHk write against R370. -/
abbrev Code.SCH_HITCH_MODE : W16 := 0x0722
/-- Chapter 10: COUNT would pass 65,535. -/
abbrev Code.SCH_HITCH_OVF : W16 := 0x0723
/-- Chapter 10: Wait beyond its TIMEOUT. -/
abbrev Code.SCH_HITCH_TIMEOUT : W16 := 0x0724
/-- Chapter 10: SCH_HITCHk write against R369. -/
abbrev Code.SCH_HITCH_BUSY : W16 := 0x0725
/-- Chapter 10: Step stopped by a cluster reset. -/
abbrev Code.SCH_CLUSTER_RESET : W16 := 0x0730
/-- Chapter 10: Step abandoned because its context faulted. -/
abbrev Code.SCH_CTX_FAULTED : W16 := 0x0731
/-- Chapter 10: Uncorrectable error on save or restore. -/
abbrev Code.SCH_SAVE_UE : W16 := 0x0732
/-- Chapter 10: Step abandoned by DISABLE. -/
abbrev Code.SCH_CTX_DISABLED : W16 := 0x0733
/-- Chapter 04: Opcode reserved or unassigned. -/
abbrev Code.WALK_OPCODE : W16 := 0x0801
/-- Chapter 04: Reserved instruction field not 0, or a DW field set outside DW. -/
abbrev Code.WALK_RSVD : W16 := 0x0802
/-- Chapter 04: REGION or SPLIT out of range, or TN not equal to DW_SUSED in DW. -/
abbrev Code.WALK_FIELD : W16 := 0x0803
/-- Chapter 04: Descriptor index beyond the table, or 0xFFFF where a tensor is required. -/
abbrev Code.WALK_DESC_INDEX : W16 := 0x0804
/-- Chapter 04: Uncorrectable error on a descriptor read. -/
abbrev Code.WALK_DESC_UE : W16 := 0x0805
/-- Chapter 04: Reserved descriptor bits, unused extents or strides, or SCALE fields not as Table 4.1 requires. -/
abbrev Code.WALK_DESC_RSVD : W16 := 0x0806
/-- Chapter 04: NDIM 0 or 7. -/
abbrev Code.WALK_NDIM : W16 := 0x0807
/-- Chapter 04: LAYOUT 5–15. -/
abbrev Code.WALK_LAYOUT : W16 := 0x0808
/-- Chapter 04: Zero point on a refused tensor or format, or out of range. -/
abbrev Code.WALK_ZP : W16 := 0x0809
/-- Chapter 04: An extent, TM or TN is 0. -/
abbrev Code.WALK_COUNT_ZERO : W16 := 0x0810
/-- Chapter 04: An extent, TM or DW field above its limit. -/
abbrev Code.WALK_COUNT_RANGE : W16 := 0x0811
/-- Chapter 04: BASE or SCALE_BASE with bits 5:0 not 0. -/
abbrev Code.WALK_ALIGN : W16 := 0x0812
/-- Chapter 04: An HBM span outside the context's memory window. -/
abbrev Code.WALK_WINDOW : W16 := 0x0813
/-- Chapter 04: A scratchpad span or staging area outside the partition, staging too small, staging overlapping an operand, or a staging area given when no staged operand is in HBM. -/
abbrev Code.WALK_SPM_FIT : W16 := 0x0814
/-- Chapter 04: Entries beyond the context's accumulator partition. -/
abbrev Code.WALK_ACC_FIT : W16 := 0x0815
/-- Chapter 04: M, K or N disagree between A, W and C, or PART extents against R137. -/
abbrev Code.WALK_DIM_MATCH : W16 := 0x0816
/-- Chapter 04: Output or PART strides do not nest, or the output or PART overlaps a span that R141 or R137 forbids. -/
abbrev Code.WALK_OUT_OVERLAP : W16 := 0x0817
/-- Chapter 04: PART present or absent against SPLIT, or P below G under a K split. -/
abbrev Code.WALK_SPLIT : W16 := 0x0818
/-- Chapter 02: A tensor descriptor or instruction carries format code 0xF. -/
abbrev Code.WALK_FMT_RSVD : W16 := 0x0830
/-- Chapter 02: A format appears in a role that Table 2.6 refuses, for example S32 as a Braid activation or U8 as a weight. -/
abbrev Code.WALK_FMT_ROLE : W16 := 0x0831
/-- Chapter 02: The activation and weight formats form no row of Table 2.7. -/
abbrev Code.WALK_FMT_PAIR : W16 := 0x0832
/-- Chapter 02: A block-scaled tensor descriptor has no scale plane, or its scale plane does not lie inside the context's memory window. -/
abbrev Code.WALK_FMT_SCALE : W16 := 0x0833
/-- Chapter 04: Bus error on an operand fetch or an output write. -/
abbrev Code.WALK_MEM_UE : W16 := 0x0840
/-- Chapter 04: Fetch time-out under R150. -/
abbrev Code.WALK_FETCH_TO : W16 := 0x0841
/-- Chapter 04: Schedule ended without END. -/
abbrev Code.WALK_NO_END : W16 := 0x0842
/-- Chapter 04: Rejected write to WLK_CFG. -/
abbrev Code.WALK_CFG_RANGE : W16 := 0x0843
/-- Chapter 03: Uncorrectable SEC-DED error on an accumulator read. -/
abbrev Code.BRD_ACC_UE : W16 := 0x0901
/-- Chapter 03: Parity error in a weight or shadow register group. -/
abbrev Code.BRD_WREG_PAR : W16 := 0x0902
/-- Chapter 03: Parity error in a feed segment at a quarter's input. -/
abbrev Code.BRD_FEED_PAR : W16 := 0x0903
/-- Chapter 03: A knot hold lasted more than 256 × KNOT_LIMIT CLKA cycles. -/
abbrev Code.BRD_KNOT_HOLD : W16 := 0x0904
/-- Chapter 03: Rejected write to BRD_CFG under R116. -/
abbrev Code.BRD_CFG_RANGE : W16 := 0x0905
/-- Chapter 03: A pass in flight was discarded by a cluster reset. -/
abbrev Code.BRD_RESET : W16 := 0x0906
/-- Chapter 03: Shape code 0b110 or 0b111. -/
abbrev Code.BRD_SHAPE_RSVD : W16 := 0x0910
/-- Chapter 03: A DW lane band extends past lane 255. -/
abbrev Code.BRD_DW_BAND : W16 := 0x0911
/-- Chapter 03: A GEMV pass has more than 16 rows. -/
abbrev Code.BRD_GEMV_ROWS : W16 := 0x0912
/-- Chapter 03: TN exceeds the strand count of the instruction's region. -/
abbrev Code.BRD_REGION : W16 := 0x0913
/-- Chapter 03: An F32S operand is not F32. -/
abbrev Code.BRD_SPLIT_FMT : W16 := 0x0914
/-- Chapter 05: SHAPE 0b100 in WCONV, or SHAPE non-zero in a reducer instruction. -/
abbrev Code.WIN_SHAPE : W16 := 0x0A01
/-- Chapter 05: SPLIT, PADMODE, RG, MODE or DESC_STRIPE not allowed for the opcode, or RG non-zero in DW. -/
abbrev Code.WIN_FIELD : W16 := 0x0A02
/-- Chapter 05: KH or KW 0 or above 31. -/
abbrev Code.WIN_KERNEL : W16 := 0x0A03
/-- Chapter 05: A stride or dilation of 0. -/
abbrev Code.WIN_STRIDE : W16 := 0x0A04
/-- Chapter 05: Reflect padding not below the extent. -/
abbrev Code.WIN_PAD : W16 := 0x0A05
/-- Chapter 05: Output extent below 1, or C extents not as R159 gives. -/
abbrev Code.WIN_GEOM : W16 := 0x0A06
/-- Chapter 05: X or C not NHWC with NDIM 3 or 4. -/
abbrev Code.WIN_LAYOUT : W16 := 0x0A07
/-- Chapter 05: Channel count not a multiple of f² for channel to space. -/
abbrev Code.WIN_REGROUP : W16 := 0x0A08
/-- Chapter 05: FH or FW not 1, 2, 4 or 8. -/
abbrev Code.WIN_FACTOR : W16 := 0x0A09
/-- Chapter 05: Reducer formats or zero points differ, a refused reducer format, or C' not a multiple of 32 for a block format. -/
abbrev Code.WIN_FMT : W16 := 0x0A0A
/-- Chapter 05: Stripe table malformed or its rows outside the local tensors. -/
abbrev Code.WIN_STRIPE : W16 := 0x0A0B
/-- Chapter 05: CG_IN or CG_OUT inconsistent with the channels, or COLS below KW. -/
abbrev Code.WIN_DW_GROUP : W16 := 0x0A0C
/-- Chapter 05: Pad mode 1 on an input without ZP_EN. -/
abbrev Code.WIN_PAD_ZP : W16 := 0x0A0D
/-- Chapter 05: More than 65,536 keys. -/
abbrev Code.SORT_KEYS : W16 := 0x0A20
/-- Chapter 05: PRE_K or OUT_K out of range. -/
abbrev Code.SORT_K : W16 := 0x0A21
/-- Chapter 05: MIN_SCORE NaN, or IOU_T NaN or outside 0.0–1.0. -/
abbrev Code.SORT_THRESH : W16 := 0x0A22
/-- Chapter 05: Score, box, class, output or count tensor in a refused format or extent. -/
abbrev Code.SORT_FMT : W16 := 0x0A23
/-- Chapter 05: Box or class descriptor present or absent against NMS or CLASS_AWARE. -/
abbrev Code.SORT_DESC : W16 := 0x0A24
/-- Chapter 05: Inputs or output shorter than R184 requires. -/
abbrev Code.SORT_DIM : W16 := 0x0A25
/-- Chapter 05: CLASS_AWARE without NMS. -/
abbrev Code.SORT_FIELD : W16 := 0x0A26
/-- Chapter 06: OPSET beyond the parameter-set table. -/
abbrev Code.QNT_OPSET_INDEX : W16 := 0x0B01
/-- Chapter 06: Uncorrectable error on a parameter-set or layer-record read. -/
abbrev Code.QNT_PARAM_UE : W16 := 0x0B02
/-- Chapter 06: Reserved parameter-set bits, or an unused field or PSPACE not 0. -/
abbrev Code.QNT_OPSET_RSVD : W16 := 0x0B03
/-- Chapter 06: SCALE_MODE 3, or SCALE not finite in mode 1. -/
abbrev Code.QNT_SCALE_MODE : W16 := 0x0B04
/-- Chapter 06: RAW with a target or a field that R198 refuses. -/
abbrev Code.QNT_RAW : W16 := 0x0B05
/-- Chapter 06: A clamp bound NaN, or CLAMP_LO above CLAMP_HI. -/
abbrev Code.QNT_CLAMP : W16 := 0x0B06
/-- Chapter 06: WSUM_EN against R202. -/
abbrev Code.QNT_ZP_PAIR : W16 := 0x0B07
/-- Chapter 06: TN not a multiple of 32 outside the last tile column for a block target. -/
abbrev Code.QNT_BLOCK_TILE : W16 := 0x0B08
/-- Chapter 06: A vector address or STATS_ADDR not aligned. -/
abbrev Code.QNT_PARAM_ALIGN : W16 := 0x0B09
/-- Chapter 06: A parameter vector outside the memory window or partition, or a statistics record outside the memory window. -/
abbrev Code.QNT_PARAM_WINDOW : W16 := 0x0B0A
/-- Chapter 06: Layer number beyond the layer table. -/
abbrev Code.QNT_LAYER : W16 := 0x0B10
/-- Chapter 06: Reserved layer-record bits not 0. -/
abbrev Code.QNT_LAYER_RSVD : W16 := 0x0B11
/-- Chapter 06: WIDE_FIRST, WIDE_COUNT or RESUME out of range, or a LAYER or END inside a wide variant. -/
abbrev Code.QNT_WIDE_RANGE : W16 := 0x0B12
/-- Chapter 06: CG 0, or more than 64 groups. -/
abbrev Code.QNT_HIST_GROUPS : W16 := 0x0B20
/-- Chapter 06: LO not finite, or INV not finite or not above 0. -/
abbrev Code.QNT_HIST_RANGE : W16 := 0x0B21
/-- Chapter 06: BINS not S32 with EXT0 260, or fewer rows than groups. -/
abbrev Code.QNT_HIST_FMT : W16 := 0x0B22
/-- Chapter 07: A vector operand with SPACE 0. -/
abbrev Code.VEC_SPACE : W16 := 0x0C01
/-- Chapter 07: NOPS 0 or above 11. -/
abbrev Code.VEC_NOPS : W16 := 0x0C02
/-- Chapter 07: Micro-operation code unassigned; a slot after NOPS not all zero; or a reserved bit, or a source field that the operation does not read, not 0 (R235). -/
abbrev Code.VEC_UOP : W16 := 0x0C03
/-- Chapter 07: Source select 14 or 15, a register read before it is written, or Y or Z read when absent. -/
abbrev Code.VEC_REG : W16 := 0x0C04
/-- Chapter 07: PREC 1 with an output or input that R231 refuses. -/
abbrev Code.VEC_PREC : W16 := 0x0C05
/-- Chapter 07: Operand or output extents against R236, R239, R240 or R241. -/
abbrev Code.VEC_SHAPE : W16 := 0x0C06
/-- Chapter 07: An immediate NaN, or a VOPT constant out of range. -/
abbrev Code.VEC_IMM : W16 := 0x0C07
/-- Chapter 07: VRED OP 5–7. -/
abbrev Code.VEC_RED_OP : W16 := 0x0C08
/-- Chapter 07: Index tensor not S32, or VMOVE formats unequal. -/
abbrev Code.VEC_INDEX : W16 := 0x0C09
/-- Chapter 07: VOPT operand formats against Table 7.7. -/
abbrev Code.VEC_OPT_FMT : W16 := 0x0C0A
/-- Chapter 07: SLOT beyond the step's slots. -/
abbrev Code.SCL_SLOT : W16 := 0x0C10
/-- Chapter 07: Detection, count, box or class tensor against Table 7.9 or R249; or, while TRACK or EMIT runs, a count or key index out of range under R246 and R249. -/
abbrev Code.SCL_DET_FMT : W16 := 0x0C11
/-- Chapter 07: A TRACK parameter out of range. -/
abbrev Code.SCL_TRACK_PARAM : W16 := 0x0C12
/-- Chapter 07: Embedding or counts tensor against R249. -/
abbrev Code.SCL_EMB : W16 := 0x0C13
/-- Chapter 07: MARGIN, MAX_REGIONS or MIN_SIDE out of range. -/
abbrev Code.SCL_REGION_PARAM : W16 := 0x0C14
/-- Chapter 07: A TRACK or EMIT operand span overlaps the scalar work area of R248. -/
abbrev Code.SCL_WORK : W16 := 0x0C15
/-- Chapter 07: A routine ran past 2^22 CLKA cycles. -/
abbrev Code.SCL_WATCHDOG : W16 := 0x0C20
/-- Chapter 07: Closing-record hold full under R254. -/
abbrev Code.SCL_RING_OVERRUN : W16 := 0x0C21
/-- Chapter 07: Uncorrectable error on a track-table read. -/
abbrev Code.SCL_TABLE_UE : W16 := 0x0C22
/-- Chapter 08: Command or setting write not allowed in the stream's state. -/
abbrev Code.VID_STATE : W16 := 0x0D01
/-- Chapter 08: CODEC not in Table 8.1. -/
abbrev Code.VID_CODEC : W16 := 0x0D02
/-- Chapter 08: Ceiling, depth, reference count, queue depths, START_MODE or INPUT_TIMEOUT out of range, or FB_BYTES above 64 MiB. -/
abbrev Code.VID_CEILING : W16 := 0x0D03
/-- Chapter 08: RING_BASE, RING_ENTRIES or HEAD_WB malformed. -/
abbrev Code.VID_RING : W16 := 0x0D04
/-- Chapter 08: BITBUF_POOL or SYNBUF_POOL not allowed. -/
abbrev Code.VID_BUFSIZE : W16 := 0x0D05
/-- Chapter 08: Open beyond the budget of R274. -/
abbrev Code.VID_BUDGET : W16 := 0x0D06
/-- Chapter 08: Coil reservation failed at open. -/
abbrev Code.VID_RESERVE : W16 := 0x0D07
/-- Chapter 08: OWNER_FN names a function that is not enabled. -/
abbrev Code.VID_OWNER : W16 := 0x0D08
/-- Chapter 08: Producer-index write against R266. -/
abbrev Code.VID_TAIL : W16 := 0x0D09
/-- Chapter 08: GZ_CFG field written 0. -/
abbrev Code.VID_CFG_RANGE : W16 := 0x0D0A
/-- Chapter 08: Chunk record malformed. -/
abbrev Code.VID_CHUNK : W16 := 0x0D10
/-- Chapter 08: Chunk fetch poisoned or failed. -/
abbrev Code.VID_CHUNK_FETCH : W16 := 0x0D11
/-- Chapter 08: Access unit larger than the bitstream buffer. -/
abbrev Code.VID_AU_OVF : W16 := 0x0D12
/-- Chapter 08: Access unit completed by INPUT_TIMEOUT. -/
abbrev Code.VID_TIMEOUT : W16 := 0x0D13
/-- Chapter 08: Parameter set unparseable. -/
abbrev Code.VID_PS_SYNTAX : W16 := 0x0D20
/-- Chapter 08: Parameter set above the stream's ceiling. -/
abbrev Code.VID_PS_CEILING : W16 := 0x0D21
/-- Chapter 08: Level unsupported, or its limits broken. -/
abbrev Code.VID_PS_LEVEL : W16 := 0x0D22
/-- Chapter 08: Profile or feature refused. -/
abbrev Code.VID_PS_PROFILE : W16 := 0x0D23
/-- Chapter 08: Picture refers to an absent parameter set. -/
abbrev Code.VID_NO_PS : W16 := 0x0D24
/-- Chapter 08: Syntax error in picture data. -/
abbrev Code.VID_SLICE_SYNTAX : W16 := 0x0D25
/-- Chapter 08: Access unit does not cover the picture. -/
abbrev Code.VID_SHORT : W16 := 0x0D26
/-- Chapter 08: Reference substituted. -/
abbrev Code.VID_MISSING_REF : W16 := 0x0D27
/-- Chapter 08: Picture syntax larger than the syntax buffer. -/
abbrev Code.VID_SYNTAX_OVF : W16 := 0x0D28
/-- Chapter 08: No frame buffer within POOL_WAIT. -/
abbrev Code.VID_NO_BUFFER : W16 := 0x0D29
/-- Chapter 08: Picture dropped while waiting for a RAP. -/
abbrev Code.VID_NO_RAP : W16 := 0x0D2A
/-- Chapter 08: Uncorrectable error on a syntax or reference read. -/
abbrev Code.VID_MEM_UE : W16 := 0x0D2B
/-- Chapter 08: Engine watchdog expired. -/
abbrev Code.VID_ENGINE_TO : W16 := 0x0D2C
/-- Chapter 08: Period voided by a stream reset. -/
abbrev Code.VID_RESET : W16 := 0x0D2D
/-- Chapter 08: Reference marks beyond MAX_REFS. -/
abbrev Code.VID_DPB_OVF : W16 := 0x0D2E
/-- Chapter 09: Dictionary write out of range. -/
abbrev Code.PRE_DICT_RANGE : W16 := 0x0E01
/-- Chapter 09: Plan length 0 or above 16. -/
abbrev Code.PRE_PLAN_INDEX : W16 := 0x0E10
/-- Chapter 09: Uncorrectable error on a plan or descriptor read. -/
abbrev Code.PRE_PLAN_UE : W16 := 0x0E11
/-- Chapter 09: KIND 0 or 4–255. -/
abbrev Code.PRE_JOB_KIND : W16 := 0x0E12
/-- Chapter 09: Reserved job bits, or PAD not 0 without FIT. -/
abbrev Code.PRE_JOB_RSVD : W16 := 0x0E13
/-- Chapter 09: FILTER, ORDER, MATRIX, REGIONS or RG not allowed. -/
abbrev Code.PRE_JOB_FIELD : W16 := 0x0E14
/-- Chapter 09: RANGE, MEAN, INV_STD or PAD not finite. -/
abbrev Code.PRE_JOB_PARAM : W16 := 0x0E15
/-- Chapter 09: Descriptor index beyond the table, or present or absent against Table 9.1. -/
abbrev Code.PRE_DESC : W16 := 0x0E16
/-- Chapter 09: Format 0xF or S32, or RIDX or SRC against R307. -/
abbrev Code.PRE_FMT : W16 := 0x0E17
/-- Chapter 09: A tensor with SPACE 1. -/
abbrev Code.PRE_SPACE : W16 := 0x0E18
/-- Chapter 09: Extents, NDIM or layout against R306, or OUT_W or OUT_H out of range. -/
abbrev Code.PRE_GEOM : W16 := 0x0E19
/-- Chapter 09: BASE or SCALE_BASE not 64-byte aligned. -/
abbrev Code.PRE_ALIGN : W16 := 0x0E1A
/-- Chapter 09: A span outside the context's memory window. -/
abbrev Code.PRE_WINDOW : W16 := 0x0E1B
/-- Chapter 09: Output spans overlap each other, RIDX or SRC. -/
abbrev Code.PRE_OVERLAP : W16 := 0x0E1C
/-- Chapter 09: Slot voided by DAMAGE_VOID or TAINT_VOID. -/
abbrev Code.PRE_DAMAGED : W16 := 0x0E20
/-- Chapter 09: Augmentation record against Table 9.4. -/
abbrev Code.PRE_AUG : W16 := 0x0E21
/-- Chapter 09: Bus error on a record, source or output access. -/
abbrev Code.PRE_MEM_UE : W16 := 0x0E22
/-- Chapter 09: Period closed before the slot was filled. -/
abbrev Code.PRE_CLOSED : W16 := 0x0E23
/-- Chapter 18: Generator register written while the context is not DISABLED. -/
abbrev Code.DET_GEN_STATE : W16 := 0x0F01
/-- Chapter 18: OFFSET not aligned, or COUNT above 64. -/
abbrev Code.DET_GEN_RANGE : W16 := 0x0F02
/-- Chapter 18: Generator list outside the window. -/
abbrev Code.DET_GEN_LIST : W16 := 0x0F10
/-- Chapter 18: Reserved record field not 0, KIND or P out of range, or TENSOR_ID repeated. -/
abbrev Code.DET_GEN_RSVD : W16 := 0x0F11
/-- Chapter 18: DESC not below DESC_COUNT. -/
abbrev Code.DET_GEN_DESC : W16 := 0x0F12
/-- Chapter 18: Generated tensor with the wrong format, space, layout or zero point. -/
abbrev Code.DET_GEN_FMT : W16 := 0x0F13
/-- Chapter 18: Generated span outside the window, or overlapping another generated or plan output span. -/
abbrev Code.DET_GEN_WINDOW : W16 := 0x0F14
/-- Chapter 18: Uncorrectable error on a list or descriptor read, or bus error on a fill write. -/
abbrev Code.DET_GEN_UE : W16 := 0x0F15

end Sys2Proof.Machine
end

