-- ==== Sys2Proof/Machine/DictTable.lean ====
section
/-! DEFINITION. The rows of the object dictionary: subindex, type, access code, default, survival letters and range of
every entry, from the entry tables of the chapters (R10 to R12; R529). -/

namespace Sys2Proof.Machine

/-- Entry types (R10); a BLOB or STR row says its longest value in bytes. -/
inductive DTy where
  | u8 | u16 | u32 | u64 | s32 | str (len : Nat) | blob (len : Nat)
  deriving DecidableEq, Repr

/-- Access codes (R11, Table 0.4). -/
inductive Acc where
  | ro | rw | wo | rwp | const
  deriving DecidableEq, Repr

/-- The range a numeric entry's meaning gives (R38, R531 step 10). -/
inductive Rng where
  | any
  | iv (lo hi : Nat)
  | zeroOr (lo hi : Nat)
  | oneOf (vs : List Nat)
  | aligned (n : Nat)
  | multiple (n lo hi : Nat)
  deriving DecidableEq, Repr

/-- A value lies in a range. -/
def Rng.ok : Rng → Nat → Bool
  | .any, _ => true
  | .iv lo hi, v => decide (lo ≤ v) && decide (v ≤ hi)
  | .zeroOr lo hi, v => v == 0 || (decide (lo ≤ v) && decide (v ≤ hi))
  | .oneOf vs, v => vs.contains v
  | .aligned n, v => v % n == 0
  | .multiple n lo hi, v => v % n == 0 && decide (lo ≤ v) && decide (v ≤ hi)

/-- A row of an entry table. `sub` to `sub + n - 1` are its subindices; `dflt` lists the defaults of these, the last one
repeated. `surv` has one bit per letter of Table 0.5: P 1, W 2, E 4, F 8, C 16, S 32, N 64, B 128. -/
structure DRow where
  sub  : Nat
  n    : Nat
  ty   : DTy
  acc  : Acc
  dflt : List Nat
  surv : Nat
  rng  : Rng
  code : W16
  deriving DecidableEq, Repr

/-- Entries of index 0x2000 and following, part 1. -/
def rowsStream0 : List DRow := [
  -- COMMAND (Table 8.4)
  ⟨0x01, 1, .u8, .wo, [0], 0, .any, 0⟩,
  -- STATE (Table 8.4)
  ⟨0x02, 1, .u8, .ro, [0], 80, .any, 0⟩,
  -- CODEC (Table 8.4)
  ⟨0x03, 1, .u8, .rw, [1], 240, .iv 1 3, Code.VID_CODEC⟩,
  -- MAX_WIDTH (Table 8.4)
  ⟨0x04, 1, .u16, .rw, [1920], 240, .iv 64 8192, Code.VID_CEILING⟩,
  -- MAX_HEIGHT (Table 8.4)
  ⟨0x05, 1, .u16, .rw, [1080], 240, .iv 64 4352, Code.VID_CEILING⟩,
  -- MAX_DEPTH (Table 8.4)
  ⟨0x06, 1, .u8, .rw, [8], 240, .oneOf [8, 10], Code.VID_CEILING⟩,
  -- MAX_REFS (Table 8.4)
  ⟨0x07, 1, .u8, .rw, [4], 240, .iv 1 16, Code.VID_CEILING⟩,
  -- MAX_FPS (Table 8.4)
  ⟨0x08, 1, .u16, .rw, [30], 240, .iv 1 240, Code.VID_CEILING⟩,
  -- OUT_DEPTH (Table 8.4)
  ⟨0x09, 1, .u8, .rw, [2], 240, .iv 1 8, Code.VID_CEILING⟩,
  -- HOLD_DEPTH (Table 8.4)
  ⟨0x0A, 1, .u8, .rw, [2], 240, .iv 1 4, Code.VID_CEILING⟩,
  -- START_MODE (Table 8.4)
  ⟨0x0B, 1, .u8, .rw, [0], 240, .iv 0 1, Code.VID_CEILING⟩,
  -- OWNER_FN (Table 8.4)
  ⟨0x0C, 1, .u8, .rw, [0], 240, .iv 0 63, Code.VID_OWNER⟩,
  -- RING_BASE (Table 8.4)
  ⟨0x0D, 1, .u64, .rw, [0], 240, .aligned 32, Code.VID_RING⟩,
  -- RING_ENTRIES (Table 8.4)
  ⟨0x0E, 1, .u16, .rw, [256], 240, .oneOf [16, 32, 64, 128, 256, 512, 1024, 2048, 4096], Code.VID_RING⟩,
  -- HEAD_WB (Table 8.4)
  ⟨0x0F, 1, .u64, .rw, [0], 240, .aligned 8, Code.VID_RING⟩,
  -- BITBUF_POOL (Table 8.4)
  ⟨0x10, 1, .u8, .rw, [5], 240, .iv 4 6, Code.VID_BUFSIZE⟩,
  -- SYNBUF_POOL (Table 8.4)
  ⟨0x11, 1, .u8, .rw, [6], 240, .iv 5 7, Code.VID_BUFSIZE⟩,
  -- INPUT_TIMEOUT (Table 8.4)
  ⟨0x12, 1, .u16, .rw, [200], 240, .iv 1 10000, Code.VID_CEILING⟩,
  -- PTS_STEP (Table 8.4)
  ⟨0x13, 1, .u32, .rw, [0], 240, .any, 0⟩,
  -- ACTIVE_WIDTH (Table 8.4)
  ⟨0x18, 1, .u16, .ro, [0], 80, .any, 0⟩]

/-- Entries of index 0x2000 and following, part 2. -/
def rowsStream1 : List DRow := [
  -- ACTIVE_HEIGHT (Table 8.4)
  ⟨0x19, 1, .u16, .ro, [0], 80, .any, 0⟩,
  -- ACTIVE_DEPTH (Table 8.4)
  ⟨0x1A, 1, .u8, .ro, [0], 80, .any, 0⟩,
  -- ACTIVE_PROFILE (Table 8.4)
  ⟨0x1B, 1, .u8, .ro, [0], 80, .any, 0⟩,
  -- ACTIVE_LEVEL (Table 8.4)
  ⟨0x1C, 1, .u8, .ro, [0], 80, .any, 0⟩,
  -- LAST_CODE (Table 8.4)
  ⟨0x1D, 1, .u16, .ro, [0], 112, .any, 0⟩,
  -- AU_IN (Table 8.4)
  ⟨0x20, 1, .u64, .ro, [0], 112, .any, 0⟩,
  -- BYTES_IN (Table 8.4)
  ⟨0x21, 1, .u64, .ro, [0], 112, .any, 0⟩,
  -- PIC_DECODED (Table 8.4)
  ⟨0x22, 1, .u64, .ro, [0], 112, .any, 0⟩,
  -- PIC_DELIVERED (Table 8.4)
  ⟨0x23, 1, .u64, .ro, [0], 112, .any, 0⟩,
  -- PIC_DROPPED (Table 8.4)
  ⟨0x24, 1, .u64, .ro, [0], 112, .any, 0⟩,
  -- PIC_CONCEALED (Table 8.4)
  ⟨0x25, 1, .u64, .ro, [0], 112, .any, 0⟩,
  -- BLOCKS_CONCEALED (Table 8.4)
  ⟨0x26, 1, .u64, .ro, [0], 112, .any, 0⟩,
  -- SYNTAX_ERRORS (Table 8.4)
  ⟨0x27, 1, .u64, .ro, [0], 112, .any, 0⟩,
  -- PS_REJECTED (Table 8.4)
  ⟨0x28, 1, .u64, .ro, [0], 112, .any, 0⟩,
  -- OUT_SKIPPED (Table 8.4)
  ⟨0x29, 1, .u64, .ro, [0], 112, .any, 0⟩,
  -- CHUNKS_REJECTED (Table 8.4)
  ⟨0x2A, 1, .u64, .ro, [0], 112, .any, 0⟩,
  -- CREDIT_WAIT (Table 8.4)
  ⟨0x2B, 1, .u64, .ro, [0], 112, .any, 0⟩,
  -- GRAIN_SKIPPED (Table 8.4)
  ⟨0x2C, 1, .u64, .ro, [0], 112, .any, 0⟩,
  -- TAINTED (Table 8.4)
  ⟨0x2D, 1, .u64, .ro, [0], 112, .any, 0⟩,
  -- TRACK_TABLE (Table 8.4)
  ⟨0x30, 1, .blob 65536, .ro, [0], 80, .any, 0⟩]

/-- Entries of index 0x2000 and following, part 3. -/
def rowsStream2 : List DRow := [
  -- DAMAGE_VOID (Table 9.6)
  ⟨0x40, 1, .u8, .rw, [255], 240, .any, 0⟩,
  -- TAINT_VOID (Table 9.6)
  ⟨0x41, 1, .u8, .rw, [0], 240, .iv 0 1, Code.PRE_DICT_RANGE⟩,
  -- PICK (Table 9.6)
  ⟨0x42, 1, .u8, .rw, [0], 240, .iv 0 1, Code.PRE_DICT_RANGE⟩,
  -- SLOTS_FILLED (Table 9.6)
  ⟨0x43, 1, .u64, .ro, [0], 112, .any, 0⟩,
  -- SLOTS_VOID (Table 9.6)
  ⟨0x44, 1, .u64, .ro, [0], 112, .any, 0⟩,
  -- REGIONS_VOID (Table 9.6)
  ⟨0x45, 1, .u64, .ro, [0], 112, .any, 0⟩,
  -- PICS_PASSED (Table 9.6)
  ⟨0x46, 1, .u64, .ro, [0], 112, .any, 0⟩,
  -- LAST_PRE_CODE (Table 9.6)
  ⟨0x47, 1, .u16, .ro, [0], 112, .any, 0⟩,
  -- PERIOD_MODE (Table 10.7)
  ⟨0x48, 1, .u8, .rw, [0], 240, .iv 0 1, Code.SCH_DICT_RANGE⟩,
  -- PERIOD_LEN (Table 10.7)
  ⟨0x49, 1, .u32, .rw, [33333], 240, .iv 100 10000000, Code.SCH_DICT_RANGE⟩,
  -- PTS_PERIOD (Table 10.7)
  ⟨0x4A, 1, .u64, .rw, [0], 240, .any, 0⟩,
  -- PERIOD_MAX (Table 10.7)
  ⟨0x4B, 1, .u32, .rw, [0], 240, .zeroOr 100 10000000, Code.SCH_DICT_RANGE⟩,
  -- PERIOD_NO (Table 10.7)
  ⟨0x4C, 1, .u32, .ro, [0], 112, .any, 0⟩,
  -- LATE_DROPS (Table 10.7)
  ⟨0x4D, 1, .u64, .ro, [0], 112, .any, 0⟩,
  -- PERIODS_IDLE (Table 10.7)
  ⟨0x4E, 1, .u64, .ro, [0], 112, .any, 0⟩]

/-- Entries of index 0x2000 and following. -/
def rowsStream : List DRow := rowsStream0 ++ rowsStream1 ++ rowsStream2

/-- Entries of index 0x2100. -/
def rowsPre : List DRow := [
  -- ENGINE_MASK (Table 9.6)
  ⟨0x01, 1, .u8, .rw, [15], 248, .iv 1 15, Code.PRE_DICT_RANGE⟩,
  -- ITEMS (Table 9.6)
  ⟨0x02, 1, .u64, .ro, [0], 112, .any, 0⟩,
  -- PIXELS (Table 9.6)
  ⟨0x03, 1, .u64, .ro, [0], 112, .any, 0⟩]

/-- Entries of index 0x3000 and following, part 1. -/
def rowsContext0 : List DRow := [
  -- COMMAND (Table 10.1)
  ⟨0x01, 1, .u8, .wo, [0], 0, .any, 0⟩,
  -- STATE (Table 10.1)
  ⟨0x02, 1, .u8, .ro, [0], 112, .any, 0⟩,
  -- OWNER_FN (Table 10.1)
  ⟨0x03, 1, .u8, .rw, [0], 240, .iv 0 63, Code.SCH_DICT_RANGE⟩,
  -- HERD (Table 10.1)
  ⟨0x04, 1, .u8, .rw, [0], 240, .iv 0 7, Code.SCH_DICT_RANGE⟩,
  -- WEIGHT (Table 10.1)
  ⟨0x05, 1, .u16, .rw, [100], 240, .iv 1 65535, Code.SCH_DICT_RANGE⟩,
  -- WINDOW_SIZE (Table 10.1)
  ⟨0x06, 1, .u64, .rw, [268435456], 240, .multiple 0x200000 0x200000 0x400000000, Code.SCH_DICT_RANGE⟩,
  -- WINDOW_BASE (Table 10.1)
  ⟨0x07, 1, .u64, .ro, [0], 112, .any, 0⟩,
  -- SPM_UNITS (Table 10.1)
  ⟨0x08, 1, .u8, .rw, [16], 240, .iv 1 48, Code.SCH_DICT_RANGE⟩,
  -- ACC_UNITS (Table 10.1)
  ⟨0x09, 1, .u8, .rw, [8], 240, .iv 1 32, Code.SCH_DICT_RANGE⟩,
  -- DESC_TABLE (Table 10.1)
  ⟨0x0A, 1, .u64, .rw, [0], 240, .aligned 64, Code.SCH_DICT_RANGE⟩,
  -- DESC_COUNT (Table 10.1)
  ⟨0x0B, 1, .u16, .rw, [0], 240, .any, 0⟩,
  -- OPSET_TABLE (Table 10.1)
  ⟨0x0C, 1, .u64, .rw, [0], 240, .aligned 64, Code.SCH_DICT_RANGE⟩,
  -- OPSET_COUNT (Table 10.1)
  ⟨0x0D, 1, .u16, .rw, [0], 240, .any, 0⟩,
  -- LAYER_TABLE (Table 10.1)
  ⟨0x0E, 1, .u64, .rw, [0], 240, .aligned 64, Code.SCH_DICT_RANGE⟩,
  -- LAYER_COUNT (Table 10.1)
  ⟨0x0F, 1, .u16, .rw, [0], 240, .any, 0⟩,
  -- PLAN_TABLE (Table 10.1)
  ⟨0x10, 1, .u64, .rw, [0], 240, .aligned 64, Code.SCH_DICT_RANGE⟩,
  -- PLAN_COUNT (Table 10.1)
  ⟨0x11, 1, .u8, .rw, [0], 240, .any, 0⟩,
  -- ENTRY_TABLE (Table 10.1)
  ⟨0x12, 1, .u64, .rw, [0], 240, .aligned 64, Code.SCH_DICT_RANGE⟩,
  -- ENTRY_COUNT (Table 10.1)
  ⟨0x13, 1, .u16, .rw, [1], 240, .iv 1 65535, Code.SCH_DICT_RANGE⟩,
  -- EXACT (Table 10.1)
  ⟨0x14, 1, .u8, .rw, [0], 240, .iv 0 1, Code.SCH_DICT_RANGE⟩]

/-- Entries of index 0x3000 and following, part 2. -/
def rowsContext1 : List DRow := [
  -- FIXED_G (Table 10.1)
  ⟨0x15, 1, .u8, .rw, [0], 240, .oneOf [0, 1, 2, 4, 8], Code.SCH_DICT_RANGE⟩,
  -- CLUSTER_MAX (Table 10.1)
  ⟨0x16, 1, .u8, .rw, [8], 240, .oneOf [1, 2, 4, 8], Code.SCH_DICT_RANGE⟩,
  -- SEED (Table 10.1)
  ⟨0x17, 1, .u64, .rw, [0], 240, .any, 0⟩,
  -- DEV_COUNT (Table 10.1)
  ⟨0x18, 1, .u8, .rw, [1], 240, .iv 1 8, Code.SCH_DICT_RANGE⟩,
  -- DEV_RANK (Table 10.1)
  ⟨0x19, 1, .u8, .rw, [0], 240, .iv 0 7, Code.SCH_DICT_RANGE⟩,
  -- HITCH_TIMEOUT (Table 10.1)
  ⟨0x1A, 1, .u32, .rw, [1000000], 240, .iv 1 60000000, Code.SCH_DICT_RANGE⟩,
  -- SAVE_BASE (Table 10.1)
  ⟨0x1B, 1, .u64, .ro, [0], 112, .any, 0⟩,
  -- SAVE_SIZE (Table 10.1)
  ⟨0x1C, 1, .u64, .ro, [0], 112, .any, 0⟩,
  -- LAST_CODE (Table 10.1)
  ⟨0x1D, 1, .u16, .ro, [0], 112, .any, 0⟩,
  -- VT (Table 10.1)
  ⟨0x1E, 1, .u64, .ro, [0], 112, .any, 0⟩,
  -- STEPS_OPENED (Table 10.1)
  ⟨0x20, 1, .u64, .ro, [0], 112, .any, 0⟩,
  -- STEPS_COMPLETE (Table 10.1)
  ⟨0x21, 1, .u64, .ro, [0], 112, .any, 0⟩,
  -- STEPS_WIDENED (Table 10.1)
  ⟨0x22, 1, .u64, .ro, [0], 112, .any, 0⟩,
  -- STEPS_SKIPPED (Table 10.1)
  ⟨0x23, 1, .u64, .ro, [0], 112, .any, 0⟩,
  -- LATE_DROPS (Table 10.1)
  ⟨0x24, 1, .u64, .ro, [0], 112, .any, 0⟩,
  -- FAULTS (Table 10.1)
  ⟨0x25, 1, .u64, .ro, [0], 112, .any, 0⟩,
  -- QUEUE_WAIT (Table 10.1)
  ⟨0x26, 1, .u64, .ro, [0], 112, .any, 0⟩,
  -- PREEMPTIONS (Table 10.1)
  ⟨0x27, 1, .u64, .ro, [0], 112, .any, 0⟩,
  -- ENGINE_CYCLES (Table 10.1)
  ⟨0x28, 1, .u64, .ro, [0], 112, .any, 0⟩,
  -- PRE_CYCLES (Table 10.1)
  ⟨0x29, 1, .u64, .ro, [0], 112, .any, 0⟩]

/-- Entries of index 0x3000 and following, part 3. -/
def rowsContext2 : List DRow := [
  -- BYTES_MOVED (Table 10.1)
  ⟨0x2A, 1, .u64, .ro, [0], 112, .any, 0⟩,
  -- ENERGY_UJ (Table 10.1)
  ⟨0x2B, 1, .u64, .ro, [0], 112, .any, 0⟩,
  -- HITCH_FORCED (Table 10.1)
  ⟨0x2C, 1, .u64, .ro, [0], 112, .any, 0⟩]

/-- Entries of index 0x3000 and following. -/
def rowsContext : List DRow := rowsContext0 ++ rowsContext1 ++ rowsContext2

/-- Entries of index 0x3500. -/
def rowsHerd : List DRow := [
  -- PC_MASK (Table 10.10)
  ⟨0x10, 8, .u32, .rw, [4294967295, 0], 240, .any, 0⟩,
  -- WAY_MASK (Table 10.10)
  ⟨0x20, 8, .u32, .rw, [4294967295, 0], 240, .any, 0⟩,
  -- CONTEXTS (Table 10.10)
  ⟨0x30, 8, .u16, .ro, [0], 112, .any, 0⟩]

/-- Entries of index 0x3400. -/
def rowsSched : List DRow := [
  -- PREEMPT_LAG (Table 10.13)
  ⟨0x01, 1, .u32, .rw, [64], 240, .iv 0 16777215, Code.SCH_DICT_RANGE⟩,
  -- PASS_LIMIT (Table 10.13)
  ⟨0x02, 1, .u32, .rw, [1000], 240, .iv 1 1000000, Code.SCH_DICT_RANGE⟩,
  -- PLACEMENTS (Table 10.13)
  ⟨0x10, 1, .u64, .ro, [0], 112, .any, 0⟩,
  -- SWITCHES (Table 10.13)
  ⟨0x11, 1, .u64, .ro, [0], 112, .any, 0⟩,
  -- SUSPENSIONS (Table 10.13)
  ⟨0x12, 1, .u64, .ro, [0], 112, .any, 0⟩,
  -- LATE_DROPS (Table 10.13)
  ⟨0x13, 1, .u64, .ro, [0], 112, .any, 0⟩,
  -- DESC_REJECTS (Table 10.13)
  ⟨0x14, 1, .u64, .ro, [0], 112, .any, 0⟩,
  -- DB_REJECTS (Table 10.13)
  ⟨0x15, 1, .u64, .ro, [0], 112, .any, 0⟩,
  -- HITCH_FORCED (Table 10.13)
  ⟨0x16, 1, .u64, .ro, [0], 112, .any, 0⟩]

/-- Entries of index 0x1500, part 1. -/
def rowsMemory0 : List DRow := [
  -- HBM_MIB (Table 11.9)
  ⟨0x01, 1, .u32, .const, [24576], 255, .any, 0⟩,
  -- DATA_MIB (Table 11.9)
  ⟨0x02, 1, .u32, .const, [24384], 255, .any, 0⟩,
  -- COMMON_MIB (Table 11.9)
  ⟨0x03, 1, .u16, .rwp, [192], 255, .multiple 2 0 762, Code.MEM_DICT_RANGE⟩,
  -- COMMON_MIB_ACTIVE (Table 11.9)
  ⟨0x04, 1, .u16, .ro, [192], 112, .any, 0⟩,
  -- COMMON_WAYS (Table 11.9)
  ⟨0x05, 1, .u32, .rw, [4294967295], 248, .iv 1 4294967295, Code.MEM_DICT_RANGE⟩,
  -- DOZE_PC_MASK (Table 11.9)
  ⟨0x06, 1, .u32, .rw, [4294967295], 248, .any, 0⟩,
  -- DOZE_IDLE (Table 11.9)
  ⟨0x07, 1, .u32, .rw, [1000], 248, .iv 10 1000000, Code.MEM_DICT_RANGE⟩,
  -- PD_IDLE (Table 11.9)
  ⟨0x08, 1, .u16, .rw, [16], 248, .iv 1 65535, Code.MEM_DICT_RANGE⟩,
  -- AGE_CAP (Table 11.9)
  ⟨0x09, 1, .u16, .rw, [16], 248, .iv 1 1023, Code.MEM_DICT_RANGE⟩,
  -- PARAM_STATE (Table 11.9)
  ⟨0x0A, 1, .u8, .ro, [0], 112, .any, 0⟩,
  -- PC_FAILED (Table 11.9)
  ⟨0x0B, 1, .u32, .ro, [0], 112, .any, 0⟩,
  -- APERTURE_MIB (Table 11.9)
  ⟨0x10, 8, .u32, .ro, [18240, 0], 112, .any, 0⟩,
  -- FREE_MIB (Table 11.9)
  ⟨0x18, 8, .u32, .ro, [18240, 0], 112, .any, 0⟩,
  -- LARGEST_MIB (Table 11.9)
  ⟨0x20, 8, .u32, .ro, [18240, 0], 112, .any, 0⟩,
  -- SCRUB_RATE (Table 12.5)
  ⟨0x40, 1, .u16, .rw, [16], 248, .iv 0 1024, Code.MEM_DICT_RANGE⟩,
  -- SRAM_SCRUB_MS (Table 12.5)
  ⟨0x41, 1, .u16, .rw, [100], 248, .iv 1 10000, Code.MEM_DICT_RANGE⟩,
  -- SPLICE_HOLD (Table 12.5)
  ⟨0x42, 1, .u16, .rw, [64], 248, .iv 1 65535, Code.MEM_DICT_RANGE⟩,
  -- CE_WRITEBACK (Table 12.5)
  ⟨0x43, 1, .u8, .rw, [1], 248, .iv 0 1, Code.MEM_DICT_RANGE⟩,
  -- FLIP_ENABLE (Table 12.5)
  ⟨0x44, 1, .u8, .rw, [0], 0, .iv 0 1, Code.MEM_DICT_RANGE⟩,
  -- HBM_CE (Table 12.5)
  ⟨0x50, 1, .u64, .ro, [0], 112, .any, 0⟩]

/-- Entries of index 0x1500, part 2. -/
def rowsMemory1 : List DRow := [
  -- HBM_UE (Table 12.5)
  ⟨0x51, 1, .u64, .ro, [0], 112, .any, 0⟩,
  -- PAGE_RECOVERED (Table 12.5)
  ⟨0x52, 1, .u64, .ro, [0], 112, .any, 0⟩,
  -- PAGE_LOST (Table 12.5)
  ⟨0x53, 1, .u64, .ro, [0], 112, .any, 0⟩,
  -- PAGE_MISMATCH (Table 12.5)
  ⟨0x54, 1, .u64, .ro, [0], 112, .any, 0⟩,
  -- SRAM_CE (Table 12.5)
  ⟨0x55, 1, .u64, .ro, [0], 112, .any, 0⟩,
  -- SRAM_UE (Table 12.5)
  ⟨0x56, 1, .u64, .ro, [0], 112, .any, 0⟩,
  -- SCRUB_PASSES (Table 12.5)
  ⟨0x57, 1, .u64, .ro, [0], 112, .any, 0⟩,
  -- SCRUB_SKIPPED (Table 12.5)
  ⟨0x58, 1, .u64, .ro, [0], 112, .any, 0⟩,
  -- SPLICE_WAITS (Table 12.5)
  ⟨0x59, 1, .u64, .ro, [0], 112, .any, 0⟩]

/-- Entries of index 0x1500. -/
def rowsMemory : List DRow := rowsMemory0 ++ rowsMemory1

/-- Entries of index 0x1600. -/
def rowsCoil : List DRow := [
  -- LAYOUT_STATE (Table 13.5)
  ⟨0x01, 1, .u8, .ro, [0], 112, .any, 0⟩,
  -- ZERO_BYTES (Table 13.5)
  ⟨0x02, 1, .u64, .ro, [0], 112, .any, 0⟩,
  -- BUFFERS (Table 13.5)
  ⟨0x10, 8, .u32, .rwp, [16384, 4096, 2048, 512, 256, 704, 96, 16], 255, .iv 0 1048576, Code.COIL_DICT_RANGE⟩,
  -- SPILL (Table 13.5)
  ⟨0x18, 8, .u8, .rw, [1, 1, 1, 1, 1, 1, 1, 0], 248, .iv 0 1, Code.COIL_DICT_RANGE⟩,
  -- BASE (Table 13.5)
  ⟨0x20, 8, .u64, .ro, [0, 67108864, 134217728, 268435456, 402653184, 671088640, 3623878656, 5234491392], 112, .any, 0⟩,
  -- FREE (Table 13.5)
  ⟨0x28, 8, .u32, .ro, [16384, 4096, 2048, 512, 256, 704, 96, 16], 112, .any, 0⟩,
  -- RESV_UNUSED (Table 13.5)
  ⟨0x30, 8, .u32, .ro, [0], 112, .any, 0⟩,
  -- GRANTS (Table 13.5)
  ⟨0x38, 8, .u64, .ro, [0], 112, .any, 0⟩,
  -- SPILLS (Table 13.5)
  ⟨0x40, 8, .u64, .ro, [0], 112, .any, 0⟩,
  -- FAILS (Table 13.5)
  ⟨0x48, 8, .u64, .ro, [0], 112, .any, 0⟩]

/-- Entries of index 0x1400, part 1. -/
def rowsPower0 : List DRow := [
  -- COMMAND (Table 14.6)
  ⟨0x01, 1, .u8, .wo, [0], 0, .any, 0⟩,
  -- STATE (Table 14.6)
  ⟨0x02, 1, .u8, .ro, [0], 0, .any, 0⟩,
  -- CAP_W (Table 14.6)
  ⟨0x03, 1, .u16, .rw, [180], 252, .iv 45 240, Code.PWR_DICT_RANGE⟩,
  -- FIXED_FREQ (Table 14.6)
  ⟨0x04, 1, .u8, .rw, [0], 252, .iv 0 1, Code.PWR_DICT_RANGE⟩,
  -- BOOST_EN (Table 14.6)
  ⟨0x05, 1, .u8, .rw, [1], 252, .iv 0 1, Code.PWR_DICT_RANGE⟩,
  -- MAX_OP (Table 14.6)
  ⟨0x06, 1, .u8, .rw, [15], 252, .iv 9 15, Code.PWR_DICT_RANGE⟩,
  -- AVG_WINDOW_MS (Table 14.6)
  ⟨0x07, 1, .u16, .rw, [10], 252, .iv 1 1000, Code.PWR_DICT_RANGE⟩,
  -- EXCURSION_PCT (Table 14.6)
  ⟨0x08, 1, .u8, .rw, [25], 252, .iv 5 50, Code.PWR_DICT_RANGE⟩,
  -- CAP_HYST_W (Table 14.6)
  ⟨0x09, 1, .u8, .rw, [4], 252, .iv 1 20, Code.PWR_DICT_RANGE⟩,
  -- THROTTLE_TJ (Table 14.6)
  ⟨0x0A, 1, .u8, .rw, [100], 252, .iv 70 104, Code.PWR_DICT_RANGE⟩,
  -- BOOST_TJ (Table 14.6)
  ⟨0x0B, 1, .u8, .rw, [95], 252, .iv 60 103, Code.PWR_DICT_RANGE⟩,
  -- DROOP_MV (Table 14.6)
  ⟨0x0C, 1, .u8, .rw, [40], 252, .iv 20 80, Code.PWR_DICT_RANGE⟩,
  -- DROOP_HOLD_US (Table 14.6)
  ⟨0x0D, 1, .u16, .rw, [100], 252, .iv 10 10000, Code.PWR_DICT_RANGE⟩,
  -- SHED_DELAY_MS (Table 14.6)
  ⟨0x0E, 1, .u16, .rw, [20], 252, .iv 1 10000, Code.PWR_DICT_RANGE⟩,
  -- UNSHED_DELAY_MS (Table 14.6)
  ⟨0x0F, 1, .u16, .rw, [200], 252, .iv 1 60000, Code.PWR_DICT_RANGE⟩,
  -- IDLE_DELAY_US (Table 14.6)
  ⟨0x10, 1, .u16, .rw, [50], 252, .iv 1 65535, Code.PWR_DICT_RANGE⟩,
  -- NAP_EN (Table 14.6)
  ⟨0x11, 1, .u8, .rw, [0], 252, .iv 0 1, Code.PWR_DICT_RANGE⟩,
  -- NAP_DELAY_MS (Table 14.6)
  ⟨0x12, 1, .u16, .rw, [100], 252, .iv 1 60000, Code.PWR_DICT_RANGE⟩,
  -- OP (Table 14.6)
  ⟨0x20, 1, .u8, .ro, [9], 0, .any, 0⟩,
  -- MAX_OP_ACTIVE (Table 14.6)
  ⟨0x21, 1, .u8, .ro, [15], 0, .any, 0⟩]

/-- Entries of index 0x1400, part 2. -/
def rowsPower1 : List DRow := [
  -- POWER_MW (Table 14.6)
  ⟨0x22, 1, .u32, .ro, [0], 0, .any, 0⟩,
  -- EFFECTIVE_CAP_W (Table 14.6)
  ⟨0x23, 1, .u16, .ro, [180], 0, .any, 0⟩,
  -- TJ_C (Table 14.6)
  ⟨0x24, 1, .s32, .ro, [0], 0, .any, 0⟩,
  -- STACK_C (Table 14.6)
  ⟨0x25, 1, .s32, .ro, [0], 0, .any, 0⟩,
  -- V12_MV (Table 14.6)
  ⟨0x26, 1, .u32, .ro, [0], 0, .any, 0⟩,
  -- FIXED_ACTIVE (Table 14.6)
  ⟨0x27, 1, .u8, .ro, [0], 0, .any, 0⟩,
  -- SHED_COUNT (Table 14.6)
  ⟨0x28, 1, .u16, .ro, [0], 0, .any, 0⟩,
  -- DROOP_EVENTS (Table 14.6)
  ⟨0x30, 1, .u64, .ro, [0], 252, .any, 0⟩,
  -- STEPS_DOWN (Table 14.6)
  ⟨0x31, 1, .u64, .ro, [0], 252, .any, 0⟩,
  -- STEPS_UP (Table 14.6)
  ⟨0x32, 1, .u64, .ro, [0], 252, .any, 0⟩,
  -- THROTTLE_MS (Table 14.6)
  ⟨0x33, 1, .u64, .ro, [0], 252, .any, 0⟩,
  -- FIXED_OVERRIDES (Table 14.6)
  ⟨0x34, 1, .u64, .ro, [0], 252, .any, 0⟩,
  -- SHED_STEPS (Table 14.6)
  ⟨0x35, 1, .u64, .ro, [0], 252, .any, 0⟩,
  -- NAP_ENTRIES (Table 14.6)
  ⟨0x36, 1, .u64, .ro, [0], 252, .any, 0⟩,
  -- ENERGY_MJ (Table 14.6)
  ⟨0x37, 1, .u64, .ro, [0], 252, .any, 0⟩,
  -- EST_ENERGY_MJ (Table 14.6)
  ⟨0x38, 1, .u64, .ro, [0], 252, .any, 0⟩,
  -- TRIPS (Table 14.6)
  ⟨0x39, 1, .u64, .ro, [0], 254, .any, 0⟩,
  -- FUSE_MV (Table 14.6)
  ⟨0x40, 16, .u16, .const, [0], 255, .any, 0⟩,
  -- COLD_OFFSET_MV (Table 14.6)
  ⟨0x50, 1, .u8, .const, [0], 255, .any, 0⟩,
  -- E_OP4_FJ (Table 14.6)
  ⟨0x51, 1, .u32, .const, [0], 255, .any, 0⟩]

/-- Entries of index 0x1400, part 3. -/
def rowsPower2 : List DRow := [
  -- E_OP8_FJ (Table 14.6)
  ⟨0x52, 1, .u32, .const, [0], 255, .any, 0⟩,
  -- E_OP16_FJ (Table 14.6)
  ⟨0x53, 1, .u32, .const, [0], 255, .any, 0⟩,
  -- E_DUMMY_PJ (Table 14.6)
  ⟨0x54, 1, .u32, .const, [0], 255, .any, 0⟩,
  -- E_VEC_FJ (Table 14.6)
  ⟨0x55, 1, .u32, .const, [0], 255, .any, 0⟩,
  -- E_HBM_FJ (Table 14.6)
  ⟨0x56, 1, .u32, .const, [0], 255, .any, 0⟩,
  -- E_VID_NJ (Table 14.6)
  ⟨0x57, 1, .u32, .const, [0], 255, .any, 0⟩,
  -- E_PCIE_FJ (Table 14.6)
  ⟨0x58, 1, .u32, .const, [0], 255, .any, 0⟩,
  -- LEAK_IBEX_MW (Table 14.6)
  ⟨0x59, 1, .u32, .const, [0], 255, .any, 0⟩,
  -- LEAK_REST_MW (Table 14.6)
  ⟨0x5A, 1, .u32, .const, [0], 255, .any, 0⟩]

/-- Entries of index 0x1400. -/
def rowsPower : List DRow := rowsPower0 ++ rowsPower1 ++ rowsPower2

/-- Entries of index 0x1200. -/
def rowsPort : List DRow := [
  -- LINK_UP (Table 15.8)
  ⟨0x01, 1, .u8, .ro, [0], 112, .any, 0⟩,
  -- SPEED (Table 15.8)
  ⟨0x02, 1, .u8, .ro, [0], 112, .any, 0⟩,
  -- WIDTH (Table 15.8)
  ⟨0x03, 1, .u8, .ro, [0], 112, .any, 0⟩,
  -- FROZEN (Table 15.8)
  ⟨0x04, 1, .u8, .ro, [0], 112, .any, 0⟩,
  -- CAUSE (Table 15.8)
  ⟨0x05, 1, .u8, .ro, [0], 112, .any, 0⟩,
  -- RELEASE (Table 15.8)
  ⟨0x06, 1, .u8, .wo, [0], 0, .any, 0⟩,
  -- VFS_ENABLED (Table 15.8)
  ⟨0x07, 1, .u8, .ro, [0], 112, .any, 0⟩,
  -- TARGET_SPEED (Table 15.8)
  ⟨0x08, 1, .u8, .rwp, [5], 255, .iv 1 5, Code.HP_DICT_RANGE⟩,
  -- FREEZES (Table 15.8)
  ⟨0x10, 1, .u64, .ro, [0], 112, .any, 0⟩,
  -- REC_LOST (Table 15.8)
  ⟨0x11, 1, .u64, .ro, [0], 112, .any, 0⟩]

/-- Entries of index 0x1000. -/
def rowsGeneral : List DRow := [
  -- VENDOR (Table 16.5)
  ⟨0x01, 1, .str 16, .const, [0], 255, .any, 0⟩,
  -- PART (Table 16.5)
  ⟨0x02, 1, .str 16, .const, [0], 255, .any, 0⟩,
  -- GRADE (Table 16.5)
  ⟨0x03, 1, .u8, .const, [0], 255, .any, 0⟩,
  -- STEPPING (Table 16.5)
  ⟨0x04, 1, .str 4, .const, [0], 255, .any, 0⟩,
  -- SERIAL (Table 16.5)
  ⟨0x05, 1, .u64, .const, [0], 255, .any, 0⟩,
  -- ORYX_VER (Table 16.5)
  ⟨0x06, 1, .u32, .ro, [0x00030200], 254, .any, 0⟩,
  -- GAZELLE_VER (Table 16.5)
  ⟨0x07, 1, .u32, .ro, [0x00020400], 254, .any, 0⟩,
  -- ROUTINE_VER (Table 16.5)
  ⟨0x08, 1, .u32, .ro, [0x00030200], 254, .any, 0⟩,
  -- ORYX_IFACE (Table 16.5)
  ⟨0x09, 1, .u32, .ro, [0x00030200], 254, .any, 0⟩,
  -- GAZELLE_IFACE (Table 16.5)
  ⟨0x0A, 1, .u32, .ro, [0x00020400], 254, .any, 0⟩,
  -- RSP_FORMAT (Table 16.5)
  ⟨0x0B, 1, .u8, .ro, [7], 254, .any, 0⟩,
  -- COMMIT_COUNT (Table 16.5)
  ⟨0x20, 1, .u32, .ro, [0], 255, .any, 0⟩,
  -- STORE_STATE (Table 16.5)
  ⟨0x21, 1, .u8, .ro, [0], 254, .any, 0⟩,
  -- RESTORE (Table 16.5)
  ⟨0x22, 1, .u16, .wo, [0], 0, .any, 0⟩]

/-- Entries of index 0x1100. -/
def rowsNet : List DRow := [
  -- NODE_ID (Table 16.9)
  ⟨0x01, 1, .u8, .ro, [0], 252, .any, 0⟩,
  -- NODE_ID_CFG (Table 16.9)
  ⟨0x02, 1, .u8, .rwp, [0], 255, .iv 0 126, Code.DICT_RANGE⟩,
  -- STRAP_ID (Table 16.9)
  ⟨0x03, 1, .u8, .ro, [0], 254, .any, 0⟩,
  -- NOMINAL_KBPS (Table 16.9)
  ⟨0x04, 1, .u16, .rwp, [500], 255, .oneOf [125, 250, 500, 1000], Code.DICT_RANGE⟩,
  -- DATA_KBPS (Table 16.9)
  ⟨0x05, 1, .u16, .rwp, [2000], 255, .oneOf [1000, 2000, 4000, 5000], Code.DICT_RANGE⟩,
  -- NOMINAL_SP (Table 16.9)
  ⟨0x06, 1, .u16, .rwp, [800], 255, .iv 500 900, Code.DICT_RANGE⟩,
  -- DATA_SP (Table 16.9)
  ⟨0x07, 1, .u16, .rwp, [750], 255, .iv 500 900, Code.DICT_RANGE⟩,
  -- KDP_ACCESS (Table 16.9)
  ⟨0x08, 1, .u8, .rwp, [1], 255, .iv 0 1, Code.DICT_RANGE⟩,
  -- TIMEOUT_MS (Table 16.9)
  ⟨0x09, 1, .u16, .rw, [500], 252, .iv 50 10000, Code.DICT_RANGE⟩,
  -- HEARTBEAT_MS (Table 16.9)
  ⟨0x0A, 1, .u16, .rw, [1000], 252, .zeroOr 100 60000, Code.DICT_RANGE⟩,
  -- EVENT_EN (Table 16.9)
  ⟨0x0B, 1, .u8, .rw, [1], 252, .iv 0 1, Code.DICT_RANGE⟩,
  -- APPLY (Table 16.9)
  ⟨0x0C, 1, .u8, .wo, [0], 0, .any, 0⟩,
  -- STATE (Table 16.9)
  ⟨0x0D, 1, .u8, .ro, [0], 252, .any, 0⟩,
  -- FRAMES_RX (Table 16.9)
  ⟨0x10, 1, .u64, .ro, [0], 252, .any, 0⟩,
  -- FRAMES_TX (Table 16.9)
  ⟨0x11, 1, .u64, .ro, [0], 252, .any, 0⟩,
  -- BAD_FRAMES (Table 16.9)
  ⟨0x12, 1, .u64, .ro, [0], 252, .any, 0⟩,
  -- TIMEOUTS (Table 16.9)
  ⟨0x13, 1, .u64, .ro, [0], 252, .any, 0⟩,
  -- BUS_OFF (Table 16.9)
  ⟨0x14, 1, .u64, .ro, [0], 252, .any, 0⟩,
  -- TEC (Table 16.9)
  ⟨0x15, 1, .u16, .ro, [0], 252, .any, 0⟩,
  -- REC (Table 16.9)
  ⟨0x16, 1, .u16, .ro, [0], 252, .any, 0⟩]

/-- Entries of index 0x6000. -/
def rowsLog : List DRow := [
  -- LOGGED (Table 16.11)
  ⟨0x01, 1, .u64, .ro, [0], 254, .any, 0⟩,
  -- HELD (Table 16.11)
  ⟨0x02, 1, .u8, .ro, [0], 254, .any, 0⟩,
  -- LOST (Table 16.11)
  ⟨0x03, 1, .u64, .ro, [0], 254, .any, 0⟩,
  -- CLEAR (Table 16.11)
  ⟨0x04, 1, .u8, .wo, [0], 0, .any, 0⟩,
  -- RECORD (Table 16.11)
  ⟨0x10, 64, .blob 16, .ro, [0], 254, .any, 0⟩]

/-- Entries of index 0x5000. -/
def rowsSnap : List DRow := [
  -- SNAP (Table 16.12)
  ⟨0x01, 1, .u8, .wo, [0], 0, .any, 0⟩,
  -- SNAP_SEQ (Table 16.12)
  ⟨0x02, 1, .u32, .ro, [0], 112, .any, 0⟩,
  -- RECORDS (Table 16.12)
  ⟨0x10, 1, .u64, .ro, [0], 112, .any, 0⟩,
  -- PICTURES (Table 16.12)
  ⟨0x11, 1, .u64, .ro, [0], 112, .any, 0⟩,
  -- VOID_SLOTS (Table 16.12)
  ⟨0x12, 1, .u64, .ro, [0], 112, .any, 0⟩,
  -- LATE_DROPS (Table 16.12)
  ⟨0x13, 1, .u64, .ro, [0], 112, .any, 0⟩,
  -- WIDENED (Table 16.12)
  ⟨0x14, 1, .u64, .ro, [0], 112, .any, 0⟩,
  -- HBM_CE (Table 16.12)
  ⟨0x15, 1, .u64, .ro, [0], 112, .any, 0⟩,
  -- HBM_UE (Table 16.12)
  ⟨0x16, 1, .u64, .ro, [0], 112, .any, 0⟩,
  -- PAGE_LOST (Table 16.12)
  ⟨0x17, 1, .u64, .ro, [0], 112, .any, 0⟩,
  -- ENERGY_MJ (Table 16.12)
  ⟨0x18, 1, .u64, .ro, [0], 112, .any, 0⟩,
  -- DROOP_EVENTS (Table 16.12)
  ⟨0x19, 1, .u64, .ro, [0], 112, .any, 0⟩,
  -- FREEZES (Table 16.12)
  ⟨0x1A, 1, .u64, .ro, [0], 112, .any, 0⟩]

/-- Entries of index 0x1300, part 1. -/
def rowsStart0 : List DRow := [
  -- START_CMD (Table 17.10)
  ⟨0x01, 1, .u8, .wo, [0], 0, .any, 0⟩,
  -- STAGE (Table 17.10)
  ⟨0x02, 1, .u8, .ro, [0], 124, .any, 0⟩,
  -- MODE (Table 17.10)
  ⟨0x03, 1, .u8, .ro, [0], 124, .any, 0⟩,
  -- START_KIND (Table 17.10)
  ⟨0x04, 1, .u8, .ro, [0], 124, .any, 0⟩,
  -- ACTIVE_PAIR (Table 17.10)
  ⟨0x05, 1, .u8, .ro, [0], 124, .any, 0⟩,
  -- LKG_PAIR (Table 17.10)
  ⟨0x06, 1, .u8, .ro, [128], 124, .any, 0⟩,
  -- FAIL_COUNT (Table 17.10)
  ⟨0x07, 1, .u8, .ro, [0], 124, .any, 0⟩,
  -- SWITCHES (Table 17.10)
  ⟨0x08, 1, .u8, .ro, [0], 124, .any, 0⟩,
  -- CONFIRM_S (Table 17.10)
  ⟨0x09, 1, .u32, .rwp, [600], 255, .zeroOr 10 86400, Code.START_DICT_RANGE⟩,
  -- ROLLBACK_AUTO (Table 17.10)
  ⟨0x0A, 1, .u8, .rwp, [0], 255, .iv 0 1, Code.START_DICT_RANGE⟩,
  -- START_MS (Table 17.10)
  ⟨0x0B, 1, .u32, .ro, [0], 124, .any, 0⟩,
  -- LAST_CODE (Table 17.10)
  ⟨0x0C, 1, .u16, .ro, [0], 124, .any, 0⟩,
  -- START_COUNT (Table 17.10)
  ⟨0x0D, 1, .u32, .ro, [0], 255, .any, 0⟩,
  -- SLOT_INFO (Table 17.10)
  ⟨0x10, 4, .blob 32, .ro, [0], 124, .any, 0⟩,
  -- ROLLBACK_ORYX (Table 17.10)
  ⟨0x18, 1, .u8, .ro, [0], 255, .any, 0⟩,
  -- ROLLBACK_GZ (Table 17.10)
  ⟨0x19, 1, .u8, .ro, [0], 255, .any, 0⟩,
  -- UPD_BEGIN (Table 17.10)
  ⟨0x20, 1, .blob 8, .wo, [0], 0, .any, 0⟩,
  -- UPD_CHUNK (Table 17.10)
  ⟨0x21, 1, .blob 4100, .wo, [0], 0, .any, 0⟩,
  -- UPD_END (Table 17.10)
  ⟨0x22, 1, .u8, .wo, [0], 0, .any, 0⟩,
  -- UPD_STATE (Table 17.10)
  ⟨0x23, 1, .u8, .ro, [0], 0, .any, 0⟩]

/-- Entries of index 0x1300, part 2. -/
def rowsStart1 : List DRow := [
  -- UPD_RECEIVED (Table 17.10)
  ⟨0x24, 1, .u32, .ro, [0], 0, .any, 0⟩,
  -- UPD_ACTIVATE (Table 17.10)
  ⟨0x25, 1, .u8, .wo, [0], 0, .any, 0⟩,
  -- UPD_ABORT (Table 17.10)
  ⟨0x26, 1, .u8, .wo, [0], 0, .any, 0⟩,
  -- UPD_CODE (Table 17.10)
  ⟨0x27, 1, .u16, .ro, [0], 0, .any, 0⟩,
  -- MEASURE (Table 17.10)
  ⟨0x30, 8, .blob 64, .ro, [0], 124, .any, 0⟩,
  -- EXTEND (Table 17.10)
  ⟨0x38, 1, .blob 65, .wo, [0], 0, .any, 0⟩,
  -- ATT_NONCE (Table 17.10)
  ⟨0x40, 1, .blob 32, .rw, [0], 124, .any, 0⟩,
  -- ATT_REQ (Table 17.10)
  ⟨0x41, 1, .u8, .wo, [0], 0, .any, 0⟩,
  -- ATT_STATE (Table 17.10)
  ⟨0x42, 1, .u8, .ro, [0], 124, .any, 0⟩,
  -- ATT_REPORT (Table 17.10)
  ⟨0x43, 1, .blob 65536, .ro, [0], 124, .any, 0⟩,
  -- DEVICE_PK (Table 17.10)
  ⟨0x44, 1, .blob 64, .ro, [0], 124, .any, 0⟩,
  -- DEVICE_CERT (Table 17.10)
  ⟨0x45, 1, .blob 65536, .const, [0], 255, .any, 0⟩]

/-- Entries of index 0x1300. -/
def rowsStart : List DRow := rowsStart0 ++ rowsStart1

/-- Entries of index 0x4000. -/
def rowsDet : List DRow := [
  -- ARITH_PROFILE (Table 18.4)
  ⟨0x01, 1, .u32, .const, [168820737], 255, .any, 0⟩,
  -- EXACT_READY (Table 18.4)
  ⟨0x02, 1, .u16, .ro, [0], 112, .any, 0⟩,
  -- EXACT_STEPS (Table 18.4)
  ⟨0x03, 1, .u64, .ro, [0], 112, .any, 0⟩,
  -- OVERRIDE_STEPS (Table 18.4)
  ⟨0x04, 1, .u64, .ro, [0], 112, .any, 0⟩,
  -- GEN_FILLS (Table 18.4)
  ⟨0x05, 1, .u64, .ro, [0], 112, .any, 0⟩,
  -- GEN_BYTES (Table 18.4)
  ⟨0x06, 1, .u64, .ro, [0], 112, .any, 0⟩]

/-- The entry rows of an index (R529, Table 16.1). -/
def dictRows (idx : Nat) : List DRow :=
  if idx = 0x1000 then rowsGeneral
  else if idx = 0x1100 then rowsNet
  else if idx = 0x1200 then rowsPort
  else if idx = 0x1300 then rowsStart
  else if idx = 0x1400 then rowsPower
  else if idx = 0x1500 then rowsMemory
  else if idx = 0x1600 then rowsCoil
  else if 0x2000 ≤ idx ∧ idx < 0x2040 then rowsStream
  else if idx = 0x2100 then rowsPre
  else if 0x3000 ≤ idx ∧ idx < 0x3400 then rowsContext
  else if idx = 0x3400 then rowsSched
  else if idx = 0x3500 then rowsHerd
  else if idx = 0x4000 then rowsDet
  else if idx = 0x5000 then rowsSnap
  else if idx = 0x6000 then rowsLog
  else []

/-- The row of an entry. -/
def dictRow (idx sub : Nat) : Option DRow :=
  (dictRows idx).find? fun r => decide (r.sub ≤ sub) && decide (sub < r.sub + r.n)

/-- The part's own value of an entry with `w` bits (log entry 7). -/
def part (idx sub w : Nat) : Nat := (Sys2Proof.Config.partValue (idx * 256 + sub)).toNat % 2 ^ w

/-- GRADE: 0 MV9064-S, 1 MV9064-X (Table 16.5). -/
def partGrade : Nat := part 0x1000 0x03 1

/-- The entries whose default is the part's own value (Tables 14.6, 16.5, 17.10): GRADE, SERIAL, FUSE_MV, COLD_OFFSET_MV, which is
0 for grade S (R462), the energy coefficients, and the fused rollback counts of 0 to 64. -/
def partDefault (idx sub : Nat) : Option Nat :=
  if idx = 0x1000 ∧ sub = 0x03 then some partGrade
  else if idx = 0x1000 ∧ sub = 0x05 then some (part idx sub 64)
  else if idx = 0x1400 ∧ 0x40 ≤ sub ∧ sub < 0x50 then some (part idx sub 16)
  else if idx = 0x1400 ∧ sub = 0x50 then some (if partGrade = 0 then 0 else part idx sub 8)
  else if idx = 0x1400 ∧ 0x51 ≤ sub ∧ sub ≤ 0x5A then some (part idx sub 32)
  else if idx = 0x1300 ∧ (sub = 0x18 ∨ sub = 0x19) then some (part idx sub 7 % 65)
  else none

/-- The default of an entry (R10). -/
def dictDefault (idx sub : Nat) : W64 :=
  match partDefault idx sub with
  | some v => BitVec.ofNat 64 v
  | none =>
  match dictRow idx sub with
  | some r => BitVec.ofNat 64 (r.dflt.getD (sub - r.sub) (r.dflt.getLastD 0))
  | none => 0

end Sys2Proof.Machine
end

