-- ==== Sys2Proof/Machine/Table.lean ====
section
/-! DEFINITION. Sparse tables in one canonical form: memories, register files and the arrays of contexts, queues,
streams, buffers and functions. A table lists its keys strictly rising and lists no entry equal to what an unlisted key
reads as, so equal contents are equal data. -/

namespace Sys2Proof.Machine

/-- A table: pairs of a key and a value. The value of an unlisted key is an argument of every operation. -/
abbrev Tbl (α : Type) := List (Nat × α)

/-- The value at a key. -/
def Tbl.get {α : Type} (d : α) : Tbl α → Nat → α
  | [], _ => d
  | (k, v) :: t, i => if i = k then v else if i < k then d else Tbl.get d t i

/-- The table with a new value at one key. Writing the value of an unlisted key removes the entry. -/
def Tbl.set {α : Type} [DecidableEq α] (d : α) : Tbl α → Nat → α → Tbl α
  | [], i, v => if v = d then [] else [(i, v)]
  | (k, w) :: t, i, v =>
    if i < k then (if v = d then (k, w) :: t else (i, v) :: (k, w) :: t)
    else if i = k then (if v = d then t else (i, v) :: t)
    else (k, w) :: Tbl.set d t i v

/-- The table with the values of a list at consecutive keys. -/
def Tbl.setList {α : Type} [DecidableEq α] (d : α) (t : Tbl α) (i : Nat) : List α → Tbl α
  | [] => t
  | v :: vs => Tbl.setList d (Tbl.set d t i v) (i + 1) vs

/-- The values at `n` consecutive keys. -/
def Tbl.getList {α : Type} (d : α) (t : Tbl α) (i : Nat) : Nat → List α
  | 0 => []
  | n + 1 => Tbl.get d t i :: Tbl.getList d t (i + 1) n

/-- The table with every key of `lo` to `lo + n - 1` at the value of an unlisted key. -/
def Tbl.clear {α : Type} (t : Tbl α) (lo n : Nat) : Tbl α :=
  t.filter fun p => decide (p.1 < lo) || decide (lo + n ≤ p.1)

/-- The table with only the entries that `keep` accepts. -/
def Tbl.keep {α : Type} (t : Tbl α) (p : Nat → α → Bool) : Tbl α := t.filter fun q => p q.1 q.2

/-- The value at a key changed by a function. -/
def Tbl.modify {α : Type} [DecidableEq α] (d : α) (t : Tbl α) (i : Nat) (f : α → α) : Tbl α :=
  Tbl.set d t i (f (Tbl.get d t i))

/-- An element inserted before the first one that `le` puts after it. -/
def insertBy {α : Type} (le : α → α → Bool) (x : α) : List α → List α
  | [] => [x]
  | y :: ys => if le x y then x :: y :: ys else y :: insertBy le x ys

/-- A list sorted by `le`; elements that tie keep their order. -/
def sortBy {α : Type} (le : α → α → Bool) : List α → List α
  | [] => []
  | x :: xs => insertBy le x (sortBy le xs)

/-- Little-endian bytes of a number (R5). -/
def bytesLE : Nat → Nat → List Byte
  | 0, _ => []
  | n + 1, v => BitVec.ofNat 8 v :: bytesLE n (v / 256)

/-- The number that little-endian bytes spell (R5). -/
def natLE : List Byte → Nat
  | [] => 0
  | b :: bs => b.toNat + 256 * natLE bs

/-- Bits `hi` to `lo` of a number: the field NAME[msb:lsb] (R5). -/
def field (v hi lo : Nat) : Nat := v / 2 ^ lo % 2 ^ (hi + 1 - lo)

/-- One bit of a number. -/
def bitOf (v i : Nat) : Bool := v.testBit i

/-- A number with the field of `w` bits at `lo` replaced. -/
def putField (v lo w x : Nat) : Nat := v - v / 2 ^ lo % 2 ^ w * 2 ^ lo + x % 2 ^ w * 2 ^ lo

/-- Ceiling of a quotient. -/
def ceilDiv (a b : Nat) : Nat := (a + b - 1) / b

end Sys2Proof.Machine
end

