-- ==== Sys2Proof/Machine/State.lean ====
section
/-! DEFINITION. The state of the device as plain data: the register file of BAR0, the object dictionary, and the
internal state that no register holds, chapter by chapter. `State.reset` is the device right after power-on. -/

namespace Sys2Proof.Machine

/-- The reasons of a fault. No behaviour of the spec needs one: every error of the device is an effect the spec states
(a code, a faulted context, a frozen port). The one constructor is never raised; it is safe. -/
inductive Fault where
  /-- never raised by any meaning -/
  | none
  deriving DecidableEq, Repr

/-- The reasons of a refusal. -/
inductive Refusal where
  /-- raised by an arm of Dispatch whose command has no meaning yet; safe: nothing can be proved of that command -/
  | notModelled (mnemonic : String)
  deriving DecidableEq, Repr

/-! ## Memory (chapters 11 and 12) -/

/-- A line of the shared cache (R401): its way, its not-recently-used bit, whether it is dirty, and its valid bytes by
offset in the line (R404). -/
structure Line where
  way   : Nat
  nru   : Bool
  dirty : Bool
  data  : Tbl (Option Byte)
  deriving DecidableEq, Repr

/-- An entry of the splice buffer: its page (pseudo-channel and page number as one number) and its valid bytes (R424). -/
structure Splice where
  page : Nat
  data : Tbl (Option Byte)
  deriving DecidableEq, Repr

/-- The two check words of a page as stored (R421), and the syndromes of their own word codes. -/
structure PageChk where
  p    : W64 := 0
  q    : W64 := 0
  pSyn : Byte := 0
  qSyn : Byte := 0
  deriving DecidableEq, Repr

/-- An allocation in a herd aperture, in units of 2 MiB, for the window or the save area of a context (R388). -/
structure Alloc where
  herd : Nat
  unit : Nat
  size : Nat
  ctx  : Nat
  save : Bool
  deriving DecidableEq, Repr

/-- Power condition of a pseudo-channel (PC_STATUS.POWER). -/
inductive PcPower where
  | active | powerDown | selfRefresh | failed
  deriving DecidableEq, Repr

/-- A request in a queue of a pseudo-channel's controller: up to 128 bytes of one 2 KiB unit (R394 to R396). -/
structure PcReq where
  write : Bool
  pc    : Nat
  /-- the line address of a read; 0 for a write -/
  line  : Nat
  /-- the words touched, by pseudo-channel × 2^27 + PC-local address / 8 -/
  words : List Nat
  /-- who reads; a write comes from the splice buffer -/
  who   : Requester
  /-- for a write, the words (number, data, syndrome) that the array held before it -/
  old   : List (Nat × Nat × Byte) := []
  /-- for a write of check words, the page and what the array held before it -/
  chk   : Option (Nat × PageChk) := none
  deriving DecidableEq, Repr

/-- HBM, its controller, the shared cache and the splice buffer. -/
structure Mem where
  /-- stored data bytes; the key is pseudo-channel × 2^30 + PC-local address (R385) -/
  hbm     : Tbl Byte := []
  /-- syndrome of each stored 64-bit word: its stored check byte XOR the check byte of its stored data (R417) -/
  syn     : Tbl Byte := []
  /-- page check words, by page number (R421) -/
  chk     : Tbl PageChk := []
  /-- cache lines by line address (R401, R402) -/
  lines   : Tbl (Option Line) := []
  /-- syndromes of cached words, by data address / 8 (R415) -/
  lineSyn : Tbl Byte := []
  /-- splice entries, the one written least recently first (R424) -/
  splice  : List Splice := []
  /-- syndromes of splice-buffer words, by page × 256 + word -/
  splSyn  : Tbl Byte := []
  /-- allocations of the herd apertures (R388) -/
  allocs  : List Alloc := []
  /-- power condition of each pseudo-channel (R397, R399) -/
  power   : Tbl PcPower := []
  /-- consecutive parity errors on the command in retry (R393) -/
  retries : Tbl Nat := []
  /-- open row of each bank: key pseudo-channel × 64 + bank, value row + 1, 0 for none (R394) -/
  rows    : Tbl Nat := []
  /-- requests in the controllers' queues, the oldest first (R394 to R396) -/
  queue   : List PcReq := []
  /-- reads that wait for a rebuild of their page (R423) -/
  mends   : List PcReq := []
  /-- next page of the scrubber (R428) -/
  scrubAt : Nat := 0
  /-- the common share per pseudo-channel in effect since the last start, in MiB (R382, R410) -/
  common  : Nat := 192
  deriving DecidableEq, Repr

/-! ## The Coil (chapter 13) -/

/-- A granted or once granted buffer (R444, R449): its owner while granted, its LAST field, and whether its zeroing is
in progress. -/
structure Buf where
  owner : Option Nat := none
  /-- none: the value that the last start gave every buffer -/
  last  : Option Nat := none
  zeroing : Bool := false
  deriving DecidableEq, Repr

/-- A request that waits (R448). -/
structure Waiter where
  owner : Nat
  bytes : Nat
  pool  : Nat
  /-- µs that the request may wait -/
  limit : Nat
  deriving DecidableEq, Repr

/-- The Coil. -/
structure Coil where
  /-- buffers in effect per pool since the last start (R441) -/
  buffers : Tbl Nat := []
  /-- base OFFSET of each pool in the common aperture -/
  bases   : Tbl Nat := []
  /-- buffer records by pool × 2^20 + number; an unlisted buffer is free with LAST `lastReset` -/
  bufs    : Tbl Buf := []
  /-- LAST of a buffer never granted since the start: 0xFFF after a cold start, 0xFFE after a warm start (R449) -/
  lastReset : Nat := 0xFFF
  /-- reserved minima, by owner × 8 + pool (R445) -/
  resv    : Tbl Nat := []
  /-- waiting requests in arrival order (R448) -/
  waiters : List Waiter := []
  /-- the regions have been laid out since power came (R441); until then FREE shows its default (R457) -/
  laid    : Bool := false
  deriving DecidableEq, Repr

/-! ## Ibex clusters (chapters 03 to 07) -/

/-- A tensor descriptor as the loader read it (Table 4.1). -/
structure Desc where
  base    : Nat
  ext     : List Nat
  stride  : List Nat
  fmtCode : Nat
  ndim    : Nat
  spm     : Bool
  layout  : Nat
  zpEn    : Bool
  scaleEn : Bool
  rsvd    : Bool
  zpByte  : Nat
  scaleBase : Nat
  deriving DecidableEq, Repr

/-- A byte range of a tensor in HBM or in the context's scratchpad partition (R124). -/
structure Span where
  spm  : Bool
  base : Nat
  len  : Nat
  deriving DecidableEq, Repr

/-- A macro-instruction that passed the loader: its 64 bytes, the records it names as the loader read them, the spans it reads
and writes (R134), and where it stands in the schedule. -/
structure Loaded where
  queue  : Nat
  rank   : Nat
  /-- clusters of the step -/
  g      : Nat
  ctx    : Nat
  idx    : Nat
  raw    : List Byte
  /-- descriptors in operand order: A, W, C, PART for MM; the chapter's order for others; none where absent -/
  descs  : List (Option Desc)
  /-- the output-pipe parameter set, where the instruction names one (R194) -/
  opset  : List Byte
  /-- the rank's row of the stripe table, empty without one (R179) -/
  stripe : List Int
  reads  : List Span
  writes : List Span
  deriving DecidableEq, Repr

/-- A pass of a matrix instruction (R132, Table 4.4), with the part of the three-pass split it runs (R99). -/
structure Pass where
  row     : Nat
  col     : Nat
  slice   : Nat
  part    : Nat
  ordinal : Nat
  first   : Bool
  last    : Bool
  /-- parity of the knot that issued it (R87); false before -/
  parity  : Bool := false
  deriving DecidableEq, Repr

/-- The weights of a region: element codes by strand × 512 + position, scale bytes by strand × 16 + block. -/
structure WTile where
  codes  : Tbl Nat := []
  scales : Tbl Nat := []
  deriving DecidableEq, Repr

/-- A pointer set of the accumulate stage (R88). -/
structure Ptr where
  entryBase : Nat := 0
  clear     : Bool := false
  last      : Bool := false
  deriving DecidableEq, Repr

/-- What WLK_STATUS and WLK_TILE show of a region whose job is over: the instruction, its pass, and the quarters of the region
(R147, R153). -/
structure Shown where
  opcode   : Nat
  ctx      : Nat
  idx      : Nat
  slice    : Nat
  ordinal  : Nat
  quarters : List Nat
  deriving DecidableEq, Repr

/-- A Braid region and the walker's state for it (R87 to R90, R98, R147). -/
structure Region where
  /-- WLK_STATUS.STATE: 0 IDLE, 2 RUN, 3 SYNC_WAIT, 4 PREEMPT, 5 FAULT; VERIFY shows for an instruction that is loaded -/
  state   : Nat := 0
  job     : Option Loaded := none
  /-- in SYNC_WAIT, PREEMPT and FAULT: what the registers show -/
  shown   : Option Shown := none
  passes  : List Pass := []
  /-- pass whose shadow load is complete -/
  shadow  : Option Pass := none
  /-- pass whose knot issued last, and whether its products may still be in flight -/
  latest  : Option Pass := none
  flight  : Bool := false
  /-- vector buffer of GEMV: the rows of the pass in `shadow` and of the pass in `latest` (R98) -/
  nextRows : List (List Val) := []
  rows    : List (List Val) := []
  weights : WTile := {}
  active  : WTile := {}
  parity  : Bool := false
  ptr0    : Ptr := {}
  ptr1    : Ptr := {}
  deriving DecidableEq, Repr

/-- A resident slot of an Ibex (R357): partitions in their units, and the highest scratchpad unit written (R152). -/
structure Resident where
  ctx  : Nat
  spmBase : Nat
  spmSize : Nat
  accBase : Nat
  accSize : Nat
  used : Nat
  deriving DecidableEq, Repr

/-- Dummy-issue ramp of a Braid (R109 to R113). -/
structure Ramp where
  level   : Nat := 0
  ramping : Bool := false
  up      : Bool := false
  /-- ramp length in force, in units of 8 cycles -/
  len     : Nat := 8
  /-- DUMMY_EN for gap filling as last applied -/
  gap     : Bool := false
  deriving DecidableEq, Repr

/-- One Ibex cluster. -/
structure Ibex where
  /-- scratchpad bytes (R119) -/
  spm     : Tbl Byte := []
  spmSyn  : Tbl Byte := []
  /-- accumulator entries, by entry × 256 + strand (R82) -/
  acc     : Tbl W32 := []
  accSyn  : Tbl Byte := []
  slots   : Tbl (Option Resident) := []
  /-- resident slot that runs a step, 7 for none (SCH_IBEXn.RUNNING) -/
  running : Nat := 7
  /-- queue whose passed-over step holds this Ibex (R355) -/
  reserved : Option Nat := none
  /-- the loaded instruction that waits to start or runs outside the Braid -/
  cur     : Option Loaded := none
  /-- regions by their first quarter -/
  regions : Tbl Region := []
  /-- tiles whose LAST pass has issued and whose entries the output pipe has not read, in that order, each with its region
  (R90, R193) -/
  outq    : List (Nat × Pass) := []
  ramp    : Ramp := {}
  /-- CLKA is gated in Idle (R477) -/
  gated   : Bool := false
  /-- the context that ran here last; another one is a switch (R87) -/
  ran     : Option Nat := none
  /-- the context whose macro-instruction ran before the present gap; none where the gap began at a boundary (R114) -/
  before  : Option Nat := none
  deriving DecidableEq, Repr

/-! ## The scheduler (chapter 10) -/

/-- The picture record (Table 8.6), with the pool and number of its frame buffer. -/
structure PicRec where
  stream : Nat
  pool   : Nat
  buf    : Nat
  addr   : Nat
  pts    : W64
  width  : Nat
  height : Nat
  pitch  : Nat
  depth  : Nat
  taint  : Bool
  rap    : Bool
  ptsDerived : Bool
  /-- concealed luma samples inside the output window -/
  damage : Nat
  status : W16
  decodeIdx : Nat
  cropLeft  : Nat
  cropTop   : Nat
  chroma    : Nat
  matrix    : Nat
  fullRange : Bool
  deriving DecidableEq, Repr

/-- How a slot stands (R309 to R313, R324): waiting for a picture, with work items open, filled, or void. -/
inductive SlotState where
  | waiting | taken | filled | void
  deriving DecidableEq, Repr

/-- A slot of a batch step. -/
structure Slot where
  stream  : Nat
  host    : Bool
  /-- opening PTS of the slot's period and whether it was derived (R251, R346) -/
  openPts : W64
  openDerived : Bool
  /-- the stream's preprocessing settings at the period's opening (R330) -/
  pick    : Nat
  dmgVoid : Nat
  taintVoid : Nat
  state   : SlotState
  pic     : Option PicRec
  /-- the code that voided it, 0 otherwise -/
  status  : W16
  /-- its closing record is written or held (R349) -/
  closed  : Bool
  /-- records of the period written to the ring (Table 7.11) -/
  records : Nat
  /-- a record was dropped for ring space (R254) -/
  dropped : Bool
  /-- detections matched to tracks by TRACK, as KEY, TRACK_ID and TRACK_STATE (Table 7.11) -/
  matched : List (Nat × Nat × Nat)
  /-- a region list is complete in the pending buffer (R256) -/
  listDone : Bool
  /-- region list latched by preprocessing (R20), and the work items left (R327) -/
  latched : Option (List Byte)
  /-- augmentation record as read for the slot (R322) -/
  aug     : Option (List Byte)
  /-- work items not started: job, region (R327) -/
  items   : List (Nat × Nat)
  /-- work items that run -/
  running : Nat
  /-- the void values of a void slot are not written yet (R325) -/
  voidDue : Bool
  /-- its picture's held-by-analytics mark stands (R19) -/
  holding : Bool
  deriving DecidableEq, Repr

/-- State of an open step (R347 to R349, R361, R365): `granted` is ready for its own Ibex clusters after a hitch wait,
`suspending` is being saved. -/
inductive StepState where
  | filling | ready | running | parked | granted | suspending | suspended | restoring
  deriving DecidableEq, Repr

/-- What a rank waits for: nothing, rank 0 at a hitch instruction, whose SYNC bit it holds (R365), the meeting after SYNC (R138),
or the meeting at a layer's decision point (R208). -/
inductive RankWait where
  | none | hitch (meet : Bool) | sync | layer
  deriving DecidableEq, Repr

/-- What SSORT keeps in its work area (R189): the keys in order, and those that NMS has kept, each as the F32 code of its score and
its index. -/
structure Sorting where
  order : List (Nat × Nat) := []
  kept  : List (Nat × Nat) := []
  deriving DecidableEq, Repr

/-- A rank of a step: the Ibex it runs on, its next instruction, the layer in force and its counts, and what it waits
for. -/
structure Rank where
  ibex    : Nat
  pc      : Nat
  /-- instructions that a preemption has stopped, with the passes that remain of each (R148) -/
  resume  : List (Nat × List Pass)
  /-- layer record in force and its number (R204) -/
  layer   : List Byte
  layerNo : Nat
  /-- layer count (R206) -/
  sat     : Nat
  /-- decision points of layers under NEVER that it has passed (R210) -/
  layers  : Nat
  wait    : RankWait
  /-- hitch instructions it has passed (R365) -/
  hpassed : Nat
  /-- in a wide variant: the index after its last instruction, 0 outside one; where the walker continues; its counts (R207) -/
  wideEnd : Nat
  resumeTo : Nat
  wideSat : Nat
  /-- it has stopped at a preemption point (R148) -/
  stopped : Bool
  /-- cycles on the Ibex since the last charge (R352) -/
  cycles  : Nat
  ended   : Bool
  /-- scratchpad units of its save image (R361) -/
  saved   : Nat
  /-- pieces of the instruction at `pc` that ran before a preemption: output rows, groups, sorter phases (R182, R189, R242) -/
  done    : Nat
  sorting : Sorting
  /-- opcode and index of the instruction that its walker last passed, waited at or stopped at (R153) -/
  stands  : Nat × Nat := (0, 0)
  deriving DecidableEq, Repr

/-- An open batch step. Its queue names it: a queue holds at most one (R347). -/
structure Step where
  ctx     : Nat
  fn      : Nat
  period  : Nat
  state   : StepState
  /-- serial numbers of the scheduler at its opening and at its latest park -/
  serial  : Nat
  parkedAt : Nat
  /-- a preemption request stands, for the ready step of a queue (R356) or for none -/
  stop    : Bool
  forQueue : Option Nat
  preproc : Bool
  aug     : Bool
  augOff  : Nat
  seed    : W64
  stepNo  : W64
  /-- variants of the entry record: offset and length for G = 1, 2, 4, 8 (R336) -/
  variants : List (Nat × Nat)
  /-- the plan's job records (R305), and the descriptors OUT, RIDX and SRC of each as read at the opening (R308) -/
  plan    : List (List Byte)
  planDescs : List (List (Option Desc))
  /-- close time of its period for R327 -/
  closeAt : Nat
  slots   : List Slot
  /-- generator fills not yet done: descriptor and record of each (R604) -/
  fills   : List (Desc × List Byte)
  /-- cluster count once placed (R354), and the ranks -/
  g       : Nat
  ranks   : List Rank
  /-- hitches held, as often as acquired (R368) -/
  holds   : List Nat
  /-- hitch waited for: number, amount, limit in µs (R365) -/
  waits   : Option (Nat × Nat × Nat)
  /-- PASS_LIMIT has run and it reserves clusters (R355) -/
  passed  : Bool
  /-- its suspension began while it was parked: it held no Ibex (R365, R367) -/
  parkedSave : Bool
  /-- split-K tiles finished: instruction, row, column, rank in order of completion (R137) -/
  kdone   : List (Nat × Nat × Nat × Nat)
  widened : Bool
  skipped : Bool
  /-- counted in OVERRIDE_STEPS (R599) -/
  overridden : Bool
  deriving DecidableEq, Repr

/-- A queue (R339 to R348). -/
structure Queue where
  bound   : Bool := false
  /-- the 32-byte queue record as bound -/
  record  : List Byte := []
  tail    : W32 := 0
  head    : W32 := 0
  lastCode : W16 := 0
  /-- the queue's own period count, or the steps it has opened (R348) -/
  periods : Nat := 0
  /-- a descriptor may still open a step of the present period (R347) -/
  mayOpen : Bool := false
  /-- its context was shed when the period opened (R473, Table 14.5) -/
  shedAt  : Bool := false
  /-- a descriptor read is outstanding (R341), and those of earlier bindings that still are (R344) -/
  fetching : Bool := false
  stale   : Nat := 0
  /-- opening time of the present period on the scheduler's counter -/
  openAt  : Nat := 0
  /-- PICK, DAMAGE_VOID and TAINT_VOID of each stream at the opening of the present period (R330) -/
  latch   : List (Nat × Nat × Nat) := []
  /-- its latest step was late-dropped: the next one starts with parity 0 in every region (R351) -/
  dropped : Bool := false
  held    : Option Step := none
  deriving DecidableEq, Repr

/-- A waiter of a hitch: the queue of its step and the amount (R363). -/
structure HWaiter where
  queue : Nat
  n     : Nat
  deriving DecidableEq, Repr

/-- A hitch (R363). -/
structure Hitch where
  count  : Nat := 0
  holder : Nat := 0
  held   : Bool := false
  lock   : Bool := false
  herds  : Nat := 0xFF
  waiters : List HWaiter := []
  deriving DecidableEq, Repr

/-- A loan (R366): the context that waits, the hitch it waits on, the hitch whose release ends the loan, and the queue of the
suspended step that is lent. -/
structure Loan where
  waiter : Nat
  root   : Nat
  hitch  : Nat
  queue  : Nat
  deriving DecidableEq, Repr

/-- A context beyond its dictionary entries: the remainder of R352, the loans of its steps (R366), and what is not yet in the
ledger (R374): engine cycles charged, cycles of its work items, cycles of dummy strand groups (R114), and its energy in fJ. -/
structure CtxSt where
  rem  : Nat := 0
  loans : List Loan := []
  engine : Nat := 0
  pre    : Nat := 0
  dummy  : Nat := 0
  energy : Nat := 0
  deriving DecidableEq, Repr

/-- The herd scheduler. -/
structure Sched where
  queues  : Tbl Queue := []
  hitches : Tbl Hitch := []
  ctxs    : Tbl CtxSt := []
  /-- the context charged last (R353) -/
  lastCtx : Nat := 0
  serial  : Nat := 0
  /-- the scheduler's own counter in µs (R346), as the latest timed event gave it -/
  now     : Nat := 0
  /-- shed contexts in the order in which they were shed (R472) -/
  shed    : List Nat := []
  deriving DecidableEq, Repr

/-! ## Gazelle and preprocessing (chapters 07 to 09) -/

/-- An access unit in a bitstream buffer (R268): its bytes, the PTS that a chunk gave it (R271), whether it is complete,
the code that it raises (VID_TIMEOUT, or 0), whether it has outgrown the buffer (VID_AU_OVF), its order of arrival, and whether
EOS follows it (R270). -/
structure AU where
  /-- how many bytes it has, and the bytes -/
  bytes    : Nat
  coded    : List Byte
  pts      : Option W64
  complete : Bool
  code     : W16
  big      : Bool
  arrival  : Nat
  eos      : Bool
  deriving DecidableEq, Repr

/-- A picture in decoding: from the start of its parse until it is ready. -/
structure PicJob where
  syn     : PicSyntax
  ps      : ParamSet
  /-- arrival of its access unit, the unit's bytes, and those of the parameter sets that it names (R264) -/
  au      : Nat
  coded   : List Byte
  sets    : List (List Byte)
  pts     : W64
  derived : Bool
  /-- first code raised while decoding it -/
  status  : W16
  /-- frame buffer, once the Coil has granted it -/
  buf     : Option (Nat × Nat)
  /-- order in which its syntax completed, none while it is parsed -/
  serial  : Option Nat
  /-- its references have been looked up (R291, VID_MISSING_REF), and the buffer that serves as the substitute for a missing one, none
  for mid-grey (R294): the codec predicts from it -/
  started : Bool
  source  : Option Nat
  /-- frame buffer of each of its references, none for mid-grey -/
  refBufs : List (Option Nat)
  taint   : Bool
  /-- next work unit, units completed, next edge pass, edge passes completed -/
  next    : Nat
  done    : List Nat
  nextEdge : Nat
  doneEdges : List Nat
  /-- blocks to conceal, and blocks predicted from a substituted reference -/
  bad     : List Nat
  subst   : List Nat
  /-- frames that a show_existing_frame outputs after it, and whether EOS follows it (R270) -/
  shows   : List (Nat × W64 × Bool)
  eos     : Bool
  deriving DecidableEq, Repr

/-- A ready picture whose frame buffer carries a mark (R284). -/
structure Frame where
  name   : Nat
  order  : Int
  codedW : Nat
  codedH : Nat
  short  : Bool
  long   : Bool
  output : Bool
  held   : Bool
  /-- an AV1 key frame (R284) -/
  key    : Bool
  /-- it stands in the reorder stage; pictures that became ready after it -/
  reorder : Bool
  later  : Nat
  pic    : PicRec
  deriving DecidableEq, Repr

/-- How far the fetch of a chunk is (R267): nothing asked for, its record asked for, its record held while its bytes have no room or
may not be asked for, its bytes asked for. -/
inductive ChunkStage where
  | idle
  | record
  | held (r : List Byte)
  | body (r : List Byte)
  deriving DecidableEq, Repr

/-- How far the bytes of a stream have been read for Table 8.3: a VCL NAL unit lies in the access unit in progress, the bytes of an OBU
still to come, and the bytes, with the PTS of their chunks, that are too few to say what begins with them. -/
structure Scan where
  vcl  : Bool := false
  skip : Nat := 0
  tail : List (Byte × Option W64) := []
  deriving DecidableEq, Repr

/-- A stream beyond its dictionary entries and registers. -/
structure Stream where
  /-- number of the next result record (Table 7.10) -/
  seq     : Nat := 0
  /-- closing records that wait for ring space (R254) -/
  hold    : List (List Byte) := []
  /-- closing records since the last message (R503) -/
  pend    : Nat := 0
  /-- pool and number of the track table, the bitstream and the syntax buffer (R275) -/
  track   : Option (Nat × Nat) := none
  bitBuf  : Option (Nat × Nat) := none
  synBuf  : Option (Nat × Nat) := none
  fbPool  : Nat := 0
  /-- which region-list buffer of the track table holds the current list, none for no list, and whether the other one holds a pending
  list (R20, R443) -/
  current : Option Nat := none
  pending : Bool := false
  /-- PTS of the latest picture that a slot took since OPEN or RESET, and whether it was derived (R251) -/
  tookPts : W64 := 0
  tookDerived : Bool := false
  /-- picture credit (R277) -/
  credit  : Nat := 0
  /-- the next chunk counts as DISCONT (R269), and how far the fetch of a chunk is (R267) -/
  discont : Bool := false
  chunk   : ChunkStage := .idle
  /-- bytes copied into the bitstream buffer since OPEN or RESET (R267) -/
  copied  : Nat := 0
  scan    : Scan := {}
  aus     : List AU := []
  /-- accepted parameter sets in force and those that wait for a RAP (R293), and marked identifiers with their codes -/
  sets    : List ParamSet := []
  newSets : List ParamSet := []
  marked  : List (Nat × W16) := []
  /-- PTS of the previous picture in decode order (R271) -/
  prevPts : Option W64 := none
  decodeCount : Nat := 0
  /-- name of the RAP at which decoding began -/
  began   : Option Nat := none
  jobs    : List PicJob := []
  frames  : List Frame := []
  /-- delivery queue: decode indices of its pictures, the head first (R286) -/
  queue   : List Nat := []
  /-- PERIOD_MODE, PTS_PERIOD, PERIOD_LEN and PERIOD_MAX in force since the latest opening (R345) -/
  mode    : Nat := 0
  ptsPeriod : Nat := 0
  periodLen : Nat := 0
  periodMax : Nat := 0
  /-- a period has opened since OPEN; the next picture opens one (R346); PTS of the present opening, and whether it
  was derived from PTS_PERIOD -/
  opened  : Bool := false
  fresh   : Bool := true
  openPts : W64 := 0
  openDerived : Bool := false
  /-- opening PTS of the periods that pictures have called for and that have not opened yet, and the latest opening PTS
  with these counted (R346) -/
  opens   : List W64 := []
  cmpPts  : W64 := 0
  /-- a queue opened a step in the present period -/
  used    : Bool := false
  /-- a slot took a picture in the present period; a reset voids the slots of the present period (R295) -/
  took    : Bool := false
  voided  : Bool := false
  deriving DecidableEq, Repr

/-- What an entropy engine parses (R278): the stream, the pictures of its access unit that it has not begun, whether a
picture is in its parse, and whether that stalls on a full syntax ring (R279). -/
structure EeJob where
  stream  : Nat
  /-- arrival of its access unit, and the unit's bytes -/
  au      : Nat
  coded   : List Byte
  rest    : List PicSyntax
  shows   : Option Nat
  pts     : Option W64
  derived : Bool
  eos     : Bool
  code    : W16
  parsing : Bool
  stalled : Bool
  deriving DecidableEq, Repr

/-- What a pixel engine reconstructs: stream, picture (by name) and work unit; units from `units` on are edge passes. -/
structure PeJob where
  stream : Nat
  pic    : Nat
  unit   : Nat
  deriving DecidableEq, Repr

/-- A work item on a preprocessing engine (R304). -/
structure Item where
  queue  : Nat
  slot   : Nat
  job    : Nat
  region : Nat
  deriving DecidableEq, Repr

/-- Gazelle and the preprocessing engines. -/
structure Video where
  ee  : Tbl (Option EeJob) := []
  pe  : Tbl (Option PeJob) := []
  pre : Tbl (Option Item) := []
  /-- serial numbers of access units and pictures -/
  serial : Nat := 0
  /-- GZ_STATUS.POWER: 0 on, 1 draining for Nap, 2 gated -/
  power : Nat := 0
  deriving DecidableEq, Repr

/-! ## What leaves the device, and the error log -/

/-- A completion status of a host read (R495, R432). -/
inductive CplStatus where
  | ok | poisoned | abort | unsupported
  deriving DecidableEq, Repr

/-- What the device sends out, in the order of generation (R508). -/
inductive Out where
  /-- posted write of a function to a host address; `xlated` is AT 10 (R505) -/
  | write (fn : Nat) (xlated : Bool) (addr : W64) (bytes : List Byte)
  /-- MSI-X message of a vector of a function -/
  | msix (fn vec : Nat)
  /-- read request of a function for `len` bytes, and what waits for its completion -/
  | read (fn : Nat) (xlated : Bool) (addr : W64) (len : Nat) (r : DevRead)
  /-- completion of a host read -/
  | cpl (fn : Nat) (st : CplStatus) (bytes : List Byte)
  /-- translation request, and the answer to an Invalidate Request -/
  | xlateReq (fn : Nat) (addr : W64)
  | invDone (fn : Nat) (page : W64)
  /-- CAN FD frame: identifier, BRS, transmitter delay compensation, and data (R542) -/
  | can (ident : Nat) (brs tdc : Bool) (data : List Byte)
  /-- level of an output pin: WAKE#, THERMTRIP# -/
  | pin (name : String) (asserted : Bool)
  deriving DecidableEq, Repr

/-- Error status of a function in AER: an uncorrectable internal error, a fatal TLP, a completion time-out, a poisoned TLP received, a
Completer Abort (R511, R515, R497, Table 15.1). -/
structure Aer where
  internal : Bool := false
  fatal    : Bool := false
  timeout  : Bool := false
  poisoned : Bool := false
  abort    : Bool := false
  deriving DecidableEq, Repr

/-- One function of the host port (R490, R502, R505, R512, R514, R520). -/
structure FnSt where
  /-- a VF that exists (R490) -/
  vf      : Bool := false
  /-- Bus Master Enable, MSI-X Enable and ATS Enable of configuration space -/
  bme     : Bool := false
  msixEn  : Bool := false
  atsEn   : Bool := false
  d3hot   : Bool := false
  flrBusy : Bool := false
  /-- mask bits of the MSI-X table, all set at reset, and pending bits (R502) -/
  masked  : W32 := 0xFFFFFFFF
  pend    : W32 := 0
  /-- streams whose input HEAD_WB is held, and queues whose HEAD_WB is held (R512) -/
  dueIn   : List Nat := []
  dueQ    : List Nat := []
  /-- the access whose translation has been asked for (R505) -/
  asked   : Option Out := none
  aer     : Aer := {}
  /-- Completion Timeout Value of configuration space; 0 stands for 40 ms (R511) -/
  cplTime : BitVec 4 := 0
  deriving DecidableEq, Repr

/-- An entry of the translation cache (R506). -/
structure XEntry where
  fn    : Nat
  page  : Nat
  log2  : Nat
  host  : Nat
  write : Bool
  deriving DecidableEq, Repr

/-- Which index write-back a posted write is, if it is one: a queue's HEAD_WB, a chunk ring's, or CR_WB of a stream (R512). -/
inductive WriteBack where
  | no
  | queue (q : Nat)
  | ring (n : Nat)
  | tail (n : Nat)
  deriving DecidableEq, Repr

/-- Something generated that has not left (R508). -/
structure Wait where
  out : Out
  wb  : WriteBack := .no
  deriving DecidableEq, Repr

/-- A read that waits for its completion: its function, what asked for it, and the translation that it used; one whose stream has left
it behind has no use for its bytes (R506, R511). -/
structure Flight where
  fn    : Nat
  read  : DevRead
  entry : Option XEntry := none
  live  : Bool := true
  deriving DecidableEq, Repr

/-- An Invalidate Request whose completion is due when the reads that used its entries have ended (R506). -/
structure Inval where
  fn    : Nat
  page  : W64
  reads : List Flight
  deriving DecidableEq, Repr

/-- The host port beyond its registers. -/
structure HostPort where
  fns    : Tbl FnSt := []
  xcache : List XEntry := []
  /-- what has been generated and has not left, oldest first (R508) -/
  waits  : List Wait := []
  flying : List Flight := []
  invals : List Inval := []
  /-- TLP payload bytes received, and those sent before the port was last reset (HP_RX_BYTES, HP_TX_BYTES) -/
  rx     : Nat := 0
  txBase : Nat := 0
  deriving DecidableEq, Repr

/-- A record of the error log (Table 16.10); SEQ is its place in the count LOGGED. -/
structure LogRec where
  seq    : Nat
  code   : W16
  origin : Nat
  kind   : Nat
  obj    : Nat
  detail : Nat
  deriving DecidableEq, Repr

/-! ## Power (chapter 14) -/

/-- Tether and the power-state control beyond their entries (R460 to R482). Voltages in mV, powers in mW. -/
structure Tether where
  /-- arithmetic-rail voltage at its latest rest, and its target (R463) -/
  rail    : Nat := 0
  target  : Nat := 0
  /-- point of a step up whose voltage is still rising (R463) -/
  rising  : Option Nat := none
  /-- droop hold, and the stretcher that removes one cycle in four at OP0 (R468, R469) -/
  hold    : Bool := false
  stretch : Bool := false
  /-- counts of the slow loop (R467) -/
  floorMs : Nat := 0
  underMs : Nat := 0
  /-- power samples of the longest window that AVG_WINDOW_MS can ask for, newest first (R464) -/
  samples : List Nat := []
  /-- measured energy in nJ and estimated energy in fJ not yet in their entries (R483, R484) -/
  energyNj : Nat := 0
  estFj   : Nat := 0
  /-- CAP_W in force (R465) -/
  cap     : Nat := 180
  /-- readings of the die sensors and of the HBM stack in °C, and of the 12 V input in mV (R465, R475) -/
  temps   : List Int := []
  stack   : Int := 0
  v12     : Nat := 0
  /-- a throttle episode, a cold crossing, an episode of R471 -/
  throttling : Bool := false
  cold    : Bool := false
  broken  : Bool := false
  /-- FIXED_FREQ was set during a throttle that has not cleared (Table 14.5) -/
  deferred : Bool := false
  /-- THERMTRIP# and WAKE# asserted (R477, R482) -/
  tripOut : Bool := false
  wakeOut : Bool := false
  /-- stage of a Nap entry in progress, 0 for none (R480) -/
  nap     : Nat := 0
  /-- what led to Standby: 0 a command, over-current or a trip, 1 VIN12 out of range (Table 14.3) -/
  byRange : Bool := false
  /-- PERST# has been asserted during Standby (Table 14.3) -/
  perstSeen : Bool := false
  deriving DecidableEq, Repr

/-! ## Start, firmware and attestation (chapter 17) -/

/-- The start record in flash (R574): pairs have bit 0 for the Oryx slot and bit 1 for the Gazelle slot. -/
structure StartRec where
  active : Nat := 0
  trial  : Bool := false
  lkg    : Nat := 0
  lkgValid : Bool := true
  fails  : Nat := 0
  switches : Nat := 0
  deriving DecidableEq, Repr

/-- Start state beyond its entries. -/
structure Start where
  record  : StartRec := {}
  /-- bytes of the image slots Oryx A, Oryx B, Gazelle A, Gazelle B; none: as programmed at test (R569) -/
  slots   : Tbl (Option (List Byte)) := []
  /-- digest kept for each slot and flash-changed flag (R573) -/
  kept    : Tbl (Option (List Byte)) := []
  changed : Tbl Bool := []
  /-- a start is in progress, READY or recovery has been reached, or the start has halted (R564, R565) -/
  running : Bool := false
  halted  : Bool := false
  cold    : Bool := true
  /-- codes of the boot ROM that wait for the end of the start, with a detail (R592) -/
  codes   : List (W16 × Nat) := []
  /-- MR0 to MR7; none listed: 64 zero bytes (R583) -/
  mrs     : Tbl (List Byte) := []
  /-- STATE of SLOT_INFO (Table 17.10) -/
  slotState : Tbl Nat := []
  bootSel : Bool := false
  /-- pair that the start chose and runs (R577, GLB_START) -/
  runs    : Nat := 0
  /-- update in progress: kind, target slot, length and bytes received (R581) -/
  updKind : Nat := 0
  updSlot : Nat := 0
  updLen  : Nat := 0
  updData : List Byte := []
  /-- START_CMD WARM waits for programming to end (Table 17.9) -/
  warmDue : Bool := false
  /-- attestation (R587): nonce, the captured body, the finished report; DEVICE_PK (R585) -/
  nonce   : List Byte := List.replicate 32 0
  body    : List Byte := []
  report  : List Byte := []
  pk      : Option (List Byte) := none
  reports : Nat := 0
  /-- an RWP commit that a loss of power cut off: entry and new value (R534) -/
  torn    : Option (List (Nat × W64)) := none
  deriving DecidableEq, Repr

/-! ## Dictionary store and field network (chapter 16) -/

/-- A KDP transfer (R548, R549): a read delivers `data` from `done` on, a write collects `data`. -/
structure Xfer where
  write : Bool
  idx   : Nat
  sub   : Nat
  len   : Nat
  data  : List Byte
  done  : Nat
  toggle : Bool
  /-- TOGGLE and OFFSET of the latest segment request, and the response to it -/
  last  : Option (Bool × Nat)
  resp  : List Byte
  deriving DecidableEq, Repr

/-- The KDP node (R544 to R553). -/
structure Node where
  /-- 0 silent, 1 active, 2 duplicate, 4 bus-off; error passive shows in STATE from TEC and REC -/
  mode    : Nat := 0
  /-- it listens after its claim -/
  listening : Bool := false
  xfer    : Option Xfer := none
  /-- transfer that its last segment has closed, whose repeat gets its response again (R548) -/
  prev    : Option Xfer := none
  /-- header of the request whose response waits for an RWP commit -/
  waiting : Option (List Byte) := none
  heartbeats : Nat := 0
  /-- SEQ of the newest record that an error event has announced -/
  announced : Nat := 0
  /-- bit-timing settings in force: NOMINAL_KBPS, DATA_KBPS, NOMINAL_SP, DATA_SP -/
  timing  : List Nat := []
  deriving DecidableEq, Repr

/-- An RWP commit in progress or waiting (R533, R534): its origin, none once that has gone (R539), the entry that was written, and the
entries it sets. -/
structure Commit where
  origin : Option Origin
  key    : Nat
  sets   : List (Nat × W64)
  deriving DecidableEq, Repr

/-- An access that waits for the wake from Nap (R536). -/
structure Access where
  origin : Origin
  idx    : Nat
  sub    : Nat
  write  : Bool
  value  : List Byte
  deriving DecidableEq, Repr

/-- The dictionary store. -/
structure Store where
  commits : List Commit := []
  /-- accesses that a wake from Nap lets go, in order (R533, R536) -/
  napped  : List Access := []
  snapBusy : Bool := false
  deriving DecidableEq, Repr

/-! ## Package (chapter 19) -/

/-- Supplies and pins (R612, R613, R622 to R624). -/
structure Pins where
  vin     : Bool := false
  aux     : Bool := false
  /-- the always-on domain runs from V3P3AUX -/
  onAux   : Bool := false
  perst   : Bool := true
  term    : Bool := false
  /-- current TAP instruction -/
  tap     : TapInstr := .idcode
  deriving DecidableEq, Repr

/-- Operations counted for the energy estimate (R483, R484): array operations by width, vector lane operations. -/
structure Work where
  op4  : Nat := 0
  op8  : Nat := 0
  op16 : Nat := 0
  vec  : Nat := 0
  deriving DecidableEq, Repr

/-- The activity counters: of each context since its latest ledger tick (R374), of the device since the latest estimate (R483), and the
arithmetic energy at V9, in fJ, of the milliseconds of the window, newest first (R467). -/
structure Activities where
  ctxs   : Tbl Work := []
  all    : Work := {}
  window : List Nat := []
  deriving DecidableEq, Repr

/-- The state of the device. -/
structure State where
  /-- commands that wait, first in first out (log entry 1) -/
  pending : List Instr
  /-- counter of fresh values; the model's own (log entry 3) -/
  fresh   : Nat
  /-- what the device has sent, oldest first (log entry 1) -/
  out     : List Out
  /-- numeric dictionary entries, by index × 256 + subindex; an unlisted entry holds its default -/
  dict    : Tbl W64
  /-- DM_DATA of every function's mailbox, by function × 2^16 + offset (R537) -/
  dm      : Tbl Byte
  /-- BAR0 registers by offset, a copy of function k above 2^32 × k; an unlisted register holds its reset value -/
  regs    : Tbl W64
  /-- error log, newest record first (R557) -/
  log     : List LogRec
  mem     : Mem
  coil    : Coil
  ibex    : Tbl Ibex
  hp      : HostPort
  sch     : Sched
  /-- streams by number -/
  streams : Tbl Stream
  vid     : Video
  /-- a wake event has arrived in Nap or during its entry (R480, R481) -/
  wake    : Bool
  acts    : Activities
  tth     : Tether
  start   : Start
  node    : Node
  store   : Store
  pins    : Pins
  deriving DecidableEq, Repr

/-- The device right after power-on, before any start: every register and entry at its reset value, every memory as
`Tbl.get` gives an unlisted key, nothing pending and nothing sent (log entry 4). -/
def State.reset : State where
  pending := []
  fresh := 0
  out := []
  dict := []
  dm := []
  regs := []
  log := []
  mem := {}
  coil := {}
  ibex := []
  hp := {}
  sch := {}
  streams := []
  vid := {}
  wake := false
  acts := {}
  tth := {}
  start := {}
  node := {}
  store := {}
  pins := {}

end Sys2Proof.Machine
end

