-- ==== Sys2Proof/Machine/Regs.lean ====
section
/-! DEFINITION. Register and dictionary access: offsets of the register blocks, reset values, and the accessors through
which every meaning reads and writes them. -/

namespace Sys2Proof.Machine

/-- Base of the register block `blk` of Ibex n: 1 Braid, 2 walker, 3 windows and sorter, 4 output pipe, 5 vector
(R115, R153, R191, R225, R258). -/
def ibexReg (n blk o : Nat) : Nat := 0x01000000 + n * 0x00200000 + blk * 0x00010000 + o

/-- Offset of a register of which each function has its own copy: PF0's lies at its block (R494). -/
def fnReg (k o : Nat) : Nat := k * 0x100000000 + o

/-- Bases of the other register blocks. -/
abbrev gzBase : Nat := 0x02000000
abbrev preBase : Nat := 0x02100000
abbrev schBase : Nat := 0x02200000
abbrev memBase : Nat := 0x02300000
abbrev intBase : Nat := 0x02308000
abbrev coilBase : Nat := 0x02400000
abbrev tthBase : Nat := 0x02500000
abbrev hpBase : Nat := 0x02600000
abbrev dmBase : Nat := 0x00100000
abbrev detBase : Nat := 0x00004000

/-- Offset of a register of pseudo-channel p (R413). -/
def pcReg (p o : Nat) : Nat := memBase + 0x1000 + 0x80 * p + o

/-- Default bank masks, rotation masks and slice masks (Table 11.4, R402). -/
def memMaskDefault (o : Nat) : W64 :=
  if o = 0x10 then 0x08421 else if o = 0x18 then 0x10842 else if o = 0x20 then 0x21084 else if o = 0x28 then 0x42108
  else if o = 0x30 then 0x04210
  else if o = 0x40 then 0x4400 else if o = 0x48 then 0x8800 else if o = 0x50 then 0x11000 else if o = 0x58 then 0x22000
  else if o = 0x60 then 0x00444001 else if o = 0x68 then 0x00888002 else if o = 0x70 then 0x01110004
  else if o = 0x78 then 0x02220008
  else 0

/-- Reset value of a register, by its offset within one function's copy (Access and Reset columns of the register
tables). The masks and delays of the parameter block stand at the ROM defaults until a start writes them (log entry 7). -/
def regReset (key : Nat) : W64 :=
  let o := key % 0x100000000
  if 0x01000000 ≤ o ∧ o < 0x02000000 then
    (if o % 0x200000 = 0x10000 then 0x01000801 else if o % 0x200000 = 0x20000 then 0x100 else 0)
  else if o = gzBase then 0x010003E8
  else if o = coilBase + 0x10 then 0x10000
  else if o = dmBase + 0x10 then 0x10000
  else if hpBase + 0x1000 ≤ o ∧ o < hpBase + 0x2000 ∧ o % 0x40 = 8 then 0x10008
  else if memBase ≤ o ∧ o < memBase + 0x80 then memMaskDefault (o - memBase)
  else 0

/-- The value of a register. -/
def State.reg (s : State) (k : Nat) : W64 := Tbl.get (regReset k) s.regs k

/-- The state with a register written. -/
def State.setReg (s : State) (k : Nat) (v : W64) : State := { s with regs := Tbl.set (regReset k) s.regs k v }

/-- Field of `w` bits at bit `lo` of a register. -/
def State.regField (s : State) (k lo w : Nat) : Nat := (s.reg k).toNat / 2 ^ lo % 2 ^ w

/-- The state with one field of a register written. -/
def State.setField (s : State) (k lo w x : Nat) : State := s.setReg k (BitVec.ofNat 64 (putField (s.reg k).toNat lo w x))

/-- A counter register advanced. Counters wrap at 64 bits. -/
def State.count (s : State) (k n : Nat) : State := s.setReg k (s.reg k + BitVec.ofNat 64 n)

/-- Key of a dictionary entry. -/
def dkey (idx sub : Nat) : Nat := idx * 256 + sub

/-- Default of a dictionary entry, by its key. -/
def dictReset (key : Nat) : W64 := dictDefault (key / 256) (key % 256)

/-- The stored value of a numeric dictionary entry. -/
def State.entry (s : State) (idx sub : Nat) : Nat := (Tbl.get (dictReset (dkey idx sub)) s.dict (dkey idx sub)).toNat

/-- The state with a numeric dictionary entry written. -/
def State.setEntry (s : State) (idx sub v : Nat) : State :=
  { s with dict := Tbl.set (dictReset (dkey idx sub)) s.dict (dkey idx sub) (BitVec.ofNat 64 v) }

/-- A counter entry advanced. -/
def State.countEntry (s : State) (idx sub n : Nat) : State := s.setEntry idx sub (s.entry idx sub + n)

/-- Entry of context c (Table 10.1). -/
def State.ctx (s : State) (c sub : Nat) : Nat := s.entry (0x3000 + c) sub
/-- Entry of stream n (Tables 8.4, 9.6, 10.7). -/
def State.str (s : State) (n sub : Nat) : Nat := s.entry (0x2000 + n) sub

/-- The state with something sent after everything sent before (R508). -/
def State.send (s : State) (o : Out) : State := { s with out := s.out ++ [o] }

/-- One error record in the error register of a block: the first code since VALID (bit 63) was cleared stays. -/
def State.errReg (s : State) (k : Nat) (v : Nat) : State :=
  if (s.reg k).getLsbD 63 then s else s.setReg k (BitVec.ofNat 64 (v + 2 ^ 63))

/-- Origin numbers of the log (Table 16.10): a function, KDP, the device. -/
def originNo : Origin → Nat
  | .fn k => k.val
  | .kdp => 0x40
/-- The device itself. -/
abbrev originDev : Nat := 0x41

/-- A code enters the error log (R557): the log keeps the 64 newest records, LOGGED (0x6000:01) counts every record and
LOST (0x6000:03) the displaced ones. -/
def State.logRec (s : State) (code : W16) (origin kind obj detail : Nat) : State :=
  let n := s.entry 0x6000 1 + 1
  let s := if 64 ≤ s.log.length then s.countEntry 0x6000 3 1 else s
  { s.setEntry 0x6000 1 n with log := (⟨n, code, origin, kind, obj, detail⟩ :: s.log).take 64 }

/-- Registers that an event resets take their reset values (R494, R520). -/
def State.dropRegs (s : State) (drop : Nat → Bool) : State := { s with regs := Tbl.keep s.regs fun k _ => !drop k }

/-- Entries reset by an event. -/
def State.dropEntries (s : State) (drop : Nat → Bool) : State := { s with dict := Tbl.keep s.dict fun k _ => !drop k }

end Sys2Proof.Machine
end

