-- ==== Sys2Proof/Machine/Ops.lean ====
section
/-! DEFINITION. Shared operations of the host port and the error log: what a function may send, MSI-X messages, posted
writes through a function's translation, and codes attributed to a function (R502 to R507, R512, R557). -/

namespace Sys2Proof.Machine

/-- The state record of function k. -/
def State.fn (s : State) (k : Nat) : FnSt := Tbl.get {} s.hp.fns k

/-- The state with the record of function k changed. -/
def State.modFn (s : State) (k : Nat) (f : FnSt → FnSt) : State :=
  { s with hp := { s.hp with fns := Tbl.modify {} s.hp.fns k f } }

/-- PF0 always exists; a VF exists while VF Enable names it (R490). -/
def State.enabled (s : State) (k : Nat) : Bool := k == 0 || (decide (k < 64) && (s.fn k).vf)

/-- The port is frozen (HP_STATUS.FROZEN, R515). -/
def State.frozen (s : State) : Bool := s.regField hpBase 9 1 == 1

/-- A function may start requests of its own: it exists, Bus Master Enable is 1, it is not in D3hot and the port is not
frozen (R512, R514, R517). -/
def State.canIssue (s : State) (k : Nat) : Bool :=
  s.enabled k && (s.fn k).bme && !(s.fn k).d3hot && !s.frozen

/-- The sum of two counts. -/
def Work.add (a b : Work) : Work := ⟨a.op4 + b.op4, a.op8 + b.op8, a.op16 + b.op16, a.vec + b.vec⟩

/-- Work of context c in the activity counters (R374, R483). -/
def State.addWork (s : State) (c : Nat) (w : Work) : State :=
  { s with acts := { s.acts with ctxs := Tbl.modify {} s.acts.ctxs c fun x => x.add w, all := s.acts.all.add w } }

/-- ATS_MODE of a function (HP_FNk). -/
def State.atsMode (s : State) (k : Nat) : Nat := s.regField (hpBase + 0x100 + 8 * k) 0 2

/-- The entry of the translation cache for an access of function k (R506). -/
def State.xlate (s : State) (k addr : Nat) (write : Bool) : Option XEntry :=
  s.hp.xcache.find? fun e =>
    decide (e.fn = k) && decide (addr / 2 ^ e.log2 = e.page / 2 ^ e.log2) && (e.write || !write)

/-- The host address and access of something that leaves. -/
def Out.target : Out → Option (Nat × Bool)
  | .write _ _ a _ => some (a.toNat, true)
  | .read _ _ a _ _ => some (a.toNat, false)
  | _ => none

/-- A request with its address replaced by a translated one. -/
def Out.retarget (a : Nat) : Out → Out
  | .write k _ _ bs => .write k true (BitVec.ofNat 64 a) bs
  | .read k _ _ n r => .read k true (BitVec.ofNat 64 a) n r
  | o => o

/-- The function that a request of the port belongs to. -/
def Out.fnOf : Out → Nat
  | .write k _ _ _ | .msix k _ | .read k _ _ _ _ | .cpl k _ _ | .xlateReq k _ | .invDone k _ => k
  | _ => 0

/-- A posted request: a write or a message (Table 15.5). -/
def Out.posted : Out → Bool
  | .write _ _ _ _ | .msix _ _ => true
  | _ => false

/-- What waits for the completion of a request. -/
def Out.reads : Out → Option DevRead
  | .read _ _ _ _ r => some r
  | _ => none

/-- Payload bytes of a TLP that the port sends; a message writes 4. -/
def Out.payload : Out → Nat
  | .write _ _ _ bs | .cpl _ _ bs => bs.length
  | .msix _ _ => 4
  | _ => 0

/-- Payload bytes of what has been sent. -/
def sentBytes (out : List Out) : Nat := (out.map Out.payload).sum

/-- Non-posted requests that the port may have outstanding (Table 15.1). -/
def maxOutstanding : Nat := 512

/-- What function k sends next leaves: as it stands in modes 0 and 2, with its translation in mode 1 (R505). None: its translation
is not held. -/
def State.leave (s : State) (k : Nat) (o : Out) : Option State :=
  match o.target with
  | none => some (s.send o)
  | some (a, w) =>
    if s.atsMode k = 0 then some (s.send o)
    else if s.atsMode k ≠ 1 then some (s.send (o.retarget a))
    else (s.xlate k a w).map fun e => s.send (o.retarget (e.host / 2 ^ e.log2 * 2 ^ e.log2 + a % 2 ^ e.log2))

/-- The translation of an access is asked for, one at a time for a function (R505). -/
def State.askXlate (s : State) (k : Nat) (o : Out) : State :=
  if (s.fn k).asked.isSome then s
  else (s.send (.xlateReq k (BitVec.ofNat 64 ((o.target.map (·.1)).getD 0)))).modFn k fun f => { f with asked := some o }

/-- A read has left and waits for its completion; it may have used a translation. -/
def State.takeOff (s : State) (k : Nat) (o : Out) : State :=
  match o with
  | .read _ _ a _ r => { s with hp := { s.hp with
      flying := s.hp.flying ++ [{ fn := k, read := r, entry := if s.atsMode k = 1 then s.xlate k a.toNat false else none }] } }
  | _ => s

/-- What has been generated leaves in order (R508): what a function may not send is held; behind a posted request that waits for its
translation nothing leaves, behind a read that waits nothing of its function does. Of reads, 512 are outstanding at most. `kept` is what
stays so far, `stuck` the functions that wait. -/
def State.serveWaits (s : State) (kept : List Wait) (stuck : List Nat) (blocked : Bool) : List Wait → State
  | [] => { s with hp := { s.hp with waits := kept } }
  | w :: ws =>
    let k := w.out.fnOf
    if !s.canIssue k then s.serveWaits (kept ++ [w]) stuck blocked ws
    else if blocked || stuck.contains k || (w.out.reads.isSome && decide (maxOutstanding ≤ s.hp.flying.length)) then
      s.serveWaits (kept ++ [w]) (k :: stuck) (blocked || w.out.posted) ws
    else match s.leave k w.out with
      | some t => (t.takeOff k w.out).serveWaits kept stuck blocked ws
      | none => (s.askXlate k w.out).serveWaits (kept ++ [w]) (k :: stuck) w.out.posted ws

/-- What waits leaves where it may. -/
def State.serve (s : State) : State := s.serveWaits [] [] false s.hp.waits

/-- Something of function k is generated: it leaves, or it waits behind what waits already (R505, R508). -/
def State.issue (s : State) (o : Out) (wb : WriteBack) : State :=
  ({ s with hp := { s.hp with waits := s.hp.waits ++ [⟨o, wb⟩] } } : State).serve

/-- A posted write of function k that is due. -/
def State.hostWrite (s : State) (k : Nat) (addr : W64) (bs : List Byte) (wb : WriteBack) : State := s.issue (.write k false addr bs) wb

/-- Invalidate Completions that are due leave, whatever the state of Bus Master Enable; a frozen port sends none (R506, R516). -/
def State.sendInvals (s : State) : State :=
  if s.frozen then s
  else
    let due := s.hp.invals.filter fun i => i.reads.isEmpty
    due.foldl (fun s i => s.send (.invDone i.fn i.page))
      { s with hp := { s.hp with invals := s.hp.invals.filter fun i => !i.reads.isEmpty } }

/-- The first read outstanding for a purpose. -/
def State.flight (s : State) (r : DevRead) : Option Flight := s.hp.flying.find? fun f => f.read == r

/-- A read has been transmitted and waits for its completion. -/
def State.awaits (s : State) (r : DevRead) : Bool := (s.flight r).isSome

/-- A read has ended: invalidations that waited for it may complete, and what waited for a tag leaves (R506, Table 15.1). -/
def State.land (s : State) (r : DevRead) : State :=
  match s.flight r with
  | none => s
  | some f =>
    let s := { s with hp := { s.hp with
      flying := s.hp.flying.erase f
      invals := s.hp.invals.map (fun (i : Inval) => { i with reads := i.reads.erase f }) } }
    s.sendInvals.serve

/-- Payload bytes of TLPs received (HP_RX_BYTES). -/
def State.received (s : State) (n : Nat) : State := { s with hp := { s.hp with rx := s.hp.rx + n } }

/-- A message of vector v of function k: sent when its entry is unmasked and both enables are 1, pending otherwise
(R502). -/
def State.msix (s : State) (k v : Nat) : State :=
  if s.canIssue k && (s.fn k).msixEn && !(s.fn k).masked.getLsbD v then s.issue (.msix k v) .no
  else s.modFn k fun f => { f with pend := f.pend ||| (1#32 <<< v) }

/-- Pending messages of function k whose entries are unmasked leave, the lowest vector first, while both enables are 1 (R502). -/
def State.sendPended (s : State) (k : Nat) : State :=
  (List.range 32).foldl (fun s v =>
    if (s.fn k).pend.getLsbD v && s.canIssue k && (s.fn k).msixEn && !(s.fn k).masked.getLsbD v then
      (s.modFn k fun f => { f with pend := f.pend &&& ~~~(1#32 <<< v) }).issue (.msix k v) .no
    else s) s

/-- A code attributed to function k: HP_FNERRk and the function's error message (R504). -/
def State.fnErr (s : State) (code : W16) (k : Nat) : State :=
  (s.errReg (hpBase + 0x800 + 8 * k) code.toNat).msix k (s.regField (hpBase + 0x100 + 8 * k) 8 5)

/-- A code enters the error log and, where it is attributed to function k, what R504 says happens (R504, R557). -/
def State.logErr (s : State) (code : W16) (origin kind obj detail : Nat) (fn : Option Nat) : State :=
  let s := s.logRec code origin kind obj detail
  match fn with
  | none => s
  | some k => s.fnErr code k

/-- A rejected write or command of function k about an object (R504). -/
def State.reject (s : State) (code : W16) (k kind obj : Nat) : State := s.logErr code k kind obj 0 (some k)

/-- A function's or KDP's rejected register write or command about an object, with the value written (R504, R557). -/
def State.rejectV (s : State) (code : W16) (k kind obj detail : Nat) : State := s.logErr code k kind obj (detail % 2 ^ 32) (some k)

/-- A rejected write or command of a function or of KDP. -/
def State.rejectBy (s : State) (code : W16) (o : Origin) (kind obj : Nat) : State :=
  match o with
  | .fn k => s.reject code k.val kind obj
  | .kdp => s.logErr code 0x40 kind obj 0 none

/-- A code that the device itself logs about an object. -/
def State.logDev (s : State) (code : W16) (kind obj : Nat) : State := s.logErr code originDev kind obj 0 none

/-- Start stage (START.STAGE, Table 17.10): 11 is READY, 14 recovery. -/
def State.stage (s : State) : Nat := s.entry 0x1300 0x02

/-- Power state (PWR.STATE, Table 14.6): 0 Run, 1 Idle, 2 Nap, 3 Standby. -/
def State.power (s : State) : Nat := s.entry 0x1400 0x02

/-- A wake event: it acts in Nap and is kept for the entry in progress (R480, R481). -/
def State.wakeUp (s : State) : State := if s.power = 2 || s.tth.nap != 0 then { s with wake := true } else s

/-- An access of function k's host software through a BAR, carrying `n` bytes. A function that is not enabled takes none (R490); before
READY and in recovery it is discarded (R578), a frozen port discards it (R516), in Standby the link is down (R33); in Nap it is a wake
event and takes effect (R481, R510). -/
def State.hostAct (s : State) (k n : Nat) (f : State → State) : Host.Outcome State Fault Refusal :=
  if s.stage ≠ 11 || s.frozen || s.power = 3 || !s.enabled k then .next s else .next (f (s.wakeUp.received n))

/-- An access of the host to its dictionary mailbox: as any BAR access in READY; in recovery only PF0's mailbox is served
(R578). -/
def State.hostDict (s : State) (k n : Nat) (f : State → State) : Host.Outcome State Fault Refusal :=
  if s.stage = 14 ∧ k = 0 ∧ !s.frozen ∧ s.power ≠ 3 then .next (f (s.received n)) else s.hostAct k n f

/-- A fresh value that the spec does not state (log entry 3). -/
def State.freshWord (s : State) : W64 × State := (Sys2Proof.Config.freeWord s.fresh, { s with fresh := s.fresh + 1 })

/-- A counter of elapsed cycles advances by an amount that the spec leaves to timing: a fresh value (log entry 14). -/
def State.countFree (s : State) (k : Nat) : State :=
  let (w, s) := s.freshWord
  s.count k w.toNat

/-- A step that goes on. -/
abbrev go (s : State) : Host.Outcome State Fault Refusal := .next s

end Sys2Proof.Machine
end

