-- ==== Sys2Proof/Machine/Hbm.lean ====
section
/-! DEFINITION. HBM addresses, the word code, the page code and the splice buffer, and the coherent view through which
every requester reads and writes (spec 11, 12). -/

namespace Sys2Proof.Machine

/-- Number of set bits among the low `n` bits. -/
def popcount : Nat → Nat → Nat
  | 0, _ => 0
  | n + 1, v => v % 2 + popcount n (v / 2)

/-- Parity of the low 64 bits. -/
def parity (v : Nat) : Nat := popcount 64 v % 2

/-- Position of the r-th lowest set bit among `n` bits from position `i` (R385). -/
def nthSet : Nat → Nat → Nat → Nat → Nat
  | 0, i, _, _ => i
  | n + 1, i, v, r => if v % 2 = 1 then (if r = 0 then i else nthSet n (i + 1) (v / 2) (r - 1)) else nthSet n (i + 1) (v / 2) r

/-- COMMON_MIB in effect (R410). -/
def State.commonMib (s : State) : Nat := s.mem.common

/-- PC_MASK of herd h (Table 10.10). -/
def State.pcMask (s : State) (h : Nat) : Nat := s.entry 0x3500 (0x10 + h)

/-- WAY_MASK of herd h (Table 10.10). -/
def State.wayMask (s : State) (h : Nat) : Nat := s.entry 0x3500 (0x20 + h)

/-- Size of an aperture in MiB: 0 the common one, 1 to 8 the herds', others none (R382, R383). -/
def State.apertureMib (s : State) (ap : Nat) : Nat :=
  if ap = 0 then 32 * s.commonMib
  else if ap ≤ 8 then popcount 32 (s.pcMask (ap - 1)) * (762 - s.commonMib)
  else 0

/-- An HBM data address that names a location (R384). -/
def State.addrOk (s : State) (a : Nat) : Bool :=
  decide (a < 2 ^ 39) && decide (a % 2 ^ 35 < s.apertureMib (a / 2 ^ 35) * 2 ^ 20)

/-- Rotation of unit j of the pseudo-channels of a set (R385). -/
def State.rotation (s : State) (j : Nat) : Nat :=
  (List.range 5).foldl (fun a k => a + parity (j &&& (s.reg (memBase + 0x10 + 8 * k)).toNat) * 2 ^ k) 0

/-- Pseudo-channel and PC-local address of an HBM data address (R385). -/
def State.mapAddr (s : State) (a : Nat) : Nat × Nat :=
  let ap := a / 2 ^ 35
  let o := a % 2 ^ 35
  let set := if ap = 0 then 0xFFFFFFFF else s.pcMask (ap - 1)
  let base := if ap = 0 then 0 else s.commonMib
  let n := popcount 32 set
  let i := o / 2048
  let j := i / n
  let r := (i % n + s.rotation j) % n
  (nthSet 32 0 set r, base * 2 ^ 20 + j * 2048 + o % 2048)

/-- Bank of a PC-local address: bank group bits 0 and 1, bank bits 0 and 1, and the stack ID (R386). -/
def State.bankOf (s : State) (q : Nat) : Nat :=
  (List.range 4).foldl (fun a k => a + parity (q &&& (s.reg (memBase + 0x40 + 8 * k)).toNat) * 2 ^ k) 0 + 16 * (q / 2 ^ 28)

/-- Key of a stored byte: pseudo-channel and PC-local address as one number. -/
def physKey (pq : Nat × Nat) : Nat := pq.1 * 2 ^ 30 + pq.2

/-- The herd that owns a pseudo-channel (R371). -/
def State.pcHerd (s : State) (p : Nat) : Option Nat := (List.range 8).find? fun h => (s.pcMask h).testBit p

/-- The HBM data address of a stored byte: R385 read from its end. It lies in the common aperture, or in the aperture of the herd that
owns the pseudo-channel; a byte of no aperture has none, and gives 0 (DESIGN CHOICE, log entry 76). -/
def State.dataAddr (s : State) (key : Nat) : Nat :=
  let p := key / 2 ^ 30
  let q := key % 2 ^ 30
  let common := decide (q < s.commonMib * 2 ^ 20)
  match (if common then some 0 else (s.pcHerd p).map (· + 1)) with
  | none => 0
  | some ap =>
    let set := if ap = 0 then 0xFFFFFFFF else s.pcMask (ap - 1)
    let j := q / 2048 - (if common then 0 else s.commonMib * 512)
    let n := popcount 32 set
    let i := (popcount p set + n - s.rotation j % n) % n
    ap * 2 ^ 35 + (j * n + i) * 2048 + q % 2048

/-! ### The word code -/

/-- Columns of the data bits (R416). -/
def wordCols : List Nat :=
  (List.range 256).filter (fun v => popcount 8 v == 3) ++ ((List.range 256).filter (fun v => popcount 8 v == 5)).take 8

/-- XOR of the columns of the data bits set in `v`. -/
def xorCols : List Nat → Nat → Nat
  | [], _ => 0
  | c :: cs, v => (if v % 2 = 1 then c else 0) ^^^ xorCols cs (v / 2)

/-- The check byte of a word (R416). -/
def checkByte (v : Nat) : Nat := xorCols wordCols v

/-- What a read of a word finds (R417, R418). -/
inductive WordRead where
  | clean (v : Nat)
  | corrected (v : Nat)
  | ue
  | poison
  deriving DecidableEq, Repr

/-- Decoding of a stored word and its syndrome (R417, R418). -/
def decodeWord (data syn : Nat) : WordRead :=
  if data = 0 ∧ syn = 0x7F then .poison
  else if syn = 0 then .clean data
  else if popcount 8 syn = 1 then .corrected data
  else
    match wordCols.idxOf? syn with
    | some d => .corrected (data ^^^ 2 ^ d)
    | none => .ue

/-- The value of a readable word. -/
def WordRead.value : WordRead → Option Nat
  | .clean v | .corrected v => some v
  | _ => none

/-- The stored data of word w of HBM. -/
def Mem.word (m : Mem) (w : Nat) : Nat := natLE (Tbl.getList 0 m.hbm (8 * w) 8)

/-- What a read of word w of HBM finds. -/
def Mem.readWord (m : Mem) (w : Nat) : WordRead := decodeWord (m.word w) (Tbl.get 0 m.syn w).toNat

/-- A word stored with data and syndrome; the page's check words stay. -/
def Mem.store (m : Mem) (w data syn : Nat) : Mem :=
  { m with hbm := Tbl.setList 0 m.hbm (8 * w) (bytesLE 8 data), syn := Tbl.set 0 m.syn w (BitVec.ofNat 8 syn) }

/-- Poison written over a word (R418). -/
def Mem.poison (m : Mem) (w : Nat) : Mem := m.store w 0 0x7F

/-! ### The page code -/

/-- Product in GF(2^8) with polynomial 0x11D (R421). -/
def gmul : Nat → Nat → Nat → Nat
  | 0, _, _ => 0
  | n + 1, a, b =>
    (if b % 2 = 1 then a else 0) ^^^ gmul n (if 128 ≤ a then (a * 2) ^^^ 0x11D else a * 2) (b / 2)

/-- Product of two field elements. -/
def gfMul (a b : Nat) : Nat := gmul 8 a b

/-- Power in the field. -/
def gfPow (a : Nat) : Nat → Nat
  | 0 => 1
  | n + 1 => gfMul a (gfPow a n)

/-- Quotient in the field (R422). -/
def gfDiv (a b : Nat) : Nat := gfMul a (gfPow b 254)

/-- Product of a field element with every byte lane of a word. -/
def gfScale (x w : Nat) : Nat := natLE ((bytesLE 8 w).map fun b => BitVec.ofNat 8 (gfMul x b.toNat))

/-- Quotient of every byte lane of a word by a field element. -/
def gfUnscale (w x : Nat) : Nat := natLE ((bytesLE 8 w).map fun b => BitVec.ofNat 8 (gfDiv b.toNat x))

/-- The symbols P and Q of words listed with their positions (R421). -/
def pageSyms (ws : List (Nat × Nat)) : Nat × Nat :=
  ws.foldl (fun a w => (a.1 ^^^ w.2, a.2 ^^^ gfScale w.1 w.2)) (0, 0)

/-- The page's check words as a read finds them. -/
def Mem.checkWords (m : Mem) (page : Nat) : WordRead × WordRead :=
  let c := Tbl.get {} m.chk page
  (decodeWord c.p.toNat c.pSyn.toNat, decodeWord c.q.toNat c.qSyn.toNat)

/-- The page's check words written. -/
def Mem.setCheck (m : Mem) (page p q : Nat) : Mem :=
  { m with chk := Tbl.set {} m.chk page { p := BitVec.ofNat 64 p, q := BitVec.ofNat 64 q } }

/-- Both check words written as poison (R423, R426). -/
def Mem.poisonCheck (m : Mem) (page : Nat) : Mem :=
  { m with chk := Tbl.set {} m.chk page { p := 0, q := 0, pSyn := 0x7F, qSyn := 0x7F } }

/-- The words of a page as a read finds them, with their positions. -/
def Mem.pageWords (m : Mem) (page : Nat) : List (Nat × WordRead) :=
  (List.range 256).map fun i => (i, m.readWord (256 * page + i))

/-- Positions of a page's words that read uncorrectable and are not poison. -/
def erased (ws : List (Nat × WordRead)) : List Nat := (ws.filter fun w => w.2 == .ue).map (·.1)

/-- Readable words of a page with their positions. -/
def readable (ws : List (Nat × WordRead)) : List (Nat × Nat) := ws.filterMap fun w => w.2.value.map fun v => (w.1, v)

/-- The rebuilt words of a page (R422): positions and values, or none when the page is not rebuilt. -/
def Mem.rebuild (m : Mem) (page : Nat) : Option (List (Nat × Nat)) :=
  let ws := m.pageWords page
  if ws.any fun w => w.2 == .poison then none
  else
    let e := erased ws
    let (sp, sq) := pageSyms (readable ws)
    let (cp, cq) := m.checkWords page
    match e, cp.value, cq.value with
    | [], _, _ => some []
    | [i], some p, _ => some [(i, p ^^^ sp)]
    | [i], none, some q => if i = 0 then none else some [(i, gfUnscale (q ^^^ sq) i)]
    | [i, j], some p, some q =>
      let s1 := p ^^^ sp
      let s2 := q ^^^ sq
      let wj := gfUnscale (s2 ^^^ gfScale i s1) (i ^^^ j)
      some [(i, s1 ^^^ wj), (j, wj)]
    | _, _, _ => none

/-- The value a read of word w ends with: its own, or the rebuilt one (R423); none is a bus error. -/
def Mem.value (m : Mem) (w : Nat) : Option Nat :=
  match m.readWord w with
  | .clean v | .corrected v => some v
  | .poison => none
  | .ue => (m.rebuild (w / 256)).bind fun r => (r.find? fun x => x.1 == w % 256).map (·.2)

/-! ### Flips (R434) -/

/-- A flip is armed for domain d. -/
def State.flipArmed (s : State) (d : Nat) : Bool := s.regField intBase 6 1 == 1 && s.regField intBase 0 3 == d

/-- INT_FLIP_ADDR. -/
def State.flipAddr (s : State) : Nat := (s.reg (intBase + 8)).toNat
/-- INT_FLIP_DATA. -/
def State.flipData (s : State) : Nat := (s.reg (intBase + 0x10)).toNat
/-- Syndrome that the flipped write of a word leaves: its check byte is of the intended data XOR INT_FLIP_CHECK. -/
def State.flipSyn (s : State) : Nat := s.regField (intBase + 0x18) 0 8 ^^^ checkByte s.flipData

/-- The flip has acted: ARM clears and DONE is set (R434). -/
def State.flipDone (s : State) : State := (s.setField intBase 6 1 0).setField intBase 7 1 1

/-- A word stored in HBM by a write, flipped when it is the armed target of domain 0 (R434). -/
def State.storeWord (s : State) (w data : Nat) : State :=
  if s.flipArmed 0 && s.addrOk s.flipAddr && physKey (s.mapAddr s.flipAddr) / 8 == w then
    { s.flipDone with mem := s.mem.store w (data ^^^ s.flipData) s.flipSyn }
  else { s with mem := s.mem.store w data 0 }

/-- The check words written by a flush, flipped when the page holds the armed target of domain 1 (Table 12.3). -/
def State.storeCheck (s : State) (page p q : Nat) : State :=
  if s.flipArmed 1 && s.addrOk s.flipAddr && physKey (s.mapAddr s.flipAddr) / 2048 == page then
    { s.flipDone with mem := s.mem.setCheck page (p ^^^ s.flipData) (q ^^^ (s.reg (intBase + 0x20)).toNat) }
  else { s with mem := s.mem.setCheck page p q }

/-! ### Errors of memory -/

/-- A code of the integrity logic: the error log, INT_ERR and INT_ERR_ADDR (R439). -/
def State.intErr (s : State) (code : W16) (domain addr : Nat) : State :=
  let s := s.logDev code 0 0
  if (s.reg (intBase + 0x40)).getLsbD 63 then s
  else (s.errReg (intBase + 0x40) (code.toNat + domain * 2 ^ 16)).setReg (intBase + 0x48) (BitVec.ofNat 64 addr)

/-! ### Flush of a splice entry -/

/-- Positions of the words of an entry that hold a valid byte. -/
def Splice.touched (e : Splice) : List Nat :=
  (List.range 256).filter fun i => e.data.any fun b => b.1 / 8 == i

/-- The bytes of an entry merged into an old word. -/
def Splice.merge (e : Splice) (i old : Nat) : Nat :=
  natLE ((List.range 8).zipWith (fun b o => (Tbl.get none e.data (8 * i + b)).getD o) (bytesLE 8 old))

/-- Every byte of word i is valid in the entry. -/
def Splice.whole (e : Splice) (i : Nat) : Bool :=
  (List.range 8).all fun b => (Tbl.get none e.data (8 * i + b)).isSome

/-- Every byte of the entry is valid. -/
def Splice.full (e : Splice) : Bool := e.data.length == 2048

/-- Bank and row of a word of a pseudo-channel: the key of its bank, and its row + 1 (R386, R394). -/
def State.rowOf (s : State) (w : Nat) : Nat × Nat :=
  let q := w * 8 % 2 ^ 30
  (w / 2 ^ 27 * 64 + s.bankOf q, q / 16384 % 16384 + 1)

/-- The row of a word is open (R394). -/
def State.rowIsOpen (s : State) (w : Nat) : Bool := Tbl.get 0 s.mem.rows (s.rowOf w).1 == (s.rowOf w).2

/-- An access to the row of a word: it is open from then on, and a hit or an activation counts (R394, Table 11.10). -/
def State.openRow (s : State) (w : Nat) : State :=
  let s := s.count (pcReg (w / 2 ^ 27) (if s.rowIsOpen w then 0x28 else 0x20)) 1
  { s with mem := { s.mem with rows := Tbl.set 0 s.mem.rows (s.rowOf w).1 (s.rowOf w).2 } }

/-- The number of a check word: its place in the check region (R381). -/
def checkWordNo (page i : Nat) : Nat := page / 2 ^ 19 * 2 ^ 27 + 762 * 2 ^ 17 + 2 * (page % 2 ^ 19) + i

/-- Rows of the words of a page at positions `ws`, one access for each line of them, and of its check words. -/
def State.openLines (s : State) (page : Nat) (ws : List Nat) : State :=
  (((List.range 16).filter fun l => ws.any fun i => i / 16 == l).map (256 * page + 16 * ·)).foldl (fun s w => s.openRow w) s

/-- Words of a page, at positions `ws`, read from their pseudo-channel, with both check words where `chk` holds: rows and bytes count
(Table 11.10). -/
def State.countRd (s : State) (page : Nat) (ws : List Nat) (chk : Bool) : State :=
  let s := s.openLines page ws
  let s := if chk then s.openRow (checkWordNo page 0) else s
  s.count (pcReg (page / 2 ^ 19) 0x10) (8 * ws.length + if chk then 16 else 0)

/-- A word written on its own, corrected or rebuilt: row and bytes count (Table 11.10). -/
def State.writeWord (s : State) (w v : Nat) : State := ((s.storeWord w v).openRow w).count (pcReg (w / 2 ^ 27) 0x18) 8

/-- The rebuilt words of a page written back and counted, with one PAGE_RECOVERED (R423). -/
def State.writeRebuilt (s : State) (page : Nat) (r : List (Nat × Nat)) : State :=
  (r.foldl (fun s x => s.writeWord (256 * page + x.1) x.2) s).countEntry 0x1500 0x52 1

/-- A pseudo-channel that R393 has failed. -/
def State.pcFailed (s : State) (p : Nat) : Bool := Tbl.get .active s.mem.power p == .failed

/-! ### What reads of words count (R417, R418, R420) -/

/-- A word read, as its code leaves it: a corrected word, an uncorrectable one and a poisoned one are counted (Table 12.5). -/
def State.countWord (s : State) (w : Nat) : State :=
  match s.mem.readWord w with
  | .clean _ => s
  | .corrected _ => s.countEntry 0x1500 0x50 1
  | .ue => s.countEntry 0x1500 0x51 1
  | .poison => (s.countEntry 0x1500 0x51 1).intErr Code.MEM_POISON 0 (s.dataAddr (8 * w))

/-- The splice buffer holds bytes of a word, or a write of it is queued (R420). -/
def Mem.wordHeld (m : Mem) (w : Nat) : Bool :=
  (m.splice.any fun e => e.page == w / 256 && e.touched.contains (w % 256)) || m.queue.any fun r => r.write && r.words.contains w

/-- A word read and, where it is corrected and no write of it is waiting, written back with `back` (R420). -/
def State.checkWord (s : State) (back : Bool) (w : Nat) : State :=
  let t := s.countWord w
  match s.mem.readWord w with
  | .corrected v => if back && !s.mem.wordHeld w then t.writeWord w v else t
  | _ => t

/-- CE_WRITEBACK. -/
def State.ceBack (s : State) : Bool := s.entry 0x1500 0x43 == 1

/-- Both check words of a page read, counted, and written back corrected with `back` (Table 12.1). -/
def State.checkPair (s : State) (back : Bool) (page : Nat) : State :=
  let c := Tbl.get {} s.mem.chk page
  let tally := fun (s : State) (r : WordRead) => match r with
    | .clean _ => s
    | .corrected _ => s.countEntry 0x1500 0x50 1
    | _ => s.countEntry 0x1500 0x51 1
  let p := decodeWord c.p.toNat c.pSyn.toNat
  let q := decodeWord c.q.toNat c.qSyn.toNat
  let s := tally (tally s p) q
  let fix := fun (r : WordRead) (v : W64) (syn : Byte) => match r with
    | .corrected x => (BitVec.ofNat 64 x, (0 : Byte))
    | _ => (v, syn)
  let p' := fix p c.p c.pSyn
  let q' := fix q c.q c.qSyn
  if back then { s with mem := { s.mem with chk := Tbl.set {} s.mem.chk page { p := p'.1, q := q'.1, pSyn := p'.2, qSyn := q'.2 } } } else s

/-! ### The controllers' queues (R393 to R399) -/

/-- Reads queued at pseudo-channel p, the oldest first; what stands behind 64 of them waits in the cache (R396). -/
def Mem.reads (m : Mem) (p : Nat) : List PcReq := (m.queue.filter fun r => r.pc == p && !r.write).take 64

/-- Writes queued at pseudo-channel p, the oldest first; what stands behind 64 of them waits in the splice buffer (R396). -/
def Mem.writes (m : Mem) (p : Nat) : List PcReq := (m.queue.filter fun r => r.pc == p && r.write).take 64

/-- One of two requests writes a byte that the other touches (R395). -/
def PcReq.meets (a b : PcReq) : Bool := (a.write || b.write) && a.words.any fun w => b.words.contains w

/-- An older request holds a queued one (R395). -/
def Mem.holds (m : Mem) (r : PcReq) : Bool := (m.queue.takeWhile fun x => decide (x ≠ r)).any fun o => o.meets r

/-- The request targets an open row (R394). -/
def State.rowOpen (s : State) (r : PcReq) : Bool := s.rowIsOpen (r.words.headD 0)

/-- The request that R394 chooses of queued ones, none of them held and none promoted by age: the oldest to an open row, else the
oldest. -/
def State.choose (s : State) (rs : List PcReq) : Option PcReq :=
  let free := rs.filter fun r => !s.mem.holds r
  (free.find? s.rowOpen).or free.head?

/-- The write that a drain chooses (R394): the oldest, where it is one of `old`, writes that have waited longer than AGE_CAP; else as
above. -/
def State.chooseWrite (s : State) (old : List PcReq) (p : Nat) : Option PcReq :=
  match (s.mem.writes p).find? fun r => !s.mem.holds r with
  | none => none
  | some r => if old.contains r then some r else s.choose (s.mem.writes p)

/-- A request reaches a pseudo-channel: it leaves power-down and self-refresh (R397, R399). -/
def State.wakePc (s : State) (p : Nat) : State :=
  if s.pcFailed p then s else { s with mem := { s.mem with power := Tbl.set .active s.mem.power p .active } }

/-- A request issues: its row is open, its bytes are counted, and a run of parity errors has ended (R393, R394, Table 11.10). -/
def State.issueReq (s : State) (r : PcReq) : State :=
  let s := (s.openRow (r.words.headD 0)).count (pcReg r.pc (if r.write then 0x18 else 0x10)) (8 * r.words.length)
  { s with mem := { s.mem with retries := Tbl.set 0 s.mem.retries r.pc 0, queue := s.mem.queue.erase r } }

/-- Writes issue until `n` remain, by R394's choice. -/
def State.drainTo (s : State) (old : List PcReq) (p n : Nat) : Nat → State
  | 0 => s
  | fuel + 1 =>
    if (s.mem.writes p).length ≤ n then s
    else match s.chooseWrite old p with
      | none => s
      | some r => (s.issueReq r).drainTo old p n fuel

/-- The oldest read waits for a queued write (R395). -/
def Mem.oldestWaits (m : Mem) (p : Nat) : Bool :=
  match m.reads p with
  | [] => false
  | r :: _ => m.holds r

/-- Writes issue until the oldest read waits no more (R396). -/
def State.drainFor (s : State) (old : List PcReq) (p : Nat) : Nat → State
  | 0 => s
  | fuel + 1 =>
    if !s.mem.oldestWaits p then s
    else match s.chooseWrite old p with
      | none => s
      | some r => (s.issueReq r).drainFor old p fuel

/-- The drains that are due at a pseudo-channel (R396): with no read queued, for the oldest read, and from 48 writes to 16; `old` are the
writes known to have waited longer than AGE_CAP. A drain takes no time: DESIGN CHOICE, log entry 60. -/
def State.drainOld (s : State) (old : List PcReq) (p : Nat) : State :=
  let n := s.mem.queue.length
  let s := if (s.mem.reads p).isEmpty then s.drainTo old p 0 n else s
  let s := s.drainFor old p n
  if 48 ≤ (s.mem.writes p).length then s.drainTo old p 16 n else s

/-- The drains that are due at a pseudo-channel when no request is known to be old. -/
def State.drain (s : State) (p : Nat) : State := s.drainOld [] p

/-- The write requests of a flush of words of a page, one for each line, then the check words'; `old` is the memory before it. -/
def flushReqs (old : Mem) (page : Nat) (ws : List Nat) : List PcReq :=
  let pc := page / 2 ^ 19
  (List.range 16).filterMap (fun l =>
    let mine := (ws.filter fun i => i / 16 == l).map (256 * page + ·)
    if mine.isEmpty then none
    else some { write := true, pc := pc, line := 0, words := mine, who := .around, old := mine.map fun w => (w, old.word w, Tbl.get 0 old.syn w) }) ++
  [{ write := true, pc := pc, line := 0, words := [checkWordNo page 0, checkWordNo page 1], who := .around,
     chk := some (page, Tbl.get {} old.chk page) }]

/-- A flush's writes enter the write queue (R425); the array shows them from then on. -/
def State.queueFlush (s : State) (old : Mem) (page : Nat) (ws : List Nat) : State :=
  let pc := page / 2 ^ 19
  let s := s.wakePc pc
  { s with mem := { s.mem with queue := s.mem.queue ++ flushReqs old page ws } }.drain pc

/-- The queued requests of a failed pseudo-channel end in bus errors; a write that had not issued leaves what the array held (R393,
Table 11.8). -/
def Mem.cancel (m : Mem) (p : Nat) : Mem :=
  let undo := fun (m : Mem) (r : PcReq) =>
    let m := r.old.foldl (fun m o => m.store o.1 o.2.1 o.2.2.toNat) m
    match r.chk with
    | some c => { m with chk := Tbl.set {} m.chk c.1 c.2 }
    | none => m
  let m := ((m.queue.filter fun r => r.write && r.pc == p).reverse).foldl undo m
  { m with queue := m.queue.filter (fun r => r.pc != p), mends := m.mends.filter fun r => r.pc != p }

/-- A flush of an entry that fails to rebuild its page (R426): whole words take their new data, partly valid words
whose old value is lost become poison, both check words become poison. -/
def State.flushLost (s : State) (e : Splice) : State :=
  let old := s.mem
  let s := e.touched.foldl (fun s i =>
    if e.whole i then s.storeWord (256 * e.page + i) (e.merge i 0)
    else match old.value (256 * e.page + i) with
      | some v => s.storeWord (256 * e.page + i) (e.merge i v)
      | none => { s with mem := s.mem.poison (256 * e.page + i) }) s
  ({ s with mem := s.mem.poisonCheck e.page }.countEntry 0x1500 0x53 1).intErr Code.MEM_PAGE_LOST 0 (s.dataAddr (2048 * e.page))

/-- The rest of a page read for a flush that has met a lost word or a lost check word (R426). -/
def State.readRest (s : State) (e : Splice) : State :=
  let rest := (List.range 256).filter fun i => !e.touched.contains i
  rest.foldl (fun s i => s.checkWord s.ceBack (256 * e.page + i)) (s.countRd e.page rest false)

/-- The new words of an entry over the old values of its words, and the check words that follow from them or, with one of them lost, from
the whole page (R425, R426). -/
def State.flushWords (s : State) (e : Splice) : State :=
  let olds : List (Nat × Nat) := e.touched.map fun i => (i, ((s.mem.readWord (256 * e.page + i)).value).getD 0)
  let news : List (Nat × Nat) := olds.map fun o => (o.1, e.merge o.1 o.2)
  let (cp, cq) := s.mem.checkWords e.page
  let (p, q) : Nat × Nat := match cp.value, cq.value with
    | some p, some q =>
      let (dp, dq) := pageSyms (olds ++ news)
      (p ^^^ dp, q ^^^ dq)
    | _, _ => pageSyms ((s.mem.pageWords e.page).map fun w => (w.1, (news.lookup w.1).getD (w.2.value.getD 0)))
  (news.foldl (fun s w => s.storeWord (256 * e.page + w.1) w.2) s).storeCheck e.page p q

/-- A flush of an entry whose words carry no error (R425, R426). -/
def State.flushClean (s : State) (e : Splice) : State :=
  if e.full then
    let ws := (List.range 256).map fun i => (i, e.merge i 0)
    let (p, q) := pageSyms ws
    (ws.foldl (fun s w => s.storeWord (256 * e.page + w.1) w.2) s).storeCheck e.page p q
  else
    let s := s.countRd e.page e.touched true
    let s := e.touched.foldl (fun s i => s.countWord (256 * e.page + i)) (s.checkPair false e.page)
    let c := s.mem.checkWords e.page
    if (e.touched.any fun i => (s.mem.readWord (256 * e.page + i)).value.isNone) || c.1.value.isNone || c.2.value.isNone then
      let s := s.readRest e
      match s.mem.rebuild e.page with
      | none => s.flushLost e
      | some [] => s.flushWords e
      | some r => (s.writeRebuilt e.page r).flushWords e
    else s.flushWords e

/-- A word of an entry as a read of the splice buffer finds it (Table 12.1). -/
def Mem.spliceWord (m : Mem) (e : Splice) (i : Nat) : WordRead :=
  decodeWord (e.merge i 0) (Tbl.get 0 m.splSyn (256 * e.page + i)).toNat

/-- The valid bytes of word i of an entry rewritten with a value. -/
def Splice.rewrite (e : Splice) (i v : Nat) : Splice :=
  { e with data := (List.range 8).foldl (fun t b =>
      if (Tbl.get none e.data (8 * i + b)).isSome then Tbl.set none t (8 * i + b) (some (BitVec.ofNat 8 (v / 256 ^ b))) else t) e.data }

/-- A lost word of an on-die memory is read: it is counted and reported, poison under its own code (R418, R439, Table 12.1). -/
def State.sramLost (s : State) (r : WordRead) (domain addr : Nat) : State :=
  (s.countEntry 0x1500 0x56 1).intErr (if r = .poison then Code.MEM_POISON else Code.MEM_UE) domain addr

/-- A word of an on-die memory is read on its way to HBM: a corrected one is counted, a lost one is counted and reported; poison, which
has been reported, is carried on (Table 12.1; DESIGN CHOICE, log entry 76). -/
def State.sramPass (s : State) (r : WordRead) (domain addr : Nat) : State :=
  match r with
  | .corrected _ => s.countEntry 0x1500 0x55 1
  | .ue => s.sramLost r domain addr
  | _ => s

/-- A flush of an entry (R425, R426). Corrected words are flushed corrected; an uncorrectable word of the entry is
written to HBM as poison (Table 12.1). -/
def State.flush (s : State) (e : Splice) : State :=
  let syns := e.touched.filter fun i => Tbl.get 0 s.mem.splSyn (256 * e.page + i) != 0
  let bad := syns.filter fun i => (s.mem.spliceWord e i).value.isNone
  let e' := syns.foldl (fun e i =>
    match (s.mem.spliceWord e i).value with
    | some v => e.rewrite i v
    | none => e) e
  let t := (syns.foldl (fun t i => t.sramPass (s.mem.spliceWord e i) 5 (s.dataAddr (2048 * e.page + 8 * i))) s).flushClean e'
  let m := bad.foldl (fun m i => m.poison (256 * e.page + i)) t.mem
  { t with mem := { m with splSyn := Tbl.clear m.splSyn (256 * e.page) 256 } }.queueFlush s.mem e.page e.touched

/-! ### The coherent view (R401, R405) -/

/-- The entry of the splice buffer that holds a page (R427). -/
def Mem.entry (m : Mem) (page : Nat) : Option Splice := m.splice.find? fun e => e.page == page

/-- A byte of the cache line of address a, where the line is present and the byte valid (R404). -/
def Mem.cached (m : Mem) (a : Nat) : Option Byte :=
  (Tbl.get none m.lines (a / 128)).bind fun l => Tbl.get none l.data (a % 128)

/-- A cached word with an error is corrected, or fetched again when its line is clean; a dirty line gives a bus error
(Table 12.1). -/
def Mem.lineByte (m : Mem) (a : Nat) (b : Byte) : Option (Option Byte) :=
  let syn := (Tbl.get 0 m.lineSyn (a / 8)).toNat
  if syn = 0 then some (some b)
  else
    let w := natLE ((List.range 8).map fun i => (m.cached (a / 8 * 8 + i)).getD 0)
    match (decodeWord w syn).value with
    | some v => some (some (BitVec.ofNat 8 (v / 256 ^ (a % 8))))
    | none => if ((Tbl.get none m.lines (a / 128)).map (·.dirty)).getD false then none else some none

/-- The byte that a read of an HBM data address returns: from the line, the splice entry or the array, in this order;
none is a bus error (R384, R393, R404, R427, R432). -/
def State.byteAt (s : State) (a : Nat) : Option Byte :=
  if !s.addrOk a then none
  else
    match (s.mem.cached a).map (s.mem.lineByte a) with
    | some (some (some b)) => some b
    | some none => none
    | _ =>
      let pq := s.mapAddr a
      let k := physKey pq
      if s.pcFailed pq.1 then none
      else
        match (s.mem.entry (k / 2048)).bind fun e => (Tbl.get none e.data (k % 2048)).map fun b => (e, b) with
        | some (e, b) =>
          if Tbl.get 0 s.mem.splSyn (k / 8) = 0 then some b
          else ((s.mem.spliceWord e (k % 2048 / 8)).value).map fun v => BitVec.ofNat 8 (v / 256 ^ (k % 8))
        | none => (s.mem.value (k / 8)).map fun v => BitVec.ofNat 8 (v / 256 ^ (k % 8))

/-- `n` bytes from an HBM data address; none when any of them is a bus error. -/
def State.memRead (s : State) (a : Nat) : Nat → Option (List Byte)
  | 0 => some []
  | n + 1 => (s.byteAt a).bind fun b => (s.memRead (a + 1) n).map fun bs => b :: bs

/-- A little-endian number of `n` bytes from an HBM data address. -/
def State.memNat (s : State) (a n : Nat) : Option Nat := (s.memRead a n).map natLE

/-- Splice entry of a page replaced, as the one written most recently. -/
def Mem.putEntry (m : Mem) (e : Splice) : Mem :=
  { m with splice := m.splice.filter (fun x => x.page != e.page) ++ [e] }

/-- Bytes put into an entry from an offset. -/
def Splice.put (e : Splice) (o : Nat) (bs : List Byte) : Splice :=
  { e with data := Tbl.setList none e.data o (bs.map some) }

/-- Masked bytes put into an entry from an offset: where a byte is none, the entry keeps its own (R424). -/
def Splice.merges (e : Splice) (o : Nat) (bs : List (Option Byte)) : Splice :=
  { e with data := Tbl.setList none e.data o (bs.zipIdx.map fun b => b.1.or (Tbl.get none e.data (o + b.2))) }

/-- Word i of an entry takes a byte of a masked write. -/
def wordHit (o : Nat) (bs : List (Option Byte)) (i : Nat) : Bool :=
  (List.range 8).any fun b => decide (o ≤ 8 * i + b) && ((bs.getD (8 * i + b - o) none).isSome)

/-- Word i of an entry is replaced whole by a masked write. -/
def wordWhole (o : Nat) (bs : List (Option Byte)) (i : Nat) : Bool :=
  (List.range 8).all fun b => decide (o ≤ 8 * i + b) && ((bs.getD (8 * i + b - o) none).isSome)

/-- A masked write merged into one word of an entry that holds an error: a word replaced whole takes new check bits; else the word is read
first, and a corrected one is rewritten, a lost one becomes poison, since bytes of it stay (R424, Table 12.1). The second component holds
the words lost so far. -/
def State.healWord (s : State) (e : Splice) (o : Nat) (bs : List (Option Byte)) (i : Nat) : State × Splice × List Nat :=
  let w := 256 * e.page + i
  let syn := fun (s : State) (y : Byte) => { s with mem := { s.mem with splSyn := Tbl.set 0 s.mem.splSyn w y } }
  if Tbl.get 0 s.mem.splSyn w = 0 || !wordHit o bs i then (s, e, [])
  else if wordWhole o bs i then (syn s 0, e, [])
  else
    let r := s.mem.spliceWord e i
    let s := s.sramPass r 5 (s.dataAddr (8 * w))
    match r.value with
    | some v => (syn s 0, e.rewrite i v, [])
    | none => (syn s 0x7F, e, [i])

/-- Masked bytes merged into the words of an entry from an offset (R424, Table 12.1). -/
def State.healEntry (s : State) (e : Splice) (o : Nat) (bs : List (Option Byte)) : State × Splice :=
  let x := (List.range ((o + bs.length - 1) / 8 - o / 8 + 1)).foldl (fun (x : State × Splice × List Nat) k =>
    let y := x.1.healWord x.2.1 o bs (o / 8 + k)
    (y.1, y.2.1, x.2.2 ++ y.2.2)) (s, e, [])
  (x.1, x.2.2.foldl (fun e i => e.rewrite i 0) (x.2.1.merges o bs))

/-- Masked bytes merged into the splice entry of a page from an offset, which is then the one written most recently; a word that a flip
of domain 5 names is flipped (R424, R434). -/
def State.splicePut (s : State) (page o : Nat) (bs : List (Option Byte)) : State :=
  let h := s.healEntry ((s.mem.entry page).getD { page := page, data := [] }) o bs
  let s := h.1
  let e := h.2
  let w := physKey (s.mapAddr s.flipAddr) / 8
  if s.flipArmed 5 && s.addrOk s.flipAddr && w / 256 == page && wordHit o bs (w % 256) then
    let v := e.merge (w % 256) 0 ^^^ s.flipData
    { s.flipDone with mem := { s.mem.putEntry (e.rewrite (w % 256) v) with
                               splSyn := Tbl.set 0 s.mem.splSyn w (BitVec.ofNat 8 s.flipSyn) } }
  else { s with mem := s.mem.putEntry e }

/-- The entry of a page leaves the splice buffer and is flushed. -/
def State.flushEntry (s : State) (e : Splice) : State :=
  { s with mem := { s.mem with splice := s.mem.splice.filter fun x => x.page != e.page } }.flush e

/-- A full entry is flushed (R425). -/
def State.flushFull (s : State) (page : Nat) : State :=
  match s.mem.entry page with
  | some e => if e.full then s.flushEntry e else s
  | none => s

/-- Bytes put into a line from an offset; the line is dirty (R404). -/
def Line.put (l : Line) (o : Nat) (bs : List Byte) : Line :=
  { l with dirty := true, nru := true, data := Tbl.setList none l.data o (bs.map some) }

/-- The valid bytes of word i of a line rewritten with a value. -/
def Line.rewrite (l : Line) (i v : Nat) : Line :=
  { l with data := (List.range 8).foldl (fun t b =>
      if (Tbl.get none l.data (8 * i + b)).isSome then Tbl.set none t (8 * i + b) (some (BitVec.ofNat 8 (v / 256 ^ b))) else t) l.data }

/-- The data of word i of a line, bytes that are not valid being 0. -/
def Line.word (l : Line) (i : Nat) : Nat := natLE ((List.range 8).map fun b => (Tbl.get none l.data (8 * i + b)).getD 0)

/-- A word of a line as a read of the cache finds it. -/
def State.lineWord (s : State) (la : Nat) (l : Line) (i : Nat) : WordRead :=
  decodeWord (l.word i) (Tbl.get 0 s.mem.lineSyn (la * 16 + i)).toNat

/-- A line stored, with the syndrome of its word i. -/
def State.setLine (s : State) (la : Nat) (l : Line) (i : Nat) (syn : Byte) : State :=
  { s with mem := { s.mem with lines := Tbl.set none s.mem.lines la (some l), lineSyn := Tbl.set 0 s.mem.lineSyn (la * 16 + i) syn } }

/-- Bytes of one word written into a line that is present (R404): a word with an error of which bytes stay is read first, and a corrected
one is rewritten, a lost one becomes poison (Table 12.1); a word that a flip of domain 4 names is flipped (R434). -/
def State.linePut (s : State) (l : Line) (a : Nat) (bs : List Byte) : State :=
  let i := a % 128 / 8
  let read := Tbl.get 0 s.mem.lineSyn (a / 8) != 0 && bs.length != 8
  let r := s.lineWord (a / 128) l i
  let s := if read then s.sramPass r 4 (a / 8 * 8) else s
  let l := match read, r.value with
    | true, some v => l.rewrite i v
    | _, _ => l
  let l := l.put (a % 128) bs
  if read && r.value.isNone then s.setLine (a / 128) (l.rewrite i 0) i 0x7F
  else if s.flipArmed 4 && s.flipAddr / 8 == a / 8 then
    s.flipDone.setLine (a / 128) (l.rewrite i (l.word i ^^^ s.flipData)) i (BitVec.ofNat 8 s.flipSyn)
  else s.setLine (a / 128) l i 0

/-- A write of part of a lost word of a clean line drops the line, which is fetched again (Table 12.1). -/
def State.refetches (s : State) (l : Line) (a : Nat) (bs : List Byte) : Bool :=
  !l.dirty && bs.length != 8 && (s.lineWord (a / 128) l (a % 128 / 8)).value.isNone

/-- A line leaves the cache with its syndromes. -/
def State.dropLine (s : State) (la : Nat) : State :=
  { s with mem := { s.mem with lines := Tbl.set none s.mem.lines la none, lineSyn := Tbl.clear s.mem.lineSyn (la * 16) 16 } }

/-- Bytes of one word written past the cache: into the splice entry of the page, or to the array; the pseudo-channel wakes (R397, R399,
R424, R425). -/
def State.putAround (s : State) (a : Nat) (bs : List Byte) : State :=
  let k := physKey (s.mapAddr a)
  let s := s.wakePc (k / 2 ^ 30)
  match s.mem.entry (k / 2048) with
  | some _ => (s.splicePut (k / 2048) (k % 2048) (bs.map some)).flushFull (k / 2048)
  | none => s.flush { page := k / 2048, data := Tbl.setList none [] (k % 2048) (bs.map some) }

/-- A write that lies in one 8-byte word of an HBM data address, into the line, the splice entry or the array that holds
the word (R404, R424, R434). -/
def State.writePart (s : State) (a : Nat) (bs : List Byte) : State :=
  match Tbl.get none s.mem.lines (a / 128) with
  | some l => if s.refetches l a bs then (s.dropLine (a / 128)).putAround a bs else s.linePut l a bs
  | none => s.putAround a bs

/-- A write to an HBM data address, word by word; `fuel` bounds the words. -/
def State.writeParts (s : State) (a : Nat) (bs : List Byte) : Nat → State
  | 0 => s
  | fuel + 1 =>
    if bs.isEmpty then s
    else
      let n := 8 - a % 8
      (s.writePart a (bs.take n)).writeParts (a + n) (bs.drop n) fuel

/-- The lines of a unit of 2 KiB that a range touches are all present. -/
def State.unitCached (s : State) (a n u : Nat) : Bool :=
  (List.range 16).all fun i => let l := u * 16 + i
    decide (l < a / 128) || decide ((a + n - 1) / 128 < l) || (Tbl.get none s.mem.lines l).isSome

/-- Every byte of a range names a location of a pseudo-channel that works, or of a line that is present (R393, R404). -/
def State.rangeOk (s : State) (a n : Nat) : Bool :=
  n == 0 || (s.addrOk a && s.addrOk (a + n - 1) && decide (a / 2 ^ 35 = (a + n - 1) / 2 ^ 35) &&
    (List.range ((a + n - 1) / 2048 - a / 2048 + 1)).all fun i =>
      !s.pcFailed (s.mapAddr ((a / 2048 + i) * 2048)).1 || s.unitCached a n (a / 2048 + i))

/-- A write of a requester through the coherent view; none is a bus error (R384, R393). -/
def State.memWrite (s : State) (a : Nat) (bs : List Byte) : Option State :=
  if s.rangeOk a bs.length then some (s.writeParts a bs (bs.length + 1)) else none

/-- A write whose bus error has no effect of its own. -/
def State.memPut (s : State) (a : Nat) (bs : List Byte) : State := (s.memWrite a bs).getD s

end Sys2Proof.Machine
end

