-- ==== Sys2Proof/Machine/Memory.lean ====
section
/-! DEFINITION. The commands of the shared cache, the HBM3 controller and the integrity logic (spec 11, 12). They move
bytes among line, splice entry and array, repair words and count; the coherent view of Hbm is what a read returns. -/

namespace Sys2Proof.Machine

/-- Slice of a line address (R402). -/
def State.sliceOf (s : State) (l : Nat) : Nat :=
  (List.range 4).foldl (fun a k => a + parity (l &&& (s.reg (memBase + 0x60 + 8 * k)).toNat) * 2 ^ k) 0

/-- Slice and set of a line address as one number (R402). -/
def State.setOf (s : State) (l : Nat) : Nat := s.sliceOf l * 768 + l / 16 % 768

/-- Ways that a requester's traffic may fill (Table 11.6, R407). -/
def State.fillMask (s : State) : Requester → Nat
  | .herd h => s.wayMask h.val
  | .common => s.entry 0x1500 0x05
  | .around => 0

/-- Lines of a set with their line addresses. -/
def State.linesOf (s : State) (set : Nat) : List (Nat × Line) :=
  (s.mem.lines.filter fun e => s.setOf e.1 == set).filterMap fun e => e.2.map fun l => (e.1, l)

/-- A run of consecutive valid bytes of a line from offset `i`. -/
def Line.run (l : Line) (i : Nat) : Nat → List Byte
  | 0 => []
  | n + 1 => match Tbl.get none l.data i with
    | some b => b :: l.run (i + 1) n
    | none => []

/-- Masked bytes of one line written to HBM through the splice buffer: they merge into the page's entry, or take a free entry,
or wait while the entry written least recently is flushed (R424); a full entry is flushed (R425). -/
def State.spliceMask (s : State) (a : Nat) (bs : List (Option Byte)) : State :=
  let k := physKey (s.mapAddr a)
  let page := k / 2048
  let s := match s.mem.entry page, s.mem.splice with
    | none, e :: es => if es.length + 1 = 64 then (s.countEntry 0x1500 0x59 1).flushEntry e else s
    | _, _ => s
  (s.splicePut page (k % 2048) bs).flushFull page

/-- Bytes of one line written to HBM through the splice buffer. -/
def State.spliceBytes (s : State) (a : Nat) (bs : List Byte) : State := s.spliceMask a (bs.map some)

/-- A word becomes poison where it lies: in the splice buffer, or in the array. -/
def State.poisonWord (s : State) (w : Nat) : State :=
  match s.mem.entry (w / 256) with
  | some _ => { s with mem := { s.mem with splSyn := Tbl.set 0 s.mem.splSyn w 0x7F } }
  | none => { s with mem := s.mem.poison w }

/-- Poison written to a word of HBM through the splice buffer (R418, Table 12.1). -/
def State.splicePoison (s : State) (a : Nat) : State :=
  (s.spliceBytes (a / 8 * 8) (List.replicate 8 0)).poisonWord (physKey (s.mapAddr a) / 8)

/-- The valid bytes of a line written back through the splice buffer. A word with a correctable error is written back corrected, one
with an uncorrectable error as poison (Table 12.1). An address that no aperture holds reaches no pseudo-channel, and a failed one
answers with a bus error: nothing is written (R384, R393). -/
def State.writeBack (s : State) (la : Nat) (l : Line) : State :=
  let ok := s.addrOk (la * 128) && !s.pcFailed (s.mapAddr (la * 128)).1
  let s := if ok then s.count (memBase + 0x4010) 1 else s
  (List.range 16).foldl (fun s w =>
    let mask := (List.range 8).map fun b => Tbl.get none l.data (8 * w + b)
    if mask.all (·.isNone) then s
    else
      let a := la * 128 + 8 * w
      let r := s.lineWord la l w
      let s := if Tbl.get 0 s.mem.lineSyn (la * 16 + w) = 0 then s else s.sramPass r 4 a
      if !ok then s
      else if Tbl.get 0 s.mem.lineSyn (la * 16 + w) = 0 then s.spliceMask a mask
      else match r.value with
        | none => s.splicePoison a
        | some v => s.spliceMask a (mask.zipIdx.map fun b => b.1.map fun _ => BitVec.ofNat 8 (v / 256 ^ b.2))) s

/-- The line leaves the cache; its valid bytes are written back when it is dirty (R403). -/
def State.evictLine (s : State) (la : Nat) : State :=
  match Tbl.get none s.mem.lines la with
  | none => s
  | some l =>
    (if l.dirty then s.writeBack la l else s).dropLine la

/-- Room for a line in the ways of `mask`: the way chosen by R403 and the state with its line evicted; a way without a
line is an unused candidate. -/
def State.victim (s : State) (la mask : Nat) : Option (Nat × State) :=
  let set := s.linesOf (s.setOf la)
  let ways := (List.range 32).filter fun w => mask.testBit w
  let lineIn := fun (w : Nat) => set.find? fun e => e.2.way == w
  let cand := ways.filter fun w => match lineIn w with | some e => !e.2.nru | none => true
  let cleared := ways.foldl (fun t w =>
    match lineIn w with
    | some e => Tbl.set none t e.1 (some { e.2 with nru := false })
    | none => t) s.mem.lines
  let s' : State := if cand.isEmpty then { s with mem := { s.mem with lines := cleared } } else s
  let cand := if cand.isEmpty then ways else cand
  cand.head?.map fun w => (w, match lineIn w with | some e => s'.evictLine e.1 | none => s')

/-- Fills are counted for the ways they go to (Table 11.10). -/
def State.countFill (s : State) : Requester → State
  | .herd h => s.count (memBase + 0x4040 + 8 * h.val) 1
  | .common => s.count (memBase + 0x4080) 1
  | .around => s

/-- Every byte of a line is valid. -/
def Line.whole (l : Line) : Bool := (List.range 128).all fun i => (Tbl.get none l.data i).isSome

/-- Words of a line that hold an error. -/
def Mem.faulty (m : Mem) (la : Nat) : List Nat := (List.range 16).filter fun i => Tbl.get 0 m.lineSyn (la * 16 + i) != 0

/-- A line filled with what its bytes read as: beneath the valid bytes of a line that is present, whose words with an error are counted and
stored clean, or into a way that the requester's class may fill (R403, R404, Table 12.1). A line with a byte that is a bus error is not
filled. -/
def State.fillLine (s : State) (r : Requester) (la : Nat) : State :=
  match s.memRead (la * 128) 128 with
  | none => s
  | some bs =>
    let put := fun (s : State) (way : Nat) (dirty : Bool) => { s with mem := { s.mem with
      lines := Tbl.set none s.mem.lines la (some { way := way, nru := true, dirty := dirty, data := Tbl.setList none [] 0 (bs.map some) }),
      lineSyn := Tbl.clear s.mem.lineSyn (la * 16) 16 } }
    match Tbl.get none s.mem.lines la with
    | some l => put ((s.mem.faulty la).foldl (fun s i => if (s.lineWord la l i).value.isSome then s.countEntry 0x1500 0x55 1 else s) s) l.way l.dirty
    | none => match s.victim la (s.fillMask r) with
      | none => s
      | some (w, s) => put (s.countFill r) w false

/-- The words of a line in HBM. -/
def State.lineWords (s : State) (la : Nat) : List Nat :=
  let k := physKey (s.mapAddr (la * 128)) / 8
  (List.range 16).map (k + ·)

/-- The splice buffer holds every byte of a word (R427). -/
def Mem.spliceHas (m : Mem) (w : Nat) : Bool :=
  match m.entry (w / 256) with
  | some e => e.whole (w % 256)
  | none => false

/-- Words of the splice buffer that a read meets: a corrected one is rewritten and counted, a lost one is counted and reported
(R418, R439, Table 12.1). -/
def State.checkSplice (s : State) (ws : List Nat) : State :=
  ws.foldl (fun s w =>
    match s.mem.entry (w / 256) with
    | none => s
    | some e =>
      if Tbl.get 0 s.mem.splSyn w = 0 then s
      else
        let r := s.mem.spliceWord e (w % 256)
        match r.value with
        | none => s.sramLost r 5 (s.dataAddr (8 * w))
        | some v => { s.countEntry 0x1500 0x55 1 with mem := { s.mem with
            splice := s.mem.splice.map (fun x => if x.page = e.page then x.rewrite (w % 256) v else x),
            splSyn := Tbl.set 0 s.mem.splSyn w 0 } }) s

/-- A read of a line goes to its pseudo-channel's controller: a failed one answers with a bus error (R393), the splice buffer answers
where it holds every byte (R427), else the read is queued; one that matches a queued write is counted (R395). -/
def State.readLine (s : State) (r : Requester) (la : Nat) : State :=
  let pc := (s.mapAddr (la * 128)).1
  let ws := s.lineWords la
  if s.pcFailed pc then s
  else
    let s := s.wakePc pc
    if ws.all s.mem.spliceHas then (s.checkSplice ws).fillLine r la
    else
      let q : PcReq := { write := false, pc := pc, line := la, words := ws, who := r }
      let s := if s.mem.queue.any fun o => o.meets q then s.count (pcReg pc 0x40) 1 else s
      { s with mem := { s.mem with queue := s.mem.queue ++ [q] } }.drain pc

/-- The words of a line that a read touches, as their code leaves them: a corrected word is rewritten and counted, and where a word
is lost a clean line is dropped, to be fetched again, and a dirty one answers with a bus error, reported when the line is written back
(Table 12.1). -/
def State.mendLine (s : State) (la o len : Nat) : State :=
  let ws := (List.range ((o + len - 1) / 8 - o / 8 + 1)).map (o / 8 + ·)
  let s := ws.foldl (fun s i =>
    match Tbl.get none s.mem.lines la with
    | none => s
    | some l =>
      let syn := Tbl.get 0 s.mem.lineSyn (la * 16 + i)
      if syn = 0 then s
      else match s.lineWord la l i with
        | .corrected v => (s.countEntry 0x1500 0x55 1).setLine la (l.rewrite i v) i 0
        | .poison => s.sramLost .poison 4 (la * 128 + 8 * i)
        | _ => s) s
  if ws.all fun i => Tbl.get 0 s.mem.lineSyn (la * 16 + i) = 0 then s else s.evictLine la

/-- CACHE_READ (R403 to R405): a lookup hits a line that is present, and a line that is not whole is fetched all the same; a miss goes to
the pseudo-channel's controller. Bytes beyond the line's end are the next line's read. An address outside every aperture is a bus
error and reaches nothing (R384). -/
def execCacheRead (r : Requester) (addr len : Nat) (s : State) : Host.Outcome State Fault Refusal :=
  let la := addr / 128
  let n := min len (128 - addr % 128)
  if n = 0 || !s.addrOk addr then go s
  else match Tbl.get none s.mem.lines la with
    | none => go ((s.count (memBase + 0x4008) 1).readLine r la)
    | some l =>
      let s := s.count (memBase + 0x4000) 1
      let s := { s with mem := { s.mem with lines := Tbl.set none s.mem.lines la (some { l with nru := true }) } }
      let s := s.mendLine la (addr % 128) n
      match Tbl.get none s.mem.lines la with
      | some l => go (if l.whole then s else s.readLine r la)
      | none => go (if l.dirty then s else s.readLine r la)

/-- The bytes of one line written by a requester (R404): a present line is updated and dirty; an absent line is allocated
in the herd's ways with only the written bytes valid, or written around, which a failed pseudo-channel answers with a bus error
(R393). -/
def State.cacheWrite (s : State) (r : Requester) (addr : Nat) (bs : List Byte) : State :=
  let la := addr / 128
  if (Tbl.get none s.mem.lines la).isSome then
    (s.count (memBase + 0x4000) 1).writeParts addr bs (bs.length + 1)
  else
    let s := s.count (memBase + 0x4008) 1
    match (match r with | .herd _ => s.victim la (s.fillMask r) | _ => none) with
    | some (w, s) =>
      let s := s.countFill r
      let s := { s with mem := { s.mem with
        lines := Tbl.set none s.mem.lines la (some { way := w, nru := true, dirty := true, data := [] }) } }
      s.writeParts addr bs (bs.length + 1)
    | none =>
      let pc := (s.mapAddr addr).1
      if s.pcFailed pc then s else ((s.count (memBase + 0x4018) 1).wakePc pc).spliceBytes addr bs

/-- CACHE_WRITE (R404, R384, R393): a write beyond the line's end is the next line's write, so only the bytes of one line
are taken. -/
def execCacheWrite (r : Requester) (addr : Nat) (bs : List Byte) (s : State) : Host.Outcome State Fault Refusal :=
  let bs := bs.take (128 - addr % 128)
  if bs.isEmpty || !s.addrOk addr || !s.addrOk (addr + bs.length - 1) then go s
  else go (s.cacheWrite r addr bs)

/-- CACHE_ATOMIC (R406): an indivisible addition to the 64-bit word at an address. -/
def execCacheAtomic (addr : Nat) (add : W64) (s : State) : Host.Outcome State Fault Refusal :=
  match s.memNat addr 8 with
  | none => go s
  | some v => go ((s.memPut addr (bytesLE 8 ((BitVec.ofNat 64 v + add).toNat))).count (memBase + 0x4020) 1)

/-- The data of a read that has issued return (R404, R408, R417): its words are checked, and the line is filled. A read that meets an
uncorrectable word that is not poison waits for the rebuild of its page (R423); one that meets poison ends in a bus error (R432). -/
def State.returned (s : State) (r : PcReq) : State :=
  let s := (r.words.foldl (fun s w => s.checkWord s.ceBack w) s).checkSplice r.words
  if r.words.any fun w => s.mem.readWord w == .ue && !s.mem.spliceHas w then { s with mem := { s.mem with mends := s.mem.mends ++ [r] } }
  else s.fillLine r.who r.line

/-- CACHE_FILL (R394, R404, R408, R417): the read bus of pseudo-channel p is free, the oldest read having waited `waited` CLKF cycles.
The controller issues the read that R394 selects, and its data return. With no read queued nothing issues. In the drains that are then
due, writes queued before a read that has waited longer than AGE_CAP have waited so too. -/
def execCacheFill (p : PcId) (waited : Nat) (s : State) : Host.Outcome State Fault Refusal :=
  let rs := s.mem.reads p.val
  let aged := decide (s.entry 0x1500 0x09 * 64 < waited)
  match (if aged then (rs.filter fun r => !s.mem.holds r).head? else s.choose rs) with
  | none => go s
  | some r =>
    let old := if aged then s.mem.queue.takeWhile fun x => x.write || x.pc != p.val else []
    let s := if aged then s.count (pcReg p.val 0x38) 1 else s
    go (((s.issueReq r).returned r).drainOld old p.val)

/-- Every queued request issues (R409): reads in order, with the writes that they let go. -/
def State.serveQueues (s : State) : State :=
  let s := (s.mem.queue.filter fun r => !r.write).foldl (fun s r => ((s.issueReq r).returned r).drain r.pc) s
  (List.range 32).foldl (fun s p => s.drain p) s

/-- REFRESH (R397, R399): one all-bank refresh of a pseudo-channel that is in service; its rows close and it leaves
power-down for it. A pseudo-channel in self-refresh or failed issues none. -/
def execRefresh (p : PcId) (s : State) : Host.Outcome State Fault Refusal :=
  match Tbl.get .active s.mem.power p.val with
  | .selfRefresh | .failed => go s
  | _ => go ({ s with mem := { s.mem with rows := Tbl.clear s.mem.rows (p.val * 64) 64,
                                          power := Tbl.set .active s.mem.power p.val .active } }.count (pcReg p.val 0x30) 1)

/-- Every context of a herd is DISABLED (R398). -/
def State.herdIdle (s : State) (h : Nat) : Bool :=
  (List.range 1024).all fun c => s.ctx c 0x04 != h || s.ctx c 0x02 == 0

/-- The dozing class (R398). -/
def State.dozing (s : State) (p : Nat) : Bool :=
  (s.entry 0x1500 0x06).testBit p && (match s.pcHerd p with | none => true | some h => s.herdIdle h)

/-- A pseudo-channel in self-refresh that is in the steady class exits at once (R398). In Nap all of them refresh themselves (R409). -/
def State.wakeSteady (s : State) : State :=
  if s.power = 2 then s
  else { s with mem := { s.mem with power := s.mem.power.filter fun e => e.2 != PcPower.selfRefresh || s.dozing e.1 } }

/-- SELF_REFRESH_ENTRY (R397): a dozing pseudo-channel without a request for DOZE_IDLE µs enters self-refresh; the entry is abandoned
where a request waits (Table 11.8). -/
def execSelfRefreshEntry (p : PcId) (s : State) : Host.Outcome State Fault Refusal :=
  match Tbl.get .active s.mem.power p.val with
  | .selfRefresh | .failed => go s
  | _ => if s.dozing p.val && !s.mem.queue.any fun r => r.pc == p.val then
      go ({ s with mem := { s.mem with power := Tbl.set .active s.mem.power p.val .selfRefresh,
                                       rows := Tbl.clear s.mem.rows (p.val * 64) 64 } }.count (pcReg p.val 0x48) 1)
    else go s

/-- POWER_DOWN_ENTRY (R399). -/
def execPowerDownEntry (p : PcId) (s : State) : Host.Outcome State Fault Refusal :=
  match Tbl.get .active s.mem.power p.val with
  | .active =>
    if s.mem.queue.any fun r => r.pc == p.val then go s
    else go { s with mem := { s.mem with power := Tbl.set .active s.mem.power p.val .powerDown } }
  | _ => go s

/-- A code of the controller: the error log and MEM_ERR with its pseudo-channel (R414). -/
def State.memErr (s : State) (code : W16) (pc : Nat) : State :=
  (s.logDev code 6 pc).errReg (memBase + 0x80) (code.toNat + pc * 2 ^ 16)

/-- STACK_TEMP_READ (R397): the reading, and the refresh interval it sets; a crossing of 85 °C upward is logged once. -/
def execStackTempRead (celsius : Int) (s : State) : Host.Outcome State Fault Refusal :=
  let hot := s.regField memBase 16 1 == 1
  let s := (s.setField memBase 8 8 (wrap 8 celsius)).setEntry 0x1400 0x25 (wrap 64 celsius)
  let s := { s with tth := { s.tth with stack := celsius } }
  if 85 < celsius then
    let s := s.setField memBase 16 1 1
    go (if hot then s else s.memErr Code.MEM_HOT 0)
  else go (s.setField memBase 16 1 0)

/-- CMD_PARITY_ERROR (R393, R436): the command is retried; a fourth consecutive error fails the pseudo-channel: its queued requests end
in bus errors, and entries held for it are discarded. -/
def execCmdParityError (p : PcId) (s : State) : Host.Outcome State Fault Refusal :=
  let n := Tbl.get 0 s.mem.retries p.val + 1
  if s.pcFailed p.val then go s
  else if n < 4 then
    go ({ s with mem := { s.mem with retries := Tbl.set 0 s.mem.retries p.val n } }.count (pcReg p.val 0x50) 1)
  else
    let m := s.mem.cancel p.val
    let s := { s with mem := { m with power := Tbl.set .active m.power p.val .failed, retries := Tbl.set 0 m.retries p.val 0,
                                      splice := m.splice.filter (fun e => e.page / 2 ^ 19 != p.val),
                                      splSyn := Tbl.clear m.splSyn (p.val * 2 ^ 27) (2 ^ 27) } }
    let v := (s.reg (memBase + 8)).toNat ||| 2 ^ p.val
    let s := (s.setReg (memBase + 8) (BitVec.ofNat 64 v)).setEntry 0x1500 0x0B v
    go (s.memErr Code.MEM_PC_FAIL p.val)

/-- A page with erased words, `codes` and `addr` being what is reported when it is lost (R422, R423, Table 12.7): it is rebuilt and
written back, or its erased words and both check words become poison. -/
def State.mendPage (s : State) (page : Nat) (codes : List W16) (addr : Nat) : State :=
  let e := erased (s.mem.pageWords page)
  if e.isEmpty then s
  else
    match s.mem.rebuild page with
    | some r => s.writeRebuilt page r
    | none =>
      codes.foldl (fun s c => s.intErr c 0 addr)
        ({ s with mem := (e.foldl (fun (m : Mem) i => m.poison (256 * page + i)) s.mem).poisonCheck page }.countEntry 0x1500 0x53 1)

/-- The reads that wait for the rebuild of a page fill their lines (R423, Table 12.4). -/
def State.endMends (s : State) (page : Nat) : State :=
  let mine := s.mem.mends.filter fun r => r.words.headD 0 / 256 == page
  let s := { s with mem := { s.mem with mends := s.mem.mends.filter fun r => r.words.headD 0 / 256 != page } }
  mine.foldl (fun s r => s.fillLine r.who r.line) s

/-- PAGE_REBUILD (R422, R423): the rest of the page of an address, beside the line that a read has met, and both check words are read;
the page's uncorrectable words that are not poison are rebuilt and written back, or they and both check words become poison. One
rebuild serves every read of the page that waits (Table 12.4). -/
def execPageRebuild (addr : Nat) (s : State) : Host.Outcome State Fault Refusal :=
  let w := physKey (s.mapAddr addr) / 8
  let page := w / 256
  if !s.addrOk addr || s.pcFailed (s.mapAddr addr).1 then go s
  else if (erased (s.mem.pageWords page)).isEmpty then go s
  else
    let s := s.wakePc (s.mapAddr addr).1
    let rest := (List.range 256).filter fun i => i / 16 != w % 256 / 16
    let s := rest.foldl (fun s i => s.checkWord s.ceBack (256 * page + i)) ((s.countRd page rest true).checkPair s.ceBack page)
    go ((s.mendPage page [Code.MEM_UE, Code.MEM_PAGE_LOST] addr).endMends page)

/-- SPLICE_WRITE (R424, R425). -/
def execSpliceWrite (addr : Nat) (bs : List Byte) (s : State) : Host.Outcome State Fault Refusal :=
  let bs := bs.take (128 - addr % 128)
  if bs.isEmpty || !s.addrOk addr || !s.addrOk (addr + bs.length - 1) || s.pcFailed (s.mapAddr addr).1 then go s
  else go ((s.wakePc (s.mapAddr addr).1).spliceBytes addr bs)

/-- SPLICE_HOLD_EXPIRY (R425): the entry of a page, by its page key, is flushed. -/
def execSpliceHoldExpiry (page : Nat) (s : State) : Host.Outcome State Fault Refusal :=
  match s.mem.entry page with
  | none => go s
  | some e => go (s.flushEntry e)

/-- Every entry flushed (R425: before Nap or a warm start). -/
def State.flushAll (s : State) : State :=
  s.mem.splice.foldl (fun s e => s.flush e) { s with mem := { s.mem with splice := [] } }

/-- Every dirty line written back, and the cache empty (R409, R34). -/
def State.writeBackAll (s : State) : State :=
  (s.mem.lines.map (·.1)).foldl (fun s la => s.evictLine la) s

/-- Pages of a data share (Table 11.1). -/
abbrev pagesPerPc : Nat := 762 * 512

/-- The single word that a page's non-zero syndromes point to, with the difference of its value (R428). -/
def silentWord (s1 s2 : Nat) : Option (Nat × Nat) :=
  let lanes := (bytesLE 8 s1).zip (bytesLE 8 s2)
  let cand := lanes.filterMap fun l => if l.1 = 0 then none else some (gfDiv l.2.toNat l.1.toNat)
  match cand with
  | [] => none
  | i :: _ => if cand.all (· == i) && lanes.all (fun l => l.1 != 0 || l.2 == 0) then some (i, s1) else none

/-- The check words of a page that read lost are recomputed, and stored clean; the others stay (R428). -/
def Mem.mendCheck (m : Mem) (page p q : Nat) : Mem :=
  let c := Tbl.get {} m.chk page
  let (cp, cq) := m.checkWords page
  let c := if cp.value.isNone then { c with p := BitVec.ofNat 64 p, pSyn := 0 } else c
  let c := if cq.value.isNone then { c with q := BitVec.ofNat 64 q, qSyn := 0 } else c
  { m with chk := Tbl.set {} m.chk page c }

/-- SCRUB_PAGE (R428): the next page of the pass, pseudo-channels interleaved; its first outcome that applies. With SCRUB_RATE 0 the
scrubber stands. It writes corrected words back whatever CE_WRITEBACK holds: DEDUCED, log entry 61. -/
def execScrubPage (s : State) : Host.Outcome State Fault Refusal :=
  if s.entry 0x1500 0x40 = 0 then go s else
  let n := s.mem.scrubAt
  let pc := n % 32
  let page := pc * 2 ^ 19 + n / 32
  let last := decide (n + 1 = 32 * pagesPerPc)
  let s := { s with mem := { s.mem with scrubAt := if last then 0 else n + 1 } }
  let s := s.setReg (intBase + 0x58) (BitVec.ofNat 64 (if last then 0 else n + 1))
  let s := if last then s.countEntry 0x1500 0x57 1 else s
  if (s.mem.entry page).isSome || Tbl.get .active s.mem.power pc == .selfRefresh || s.pcFailed pc then
    go (s.countEntry 0x1500 0x58 1)
  else
    let stored := fun (s : State) => (s.mem.hbm, s.mem.syn, s.mem.chk)
    let before := stored s
    let s := s.wakePc pc
    let s := (List.range 256).foldl (fun s i => s.checkWord true (256 * page + i))
      ((s.countRd page (List.range 256) true).checkPair true page)
    let s := s.mendPage page [Code.MEM_PAGE_LOST] (s.dataAddr (page * 2048))
    let ws := s.mem.pageWords page
    let (p, q) := pageSyms (readable ws)
    let allRead := (readable ws).length == 256
    let (cp, cq) := s.mem.checkWords page
    match cp.value, cq.value with
    | some vp, some vq =>
      if stored s != before || !allRead || (p == vp && q == vq) then go s
      else
        match silentWord (p ^^^ vp) (q ^^^ vq) with
        | some (i, d) =>
          let s := s.writeWord (256 * page + i) (s.mem.word (256 * page + i) ^^^ d)
          go ((s.countEntry 0x1500 0x54 1).intErr Code.MEM_SILENT_FIX 0 (s.dataAddr (page * 2048 + 8 * i)))
        | none => go ((s.countEntry 0x1500 0x54 1).intErr Code.MEM_PAGE_MISMATCH 0 (s.dataAddr (page * 2048)))
    | _, _ => go (if allRead then ({ s with mem := s.mem.mendCheck page p q }.openRow (checkWordNo page 0)).count (pcReg pc 0x18)
        ((if cp.value.isNone then 8 else 0) + if cq.value.isNone then 8 else 0) else s)

/-! ### On-die memories (R430, Table 12.1) -/

/-- The record of Ibex n. -/
def State.ib (s : State) (n : Nat) : Ibex := Tbl.get {} s.ibex n
/-- The state with the record of Ibex n written. -/
def State.setIb (s : State) (n : Nat) (i : Ibex) : State := { s with ibex := Tbl.set {} s.ibex n i }
/-- The state with the record of Ibex n changed. -/
def State.modIb (s : State) (n : Nat) (f : Ibex → Ibex) : State := s.setIb n (f (s.ib n))

/-- An armed flip of domain 2 acts on a write of `k` words of Ibex n's scratchpad from word w0 (R434). -/
def State.flipSpm (s : State) (n w0 k : Nat) : State :=
  if s.flipArmed 2 && s.regField intBase 3 3 == n && decide (w0 ≤ s.flipAddr / 8) && decide (s.flipAddr / 8 < w0 + k) then
    let w := s.flipAddr / 8
    s.flipDone.modIb n fun i => { i with
      spm := Tbl.setList 0 i.spm (8 * w) (bytesLE 8 (natLE (Tbl.getList 0 i.spm (8 * w) 8) ^^^ s.flipData)),
      spmSyn := Tbl.set 0 i.spmSyn w (BitVec.ofNat 8 s.flipSyn) }
  else s

/-- An armed flip of domain 3 acts on a write of `k` strand pairs from j0 in each of `m` entries of Ibex n's accumulator store, from
entry e0 on (R434). -/
def State.flipAcc (s : State) (n e0 m j0 k : Nat) : State :=
  let a := s.flipAddr
  let e := a % 2 ^ 11
  let j := a / 2 ^ 11 % 128
  if s.flipArmed 3 && s.regField intBase 3 3 == n && decide (e0 ≤ e) && decide (e < e0 + m) && decide (j0 ≤ j) && decide (j < j0 + k) then
    let d := s.flipData
    s.flipDone.modIb n fun i =>
      let x := e * 256 + 2 * j
      { i with acc := Tbl.setList 0 i.acc x [Tbl.get 0 i.acc x ^^^ BitVec.ofNat 32 d, Tbl.get 0 i.acc (x + 1) ^^^ BitVec.ofNat 32 (d / 2 ^ 32)],
               accSyn := Tbl.set 0 i.accSyn (e * 128 + j) (BitVec.ofNat 8 s.flipSyn) }
  else s

/-- A rejected arm write of PF0 (R435, R439, R504). -/
def State.flipRefuse (s : State) (code : W16) (v : Nat) : State :=
  let s := s.logErr code 0 0 0 v (some 0)
  if (s.reg (intBase + 0x40)).getLsbD 63 then s
  else (s.errReg (intBase + 0x40) code.toNat).setReg (intBase + 0x48) 0

/-- A write of INT_FLIP_CTL (R434, R435). It arms a flip, disarms one, or is rejected; a 1 in DONE clears it. -/
def State.flipWrite (s : State) (v : Nat) : State :=
  let dom := v % 8
  let a := s.flipAddr
  let inDomain :=
    if dom = 0 || dom = 4 || dom = 5 then a % 8 == 0 && s.addrOk a
    else if dom = 1 then s.addrOk a
    else if dom = 2 then a % 8 == 0 && decide (a < 12 * 2 ^ 20)
    else dom == 3 && decide (a < 2 ^ 18)
  let done := if bitOf v 7 then 0 else s.regField intBase 7 1 * 128
  if bitOf v 6 then
    if s.entry 0x1500 0x44 ≠ 1 then s.flipRefuse Code.MEM_FLIP_LOCKED v
    else if !inDomain then s.flipRefuse Code.MEM_FLIP_RANGE v
    else s.setReg intBase (BitVec.ofNat 64 (v % 128 + done))
  else s.setReg intBase (BitVec.ofNat 64 (v % 64 + done))

/-- FLIP_ARM (R434): the register lies in PF0's BAR0 alone (R494). -/
def execFlipArm (fn : Fn) (v : W32) (s : State) : Host.Outcome State Fault Refusal :=
  s.hostAct fn.val 4 fun s => if fn = 0 then s.flipWrite v.toNat else s

end Sys2Proof.Machine
end

