-- ==== Sys2Proof/Machine/Pools.lean ====
section
/-! DEFINITION. The Coil buffer pools: layout, owners, reservations, grants, waiters, releases and the host's commands
(spec 13). -/

namespace Sys2Proof.Machine

/-- Buffer size of pool n: 4 KiB × 4^n (Table 13.1). -/
def poolSize (n : Nat) : Nat := 4096 * 4 ^ n

/-- Key of a buffer record. -/
def bufKey (n k : Nat) : Nat := n * 2 ^ 20 + k

/-- Buffers of pool n in effect (R441). -/
def State.poolBuffers (s : State) (n : Nat) : Nat := Tbl.get 0 s.coil.buffers n

/-- HBM data address of buffer k of pool n (R442): the common aperture is aperture 0. -/
def State.bufAddr (s : State) (n k : Nat) : Nat := Tbl.get 0 s.coil.bases n + k * poolSize n

/-- Record of a buffer. -/
def State.buf (s : State) (n k : Nat) : Buf := Tbl.get {} s.coil.bufs (bufKey n k)

/-- The state with a buffer record written. -/
def State.setBuf (s : State) (n k : Nat) (b : Buf) : State :=
  { s with coil := { s.coil with bufs := Tbl.set {} s.coil.bufs (bufKey n k) b } }

/-- Granted buffers of pool n: number and owner, in ascending number. -/
def State.granted (s : State) (n : Nat) : List (Nat × Nat) :=
  (s.coil.bufs.filter fun b => b.1 / 2 ^ 20 == n).filterMap fun b => b.2.owner.map fun o => (b.1 % 2 ^ 20, o)

/-- HELD(o, n) (R445). -/
def State.held (s : State) (o n : Nat) : Nat := ((s.granted n).filter fun b => b.2 == o).length

/-- RESV(o, n) (R445). -/
def State.resv (s : State) (o n : Nat) : Nat := Tbl.get 0 s.coil.resv (o * 8 + n)

/-- The state with RESV(o, n) set; 0 removes the reservation (R446). -/
def State.setResv (s : State) (o n v : Nat) : State :=
  { s with coil := { s.coil with resv := Tbl.set 0 s.coil.resv (o * 8 + n) v } }

/-- FREE(n) (R453). -/
def State.poolFree (s : State) (n : Nat) : Nat := s.poolBuffers n - (s.granted n).length

/-- RESV_UNUSED(n): the sum over owners of the unused reservation (R445). -/
def State.resvUnused (s : State) (n : Nat) : Nat :=
  ((s.coil.resv.filter fun r => r.1 % 8 == n).map fun r => r.2 - s.held (r.1 / 8) n).sum

/-- The least number not in an ascending list, from `i`: find-first-free (R447). -/
def firstFree (i : Nat) : List Nat → Nat
  | [] => i
  | k :: ks => if k = i then firstFree (i + 1) ks else i

/-- LAST of a buffer (R449): 0xFFF clean, 0xFFE no owner. -/
def State.lastOf (s : State) (n k : Nat) : Nat := ((s.buf n k).last).getD s.coil.lastReset

/-- Pool n is the lowest whose buffers are large enough (R447). -/
def firstPool (bytes : Nat) : Nat := ((List.range 8).find? fun n => decide (bytes ≤ poolSize n)).getD 8

/-- A page whose bytes are zero and whose words and check words are clean. -/
def Mem.zeroPage (m : Mem) (page : Nat) : Mem :=
  { m with
    hbm := Tbl.clear m.hbm (page * 2048) 2048, syn := Tbl.clear m.syn (page * 256) 256, chk := Tbl.set {} m.chk page {},
    splice := m.splice.filter (fun e => e.page != page), splSyn := Tbl.clear m.splSyn (page * 256) 256 }

/-- A page written with zeros, as one full write (R425); a flip that waits for a word or the check words of the page acts on it (R434). -/
def State.zeroPage (s : State) (page : Nat) : State :=
  let target := s.addrOk s.flipAddr && physKey (s.mapAddr s.flipAddr) / 2048 == page
  let s := { s with mem := s.mem.zeroPage page }
  if target && (s.flipArmed 0 || s.flipArmed 1 || s.flipArmed 5) then
    (s.splicePut page 0 (List.replicate 2048 (some 0))).flushFull page
  else ((s.openLines page (List.range 256)).openRow (checkWordNo page 0)).count (pcReg (page / 2 ^ 19) 0x18) 2064

/-- Every 2 KiB unit of a range written with zeros (R85, R335, R390, R449). Ranges so zeroed are whole units. -/
def State.zeroRange (s : State) (a n : Nat) : State :=
  let s := (List.range (n / 2048)).foldl (fun s i => s.zeroPage (physKey (s.mapAddr (a + i * 2048)) / 2048)) s
  { s with mem := { s.mem with lines := Tbl.clear s.mem.lines (a / 128) (n / 128), lineSyn := Tbl.clear s.mem.lineSyn (a / 8) (n / 8) } }

/-- One try of the procedure of R447 in pool n for owner o: the buffer granted. A buffer whose LAST is neither clean nor
o is granted once its zeroing is done (R449). -/
def State.tryPool (s : State) (o n : Nat) (spilled : Bool) : Option (State × Nat) :=
  let mine := s.resv o n - s.held o n
  let others := s.resvUnused n - mine
  if others < s.poolFree n then
    let k := firstFree 0 ((s.granted n).map (·.1))
    let zero := s.lastOf n k ≠ 0xFFF && s.lastOf n k ≠ o
    let s := if spilled then s.countEntry 0x1600 (0x40 + n) 1 else s
    let s := s.countEntry 0x1600 (0x38 + n) 1
    some (s.setBuf n k { owner := some o, last := if zero then (s.buf n k).last else some o, zeroing := zero }, k)
  else none

/-- The procedure of R447 without the count of failures: pool and number of the buffer granted. -/
def State.coilGrant (s : State) (o bytes : Nat) : Option (State × Nat × Nat) :=
  let n := firstPool bytes
  if 8 ≤ n then none
  else match s.tryPool o n false with
    | some (s, k) => some (s, n, k)
    | none =>
      if s.entry 0x1600 (0x18 + n) = 0 || n = 7 then none
      else (s.tryPool o (n + 1) true).map fun r => (r.1, n + 1, r.2)

/-- A buffer's zeroing completes: its bytes are zero and LAST is its owner (R449). -/
def State.zeroBuf (s : State) (n k : Nat) : State :=
  let b := s.buf n k
  if b.zeroing then
    ((s.zeroRange (s.bufAddr n k) (poolSize n)).countEntry 0x1600 0x02 (poolSize n)).setBuf n k
      { b with zeroing := false, last := b.owner }
  else s

/-- A grant whose zeroing is taken with it, for requests that the device answers at once. -/
def State.coilGrantNow (s : State) (o bytes : Nat) : Option (State × Nat × Nat) :=
  (s.coilGrant o bytes).map fun r => (r.1.zeroBuf r.2.1 r.2.2, r.2)

/-- A picture of stream o waits for a frame buffer. -/
def State.wantsBuf (s : State) (o : Nat) : Bool :=
  ([1, 2, 5] : List Nat).contains (s.str o 0x02) && ((Tbl.get {} s.streams o).jobs.any fun j => j.buf.isNone)

/-- Pool n has gained a free buffer: the waiters of that pool and of the pool below are served in arrival order; one that cannot be granted
does not hold back a later one (R448). What a stream is granted after the picture that asked for it has gone returns at once (R300). -/
def State.serveWaiters (s : State) (n : Nat) : State :=
  (s.coil.waiters.filter fun w => w.pool == n || w.pool + 1 == n).foldl (fun s w =>
    match s.coilGrant w.owner w.bytes with
    | some (s', m, k) =>
      let s' := { s' with coil := { s'.coil with waiters := s'.coil.waiters.erase w } }
      if w.owner < 64 && !s.wantsBuf w.owner then s'.setBuf m k { (s'.buf m k) with owner := none, zeroing := false } else s'
    | none => s) s

/-- The command registers of function k take a result (R455). -/
def State.coilResult (s : State) (k code addr : Nat) (done : Bool) : State :=
  let r := s.setReg (fnReg k (coilBase + 0x10)) (BitVec.ofNat 64 (code + (if done then 0x10000 else 0)))
  if addr = 0 then r else r.setReg (fnReg k (coilBase + 0x18)) (BitVec.ofNat 64 addr)

/-- The host command, by function, that waits for the zeroing of the buffer it was granted (R455). -/
def State.allocOf (s : State) (n k : Nat) : Option Nat :=
  match (s.buf n k).owner with
  | some o =>
    if 0x100 ≤ o ∧ o < 0x500 then
      (List.range 64).find? fun f => (s.reg (fnReg f (coilBase + 0x10))).toNat == 0 &&
        (s.reg (fnReg f (coilBase + 0x18))).toNat == s.bufAddr n k
    else none
  | none => none

/-- The end of the zeroing of a buffer is reported: a host command that waits for it gets its DONE (R449, R455). -/
def State.allocDone (s : State) (n k : Nat) : State :=
  match s.allocOf n k with
  | some f => s.coilResult f 0 0 true
  | none => s

/-- A buffer released: its bitmap bit clears and LAST keeps the owner (R450); the waiters run again (R448). Where it is still zeroed for a
host command, that command is done too. -/
def State.freeBuf (s : State) (n k : Nat) : State :=
  let b := s.buf n k
  let s := if b.zeroing then s.allocDone n k else s
  (s.setBuf n k { b with owner := none, zeroing := false }).serveWaiters n

/-- Pool and number of the buffer that starts at an address. -/
def State.bufOfAddr (s : State) (a : Nat) : Option (Nat × Nat) :=
  (List.range 8).findSome? fun n =>
    let b := Tbl.get 0 s.coil.bases n
    if b ≤ a ∧ a < b + s.poolBuffers n * poolSize n ∧ (a - b) % poolSize n = 0 then some (n, (a - b) / poolSize n) else none

/-- The buffer that holds a byte address. -/
def State.bufHolding (s : State) (a : Nat) : Option (Nat × Nat) :=
  (List.range 8).findSome? fun n =>
    let b := Tbl.get 0 s.coil.bases n
    if b ≤ a ∧ a < b + s.poolBuffers n * poolSize n then some (n, (a - b) / poolSize n) else none

/-- Every buffer that an owner holds released, but those of `kept`, which pass to the orphan owner, and its reservations
removed (R451). -/
def State.releaseOwner (s : State) (o : Nat) (kept : List (Nat × Nat)) : State :=
  let s := (List.range 8).foldl (fun s n => s.setResv o n 0) s
  (List.range 8).foldl (fun s n =>
    (s.granted n).foldl (fun s b =>
      if b.2 = o then
        (if kept.contains (n, b.1) then s.setBuf n b.1 { (s.buf n b.1) with owner := some 0x7FF } else s.freeBuf n b.1)
      else s) s) s

/-- An owner number of Table 13.2. -/
def ownerOk (o : Nat) : Bool :=
  decide (o < 0x40) || (decide (0x100 ≤ o) && decide (o < 0x500)) || o == 0x800

/-- The object that a log record of a Coil code names (R557): the stream or context that owns, if any. -/
def ownerObj (o : Nat) : Nat × Nat :=
  if o < 0x40 then (1, o) else if 0x100 ≤ o ∧ o < 0x500 then (2, o - 0x100) else (0, 0)

/-- A code of a block's request in COIL_ERR and the error log (R459). -/
def State.coilCode (s : State) (o : Nat) (code : W16) : State :=
  (s.logDev code (ownerObj o).1 (ownerObj o).2).errReg (coilBase + 0x80) (code.toNat + o * 2 ^ 16)

/-- COIL_REQUEST (R444, R447, R448): a request of a block. One of no owner of Table 13.2, or of no size of R447, fails with its code. A
failed request without a wait limit counts in FAILS of its first pool; with one it joins that pool's waiters. The grant of a stream that is
closed, or whose reset or close has begun, returns at once (R300, R456). -/
def execCoilRequest (owner : BitVec 12) (bytes waitUs : Nat) (s : State) : Host.Outcome State Fault Refusal :=
  let o := owner.toNat
  if !ownerOk o then go (s.coilCode o Code.COIL_OWNER)
  else if bytes = 0 || 67108864 < bytes then go (s.coilCode o Code.COIL_SIZE)
  else
    let gone := decide (o < 64) && !([1, 2, 5] : List Nat).contains (s.str o 0x02)
    match s.coilGrant o bytes with
    | some (s', n, k) => go (if gone then s'.freeBuf n k else s')
    | none =>
      if waitUs = 0 then go (s.countEntry 0x1600 (0x48 + firstPool bytes) 1)
      else go { s with coil := { s.coil with waiters := s.coil.waiters ++ [⟨o, bytes, firstPool bytes, waitUs⟩] } }

/-- COIL_ZERO_DONE (R449): the zeroing of a granted buffer ends and the grant is reported; a host command that waits for
it gets its DONE (R455). -/
def execCoilZeroDone (pool : PoolId) (k : Nat) (s : State) : Host.Outcome State Fault Refusal :=
  if (s.buf pool.val k).zeroing then
    go ((s.zeroBuf pool.val k).allocDone pool.val k)
  else go s

/-- A granted buffer is still used: a stream's fixed buffer, a frame with a mark or in decoding, one that a picture waits for, Oryx's amid
an update, or a context's, which only FREE and the context's end release (R450, R451). -/
def State.bufUsed (s : State) (n k : Nat) : Bool :=
  match (s.buf n k).owner with
  | none => false
  | some o =>
    (decide (0x100 ≤ o) && decide (o < 0x500)) || (o == 0x800 && decide (1 ≤ s.entry 0x1300 0x23) && decide (s.entry 0x1300 0x23 ≤ 3)) || (decide (o < 64) && s.wantsBuf o) || s.streams.any fun e =>
      ([e.2.track, e.2.bitBuf, e.2.synBuf] ++ e.2.jobs.map (·.buf)).contains (some (n, k)) ||
        e.2.frames.any fun f => f.pic.pool == n && f.pic.buf == k && (f.short || f.long || f.output || f.held)

/-- BUFFER_RELEASE (R450): a granted buffer that nothing uses any more is released. -/
def execBufferRelease (pool : PoolId) (k : Nat) (s : State) : Host.Outcome State Fault Refusal :=
  if (s.buf pool.val k).owner.isSome && !s.bufUsed pool.val k then go (s.freeBuf pool.val k) else go s

/-- A refused host command: COIL_RESULT, COIL_ERR and the error log (R455, R459). DETAIL is COIL_ARG. -/
def State.coilRefuse (s : State) (k cmd : Nat) (code : W16) : State :=
  let o := cmd / 256 % 4096
  let s := (s.rejectV code k (ownerObj o).1 (ownerObj o).2 (s.reg (fnReg k (coilBase + 8))).toNat).errReg
    (coilBase + 0x80) (code.toNat + o * 2 ^ 16)
  if code = Code.COIL_BUSY then s else s.coilResult k code.toNat 0 true

/-- The first checks of a COIL_CMD write: busy, reserved bits and OP, owner (R455). -/
def State.coilCheck (s : State) (k cmd op : Nat) : Option W16 :=
  let o := cmd / 256 % 4096
  let c := o - 0x100
  if s.regField (fnReg k (coilBase + 0x10)) 16 1 = 0 then some Code.COIL_BUSY
  else if cmd % 8 ≠ op || cmd / 64 % 4 ≠ 0 || cmd / 2 ^ 20 ≠ 0 then some Code.COIL_CMD
  else if op = 4 then (if ownerOk o || o = 0x7FF then none else some Code.COIL_OWNER)
  else if o < 0x100 || 0x500 ≤ o || s.ctx c 0x02 = 0 || (k ≠ 0 && s.ctx c 0x03 ≠ k) then some Code.COIL_OWNER
  else none

/-- COIL_ARG of function k. -/
def State.coilArg (s : State) (k : Nat) : Nat := (s.reg (fnReg k (coilBase + 8))).toNat

/-- A COIL_CMD write with an OP that no command has (R455 step 2). -/
def State.coilBad (s : State) (k cmd : Nat) : State :=
  s.coilRefuse k cmd
    (if s.regField (fnReg k (coilBase + 0x10)) 16 1 = 0 then Code.COIL_BUSY else Code.COIL_CMD)

/-- ALLOC (R455): the address granted, with DONE once the buffer needs no zeroing. -/
def State.coilAlloc (s : State) (k cmd : Nat) : State :=
  let o := cmd / 256 % 4096
  match s.coilCheck k cmd 1 with
  | some e => s.coilRefuse k cmd e
  | none =>
    let n := s.coilArg k
    if n = 0 || 67108864 < n then s.coilRefuse k cmd Code.COIL_SIZE
    else
      match s.coilGrant o n with
      | none => (s.countEntry 0x1600 (0x48 + firstPool n) 1).coilRefuse k cmd Code.COIL_EXHAUSTED
      | some (s, p, b) =>
        let s := s.setReg (fnReg k (coilBase + 0x18)) (BitVec.ofNat 64 (s.bufAddr p b))
        s.coilResult k 0 0 (!(s.buf p b).zeroing)

/-- FREE (R455): a buffer held by the owner is released. -/
def State.coilFree (s : State) (k cmd : Nat) : State :=
  let o := cmd / 256 % 4096
  match s.coilCheck k cmd 2 with
  | some e => s.coilRefuse k cmd e
  | none =>
    match s.bufOfAddr (s.coilArg k) with
    | some (n, b) =>
      if (s.buf n b).owner = some o then (s.freeBuf n b).coilResult k 0 0 true
      else s.coilRefuse k cmd Code.COIL_ADDR
    | none => s.coilRefuse k cmd Code.COIL_ADDR

/-- RESERVE (R446, R455): RESV of the owner in a pool is set when the unused reservations would not exceed FREE. -/
def State.coilReserve (s : State) (k cmd : Nat) : State :=
  let o := cmd / 256 % 4096
  let n := cmd / 8 % 8
  match s.coilCheck k cmd 3 with
  | some e => s.coilRefuse k cmd e
  | none =>
    let v := s.coilArg k
    let s' := s.setResv o n v
    if s.poolBuffers n < v then s.coilRefuse k cmd Code.COIL_SIZE
    else if s'.poolFree n < s'.resvUnused n then s.coilRefuse k cmd Code.COIL_RESERVE
    else s'.coilResult k 0 0 true

/-- QUERY (R455): HELD and RESV of the owner in a pool. -/
def State.coilQuery (s : State) (k cmd : Nat) : State :=
  let o := cmd / 256 % 4096
  let n := cmd / 8 % 8
  match s.coilCheck k cmd 4 with
  | some e => s.coilRefuse k cmd e
  | none =>
    (s.setReg (fnReg k (coilBase + 0x20)) (BitVec.ofNat 64 (s.held o n + s.resv o n * 2 ^ 32))).coilResult k 0 0 true

/-- ALLOC: a write of COIL_CMD in the function's copy (R494). OP is the command's own. -/
def execAlloc (fn : Fn) (cmd : W32) (s : State) : Host.Outcome State Fault Refusal :=
  s.hostAct fn.val 4 fun s => s.coilAlloc fn.val (putField cmd.toNat 0 3 1)

/-- FREE: a write of COIL_CMD. -/
def execFree (fn : Fn) (cmd : W32) (s : State) : Host.Outcome State Fault Refusal :=
  s.hostAct fn.val 4 fun s => s.coilFree fn.val (putField cmd.toNat 0 3 2)

/-- RESERVE: a write of COIL_CMD. -/
def execReserve (fn : Fn) (cmd : W32) (s : State) : Host.Outcome State Fault Refusal :=
  s.hostAct fn.val 4 fun s => s.coilReserve fn.val (putField cmd.toNat 0 3 3)

/-- QUERY: a write of COIL_CMD. -/
def execQuery (fn : Fn) (cmd : W32) (s : State) : Host.Outcome State Fault Refusal :=
  s.hostAct fn.val 4 fun s => s.coilQuery fn.val (putField cmd.toNat 0 3 4)

/-- The layout of R441: bases in ascending pool order, and the end of the last region. -/
def layoutPools (bufs : Nat → Nat) : List (Nat × Nat) × Nat :=
  (List.range 8).foldl (fun (acc : List (Nat × Nat) × Nat) n =>
    let al := max (poolSize n) 0x200000
    let b := ceilDiv acc.2 al * al
    (acc.1 ++ [(n, b)], b + bufs n * poolSize n)) ([], 0)

/-- Layout of the regions at a start (R441), with every buffer free, no reservation but Oryx's, and LAST as the kind of
start gives it (R446, R449). -/
def State.layoutCoil (s : State) (cold : Bool) : State :=
  let size := s.apertureMib 0 * 2 ^ 20
  let want := fun n => s.entry 0x1600 (0x10 + n)
  let dflt := fun n => (dictDefault 0x1600 (0x10 + n)).toNat
  let use := if (layoutPools want).2 ≤ size then want else if (layoutPools dflt).2 ≤ size then dflt else fun _ => 0
  let bases := (layoutPools use).1
  let coil : Coil := { buffers := (List.range 8).foldl (fun t n => Tbl.set 0 t n (use n)) [],
                       bases := bases.foldl (fun t b => Tbl.set 0 t b.1 b.2) [],
                       laid := true,
                       lastReset := if cold then 0xFFF else 0xFFE,
                       resv := Tbl.set 0 [] (0x800 * 8 + 7) 1 }
  let s := { s with coil := coil }
  let s := bases.foldl (fun s b => s.setEntry 0x1600 (0x20 + b.1) b.2) s
  if (layoutPools want).2 ≤ size then s.setEntry 0x1600 0x01 0
  else ((s.setEntry 0x1600 0x01 1).logDev Code.COIL_LAYOUT 8 0).errReg (coilBase + 0x80) Code.COIL_LAYOUT.toNat

end Sys2Proof.Machine
end

