-- ==== Sys2Proof/Machine/Records.lean ====
section
/-! DEFINITION. Result records, completion rings, the hold of closing records and their messages (R249 to R257, R499 to
R503). -/

namespace Sys2Proof.Machine

/-- The record of stream n. -/
def State.stream (s : State) (n : Nat) : Stream := Tbl.get {} s.streams n

/-- The state with the record of stream n written. -/
def State.setStream (s : State) (n : Nat) (x : Stream) : State := { s with streams := Tbl.set {} s.streams n x }

/-- The state with the record of stream n changed. -/
def State.modStream (s : State) (n : Nat) (f : Stream → Stream) : State := s.setStream n (f (s.stream n))

/-- A read of a chunk's record or bytes is outstanding (R267). -/
def ChunkStage.asked : ChunkStage → Bool
  | .record | .body _ => true
  | _ => false

/-- STATE of stream n (Table 8.4): 0 CLOSED, 1 WAIT_RAP, 2 DECODING, 3 RESETTING, 4 CLOSING, 5 STOPPED. -/
def State.strState (s : State) (n : Nat) : Nat := s.str n 0x02

/-- A stream that is open: not CLOSED. -/
def State.strOpen (s : State) (n : Nat) : Bool := s.strState n != 0

/-- Function that owns stream n. -/
def State.strFn (s : State) (n : Nat) : Nat := s.str n 0x0C

/-- A completion-ring register of stream n (Table 15.7): 0 CR_BASE, 8 CR_CFG, 0x10 CR_HEAD, 0x18 CR_TAIL, 0x20 CR_WB. -/
def crReg (n o : Nat) : Nat := hpBase + 0x1000 + 0x40 * n + o

/-- Free slots of the ring of stream n (R254, R499, R512). -/
def State.ringFree (s : State) (n : Nat) : Nat :=
  if s.reg (crReg n 0) = 0 || !s.canIssue (s.strFn n) then 0
  else 2 ^ s.regField (crReg n 8) 0 5 - ((s.reg (crReg n 0x18)).toNat + 2 ^ 32 - (s.reg (crReg n 0x10)).toNat) % 2 ^ 32

/-- Bytes of a list replaced from an offset. -/
def patch (bs : List Byte) (o : Nat) (v : List Byte) : List Byte := bs.take o ++ v ++ bs.drop (o + v.length)

/-- The coalescing procedure of R503 after a closing record. The timer that may start is COAL_TIMER's. -/
def State.coalesce (s : State) (n : Nat) : State :=
  if s.regField (crReg n 8) 48 1 = 0 then s
  else
    let p := (s.stream n).pend + 1
    if s.regField (crReg n 8) 16 8 ≤ p then
      (s.msix (s.strFn n) (s.regField (crReg n 8) 8 5)).modStream n fun x => { x with pend := 0 }
    else s.modStream n fun x => { x with pend := p }

/-- A record written to the slot at CR_TAIL with its PHASE (R500); after a closing record CR_WB and the message follow
(R509). -/
def State.placeRecord (s : State) (n : Nat) (rec : List Byte) (closing : Bool) : State :=
  let tail := (s.reg (crReg n 0x18)).toNat
  let lg := s.regField (crReg n 8) 0 5
  let phase : Byte := if tail / 2 ^ lg % 2 = 0 then 0x80 else 0
  let s := s.hostWrite (s.strFn n) (s.reg (crReg n 0) + BitVec.ofNat 64 (64 * (tail % 2 ^ lg))) (patch rec 3 [phase]) .no
  let s := s.setReg (crReg n 0x18) (BitVec.ofNat 64 ((tail + 1) % 2 ^ 32))
  if closing then
    let s := if s.reg (crReg n 0x20) = 0 then s
      else s.hostWrite (s.strFn n) (s.reg (crReg n 0x20)) (bytesLE 8 ((tail + 1) % 2 ^ 32)) (.tail n)
    s.coalesce n
  else s

/-- A record numbered with SEQ (Table 7.10). -/
def State.stamp (s : State) (n : Nat) (rec : List Byte) : State × List Byte :=
  (s.modStream n fun x => { x with seq := (x.seq + 1) % 2 ^ 32 }, patch rec 4 (bytesLE 4 (s.stream n).seq))

/-- Held closing records written in order while the ring has room (R254). -/
def State.drainHold (s : State) (n : Nat) : Nat → State
  | 0 => s
  | fuel + 1 =>
    match (s.stream n).hold with
    | [] => s
    | r :: rs =>
      if s.ringFree n = 0 then s
      else ((s.modStream n fun x => { x with hold := rs }).placeRecord n r true).drainHold n fuel

/-- A code of a stream: LAST_CODE (R292). -/
def State.strCode (s : State) (n : Nat) (code : W16) : State := s.setEntry (0x2000 + n) 0x1D code.toNat

/-- A closing record written, held, or discarded with SCL_RING_OVERRUN, which stops an open stream (R254, R297); during a reset or close
the error is neither counted nor recorded (R300). `ib` is
the Ibex that counts a discarded record (log entry 12). -/
def State.putClosing (s : State) (n ib : Nat) (rec : List Byte) : State :=
  if (s.stream n).hold.isEmpty && decide (0 < s.ringFree n) then
    let (s, r) := s.stamp n rec
    s.placeRecord n r true
  else if (s.stream n).hold.length < 4 then
    let (s, r) := s.stamp n rec
    s.modStream n fun x => { x with hold := x.hold ++ [r] }
  else if s.strState n = 3 || s.strState n = 4 then s
  else
    let s := (s.count (ibexReg ib 5 0x68) 1).strCode n Code.SCL_RING_OVERRUN
    let s := s.logDev Code.SCL_RING_OVERRUN 1 n
    if s.strOpen n then s.setEntry (0x2000 + n) 0x02 5 else s

/-- A record that is not a closing record: written, or none when the ring has no room for it beside a closing record
(R254). -/
def State.putRecord (s : State) (n : Nat) (rec : List Byte) : Option State :=
  if (s.stream n).hold.isEmpty && decide (1 < s.ringFree n) then
    let (s, r) := s.stamp n rec
    some (s.placeRecord n r false)
  else none

/-- The 64 bytes of a record (Table 7.10), with SEQ and PHASE still 0. -/
def mkRecord (kind flags stream : Nat) (pts : W64) (period : Nat) (status : W16) (payload : List Byte) : List Byte :=
  (bytesLE 1 kind ++ bytesLE 1 flags ++ bytesLE 1 stream ++ [0] ++ bytesLE 4 0 ++ bytesLE 8 pts.toNat ++
    bytesLE 4 period ++ bytesLE 2 status.toNat ++ [0, 0] ++ payload ++ List.replicate 40 0).take 64

/-- A picture-driven stream by the mode in force (R345). -/
def State.pictureDriven (s : State) (n : Nat) : Bool := (s.stream n).mode == 1

/-- PTS of a slot's records and its flags bits 2, 4 and 5 (R23, R251, R290); a void slot does not carry the damaged state of its
picture (R310). `ownPeriods` says that the queue counts its
own periods. -/
def State.slotPts (s : State) (sl : Slot) (ownPeriods : Bool) : W64 × Nat :=
  match sl.pic with
  | some p => (p.pts, (if (0 < p.damage || p.taint) && sl.state != .void then 4 else 0) + (if p.ptsDerived then 16 else 0))
  | none =>
    if sl.host then (0, 32)
    else if s.pictureDriven sl.stream && !ownPeriods then (sl.openPts, 32 + (if sl.openDerived then 16 else 0))
    else ((s.stream sl.stream).tookPts, 32 + (if (s.stream sl.stream).tookDerived then 16 else 0))

/-- The damage byte of a slot: the damage fraction of its picture × 255, truncated (Table 7.11). -/
def damageByte (p : Option PicRec) : Nat :=
  match p with
  | some p => if p.width * p.height = 0 then 0 else min 255 (p.damage * 255 / (p.width * p.height))
  | none => 0

/-- HBM address of the track table of stream n. -/
def State.trackAddr (s : State) (n : Nat) : Option Nat := (s.stream n).track.map fun b => s.bufAddr b.1 b.2

/-- HBM address of region-list buffer i of stream n (R443). -/
def State.listAddr (s : State) (n i : Nat) : Option Nat := (s.trackAddr n).map fun a => a + 0x4100 + 0x500 * i

/-- The region-list buffer that is not current (R20). -/
def Stream.nextList (x : Stream) : Nat := if x.current = some 0 then 1 else 0

/-- The bytes of the current region list of stream n: none is a bus error, and a stream without a list has an empty one (R21). -/
def State.regionBytes (s : State) (n : Nat) : Option (List Byte) :=
  match (s.stream n).current.bind fun i => s.listAddr n i with
  | some a => s.memRead a 1040
  | none => some []

/-- ACTIVE of the track-table header of an open stream, 0 otherwise (R252). -/
def State.tracksActive (s : State) (n : Nat) : Nat :=
  if s.strOpen n then ((s.trackAddr n).bind fun a => s.memNat (a + 4) 4).getD 0 else 0

/-- The queue record's fields (Table 10.3). -/
def Queue.f (q : Queue) (o n : Nat) : Nat := natLE ((q.record.drop o).take n)
/-- LEAD of a queue. -/
def Queue.lead (q : Queue) : Nat := q.f 0x13 1
/-- CONTEXT of a queue. -/
def Queue.ctx (q : Queue) : Nat := q.f 0x10 2
/-- FN of a queue. -/
def Queue.fn (q : Queue) : Nat := q.f 0x1C 1
/-- A queue with periods: its lead's or its own (R346). -/
def Queue.hasPeriods (q : Queue) : Bool := q.lead != 0xFF || q.f 0x14 4 != 0

/-- The closing record of a slot (Tables 7.10 and 7.11): CLOSE_KIND 0 complete, 1 widened, 2 void, 3 late-dropped. -/
def State.closeSlot (s : State) (own : Bool) (st : Step) (i : Nat) (sl : Slot) (kind : Nat) (status : W16) (dets : Nat) : State :=
  let (pts, fl) := s.slotPts sl own
  let flags := fl + (if st.widened then 1 else 0) + (if st.skipped then 2 else 0) + (if sl.dropped then 8 else 0)
  let payload := bytesLE 1 kind ++ bytesLE 1 i ++ bytesLE 1 (damageByte sl.pic) ++ [0] ++ bytesLE 2 dets ++
    bytesLE 2 (s.tracksActive sl.stream) ++ bytesLE 4 (sl.records + 1)
  s.putClosing sl.stream (match st.ranks with | r :: _ => r.ibex | [] => 0)
    (mkRecord 0x10 flags sl.stream pts st.period status payload)

/-- Closing records of kind `kind` for every slot of a step that lacks one, in slot order (R337, R350). The status of a
slot that is void keeps the code that voided it when `keepVoid`. -/
def State.closeAll (s : State) (own : Bool) (st : Step) (kind : Nat) (status : W16) (keepVoid : Bool) : State :=
  (st.slots.zipIdx).foldl (fun s x =>
    let (sl, i) := x
    if sl.closed then s
    else if keepVoid && sl.state == .void then s.closeSlot own st i sl 2 sl.status 0
    else s.closeSlot own st i sl kind status 0) s

end Sys2Proof.Machine
end

