-- ==== Sys2Proof/Machine/Sched.lean ====
section
/-! DEFINITION. The herd scheduler's operations: shares, residency, placement, preemption, hitch service, and how a step
leaves its Ibex clusters by end, fault, drop or disable (R337, R338, R350 to R368). -/

namespace Sys2Proof.Machine

/-! ### Accessors -/

/-- Queue q. -/
def State.queue (s : State) (q : Nat) : Queue := Tbl.get {} s.sch.queues q
/-- The state with queue q written. -/
def State.setQueue (s : State) (q : Nat) (x : Queue) : State := { s with sch := { s.sch with queues := Tbl.set {} s.sch.queues q x } }
/-- The state with the open step of queue q written. -/
def State.setStep (s : State) (q : Nat) (st : Option Step) : State := s.setQueue q { (s.queue q) with held := st }
/-- The state with the open step of queue q changed. -/
def State.modStep (s : State) (q : Nat) (f : Step → Step) : State := s.setStep q ((s.queue q).held.map f)
/-- Hitch k. -/
def State.hitch (s : State) (k : Nat) : Hitch := Tbl.get {} s.sch.hitches k
/-- The state with hitch k written. -/
def State.setHitch (s : State) (k : Nat) (h : Hitch) : State := { s with sch := { s.sch with hitches := Tbl.set {} s.sch.hitches k h } }
/-- The record of context c. -/
def State.ctxSt (s : State) (c : Nat) : CtxSt := Tbl.get {} s.sch.ctxs c
/-- The state with the record of context c written. -/
def State.setCtxSt (s : State) (c : Nat) (x : CtxSt) : State := { s with sch := { s.sch with ctxs := Tbl.set {} s.sch.ctxs c x } }

/-- The open steps with their queues, in ascending queue number. -/
def State.openSteps (s : State) : List (Nat × Step) := s.sch.queues.filterMap fun e => e.2.held.map fun st => (e.1, st)

/-- STATE of context c (Table 10.1): 0 DISABLED, 1 ENABLING, 2 READY, 3 FAULTED, 4 DISABLING. -/
def State.ctxState (s : State) (c : Nat) : Nat := s.ctx c 0x02

/-- STATE of context c written, with the herd's CONTEXTS (Table 10.10) and EXACT_READY (Table 18.4). -/
def State.setCtxState (s : State) (c v : Nat) : State :=
  let old := s.ctxState c
  let h := 0x30 + s.ctx c 0x04
  let exact := s.ctx c 0x14 == 1
  let s := if old = 0 ∧ v ≠ 0 then s.countEntry 0x3500 h 1 else s
  let s := if old ≠ 0 ∧ v = 0 then s.setEntry 0x3500 h (s.entry 0x3500 h - 1) else s
  let s := if exact ∧ old ≠ 2 ∧ v = 2 then s.countEntry 0x4000 0x02 1 else s
  let s := if exact ∧ old = 2 ∧ v ≠ 2 then s.setEntry 0x4000 0x02 (s.entry 0x4000 0x02 - 1) else s
  s.setEntry (0x3000 + c) 0x02 v

/-- A counter of context c (Table 10.1). -/
def State.countCtx (s : State) (c sub n : Nat) : State := s.countEntry (0x3000 + c) sub n

/-! ### Virtual time (R352, R353, R366) -/

/-- VT comparison by signed 64-bit difference. -/
def vtLt (a b : Nat) : Bool := (BitVec.ofNat 64 a - BitVec.ofNat 64 b).msb

/-- The waiters to which context c's steps are lent (R366). -/
def State.waitersOf (s : State) (c : Nat) : List Nat := ((s.ctxSt c).loans.map (·.waiter)).eraseDups

/-- The contexts whose VT counts for c: itself and the waiters that lend to it. -/
def State.payers (s : State) (c : Nat) : List Nat := c :: s.waitersOf c

/-- Of a list of contexts, the one of least VT, the earlier one on equal VT. -/
def State.leastVt (s : State) (c : Nat) (cs : List Nat) : Nat :=
  cs.foldl (fun b x => if vtLt (s.ctx x 0x1E) (s.ctx b 0x1E) then x else b) c

/-- Effective VT of context c (R354). -/
def State.effVt (s : State) (c : Nat) : Nat := s.ctx (s.leastVt c (s.payers c)) 0x1E

/-- A charge to context c for cycles spent on one Ibex (R352). A lent step charges its waiter. -/
def State.charge (s : State) (c cycles : Nat) : State :=
  let p := match s.waitersOf c with | [] => c | x :: xs => s.leastVt x xs
  let w := s.ctx p 0x05
  let num := cycles * 65536 + (s.ctxSt p).rem
  let s := s.setEntry (0x3000 + p) 0x1E (s.ctx p 0x1E + num / w)
  let s := s.setCtxSt p { (s.ctxSt p) with rem := num % w }
  let s := s.setCtxSt c { (s.ctxSt c) with engine := (s.ctxSt c).engine + cycles }
  { s with sch := { s.sch with lastCtx := p } }

/-- A step that is ready or runs, for R353. -/
def Step.active (st : Step) : Bool :=
  match st.state with
  | .ready | .running | .granted | .restoring => true
  | .suspending | .suspended => st.waits.isNone
  | .filling | .parked => false

/-- VT of a context that gets a ready step while it had none ready or running (R353). -/
def State.raiseVt (s : State) (c : Nat) : State :=
  let act := (s.openSteps.filter fun x => x.2.active).map fun x => x.2.ctx
  if act.contains c then s
  else
    let ref := match act with
      | [] => s.ctx s.sch.lastCtx 0x1E
      | x :: xs => s.ctx (s.leastVt x xs) 0x1E
    if vtLt (s.ctx c 0x1E) ref then s.setEntry (0x3000 + c) 0x1E ref else s

/-! ### Residency (R357) -/

/-- Resident slots of an Ibex with their numbers. -/
def Ibex.residents (i : Ibex) : List (Nat × Resident) := i.slots.filterMap fun e => e.2.map fun r => (e.1, r)

/-- Slot number of a resident context. -/
def Ibex.slotOf (i : Ibex) (c : Nat) : Option Nat := (i.residents.find? fun e => e.2.ctx == c).map (·.1)

/-- The resident record of a context. -/
def Ibex.resident (i : Ibex) (c : Nat) : Option Resident := (i.residents.find? fun e => e.2.ctx == c).map (·.2)

/-- The lowest base at which `size` units fit among taken (base, size) pairs, below `total`. -/
def lowestBase (taken : List (Nat × Nat)) (size total : Nat) : Option Nat :=
  (List.range (total + 1 - size)).find? fun b => taken.all fun t => decide (b + size ≤ t.1) || decide (t.1 + t.2 ≤ b)

/-- Bases of a context's partitions on Ibex n when the contexts of `gone` leave. -/
def State.fit (s : State) (n c : Nat) (gone : List Nat) : Option (Nat × Nat) :=
  let rs := ((s.ib n).residents.map (·.2)).filter fun r => !gone.contains r.ctx
  if 4 ≤ rs.length then none
  else
    match lowestBase (rs.map fun r => (r.spmBase, r.spmSize)) (s.ctx c 0x08) 48,
      lowestBase (rs.map fun r => (r.accBase, r.accSize)) (s.ctx c 0x09) 32 with
    | some a, some b => some (a, b)
    | _, _ => none

/-- A step that stands on Ibex n. -/
def Step.on (st : Step) (n : Nat) : Bool :=
  st.ranks.any (fun r => r.ibex == n) &&
    (match st.state with | .running | .parked | .granted | .suspending | .restoring => true | _ => false)

/-- Idle victims of Ibex n: resident contexts with no step there, greatest VT first, then the higher context (R357). -/
def State.victims (s : State) (n : Nat) : List Nat :=
  let busy := (s.openSteps.filter fun x => x.2.on n).map fun x => x.2.ctx
  let idle := ((s.ib n).residents.map fun r => r.2.ctx).filter fun c => !busy.contains c
  sortBy (fun a b => vtLt (s.ctx b 0x1E) (s.ctx a 0x1E) || (s.ctx b 0x1E == s.ctx a 0x1E && decide (b ≤ a))) idle

/-- How Ibex n can take a step of context c of queue q: 0 it holds c resident, 1 it has room, 2 it has idle victims; none
when it is not usable (R354). -/
def State.usable (s : State) (q c n : Nat) : Option Nat :=
  let i := s.ib n
  if i.running ≠ 7 || (match i.reserved with | some r => r != q | none => false) then none
  else if (i.slotOf c).isSome then some 0
  else if (s.fit n c []).isSome then some 1
  else if (s.fit n c (s.victims n)).isSome then some 2
  else none

/-- Usable Ibex clusters of a step in preference order; a step that a hitch has unparked uses its own (R354, R365). -/
def State.usableList (s : State) (q : Nat) (st : Step) : List Nat :=
  if st.state == .granted then
    (st.ranks.map (·.ibex)).filter fun n => (s.ib n).running == 7 &&
      (match (s.ib n).reserved with | some r => r == q | none => true)
  else
    [0, 1, 2].flatMap fun m => (List.range 8).filter fun n => s.usable q st.ctx n == some m

/-- The prefix of victims that makes room, as few as needed. -/
def State.evictions (s : State) (n c : Nat) : List Nat → List Nat → List Nat
  | gone, [] => gone
  | gone, v :: vs => if (s.fit n c gone).isSome then gone else s.evictions n c (gone ++ [v]) vs

/-- A context leaves Ibex n; nothing is written to HBM. -/
def Ibex.evict (i : Ibex) (c : Nat) : Ibex :=
  { i with slots := i.slots.filter fun e => match e.2 with | some r => r.ctx != c | none => false }

/-- Partitions of context c on Ibex n: kept, or granted at the lowest bases, zeroed (R85, R357, R360). The flag says that
it was resident. -/
def State.grantIbex (s : State) (n c : Nat) : State × Bool :=
  if ((s.ib n).slotOf c).isSome then (s, true)
  else
    let gone := s.evictions n c [] (s.victims n)
    match s.fit n c gone with
    | none => (s, false)
    | some (sb, ab) =>
      let i := gone.foldl (fun i v => i.evict v) (s.ib n)
      let k := firstFree 0 (i.residents.map (·.1))
      let su := s.ctx c 0x08
      let au := s.ctx c 0x09
      let r : Resident := { ctx := c, spmBase := sb, spmSize := su, accBase := ab, accSize := au, used := 0 }
      let s := s.setIb n { i with
        slots := Tbl.set none i.slots k (some r),
        spm := Tbl.clear i.spm (sb * 262144) (su * 262144), spmSyn := Tbl.clear i.spmSyn (sb * 32768) (su * 32768),
        acc := Tbl.clear i.acc (ab * 64 * 256) (au * 64 * 256),
        accSyn := Tbl.clear i.accSyn (ab * 64 * 128) (au * 64 * 128) }
      ((s.flipSpm n (sb * 32768) (su * 32768)).flipAcc n (ab * 64) (au * 64) 0 128, false)

/-! ### What an Ibex runs -/

/-- A region without a job: FAULT shows until the walker gives it an instruction (R104, R147); its parity goes on with the context's
next pass (R87). -/
def Region.idle (g : Region) : Region :=
  if g.state = 5 then { state := 5, shown := g.shown } else { parity := g.parity }

/-- The regions of an Ibex without their jobs. -/
def Ibex.idleRegions (i : Ibex) : Tbl Region := i.regions.foldl (fun t e => Tbl.set {} t e.1 e.2.idle) i.regions

/-- Ibex n stops whatever it runs; its regions are idle and its walker empty. A gap that begins here, or goes on, begins at a boundary
(R114). -/
def Ibex.stop (i : Ibex) : Ibex := { i with running := 7, cur := none, regions := i.idleRegions, outq := [], before := none }

/-- A step of context c begins on an Ibex: after another context, on the resumption of a step, or after a late drop in its queue, the
first pass of every region has parity 0 (R87, R149, R351). -/
def Ibex.begin (i : Ibex) (c : Nat) (resumed : Bool) : Ibex := { i with
  running := (i.slotOf c).getD 7, reserved := none, cur := none, outq := [], ran := some c,
  regions := if i.ran = some c ∧ !resumed then i.idleRegions
    else i.idleRegions.foldl (fun t e => Tbl.set {} t e.1 { e.2 with parity := false }) i.idleRegions }

/-! ### Placement (R354 to R356, R367) -/

/-- Length of a variant of the entry record; variant v stands for G = 2^v (R336). -/
def Step.variantLen (st : Step) (v : Nat) : Nat := (st.variants.getD v (0, 0)).2

/-- The largest present variant no larger than CLUSTER_MAX and `k`, 0 for none. -/
def State.largest (s : State) (st : Step) (k : Nat) : Nat :=
  (([8, 4, 2, 1].find? fun g => decide (0 < st.variantLen (Nat.log2 g)) && decide (g ≤ s.ctx st.ctx 0x16) && decide (g ≤ k)).getD 0)

/-- The cluster count that is fixed for a step: its recorded one, or FIXED_G (R354). -/
def State.fixedG (s : State) (st : Step) : Nat := if st.g ≠ 0 then st.g else s.ctx st.ctx 0x15

/-- A step that waits for placement. -/
def Step.waiting (st : Step) : Bool :=
  match st.state with
  | .ready | .granted => true
  | .suspended => st.waits.isNone
  | _ => false

/-- Key order of R354: effective VT, then context, then queue; a queue holds one step. -/
def State.before (s : State) (a b : Nat × Step) : Bool :=
  let va := s.effVt a.2.ctx
  let vb := s.effVt b.2.ctx
  if va = vb then decide (a.2.ctx < b.2.ctx) || (a.2.ctx == b.2.ctx && decide (a.1 ≤ b.1)) else vtLt va vb

/-- Queues whose steps wait for placement, in key order. -/
def State.waitList (s : State) : List Nat := (sortBy s.before (s.openSteps.filter fun x => x.2.waiting)).map (·.1)

/-- A fresh rank on an Ibex. -/
def newRank (n : Nat) : Rank :=
  { ibex := n, pc := 0, resume := [], layer := [], layerNo := 0, sat := 0, layers := 0, wait := .none,
    hpassed := 0, wideEnd := 0, resumeTo := 0, wideSat := 0, stopped := false, cycles := 0, ended := false, saved := 0, done := 0, sorting := {} }

/-- A step placed on Ibex clusters, rank r on the r-th (R354): partitions, the switch of 30 cycles where the context was
resident (R359), parity 0 (R87). A suspended step restores first (R361). An exact step that runs during an override counts once
(R599). -/
def State.place (s : State) (q : Nat) (st : Step) (ibs : List Nat) : State :=
  let again := st.state == .suspended || (st.ranks.isEmpty && (s.queue q).dropped)
  let switched := ibs.map fun n => ((s.ib n).slotOf st.ctx).isSome
  let s := ibs.foldl (fun s n =>
    let (s, res) := s.grantIbex n st.ctx
    let s := if res then s.countEntry 0x3400 0x11 1 else s
    s.modIb n fun i => i.begin st.ctx again) s
  let s := (List.range 8).foldl (fun s n =>
    if (s.ib n).reserved = some q then s.modIb n fun i => { i with reserved := none } else s) s
  let ranks := (if st.ranks.isEmpty then ibs.map newRank else (st.ranks.zip ibs).map fun r => { r.1 with ibex := r.2, stopped := false })
  let ranks := (ranks.zip switched).map fun r => if r.2 then { r.1 with cycles := r.1.cycles + 30 } else r.1
  let ov := s.tth.broken && s.ctx st.ctx 0x14 == 1 && !st.overridden
  let s := if ov then s.countEntry 0x4000 0x04 1 else s
  let st' := { st with g := ibs.length, ranks := ranks, passed := false, overridden := st.overridden || ov,
                       state := if st.state == .suspended then .restoring else .running }
  (s.setQueue q { (s.queue q) with held := some st', dropped := false }).countEntry 0x3400 0x10 1

/-- Each Ibex that is usable for a step that has been passed over is reserved for it, until it holds as many as it
needs (R355). -/
def State.reserveFor (s : State) (q : Nat) (st : Step) : State :=
  let want := if s.fixedG st ≠ 0 then s.fixedG st else s.largest st 8
  (s.usableList q st).foldl (fun s n =>
    let mine := ((List.range 8).filter fun m => (s.ib m).reserved == some q).length
    if mine < want && (s.ib n).reserved.isNone then s.modIb n fun i => { i with reserved := some q } else s) s

/-- A parked resident step is suspended when every resident context of an Ibex has a parked step there and the waiting
step could use that Ibex (R367); the one parked longest. -/
def State.unblock (s : State) (q : Nat) (st : Step) : State :=
  if st.state == .granted then s
  else
    match (List.range 8).find? fun n =>
      let res := (s.ib n).residents.map fun r => r.2.ctx
      let parked := (s.openSteps.filter fun x => x.2.on n && x.2.state == .parked).map fun x => x.2.ctx
      (s.ib n).running == 7 && (match (s.ib n).reserved with | some r => r == q | none => true) &&
        !res.isEmpty && !res.contains st.ctx && res.all parked.contains && (s.fit n st.ctx res).isSome with
    | none => s
    | some n =>
      let pk := s.openSteps.filter fun x => x.2.on n && x.2.state == .parked
      match pk with
      | [] => s
      | x :: xs =>
        let v := xs.foldl (fun b y => if y.2.parkedAt < b.2.parkedAt then y else b) x
        s.setStep v.1 (some { v.2 with state := .suspending, parkedSave := true })

/-- A running step of the context with the greatest VT is asked to stop when its VT exceeds the waiting step's effective
VT by more than PREEMPT_LAG × 2^26 (R356). -/
def State.preemptFor (s : State) (q : Nat) (st : Step) : State :=
  let lag := s.entry 0x3400 0x01
  if lag = 0 || s.openSteps.any (fun x => x.2.forQueue == some q) then s
  else
    let cand := s.openSteps.filter fun x => x.2.state == .running && !x.2.stop &&
      vtLt (s.effVt st.ctx + lag * 2 ^ 26) (s.ctx x.2.ctx 0x1E) &&
      (st.state != .granted || x.2.ranks.any fun r => st.ranks.any fun t => t.ibex == r.ibex)
    match cand with
    | [] => s
    | x :: xs =>
      let v := xs.foldl (fun b y => if vtLt (s.ctx b.2.ctx 0x1E) (s.ctx y.2.ctx 0x1E) then y else b) x
      s.setStep v.1 (some { v.2 with stop := true, forQueue := some q })

/-- The placement procedure of R354 for one waiting step; a step that cannot be placed preempts under R356 or R367. -/
def State.tryPlace (s : State) (q : Nat) : State :=
  match (s.queue q).held with
  | none => s
  | some st =>
    if !st.waiting then s
    else
      let us := s.usableList q st
      let g := if s.fixedG st ≠ 0 then s.fixedG st else s.largest st us.length
      if g = 0 || us.length < g then (s.unblock q st).preemptFor q st
      else s.place q st (if st.state == .granted then st.ranks.map (·.ibex) else us.take g)

/-- Placement at a batch-step boundary and whenever a step becomes ready (R354, R355); none in Nap or during its entry, where no
Ibex is powered for it (R33, R480). -/
def State.schedule (s : State) : State :=
  if 2 ≤ s.power || s.tth.nap != 0 then s
  else
  let s := s.waitList.foldl (fun s q =>
    match (s.queue q).held with
    | some st => if st.passed then s.reserveFor q st else s
    | none => s) s
  s.waitList.foldl (fun s q => s.tryPlace q) s

/-- Exit from Idle: CLKA reaches the Ibex clusters again (R478); a Nap entry first runs to the end of its stage (R480). -/
def State.leaveIdle (s : State) : State :=
  if s.power = 1 && s.tth.nap == 0 then
    (List.range 8).foldl (fun s n => s.modIb n fun i => { i with gated := false }) (s.setEntry 0x1400 0x02 0)
  else s

/-- The step of queue q becomes ready (R312, R348, R478). -/
def State.becomeReady (s : State) (q : Nat) : State :=
  match (s.queue q).held with
  | none => s
  | some st => ((s.raiseVt st.ctx).setStep q (some { st with state := .ready })).leaveIdle.schedule

/-! ### Hitches (R363 to R368) -/

/-- A rank waits at a hitch instruction. -/
def Rank.atHitch (r : Rank) : Bool :=
  match r.wait with
  | .hitch _ => true
  | _ => false

/-- Every rank that waits at the hitch instruction passes it (R365), and meets the others where the instruction's SYNC is 1. -/
def passHitch (rs : List Rank) : List Rank :=
  rs.map fun r => match r.wait with
    | .hitch meet => { r with pc := r.pc + 1, wait := if meet then .sync else .none, hpassed := r.hpassed + 1 }
    | _ => r

/-- The walkers of the ranks that wait at the hitch instruction have passed it: their loaded instruction is done. -/
def State.hitchDone (s : State) (rs : List Rank) (on : Bool) : State :=
  rs.foldl (fun s r => if r.atHitch then
    (if on then s.modIb r.ibex fun i => { i with cur := none } else s).count (ibexReg r.ibex 2 0x50) 1 else s) s

/-- The head waiters of hitch k served while its count allows (R365); a waiter's step is unparked. -/
def State.serveLoop (s : State) (k : Nat) : Nat → State
  | 0 => s
  | fuel + 1 =>
    let h := s.hitch k
    match h.waiters with
    | [] => s
    | w :: ws =>
      if h.count < w.n then s
      else
        match (s.queue w.queue).held with
        | none => (s.setHitch k { h with waiters := ws }).serveLoop k fuel
        | some st =>
          let h' := { h with count := h.count - w.n, waiters := ws, held := h.held || h.lock,
                             holder := if h.lock then st.ctx else h.holder }
          let s := if st.active then s else (s.raiseVt st.ctx).leaveIdle
          let st' := { st with waits := none, state := if st.state == .parked then .granted else st.state,
                               holds := if h.lock then st.holds ++ [k] else st.holds, ranks := passHitch st.ranks }
          let s := s.hitchDone st.ranks (st.state == .running)
          ((s.setHitch k h').setStep w.queue (some st')).serveLoop k fuel

/-- serve of R365. -/
def State.serveHitch (s : State) (k : Nat) : State := s.serveLoop k (s.hitch k).waiters.length

/-- The loans that satisfy `p` end. -/
def State.endLoans (s : State) (p : Loan → Bool) : State :=
  s.sch.ctxs.foldl (fun s e => if e.2.loans.any p then
    s.setCtxSt e.1 { (s.ctxSt e.1) with loans := (s.ctxSt e.1).loans.filter fun l => !p l } else s) s

/-- The lock hitch k is released: the loans that it carried end, no step holds it any more, and it serves its waiters (R365, R366). -/
def State.releaseHitch (s : State) (k : Nat) : State :=
  let s := s.endLoans fun l => l.hitch == k || l.root == k
  let s := s.openSteps.foldl (fun s x => if x.2.holds.contains k then s.setStep x.1 (some { x.2 with holds := x.2.holds.erase k }) else s) s
  (s.setHitch k { (s.hitch k) with held := false, holder := 0, count := 1 }).serveHitch k

/-- The wait of a step of queue q withdrawn, and the loans that only it makes ended (R366, R368). -/
def State.withdrawWait (s : State) (q : Nat) (st : Step) : State :=
  match st.waits with
  | none => s
  | some (k, _, _) =>
    let s := s.setHitch k { (s.hitch k) with waiters := (s.hitch k).waiters.filter fun w => w.queue != q }
    if s.openSteps.any fun x => x.1 != q && x.2.ctx == st.ctx && x.2.waits.any fun w => w.1 == k then s
    else s.endLoans fun l => l.waiter == st.ctx && l.root == k

/-- What a step that is gone leaves at the hitches: the one it waited for serves the waiters behind it, and each acquisition that its
context still holds is released by the device and counted (R368). -/
def State.forceHitches (s : State) (st : Step) : State :=
  let s := match st.waits with
    | some (k, _, _) => s.serveHitch k
    | none => s
  st.holds.foldl (fun s k =>
    if (s.hitch k).lock && (s.hitch k).held && (s.hitch k).holder == st.ctx then
      ((s.releaseHitch k).countEntry 0x3400 0x16 1).countCtx st.ctx 0x2C 1
    else s) s

/-! ### Frames and marks (R19, R284) -/

/-- A frame whose last mark has cleared returns to its pool, whether its stream is open or closed (R284, R296). -/
def State.sweepFrames (s : State) (n : Nat) : State :=
  let fs := (s.stream n).frames
  let free := fs.filter fun f => !(f.short || f.long || f.output || f.held)
  let s := s.modStream n fun x => { x with frames := x.frames.filter fun f => f.short || f.long || f.output || f.held }
  free.foldl (fun s f => s.freeBuf f.pic.pool f.pic.buf) s

/-- The held-by-analytics mark of a picture cleared (R19). -/
def State.unhold (s : State) (p : PicRec) : State :=
  (s.modStream p.stream fun x => { x with frames := x.frames.map fun f =>
    if f.pic.pool = p.pool ∧ f.pic.buf = p.buf then { f with held := false } else f }).sweepFrames p.stream

/-- The marks of a step's pictures cleared. -/
def State.unholdAll (s : State) (st : Step) : State :=
  st.slots.foldl (fun s sl => match sl.holding, sl.pic with | true, some p => s.unhold p | _, _ => s) s

/-! ### How a step leaves -/

/-- Job `job` of a slot runs as a work item; for a HOST slot a FRAME or REGION job only writes void values (R304, R313). -/
def Step.isWork (st : Step) (sl : Slot) (job : Nat) : Bool := !sl.host || natLE ((st.plan.getD job []).take 1) == 3

/-- Cycles that preprocessing engine e was busy for context c (R331, R374). -/
def State.preBusy (s : State) (e c cycles : Nat) : State :=
  (s.count (preBase + 0x20 + 8 * e) cycles).setCtxSt c { (s.ctxSt c) with pre := (s.ctxSt c).pre + cycles }

/-- Engine e stops what it runs for context c: how many cycles it was busy with it is time (log entry 14). -/
def State.stopPre (s : State) (e c : Nat) : State :=
  let (w, s) := s.freshWord
  { s.preBusy e c w.toNat with vid := { s.vid with pre := Tbl.set none s.vid.pre e none } }

/-- Work items abandoned: those of the slots `which` that have not started, and those on engines, which stop. Each work item counts
in PRE_ABANDONED (R325, R329). -/
def State.abandonItems (s : State) (q : Nat) (st : Step) (which : Nat → Bool) : State :=
  let busy := (List.range 4).filterMap fun e => (Tbl.get none s.vid.pre e).bind fun i =>
    if i.queue == q && which i.slot then some (e, i) else none
  let work := fun (i j : Nat) => match st.slots[i]? with | some sl => st.isWork sl j | none => false
  let left := (st.slots.zipIdx).flatMap fun x => if which x.2 then x.1.items.filter fun it => st.isWork x.1 it.1 else []
  let n := (busy.filter fun b => work b.2.slot b.2.job).length + left.length
  (busy.foldl (fun s b => s.stopPre b.1 st.ctx) s).count (preBase + 0x60) n

/-- Dummy issue of Ibex n so far: how many cycles is time (log entry 14); the strand-group cycles are charged to the context whose
macro-instruction ran before the gap (R114). -/
def State.dummies (s : State) (n : Nat) : State :=
  let s := s.countFree (ibexReg n 1 0x48)
  let (w, s) := s.freshWord
  let s := s.count (ibexReg n 1 0x70) w.toNat
  match (s.ib n).before with
  | some c => s.setCtxSt c { (s.ctxSt c) with dummy := (s.ctxSt c).dummy + w.toNat }
  | none => s

/-- A batch-step boundary on Ibex n: the dummy issue of a gap that an instruction of a context came before is charged to that context so
far; from here on the gap counts as one that began at the boundary (R114; DESIGN CHOICE, log entry 67). -/
def State.gapEnds (s : State) (n : Nat) : State :=
  if (s.ib n).ramp.level ≠ 0 && (s.ib n).before.isSome then (s.dummies n).modIb n fun i => { i with before := none } else s

/-- A step that occupies its Ibex clusters: it runs, is restored, or is saved after running. -/
def Step.occupies (st : Step) : Bool :=
  match st.state with
  | .running | .restoring => true
  | .suspending => !st.parkedSave
  | _ => false

/-- The step leaves its Ibex clusters and its cycles are charged (R352). The command that takes it off Ibex `sure` gave its cycles
there; on another Ibex what has passed since the latest command that gave cycles is time (log entry 14). -/
def State.leaveIbexes (s : State) (st : Step) (sure : Option Nat) : State :=
  if st.occupies then
    st.ranks.foldl (fun s r =>
      let (w, s) := if sure = some r.ibex then (0, s) else (s.freshWord.1.toNat, s.freshWord.2)
      ((s.charge st.ctx (r.cycles + w)).gapEnds r.ibex).modIb r.ibex Ibex.stop) s
  else s

/-- QUEUE_WAIT takes the time that a step waited for its Ibex clusters (R373). The spec's cycles are time, which the model
does not count: the amount is a fresh value (log entry 14). -/
def State.addWait (s : State) (c : Nat) : State :=
  let (w, s) := s.freshWord
  s.countCtx c 0x26 w.toNat

/-- Main-path counters at the moment a step ends, faults or is dropped (R209, R373); a step that never became ready has not waited. -/
def State.tally (s : State) (st : Step) : State :=
  let s := if st.widened then s.countCtx st.ctx 0x22 1 else s
  let s := if st.skipped then s.countCtx st.ctx 0x23 1 else s
  if st.state == .filling then s else s.addWait st.ctx

/-- Context c leaves the shed list (R474). -/
def State.unshed (s : State) (c : Nat) : State := { s with sch := { s.sch with shed := s.sch.shed.filter (· != c) } }

/-- The open step of queue q is gone: it leaves its Ibex clusters, its items, waits, reservations, loans and marks (R337, R350); what it
leaves at the hitches is `forceHitches`. -/
def State.takeStep (s : State) (q : Nat) (st : Step) (sure : Option Nat) : State :=
  let s := ((s.leaveIbexes st sure).setStep q none).tally st
  let s := (List.range 8).foldl (fun s n =>
    if (s.ib n).reserved = some q then s.modIb n fun i => { i with reserved := none } else s) s
  let s := s.openSteps.foldl (fun s x => if x.2.forQueue = some q then s.setStep x.1 (some { x.2 with forQueue := none }) else s) s
  (((s.abandonItems q st fun _ => true).withdrawWait q st).endLoans fun l => l.queue == q).unholdAll st

/-- The open step of queue q is gone, with what it leaves at the hitches (R350, R368). -/
def State.removeStep (s : State) (q : Nat) (st : Step) (sure : Option Nat) : State := (s.takeStep q st sure).forceHitches st

/-- Steps abandoned together: each leaves, then come the forced releases, and then the void closing records of its code for the slots
that lack one; none writes no record (R337, R338, R344). -/
def State.abandonAll (s : State) (xs : List (Nat × Step)) (code : Nat → Option W16) : State :=
  let s := xs.foldl (fun s x => match (s.queue x.1).held with
    | some st => s.takeStep x.1 st none
    | none => s) s
  let s := xs.foldl (fun s x => s.forceHitches x.2) s
  xs.foldl (fun s x => match code x.1 with
    | some c => s.closeAll ((s.queue x.1).lead == 0xFF) x.2 2 c false
    | none => s) s

/-- Partitions of context c released on every Ibex (R337). -/
def State.releaseParts (s : State) (c : Nat) : State :=
  (List.range 8).foldl (fun s n => if ((s.ib n).slotOf c).isSome then s.modIb n fun i => i.evict c else s) s

/-- Open steps of context c. -/
def State.stepsOf (s : State) (c : Nat) : List (Nat × Step) := s.openSteps.filter fun x => x.2.ctx == c

/-- Context c enters FAULTED because the steps of the queues `qs` suffered a fault of code `code` (R337): every open step is
abandoned, records are written, partitions released, LAST_CODE, FAULTS and the owner's error message (R504). The clusters that this
frees are given away once every context that the event hits has stopped (R377). -/
def State.faultOnly (s : State) (c : Nat) (qs : List Nat) (code : W16) : State :=
  if s.ctxState c ≠ 2 then s
  else
    let s := (s.setCtxState c 3).unshed c
    let steps := s.stepsOf c
    let s := s.abandonAll (steps.filter (fun x => qs.contains x.1) ++ steps.filter (fun x => !qs.contains x.1))
      fun q => some (if qs.contains q then code else Code.SCH_CTX_FAULTED)
    let s := (s.releaseParts c).setEntry (0x3000 + c) 0x1D code.toNat
    (s.countCtx c 0x25 1).fnErr code (s.ctx c 0x03)

/-- Context c enters FAULTED, and its clusters are given away. -/
def State.faultSteps (s : State) (c : Nat) (qs : List Nat) (code : W16) : State :=
  if s.ctxState c ≠ 2 then s else (s.faultOnly c qs code).schedule

/-- Context c enters FAULTED because the step of queue q suffered a fault of code `code` (R337). -/
def State.faultCtx (s : State) (c q : Nat) (code : W16) : State := s.faultSteps c [q] code

/-- A late drop of the step of queue q (R350, R351): records of kind late-dropped, counts, no fault. -/
def State.lateDrop (s : State) (q : Nat) (st : Step) : State :=
  let lead := (s.queue q).lead
  let s := (s.removeStep q st none).closeAll (lead == 0xFF) st 3 0 true
  let s := s.setQueue q { (s.queue q) with dropped := true }
  let s := (s.countCtx st.ctx 0x24 1).countEntry 0x3400 0x13 1
  let s := if lead = 0xFF then s else s.countEntry (0x2000 + lead) 0x4D 1
  s.schedule

/-- DISABLE and the quiet forms of it: every open step abandoned, its code, if any, in LAST_CODE as a fault's, partitions released
(R338, Table 10.11); the clusters are given away later. -/
def State.stopOnly (s : State) (c : Nat) (code : Option W16) : State :=
  let steps := s.stepsOf c
  let s := s.abandonAll steps fun _ => code
  let s := match code, steps with
    | some k, _ :: _ => s.setEntry (0x3000 + c) 0x1D k.toNat
    | _, _ => s
  s.releaseParts c

/-- A context stopped, and its clusters given away. -/
def State.stopCtx (s : State) (c : Nat) (code : Option W16) : State := (s.stopOnly c code).schedule

/-- Units of 2 MiB in the aperture of herd h that no allocation holds (R388, R389). -/
def State.unitFree (s : State) (h x : Nat) : Bool :=
  !(s.mem.allocs.any fun a => a.herd == h && decide (a.unit ≤ x) && decide (x < a.unit + a.size))

/-- The lowest run of `u` free units in the aperture of herd h (R388). -/
def State.freeRun (s : State) (h u : Nat) : Option Nat :=
  let total := s.apertureMib (h + 1) / 2
  ((List.range total).foldl (fun (a : Nat × Option Nat) x =>
    match a.2 with
    | some _ => a
    | none =>
      let run := if s.unitFree h x then a.1 + 1 else 0
      (run, if run = u then some (x + 1 - u) else none)) (0, none)).2

/-- An allocation of `u` units for context c; none when no run is free. -/
def State.herdAlloc (s : State) (h u c : Nat) (save : Bool) : Option State :=
  (s.freeRun h u).map fun x => { s with mem := { s.mem with allocs := s.mem.allocs ++ [⟨h, x, u, c, save⟩] } }

/-- HBM data address of an allocation: the aperture of herd h is aperture h + 1. -/
def Alloc.addr (a : Alloc) : Nat := (a.herd + 1) * 2 ^ 35 + a.unit * 0x200000

/-- Window and save area of context c returned to its herd's aperture (R388). -/
def State.freeHerd (s : State) (c : Nat) : State :=
  { s with mem := { s.mem with allocs := s.mem.allocs.filter fun a => a.ctx != c } }

end Sys2Proof.Machine
end

