-- ==== Sys2Proof/Machine/Tensor.lean ====
section
/-! DEFINITION. Tensor descriptors, spans, and the elements of a tensor in HBM or in a scratchpad partition (R40 to R45,
R119 to R125, R152); codes of elements are converted by Formats. -/

namespace Sys2Proof.Machine

/-! ### Descriptors -/

/-- The descriptor that 64 bytes spell (Table 4.1). -/
def parseDesc (bs : List Byte) : Desc :=
  let f := fun (o n : Nat) => natLE ((bs.drop o).take n)
  let w := f 0x34 4
  { base := f 0 8, ext := (List.range 6).map fun d => f (8 + 4 * d) 4,
    stride := 0 :: (List.range 5).map fun d => f (0x20 + 4 * d) 4,
    fmtCode := w % 16, ndim := field w 6 4, spm := bitOf w 7, layout := field w 11 8, zpEn := bitOf w 12,
    scaleEn := bitOf w 13, rsvd := field w 15 14 != 0 || field w 31 24 != 0, zpByte := field w 23 16,
    scaleBase := f 0x38 8 }

/-- EXTd. -/
def Desc.e (d : Desc) (i : Nat) : Nat := d.ext.getD i 1
/-- STRIDEd in units of 64 bytes. -/
def Desc.st (d : Desc) (i : Nat) : Nat := d.stride.getD i 0
/-- The element format; a descriptor that a loader passed has one. -/
def Desc.fmt (d : Desc) : Fmt := (Fmt.ofCode d.fmtCode).getD .s8

/-- Zero point of a tensor, read in its format (R126): 0 without ZP_EN. -/
def Desc.zp (d : Desc) : Int :=
  if !d.zpEn then 0 else if d.fmt = .u8 then (d.zpByte : Int) else sext 8 d.zpByte

/-- Row count: the product of the extents above dimension 0 (R122). -/
def Desc.rows (d : Desc) : Nat := (d.ext.drop 1).foldl (· * ·) 1

/-- Row bytes (R122). -/
def Desc.rowBytes (d : Desc) : Nat := ceilDiv (d.e 0 * d.fmt.bits) 8

/-- Byte offset of a row from BASE (R123). -/
def Desc.rowOff (d : Desc) (r : Nat) : Nat :=
  64 * ((List.range 5).foldl (fun (a : Nat × Nat) i =>
    (a.1 / d.e (i + 1), a.2 + a.1 % d.e (i + 1) * d.st (i + 1))) (r, 0)).2

/-- Length of the span in bytes (R124). -/
def Desc.spanLen (d : Desc) : Nat :=
  64 * ((List.range 5).map fun i => (d.e (i + 1) - 1) * d.st (i + 1)).sum + d.rowBytes

/-- Blocks of a row (R125). -/
def Desc.blocks (d : Desc) : Nat := ceilDiv (d.e 0) 32

/-- Length of the scale plane (R125). -/
def Desc.scaleLen (d : Desc) : Nat := d.rows * d.blocks

/-- The row of indices i1, i2, ... (R123). -/
def Desc.rowOf (d : Desc) (is : List Nat) : Nat :=
  ((is.zipIdx).foldl (fun (a : Nat × Nat) x => (a.1 + x.1 * a.2, a.2 * d.e (x.2 + 1))) (0, 1)).1

/-- The spans of a tensor: its elements and its scale plane. -/
def Desc.spans (d : Desc) : List Span :=
  ⟨d.spm, d.base, d.spanLen⟩ :: (if d.fmt.isBlock then [⟨d.spm, d.scaleBase, d.scaleLen⟩] else [])

/-- Two spans share a byte. -/
def Span.overlaps (a b : Span) : Bool :=
  a.spm == b.spm && decide (0 < a.len) && decide (0 < b.len) && decide (a.base < b.base + b.len) && decide (b.base < a.base + a.len)

/-- Some span of one list shares a byte with one of the other. -/
def spansMeet (as bs : List Span) : Bool := as.any fun a => bs.any fun b => a.overlaps b

/-! ### Scratchpad (R119, R120, Table 12.1) -/

/-- A scratchpad byte of Ibex n; none is a bus error. -/
def State.spmByte (s : State) (n a : Nat) : Option Byte :=
  let i := s.ib n
  let syn := (Tbl.get 0 i.spmSyn (a / 8)).toNat
  if syn = 0 then some (Tbl.get 0 i.spm a)
  else ((decodeWord (natLE (Tbl.getList 0 i.spm (a / 8 * 8) 8)) syn).value).map fun v => BitVec.ofNat 8 (v / 256 ^ (a % 8))

/-- `n` bytes of a scratchpad. -/
def State.spmRead (s : State) (n a : Nat) : Nat → Option (List Byte)
  | 0 => some []
  | k + 1 => (s.spmByte n a).bind fun b => (s.spmRead n (a + 1) k).map fun bs => b :: bs

/-- Words of Ibex n's scratchpad that hold an error and meet one of the ranges of bytes, each a first byte and a length. -/
def State.faultySpm (s : State) (n : Nat) (rs : List (Nat × Nat)) : List (Nat × Byte) :=
  (s.ib n).spmSyn.filter fun w => rs.any fun r => decide (r.1 < 8 * w.1 + 8) && decide (8 * w.1 < r.1 + r.2)

/-- The value that a read of a scratchpad word finds. -/
def State.spmWord (s : State) (n : Nat) (w : Nat × Byte) : WordRead := decodeWord (natLE (Tbl.getList 0 (s.ib n).spm (8 * w.1) 8)) w.2.toNat

/-- Ranges of a scratchpad read: the words that were corrected are rewritten and counted (Table 12.1). -/
def State.mendSpm (s : State) (n : Nat) (rs : List (Nat × Nat)) : State :=
  (s.faultySpm n rs).foldl (fun s w => match (s.spmWord n w).value with
    | some v => (s.countEntry 0x1500 0x55 1).modIb n fun i =>
        { i with spm := Tbl.setList 0 i.spm (8 * w.1) (bytesLE 8 v), spmSyn := Tbl.set 0 i.spmSyn w.1 0 }
    | none => s) s

/-- A read of ranges of a scratchpad ended in a bus error: its first lost word is counted and reported. -/
def State.lostSpm (s : State) (n : Nat) (rs : List (Nat × Nat)) : State :=
  match (s.faultySpm n rs).find? fun w => (s.spmWord n w).value.isNone with
  | some w => s.sramLost (s.spmWord n w) 2 (8 * w.1)
  | none => s

/-- Words that a write of `len` bytes at `a` touches in part: at its two ends. -/
def edgeWords (a len : Nat) : List Nat :=
  ([a / 8, (a + len - 1) / 8].eraseDups).filter fun w => decide (8 * w < a) || decide (a + len < 8 * w + 8)

/-- Bytes written to a scratchpad. A word that the write covers in part is read first: a corrected one is rewritten and counted, a lost
one is counted and stays lost, since bytes of it stay (Table 12.1, R430). The other words are stored with clean check bytes, but for an
armed flip of domain 2 (R434). -/
def State.spmWrite (s : State) (n a : Nat) (bs : List Byte) : State :=
  if bs.isEmpty then s
  else
    let w0 := a / 8
    let k := (a + bs.length - 1) / 8 - w0 + 1
    let edges := s.faultySpm n ((edgeWords a bs.length).map fun w => (8 * w, 8))
    let s := if edges.isEmpty then s else s.mendSpm n (edges.map fun w => (8 * w.1, 8))
    let lost := edges.filter fun w => (s.spmWord n w).value.isNone && Tbl.get 0 (s.ib n).spmSyn w.1 == w.2
    let s := lost.foldl (fun s _ => s.countEntry 0x1500 0x56 1) s
    (s.modIb n fun i => { i with
      spm := Tbl.setList 0 i.spm a bs,
      spmSyn := lost.foldl (fun t w => Tbl.set 0 t w.1 w.2) (Tbl.clear i.spmSyn w0 k) }).flipSpm n w0 k

/-! ### Accesses of a context -/

/-- Whose tensors are read: the Ibex and the context; HBM accesses use neither. -/
structure Acc1 where
  ibex : Nat
  ctx  : Nat
  deriving DecidableEq, Repr

/-- Base of a context's scratchpad partition on its Ibex, in bytes. -/
def State.partBase (s : State) (a : Acc1) : Nat := ((((s.ib a.ibex).resident a.ctx).map (·.spmBase)).getD 0) * 262144

/-- Bytes of an address space: partition offset or HBM address. -/
def State.tRead (s : State) (a : Acc1) (spm : Bool) (addr n : Nat) : Option (List Byte) :=
  if spm then s.spmRead a.ibex (s.partBase a + addr) n else s.memRead addr n

/-- Highest unit of the partition written (R152); the work area is not counted (R248). -/
def State.markUsed (s : State) (a : Acc1) (addr n : Nat) : State :=
  s.modIb a.ibex fun i => { i with slots := i.slots.map fun e =>
    match e.2 with
    | some r =>
      if r.ctx = a.ctx then
        let top := r.spmSize * 262144 - 65536
        let last := if addr + n ≤ top then addr + n else max top addr
        if addr < top then (e.1, some { r with used := max r.used (ceilDiv last 262144) }) else e
      else e
    | none => e }

/-- Bytes written to an address space; none is a bus error. -/
def State.tWrite (s : State) (a : Acc1) (spm : Bool) (addr : Nat) (bs : List Byte) : Option State :=
  if bs.isEmpty then some s
  else if spm then some ((s.spmWrite a.ibex (s.partBase a + addr) bs).markUsed a addr bs.length)
  else s.memWrite addr bs

/-- Code of element i0 of a row held as bytes. -/
def codeAt (f : Fmt) (bs : List Byte) (i : Nat) : Nat :=
  if f.isHalfByte then (bs.getD (i / 2) 0).toNat / 16 ^ (i % 2) % 16
  else
    let w := f.bits / 8
    let c := natLE ((bs.drop (w * i)).take w)
    match f with
    | .e3m2 | .e2m3 => c % 64
    | _ => c

/-- Codes of elements i0 to i0 + n - 1 of a row, with their scale bytes for a block format; none is a bus error. -/
def State.rowCodes (s : State) (a : Acc1) (d : Desc) (r i0 n : Nat) : Option (List (Nat × Nat)) :=
  if n = 0 then some []
  else
    let f := d.fmt
    let lo := i0 * f.bits / 8
    let hi := ceilDiv ((i0 + n) * f.bits) 8
    match s.tRead a d.spm (d.base + d.rowOff r + lo) (hi - lo) with
    | none => none
    | some bs =>
      let off := if f.isHalfByte then i0 % 2 else 0
      let cs := (List.range n).map fun i => codeAt f bs (off + i)
      if f.isBlock then
        let b0 := i0 / 32
        let nb := (i0 + n - 1) / 32 - b0 + 1
        (s.tRead a d.spm (d.scaleBase + r * d.blocks + b0) nb).map fun sc =>
          cs.zipIdx.map fun c => (c.1, (sc.getD ((i0 + c.2) / 32 - b0) 0).toNat)
      else some (cs.map fun c => (c, 0))

/-- Values of elements i0 to i0 + n - 1 of a row, zero point included. -/
def State.rowVals (s : State) (a : Acc1) (d : Desc) (r i0 n : Nat) : Option (List Val) :=
  (s.rowCodes a d r i0 n).map fun cs => cs.map fun c =>
    let v := decodeVal d.fmt c.2 c.1
    if d.zpEn then Val.add v (Val.ofInt (-d.zp)) else v

/-- One element as an integer. -/
def State.elemInt (s : State) (a : Acc1) (d : Desc) (r i : Nat) : Option Int :=
  (s.rowVals a d r i 1).bind fun vs => vs.head?.map truncInt

/-- Codes packed into the bytes of a row from element i0: half-byte codes merge into bytes that hold a neighbour, and the
high half after an odd extent is 0 (R40, R41). -/
def packCodes (f : Fmt) (ext i0 : Nat) (old : List Byte) (cs : List Nat) : List Byte :=
  if f.isHalfByte then
    let lo := i0 / 2
    let hi := ceilDiv (i0 + cs.length) 2
    (List.range (hi - lo)).map fun k =>
      let o := (old.getD k 0).toNat
      let pick := fun (i : Nat) (o : Nat) => if i < i0 then o else if i < i0 + cs.length then cs.getD (i - i0) 0 % 16 else if ext ≤ i then 0 else o
      BitVec.ofNat 8 (pick (2 * (lo + k)) (o % 16) + 16 * pick (2 * (lo + k) + 1) (o / 16))
  else cs.flatMap fun c => bytesLE (f.bits / 8) c

/-- Codes written to elements i0 onward of a row, without scale bytes; none is a bus error. -/
def State.putCodes (s : State) (a : Acc1) (d : Desc) (r i0 : Nat) (cs : List Nat) : Option State :=
  if cs.isEmpty then some s
  else
    let f := d.fmt
    let addr := d.base + d.rowOff r + i0 * f.bits / 8
    if f.isHalfByte then
      (s.tRead a d.spm addr (ceilDiv (i0 + cs.length) 2 - i0 / 2)).bind fun old =>
        s.tWrite a d.spm addr (packCodes f (d.e 0) i0 old cs)
    else s.tWrite a d.spm addr (packCodes f (d.e 0) i0 [] cs)

/-- Blocks of 32 of a list. -/
def chunks32 {α : Type} : Nat → List α → List (List α)
  | 0, _ => []
  | n + 1, l => if l.isEmpty then [] else l.take 32 :: chunks32 n (l.drop 32)

/-- Values converted once and written to elements i0 onward of a row, with the count of saturations (R60, R55, R63). The
zero point of the target is added exactly first. For a block format i0 starts a block. None is a bus error. -/
def State.putVals (s : State) (a : Acc1) (d : Desc) (r i0 : Nat) (vs : List Val) : Option (State × Nat) :=
  if d.fmt.isBlock then
    let bl := (chunks32 (vs.length / 32 + 1) vs).map (encodeBlock d.fmt)
    (s.putCodes a d r i0 (bl.flatMap fun b => b.2.1)).bind fun s =>
      (s.tWrite a d.spm (d.scaleBase + r * d.blocks + i0 / 32) (bl.map fun b => BitVec.ofNat 8 b.1)).map fun s =>
        (s, (bl.map fun b => b.2.2).sum)
  else
    let cs := vs.map fun v => convert d.fmt (if d.zpEn then Val.add v (Val.ofInt d.zp) else v)
    (s.putCodes a d r i0 (cs.map (·.1))).map fun s => (s, (cs.filter (·.2)).length)

/-- The void value of an element (R321) written to elements of a row. -/
def State.putVoid (s : State) (a : Acc1) (d : Desc) (r n : Nat) : Option State :=
  let c := if d.zpEn then wrap d.fmt.bits d.zp else 0
  (s.putCodes a d r 0 (List.replicate n c)).bind fun s =>
    if d.fmt.isBlock then s.tWrite a d.spm (d.scaleBase + r * d.blocks) (List.replicate (ceilDiv n 32) 0) else some s

/-! ### Context tables -/

/-- Descriptor index i of context c: outside the table, unreadable, or read (R127). -/
inductive DescRead where
  | noIndex
  | ue
  | ok (d : Desc)
  deriving DecidableEq, Repr

/-- The descriptor of an index (R127). -/
def State.readDesc (s : State) (c i : Nat) : DescRead :=
  if s.ctx c 0x0B ≤ i then .noIndex
  else match s.memRead (s.ctx c 0x07 + s.ctx c 0x0A + 64 * i) 64 with
    | none => .ue
    | some bs => .ok (parseDesc bs)

/-- A byte range of HBM that lies inside the memory window of context c. -/
def State.inWindow (s : State) (c addr len : Nat) : Bool :=
  decide (s.ctx c 0x07 ≤ addr) && decide (addr + len ≤ s.ctx c 0x07 + s.ctx c 0x06)

/-- Every HBM span of a tensor lies inside the window. -/
def State.spansInWindow (s : State) (c : Nat) (d : Desc) : Bool :=
  d.spm || d.spans.all fun p => s.inWindow c p.base p.len

/-- A finite F32 code. -/
def finiteF32 (c : Nat) : Bool := !(ofF32 (BitVec.ofNat 32 c)).isSpecial

/-! ### Uncorrectable tags (R431) -/

/-- MEM_TAG_UE faults context c. One that is not READY runs no step: the fault is recorded, and a context whose enabling has not ended is
FAULTED; a DISABLING one goes on to DISABLED (DESIGN CHOICE, log entry 72). -/
def State.tagFault (s : State) (c : Nat) : State :=
  if s.ctxState c = 2 then s.faultOnly c [65536] Code.MEM_TAG_UE
  else if s.ctxState c = 1 ∨ s.ctxState c = 4 then
    let s := if s.ctxState c = 1 then (s.setCtxState c 3).unshed c else s
    ((s.setEntry (0x3000 + c) 0x1D Code.MEM_TAG_UE.toNat).countCtx c 0x25 1).fnErr Code.MEM_TAG_UE (s.ctx c 0x03)
  else s

/-- Context faults of MEM_TAG_UE. -/
def State.tagFaults (s : State) (hit : Nat → Bool) : State :=
  (((List.range 1024).filter fun c => s.ctxState c != 0 && hit c).foldl (fun s c => s.tagFault c) s).schedule

/-- An uncorrectable tag of a cache line, or address of a splice entry. A clean line is invalidated
without a report; a dirty line or an entry is discarded and the contexts that could own it fault. -/
def State.tagUe (s : State) (site : SramSite) : State :=
  match site with
  | .cacheTag a =>
    match Tbl.get none s.mem.lines (a / 128) with
    | none => s
    | some l =>
      let s := { s with mem := { s.mem with lines := Tbl.set none s.mem.lines (a / 128) none,
                                            lineSyn := Tbl.clear s.mem.lineSyn (a / 128 * 16) 16 } }
      if !l.dirty then s
      else
        let common := (s.entry 0x1500 0x05).testBit l.way
        ((s.countEntry 0x1500 0x56 1).intErr Code.MEM_TAG_UE 7 a).tagFaults
          fun c => common || (s.wayMask (s.ctx c 0x04)).testBit l.way
  | .splice a | .spliceTag a =>
    let page := physKey (s.mapAddr a) / 2048
    match s.mem.entry page with
    | none => s
    | some _ =>
      let s := { s with mem := { s.mem with splice := s.mem.splice.filter (fun e => e.page != page),
                                            splSyn := Tbl.clear s.mem.splSyn (page * 256) 256 } }
      ((s.countEntry 0x1500 0x56 1).intErr Code.MEM_TAG_UE 7 a).tagFaults fun _ => true
  | _ => s

/-- MEM_TAG_UE (R431). -/
def execMemTagUe (site : SramSite) (s : State) : Host.Outcome State Fault Refusal := go (s.tagUe site)

end Sys2Proof.Machine
end

