-- ==== Sys2Proof/Machine/Preproc.lean ====
section
/-! DEFINITION. Preprocessing: the plan and its checks, pictures for slots, work items, and void slots (spec 09). -/

namespace Sys2Proof.Machine

/-! ### Job records (Table 9.1) -/

/-- A field of a record of bytes: `n` bytes at an offset, little-endian. -/
def recField (r : List Byte) (o n : Nat) : Nat := natLE ((r.drop o).take n)

/-- KIND: 1 FRAME, 2 REGION, 3 HOST. -/
def jobKind (j : List Byte) : Nat := recField j 0 1
/-- AUG_EN. -/
def jobAug (j : List Byte) : Bool := bitOf (recField j 1 1) 0
/-- FILTER: 0 nearest, 1 bilinear, 2 area. -/
def jobFilter (j : List Byte) : Nat := field (recField j 1 1) 2 1
/-- FIT: 1 letterbox. -/
def jobFit (j : List Byte) : Bool := bitOf (recField j 1 1) 3
/-- ORDER: 0 RGB, 1 BGR, 2 Y, 3 YCbCr. -/
def jobOrder (j : List Byte) : Nat := field (recField j 1 1) 5 4
/-- MATRIX. -/
def jobMatrix (j : List Byte) : Nat := recField j 2 1
/-- REGIONS as written, and as counted for FRAME and HOST (R306). -/
def jobRegions (j : List Byte) : Nat := recField j 3 1
/-- Region positions of a job. -/
def jobR (j : List Byte) : Nat := if jobKind j = 2 then jobRegions j else 1
/-- Descriptor indices OUT, RIDX and SRC. -/
def jobDesc (j : List Byte) (k : Nat) : Nat := recField j (4 + 2 * k) 2
/-- RG. -/
def jobRg (j : List Byte) : Nat := recField j 0x0A 1 % 4
/-- Regrouping factor f. -/
def jobF (j : List Byte) : Nat := 2 ^ jobRg j
/-- An F32 parameter. -/
def jobF32 (j : List Byte) (o : Nat) : Val := ofF32 (BitVec.ofNat 32 (recField j o 4))
/-- Channels CH before regrouping (R306). -/
def jobCh (j : List Byte) : Nat := if jobOrder j = 2 then 1 else 3
/-- OUT_W. -/
def jobW (j : List Byte) : Nat := recField j 0x2C 2
/-- OUT_H. -/
def jobH (j : List Byte) : Nat := recField j 0x2E 2

/-! ### Plan checks (R308, Table 9.2) -/

/-- The first list element that fails a check. -/
def anyFail {α : Type} (xs : List α) (bad : α → Bool) (code : W16) : Option W16 := if xs.any bad then some code else none

/-- The first code of a list of checks. -/
def firstCode : List (Option W16) → Option W16
  | [] => none
  | some c :: _ => some c
  | none :: cs => firstCode cs

/-- Reserved descriptor fields, unused extents and strides, and SCALE fields against Table 4.1. -/
def Desc.rsvdBad (d : Desc) : Bool :=
  d.rsvd || (List.range 6).any (fun i => decide (d.ndim ≤ i) && (d.e i != 1 || (i != 0 && d.st i != 0))) ||
    (d.scaleEn && !(d.fmtCode == 13 || d.fmtCode == 14)) || (!d.scaleEn && d.scaleBase != 0)

/-- A descriptor that names no tensor: NDIM, LAYOUT or an extent that Table 4.1 does not allow. -/
def Desc.noTensor (d : Desc) : Bool :=
  d.ndim == 0 || d.ndim == 7 || decide (4 < d.layout) ||
    (List.range d.ndim).any fun i => d.e i == 0 || decide (16777215 < d.e i)

/-- A block format without its scale plane (Table 4.1). -/
def Desc.planeMissing (d : Desc) : Bool := !d.scaleEn && (d.fmtCode == 13 || d.fmtCode == 14)

/-- Channel, width, height and batch extents of an output by its layout (R306). -/
def Desc.cwhn (d : Desc) : Nat × Nat × Nat × Nat :=
  if d.layout = 2 then (d.e 2, d.e 0, d.e 1, d.e 3) else (d.e 0, d.e 1, d.e 2, d.e 3)

/-- The plan of context c as read: the job records and their descriptors; none is an uncorrectable error. -/
def State.readPlan (s : State) (c : Nat) : Option (List (List Byte) × List (List DescRead)) :=
  let n := s.ctx c 0x11
  let js := (List.range n).map fun i => s.memRead (s.ctx c 0x07 + s.ctx c 0x10 + 64 * i) 64
  if js.any (·.isNone) then none
  else
    let jobs := js.map (·.getD [])
    let ds := jobs.map fun j => (List.range 3).map fun k => s.readDesc c (jobDesc j k)
    if ds.any (fun l => l.any (· == .ue)) then none else some (jobs, ds)

/-- The descriptor of a read. -/
def DescRead.get : DescRead → Option Desc
  | .ok d => some d
  | _ => none

/-- The checks of Table 9.2 after step 2. `slots` is the step's slot count. -/
def State.planCode (s : State) (c slots : Nat) (jobs : List (List Byte)) (reads : List (List DescRead)) : Option W16 :=
  let js := jobs.zip (reads.map fun l => l.map DescRead.get)
  let d := fun (l : List (Option Desc)) (k : Nat) => l.getD k none
  let out := fun (x : List Byte × List (Option Desc)) => d x.2 0
  let onAll := fun (x : List Byte × List (Option Desc)) (p : Desc → Bool) => x.2.any fun o => match o with | some e => p e | none => false
  firstCode [
    anyFail jobs (fun j => jobKind j < 1 || 3 < jobKind j) Code.PRE_JOB_KIND,
    anyFail jobs (fun j => field (recField j 1 1) 7 6 != 0 || recField j 0x0A 1 / 4 != 0 || recField j 0x0B 1 != 0 ||
      recField j 0x30 16 != 0 || (!jobFit j && recField j 0x28 4 != 0)) Code.PRE_JOB_RSVD,
    anyFail jobs (fun j => jobFilter j == 3) Code.PRE_JOB_FIELD,
    anyFail jobs (fun j => jobKind j == 3 && jobOrder j == 3) Code.PRE_JOB_FIELD,
    anyFail jobs (fun j => decide (3 < jobMatrix j) || (jobKind j == 3 && jobMatrix j != 0)) Code.PRE_JOB_FIELD,
    anyFail jobs (fun j => if jobKind j = 2 then decide (jobRegions j < 1) || decide (64 < jobRegions j) else jobRegions j != 0) Code.PRE_JOB_FIELD,
    anyFail js (fun x => jobRg x.1 != 0 && (match out x with | some e => e.layout != 1 | none => false)) Code.PRE_JOB_FIELD,
    anyFail jobs (fun j => !finiteF32 (recField j 0x0C 4)) Code.PRE_JOB_PARAM,
    anyFail jobs (fun j => (List.range 3).any fun i => !finiteF32 (recField j (0x10 + 4 * i) 4)) Code.PRE_JOB_PARAM,
    anyFail jobs (fun j => (List.range 3).any fun i => !finiteF32 (recField j (0x1C + 4 * i) 4)) Code.PRE_JOB_PARAM,
    anyFail jobs (fun j => jobFit j && !finiteF32 (recField j 0x28 4)) Code.PRE_JOB_PARAM,
    anyFail js (fun x => (List.range 3).any fun k =>
      let i := jobDesc x.1 k
      let need := k == 0 || (k == 1 && jobKind x.1 == 2) || (k == 2 && jobKind x.1 == 3)
      if need then (d x.2 k).isNone else i != 0xFFFF) Code.PRE_DESC,
    anyFail js (fun x => onAll x fun e => e.rsvdBad || e.planeMissing) Code.PRE_FMT,
    anyFail js (fun x => onAll x fun e => e.fmtCode == 15) Code.PRE_FMT,
    anyFail js (fun x => (match out x with | some e => e.fmtCode == 4 | none => false) ||
      (match d x.2 1 with
        | some e => jobKind x.1 == 2 && (e.spm || e.noTensor || e.fmtCode != 4 || e.e 0 != 4 || decide (e.rows < slots * jobR x.1))
        | none => false) ||
      (match d x.2 2 with
        | some e => jobKind x.1 == 3 && (e.spm || e.noTensor || e.fmtCode != 2 || e.layout != 2 || e.ndim != 4 || e.e 2 != 3 || decide (e.e 3 < slots))
        | none => false)) Code.PRE_FMT,
    anyFail js (fun x => onAll x fun e => e.spm) Code.PRE_SPACE,
    anyFail js (fun x => match out x with
      | some e =>
        let (ch, w, h, n) := e.cwhn
        let f := jobF x.1
        e.ndim != 4 || decide (e.layout < 1) || decide (4 < e.layout) || decide (jobW x.1 < 1) || decide (8192 < jobW x.1) ||
          decide (jobH x.1 < 1) || decide (8192 < jobH x.1) || ch != jobCh x.1 * f * f || w != ceilDiv (jobW x.1) f ||
          h != ceilDiv (jobH x.1) f || decide (n < slots * jobR x.1)
      | none => false) Code.PRE_GEOM,
    anyFail js (fun x => onAll x fun e => e.base % 64 != 0) Code.PRE_ALIGN,
    anyFail js (fun x => onAll x fun e => e.scaleBase % 64 != 0) Code.PRE_ALIGN,
    anyFail js (fun x => onAll x fun e => !s.spansInWindow c e) Code.PRE_WINDOW,
    (let outs := js.map fun x => ((out x).map Desc.spans).getD []
     let others := js.flatMap fun x => ([1, 2].flatMap fun k => ((d x.2 k).map Desc.spans).getD [])
     if (List.range outs.length).any (fun i =>
        spansMeet ((outs.getD i []).take 1) ((outs.getD i []).drop 1) ||
          spansMeet (outs.getD i []) (others ++ ((outs.drop (i + 1)).flatMap id))) then some Code.PRE_OVERLAP else none)]

/-- The plan checks of a step of context c (Table 9.2): the plan, or the code of the first failure. -/
def State.checkPlan (s : State) (c slots : Nat) : Except W16 (List (List Byte) × List (List (Option Desc))) :=
  let n := s.ctx c 0x11
  if n = 0 || 16 < n then .error Code.PRE_PLAN_INDEX
  else
    match s.readPlan c with
    | none => .error Code.PRE_PLAN_UE
    | some (jobs, reads) =>
      match s.planCode c slots jobs reads with
      | some e => .error e
      | none => .ok (jobs, reads.map fun l => l.map DescRead.get)

/-- A code in PRE_ERR with its context and stream (R331). -/
def State.preErr (s : State) (code : W16) (c stream : Nat) : State :=
  s.errReg (preBase + 0x68) (code.toNat + c * 2 ^ 16 + stream * 2 ^ 32)

/-! ### Slots -/

/-- Slot i of a step. -/
def Step.slot? (st : Step) (i : Nat) : Option Slot := st.slots[i]?

/-- The state with slot i of the step of queue q changed. -/
def State.modSlot (s : State) (q i : Nat) (f : Slot → Slot) : State :=
  s.modStep q fun st => { st with slots := st.slots.modify i f }

/-- Slot i of the open step of queue q. -/
def State.slotOf (s : State) (q i : Nat) : Option (Step × Slot) :=
  (s.queue q).held.bind fun st => (st.slot? i).map fun sl => (st, sl)

/-- The step becomes ready when every slot is filled or void, with every write made, and no fill is left (R312, R602). -/
def State.checkReady (s : State) (q : Nat) : State :=
  match (s.queue q).held with
  | some st =>
    if st.state == .filling && st.fills.isEmpty &&
      st.slots.all (fun sl => (sl.state == .filled || sl.state == .void) && !sl.voidDue) then s.becomeReady q else s
  | none => s

/-- Slot i of the step of queue q is filled: its picture's held mark clears (R312). -/
def State.fillSlot (s : State) (q i : Nat) (sl : Slot) : State :=
  let s := match sl.holding, sl.pic with | true, some p => s.unhold p | _, _ => s
  let s := s.countEntry (0x2000 + sl.stream) 0x43 1
  (s.modSlot q i fun x => { x with state := .filled, holding := false }).checkReady q

/-- Slot i of the step of queue q becomes void (R324, R325): its items are abandoned, and its void values are due. The
first code stands (R329). -/
def State.voidSlot (s : State) (q i : Nat) (code : W16) : State :=
  match s.slotOf q i with
  | none => s
  | some (st, sl) =>
    if sl.state == .void || sl.state == .filled || st.state != .filling then s
    else
      let s := s.abandonItems q st (· == i)
      let s := (s.count (preBase + 0x58) 1).countEntry (0x2000 + sl.stream) 0x44 1
      let s := if code = 0 then s
        else (s.setEntry (0x2000 + sl.stream) 0x47 code.toNat).preErr code st.ctx sl.stream
      let due := !st.plan.isEmpty
      let s := if due then s else match sl.holding, sl.pic with | true, some p => s.unhold p | _, _ => s
      (s.modSlot q i fun x => { x with state := .void, status := code, items := [], running := 0, voidDue := due,
                                       holding := x.holding && due }).checkReady q

/-- The work items of a slot (R304, R313): every job once, or once for each region position. -/
def slotItems (plan : List (List Byte)) (host : Bool) : List (Nat × Nat) :=
  (plan.zipIdx).flatMap fun x => if host && jobKind x.1 != 3 then [(x.2, 0)] else (List.range (jobR x.1)).map fun r => (x.2, r)

/-- A slot that has its picture, or a host slot, starts: with no item it is filled at once. -/
def State.startSlot (s : State) (q i : Nat) : State :=
  match s.slotOf q i with
  | none => s
  | some (st, sl) =>
    let items := slotItems st.plan sl.host
    let s := s.modSlot q i fun x => { x with state := .taken, items := items }
    if items.isEmpty then s.fillSlot q i { sl with items := [] } else s

/-- A frame's output-pending mark cleared and the picture out of the delivery queue (R287). -/
def State.takeQueued (s : State) (n idx : Nat) (hold : Bool) : State :=
  ((s.modStream n fun x => { x with
      queue := x.queue.filter (· != idx),
      frames := x.frames.map fun f => if f.pic.decodeIdx = idx && f.output then { f with output := false, held := hold } else f
    }).sweepFrames n).countEntry (0x2000 + n) 0x23 1

/-- SLOT_TAKE_PICTURE (R309, R310): a slot without a picture takes the head of its stream's delivery queue, or the newest
picture with the older ones passed. -/
def execSlotTakePicture (q : QueueId) (slot : Fin 64) (s : State) : Host.Outcome State Fault Refusal :=
  match s.slotOf q.val slot.val with
  | none => go s
  | some (st, sl) =>
    let x := s.stream sl.stream
    if sl.state != .waiting || sl.host || st.state != .filling then go s
    else
      match (if sl.pick = 1 then x.queue.getLast? else x.queue.head?) with
      | none => go s
      | some idx =>
        match x.frames.find? fun f => f.pic.decodeIdx == idx && f.output with
        | none => go s
        | some f =>
          let older := if sl.pick = 1 then x.queue.dropLast else []
          let s := older.foldl (fun s o => (s.takeQueued sl.stream o false).countEntry (0x2000 + sl.stream) 0x46 1) s
          let s := (s.takeQueued sl.stream idx true).modStream sl.stream fun y =>
            { y with tookPts := f.pic.pts, tookDerived := f.pic.ptsDerived, took := true }
          let s := s.modSlot q.val slot.val fun y => { y with pic := some f.pic, holding := true }
          if sl.dmgVoid < damageByte (some f.pic) || (f.pic.taint && sl.taintVoid == 1) then
            go ((s.modSlot q.val slot.val fun y => { y with state := .taken }).voidSlot q.val slot.val Code.PRE_DAMAGED)
          else go (s.startSlot q.val slot.val)

/-- The fill window of queue q closes (R348, R324): no descriptor opens a step of the period any more, slots still without a
picture become void, and so does a slot with unfinished items. -/
def State.closeFill (s : State) (q : Nat) : State :=
  let s := s.setQueue q { (s.queue q) with mayOpen := false }
  match (s.queue q).held with
  | none => s
  | some st =>
    if st.state != .filling then s
    else (st.slots.zipIdx).foldl (fun s x =>
      match x.1.state with
      | .waiting => s.voidSlot q x.2 0
      | .taken => s.voidSlot q x.2 Code.PRE_CLOSED
      | _ => s) s

/-- FILL_CLOSE (R348): a queue without periods has no fill close. -/
def execFillClose (q : QueueId) (s : State) : Host.Outcome State Fault Refusal :=
  if (s.queue q.val).hasPeriods then go (s.closeFill q.val) else go s

/-- Void values over every output position of a slot in one job, and −1 over its RIDX rows (R325); each write may meet a bus error,
which the flag reports, and the other writes are made. -/
def State.voidJob (s : State) (a : Acc1) (j : List Byte) (ds : List (Option Desc)) (slot : Nat) : State × Bool :=
  let put := fun (x : State × Bool) (f : State → Option State) => match f x.1 with | some s => (s, x.2) | none => (x.1, true)
  let x := match ds.getD 0 none with
    | none => (s, false)
    | some d =>
      let (c, w, h, _) := d.cwhn
      (List.range (jobR j)).foldl (fun x r =>
        let n := slot * jobR j + r
        if d.layout = 2 then
          (List.range (h * c)).foldl (fun x k => put x fun s => s.putVoid a d (d.rowOf [k % h, k / h, n]) w) x
        else (List.range (w * h)).foldl (fun x k => put x fun s => s.putVoid a d (d.rowOf [k % w, k / w, n]) c) x) (s, false)
  match ds.getD 1 none with
  | some d => if jobKind j = 2 then
      (List.range (jobR j)).foldl (fun x r =>
        put x fun s => s.putCodes a d (slot * jobR j + r) 0 (List.replicate 4 0xFFFFFFFF)) x else x
  | none => x

/-- SLOT_VOID (R325): the void writes of a void slot; its picture's held mark clears as they begin. -/
def execSlotVoid (q : QueueId) (slot : Fin 64) (s : State) : Host.Outcome State Fault Refusal :=
  match s.slotOf q.val slot.val with
  | none => go s
  | some (st, sl) =>
    if !sl.voidDue || s.vid.power = 2 || 2 ≤ s.power then go s
    else
      let s := match sl.holding, sl.pic with | true, some p => s.unhold p | _, _ => s
      let s := (st.plan.zip st.planDescs).foldl (fun s x => (s.voidJob ⟨0, st.ctx⟩ x.1 x.2 slot.val).1) s
      go ((s.modSlot q.val slot.val fun x => { x with voidDue := false, holding := false }).checkReady q.val)

/-! ### Augmentation records (Table 9.4, R323) -/

/-- An augmentation record that obeys Table 9.4 for a job's filter. -/
def augOk (r : List Byte) (filter : Nat) : Bool :=
  let f := fun (o : Nat) => ofF32 (BitVec.ofNat 32 (recField r o 4))
  let w := recField r 0 2
  let one := Val.pow2 0
  let angle := bitOf w 4
  let unit := fun (v : Val) => one.neg.le v && v.le one
  w / 32 == 0 && recField r 2 2 == 0 && !(angle && filter == 2) &&
    Val.zero.le (f 4) && Val.zero.le (f 8) && (f 4).lt (f 0x0C) && (f 8).lt (f 0x10) && (f 0x0C).le one && (f 0x10).le one &&
    (if angle then unit (f 0x14) && unit (f 0x18) else recField r 0x14 4 == 0 && recField r 0x18 4 == 0) &&
    !(decodeFloat .h16 (recField r 0x1C 2)).isSpecial && !(decodeFloat .h16 (recField r 0x1E 2)).isSpecial

/-- The identity augmentation record (R314). -/
def augIdentity : List Byte :=
  bytesLE 4 0 ++ bytesLE 8 0 ++ bytesLE 4 0x3F800000 ++ bytesLE 4 0x3F800000 ++ bytesLE 8 0 ++ bytesLE 2 0x3C00 ++ bytesLE 2 0

/-! ### From output position to channel values (R314 to R317) -/

/-- The mapping of a work item: letterbox content, base rectangle and augmentation record. -/
structure Mapping where
  cx : Nat
  cy : Nat
  cw : Nat
  ch : Nat
  bx : Nat
  bY : Nat
  bw : Nat
  bh : Nat
  aug : List Byte
  deriving DecidableEq, Repr

/-- Letterbox content area, or the whole output (R314). -/
def mapping (j : List Byte) (rect : Nat × Nat × Nat × Nat) (aug : List Byte) : Mapping :=
  let (bx, bY, bw, bh) := rect
  let ow := jobW j
  let oh := jobH j
  let (cw, ch) :=
    if jobFit j then (if bh * ow ≤ bw * oh then (ow, max 1 (bh * ow / bw)) else (max 1 (bw * oh / bh), oh)) else (ow, oh)
  let (cx, cy) := if jobFit j then ((ow - cw) / 2, (oh - ch) / 2) else (0, 0)
  { cx := cx, cy := cy, cw := cw, ch := ch, bx := bx, bY := bY, bw := bw, bh := bh, aug := aug }

/-- An F32 field of the augmentation record. -/
def Mapping.f (m : Mapping) (o : Nat) : Val := ofF32 (BitVec.ofNat 32 (recField m.aug o 4))

/-- Source coordinates x, y of R314 for the content position (u', v'), which carry the half pixel or an edge. -/
def Mapping.xy (m : Mapping) (u' v' : Val) : Val × Val :=
  let w := recField m.aug 0 2
  let one := Val.pow2 0
  let nat := fun (n : Nat) => Val.ofInt (n : Int)
  let a := fdiv u' (nat m.cw)
  let b := fdiv v' (nat m.ch)
  let a := if bitOf w 0 then fsub one a else a
  let b := if bitOf w 1 then fsub one b else b
  let (a, b) :=
    match field w 3 2 with
    | 1 => (b, fsub one a)
    | 2 => (fsub one a, fsub one b)
    | 3 => (fsub one b, a)
    | _ => (a, b)
  let x := fmul (fadd (m.f 4) (fmul a (fsub (m.f 0x0C) (m.f 4)))) (nat m.bw)
  let y := fmul (fadd (m.f 8) (fmul b (fsub (m.f 0x10) (m.f 8)))) (nat m.bh)
  if bitOf w 4 then
    let hx := fmul (.fin false 1 (-1)) (nat m.bw)
    let hy := fmul (.fin false 1 (-1)) (nat m.bh)
    let dx := fsub x hx
    let dy := fsub y hy
    (fadd hx (fsub (fmul (m.f 0x14) dx) (fmul (m.f 0x18) dy)), fadd hy (fadd (fmul (m.f 0x18) dx) (fmul (m.f 0x14) dy)))
  else (x, y)

/-- A picture source or a planar RGB source: the extents and the reader of each plane, the colour data. -/
inductive Source where
  | pic (p : PicRec)
  | host (d : Desc) (batch : Nat)
  deriving DecidableEq, Repr

/-- Window extent of a plane: 0 Y, 1 Cb, 2 Cr of a picture; R, G, B of a host source (R315). -/
def Source.extent (src : Source) (plane : Nat) : Nat × Nat :=
  match src with
  | .pic p => if plane = 0 then (p.width, p.height) else (ceilDiv p.width 2, ceilDiv p.height 2)
  | .host d _ => (d.e 0, d.e 1)

/-- An index clamped to a plane. -/
def clampIdx (i : Int) (n : Nat) : Nat := (min (max i 0) ((n : Int) - 1)).toNat

/-- A sample of a plane at a clamped index (R315); none is a bus error. -/
def State.sample (s : State) (src : Source) (plane : Nat) (i j : Int) : Option Nat :=
  let (w, h) := src.extent plane
  let x := clampIdx i w
  let y := clampIdx j h
  match src with
  | .pic p =>
    let bps := if p.depth = 8 then 1 else 2
    let off := if plane = 0 then (p.cropTop + y) * p.pitch + (p.cropLeft + x) * bps
      else p.chroma + (p.cropTop / 2 + y) * p.pitch + ((p.cropLeft / 2 + x) * 2 + (plane - 1)) * bps
    (s.memNat (p.addr + off) bps).map fun v => if p.depth = 8 then v else v / 64
  | .host d n => s.memNat (d.base + d.rowOff (d.rowOf [y, plane, n]) + x) 1

/-- All values of a list, or none. -/
def optAll {α : Type} : List (Option α) → Option (List α)
  | [] => some []
  | none :: _ => none
  | some a :: as => (optAll as).map (a :: ·)

/-- Sum of samples over columns and rows, with the count. -/
def State.meanOf (s : State) (src : Source) (plane : Nat) (is js : List Int) : Option Frac :=
  (optAll (js.flatMap fun j => is.map fun i => s.sample src plane i j)).map fun vs =>
    ⟨false, vs.sum, is.length * js.length⟩

/-- Sample indices of a footprint between two edges (R315, area): every k-th of more than 32. -/
def footprint (lo hi : Val) : List Int :=
  let half := Val.fin true 1 (-1)
  let a := ceilVal (Val.add lo half)
  let b := ceilVal (Val.add hi half)
  if b ≤ a then [floorVal ((Val.add lo hi).scale (-1))]
  else
    let n := (b - a).toNat
    let k := ceilDiv n 32
    (List.range (ceilDiv n k)).map fun i => a + ((i * k : Nat) : Int)

/-- The filtered value of a plane (R315): `p` is the sample position of the point filters, `e` the footprint edges. -/
def State.filtered (s : State) (src : Source) (filter plane : Nat) (p : Val × Val) (e : (Val × Val) × (Val × Val)) : Option Frac :=
  let chroma := match src with | .pic _ => plane != 0 | .host _ _ => false
  if filter = 2 then
    let h := fun (v : Val) => if chroma then v.scale (-1) else v
    s.meanOf src plane (footprint (h e.1.1) (h e.1.2)) (footprint (h e.2.1) (h e.2.2))
  else
    let (xs, ys) := if chroma then (p.1.scale (-1), (Val.add p.2 (.fin true 1 (-1))).scale (-1)) else p
    if filter = 0 then
      (s.sample src plane (floorVal (Val.add xs (.fin false 1 (-1)))) (floorVal (Val.add ys (.fin false 1 (-1))))).map fun v => ⟨false, v, 1⟩
    else
      let i0 := floorVal xs
      let j0 := floorVal ys
      let fx := (floorVal ((Val.add xs (Val.ofInt (-i0))).scale 8)).toNat
      let fy := (floorVal ((Val.add ys (Val.ofInt (-j0))).scale 8)).toNat
      (optAll [s.sample src plane i0 j0, s.sample src plane (i0 + 1) j0, s.sample src plane i0 (j0 + 1),
        s.sample src plane (i0 + 1) (j0 + 1)]).map fun v =>
        ⟨false, (256 - fx) * (256 - fy) * v.getD 0 0 + fx * (256 - fy) * v.getD 1 0 + (256 - fx) * fy * v.getD 2 0 +
          fx * fy * v.getD 3 0, 65536⟩

/-- Kr and Kb of Table 9.3 in ten-thousandths. -/
def matrixK (m : Nat) : Nat × Nat := if m = 1 then (2990, 1140) else if m = 3 then (2627, 593) else (2126, 722)

/-- Coefficients c1 to c4 of R317: exact expressions truncated to F32. -/
def matrixCoef (m : Nat) : List Frac :=
  let (r, b) := matrixK m
  let g := 10000 - r - b
  ([⟨false, 2 * (10000 - r), 10000⟩, ⟨false, 2 * b * (10000 - b), 10000 * g⟩, ⟨false, 2 * r * (10000 - r), 10000 * g⟩,
    ⟨false, 2 * (10000 - b), 10000⟩] : List Frac).map Frac.trunc32

/-- The matrix that a job uses for a picture (R317): 1 BT.601, 2 BT.709, 3 BT.2020. -/
def matrixOf (j : List Byte) (p : PicRec) : Nat :=
  if jobMatrix j ≠ 0 then jobMatrix j
  else if p.matrix = 5 || p.matrix = 6 then 1
  else if p.matrix = 1 then 2
  else if p.matrix = 9 || p.matrix = 10 then 3
  else if 576 < p.height then 2 else 1

/-- Channel values of a position before RANGE (R316 steps 1 to 4). -/
def channelVals (src : Source) (j : List Byte) (smp : Nat → Option Frac) : Option (List Frac) :=
  match src with
  | .host _ _ =>
    (optAll ((List.range 3).map smp)).map fun v =>
      let rgb := v.map fun x => x.divNat 255
      match jobOrder j with
      | 2 =>
        let w := ([⟨false, 2126, 10000⟩, ⟨false, 7152, 10000⟩, ⟨false, 722, 10000⟩] : List Frac).map Frac.trunc32
        [(w.zipWith Frac.mul rgb).foldl Frac.add ⟨true, 0, 1⟩]
      | 1 => rgb.reverse
      | _ => rgb
  | .pic p =>
    let q := 2 ^ (p.depth - 8)
    let m := 2 ^ p.depth - 1
    let y' := fun (y : Frac) => if p.fullRange then y.divNat m else (y.sub (.ofInt ((16 * q : Nat) : Int) 1)).divNat (219 * q)
    let c' := fun (c : Frac) => if p.fullRange then (c.sub (.ofInt ((2 ^ (p.depth - 1) : Nat) : Int) 1)).divNat m
      else (c.sub (.ofInt ((128 * q : Nat) : Int) 1)).divNat (224 * q)
    if jobOrder j = 2 then (smp 0).map fun y => [y' y]
    else
      (optAll ((List.range 3).map smp)).map fun v =>
        let y := y' (v.getD 0 ⟨false, 0, 1⟩)
        let pb := c' (v.getD 1 ⟨false, 0, 1⟩)
        let pr := c' (v.getD 2 ⟨false, 0, 1⟩)
        if jobOrder j = 3 then [y, pb.add ⟨false, 1, 2⟩, pr.add ⟨false, 1, 2⟩]
        else
          let k := matrixCoef (matrixOf j p)
          let c := fun i => k.getD i ⟨false, 0, 1⟩
          let rgb := [y.add ((c 0).mul pr), (y.sub ((c 1).mul pb)).sub ((c 2).mul pr), y.add ((c 3).mul pb)]
          if jobOrder j = 1 then rgb.reverse else rgb

/-- Values of the channels of output position (u, v) of a work item, ready for conversion (R316); none is a bus error. -/
def State.position (s : State) (src : Source) (j : List Byte) (m : Mapping) (u v : Nat) : Option (List Val) :=
  let half := Val.fin false 1 (-1)
  let nat := fun (n : Nat) => Val.ofInt (n : Int)
  let chans :=
    if u < m.cx || m.cx + m.cw ≤ u || v < m.cy || m.cy + m.ch ≤ v then
      some (List.replicate (jobCh j) (Frac.ofVal (jobF32 j 0x28)))
    else
      let u' := nat (u - m.cx)
      let v' := nat (v - m.cy)
      let (x, y) := m.xy (fadd u' half) (fadd v' half)
      let xs := fsub (fadd (nat m.bx) x) half
      let ys := fsub (fadd (nat m.bY) y) half
      let col := fun (w : Val) => (m.xy w (fadd v' half)).1
      let row := fun (w : Val) => (m.xy (fadd u' half) w).2
      let (x0, x1) := (col u', col (fadd u' (.pow2 0)))
      let (y0, y1) := (row v', row (fadd v' (.pow2 0)))
      let ord := fun (b : Nat) (p q : Val) => if q.lt p then (Val.add (nat b) q, Val.add (nat b) p) else (Val.add (nat b) p, Val.add (nat b) q)
      channelVals src j fun pl => s.filtered src (jobFilter j) pl (xs, ys) (ord m.bx x0 x1, ord m.bY y0 y1)
  chans.map fun cs =>
    let gain := Frac.ofVal (decodeFloat .h16 (recField m.aug 0x1C 2))
    let off := Frac.ofVal (decodeFloat .h16 (recField m.aug 0x1E 2))
    cs.zipIdx.map fun c =>
      (((((c.1.mul gain).add off).mul (Frac.ofVal (jobF32 j 0x0C))).sub (Frac.ofVal (jobF32 j (0x10 + 4 * c.2)))).mul
        (Frac.ofVal (jobF32 j (0x1C + 4 * c.2)))).toVal

/-- Channel values of a tensor position of a regrouped output (R319): sub-positions in the order of R168, with the void
value beyond the output. -/
def State.tensorPos (s : State) (src : Source) (j : List Byte) (m : Mapping) (x y : Nat) : Option (List Val) :=
  let f := jobF j
  (optAll ((List.range (f * f)).map fun k =>
    let u := x * f + k % f
    let v := y * f + k / f
    if u < jobW j && v < jobH j then s.position src j m u v else some (List.replicate (jobCh j) Val.zero))).map fun l => l.flatMap id

/-- The writes of one work item over its output positions, with the saturations; none is a bus error. -/
def State.writeItem (s : State) (a : Acc1) (src : Source) (j : List Byte) (m : Mapping) (d : Desc) (n : Nat) : Option (State × Nat) :=
  let (c, w, h, _) := d.cwhn
  let step := fun (acc : Option (State × Nat)) (r : Nat) (vals : State → Option (List Val)) =>
    acc.bind fun sc => (vals sc.1).bind fun vs => (sc.1.putVals a d r 0 vs).map fun x => (x.1, sc.2 + x.2)
  if d.layout = 2 then
    (List.range (h * c)).foldl (fun acc k =>
      step acc (d.rowOf [k % h, k / h, n]) fun s =>
        optAll ((List.range w).map fun x => (s.tensorPos src j m x (k % h)).bind fun l => l[k / h]?)) (some (s, 0))
  else
    (List.range (w * h)).foldl (fun acc k =>
      step acc (d.rowOf [k % w, k / w, n]) fun s => s.tensorPos src j m (k % w) (k / w)) (some (s, 0))

/-! ### Work items (R327, R312, R318) -/

/-- Void values of a slot are due. -/
def State.voidsDue (s : State) : Bool := s.openSteps.any fun x => x.2.slots.any (·.voidDue)

/-- Candidates of R327 with the key close time, context, slot, job, region. -/
def State.readyItems (s : State) : List (List Nat × Item) :=
  s.openSteps.flatMap fun x =>
    if x.2.state != .filling then []
    else (x.2.slots.zipIdx).flatMap fun y =>
      if y.1.state == .taken then
        y.1.items.map fun it => ([x.2.closeAt, x.2.ctx, y.2, it.1, it.2], ⟨x.1, y.2, it.1, it.2⟩)
      else []

/-- Lexicographic order of keys. -/
def lexLe : List Nat → List Nat → Bool
  | [], _ => true
  | _, [] => false
  | a :: as, b :: bs => decide (a < b) || (a == b && lexLe as bs)

/-- The best ready item. -/
def State.bestItem (s : State) : Option Item :=
  match s.readyItems with
  | [] => none
  | x :: xs => some (xs.foldl (fun b y => if lexLe b.1 y.1 then b else y) x).2

/-- WORK_ITEM_START (R311, R322, R327): a free enabled engine takes the best item; the slot's first item latches the
region list, and the first that needs it reads the augmentation record. -/
def execWorkItemStart (e : Fin 4) (s : State) : Host.Outcome State Fault Refusal :=
  if (Tbl.get none s.vid.pre e.val).isSome || !(s.entry 0x2100 0x01).testBit e.val || s.vid.power ≠ 0 then go s
  else
    match s.bestItem with
    | none => go s
    | some it =>
      match s.slotOf it.queue it.slot with
      | none => go s
      | some (st, sl) =>
        let j := st.plan.getD it.job []
        let latched := match sl.latched with
          | some l => some l
          | none => if sl.host then some [] else s.regionBytes sl.stream
        let need := jobAug j && st.aug && !(sl.host && jobKind j != 3)
        let read := if need then (match sl.aug with
          | some r => some r
          | none => s.memRead (s.ctx st.ctx 0x07 + st.augOff + 32 * it.slot) 32) else some augIdentity
        match read, latched with
        | some r, some latched =>
          if need && !augOk r (jobFilter j) then go (s.voidSlot it.queue it.slot Code.PRE_AUG)
          else
            let s := { s with vid := { s.vid with pre := Tbl.set none s.vid.pre e.val (some it) } }
            go (s.modSlot it.queue it.slot fun x => { x with
              latched := some latched, aug := if need then some r else x.aug,
              items := x.items.erase (it.job, it.region), running := x.running + 1 })
        | _, _ => go (s.voidSlot it.queue it.slot Code.PRE_MEM_UE)

/-- The base rectangle of region position r of a latched list (R318), none for a void position. -/
def regionRect (list : List Byte) (r : Nat) (p : PicRec) : Option (Nat × Nat × Nat × Nat) :=
  if recField list 0 1 ≤ r then none
  else
    let o := 16 + 16 * r
    let x0 := min (recField list o 2) p.width
    let y0 := min (recField list (o + 2) 2) p.height
    let x1 := min (recField list (o + 4) 2) p.width
    let y1 := min (recField list (o + 6) 2) p.height
    if x1 ≤ x0 || y1 ≤ y0 then none else some (x0, y0, x1 - x0, y1 - y0)

/-- The row of region coordinates of a job: the four values of region n in its second descriptor, where it has one. -/
def State.putRegionRow (s : State) (a : Acc1) (ds : List (Option Desc)) (n : Nat) (cs : List Nat) : Option State :=
  match ds.getD 1 none with
  | some rd => s.putCodes a rd n 0 cs
  | none => some s

/-- Tensor n of descriptor d void. -/
def State.voidTensor (s : State) (a : Acc1) (d : Desc) (n : Nat) : Option State :=
  let (c, w, h, _) := d.cwhn
  if d.layout = 2 then
    (List.range (h * c)).foldl (fun (o : Option State) k => o.bind fun s => s.putVoid a d (d.rowOf [k % h, k / h, n]) w) (some s)
  else (List.range (w * h)).foldl (fun (o : Option State) k => o.bind fun s => s.putVoid a d (d.rowOf [k % w, k / w, n]) c) (some s)

/-- The effect of a work item on memory (R313, R316, R318): the state, the output positions written and the saturations;
none is a bus error. -/
def State.runItem (s : State) (st : Step) (sl : Slot) (it : Item) : Option (State × Nat × Nat) :=
  let j := st.plan.getD it.job []
  let ds := st.planDescs.getD it.job []
  let a : Acc1 := ⟨0, st.ctx⟩
  let aug := if jobAug j && st.aug then sl.aug.getD augIdentity else augIdentity
  let area := jobW j * jobH j
  match ds.getD 0 none with
  | none => some (s, 0, 0)
  | some d =>
    if sl.host && jobKind j ≠ 3 then
      match s.voidJob a j ds it.slot with
      | (s, false) => some (s, 0, 0)
      | _ => none
    else if jobKind j = 3 then
      match ds.getD 2 none with
      | none => some (s, 0, 0)
      | some sd => (s.writeItem a (.host sd it.slot) j (mapping j (0, 0, sd.e 0, sd.e 1) aug) d it.slot).map fun x => (x.1, area, x.2)
    else
      match sl.pic with
      | none => some (s, 0, 0)
      | some p =>
        if jobKind j = 1 then
          (s.writeItem a (.pic p) j (mapping j (0, 0, p.width, p.height) aug) d it.slot).map fun x => (x.1, area, x.2)
        else
          let n := it.slot * jobR j + it.region
          match regionRect (sl.latched.getD []) it.region p with
          | none =>
            ((s.voidTensor a d n).bind fun s => s.putRegionRow a ds n (List.replicate 4 0xFFFFFFFF)).map fun s =>
              (s.countEntry (0x2000 + sl.stream) 0x45 1, 0, 0)
          | some (x, y, w, h) =>
            ((s.writeItem a (.pic p) j (mapping j (x, y, w, h) aug) d n).bind fun r =>
              (r.1.putRegionRow a ds n [x, y, x + w, y + h]).map fun s => (s, area, r.2))

/-- WORK_ITEM_DONE (R312, R316): the item on an engine makes its writes; a bus error voids the slot; the slot's last item
fills it. -/
def execWorkItemDone (e : Fin 4) (cycles : Nat) (s : State) : Host.Outcome State Fault Refusal :=
  match Tbl.get none s.vid.pre e.val with
  | none => go s
  | some it =>
    let s := { s with vid := { s.vid with pre := Tbl.set none s.vid.pre e.val none } }
    match s.slotOf it.queue it.slot with
    | none => go (s.count (preBase + 0x20 + 8 * e.val) cycles)
    | some (st, sl) =>
      let s := s.preBusy e.val st.ctx cycles
      match s.runItem st sl it with
      | none => go (s.voidSlot it.queue it.slot Code.PRE_MEM_UE)
      | some (s, px, sat) =>
        let s := (s.count (preBase + 0x40) px).count (preBase + 0x48) sat
        let s := if !st.isWork sl it.job then s else (s.count (preBase + 0x50) 1).countEntry 0x2100 0x02 1
        let s := s.countEntry 0x2100 0x03 px
        let s := s.modSlot it.queue it.slot fun x => { x with running := x.running - 1 }
        if sl.running ≤ 1 && sl.items.isEmpty then go (s.fillSlot it.queue it.slot sl) else go s

end Sys2Proof.Machine
end

