-- ==== Sys2Proof/Machine/Loader.lean ====
section
/-! DEFINITION. What every engine's loader checks share: which rank runs on an Ibex, instruction fields, descriptor checks,
the output-pipe parameter set and the layer record (R127, R144 to R146, R194, R204; Table 4.5). -/

namespace Sys2Proof.Machine

/-! ### Ranks and run-time faults -/

/-- The running step on Ibex n: its queue, the step, the rank's number and the rank. -/
def State.rankOf (s : State) (n : Nat) : Option (Nat × Step × Nat × Rank) :=
  (s.openSteps.find? fun x => x.2.state == .running && x.2.ranks.any fun r => r.ibex == n).bind fun x =>
    ((x.2.ranks.zipIdx).find? fun r => r.1.ibex == n).map fun r => (x.1, x.2, r.2, r.1)

/-- The state with rank r of the step of queue q changed. -/
def State.modRank (s : State) (q r : Nat) (f : Rank → Rank) : State :=
  s.modStep q fun st => { st with ranks := st.ranks.modify r f }

/-- WLK_LOAD_ERR takes a code (Table 4.6). -/
def State.loadErr (s : State) (n : Nat) (code : W16) (c operand idx : Nat) : State :=
  s.errReg (ibexReg n 2 0x48) (code.toNat + c % 1024 * 2 ^ 16 + operand % 8 * 2 ^ 26 + idx % 65536 * 2 ^ 32)

/-- `n` bytes of fresh values. -/
def State.freshBytes (s : State) (n : Nat) : List Byte × State :=
  ((List.range (n / 8)).flatMap fun i => bytesLE 8 (Sys2Proof.Config.freeWord (s.fresh + i)).toNat, { s with fresh := s.fresh + n / 8 })

/-! ### Fields of a macro-instruction -/

/-- Field of `n` bytes at offset `o`. -/
abbrev insF (raw : List Byte) (o n : Nat) : Nat := recField raw o n

/-- Opcode. -/
def opcode (raw : List Byte) : Nat := insF raw 0 1

/-- Every byte of a range of offsets is 0. -/
def zeroBytes (raw : List Byte) (lo hi : Nat) : Bool := ((raw.drop lo).take (hi - lo)).all (· == 0)

/-- SYNC of an instruction that has it: bit 6 of byte 1 (R138). -/
def syncBit (raw : List Byte) : Bool := decide (2 < opcode raw) && bitOf (insF raw 1 1) 6

/-! ### Checks -/

/-- What a failed check reports: its code and WLK_LOAD_ERR.OPERAND. -/
abbrev Fail := W16 × Nat

/-- One check over operands: the first that fails. -/
def chk (code : W16) (xs : List (Nat × Bool)) : Option Fail := (xs.find? (·.2)).map fun x => (code, x.1)

/-- One check of the instruction itself. -/
def chk1 (code : W16) (bad : Bool) : Option Fail := if bad then some (code, 0) else none

/-- The first failure of checks in order. -/
def firstFail : List (Option Fail) → Option Fail
  | [] => none
  | some c :: _ => some c
  | none :: cs => firstFail cs

/-- A check of every operand descriptor. -/
def chkD (code : W16) (ds : List (Nat × Desc)) (bad : Desc → Bool) : Option Fail := chk code (ds.map fun d => (d.1, bad d.2))

/-- Step 7 of Table 4.5. -/
def step7 (ds : List (Nat × Desc)) : List (Option Fail) := [
  chkD Code.WALK_FMT_RSVD ds fun d => d.fmtCode == 15,
  chkD Code.WALK_DESC_RSVD ds Desc.rsvdBad,
  chkD Code.WALK_NDIM ds fun d => decide (d.ndim < 1) || decide (6 < d.ndim),
  chkD Code.WALK_LAYOUT ds fun d => decide (4 < d.layout)]

/-- An extent in use meets a condition. -/
def Desc.someExt (d : Desc) (p : Nat → Bool) : Bool := (List.range (min d.ndim 6)).any fun i => p (d.e i)

/-- Extents of 0, and extents above the limit (Table 4.1). -/
def extZero (ds : List (Nat × Desc)) : List (Nat × Bool) := ds.map fun d => (d.1, d.2.someExt (· == 0))
/-- Extents above 16,777,215. -/
def extBig (ds : List (Nat × Desc)) : List (Nat × Bool) := ds.map fun d => (d.1, d.2.someExt fun e => decide (16777215 < e))

/-- Bytes of the scratchpad partition of context c. -/
def State.partSize (s : State) (c : Nat) : Nat := s.ctx c 0x08 * 262144

/-- A span lies inside the window, or inside the partition. -/
def State.spanOk (s : State) (c : Nat) (p : Span) : Bool :=
  if p.spm then decide (p.base + p.len ≤ s.partSize c) else s.inWindow c p.base p.len

/-- Steps 11 to 13 of Table 4.5 without a staging area. -/
def State.steps11 (s : State) (c : Nat) (ds : List (Nat × Desc)) : List (Option Fail) := [
  chkD Code.WALK_ALIGN ds fun d => d.base % 64 != 0 || d.scaleBase % 64 != 0,
  chkD Code.WALK_WINDOW ds fun d => !d.spm && d.spans.any fun p => !s.spanOk c p,
  chkD Code.WALK_SPM_FIT ds fun d => d.spm && d.spans.any fun p => !s.spanOk c p]

/-- A zero point on a format that has none, or an S4 zero point that is not sign-extended (R126, Table 4.1). Without ZP_EN the
field is not looked at (DESIGN CHOICE, log entry 56). -/
def Desc.zpBad (d : Desc) : Bool :=
  d.zpEn && (match d.fmt with
    | .u8 | .s8 => false
    | .s4 => decide (sext 8 d.zpByte < -8) || decide (7 < sext 8 d.zpByte)
    | _ => true)

/-- The scale plane of a block-scaled tensor is missing or does not lie in its space (R69). -/
def State.scaleBad (s : State) (c : Nat) (d : Desc) : Bool :=
  d.fmt.isBlock && (!d.scaleEn || !s.spanOk c ⟨d.spm, d.scaleBase, d.scaleLen⟩)

/-- Output strides nest (R141). -/
def Desc.nests (d : Desc) : Bool :=
  decide (d.ndim < 2) || (decide (d.rowBytes ≤ 64 * d.st 1) &&
    (List.range (min d.ndim 6)).all fun i => decide (i < 2) || decide (d.st (i - 1) * d.e (i - 1) ≤ d.st i))

/-- A descriptor operand of an instruction: operand number, index, and whether it may be absent (0xFFFF). -/
structure DescOp where
  op       : Nat
  idx      : Nat
  optional : Bool

/-- An optional operand that names no tensor. -/
def DescOp.absent (o : DescOp) : Bool := o.optional && o.idx == 0xFFFF

/-- WALK_DESC_INDEX: an operand beyond the table, or absent where a tensor is required. -/
def State.idxFail (s : State) (c : Nat) (os : List DescOp) : Option Fail :=
  chk Code.WALK_DESC_INDEX (os.map fun o => (o.op, !o.absent && (o.idx == 0xFFFF || decide (s.ctx c 0x0B ≤ o.idx))))

/-- Steps 5 to 7 of Table 4.5: the descriptors of an instruction, none where an optional one is absent. -/
def State.loadDescs (s : State) (c : Nat) (os : List DescOp) : Except Fail (List (Option Desc)) :=
  match s.idxFail c os with
  | some f => .error f
  | none =>
    let rs := os.map fun o => (o, if o.absent then .noIndex else s.readDesc c o.idx)
    match chk Code.WALK_DESC_UE (rs.map fun r => (r.1.op, r.2 == .ue)) with
    | some f => .error f
    | none =>
      match firstFail (step7 (rs.filterMap fun r => r.2.get.map fun d => (r.1.op, d))) with
      | some f => .error f
      | none => .ok (rs.map fun r => r.2.get)

/-- Descriptors with their operand numbers. -/
def descsOf (os : List Nat) (ds : List (Option Desc)) : List (Nat × Desc) :=
  (os.zip ds).filterMap fun x => x.2.map fun d => (x.1, d)

/-- Spans of optional descriptors. -/
def spansOf (ds : List (Option Desc)) : List Span := ds.flatMap fun d => (d.map Desc.spans).getD []

/-! ### The output-pipe parameter set (R194, Table 6.1) -/

/-- SCALE_MODE. -/
def opsScaleMode (o : List Byte) : Nat := field (recField o 0 1) 1 0
/-- A flag of byte 0: 2 BIAS_EN, 3 CLAMP_EN, 4 WSUM_EN, 5 RAW, 6 PSPACE. -/
def opsBit (o : List Byte) (i : Nat) : Bool := bitOf (recField o 0 1) i
/-- SCALE, CLAMP_LO or CLAMP_HI as a value. -/
def opsF32 (o : List Byte) (off : Nat) : Val := ofF32 (BitVec.ofNat 32 (recField o off 4))

/-- The vectors in use as plain tensors: SCALE, BIAS, WSUM with `n` elements each. -/
def opsVecs (o : List Byte) (n : Nat) : List Desc :=
  let mk := fun (off fmt : Nat) => ({
    base := recField o off 8, ext := [n, 1, 1, 1, 1, 1], stride := [0, 0, 0, 0, 0, 0], fmtCode := fmt, ndim := 1,
    spm := opsBit o 6, layout := 0, zpEn := false, scaleEn := false, rsvd := false, zpByte := 0, scaleBase := 0 } : Desc)
  (if opsScaleMode o = 2 then [mk 0x10 Fmt.f32.code] else []) ++ (if opsBit o 2 then [mk 0x18 Fmt.f32.code] else []) ++
    (if opsBit o 4 then [mk 0x20 Fmt.s32.code] else [])

/-- Step 16 of Table 4.5 (R226): the parameter set of an MM or WCONV with tensors A and C and tile width TN. -/
def State.loadOpset (s : State) (c idx : Nat) (a cd : Desc) (tn : Nat) : Except Fail (List Byte) :=
  if s.ctx c 0x0D ≤ idx then .error (Code.QNT_OPSET_INDEX, 0)
  else match s.memRead (s.ctx c 0x07 + s.ctx c 0x0C + 64 * idx) 64 with
    | none => .error (Code.QNT_PARAM_UE, 0)
    | some o =>
      let mode := opsScaleMode o
      let (bias, clamp, wsum, raw) := (opsBit o 2, opsBit o 3, opsBit o 4, opsBit o 5)
      let isInt := a.fmt.isInt
      let vs := opsVecs o (cd.e 0)
      let bad := firstFail [
        chk1 Code.QNT_OPSET_RSVD (opsBit o 7 || !zeroBytes o 1 4 || !zeroBytes o 0x28 64 ||
          (mode != 1 && recField o 4 4 != 0) || (!clamp && (recField o 8 4 != 0 || recField o 0x0C 4 != 0)) ||
          (mode != 2 && recField o 0x10 8 != 0) || (!bias && recField o 0x18 8 != 0) || (!wsum && recField o 0x20 8 != 0) ||
          (vs.isEmpty && opsBit o 6)),
        chk1 Code.QNT_SCALE_MODE (mode == 3 || (mode == 1 && (opsF32 o 4).isSpecial)),
        chk1 Code.QNT_RAW (raw && (cd.fmt != (if isInt then .s32 else .f32) || mode != 0 || bias || clamp || wsum || cd.zpEn)),
        chk1 Code.QNT_CLAMP (clamp && ((opsF32 o 8).isNaN || (opsF32 o 0x0C).isNaN || (opsF32 o 0x0C).lt (opsF32 o 8))),
        chk1 Code.QNT_ZP_PAIR (!raw && wsum != (isInt && a.zpEn)),
        chk1 Code.QNT_BLOCK_TILE (cd.fmt.isBlock && tn % 32 != 0 && decide (tn < cd.e 0)),
        chk1 Code.QNT_PARAM_ALIGN (vs.any fun d => d.base % 64 != 0),
        chk1 Code.QNT_PARAM_WINDOW (vs.any fun d => d.spans.any fun p => !s.spanOk c p),
        chk Code.WALK_OUT_OVERLAP [(3, spansMeet cd.spans (vs.flatMap Desc.spans))]]
      match bad with
      | some f => .error f
      | none => .ok o

/-! ### The layer record (R204, Table 6.2) -/

/-- POLICY: 0 AUTO, 1 NEVER, 2 ALWAYS, 3 SKIP. -/
def layPolicy (r : List Byte) : Nat := recField r 4 1 % 4

/-- The layer record of a LAYER instruction at index `idx` of a schedule of `len` instructions (R204, R212). -/
def State.loadLayer (s : State) (c : Nat) (raw : List Byte) (wide : Bool) (idx len : Nat) : Except Fail (List Byte) :=
  let i := insF raw 2 2
  if wide then .error (Code.QNT_WIDE_RANGE, 0)
  else if s.ctx c 0x0F ≤ i then .error (Code.QNT_LAYER, 0)
  else match s.memRead (s.ctx c 0x07 + s.ctx c 0x0E + 32 * i) 32 with
    | none => .error (Code.QNT_PARAM_UE, 0)
    | some r =>
      let p := layPolicy r
      let (first, count, res, stats) := (recField r 8 2, recField r 0x0A 2, recField r 0x0C 2, recField r 0x10 8)
      let bad := firstFail [
        chk1 Code.QNT_LAYER_RSVD (recField r 4 4 / 4 != 0 || recField r 0x0E 2 != 0 || recField r 0x18 8 != 0),
        chk1 Code.QNT_WIDE_RANGE ((if p = 0 ∨ p = 2 then count == 0 || decide (len < first + count) else first != 0 || count != 0) ||
          (if p = 1 then res != 0 else decide (res ≤ idx) || decide (len ≤ res))),
        chk1 Code.QNT_PARAM_ALIGN (stats % 32 != 0),
        chk1 Code.QNT_PARAM_WINDOW (stats != 0 && !s.inWindow c stats 32)]
      match bad with
      | some f => .error f
      | none => .ok r

/-- Fields of the statistics record raised, each saturating (R210, Table 6.3): SAT_TOTAL, STEPS, OVER, RERUNS, SKIPS, the new
LAST_COUNT if any, and WIDE_SAT. None is a bus error. -/
def State.layerStats (s : State) (layer : List Byte) (total steps past reruns skips : Nat) (last : Option (Bool × Nat)) (wide : Nat) :
    Option State :=
  let a := recField layer 0x10 8
  if a = 0 then some s
  else (s.memRead a 32).bind fun r =>
    let s := s.count (memBase + 0x4020) 1
    let up := fun (o n k : Nat) => bytesLE n (min (recField r o n + k) (256 ^ n - 1))
    s.memWrite a (up 0 8 total ++ up 8 4 steps ++ up 0x0C 4 past ++ up 0x10 4 reruns ++ up 0x14 4 skips ++
      (match last with | some l => bytesLE 4 (min ((if l.1 then recField r 0x18 4 else 0) + l.2) 0xFFFFFFFF) | none => bytesLE 4 (recField r 0x18 4)) ++ up 0x1C 4 wide)

end Sys2Proof.Machine
end

