-- ==== Sys2Proof/Machine/Tiles.lean ====
section
/-! DEFINITION. Shapes and regions of the Braid, tiles and their visit order, the shares of clusters, and the loader checks that
MM and WCONV have in common (R78, R92 to R100, R126, R129 to R141; Tables 2.6, 2.7, 3.2, 3.5, 4.5). -/

namespace Sys2Proof.Machine

/-! ### Shapes (Table 3.5) -/

/-- Strands of a region. -/
def shapeStrands (shape : Nat) : Nat := if shape = 1 then 128 else if shape = 2 then 64 else 256
/-- Quarters of a region. -/
def shapeQuarters (shape : Nat) : Nat := shapeStrands shape / 64
/-- Highest REGION of a shape. -/
def shapeRegions (shape : Nat) : Nat := if shape = 1 then 1 else if shape = 2 then 3 else 0
/-- First quarter of a region, which is the region's key in the state: regions of different shapes that begin at one quarter
alternate one parity (DESIGN CHOICE, log entry 51). -/
def regionKey (shape region : Nat) : Nat := region * shapeQuarters shape

/-- K per pass (Table 3.2). -/
def kPerPass (f : Fmt) (shape : Nat) : Nat :=
  if shape = 5 then 128 else if f.bits = 4 then 512 else if f.bits = 16 then 128 else 256

/-! ### Formats (Tables 2.6 and 2.7) -/

/-- A format that the Braid takes as an activation: F32 only in the three-pass split. -/
def Fmt.braidAct (f : Fmt) (shape : Nat) : Bool := f != .s32 && (f != .f32 || shape == 5)
/-- A format that the Braid takes as a weight. -/
def Fmt.braidWgt (f : Fmt) (shape : Nat) : Bool := f.braidAct shape && f != .u8
/-- A float format of eight bits or six. -/
def Fmt.isF8 (f : Fmt) : Bool := f == .e4m3 || f == .e5m2 || f == .e3m2 || f == .e2m3
/-- An activation and a weight format form a row of Table 2.7. -/
def pairOk (a w : Fmt) : Bool := (a == w && a != .u8 && a != .s32) || (a == .u8 && w == .s8) || (a.isF8 && w.isF8)
/-- Accumulator format of a pair. -/
def accFmt (a : Fmt) : Fmt := if a.isInt then .s32 else .f32

/-! ### The visit order (R133) -/

/-- The least p with 2 ^ p ≥ n. -/
def clog2 (n : Nat) : Nat := if n ≤ 1 then 0 else Nat.log2 (n - 1) + 1

/-- The loop of R133 from Hilbert index `t` to (x, y), with `s` doubled each round. -/
def hilbert : Nat → Nat → Nat → Nat → Nat → Nat × Nat
  | 0, _, _, x, y => (x, y)
  | k + 1, s, t, x, y =>
    let rx := t / 2 % 2
    let ry := (t ^^^ rx) % 2
    let (x, y) := if ry = 0 then (if rx = 1 then (s - 1 - y, s - 1 - x) else (y, x)) else (x, y)
    hilbert k (2 * s) (t / 4) (x + s * rx) (y + s * ry)

/-- Tiles (row, column) of a grid in visit order. -/
def visitOrder (rows cols : Nat) : List (Nat × Nat) :=
  let p := clog2 (max rows cols)
  (List.range (4 ^ p)).filterMap fun d =>
    let (x, y) := hilbert p 1 d 0 0
    if x < cols ∧ y < rows then some (y, x) else none

/-- The share of cluster c of `g`: first index, and the index after the last (R135, R137). -/
def share (c g n : Nat) : Nat × Nat := (c * n / g, (c + 1) * n / g)

/-! ### What a matrix instruction asks for -/

/-- Band parameters of DW in lanes (R96), a lane pair counting as one lane for a 16-bit format (R97), and the elements that a lane
of the band holds: 2 for a 4-bit MM, whose row of W then has 2 B elements, else 1 (log entry 50). -/
structure Band where
  per   : Nat
  b     : Nat
  s0    : Nat
  rep   : Nat
  step  : Nat
  sUsed : Nat
  deriving DecidableEq, Repr

/-- First lane of the band of a strand (R96). -/
def Band.first (b : Band) (strand : Nat) : Nat := b.s0 + strand / b.rep * b.step

/-- First element position of the band of a strand. -/
def Band.pos (b : Band) (strand : Nat) : Nat := b.first strand * b.per

/-- Elements of a band. -/
def Band.width (b : Band) : Nat := b.b * b.per

/-- Window geometry (R159, R160, R165, R166, R178, R179): X' of hp × wp × cp after regrouping by f, output of ho × wo for nb
images, and the rank's share of output rows with the origins of a stripe. -/
structure Win where
  x    : Desc
  c    : Desc
  f    : Nat
  hp   : Nat
  wp   : Nat
  cp   : Nat
  kh   : Nat
  kw   : Nat
  sh   : Nat
  sw   : Nat
  dlh  : Nat
  dlw  : Nat
  pt   : Nat
  pl   : Nat
  pad  : Nat
  ho   : Nat
  wo   : Nat
  nb   : Nat
  y0   : Nat
  hr   : Nat
  outOrg : Int
  inOrg  : Int
  /-- DW: channels in and out of a group, input columns of a vector, output columns of a vector -/
  cgIn  : Nat
  cgOut : Nat
  cols  : Nat
  oc    : Nat
  deriving DecidableEq, Repr

/-- A matrix product as the walker runs it (R129, R130, R132, R164): `m` rows of activation vectors in `tm`-row tiles, tile
columns `tn` strands wide, `kpp` positions per pass out of `k`. -/
structure Mat where
  shape  : Nat
  region : Nat
  dbuf   : Bool
  split  : Nat
  tm     : Nat
  tn     : Nat
  entry  : Nat
  a      : Desc
  w      : Desc
  c      : Desc
  part   : Option Desc
  kpp    : Nat
  m      : Nat
  n      : Nat
  k      : Nat
  /-- tile columns -/
  tcols  : Nat
  band   : Option Band
  win    : Option Win
  ops    : List Byte
  deriving DecidableEq, Repr

/-- Passes of a tile over K. -/
def Mat.slices (t : Mat) : Nat := ceilDiv t.k t.kpp
/-- Tile rows. -/
def Mat.trows (t : Mat) : Nat := ceilDiv t.m t.tm
/-- Rows of a tile (Table 4.4). -/
def Mat.rowsOf (t : Mat) (p : Pass) : Nat := min t.tm (t.m - t.tm * p.row)
/-- First entry of a pass within the partition (Table 4.4). -/
def Mat.entryOf (t : Mat) (p : Pass) : Nat := t.entry + (if t.dbuf then t.tm * (p.ordinal % 2) else 0)
/-- Integer operand pair. -/
def Mat.isInt (t : Mat) : Bool := t.a.fmt.isInt

/-- The passes of the share of cluster `rank` of `g` in the order of R133, with the three parts of the split in F32S (R99). A
WCONV split by rows has the rows of its share already. -/
def Mat.passes (t : Mat) (rank g : Nat) : List Pass :=
  let (r0, r1) := if t.split = 1 ∧ t.win.isNone then share rank g t.trows else (0, t.trows)
  let (c0, c1) := if t.split = 0 then share rank g t.tcols else (0, t.tcols)
  let (k0, k1) := if t.split = 2 then share rank g t.slices else (0, t.slices)
  let parts := if t.shape = 5 then 3 else 1
  (visitOrder (r1 - r0) (c1 - c0)).zipIdx.flatMap fun x =>
    (List.range (k1 - k0)).flatMap fun i => (List.range parts).map fun p =>
      { row := r0 + x.1.1, col := c0 + x.1.2, slice := k0 + i, part := p, ordinal := x.2,
        first := i == 0 && p == 0, last := i + 1 == k1 - k0 && p + 1 == parts }

/-! ### Checks of MM and WCONV -/

/-- Step 9 of Table 4.5 for tensors A, W, C and PART, but for the zero points. -/
def State.formatChecks (s : State) (c shape : Nat) (a w cd : Desc) (part : Option Desc) : List (Option Fail) :=
  let ds := descsOf [1, 2, 3, 4] [some a, some w, some cd, part]
  [chk Code.WALK_FMT_ROLE [(1, !a.fmt.braidAct shape), (2, !w.fmt.braidWgt shape)],
    chk1 Code.WALK_FMT_PAIR (!pairOk a.fmt w.fmt),
    chk Code.WALK_FMT_ROLE [(4, match part with | some p => p.fmt != accFmt a.fmt | none => false)],
    chk Code.BRD_SPLIT_FMT [(1, shape == 5 && a.fmt != .f32), (2, shape == 5 && w.fmt != .f32)],
    chkD Code.WALK_FMT_SCALE ds fun d => s.scaleBad c d]

/-- The zero points of A, W, C and PART (R126). -/
def zpChecks (a w cd : Desc) (part : Option Desc) : Option Fail :=
  chk Code.WALK_ZP [(1, a.zpBad), (2, w.zpEn), (3, cd.zpBad), (4, match part with | some p => p.zpEn | none => false)]

/-- The staging area that an instruction names (R131). -/
def stageSpan (raw : List Byte) : Span := ⟨true, insF raw 0x20 2 * 4096, insF raw 0x22 2 * 4096⟩

/-- Step 13 for the staging area: inside the partition, large enough for two copies of `staged` bytes and 0 without a staged
operand, and disjoint from the inputs. -/
def State.stageChecks (s : State) (c : Nat) (raw : List Byte) (staged : Nat) (inputs : List Desc) : List (Option Fail) :=
  let st := stageSpan raw
  [chk Code.WALK_SPM_FIT [(5, !s.spanOk c st)],
    chk Code.WALK_SPM_FIT [(5, decide (st.len < 2 * staged) || (staged == 0 && (st.base != 0 || st.len != 0)))],
    chk Code.WALK_SPM_FIT [(5, spansMeet [st] (inputs.flatMap Desc.spans))]]

/-- Bytes of one copy of the staged tiles (R131). -/
def stagedBytes (shape tm tn : Nat) (a w : Desc) : Nat :=
  (if shape = 5 then 512 else if a.fmt.isBlock then 320 else 256) * ((if a.spm then 0 else tm) + (if w.spm then 0 else tn))

/-- Step 14: the entries lie in the accumulator partition. -/
def State.accFit (s : State) (c entry tm : Nat) (dbuf : Bool) : Option Fail :=
  chk1 Code.WALK_ACC_FIT (decide (s.ctx c 0x09 * 64 < entry + tm * (if dbuf then 2 else 1)))

/-- Step 15: C and PART nest, C is disjoint from every other span, PART from the inputs and the staging area (R137, R141). -/
def outChecks (raw : List Byte) (inputs : List Span) (cd : Desc) (part : Option Desc) : List (Option Fail) :=
  let ps := spansOf [part]
  let st := stageSpan raw
  [chk Code.WALK_OUT_OVERLAP [(3, !cd.nests), (4, match part with | some p => !p.nests | none => false)],
    chk Code.WALK_OUT_OVERLAP [(3, spansMeet cd.spans (inputs ++ ps ++ [st]))],
    chk Code.WALK_OUT_OVERLAP [(4, spansMeet ps (inputs ++ [st]))]]

/-- The presence rule of DESC_PART: exactly when SPLIT is K (R129). -/
def splitPart (raw : List Byte) (split : Nat) : Option Fail :=
  chk Code.WALK_SPLIT [(4, (split == 2) != (insF raw 0x12 2 != 0xFFFF))]

end Sys2Proof.Machine
end

