-- ==== Sys2Proof/Machine/Windows.lean ====
section
/-! DEFINITION. Window instructions (R156 to R182, R632, R633): geometry, the loader checks of Table 5.7, the activation vectors
that the generator builds, and the window reducer. -/

namespace Sys2Proof.Machine

/-! ### Fields (Table 5.2) -/

/-- SPLIT, PADMODE, RG and MODE: byte 2. -/
def winSplit (raw : List Byte) : Nat := insF raw 2 1 % 4
/-- PADMODE. -/
def winPad (raw : List Byte) : Nat := insF raw 2 1 / 4 % 4
/-- RG. -/
def winRg (raw : List Byte) : Nat := insF raw 2 1 / 16 % 4
/-- MODE. -/
def winMode (raw : List Byte) : Nat := insF raw 2 1 / 64
/-- The regrouping factor f. -/
def winF (raw : List Byte) : Nat := 2 ^ winRg raw
/-- SHAPE. -/
def matShape (raw : List Byte) : Nat := insF raw 1 1 % 8
/-- REGION. -/
def matRegion (raw : List Byte) : Nat := insF raw 1 1 / 8 % 4
/-- DBUF. -/
def matDbuf (raw : List Byte) : Bool := bitOf (insF raw 1 1) 5

/-- The instruction has a kernel: WCONV or WPOOL. -/
def hasKernel (raw : List Byte) : Bool := opcode raw == 0x20 || opcode raw == 0x21

/-- Lanes that a band of DW counts: a 16-bit band counts lane pairs (R97). -/
def dwLanes (f : Fmt) : Nat := if f.bits = 16 then 128 else 256

/-! ### Geometry (R159, R166, R168, R169, R174, R178) -/

/-- H_out or W_out of a kernel, 0 when it is below 1 (R159). -/
def outExtent (h p0 p1 d k st : Nat) : Nat :=
  let v : Int := (h : Int) + p0 + p1 - d * ((k : Int) - 1) - 1
  (v / (st : Int) + 1).toNat

/-- COLS, the input columns of a DW vector (R166). -/
def dwCols (raw : List Byte) : Nat := 256 / (insF raw 0x0A 1 * insF raw 0x24 2)

/-- Output columns of a DW vector (R166). -/
def dwOut (raw : List Byte) : Nat := (dwCols raw - insF raw 0x0B 1) / insF raw 0x17 1 + 1

/-- The geometry of a window instruction for rank `rank` of `g` with the row of a stripe table, if any. -/
def winOf (raw : List Byte) (x c : Desc) (rank g : Nat) (stripe : List Int) : Win :=
  let op := opcode raw
  let b := fun (o : Nat) => insF raw o 1
  let f := if op = 0x20 ∨ op = 0x23 ∧ winMode raw = 0 then winF raw else 1
  let (hp, wp, cp) := (ceilDiv (x.e 2) f, ceilDiv (x.e 1) f, x.e 0 * f * f)
  let rg := winF raw
  let (ho, wo) :=
    if hasKernel raw then
      (outExtent hp (b 0x1A) (b 0x1B) (b 0x18) (b 0x0A) (b 0x16), outExtent wp (b 0x1C) (b 0x1D) (b 0x19) (b 0x0B) (b 0x17))
    else if op = 0x22 then (x.e 2 * b 0x28, x.e 1 * b 0x29)
    else if winMode raw = 0 then (hp, wp)
    else (x.e 2 * rg, x.e 1 * rg)
  let sh := share rank g ho
  let (y0, hr, oo, io) := match stripe with
    | [r, k, o, i] => (r.toNat, k.toNat, o, i)
    | _ => if winSplit raw = 1 then (sh.1, sh.2 - sh.1, 0, 0) else (0, ho, 0, 0)
  let (ci, co) := (insF raw 0x24 2, insF raw 0x26 2)
  let cols := dwCols raw
  { x := x, c := c, f := f, hp := hp, wp := wp, cp := cp, kh := b 0x0A, kw := b 0x0B, sh := b 0x16, sw := b 0x17,
    dlh := b 0x18, dlw := b 0x19, pt := b 0x1A, pl := b 0x1C, pad := winPad raw, ho := ho, wo := wo, nb := x.e 3,
    y0 := y0, hr := hr, outOrg := oo, inOrg := io, cgIn := ci, cgOut := co, cols := cols,
    oc := dwOut raw }

/-- Vectors that cover one output row in DW. -/
def Win.xblocks (w : Win) : Nat := ceilDiv w.wo w.oc

/-! ### Taps (R160 to R163) -/

/-- A coordinate mirrored once without repeating the edge. -/
def reflect (v : Int) (n : Nat) : Int := if v < 0 then -v else if (n : Int) ≤ v then 2 * n - 2 - v else v

/-- The tap at an input row and column: whether it lies inside, and the coordinates read, none where it is elided. -/
def Win.tapAt (w : Win) (yi xi : Int) : Bool × Option (Nat × Nat) :=
  if 0 ≤ yi ∧ yi < w.hp ∧ 0 ≤ xi ∧ xi < w.wp then (true, some (yi.toNat, xi.toNat))
  else if w.pad < 2 then (false, none)
  else if w.pad = 2 then (false, some (clampIdx yi w.hp, clampIdx xi w.wp))
  else (false, some ((reflect yi w.hp).toNat, (reflect xi w.wp).toNat))

/-- Tap (ky, kx) of output position (y, x) (R160). -/
def Win.tap (w : Win) (y x ky kx : Nat) : Bool × Option (Nat × Nat) :=
  w.tapAt ((y * w.sh : Nat) - (w.pt : Int) + (ky * w.dlh : Nat)) ((x * w.sw : Nat) - (w.pl : Int) + (kx * w.dlw : Nat))

/-- The code of the zero point, or 0. -/
def Desc.zpCode (d : Desc) : Nat := if d.zpEn then wrap d.fmt.bits d.zp else 0

/-- The code of a padded tap (Table 5.3). -/
def Win.padCode (w : Win) : Nat := if w.pad = 1 then w.x.zpCode else 0

/-- Element code and scale byte of channel ch of X' at row y and column x of image n (R168, R179); none is a bus error. -/
def State.winCode (s : State) (a : Acc1) (w : Win) (n y x ch : Nat) : Option (Nat × Nat) :=
  let k := ch / w.x.e 0
  let (ys, xs) := (y * w.f + k / w.f, x * w.f + k % w.f)
  if w.x.e 2 ≤ ys ∨ w.x.e 1 ≤ xs then some (w.x.zpCode, 0)
  else
    let yl := (((y : Int) - w.inOrg) * w.f + (k / w.f : Nat)).toNat
    (s.rowCodes a w.x (w.x.rowOf [xs, yl, n]) (ch % w.x.e 0) 1).bind List.head?

/-- The same for a tap. -/
def State.tapCode (s : State) (a : Acc1) (w : Win) (n ch : Nat) (t : Bool × Option (Nat × Nat)) : Option (Nat × Nat) :=
  match t.2 with
  | none => some (w.padCode, 0)
  | some (y, x) => s.winCode a w n y x ch

/-- The value of a code, without the zero point. -/
def Desc.val (d : Desc) (c : Nat × Nat) : Val := decodeVal d.fmt c.2 c.1

/-- Element code at position k of activation vector m in tile column `col` (R165, R166). In DW the vector takes consecutive input
columns whatever DLW is, so a horizontal dilation shows in the extents alone (DESIGN CHOICE, log entry 53). -/
def State.gatherCode (s : State) (a : Acc1) (w : Win) (dw : Bool) (col m k : Nat) : Option (Nat × Nat) :=
  if dw then
    let xb := m % w.xblocks
    let y := w.y0 + m / w.xblocks % w.hr
    let (j, r, c) := (k / (w.kh * w.cgIn), k / w.cgIn % w.kh, k % w.cgIn)
    let t := w.tapAt ((y * w.sh : Nat) - (w.pt : Int) + (r * w.dlh : Nat)) ((xb * w.oc * w.sw + j : Nat) - (w.pl : Int))
    s.tapCode a w (m / w.xblocks / w.hr) (col * w.cgIn + c) t
  else
    let t := k / w.cp
    s.tapCode a w (m / w.wo / w.hr) (k % w.cp) (w.tap (w.y0 + m / w.wo % w.hr) (m % w.wo) (t / w.kw) (t % w.kw))

/-- Counts of an activation vector over positions k0 to k1 - 1: taps read, taps elided, port cycles beyond one (R163, R167).
In DW the taps are the rows of the columns. -/
def Win.counts (w : Win) (dw : Bool) (m k0 k1 : Nat) : Nat × Nat × Nat :=
  if dw then
    let xb := m % w.xblocks
    let y := w.y0 + m / w.xblocks % w.hr
    let ts := (List.range (w.cols * w.kh)).map fun i =>
      (w.tapAt ((y * w.sh : Nat) - (w.pt : Int) + (i % w.kh * w.dlh : Nat))
        ((xb * w.oc * w.sw + i / w.kh : Nat) - (w.pl : Int))).2.isSome
    ((ts.filter id).length, (ts.filter (!·)).length, 0)
  else
    let bits := w.x.fmt.bits
    let r := (List.range (w.kh * w.kw)).foldl (fun (a : Nat × Nat × Nat) i =>
      let n := min k1 ((i + 1) * w.cp) - max k0 (i * w.cp)
      if n = 0 then a
      else if (w.tap (w.y0 + m / w.wo % w.hr) (m % w.wo) (i / w.kw) (i % w.kw)).2.isSome then
        (a.1 + 1, a.2.1, a.2.2 + ceilDiv (ceilDiv (n * bits) 8) 256)
      else (a.1, a.2.1 + 1, a.2.2)) (0, 0, 0)
    (r.1, r.2.1, max 1 (ceilDiv r.2.2 16) - 1)

/-- Row of C of output position (y, x) of image n (R178, R179). -/
def Win.cRow (w : Win) (n y x : Nat) : Nat := w.c.rowOf [x, ((y : Int) - w.outOrg).toNat, n]

/-! ### Loader checks (Table 5.7) -/

/-- A non-zero field that the opcode does not use, or a reserved one (R157). SHAPE is step 3's. Bit 7 of byte 1, which Table 5.2 does not
list, counts as reserved (DEDUCED, log entry 27). -/
def winRsvd (raw : List Byte) : Bool :=
  let op := opcode raw
  let b1 := insF raw 1 1
  let nz := fun (lo hi : Nat) => !zeroBytes raw lo hi
  bitOf b1 7 || nz 3 4 || nz 0x2A 64 ||
    (op != 0x20 && (b1 / 8 % 8 != 0 || nz 4 10 || nz 0x0E 0x10 || nz 0x12 0x16 || nz 0x24 0x28)) ||
    (!hasKernel raw && (winPad raw != 0 || nz 0x0A 0x0C || nz 0x16 0x1E)) ||
    (op != 0x20 && op != 0x23 && winRg raw != 0) || (op == 0x20 && winMode raw != 0) || (op != 0x22 && nz 0x28 0x2A)

/-- TN is not the S_USED of R166, where the fields that give S_USED are in their ranges (Tables 4.3, 5.2; log entry 53). -/
def dwTnBad (raw : List Byte) : Bool :=
  let b := fun (o : Nat) => insF raw o 1
  matShape raw == 3 && b 0x0A != 0 && b 0x0B != 0 && b 0x17 != 0 && insF raw 0x24 2 != 0 && insF raw 0x26 2 != 0 &&
    decide (b 0x0B ≤ dwCols raw) && insF raw 6 2 != 0 && insF raw 6 2 != insF raw 0x26 2 * dwOut raw

/-- Steps 3 and 4. -/
def winFields (raw : List Byte) : List (Option Fail) :=
  let op := opcode raw
  let sh := matShape raw
  let split := winSplit raw
  [chk1 Code.BRD_SHAPE_RSVD (op == 0x20 && decide (5 < sh)),
    chk1 Code.WIN_SHAPE (if op = 0x20 then sh == 4 else sh != 0),
    chk1 Code.WALK_FIELD (op == 0x20 && (decide (shapeRegions sh < matRegion raw) || dwTnBad raw)),
    chk1 Code.WIN_FIELD (decide ((if op = 0x20 then 2 else 1) < split) || decide ((if op = 0x21 then 2 else 1) < winMode raw) ||
      (op == 0x23 && winRg raw == 0) || (insF raw 0x1E 2 != 0xFFFF && split != 1) || (op == 0x20 && sh == 3 && winRg raw != 0))]

/-- Step 8. -/
def winCounts (raw : List Byte) (ds : List (Nat × Desc)) : List (Option Fail) :=
  let op := opcode raw
  let b := fun (o : Nat) => insF raw o 1
  let (tm, tn) := (insF raw 4 2, insF raw 6 2)
  let conv := op == 0x20
  let okF := fun (f : Nat) => f == 1 || f == 2 || f == 4 || f == 8
  [chk Code.WALK_COUNT_ZERO (extZero ds ++ [(0, conv && (tm == 0 || tn == 0))]),
    chk Code.WALK_COUNT_RANGE (extBig ds ++ [(0, conv && decide (2048 < tm))]),
    chk1 Code.WIN_KERNEL (hasKernel raw && (b 0x0A == 0 || b 0x0B == 0 || decide (31 < b 0x0A) || decide (31 < b 0x0B))),
    chk1 Code.WIN_STRIDE (hasKernel raw && (b 0x16 == 0 || b 0x17 == 0 || b 0x18 == 0 || b 0x19 == 0)),
    chk1 Code.WIN_FACTOR (op == 0x22 && (!okF (b 0x28) || !okF (b 0x29))),
    chk1 Code.BRD_REGION (conv && decide (shapeStrands (matShape raw) < tn))]

/-- Formats and zero points of a reducer's X and C agree (R170, R175). -/
def reducerFmtBad (op : Nat) (x c : Desc) : Bool :=
  x.fmt != c.fmt || x.zpEn != c.zpEn || (x.zpEn && x.zpByte != c.zpByte) || x.fmt.isBlock || (op != 0x23 && x.fmt == .s32)

/-- Layout and NDIM of X or C (R158). -/
def Desc.winLayoutBad (d : Desc) : Bool := d.layout != 1 || (d.ndim != 3 && d.ndim != 4)

/-- Step 9. -/
def State.winFormats (s : State) (c : Nat) (raw : List Byte) (x : Desc) (w : Option Desc) (cd : Desc) (part st : Option Desc) :
    List (Option Fail) :=
  let op := opcode raw
  let padZp := chk Code.WIN_PAD_ZP [(1, winPad raw == 1 && !x.zpEn)]
  let table := descsOf [0] [st]
  let tableZp := chkD Code.WALK_ZP table Desc.zpEn
  chkD Code.WIN_LAYOUT [(1, x), (3, cd)] Desc.winLayoutBad ::
    (match w with
    | some w => s.formatChecks c (matShape raw) x w cd part ++ [chkD Code.WALK_FMT_SCALE table fun d => s.scaleBad c d,
        chk Code.WIN_FMT [(1, x.fmt.isBlock && x.e 0 * winF raw * winF raw % 32 != 0)], padZp, zpChecks x w cd part, tableZp]
    | none => [chkD Code.WALK_FMT_SCALE ([(1, x), (3, cd)] ++ table) fun d => s.scaleBad c d,
        chk Code.WIN_FMT [(3, reducerFmtBad op x cd)], padZp, chkD Code.WALK_ZP [(1, x), (3, cd)] Desc.zpBad, tableZp])

/-- Channels of C that a reducer writes (R168, R169). -/
def reducerChannels (raw : List Byte) (x : Desc) : Nat :=
  if opcode raw ≠ 0x23 then x.e 0 else if winMode raw = 0 then x.e 0 * winF raw * winF raw else x.e 0 / (winF raw * winF raw)

/-- Input rows of X' that an output row reads (R160, R174). -/
def Win.rowsRead (raw : List Byte) (w : Win) (y : Nat) : List Nat :=
  if hasKernel raw then
    (List.range w.kh).filterMap fun ky => (w.tapAt ((y * w.sh : Nat) - (w.pt : Int) + (ky * w.dlh : Nat)) 0).2.map (·.1)
  else if opcode raw = 0x22 then
    let f := insF raw 0x28 1
    if winMode raw = 0 then [y / f]
    else
      let i0 : Int := (2 * (y : Int) + 1 - f) / (2 * (f : Int))
      [clampIdx i0 w.hp, clampIdx (i0 + 1) w.hp]
  else if winMode raw = 0 then [y]
  else [y / winF raw]

/-- Rows of a stripe lie outside the local tensors (R179). EXT2 of X and of C stand both for the global heights and for the local rows
(DESIGN CHOICE, log entry 74). -/
def Win.stripeBad (raw : List Byte) (w : Win) (r : List Int) : Bool :=
  let first := r.getD 0 0
  let k := r.getD 1 0
  decide (k < 1) || decide (first < 0) || decide ((w.ho : Int) < first + k) ||
    (List.range w.hr).any fun i =>
      let y := w.y0 + i
      let o := (y : Int) - w.outOrg
      decide (o < 0) || decide ((w.c.e 2 : Int) ≤ o) ||
        (w.rowsRead raw y).any fun v => (List.range w.f).any fun d =>
          let l := ((v : Int) - w.inOrg) * w.f + d
          decide (v * w.f + d < w.x.e 2) && (decide (l < 0) || decide ((w.x.e 2 : Int) ≤ l))

/-- The rank's row of the stripe table as integers; none is a bus error, which the loader takes as WALK_MEM_UE (DESIGN CHOICE, log entry
74). -/
def State.stripeRow (s : State) (a : Acc1) (t : Desc) (rank : Nat) : Option (List Int) :=
  (s.rowVals a t rank 0 4).map fun vs => vs.map truncInt

/-- The table is not an S32 tensor of EXT0 4 with at least a row for each cluster. -/
def stripeFmtBad (t : Desc) (g : Nat) : Bool := t.fmt != .s32 || t.e 0 != 4 || decide (t.rows < g)

/-- Strands that the generator's band uses in DW (R166). -/
def Win.sUsed (w : Win) : Nat := w.cgOut * w.oc

/-- The band that the generator sets (R166): a lane holds one channel of a tap. -/
def Win.band (w : Win) : Band := ⟨1, w.kh * w.kw * w.cgIn, 0, w.cgOut, w.kh * w.cgIn * w.sw, w.sUsed⟩

/-- Positions of a DW vector (R166). -/
def Win.dwK (w : Win) : Nat := w.cols * w.kh * w.cgIn

/-- Step 10 but for the stripe table. The band code of step 10 is BRD_DW_BAND where the last band leaves the lanes, and where S_USED
exceeds the 256 strands of the region (DESIGN CHOICE for the strands, log entry 53). A C of WPOOL or WRESAMPLE with other channels or
batches than X is WIN_GEOM (DESIGN CHOICE, log entry 74). -/
def winGeometry (raw : List Byte) (w : Win) (wd : Option Desc) (part : Option Desc) (g : Nat) : List (Option Fail) :=
  let op := opcode raw
  let dw := matShape raw == 3
  let (x, c) := (w.x, w.c)
  let c2s := op == 0x23 && winMode raw == 1 && x.e 0 % (winF raw * winF raw) != 0
  let pads := fun (o h : Nat) => decide (h ≤ insF raw o 1)
  [chk Code.WIN_GEOM [(3, w.ho == 0 || w.wo == 0 || c.e 2 != w.ho || c.e 1 != w.wo ||
      (wd.isNone && (c.e 3 != x.e 3 || (c.e 0 != reducerChannels raw x && !c2s))))],
    chk1 Code.WIN_PAD (winPad raw == 3 && (pads 0x1A w.hp || pads 0x1B w.hp || pads 0x1C w.wp || pads 0x1D w.wp)),
    chk Code.WIN_REGROUP [(1, c2s)]] ++
  (match wd with
  | none => []
  | some wt =>
    let n := wt.rows
    let k := if dw then w.kh * w.kw * w.cgIn else w.kh * w.kw * w.cp
    [chk1 Code.WIN_DW_GROUP (if dw then w.cgIn == 0 || w.cgOut == 0 || decide (256 < w.cgIn) || decide (256 < w.cgOut) ||
        w.cp % w.cgIn != 0 || n % w.cgOut != 0 || w.cp / w.cgIn != n / w.cgOut || decide (w.cols < w.kw)
        else w.cgIn != 0 || w.cgOut != 0),
      chk1 Code.BRD_DW_BAND (dw && (decide (256 < w.sUsed) || decide (dwLanes x.fmt < (w.band).first (w.sUsed - 1) + (w.band).b))),
      chk1 Code.WALK_DIM_MATCH (wt.e 0 != k || c.e 0 != n || c.e 3 != x.e 3 ||
        (match part with | some p => p.e 0 != n || p.rows != c.rows * g | none => false)),
      chk1 Code.WALK_SPLIT (winSplit raw == 2 && decide (ceilDiv (if dw then w.dwK else k) (kPerPass x.fmt (matShape raw)) < g))])

/-- The matrix product that a WCONV runs as (R164 to R166). In DW a tile column is a group and a row holds the output columns of
one vector. -/
def convMat (raw : List Byte) (w : Win) (wd : Desc) (part : Option Desc) (ops : List Byte) : Mat :=
  let sh := matShape raw
  let dw := sh == 3
  { shape := sh, region := matRegion raw, dbuf := matDbuf raw, split := winSplit raw, tm := insF raw 4 2,
    tn := if dw then w.sUsed else insF raw 6 2, entry := insF raw 8 2, a := w.x, w := wd, c := w.c, part := part,
    kpp := kPerPass w.x.fmt sh,
    m := w.nb * w.hr * (if dw then w.xblocks else w.wo), n := wd.rows,
    k := if dw then w.dwK else w.kh * w.kw * w.cp,
    tcols := if dw then w.cp / w.cgIn else ceilDiv wd.rows (insF raw 6 2),
    band := if dw then some w.band else none,
    win := some w, ops := ops }

/-- The descriptors that a window instruction names, in the order X, W, C, PART, stripe table. -/
def winOperands (raw : List Byte) : List DescOp :=
  let x := ⟨1, insF raw 0x0C 2, false⟩
  let c := ⟨3, insF raw 0x10 2, false⟩
  let st := ⟨0, insF raw 0x1E 2, true⟩
  if opcode raw = 0x20 then [x, ⟨2, insF raw 0x0E 2, false⟩, c, ⟨4, insF raw 0x12 2, true⟩, st] else [x, c, st]

/-- What the loader makes of an instruction: descriptors, parameter set, stripe row, spans read and written. -/
structure Checked where
  descs  : List (Option Desc) := []
  opset  : List Byte := []
  stripe : List Int := []
  reads  : List Span := []
  writes : List Span := []

/-- Stops at a failed check. -/
def orFail (f : Option Fail) : Except Fail Unit := match f with | some e => .error e | none => .ok ()

/-- The checks of a window instruction (Table 5.7) for rank `rank` of `g` on Ibex n. The indices of PART and of the stripe table are
looked at after WALK_SPLIT (DESIGN CHOICE, log entry 74), and with a block target WCONV in DW is held to a CG_OUT that fills whole blocks
(DESIGN CHOICE, log entry 77). -/
def State.loadWindow (s : State) (a : Acc1) (raw : List Byte) (rank g : Nat) : Except Fail Checked := do
  let c := a.ctx
  let conv := opcode raw == 0x20
  orFail (chk1 Code.WALK_RSVD (winRsvd raw))
  orFail (firstFail (winFields raw))
  orFail (s.idxFail c (if conv then (winOperands raw).take 3 else winOperands raw))
  orFail (if conv then splitPart raw (winSplit raw) else none)
  let ds ← s.loadDescs c (winOperands raw)
  let (xo, wo, co, part, st) := match ds with
    | [x, w, c, p, t] => (x, w, c, p, t)
    | [x, c, t] => (x, none, c, none, t)
    | _ => (none, none, none, none, none)
  match xo, co with
  | some x, some cd => do
    let all := descsOf [1, 2, 3, 4, 0] [xo, wo, co, part, st]
    orFail (firstFail (winCounts raw all))
    orFail (firstFail (s.winFormats c raw x wo cd part st))
    orFail (firstFail (winGeometry raw (winOf raw x cd rank g []) wo part g))
    let stripe ← match st with
      | none => (.ok [] : Except Fail (List Int))
      | some t =>
        if stripeFmtBad t g then .error (Code.WIN_STRIPE, 0)
        else match s.stripeRow a t rank with
          | none => .error (Code.WALK_MEM_UE, 0)
          | some r => if (winOf raw x cd rank g r).stripeBad raw r then .error (Code.WIN_STRIPE, 0) else .ok r
    orFail (firstFail (s.steps11 c all))
    let ins := [xo, wo, st].filterMap id
    let staged := match wo with
      | some w => stagedBytes (matShape raw) (insF raw 4 2) (insF raw 6 2) x w
      | none => if x.spm then 0 else 256
    orFail (firstFail (s.stageChecks c raw staged ins))
    orFail (if conv then s.accFit c (insF raw 8 2) (insF raw 4 2) (matDbuf raw) else none)
    orFail (firstFail (outChecks raw (spansOf [xo, wo, st]) cd part))
    let w := winOf raw x cd rank g stripe
    let ops ← if conv then s.loadOpset c (insF raw 0x14 2) x cd (if matShape raw = 3 then w.cgOut else insF raw 6 2) else .ok []
    .ok { descs := [xo, wo, co, part], opset := ops, stripe := stripe,
          reads := spansOf [xo, wo, st] ++ (if conv then (opsVecs ops (cd.e 0)).flatMap Desc.spans else []),
          writes := spansOf [co, part] ++ [stageSpan raw] }
  | _, _ => .error (Code.WALK_DESC_INDEX, 0)

/-! ### The window reducer (R168 to R177, R632) -/

/-- The largest of tap values (R172). -/
def poolMax : List Val → Val
  | [] => .zero
  | v :: vs => vs.foldl Val.max v

/-- WPOOL of one position and channel: its taps and their values (R172, R173). -/
def poolVal (mode : Nat) (x : Desc) (ts : List (Bool × Val)) : Val :=
  if mode = 0 then poolMax (ts.map (·.2))
  else
    let vs := (if mode = 1 then ts else ts.filter (·.1)).map (·.2)
    let z := Val.ofInt x.zp
    if vs.isEmpty then z
    else if x.zpEn then Val.add z (Val.div (Val.sum (vs.map fun v => Val.add v z.neg)) (Val.ofInt (vs.length : Nat)))
    else Val.div (Val.sum vs) (Val.ofInt (vs.length : Nat))

/-- Neighbours and weights of bilinear resampling along an axis with factor f, the weights in units of 1 / (2 f) (R174). -/
def bilinear (o f ext : Nat) : List (Nat × Nat) :=
  let p : Int := 2 * (o : Int) + 1 - f
  let i0 := p / (2 * (f : Int))
  let w1 := (p % (2 * (f : Int))).toNat
  [(clampIdx i0 ext, 2 * f - w1), (clampIdx (i0 + 1) ext, w1)]

/-- A weight in units of 1 / (2 f) for f a power of two. -/
def weightVal (k f : Nat) : Val := (Val.ofInt (k : Int)).scale (-((Nat.log2 (2 * f) : Nat) : Int))

/-- One element of the output of WPOOL or WRESAMPLE, converted to the format of X; none is a bus error. -/
def State.reduceElem (s : State) (a : Acc1) (raw : List Byte) (w : Win) (n y x ch : Nat) : Option Nat :=
  if opcode raw = 0x21 then
    (optAll ((List.range (w.kh * w.kw)).map fun i =>
      let t := w.tap y x (i / w.kw) (i % w.kw)
      (s.tapCode a w n ch t).map fun c => (t.1, w.x.val c))).map fun ts => (convert w.x.fmt (poolVal (winMode raw) w.x ts)).1
  else
    let (fh, fw) := (insF raw 0x28 1, insF raw 0x29 1)
    if winMode raw = 0 then (s.winCode a w n (y / fh) (x / fw) ch).map fun c => (convert w.x.fmt (w.x.val c)).1
    else
      let z := Val.ofInt w.x.zp
      (optAll ((bilinear y fh w.hp).flatMap fun r => (bilinear x fw w.wp).map fun c =>
        (s.winCode a w n r.1 c.1 ch).map fun v =>
          let v := w.x.val v
          Val.mul (Val.mul (weightVal r.2 fh) (weightVal c.2 fw)) (if w.x.zpEn then Val.add v z.neg else v))).map fun ts =>
        (convert w.x.fmt (if w.x.zpEn then Val.add z (Val.sum ts) else Val.sum ts)).1

/-- Elements of X' that one element of the output of a reducer instruction is formed of: row, column and channel (R168 to R174). -/
def Win.sources (w : Win) (raw : List Byte) (y x ch : Nat) : List (Nat × Nat × Nat) :=
  if opcode raw = 0x21 then
    (List.range (w.kh * w.kw)).filterMap fun i => (w.tap y x (i / w.kw) (i % w.kw)).2.map fun t => (t.1, t.2, ch)
  else if opcode raw = 0x22 then
    let (fh, fw) := (insF raw 0x28 1, insF raw 0x29 1)
    if winMode raw = 0 then [(y / fh, x / fw, ch)]
    else (bilinear y fh w.hp).flatMap fun r => (bilinear x fw w.wp).map fun c => (r.1, c.1, ch)
  else
    let f := winF raw
    if winMode raw = 0 then [(y, x, ch)] else [(y / f, x / f, (y % f * f + x % f) * w.c.e 0 + ch)]

/-- The bytes of X that hold an element of X' of image n, none outside X (R168, R179). -/
def Win.srcSpan (w : Win) (n : Nat) (e : Nat × Nat × Nat) : Option Span :=
  let k := e.2.2 / w.x.e 0
  let (ys, xs) := (e.1 * w.f + k / w.f, e.2.1 * w.f + k % w.f)
  if w.x.e 2 ≤ ys ∨ w.x.e 1 ≤ xs then none
  else
    let lo := e.2.2 % w.x.e 0 * w.x.fmt.bits / 8
    some ⟨w.x.spm, w.x.base + w.x.rowOff (w.x.rowOf [xs, (((e.1 : Int) - w.inOrg) * w.f + (k / w.f : Nat)).toNat, n]) + lo,
      ceilDiv ((e.2.2 % w.x.e 0 + 1) * w.x.fmt.bits) 8 - lo⟩

/-- The spans of X that a reducer instruction reads for channels c.1 to c.2 − 1 of the rows of its share (R178, R632). -/
def Win.readSpans (w : Win) (raw : List Byte) (c : Nat × Nat) : List Span :=
  (List.range (w.nb * w.hr)).flatMap fun i => (List.range w.wo).flatMap fun x => (List.range (c.2 - c.1)).flatMap fun ch =>
    (w.sources raw (w.y0 + i % w.hr) x (c.1 + ch)).filterMap (w.srcSpan (i / w.hr))

/-- One element code of the output of WREGROUP (R168, R169). -/
def State.regroupElem (s : State) (a : Acc1) (raw : List Byte) (w : Win) (n y x ch : Nat) : Option Nat :=
  let f := winF raw
  if winMode raw = 0 then (s.winCode a w n y x ch).map (·.1)
  else (s.winCode a w n (y / f) (x / f) ((y % f * f + x % f) * w.c.e 0 + ch)).map (·.1)

/-- One output position: channels c0 to c1 - 1. -/
def State.reducePos (s : State) (a : Acc1) (raw : List Byte) (w : Win) (c0 c1 n y x : Nat) : Option State :=
  (optAll ((List.range (c1 - c0)).map fun i =>
    if opcode raw = 0x23 then s.regroupElem a raw w n y x (c0 + i) else s.reduceElem a raw w n y x (c0 + i))).bind fun cs =>
    (s.putCodes a w.c (w.cRow n y x) c0 cs).map fun t =>
      let t := t.count (ibexReg a.ibex 3 0x20) (ceilDiv (c1 * w.c.fmt.bits) 8 - c0 * w.c.fmt.bits / 8)
      if opcode raw = 0x21 then
        let (rd, el, _) := w.counts false ((n * w.hr + (y - w.y0)) * w.wo + x) 0 (w.kh * w.kw * w.cp)
        (t.count (ibexReg a.ibex 3 8) rd).count (ibexReg a.ibex 3 0x10) el
      else t

/-- One output row. -/
def State.reduceRow (s : State) (a : Acc1) (raw : List Byte) (w : Win) (c0 c1 n y : Nat) : Option State :=
  (List.range w.wo).foldl (fun o x => o.bind fun s => s.reducePos a raw w c0 c1 n y x) (some s)

/-- The pieces of an instruction's work that run now: those after the first `done`, and no more than `stop` of them where a preemption
ends them there (R148, R182, R189, R242). -/
def piecesNow {α : Type} (done : Nat) (stop : Option Nat) (l : List α) : List α :=
  match stop with
  | none => l.drop done
  | some k => (l.drop done).take k

/-- Runs a list of pieces of work in order; what was written before a bus error stays (R182, R242). -/
def runPieces {α : Type} (s : State) (f : State → α → Option State) : List α → State × Option W16
  | [] => (s, none)
  | x :: xs => match f s x with
    | some t => runPieces t f xs
    | none => (s, some Code.WALK_MEM_UE)

/-- Channels of C that rank `rank` of `g` forms (R632). -/
def reducerShare (raw : List Byte) (w : Win) (rank g : Nat) : Nat × Nat :=
  if winSplit raw = 0 then share rank g (w.c.e 0) else (0, w.c.e 0)

/-- A rank whose share of a reducer instruction is empty runs none of it (R178, R632). -/
def reducerIdle (raw : List Byte) (w : Win) (rank g : Nat) : Bool :=
  let c := reducerShare raw w rank g
  c.2 ≤ c.1 || w.hr == 0

/-- The output rows of a reducer instruction of rank `rank` of `g`, from row `done` on, with a preemption point after each
(R182). -/
def State.reduce (s : State) (a : Acc1) (raw : List Byte) (w : Win) (rank g done : Nat) (stop : Option Nat) : State × Option W16 :=
  let c := reducerShare raw w rank g
  runPieces s (fun s i => s.reduceRow a raw w c.1 c.2 (i / w.hr) (w.y0 + i % w.hr)) (piecesNow done stop (List.range (w.nb * w.hr)))

end Sys2Proof.Machine
end

