-- ==== Sys2Proof/Machine/Matrix.lean ====
section
/-! DEFINITION. Matrix products (R78 to R81, R129 to R143) and the output pipe (R193 to R203): the loader checks of MM, the
activations, weights and sums of a pass, and the elements that the pipe writes. -/

namespace Sys2Proof.Machine

/-! ### Loader checks of MM (Table 4.5) -/

/-- The descriptors of MM in the order A, W, C, PART. -/
def mmOperands (raw : List Byte) : List DescOp :=
  [⟨1, insF raw 0x0C 2, false⟩, ⟨2, insF raw 0x0E 2, false⟩, ⟨3, insF raw 0x10 2, false⟩, ⟨4, insF raw 0x12 2, true⟩]

/-- The band fields of MM, for activations of `per` elements to a lane. -/
def mmBand (per : Nat) (raw : List Byte) : Band :=
  ⟨per, insF raw 0x18 2, insF raw 0x1A 1, insF raw 0x1B 2, insF raw 0x1D 1, insF raw 0x1E 2⟩

/-- Elements of a lane of an MM in DW (Table 3.2). -/
def perLane (f : Fmt) : Nat := if f.bits = 4 then 2 else 1

/-- Step 2. -/
def mmRsvd (raw : List Byte) : Bool :=
  let nz := fun (lo hi : Nat) => !zeroBytes raw lo hi
  bitOf (insF raw 1 1) 7 || insF raw 2 1 / 4 != 0 || nz 3 4 || nz 0x0A 0x0C || nz 0x16 0x18 || nz 0x24 64 ||
    (matShape raw != 3 && nz 0x18 0x20)

/-- Steps 3 and 4. -/
def mmFields (raw : List Byte) : List (Option Fail) :=
  let sh := matShape raw
  [chk1 Code.BRD_SHAPE_RSVD (decide (5 < sh)),
    chk1 Code.WALK_FIELD (decide (shapeRegions sh < matRegion raw) || winSplit raw == 3 ||
      (sh == 3 && insF raw 6 2 != (mmBand 1 raw).sUsed))]

/-- Step 8. -/
def mmCounts (raw : List Byte) (ds : List (Nat × Desc)) : List (Option Fail) :=
  let (sh, tm, tn) := (matShape raw, insF raw 4 2, insF raw 6 2)
  let b := mmBand 1 raw
  let out := fun (v : Nat) => v == 0 || decide (256 < v)
  [chk Code.WALK_COUNT_ZERO (extZero ds ++ [(0, tm == 0 || tn == 0)]),
    chk Code.WALK_COUNT_RANGE (extBig ds ++ [(0, decide (2048 < tm) || (sh == 3 && (out b.b || out b.rep || out b.sUsed)))]),
    chk1 Code.BRD_GEMV_ROWS (sh == 4 && decide (16 < tm)),
    chk1 Code.BRD_REGION (decide (shapeStrands sh < tn)),
    chk1 Code.BRD_DW_BAND (sh == 3 && decide (256 < b.first (b.sUsed - 1) + b.b))]

/-- Step 8 for a 16-bit band, whose positions are lane pairs (R97). -/
def bandBad (raw : List Byte) (f : Fmt) : Option Fail :=
  let b := mmBand 1 raw
  chk1 Code.BRD_DW_BAND (matShape raw == 3 && decide (dwLanes f < b.first (b.sUsed - 1) + b.b))

/-- Step 10. -/
def mmDims (raw : List Byte) (a w cd : Desc) (part : Option Desc) (g : Nat) : List (Option Fail) :=
  let dw := matShape raw == 3
  let b := mmBand (perLane a.fmt) raw
  let n := if dw then b.sUsed else w.rows
  [chk1 Code.WALK_DIM_MATCH (w.e 0 != (if dw then b.width else a.e 0) || w.rows != n || cd.e 0 != n || cd.rows != a.rows ||
      (match part with | some p => p.e 0 != n || p.rows != a.rows * g | none => false)),
    chk1 Code.WALK_SPLIT (winSplit raw == 2 && decide (ceilDiv (a.e 0) (kPerPass a.fmt (matShape raw)) < g))]

/-- The checks of an MM for a step on g clusters (Table 4.5). -/
def State.loadMM (s : State) (c : Nat) (raw : List Byte) (g : Nat) : Except Fail Checked := do
  orFail (chk1 Code.WALK_RSVD (mmRsvd raw))
  orFail (firstFail (mmFields raw))
  orFail (s.idxFail c ((mmOperands raw).take 3))
  orFail (splitPart raw (winSplit raw))
  let ds ← s.loadDescs c (mmOperands raw)
  match ds with
  | [some a, some w, some cd, part] => do
    let all := descsOf [1, 2, 3, 4] ds
    orFail (firstFail (mmCounts raw all))
    orFail (bandBad raw a.fmt)
    orFail (firstFail (s.formatChecks c (matShape raw) a w cd part))
    orFail (zpChecks a w cd part)
    orFail (firstFail (mmDims raw a w cd part g))
    orFail (firstFail (s.steps11 c all))
    orFail (firstFail (s.stageChecks c raw (stagedBytes (matShape raw) (insF raw 4 2) (insF raw 6 2) a w) [a, w]))
    orFail (s.accFit c (insF raw 8 2) (insF raw 4 2) (matDbuf raw))
    orFail (firstFail (outChecks raw (a.spans ++ w.spans) cd part))
    let ops ← s.loadOpset c (insF raw 0x14 2) a cd (insF raw 6 2)
    .ok { descs := ds, opset := ops, reads := a.spans ++ w.spans ++ (opsVecs ops (cd.e 0)).flatMap Desc.spans,
          writes := spansOf [some cd, part] ++ [stageSpan raw] }
  | _ => .error (Code.WALK_DESC_INDEX, 0)

/-- The product that an MM runs as. -/
def mmMat (raw : List Byte) (a w cd : Desc) (part : Option Desc) (ops : List Byte) : Mat :=
  let sh := matShape raw
  { shape := sh, region := matRegion raw, dbuf := matDbuf raw, split := winSplit raw, tm := insF raw 4 2, tn := insF raw 6 2,
    entry := insF raw 8 2, a := a, w := w, c := cd, part := part, kpp := kPerPass a.fmt sh, m := a.rows, n := w.rows,
    k := a.e 0, tcols := ceilDiv w.rows (insF raw 6 2), band := if sh = 3 then some (mmBand (perLane a.fmt) raw) else none, win := none,
    ops := ops }

/-- The product of a loaded MM or WCONV. -/
def Loaded.mat (l : Loaded) : Option Mat :=
  match l.descs with
  | [some a, some w, some cd, part] =>
    if opcode l.raw = 0x10 then some (mmMat l.raw a w cd part l.opset)
    else if opcode l.raw = 0x20 then some (convMat l.raw (winOf l.raw a cd l.rank l.g l.stripe) w part l.opset)
    else none
  | _ => none

/-! ### Activations, weights and sums -/

/-- Positions of a pass that carry elements (R139). -/
def Mat.live (t : Mat) (p : Pass) : Nat := min t.kpp (t.k - p.slice * t.kpp)

/-- The part of an F32 value that a pass of the split takes: part 0 (hi, hi), 1 (hi, lo), 2 (lo, hi) (R70, R99). -/
def splitVal (low : Bool) (v : Val) : Val := decodeFloat .b16 (if low then (splitB16 v).2 else (splitB16 v).1)

/-- The activation vector of row m in a pass: the values of its live positions; none is a bus error. -/
def State.actRow (s : State) (a : Acc1) (t : Mat) (p : Pass) (m : Nat) : Option (List Val) :=
  let k0 := p.slice * t.kpp
  let codes := match t.win with
    | none => s.rowCodes a t.a m k0 (t.live p)
    | some w => optAll ((List.range (t.live p)).map fun i => s.gatherCode a w t.band.isSome p.col m (k0 + i))
  codes.map fun cs => cs.map fun c => if t.shape = 5 then splitVal (p.part == 2) (t.a.val c) else t.a.val c

/-- The row of W that a strand of a tile column holds (R140, R166). -/
def Mat.wRow (t : Mat) (col s : Nat) : Option Nat :=
  match t.win, t.band with
  | some w, some b => if s < b.sUsed then some (col * w.cgOut + s % b.rep) else none
  | _, _ => if s < t.tn ∧ col * t.tn + s < t.n then some (col * t.tn + s) else none

/-- Codes that a strand holds, with their positions: the whole slice, or its band. A band lies in lanes 0 to 255, so a product in DW
whose K exceeds K per pass has it in slice 0 and no weights in the later slices (R96, R140; DEDUCED, log entry 50). -/
def State.strandCodes (s : State) (a : Acc1) (t : Mat) (p : Pass) (strand : Nat) : Option (Nat × List (Nat × Nat)) :=
  match t.wRow p.col strand with
  | none => some (0, [])
  | some r =>
    match t.band with
    | some b => if p.slice = 0 then (s.rowCodes a t.w r 0 b.width).map fun cs => (b.pos strand, cs) else some (0, [])
    | none => (s.rowCodes a t.w r (p.slice * t.kpp) (t.live p)).map fun cs => (0, cs)

/-- A strand's codes put into a weight tile, split for F32S, with the scale byte of each block of 32 lanes' elements (R80). Where a
band does not begin at a block, the scale byte written last into a block applies to it (DESIGN CHOICE, log entry 50). -/
def WTile.put (w : WTile) (t : Mat) (p : Pass) (strand : Nat) (x : Nat × List (Nat × Nat)) : WTile :=
  x.2.zipIdx.foldl (fun (w : WTile) c =>
    let pos := x.1 + c.2
    let code := if t.shape = 5 then
        let h := splitB16 (ofF32 (BitVec.ofNat 32 c.1.1))
        if p.part = 1 then h.2 else h.1
      else c.1.1
    { codes := Tbl.set 0 w.codes (strand * 512 + pos) code,
      scales := if t.w.fmt.isBlock then Tbl.set 0 w.scales (strand * 16 + pos / 32) c.1.2 else w.scales }) w

/-- The weight tile of a pass; every other lane holds zero (R140). None is a bus error. -/
def State.loadTile (s : State) (a : Acc1) (t : Mat) (p : Pass) : Option WTile :=
  (List.range (shapeStrands t.shape)).foldl (fun (o : Option WTile) i =>
    o.bind fun w => (s.strandCodes a t p i).map fun x => w.put t p i x) (some {})

/-- The weight that a strand holds at a position. -/
def WTile.val (w : WTile) (t : Mat) (strand pos : Nat) : Val :=
  decodeVal (if t.shape = 5 then .b16 else t.w.fmt) (Tbl.get 0 w.scales (strand * 16 + pos / 32))
    (Tbl.get 0 w.codes (strand * 512 + pos))

/-- The terms that a strand adds for one vector (R76, R80, R97, R139, R140): products of its positions, and a zero where some lane
carries none. -/
def Mat.terms (t : Mat) (w : WTile) (p : Pass) (strand : Nat) (acts : List Val) : List Val :=
  match t.band with
  | some b =>
    if p.slice = 0 ∧ strand < b.sUsed then
      ((List.range b.width).map fun i =>
        let pos := b.pos strand + i
        Val.mul (acts.getD pos .zero) (w.val t strand pos)) ++ (if b.width < t.kpp then [.zero] else [])
    else [.zero]
  | none =>
    (acts.zipIdx.map fun x => Val.mul x.1 (w.val t strand x.2)) ++ (if acts.length < t.kpp then [.zero] else [])

/-- An entry after a pass, and whether it saturated: S32 under R57 for an integer pair, F32 under R58 otherwise. -/
def accumulate (isInt : Bool) (prev : Option W32) (terms : List Val) : W32 × Bool :=
  if isInt then satS32 (truncInt (Val.sum terms) + (match prev with | some p => p.toInt | none => 0))
  else accF32 (terms ++ (match prev with | some p => [ofF32 p] | none => []))

/-! ### The output pipe (R195 to R203) -/

/-- Where the entries of row i of a tile go: row of C, first column, first strand, count (R141, R165, R166). -/
def Mat.runs (t : Mat) (p : Pass) (i : Nat) : List (Nat × Nat × Nat × Nat) :=
  let m := t.tm * p.row + i
  match t.win, t.band with
  | some w, some b =>
    let n := m / w.xblocks / w.hr
    let y := w.y0 + m / w.xblocks % w.hr
    let x0 := m % w.xblocks * w.oc
    (List.range (min w.oc (w.wo - x0))).map fun o => (w.cRow n y (x0 + o), p.col * w.cgOut, o * b.rep, w.cgOut)
  | some w, none =>
    [(w.cRow (m / w.wo / w.hr) (w.y0 + m / w.wo % w.hr) (m % w.wo), p.col * t.tn, 0, min t.tn (t.n - p.col * t.tn))]
  | none, _ => [(m, p.col * t.tn, 0, min t.tn (t.n - p.col * t.tn))]

/-- Elements n0 to n0 + k - 1 of the parameter vector of the set at an offset; none is a bus error. -/
def State.opsVec (s : State) (a : Acc1) (ops : List Byte) (off : Nat) (f : Fmt) (n0 k : Nat) : Option (List Val) :=
  let fc := if f = .s32 then Fmt.s32.code else Fmt.f32.code
  s.rowVals a { base := recField ops off 8, ext := [n0 + k, 1, 1, 1, 1, 1], stride := [0, 0, 0, 0, 0, 0], fmtCode := fc,
                ndim := 1, spm := opsBit ops 6, layout := 0, zpEn := false, scaleEn := false, rsvd := false, zpByte := 0,
                scaleBase := 0 } 0 n0 k

/-- v of R195 before the clamp, from an entry and its channel's scale, bias and weight sum. -/
def Mat.scaled (t : Mat) (e : W32) (sc bias wsum : Option Val) : Val :=
  let x := if t.isInt then roundF32 (Val.ofInt (e.toInt - (match wsum with | some w => t.a.zp * truncInt w | none => 0)))
    else ofF32 e
  let v := match sc with | some q => Val.mul x q | none => x
  match bias with | some b => Val.add v b | none => v

/-- The clamp of R195, and whether it changed the value (R197). Zeros of either sign are equal, so a zero against a zero bound stays as it
is (DESIGN CHOICE, log entry 78). -/
def clampVal (ops : List Byte) (v : Val) : Val × Bool :=
  let (lo, hi) := (opsF32 ops 8, opsF32 ops 0x0C)
  if !opsBit ops 3 || v.isNaN then (v, false)
  else if v.lt lo then (lo, true)
  else if hi.lt v then (hi, true)
  else (v, false)

/-- A run of entries written to C from element n0 of a row: state, counted conversions, clamped elements. None is a bus
error. -/
def State.pipeRun (s : State) (a : Acc1) (t : Mat) (row n0 : Nat) (es : List W32) : Option (State × Nat × Nat) :=
  let o := t.ops
  let k := es.length
  if opsBit o 5 then (s.putCodes a t.c row n0 (es.map fun e => e.toNat)).map fun s => (s, 0, 0)
  else
    let vec := fun (on : Bool) (off : Nat) (f : Fmt) =>
      if on then (s.opsVec a o off f n0 k).map fun vs => vs.map some else some (List.replicate k none)
    (vec (opsScaleMode o == 2) 0x10 .f32).bind fun sc => (vec (opsBit o 2) 0x18 .f32).bind fun bs =>
      (vec (opsBit o 4) 0x20 .s32).bind fun ws =>
        let one := if opsScaleMode o = 1 then some (opsF32 o 4) else none
        let vs := es.zipIdx.map fun e =>
          clampVal o (t.scaled e.1 (match (sc.getD e.2 none) with | some q => some q | none => one) (bs.getD e.2 none)
            (ws.getD e.2 none))
        (s.putVals a t.c row n0 (vs.map (·.1))).map fun x => (x.1, x.2, (vs.filter (·.2)).length)

/-- Bytes that a run of elements n0 to n0 + k - 1 writes: element bytes and scale bytes (R193, R41). -/
def Desc.runBytes (d : Desc) (n0 k : Nat) : Nat :=
  ceilDiv ((n0 + k) * d.fmt.bits) 8 - n0 * d.fmt.bits / 8 + (if d.fmt.isBlock then ceilDiv (n0 + k) 32 - n0 / 32 else 0)

/-- The two values of an addition of partials (R137): S32 saturating, F32 toward zero. -/
def addPartials (isInt : Bool) (x y : W32) : W32 :=
  if isInt then (satS32 (x.toInt + y.toInt)).1 else (accF32 [ofF32 x, ofF32 y]).1

/-- The entries of a run of PART in slice c; none is a bus error. -/
def State.partRun (s : State) (a : Acc1) (d : Desc) (row n0 k : Nat) : Option (List W32) :=
  (s.rowCodes a d row n0 k).map fun cs => cs.map fun c => BitVec.ofNat 32 c.1

end Sys2Proof.Machine
end

