-- ==== Sys2Proof/Machine/Braid.lean ====
section
/-! DEFINITION. The Braid and the regions of the walker (R81 to R114, R132, R134, R137, R148, R150): accumulators, shadow loads,
knots, the output pipe, faults of a region, ramps of dummy issue and the cluster reset. -/

namespace Sys2Proof.Machine

/-! ### Accumulators (R82, R86, R103, R107) -/

/-- What a read of the word of strands 2 j and 2 j + 1 of an entry finds. -/
def State.accWord (s : State) (n entry j : Nat) : WordRead :=
  let i := s.ib n
  let k := entry * 256 + 2 * j
  decodeWord ((Tbl.get 0 i.acc k).toNat + (Tbl.get 0 i.acc (k + 1)).toNat * 2 ^ 32) (Tbl.get 0 i.accSyn (entry * 128 + j)).toNat

/-- A word read was corrected. -/
def WordRead.isCorrected : WordRead → Bool
  | .corrected _ => true
  | _ => false

/-- Entries of strands s0 to s0 + k - 1, with the number of corrected words; the lowest strand of an uncorrectable word
otherwise. -/
def State.accRead (s : State) (n entry s0 k : Nat) : Except Nat (List W32 × Nat) :=
  let ws := (List.range ((s0 + k + 1) / 2 - s0 / 2)).map fun i => (s0 / 2 + i, s.accWord n entry (s0 / 2 + i))
  match ws.find? fun w => w.2.value.isNone with
  | some w => .error (2 * w.1)
  | none =>
    let all := ws.flatMap fun w => let v := w.2.value.getD 0; [BitVec.ofNat 32 v, BitVec.ofNat 32 (v / 2 ^ 32)]
    .ok ((all.drop (s0 % 2)).take k, (ws.filter fun w => w.2.isCorrected).length)

/-- Entries of strands s0 onward written with clean check bytes, but for an armed flip of domain 3 (R434). -/
def State.accWrite (s : State) (n entry s0 : Nat) (vs : List W32) : State :=
  let j0 := s0 / 2
  let k := (s0 + vs.length + 1) / 2 - j0
  (s.modIb n fun i => { i with acc := Tbl.setList 0 i.acc (entry * 256 + s0) vs,
                               accSyn := Tbl.clear i.accSyn (entry * 128 + j0) k }).flipAcc n entry 1 j0 k

/-- Saturated entry writes of strands, in the SAT flags of their quarters and in BRD_SAT_COUNT (R86). -/
def State.accSat (s : State) (n s0 : Nat) (sat : List Bool) : State :=
  let s := (sat.zipIdx).foldl (fun (s : State) x =>
    if x.1 then s.setField (ibexReg n 1 8) (12 + (s0 + x.2) / 64) 1 1 else s) s
  s.count (ibexReg n 1 0x60) (sat.filter id).length

/-! ### Regions -/

/-- The region of a key on Ibex n. -/
def State.region (s : State) (n key : Nat) : Region := Tbl.get {} (s.ib n).regions key

/-- The state with a region changed. -/
def State.modRegion (s : State) (n key : Nat) (f : Region → Region) : State :=
  s.modIb n fun i => { i with regions := Tbl.modify {} i.regions key f }

/-- The product that a loaded instruction runs as, with its region's key and quarters. -/
def Loaded.quarters (l : Loaded) : List Nat :=
  match l.mat with
  | some t => (List.range (shapeQuarters t.shape)).map (regionKey t.shape t.region + ·)
  | none => []

/-- The jobs of the regions of Ibex n with their keys. -/
def State.jobs (s : State) (n : Nat) : List (Nat × Loaded) := (s.ib n).regions.filterMap fun e => e.2.job.map fun l => (e.1, l)

/-- The job whose region covers quarter q. -/
def State.jobAt (s : State) (n q : Nat) : Option (Nat × Loaded) := (s.jobs n).find? fun j => j.2.quarters.contains q

/-- Partition base in entries. -/
def State.accBase (s : State) (a : Acc1) : Nat := ((((s.ib a.ibex).resident a.ctx).map (·.accBase)).getD 0) * 64

/-- Whose tensors a loaded instruction reads on Ibex n. -/
def Loaded.acc1 (l : Loaded) (n : Nat) : Acc1 := ⟨n, l.ctx⟩

/-- Instructions completed (WLK_INSTR_DONE). -/
def State.instrDone (s : State) (n : Nat) : State := s.count (ibexReg n 2 0x50) 1

/-- What the registers show of the job of a region: its instruction, with the pass whose knot issued last, or the next one
(R153). -/
def Region.show (g : Region) (l : Loaded) : Shown :=
  let p := g.latest.or (g.shadow.or g.passes.head?)
  { opcode := opcode l.raw, ctx := l.ctx, idx := l.idx, slice := (p.map (·.slice)).getD 0, ordinal := (p.map (·.ordinal)).getD 0,
    quarters := l.quarters }

/-- The scratchpad ranges, first byte and length, of spans of context c on Ibex n. -/
def State.spmRanges (s : State) (n c : Nat) (ps : List Span) : List (Nat × Nat) :=
  (ps.filter (·.spm)).map fun p => (s.partBase (⟨n, c⟩ : Acc1) + p.base, p.len)

/-- A loaded instruction has read spans of its operands on Ibex n: the words that were corrected are rewritten and counted
(Table 12.1). -/
def State.mendReads (s : State) (n : Nat) (l : Loaded) (ps : List Span) : State := s.mendSpm n (s.spmRanges n l.ctx ps)

/-- A bus error of a loaded instruction that reads spans of its operands: where they hold a lost scratchpad word, the first is counted
and reported (Tables 12.1 and 12.7). -/
def State.lostRead (s : State) (n : Nat) (l : Loaded) (ps : List Span) (code : W16) : State :=
  if code ≠ Code.WALK_MEM_UE then s else s.lostSpm n (s.spmRanges n l.ctx ps)

/-- A region whose job has no pass left and no entry unread completes its instruction; one with SYNC waits for the others
(R138, R147). The words of its operands' spans count as read: DESIGN CHOICE, log entry 63. -/
def State.jobCheck (s : State) (n key : Nat) : State :=
  let g := s.region n key
  match g.job with
  | none => s
  | some l =>
    if g.passes.isEmpty && !((s.ib n).outq.any fun e => e.1 == key) then
      ((s.modRegion n key fun g => { g with
        job := none, shadow := none, flight := false, state := if syncBit l.raw then 3 else 0,
        shown := if syncBit l.raw then some (g.show l) else none }).mendReads n l l.reads).instrDone n
    else s

/-! ### Faults of a region (R103 to R106, R150) -/

/-- What stops a region: its code, the lowest strand involved and the entry. -/
abbrev Stop := W16 × Nat × Nat

/-- How far work on a region went: the state that it left, and what stopped it. What was written before a fault stays (R104). -/
abbrev Ran := State × Option Stop

/-- The region stops (R104): its products and the rest of its tiles are dropped, the fault is recorded in the registers of its
quarters and in WLK_LOAD_ERR, and the region is in FAULT with its next pass at parity 0. -/
def State.regionStop (s : State) (n key : Nat) (parity : Bool) (f : Stop) : State :=
  let g := s.region n key
  match g.job with
  | none => s
  | some l =>
    let v := f.1.toNat + l.ctx % 1024 * 2 ^ 16 + (if parity then 2 ^ 26 else 0) + f.2.2 % 2048 * 2 ^ 28 + f.2.1 % 256 * 2 ^ 39
    let s := if f.1.toNat / 256 = 9 then l.quarters.foldl (fun s q => s.errReg (ibexReg n 1 (0x10 + 8 * q)) v) s else s
    ((s.lostRead n l l.reads f.1).loadErr n f.1 l.ctx 0 l.idx).modIb n fun i => { i with
      regions := Tbl.set {} i.regions key { state := 5, shown := some (g.show l) }, outq := i.outq.filter fun e => e.1 != key }

/-! ### Passes -/

/-- Staged bytes of an operand in HBM: how often a tile is staged again is timing, so WLK_FETCH_BYTES takes a fresh value
(log entry 14). -/
def State.countStaged (s : State) (n : Nat) (d : Desc) : State :=
  if d.spm then s else (s.countFree (ibexReg n 2 0x68)).countFree (ibexReg n 2 0x78)

/-- A ramp-up begins, or reverses a ramp-down, with the first shadow load after it (R111): with k groups running, group k starts at
once; with all eight running, the ramp-down just ends. -/
def State.rampUp (s : State) (n : Nat) : State :=
  let r := (s.ib n).ramp
  if s.regField (ibexReg n 1 0) 0 1 = 0 || r.level = 8 && !r.ramping || r.up && r.ramping then s
  else
    let k := min 8 (r.level + 1)
    s.modIb n fun i => { i with ramp := { r with level := k, ramping := decide (k < 8), up := true,
                                                 len := s.regField (ibexReg n 1 0) 8 6 } }

/-- The rows of a GEMV pass, which the feed fetches into the vector buffer before the shadow load (R98); no row is fetched ahead in
another shape. None is a bus error. -/
def State.fetchRows (s : State) (a : Acc1) (t : Mat) (p : Pass) : Option (List (List Val)) :=
  if t.shape = 4 then optAll ((List.range (t.rowsOf p)).map fun i => s.actRow a t p (t.tm * p.row + i)) else some []

/-- The shadow load of the next pass of a region (R89, R98, R140); a ramp-up begins with it even where it meets a bus error (R111). -/
def State.shadowOf (s : State) (n key : Nat) (l : Loaded) (t : Mat) (p : Pass) : Ran :=
  match s.fetchRows (l.acc1 n) t p, s.loadTile (l.acc1 n) t p with
  | some rows, some w =>
    let s := if t.shape = 4 then s.countStaged n t.a else s
    (((s.countStaged n t.w).modRegion n key fun g => { g with shadow := some p, weights := w, nextRows := rows }).rampUp n, none)
  | _, _ => (s.rampUp n, some (Code.WALK_MEM_UE, 0, 0))

/-- Counts of the window generator for vector i of a pass (R163, R167). -/
def State.winCount (s : State) (n : Nat) (t : Mat) (p : Pass) (i : Nat) : State :=
  match t.win with
  | none => s
  | some w =>
    let k0 := p.slice * t.kpp
    let (rd, el, st) := w.counts t.band.isSome (t.tm * p.row + i) k0 (k0 + t.live p)
    (((s.count (ibexReg n 3 0) 1).count (ibexReg n 3 8) rd).count (ibexReg n 3 0x10) el).count (ibexReg n 3 0x18) st

/-- Vector i of a pass of region g: from the vector buffer in GEMV, read now in another shape. -/
def State.vectorOf (s : State) (g : Region) (a : Acc1) (t : Mat) (p : Pass) (i : Nat) : Option (List Val) :=
  if t.shape = 4 then g.rows[i]? else s.actRow a t p (t.tm * p.row + i)

/-- One vector of a pass of region g against its active weights, into its entry in every strand of the region. Every vector reads its
entry (Table 3.1); a CLEAR pass makes no use of the value read (R75). -/
def State.issueRow (s : State) (n : Nat) (g : Region) (l : Loaded) (t : Mat) (p : Pass) (i : Nat) : Ran :=
  let a := l.acc1 n
  let k := shapeStrands t.shape
  let s0 := 64 * regionKey t.shape t.region
  let e := s.accBase a + t.entryOf p + i
  match s.vectorOf g a t p i with
  | none => (s, some (Code.WALK_MEM_UE, 0, 0))
  | some acts =>
    match s.accRead n e s0 k with
    | .error x => (s, some (Code.BRD_ACC_UE, x, e))
    | .ok (prev, ce) =>
      let rs := (List.range k).map fun j => accumulate t.isInt (if p.first then none else prev[j]?) (t.terms g.active p j acts)
      let s := (s.count (ibexReg n 1 0x68) ce).accWrite n e s0 (rs.map (·.1))
      ((s.accSat n s0 (rs.map (·.2))).winCount n t p i, none)

/-- Region g as the knot of its pass p leaves it: the registers swap in every strand, the pointer set of the pass's parity is
loaded, the buffered rows issue (R87, R88, R91, R98). -/
def Region.knot (g : Region) (ptr : Ptr) (p : Pass) : Region := { g with
  active := g.weights, weights := g.active, rows := g.nextRows, nextRows := g.rows, shadow := none, passes := g.passes.drop 1,
  latest := some p, flight := true, parity := !g.parity,
  ptr0 := if g.parity then g.ptr0 else ptr, ptr1 := if g.parity then ptr else g.ptr1 }

/-- Array operations of a pass, two for each multiplier of its region and vector: every tile runs at full shape (R100, Table 1.2). The split of
F32 runs 16-bit products. -/
def Mat.work (t : Mat) (p : Pass) : Work :=
  let k := 2 * t.rowsOf p * shapeStrands t.shape * t.kpp
  if t.a.fmt.bits = 4 then { op4 := k } else if t.a.fmt.bits < 16 then { op8 := k } else { op16 := k }

/-- The knot of a pass issues, and its vectors after it (R87, R88, R90, R132); vectors that issued before a fault have had their
effect. The pass keeps the parity of its knot. -/
def State.knotOf (s : State) (n key : Nat) (l : Loaded) (t : Mat) (p : Pass) : Ran :=
  let p := { p with parity := (s.region n key).parity }
  let g := (s.region n key).knot { entryBase := s.accBase (l.acc1 n) + t.entryOf p, clear := p.first, last := p.last } p
  let s := ((s.modRegion n key fun _ => g).count (ibexReg n 1 0x58) 1).countFree (ibexReg n 1 0x40)
  let s := (if t.shape = 4 then s else s.countStaged n t.a).addWork l.ctx (t.work p)
  match (List.range (t.rowsOf p)).foldl (fun (r : Ran) i => if r.2.isSome then r else r.1.issueRow n g l t p i) (s, none) with
  | (s, some f) => (s, some f)
  | (s, none) =>
    (if p.last then (s.count (ibexReg n 2 0x58) 1).modIb n fun i => { i with outq := i.outq ++ [(key, p)] } else s, none)

/-! ### The output pipe -/

/-- Counts of a run of elements: QNT_ELEMS, QNT_SAT, QNT_CLAMPED, WLK_WRITE_BYTES, and the layer count or WIDE_SAT (R197, R206). -/
def State.pipeCounts (s : State) (n : Nat) (l : Loaded) (elems sat clamped bytes : Nat) : State :=
  let s := ((s.count (ibexReg n 4 0x10) elems).count (ibexReg n 4 0x18) sat).count (ibexReg n 4 0x20) clamped
  let s := s.count (ibexReg n 2 0x70) bytes
  match (s.queue l.queue).held with
  | none => s
  | some st =>
    match st.ranks[l.rank]? with
    | none => s
    | some r =>
      if r.wideEnd ≠ 0 then s.modRank l.queue l.rank fun r => { r with wideSat := r.wideSat + sat }
      else if r.layer.isEmpty then s
      else
        let v := min 0xFFFFFFFF (r.sat + sat)
        (s.modRank l.queue l.rank fun r => { r with sat := v }).setReg (ibexReg n 4 8) (BitVec.ofNat 64 v)

/-- Elements of one run through the pipe, with its counts. -/
def State.pipeOut (s : State) (n : Nat) (l : Loaded) (t : Mat) (row n0 : Nat) (es : List W32) : Ran :=
  match s.pipeRun (l.acc1 n) t row n0 es with
  | none => (s, some (Code.WALK_MEM_UE, 0, 0))
  | some (s, sat, cl) => (s.pipeCounts n l es.length sat cl (t.c.runBytes n0 es.length), none)

/-- One run of a tile: its entries go to the pipe, or to PART under a split over K (R137, R193). -/
def State.tileRun (s : State) (n : Nat) (l : Loaded) (t : Mat) (row n0 : Nat) (es : List W32) : Ran :=
  match (if t.split = 2 then t.part else none) with
  | none => s.pipeOut n l t row n0 es
  | some d =>
    match s.putCodes (l.acc1 n) d (l.rank * t.c.rows + row) n0 (es.map fun e => e.toNat) with
    | none => (s, some (Code.WALK_MEM_UE, 0, 0))
    | some s => (s.count (ibexReg n 2 0x70) (d.runBytes n0 es.length), none)

/-- Row i of a tile: the words of its entry are read once, and its runs are written in order (R193). -/
def State.tileRow (s : State) (n : Nat) (l : Loaded) (t : Mat) (p : Pass) (i : Nat) : Ran :=
  let e := s.accBase (l.acc1 n) + t.entryOf p + i
  let rs := t.runs p i
  let k := (rs.map fun r => r.2.2.1 + r.2.2.2).foldl max 0
  match s.accRead n e (64 * regionKey t.shape t.region) k with
  | .error x => (s, some (Code.BRD_ACC_UE, x, e))
  | .ok (es, ce) =>
    rs.foldl (fun (o : Ran) r => if o.2.isSome then o else o.1.tileRun n l t r.1 r.2.1 ((es.drop r.2.2.1).take r.2.2.2))
      (s.count (ibexReg n 1 0x68) ce, none)

/-- The runs of every row of a tile, in order. -/
def Mat.tileRuns (t : Mat) (p : Pass) : List (Nat × Nat × Nat × Nat) := (List.range (t.rowsOf p)).flatMap (t.runs p)

/-- One run of the sum of G partials, added in the order given (R137, R199). -/
def State.sumRun (s : State) (n : Nat) (l : Loaded) (t : Mat) (d : Desc) (order : List Nat) (r : Nat × Nat × Nat × Nat) : Ran :=
  match optAll (order.map fun c => s.partRun (l.acc1 n) d (c * t.c.rows + r.1) r.2.1 r.2.2.2) with
  | none => (s, some (Code.WALK_MEM_UE, 0, 0))
  | some [] => (s, none)
  | some (x :: xs) => s.pipeOut n l t r.1 r.2.1 (xs.foldl (fun a b => List.zipWith (addPartials t.isInt) a b) x)

/-- A tile of a K split is complete on this cluster; the last cluster to complete it adds the partials, in ascending order in
exact mode and in order of completion otherwise (R137). -/
def State.tileDone (s : State) (n : Nat) (l : Loaded) (t : Mat) (p : Pass) : Ran :=
  match (s.queue l.queue).held, (if t.split = 2 then t.part else none) with
  | some st, some d =>
    let all := st.kdone ++ [(l.idx, p.row, p.col, l.rank)]
    let (mine, rest) := all.partition fun x => x.1 == l.idx && x.2.1 == p.row && x.2.2.1 == p.col
    if mine.length < l.g then (s.modStep l.queue fun st => { st with kdone := all }, none)
    else
      let order := if s.ctx l.ctx 0x14 = 1 then List.range l.g else mine.map fun x => x.2.2.2
      let s := s.modStep l.queue fun st => { st with kdone := rest }
      (t.tileRuns p).foldl (fun (o : Ran) x => if o.2.isSome then o else o.1.sumRun n l t d order x) (s, none)
  | _, _ => (s, none)

/-- The output pipe takes one tile of a region (R193): its rows are written, and the region's job may complete. -/
def State.outputOf (s : State) (n key : Nat) (l : Loaded) (t : Mat) (p : Pass) : Ran :=
  match (List.range (t.rowsOf p)).foldl (fun (o : Ran) i => if o.2.isSome then o else o.1.tileRow n l t p i) (s, none) with
  | (s, some f) => (s, some f)
  | (s, none) =>
    match s.tileDone n l t p with
    | (s, some f) => (s, some f)
    | (s, none) =>
      let s := s.modIb n fun i => { i with outq := i.outq.filter fun e => !(e.1 == key && e.2 == p) }
      ((s.modRegion n key fun g => { g with flight := g.flight && g.latest != some p }).jobCheck n key, none)

/-- The parity of the pass that a region issued last. -/
def Region.lastParity (g : Region) : Bool := !g.parity

/-- The gap before a knot of context c on Ibex n is over: its dummy issue is counted, and the next gap comes after an instruction of
that context (R114). -/
def State.endGap (s : State) (n c : Nat) : State :=
  (if (s.ib n).ramp.level = 0 then s else s.dummies n).modIb n fun i => { i with before := some c }

/-- A ramp-up in progress runs to its end: all eight groups issue (R111). -/
def State.endRamp (s : State) (n : Nat) : State :=
  if (s.ib n).ramp.ramping && (s.ib n).ramp.up then
    (s.dummies n).modIb n fun i => { i with ramp := { i.ramp with level := 8, ramping := false } }
  else s

/-- A region runs its job to the end, or stops by a fault of its own (R105). A ramp-up ends before its knot, and how long the knot is
held is time (R90, R111; log entry 14). -/
def State.finishRegion (s : State) (n key : Nat) : Nat → State
  | 0 => s
  | fuel + 1 =>
    let g := s.region n key
    match g.job with
    | none => s
    | some l =>
      match l.mat with
      | none => s
      | some t =>
        match (s.ib n).outq.find? fun e => e.1 == key with
        | some e =>
          match s.outputOf n key l t e.2 with
          | (s, none) => s.finishRegion n key fuel
          | (s, some f) => s.regionStop n key e.2.parity f
        | none =>
          match g.passes with
          | [] => s
          | p :: _ =>
            match (if g.shadow.isSome then (((s.endRamp n).countFree (ibexReg n 1 0x50)).endGap n l.ctx).knotOf n key l t p
              else s.shadowOf n key l t p) with
            | (s, none) => s.finishRegion n key fuel
            | (s, some f) => s.regionStop n key g.parity f

/-- Every region of Ibex n completes its job (R105). -/
def State.finishJobs (s : State) (n : Nat) : State :=
  (s.jobs n).foldl (fun s j => s.finishRegion n j.1 (3 * (s.region n j.1).passes.length + (s.ib n).outq.length + 1)) s

/-- Faults of regions in one cycle, each with its region's key and parity: every one stops and records its own code, the other regions
of the Braid complete, and the contexts fault (R104 to R106, R337). -/
def State.regionFaults (s : State) (n : Nat) (hits : List (Nat × Bool × Stop)) : State :=
  let who := hits.filterMap fun h => (s.region n h.1).job.map fun l => (l.ctx, l.queue, h.2.2.1)
  let s := (hits.foldl (fun (s : State) h => s.regionStop n h.1 h.2.1 h.2.2) s).finishJobs n
  who.foldl (fun s w => s.faultCtx w.1 w.2.1 w.2.2) s

/-- A fault of one region. -/
def State.regionFault (s : State) (n key : Nat) (parity : Bool) (f : Stop) : State := s.regionFaults n [(key, parity, f)]

/-- Where work on a region went well, its state; where it stopped, the fault of the region. -/
def State.orFault (r : Ran) (n key : Nat) (parity : Bool) : State :=
  match r.2 with
  | none => r.1
  | some f => r.1.regionFault n key parity f

/-- Tiles that wait for the output pipe of Ibex n are written; the walker stops there (R148, R350). An error there is the fault of its
region, which comes before a late drop (R104, Table 10.11). -/
def State.drainOut (s : State) (n : Nat) : State :=
  (s.ib n).outq.foldl (fun s e =>
    match (s.region n e.1).job with
    | none => s
    | some l => match l.mat with
      | none => s
      | some t => match s.outputOf n e.1 l t e.2 with
        | (s, none) => s
        | (s, some f) => s.regionFault n e.1 e.2.parity f) s

/-! ### Commands -/

/-- Entries that a pass targets belong to a tile that the output pipe has not read (R90). -/
def State.unread (s : State) (n key : Nat) (t : Mat) (p : Pass) : Bool :=
  let lo := t.entryOf p
  (s.ib n).outq.any fun e => e.1 == key && decide (t.entryOf e.2 < lo + t.rowsOf p) && decide (lo < t.entryOf e.2 + t.rowsOf e.2)

/-- The next pass of the region that covers quarter q, with its job and product. -/
def State.nextPass (s : State) (n q : Nat) : Option (Nat × Loaded × Mat × Pass) :=
  (s.jobAt n q).bind fun j => j.2.mat.bind fun t => (s.region n j.1).passes.head?.map fun p => (j.1, j.2, t, p)

/-- SHADOW_LOAD (R89): the weights of the region's next pass. -/
def execShadowLoad (n : IbexId) (q : Quarter) (s : State) : Host.Outcome State Fault Refusal :=
  match s.nextPass n.val q.val with
  | none => go s
  | some (key, l, t, p) =>
    if (s.region n.val key).shadow.isSome then go s
    else go (State.orFault (s.shadowOf n.val key l t p) n.val key (s.region n.val key).parity)

/-- KNOT_LIMIT in CLKA cycles (R91). -/
def State.knotLimit (s : State) (n : Nat) : Nat := 256 * s.regField (ibexReg n 1 0) 16 16

/-- A region is in a knot hold: it has a next pass, and one of the first three conditions of R90 is not met. -/
def State.knotHeld (s : State) (n key : Nat) (t : Mat) (p : Pass) : Bool := (s.region n key).shadow.isNone || s.unread n key t p

/-- The hold of a knot passes its limit: the cycle after the limit counts too, and the region faults with its lowest strand
(R91, R117). -/
def State.holdFault (s : State) (n key : Nat) : State :=
  (s.count (ibexReg n 1 0x50) (s.knotLimit n + 1)).regionFault n key (s.region n key).parity (Code.BRD_KNOT_HOLD, 64 * key, 0)

/-- KNOT_ISSUE (R90, R91): `held` knot-hold cycles came before it. -/
def execKnotIssue (n : IbexId) (q : Quarter) (held : Nat) (s : State) : Host.Outcome State Fault Refusal :=
  match s.nextPass n.val q.val with
  | none => go s
  | some (key, l, t, p) =>
    let g := s.region n.val key
    let r := (s.ib n.val).ramp
    if s.knotHeld n.val key t p || (r.ramping && r.up) then go s
    else if s.knotLimit n.val < held then go (s.holdFault n.val key)
    else
      let s := s.count (ibexReg n.val 1 0x50) held
      go (State.orFault ((s.endGap n.val l.ctx).knotOf n.val key l t p) n.val key g.parity)

/-- BRD_KNOT_HOLD (R90): a hold has passed its limit. -/
def execBrdKnotHold (n : IbexId) (q : Quarter) (s : State) : Host.Outcome State Fault Refusal :=
  match s.nextPass n.val q.val with
  | none => go s
  | some (key, _, t, p) => if s.knotHeld n.val key t p then go (s.holdFault n.val key) else go s

/-- The code of a check that the Braid makes (Table 3.9). -/
def braidCode : BraidCheck → W16
  | .accUe => Code.BRD_ACC_UE
  | .wregPar => Code.BRD_WREG_PAR
  | .feedPar => Code.BRD_FEED_PAR

/-- The region, parity and fault that a hit names, none where its quarter runs nothing. -/
def State.hitOf (s : State) (n : Nat) (h : RegionHit) : Option (Nat × Bool × Stop) :=
  (s.jobAt n h.q.val).map fun j => (j.1, (s.region n j.1).lastParity,
    (braidCode h.check, h.strand.val, if h.check = .accUe then h.entry.val else 0))

/-- REGION_FAULT (R103, R104), with the faults of other regions in the same cycle (R106). -/
def execRegionFault (n : IbexId) (hit : RegionHit) (also : List RegionHit) (s : State) : Host.Outcome State Fault Refusal :=
  go (s.regionFaults n.val ((hit :: also).filterMap (s.hitOf n.val)))

/-- OUTPUT_TILE (R193): the pipe takes the tile whose LAST pass completed first. -/
def execOutputTile (n : IbexId) (s : State) : Host.Outcome State Fault Refusal :=
  match (s.ib n.val).outq with
  | [] => go s
  | (key, p) :: _ =>
    match (s.region n.val key).job with
    | none => go s
    | some l => match l.mat with
      | none => go s
      | some t => go (State.orFault (s.outputOf n.val key l t p) n.val key p.parity)

/-- No region of Ibex n has a shadow load that waits for its knot (R110). -/
def State.noShadow (s : State) (n : Nat) : Bool := (s.ib n).regions.all fun e => e.2.shadow.isNone

/-- RAMP_DOWN (R110): after 64 counted gap cycles the ramp-down begins. -/
def execRampDown (n : IbexId) (s : State) : Host.Outcome State Fault Refusal :=
  let r := (s.ib n.val).ramp
  if s.regField (ibexReg n.val 1 0) 0 1 = 0 || r.ramping || r.level = 0 || !s.noShadow n.val then go s
  else go (s.modIb n.val fun i => { i with ramp := { r with ramping := true, up := false, len := s.regField (ibexReg n.val 1 0) 8 6 } })

/-- RAMP_GROUP_STEP (R110, R111): one more strand group stops or starts dummy issue. -/
def execRampGroupStep (n : IbexId) (s : State) : Host.Outcome State Fault Refusal :=
  let r := (s.ib n.val).ramp
  if !r.ramping then go s
  else
    let v := if r.up then r.level + 1 else r.level - 1
    let s := s.dummies n.val
    go (s.modIb n.val fun i => { i with ramp := { r with level := v, ramping := if r.up then decide (v < 8) else decide (0 < v) } })

/-- Registers of an Ibex that survive a cluster reset: BRD_CFG, BRD_FAULTq, WLK_CFG, WLK_LOAD_ERR (Tables 3.8, 4.6). -/
def survivesCluster (o : Nat) : Bool :=
  o == 0x10000 || (decide (0x10010 ≤ o) && decide (o < 0x10030)) || o == 0x20000 || o == 0x20048

/-- BRD_RESET recorded for the regions of Ibex n that had a pass in flight (R108, Table 3.9): a knot has issued since its job or its
latest read tile, and a quarter of it is listed. -/
def State.resetRegions (s : State) (n : Nat) (inFlight : List Nat) : State :=
  (s.jobs n).foldl (fun s j =>
    let g := s.region n j.1
    if g.flight && j.2.quarters.any inFlight.contains then
      j.2.quarters.foldl (fun (s : State) q =>
        s.errReg (ibexReg n 1 (0x10 + 8 * q)) (Code.BRD_RESET.toNat + j.2.ctx % 1024 * 2 ^ 16 +
          (if g.lastParity then 2 ^ 26 else 0) + 64 * j.1 * 2 ^ 39)) (s.loadErr n Code.BRD_RESET j.2.ctx 0 j.2.idx)
    else s) s

/-- CLUSTER_RESET (R108, R151, Table 10.11): passes in flight are recorded (when the last product has drained is time, so the
quarters in flight are an operand, log entry 14), everything on the Ibex is dropped and zeroed, and each step with a rank there
faults. -/
def execClusterReset (n : IbexId) (inFlight : List Quarter) (s : State) : Host.Outcome State Fault Refusal :=
  let hit := s.openSteps.filter fun x => x.2.on n.val
  let s := s.gapEnds n.val
  let s := s.resetRegions n.val (inFlight.map (·.val))
  let s := s.modIb n.val fun i => { i with
    acc := [], accSyn := [], slots := [], cur := none, regions := [], outq := [], ramp := {}, ran := none, before := none }
  let base := ibexReg n.val 0 0
  let s := s.dropRegs fun k => decide (base ≤ k) && decide (k < base + 0x200000) && !survivesCluster (k - base)
  let ctxs := (hit.map fun x => x.2.ctx).eraseDups
  go (ctxs.foldl (fun s c => s.faultOnly c ((hit.filter fun x => x.2.ctx == c).map (·.1)) Code.SCH_CLUSTER_RESET) s).schedule

/-- A write of BRD_CFG (R113, R116): range-checked as a whole; a change of DUMMY_EN starts a ramp-down or full dummy issue. -/
def State.brdCfg (s : State) (n v : Nat) : State :=
  let len := field v 13 8
  let lim := field v 31 16
  if len < 4 || 32 < len || lim = 0 then s.logErr Code.BRD_CFG_RANGE 0 5 n (v % 2 ^ 32) (some 0)
  else
    let on := bitOf v 0
    let was := s.regField (ibexReg n 1 0) 0 1 == 1
    let s := s.setReg (ibexReg n 1 0) (BitVec.ofNat 64 ((if on then 1 else 0) + len * 256 + lim * 65536))
    let r := (s.ib n).ramp
    if was && !on && r.level ≠ 0 then
      s.modIb n fun i => { i with ramp := { r with ramping := true, up := false, len := if r.ramping && !r.up then r.len else len } }
    else if !was && on && !(s.ib n).gated then
      s.modIb n fun i => { i with ramp := { r with level := 8, ramping := false } }
    else s

/-- BRD_CFG_WRITE (R113, R116): the registers of the clusters lie in PF0's BAR0 alone. -/
def execBrdCfgWrite (fn : Fn) (n : IbexId) (v : W32) (s : State) : Host.Outcome State Fault Refusal :=
  s.hostAct fn.val 4 fun s => if fn.val = 0 then s.brdCfg n.val v.toNat else s

end Sys2Proof.Machine
end

