-- ==== Sys2Proof/Machine/Entries.lean ====
section
/-! DEFINITION. The checks that every dictionary access passes, the mailbox and the answer to an access (R526 to R539,
R631). The effects of a write are the owning chapters'. -/

namespace Sys2Proof.Machine

/-- A code that answers a write or a start also enters the error register of its family where that family's rule says so (R379, R414,
R488, R525, R459). -/
def State.famErr (s : State) (code : W16) (k : Nat) : State :=
  let f := code.toNat / 256
  if f = 2 then s.errReg (hpBase + 0x10) (code.toNat + k % 64 * 2 ^ 16)
  else if f = 3 then s.setEntry 0x1300 0x0C code.toNat
  else if f = 4 then s.errReg (tthBase + 0x200) (code.toNat + s.entry 0x1400 0x20 % 16 * 2 ^ 16)
  else if code = Code.MEM_PARAM_BLOCK then s.errReg (memBase + 0x80) code.toNat
  else if f = 6 then s.errReg (coilBase + 0x80) code.toNat
  else if f = 7 then s.errReg (schBase + 0x80) code.toNat
  else s

/-- A change of the start state. -/
def State.modStart (s : State) (f : Start → Start) : State := { s with start := f s.start }

/-- A code of the start family: the error log and LAST_CODE (R592). -/
def State.startLog (s : State) (code : W16) (detail : Nat) : State := (s.logErr code originDev 0 0 detail none).famErr code 0

/-- A code of the boot ROM, entered when the start ends (R592). -/
def State.romLog (s : State) (code : W16) (detail : Nat) : State := s.modStart fun x => { x with codes := x.codes ++ [(code, detail)] }

/-- The start has ended: its codes enter the log. -/
def State.flushCodes (s : State) : State :=
  (s.start.codes.foldl (fun s c => s.startLog c.1 c.2) s).modStart fun x => { x with codes := [] }

/-- A rejected dictionary write (R531): the code enters the error log with the entry and the value's low 32 bits. -/
def State.rejectEntry (s : State) (code : W16) (o : Origin) (idx sub : Nat) (v : List Byte) : State :=
  let s := s.logErr code (originNo o) 4 (dkey idx sub) (natLE (v.take 4)) (match o with | .fn k => some k.val | .kdp => none)
  s.famErr code (match o with | .fn k => k.val | .kdp => 0)

/-- Ranges served in every power state (R536). -/
def alwaysOn (idx : Nat) : Bool := [0x1000, 0x1100, 0x1300, 0x1400, 0x6000].contains idx

/-- Ranges served in recovery (R578). -/
def inRecovery (idx : Nat) : Bool := [0x1000, 0x1100, 0x1300, 0x6000].contains idx

/-- Stream and context indices, whose OWNER_FN gives a VF its rights (R530). -/
def isStreamIdx (idx : Nat) : Bool := decide (0x2000 ≤ idx) && decide (idx < 0x2040)
/-- Context indices. -/
def isCtxIdx (idx : Nat) : Bool := decide (0x3000 ≤ idx) && decide (idx < 0x3400)

/-- Step 6 of Table 16.2 (R530, R554): the rights of an origin. -/
def State.right (s : State) (o : Origin) (idx sub : Nat) (write : Bool) : Option W16 :=
  match o with
  | .kdp =>
    if write && idx == 0x1100 && sub == 0x0C then some Code.DICT_NOT_OWNER
    else if write && s.entry 0x1100 0x08 == 0 then some Code.DICT_KDP_LOCKED
    else none
  | .fn k =>
    if k.val = 0 then none
    else if idx = 0x1000 then (if write then some Code.DICT_NOT_OWNER else none)
    else if isStreamIdx idx then
      (if s.entry idx 0x0C ≠ k.val || (write && sub == 0x0C) then some Code.DICT_NOT_OWNER else none)
    else if isCtxIdx idx then
      (if s.entry idx 0x03 ≠ k.val || (write && (sub == 0x03 || sub == 0x04)) then some Code.DICT_NOT_OWNER else none)
    else some Code.DICT_NOT_OWNER

/-- A length that a write of the type carries (R528); every BLOB entry that can be written has one length. -/
def DTy.lenOk (t : DTy) (n : Nat) : Bool :=
  match t with
  | .u8 => n == 1
  | .u16 => n == 2
  | .u32 | .s32 => n == 4
  | .u64 => n == 8
  | .str m => decide (n ≤ m)
  | .blob m => n == m

/-- A numeric type. -/
def DTy.numeric : DTy → Bool
  | .str _ | .blob _ => false
  | _ => true

/-- Steps 3 to 9 of Table 16.2: the first that fails. -/
def State.dictGate (s : State) (o : Origin) (idx sub : Nat) (write : Bool) (v : List Byte) : Option W16 :=
  if (s.power = 3 && !alwaysOn idx) || (s.stage = 14 && !inRecovery idx) then some Code.DICT_UNAVAIL
  else if (dictRows idx).isEmpty then some Code.DICT_NO_INDEX
  else
    match dictRow idx sub with
    | none => some Code.DICT_NO_SUB
    | some r =>
      match s.right o idx sub write with
      | some c => some c
      | none =>
        if !write then none
        else
          match r.acc with
          | .ro | .const => some Code.DICT_READ_ONLY
          | _ =>
            if !r.ty.lenOk v.length then some Code.DICT_LENGTH
            else match r.ty with
              | .str _ => if v.all fun b => decide (0x20 ≤ b.toNat) && decide (b.toNat ≤ 0x7E) then none else some Code.DICT_VALUE
              | _ => none

/-- The mailbox of function k (Table 16.3): DM_REQ, DM_LEN, DM_STATUS, DM_DATA. -/
def dmReg (k o : Nat) : Nat := fnReg k (dmBase + o)

/-- DONE of a mailbox. -/
def State.dmDone (s : State) (k : Nat) : Bool := s.regField (dmReg k 0x10) 16 1 == 1

/-- DM_STATUS with a result, and DONE (R538). -/
def State.dmResult (s : State) (k : Nat) (code : W16) (done : Bool) : State :=
  s.setReg (dmReg k 0x10) (BitVec.ofNat 64 (code.toNat + if done then 0x10000 else 0))

/-- Bytes written to DM_DATA of function k from an offset. -/
def State.dmPut (s : State) (k o : Nat) (bs : List Byte) : State := { s with dm := Tbl.setList 0 s.dm (k * 65536 + o) (bs.take (65536 - o)) }

/-- What a host writes to its mailbox for an access (R538): the value in DM_DATA with its length in DM_LEN for a write, and
DM_REQ. -/
def State.dmRequest (s : State) (k idx sub : Nat) (write : Bool) (v : List Byte) : State :=
  let s := if write then (s.dmPut k 0 v).setReg (dmReg k 8) (BitVec.ofNat 64 (v.length % 2 ^ 17)) else s
  s.setReg (dmReg k 0) (BitVec.ofNat 64 (idx + sub * 2 ^ 16 + (if write then 2 else 1) * 2 ^ 24))

/-- A dictionary write of an origin: the checks of Table 16.2, then the owner's effect, and the result. The effect answers a
code where the owner's state or range refuses. -/
def State.dictTry (s : State) (o : Origin) (idx sub : Nat) (v : List Byte) (f : State → Except W16 State) : State × W16 :=
  let s := if alwaysOn idx then s else s.wakeUp
  match s.dictGate o idx sub true v with
  | some c => (s.rejectEntry c o idx sub v, c)
  | none =>
    match f s with
    | .error c => (s.rejectEntry c o idx sub v, c)
    | .ok s => (s, 0)

/-- An access to an entry that is not always on, in Nap: it is a wake event, and completes after the wake (R536). -/
def State.mustWake (s : State) (idx : Nat) : Bool := s.power == 2 && !alwaysOn idx

/-- The access waits for the wake, in its place; a mailbox shows DONE 0 meanwhile (R533, R536, R538). -/
def State.napAccess (s : State) (o : Origin) (idx sub : Nat) (write : Bool) (v : List Byte) : State :=
  let s := s.wakeUp
  let s := { s with store := { s.store with napped := s.store.napped ++ [⟨o, idx, sub, write, v⟩] } }
  match o with
  | .fn k => s.dmResult k.val 0 false
  | .kdp => s

/-- A path that takes an access: a function's mailbox through its BAR, with DICT_BUSY while an access is in progress
(R538), or KDP, whose frames are the field network's commands. -/
def State.viaPath (s : State) (o : Origin) (idx sub : Nat) (write : Bool) (v : List Byte) (f : State → State × W16) :
    Host.Outcome State Fault Refusal :=
  match o with
  | .kdp => if s.mustWake idx then go (s.napAccess o idx sub write v) else go (f s).1
  | .fn k => s.hostDict k.val (if write then 8 + v.length else 4) fun s =>
      if !s.dmDone k.val then s.rejectEntry Code.DICT_BUSY o idx sub v
      else
        let s := s.dmRequest k.val idx sub write v
        if s.mustWake idx then s.napAccess o idx sub write v
        else
          let r := f s
          r.1.dmResult k.val r.2 true

/-- A command entry or another entry with an effect of its own, written by an origin. -/
def State.dictCmd (s : State) (o : Origin) (idx sub : Nat) (v : List Byte) (f : State → Except W16 State) :
    Host.Outcome State Fault Refusal :=
  s.viaPath o idx sub true v fun s => s.dictTry o idx sub v f

end Sys2Proof.Machine
end

