-- ==== Sys2Proof/Machine/Contexts.lean ====
section
/-! DEFINITION. Context commands, hitch writes of the host, and the time-out of a hitch wait (R333 to R338, R363
to R373). -/

namespace Sys2Proof.Machine

/-! ### Contexts -/

/-- Bytes of one image of the save area (R361). -/
def State.imageSize (s : State) (c : Nat) : Nat := 4096 + s.ctx c 0x08 * 262144 + s.ctx c 0x09 * 65536

/-- Bytes of the save area of context c, rounded up to 2 MiB (R361, R388). -/
def State.saveSize (s : State) (c : Nat) : Nat := ceilDiv (s.ctx c 0x16 * s.imageSize c) 0x200000 * 0x200000

/-- Checks 1 to 5 of ENABLE (R335). -/
def State.enableOk (s : State) (c : Nat) : Bool :=
  let h := s.ctx c 0x04
  let inside := fun (off cnt size : Nat) => decide (s.ctx c off + s.ctx c cnt * size ≤ s.ctx c 0x06)
  s.enabled (s.ctx c 0x03) && s.pcMask h != 0 && s.wayMask h != 0 &&
    inside 0x0A 0x0B 64 && inside 0x0C 0x0D 64 && inside 0x0E 0x0F 32 && inside 0x10 0x11 64 && inside 0x12 0x13 64 &&
    !(s.ctx c 0x14 == 1 && s.ctx c 0x15 == 0) && decide (s.ctx c 0x15 ≤ s.ctx c 0x16) && decide (s.ctx c 0x19 < s.ctx c 0x18)

/-- Context c starts unshed, in the present periods of its queues as well (R474). -/
def State.startUnshed (s : State) (c : Nat) : State :=
  (s.sch.queues.filter fun e => e.2.shedAt && e.2.ctx == c).foldl (fun s e => s.setQueue e.1 { (s.queue e.1) with shedAt := false })
    (s.unshed c)

/-- ENABLE (R335): checks 1 to 6 in order, then ENABLING with window and save area taken; the herd's pseudo-channels are in the steady
class (R398). -/
def State.ctxEnable (s : State) (c : Nat) : Except W16 State :=
  if s.ctxState c ≠ 0 then .error Code.SCH_CTX_STATE
  else if !s.enableOk c then .error Code.SCH_CTX_CONFIG
  else
    match (s.herdAlloc (s.ctx c 0x04) (s.ctx c 0x06 / 0x200000) c false).bind
      fun s => s.herdAlloc (s.ctx c 0x04) (s.saveSize c / 0x200000) c true with
    | none => .error Code.SCH_CTX_MEMORY
    | some s => .ok ((s.startUnshed c).setCtxState c 1).wakeSteady

/-- CONTEXT_ENABLE (R335). -/
def execContextEnable (o : Origin) (c : CtxId) (s : State) : Host.Outcome State Fault Refusal :=
  s.dictCmd o (0x3000 + c.val) 0x01 [1] fun s => s.ctxEnable c.val

/-- CONTEXT_READY (R335): window and save area are zero, their addresses can be read, and the context is READY. -/
def execContextReady (c : CtxId) (s : State) : Host.Outcome State Fault Refusal :=
  if s.ctxState c.val ≠ 1 then go s
  else
    let mine := s.mem.allocs.filter fun a => a.ctx == c.val
    let s := mine.foldl (fun s a => s.zeroRange a.addr (a.size * 0x200000)) s
    let s := mine.foldl (fun s a => s.setEntry (0x3000 + c.val) (if a.save then 0x1B else 0x07) a.addr) s
    go ((s.setEntry (0x3000 + c.val) 0x1C (s.saveSize c.val)).setCtxState c.val 2)

/-- A context enters DISABLING (R338): its addresses read 0, it leaves the shed list. -/
def State.ctxLeave (s : State) (c : Nat) : State :=
  let s := (((s.setEntry (0x3000 + c) 0x07 0).setEntry (0x3000 + c) 0x1B 0).setEntry (0x3000 + c) 0x1C 0).unshed c
  s.setCtxState c 4

/-- DISABLE (R338). -/
def State.ctxDisable (s : State) (c : Nat) : Except W16 State :=
  if s.ctxState c ≠ 2 ∧ s.ctxState c ≠ 3 then .error Code.SCH_CTX_STATE
  else .ok ((s.ctxLeave c).stopCtx c (some Code.SCH_CTX_DISABLED))

/-- CONTEXT_DISABLE (R338). -/
def execContextDisable (o : Origin) (c : CtxId) (s : State) : Host.Outcome State Fault Refusal :=
  s.dictCmd o (0x3000 + c.val) 0x01 [2] fun s => s.ctxDisable c.val

/-- The release of a DISABLING context ends: its herd memory and Coil buffers are back, and it is DISABLED (R338, R451). -/
def State.ctxGone (s : State) (c : Nat) : State := ((s.freeHerd c).releaseOwner (0x100 + c) []).setCtxState c 0

/-- CONTEXT_DISABLED (R338). -/
def execContextDisabled (c : CtxId) (s : State) : Host.Outcome State Fault Refusal :=
  if s.ctxState c.val = 4 then go (s.ctxGone c.val) else go s

/-- CLEAR_FAULT (R337): READY again; queues resume at their heads. A context that an uncorrectable tag faulted before its window was ready
goes on with that (DESIGN CHOICE, log entry 72). -/
def State.ctxClear (s : State) (c : Nat) : Except W16 State :=
  if s.ctxState c ≠ 3 then .error Code.SCH_CTX_STATE else .ok ((s.startUnshed c).setCtxState c (if s.ctx c 0x07 = 0 then 1 else 2))

/-- CLEAR_FAULT (R337). -/
def execClearFault (o : Origin) (c : CtxId) (s : State) : Host.Outcome State Fault Refusal :=
  s.dictCmd o (0x3000 + c.val) 0x01 [3] fun s => s.ctxClear c.val

/-- A context at once DISABLED with its queues unbound, without a record (Table 10.11: FLR, PERST#, warm start, Standby). What its clusters run
next is placed once every context that the event hits has stopped (R377). -/
def State.ctxQuiet (s : State) (c : Nat) : State :=
  if s.ctxState c = 0 then s else ((s.ctxLeave c).stopOnly c none).ctxGone c

/-! ### Hitches written by the host (R369, R370) -/

/-- A refused hitch write: SCH_ERR and the error log. -/
def State.hitchRefuse (s : State) (code : W16) (fn k v : Nat) : State := (s.rejectV code fn 7 k v).famErr code fn

/-- A write of SCH_HSIG (R369). -/
def State.hostSignal (s : State) (fn v : Nat) : State :=
  let k := v % 4096
  let n := field v 31 16
  let h := s.hitch k
  if n = 0 then s.hitchRefuse Code.SCH_HITCH_FIELD fn k v
  else if h.lock then s.hitchRefuse Code.SCH_HITCH_MODE fn k v
  else if 65535 < h.count + n then s.hitchRefuse Code.SCH_HITCH_OVF fn k v
  else ((s.setHitch k { h with count := h.count + n }).serveHitch k).schedule

/-- SCH_HSIG_WRITE (R369): every function has the register (Table 15.3). -/
def execSchHsigWrite (fn : Fn) (v : W32) (s : State) : Host.Outcome State Fault Refusal :=
  s.hostAct fn.val 4 fun s => s.hostSignal fn.val v.toNat

/-- A write of SCH_HITCHk (R369, R370). -/
def State.hostHitch (s : State) (fn k v : Nat) : State :=
  let h := s.hitch k
  let count := v % 65536
  let lock := bitOf v 27
  let herds := field v 35 28
  if (h.held || !h.waiters.isEmpty) && (lock != h.lock || herds != h.herds || (h.held && count != h.count)) then
    s.hitchRefuse Code.SCH_HITCH_BUSY fn k v
  else if lock && count != (if h.held then 0 else 1) then s.hitchRefuse Code.SCH_HITCH_MODE fn k v
  else ((s.setHitch k { h with count := count, lock := lock, herds := herds }).serveHitch k).schedule

/-- SCH_HITCH_WRITE (R369): only PF0's BAR0 has the registers. -/
def execSchHitchWrite (fn : Fn) (k : HitchId) (v : W64) (s : State) : Host.Outcome State Fault Refusal :=
  s.hostAct fn.val 8 fun s => if fn.val = 0 then s.hostHitch 0 k.val v.toNat else s

/-- HITCH_TIMEOUT (R365): a wait of the step of queue q beyond its limit faults its context. -/
def execHitchTimeout (q : QueueId) (s : State) : Host.Outcome State Fault Refusal :=
  match (s.queue q.val).held with
  | none => go s
  | some st => if st.waits.isSome then go (s.faultCtx st.ctx q.val Code.SCH_HITCH_TIMEOUT) else go s

/-- PASS_LIMIT_EXPIRY (R355): a waiting step that has been passed over reserves clusters from now on. -/
def execPassLimitExpiry (q : QueueId) (s : State) : Host.Outcome State Fault Refusal :=
  match (s.queue q.val).held with
  | none => go s
  | some st => if st.waiting then go (s.setStep q.val (some { st with passed := true })).schedule else go s

end Sys2Proof.Machine
end

