-- ==== Sys2Proof/Machine/Keccak.lean ====
section
/-! DEFINITION. SHAKE256 of FIPS 202, which the generator (R600), the image digests (R571, R573) and the measurement registers (R583)
use. The permutation's state is five planes of five lanes; its constants are computed from the rules of the standard. -/

namespace Sys2Proof.Machine

/-- A list turned left by k places. -/
def turn {α : Type} (k : Nat) (l : List α) : List α := l.drop k ++ l.take k

/-- The register of the round constants moves on: a shift by one bit modulo x^8 + x^6 + x^5 + x^4 + 1. -/
def lfsr (r : Nat) : Nat := if r < 128 then 2 * r else (2 * r) ^^^ 0x171

/-- The bits 2^j - 1 for j from 0 that `n` outputs of the register give, and the register after them. -/
def lfsrWord (r j : Nat) : Nat → Nat × Nat
  | 0 => (0, r)
  | n + 1 => let (w, r') := lfsrWord (lfsr r) (j + 1) n; (r % 2 * 2 ^ (2 ^ j - 1) + w, r')

/-- The constants of `n` rounds from a value of the register. -/
def roundConsts (r : Nat) : Nat → List W64
  | 0 => []
  | n + 1 => let (w, r') := lfsrWord r 0 7; BitVec.ofNat 64 w :: roundConsts r' n

/-- Where the lanes come from after the rotations: the walk (x, y) to (y, 2 x + 3 y) from (1, 0), its t-th lane turned by
(t + 1)(t + 2) / 2 bits; by place 5 y + x of the target, the place of the source and the turn. -/
def laneWalk (x y t : Nat) : Nat → Tbl (Nat × Nat)
  | 0 => []
  | n + 1 =>
    let z := (2 * x + 3 * y) % 5
    Tbl.set (0, 0) (laneWalk y z (t + 1) n) (5 * z + y) (5 * y + x, (t + 1) * (t + 2) / 2 % 64)

/-- Sources and turns of the 25 places. -/
def laneRoutes : List (Nat × Nat) := Tbl.getList (0, 0) (laneWalk 1 0 0 24) 0 25

/-- A list cut into rows of five. -/
def rows5 {α : Type} (l : List α) : List (List α) := (List.range 5).map fun y => (l.drop (5 * y)).take 5

/-- One round on five planes. -/
def keccakRound (planes : List (List W64)) (rc : W64) : List (List W64) :=
  let xor := List.zipWith fun a b : W64 => a ^^^ b
  let parity := planes.foldl xor (List.replicate 5 0)
  let mix := xor (turn 4 parity) ((turn 1 parity).map fun w => w.rotateLeft 1)
  let flat := planes.flatMap (xor mix)
  let moved := rows5 (laneRoutes.map fun r => (flat.getD r.1 0).rotateLeft r.2)
  match moved.map fun p => xor p (List.zipWith (fun a b : W64 => ~~~a &&& b) (turn 1 p) (turn 2 p)) with
  | (w :: ws) :: ps => ((w ^^^ rc) :: ws) :: ps
  | ps => ps

/-- The permutation of 24 rounds. -/
def keccakF (planes : List (List W64)) : List (List W64) := (roundConsts 1 24).foldl keccakRound planes

/-- One block of 136 bytes absorbed. -/
def keccakAbsorb (planes : List (List W64)) (block : List Byte) : List (List W64) :=
  let ws := (List.range 25).map fun i => BitVec.ofNat 64 (natLE ((block.drop (8 * i)).take 8))
  keccakF (List.zipWith (List.zipWith fun a b : W64 => a ^^^ b) planes (rows5 ws))

/-- A message padded to whole blocks: the bits 1111 of SHAKE, a 1, zeros and a closing 1. -/
def shakePad (msg : List Byte) : List Byte :=
  let gap := 136 - msg.length % 136
  msg ++ (if gap = 1 then [0x9F] else 0x1F :: List.replicate (gap - 2) 0 ++ [0x80])

/-- The blocks of a padded message absorbed in order. -/
def keccakSponge (planes : List (List W64)) (msg : List Byte) : Nat → List (List W64)
  | 0 => planes
  | n + 1 => keccakSponge (keccakAbsorb planes (msg.take 136)) (msg.drop 136) n

/-- `n` blocks of output. -/
def keccakSqueeze (planes : List (List W64)) : Nat → List Byte
  | 0 => []
  | n + 1 => (planes.flatten.take 17).flatMap (fun w => bytesLE 8 w.toNat) ++ keccakSqueeze (keccakF planes) n

/-- SHAKE256: `n` bytes of output. -/
def shake256 (msg : List Byte) (n : Nat) : List Byte :=
  (keccakSqueeze (keccakSponge (List.replicate 5 (List.replicate 5 0)) (shakePad msg) (msg.length / 136 + 1)) (n / 136 + 1)).take n

end Sys2Proof.Machine
end

