-- ==== Sys2Proof/Machine/Bitstream.lean ====
section
/-! DEFINITION. Where access units begin in a stream's bytes, and what makes a picture a random-access point (spec 08, Table 8.3). The
layouts of NAL unit and OBU headers are those of ITU-T H.264, ITU-T H.265 and the AV1 bitstream (PRESUMED, log entry 70). -/

namespace Sys2Proof

/-- The RAP column of Table 8.3. Types 16 to 21 of H.265 are BLA, IDR and CRA. -/
def PicSyntax.rap (p : PicSyntax) : Bool :=
  match p.kind with
  | .h264 idr intra recovery => idr || (intra && recovery == some 0)
  | .h265 nal => decide (16 ≤ nal) && decide (nal ≤ 21)
  | .av1 sequence key => sequence && key && p.shown

/-- An AV1 key frame: the one that a show_existing_frame refreshes every reference with (R284). -/
def PicSyntax.key (p : PicSyntax) : Bool :=
  match p.kind with
  | .av1 _ key => key
  | _ => false

namespace Machine

/-- What the bytes from one place on say: no unit begins there, too few bytes to say, or a unit begins: whether an access unit begins with
it, whether a VCL NAL unit lies in the access unit from then on, and how many bytes more belong to an OBU. -/
inductive UnitMark where
  | plain
  | wait
  | unit (starts vcl : Bool) (skip : Nat)
  deriving DecidableEq, Repr

/-- An H.264 NAL unit behind its start code. -/
def h264Unit (vcl : Bool) : List Byte → UnitMark
  | [] => .wait
  | h :: rest =>
    let type := h.toNat % 32
    if 6 ≤ type ∧ type ≤ 9 then .unit vcl false 0
    else if 1 ≤ type ∧ type ≤ 5 then
      match rest with
      | [] => .wait
      | b :: _ => .unit (vcl && (type == 1 || type == 2 || type == 5) && decide (128 ≤ b.toNat)) true 0
    else .unit false vcl 0

/-- An H.265 NAL unit behind its start code; one of another layer is discarded (R262). -/
def h265Unit (vcl : Bool) : List Byte → UnitMark
  | h :: l :: rest =>
    let type := h.toNat / 2 % 64
    if h.toNat % 2 * 32 + l.toNat / 8 ≠ 0 then .unit false vcl 0
    else if (32 ≤ type ∧ type ≤ 35) ∨ type = 39 then .unit vcl false 0
    else if type < 32 then
      match rest with
      | [] => .wait
      | b :: _ => .unit (vcl && decide (128 ≤ b.toNat)) true 0
    else .unit false vcl 0
  | _ => .wait

/-- The bytes of an Annex B stream from one place on. -/
def annexBUnit (codec : Nat) (vcl : Bool) : List Byte → UnitMark
  | a :: b :: c :: rest =>
    if a == 0 && b == 0 && c == 1 then (if codec = 1 then h264Unit vcl rest else h265Unit vcl rest) else .plain
  | [a, b] => if a == 0 && b == 0 then .wait else .plain
  | [a] => if a == 0 then .wait else .plain
  | [] => .plain

/-- A leb128 value of at most `fuel` bytes and the number of its bytes, none where they end too soon. -/
def leb128 : Nat → List Byte → Option (Nat × Nat)
  | 0, _ => some (0, 0)
  | _, [] => none
  | fuel + 1, b :: rest =>
    if b.toNat < 128 then some (b.toNat, 1) else (leb128 fuel rest).map fun r => (b.toNat % 128 + 128 * r.1, r.2 + 1)

/-- An OBU from its header on; one without a size is a header alone. -/
def obuUnit (vcl : Bool) : List Byte → UnitMark
  | [] => .plain
  | h :: rest =>
    let ext := if bitOf h.toNat 2 then 1 else 0
    let starts := decide (h.toNat / 8 % 16 = 2)
    if rest.length < ext then .wait
    else if bitOf h.toNat 1 then
      match leb128 8 (rest.drop ext) with
      | none => .wait
      | some (size, k) => .unit starts vcl (ext + k + size)
    else .unit starts vcl ext

/-- The bytes of a stream of a codec from one place on (Table 8.3). -/
def unitMark (codec : Nat) (vcl : Bool) (bs : List Byte) : UnitMark := if codec = 3 then obuUnit vcl bs else annexBUnit codec vcl bs

/-- Where access units begin in bytes, counted from `i`; whether a VCL NAL unit lies in the last of them; the bytes of an OBU still to come;
and how many bytes are decided. -/
def scanUnits (codec : Nat) : Nat → Bool → Nat → List Nat → List Byte → List Nat × Bool × Nat × Nat
  | i, vcl, skip, acc, [] => (acc, vcl, skip, i)
  | i, vcl, skip, acc, b :: bs =>
    if 0 < skip then scanUnits codec (i + 1) vcl (skip - 1) acc bs
    else match unitMark codec vcl (b :: bs) with
      | .plain => scanUnits codec (i + 1) vcl 0 acc bs
      | .wait => (acc, vcl, 0, i)
      | .unit starts v n => scanUnits codec (i + 1) v n (if starts then acc ++ [i] else acc) bs

/-- The place of the first start code of Annex B, or of the first byte that can be an OBU header with a size (R270). -/
def firstUnit (codec : Nat) : Nat → List Byte → Option Nat
  | _, [] => none
  | i, b :: bs =>
    if (if codec = 3 then decide (b.toNat < 128) && bitOf b.toNat 1 && !bitOf b.toNat 0 else (b :: bs).take 3 == [0, 0, 1]) then some i
    else firstUnit codec (i + 1) bs

end Machine
end Sys2Proof
end

