-- ==== Sys2Proof/Machine/Generator.lean ====
section
/-! DEFINITION. The counter-based generator: its list, its checks, its words and its fills (R600 to R607). -/

namespace Sys2Proof.Machine

/-- The 128 output bytes of a block of 32 words (R600). -/
def genBlock (ctxSeed stepSeed stepNo tensor block : Nat) : List Byte :=
  shake256 (bytesLE 8 ctxSeed ++ bytesLE 8 stepSeed ++ bytesLE 8 stepNo ++ bytesLE 4 tensor ++ [0, 0, 0, 0] ++ bytesLE 8 block) 128

/-- Word `e` of a block. -/
def genWord (block : List Byte) (e : Nat) : Nat := natLE ((block.drop (4 * (e % 32))).take 4)

/-- The 32-bit code of an element for a record's KIND (Table 18.3). -/
def genCode (kind p w : Nat) : Nat :=
  if kind = 0 then w
  else if kind = 1 then (toF32 (Val.scale (-24) (Val.ofInt (w / 256 : Nat)))).toNat
  else if (Val.ofInt (w : Int)).lt (Val.scale 32 (ofF32 (BitVec.ofNat 32 p))) then 0x3F800000 else 0

/-- Codes of all `n` elements of a generated tensor. -/
def genCodes (ctxSeed stepSeed stepNo : Nat) (r : List Byte) (n : Nat) : List Nat :=
  ((List.range (ceilDiv n 32)).flatMap fun b =>
    let bl := genBlock ctxSeed stepSeed stepNo (recField r 8 4) b
    (List.range 32).map fun e => genCode (recField r 2 1) (recField r 4 4) (genWord bl e)).take n

/-- P of a record is in range: 0.0 to 1.0 for MASK, 0 otherwise. -/
def genPOk (r : List Byte) : Bool :=
  let v := ofF32 (BitVec.ofNat 32 (recField r 4 4))
  if recField r 2 1 = 2 then Val.zero.le v && v.le (Val.pow2 0) else recField r 4 4 == 0

/-- Checks 1 and 3 to 6 of R603 for one record, with the records and the descriptors before it. A descriptor with reserved bits set or
a field that Table 4.1 does not allow is rejected (R8); that the code is DET_GEN_FMT is a DESIGN CHOICE (log entry 57). -/
def State.genCheck (s : State) (c : Nat) (plan : List (List (Option Desc))) (before : List (List Byte)) (spans : List Span)
    (r : List Byte) : Except W16 Desc :=
  let d := s.readDesc c (recField r 0 2)
  match d with
  | .ue => .error Code.DET_GEN_UE
  | _ =>
    if recField r 3 1 ≠ 0 || recField r 0x0C 4 ≠ 0 || 2 < recField r 2 1 || !genPOk r ||
        before.any (fun b => recField b 8 4 == recField r 8 4) then .error Code.DET_GEN_RSVD
    else match d with
      | .ok d =>
        if d.spm || d.layout ≠ 0 || d.zpEn || d.rsvdBad || d.noTensor || Fmt.ofCode d.fmtCode ≠ some (if recField r 2 1 = 0 then .s32 else .f32) then
          .error Code.DET_GEN_FMT
        else
          let outs := plan.flatMap fun ds => (ds.take 2).flatMap fun o => match o with | some d => d.spans | none => []
          if !s.spansInWindow c d || spansMeet d.spans spans || spansMeet d.spans outs then .error Code.DET_GEN_WINDOW
          else .ok d
      | _ => .error Code.DET_GEN_DESC

/-- The generator list of context c, checked record by record (R603). -/
def State.genList (s : State) (c : Nat) (plan : List (List (Option Desc))) : Except W16 (List (Desc × List Byte)) :=
  let n := s.regField (detBase + 16 * c + 8) 0 7
  if n = 0 then .ok []
  else
    let a := s.ctx c 0x07 + (s.reg (detBase + 16 * c)).toNat
    match s.memRead a (16 * n) with
    | none => .error (if s.rangeOk a (16 * n) then Code.DET_GEN_UE else Code.DET_GEN_LIST)
    | some bs =>
      if !s.inWindow c a (16 * n) then .error Code.DET_GEN_LIST
      else
        ((List.range n).foldl (fun (acc : Except W16 (List (Desc × List Byte))) i =>
          match acc with
          | .error e => .error e
          | .ok l =>
            let r := (bs.drop (16 * i)).take 16
            match s.genCheck c plan (l.map (·.2)) (l.flatMap fun x => x.1.spans) r with
            | .error e => .error e
            | .ok d => .ok (l ++ [(d, r)])) (.ok []))

/-- The fill of one tensor: every element in index order, row by row, until a bus error; rows already written stay (R602, R604). -/
def State.genFill (s : State) (c : Nat) (st : Step) (d : Desc) (r : List Byte) : State × Bool :=
  let codes := genCodes (s.ctx c 0x17) st.seed.toNat st.stepNo.toNat r (d.rows * d.e 0)
  (List.range d.rows).foldl (fun (x : State × Bool) k =>
    if !x.2 then x
    else match x.1.putCodes ⟨0, c⟩ d k 0 ((codes.drop (k * d.e 0)).take (d.e 0)) with
      | some s => (s, true)
      | none => (x.1, false)) (s, true)

/-- The step whose fills the engine serves: of the steps with fills, the one opened first (R604). -/
def State.genNext (s : State) : Option Nat :=
  match s.openSteps.filter fun x => !x.2.fills.isEmpty with
  | [] => none
  | x :: xs => some (xs.foldl (fun b y => if y.2.serial < b.2.serial then y else b) x).1

/-- GEN_FILL_DONE (R604): the next tensor of the step of queue q is filled; a bus error faults the context. -/
def execGenFillDone (q : QueueId) (s : State) : Host.Outcome State Fault Refusal :=
  match (s.queue q.val).held with
  | none => go s
  | some st =>
    match st.fills with
    | [] => go s
    | (d, r) :: fs =>
      if s.genNext ≠ some q.val then go s
      else
        match s.genFill st.ctx st d r with
        | (s, false) => go (s.faultCtx st.ctx q.val Code.DET_GEN_UE)
        | (s, true) =>
          let s := (s.countEntry 0x4000 0x05 1).countEntry 0x4000 0x06 (d.rows * d.e 0 * 4)
          go ((s.setStep q.val (some { st with fills := fs })).checkReady q.val)

/-- A write of DET_GEN_OFFc or DET_GEN_CNTc (R606): the state check, then the range check. -/
def State.genWrite (s : State) (off v : Nat) : State :=
  let c := off / 16
  if 1024 ≤ c ∨ (off % 16 ≠ 0 ∧ off % 16 ≠ 8) then s
  else if s.ctxState c ≠ 0 then s.rejectV Code.DET_GEN_STATE 0 2 c v
  else
    let v := if off % 16 = 8 then v % 128 else v
    if (if off % 16 = 0 then v % 64 ≠ 0 else 64 < v) then s.rejectV Code.DET_GEN_RANGE 0 2 c v
    else s.setReg (detBase + off) (BitVec.ofNat 64 v)

/-- DET_GEN_WRITE (R606): the registers appear only in PF0's BAR0. -/
def execDetGenWrite (fn : Fn) (off : Nat) (v : W64) (s : State) : Host.Outcome State Fault Refusal :=
  s.hostAct fn.val 8 fun s => if fn.val = 0 then s.genWrite off v.toNat else s

end Sys2Proof.Machine
end

