-- ==== Sys2Proof/Machine/Units.lean ====
section
/-! DEFINITION. How the walker of an Ibex runs an instruction outside the Braid, and the checks that the loaders of those engines
share (R122, R134, R138, R145, R146, R150). -/

namespace Sys2Proof.Machine

/-- The loaded instruction of Ibex n, with its step and rank, when its walker may start it: its opcode is `op`, the step runs,
and no preemption request stands (R148). -/
def State.curOf (s : State) (n op : Nat) : Option (Loaded × Step × Rank) :=
  (s.ib n).cur.bind fun l => (s.rankOf n).bind fun x =>
    if opcode l.raw == op && x.2.2.2.wait == .none && !x.2.2.2.stopped && !x.2.1.stop then some (l, x.2.1, x.2.2.2) else none

/-- The instruction uses a span that a running one writes, or writes one that it uses (R134). -/
def State.conflicts (s : State) (n : Nat) (l : Loaded) : Bool :=
  (s.jobs n).any fun j => spansMeet l.writes (j.2.reads ++ j.2.writes) || spansMeet j.2.writes l.reads

/-- Regions that run nothing show that they wait at the meeting of an instruction outside the Braid (R147). -/
def State.syncShow (s : State) (n : Nat) (l : Loaded) : State :=
  ((List.range 4).filter fun q => (s.jobAt n q).isNone).foldl (fun s q => s.modRegion n q fun g => { g with
    state := 3, shown := some { opcode := opcode l.raw, ctx := l.ctx, idx := l.idx, slice := 0, ordinal := 0, quarters := [q] } }) s

/-- The walker passes the loaded instruction: the next one is due, after the meeting where SYNC is 1 (R138). -/
def State.passCur (s : State) (n : Nat) (l : Loaded) : State :=
  let s := if syncBit l.raw && l.mat.isNone then s.syncShow n l else s
  (s.modIb n fun i => { i with cur := none }).modRank l.queue l.rank fun r =>
    { r with pc := l.idx + 1, wait := (if syncBit l.raw then .sync else .none), done := 0, sorting := {}, stands := (opcode l.raw, l.idx) }

/-- A fault of an instruction outside the Braid that reads spans `ps`: its code, then the context's fault once the regions have finished
(R105, R150). -/
def State.unitFault (s : State) (n : Nat) (l : Loaded) (ps : List Span) (code : W16) : State :=
  ((((s.lostRead n l ps code).loadErr n code l.ctx 0 l.idx).modIb n fun i => { i with cur := none }).finishJobs n).faultCtx l.ctx l.queue code

/-- Vector lane operations since a state, of the context of an instruction: one for each element of VEC_ELEMS (DESIGN CHOICE, log entry
20). -/
def State.laneWork (s old : State) (n : Nat) (l : Loaded) : State :=
  let k := (s.reg (ibexReg n 5 8) - old.reg (ibexReg n 5 8)).toNat
  if k = 0 then s else s.addWork l.ctx { vec := k }

/-- An instruction outside the Braid runs on Ibex n, to its end, or the next `stop` pieces of it between its preemption points (R182,
R189, R242): `mine` gives the spans that this cluster reads of it, `f` its effect, or the state at a fault and its code. -/
def State.runUnit (s : State) (n op : Nat) (stop : Option Nat) (mine : State → Loaded → List Span) (f : Loaded → Rank → State → State × Option W16) :
    Host.Outcome State Fault Refusal :=
  match s.curOf n op with
  | none => go s
  | some (l, _, r) =>
    if s.conflicts n l then go s
    else
      let ps := mine s l
      match f l r s with
      | (t, some code) => go ((t.laneWork s n l).unitFault n l ps code)
      | (t, none) =>
        let s := t.laneWork s n l
        match stop with
        | none => go (((s.mendReads n l ps).passCur n l).instrDone n)
        | some k => go (s.modRank l.queue l.rank fun r => { r with done := r.done + k })

/-- A result of an operation that may meet a bus error: WALK_MEM_UE in the state before it (R150). -/
def orUe (s : State) (r : Option State) : State × Option W16 :=
  match r with
  | some s => (s, none)
  | none => (s, some Code.WALK_MEM_UE)

/-- Field ranges of Table 4.1 that the steps 8 and 9 of an MM would check, for engines whose own checks do not name them:
extents, scale planes, zero points (R122, R69, R126). -/
def State.descRanges (s : State) (c : Nat) (ds : List (Nat × Desc)) : List (Option Fail) := [
  chk Code.WALK_COUNT_ZERO (extZero ds), chk Code.WALK_COUNT_RANGE (extBig ds),
  chkD Code.WALK_FMT_SCALE ds fun d => s.scaleBad c d, chkD Code.WALK_ZP ds Desc.zpBad]

/-- An output's strides nest and its spans are apart from others (R141). -/
def outApart (code : W16) (outs : List Desc) (others : List Span) : List (Option Fail) := [
  chk code (outs.map fun d => (0, !d.nests)), chk code (outs.map fun d => (0, spansMeet d.spans others))]

/-- The spans of an instruction that rank 0 alone runs: the other ranks read none (R187, R218, R230, R247). -/
def Loaded.alone (l : Loaded) : List Span := if l.rank = 0 then l.reads else []

/-- The span of one element of a row. -/
def Desc.elemSpan (d : Desc) (r i : Nat) : Span :=
  let lo := i * d.fmt.bits / 8
  ⟨d.spm, d.base + d.rowOff r + lo, ceilDiv ((i + 1) * d.fmt.bits) 8 - lo⟩

/-- The spans of rows of a tensor, with the bytes of their scales (R123, R125). -/
def Desc.rowSpans (d : Desc) (rs : List Nat) : List Span :=
  rs.flatMap fun r => ⟨d.spm, d.base + d.rowOff r, d.rowBytes⟩ :: (if d.fmt.isBlock then [⟨d.spm, d.scaleBase + r * d.blocks, d.blocks⟩] else [])

/-- Elements of a tensor. -/
def Desc.elems (d : Desc) : Nat := d.e 0 * d.rows

/-- The value at a flat index, dimension 0 fastest; none is a bus error. -/
def State.flatVal (s : State) (a : Acc1) (d : Desc) (i : Nat) : Option Val :=
  (s.rowVals a d (i / d.e 0) (i % d.e 0) 1).bind List.head?

end Sys2Proof.Machine
end

