-- ==== Sys2Proof/Machine/Sorter.lean ====
section
/-! DEFINITION. The score sorter (R183 to R190). -/

namespace Sys2Proof.Machine

/-- NMS. -/
def srtNms (raw : List Byte) : Bool := bitOf (insF raw 1 1) 0
/-- CLASS_AWARE. -/
def srtAware (raw : List Byte) : Bool := bitOf (insF raw 1 1) 1
/-- PRE_K. -/
def srtPreK (raw : List Byte) : Nat := insF raw 4 2
/-- OUT_K. -/
def srtOutK (raw : List Byte) : Nat := insF raw 6 2
/-- A field of four bytes as an F32 value. -/
def insF32 (raw : List Byte) (o : Nat) : Val := ofF32 (BitVec.ofNat 32 (insF raw o 4))
/-- The work area. -/
def srtWork (raw : List Byte) : Span := ⟨true, insF raw 0x1A 2 * 4096, insF raw 0x1C 2 * 4096⟩

/-- Descriptors in the order SCORE, BOX, CLASS, OUT, CNT. -/
def srtOperands (raw : List Byte) : List DescOp :=
  [⟨0, insF raw 0x10 2, false⟩, ⟨0, insF raw 0x12 2, true⟩, ⟨0, insF raw 0x14 2, true⟩, ⟨0, insF raw 0x16 2, false⟩,
    ⟨0, insF raw 0x18 2, false⟩]

/-- A score format (R184). -/
def Fmt.isScore (f : Fmt) : Bool :=
  match f with
  | .s8 | .u8 | .s16 | .s32 | .e4m3 | .e5m2 | .h16 | .b16 | .f32 => true
  | _ => false

/-- SORT_FIELD, SORT_K, SORT_THRESH, SORT_DESC (Table 5.8). -/
def srtFields (raw : List Byte) (box cls : Bool) : List (Option Fail) :=
  let (nms, aware, pk, ok) := (srtNms raw, srtAware raw, srtPreK raw, srtOutK raw)
  let t := insF32 raw 0x0C
  [chk1 Code.SORT_FIELD (aware && !nms),
    chk1 Code.SORT_K (decide (4096 < pk) || (pk == 0 && nms) || (if nms then ok == 0 || decide (pk < ok) else ok != 0)),
    chk1 Code.SORT_THRESH ((insF32 raw 8).isNaN ||
      (if nms then t.isNaN || t.lt .zero || (Val.pow2 0).lt t else insF raw 0x0C 4 != 0)),
    chk1 Code.SORT_DESC (box != nms || cls != aware)]

/-- The checks of SSORT (R190). -/
def State.loadSort (s : State) (a : Acc1) (raw : List Byte) : Except Fail Checked := do
  let c := a.ctx
  orFail (chk1 Code.WALK_RSVD (insF raw 1 1 / 4 % 16 != 0 || bitOf (insF raw 1 1) 7 || !zeroBytes raw 2 4 || !zeroBytes raw 0x1E 64))
  let ds ← s.loadDescs c (srtOperands raw)
  let all := descsOf [0, 0, 0, 0, 0] ds
  match ds with
  | [some sc, box, cls, some out, some cnt] => do
    let n := sc.elems
    let full := srtPreK raw == 0
    let work := srtWork raw
    orFail (firstFail (s.descRanges c all))
    orFail (firstFail (s.steps11 c all))
    orFail (chk1 Code.WALK_SPM_FIT (!s.spanOk c work || decide (work.len < 16 * (if full then n else srtPreK raw))))
    orFail (firstFail (srtFields raw box.isSome cls.isSome))
    orFail (firstFail [
      chk1 Code.SORT_FMT (!sc.fmt.isScore || (match box with | some b => b.fmt != .f32 || b.e 0 != 4 | none => false) ||
        (match cls with | some k => k.fmt != .s16 && k.fmt != .s32 | none => false) ||
        out.fmt != .s32 || out.e 0 != 2 || cnt.fmt != .s32 || cnt.elems != 1),
      chk1 Code.SORT_KEYS (decide (65536 < n)),
      chk1 Code.SORT_DIM ((match box with | some b => decide (b.rows < n) | none => false) ||
        (match cls with | some k => decide (k.elems < n) | none => false) ||
        decide (out.rows < (if full then n else max (srtPreK raw) (srtOutK raw))))])
    let ins := spansOf [some sc, box, cls]
    orFail (firstFail (outApart Code.WALK_OUT_OVERLAP [out, cnt] ins ++ [chk1 Code.WALK_OUT_OVERLAP (spansMeet [work] ins),
      chk1 Code.WALK_OUT_OVERLAP (spansMeet out.spans (work :: cnt.spans) || spansMeet cnt.spans [work])]))
    .ok { descs := ds, reads := ins, writes := work :: (out.spans ++ cnt.spans) }
  | _ => .error (Code.WALK_DESC_INDEX, 0)

/-- Intersection and union of two boxes x0, y0, x1, y1, in F32 with truncation; none where iou_exceeds of R186 answers 0 before
it compares. -/
def iouParts (a b : List Val) : Option (Val × Val) :=
  let x := fun (l : List Val) i => l.getD i Val.nan
  let pos := fun (v : Val) => Val.zero.lt v
  let w := fsub ((x a 2).min (x b 2)) ((x a 0).max (x b 0))
  let h := fsub ((x a 3).min (x b 3)) ((x a 1).max (x b 1))
  if !pos w || !pos h then none
  else
    let inter := fmul w h
    let area := fun l => fmul ((fsub (x l 2) (x l 0)).max .zero) ((fsub (x l 3) (x l 1)).max .zero)
    let uni := fsub (fadd (area a) (area b)) inter
    if pos uni then some (inter, uni) else none

/-- iou_exceeds of R186. -/
def iouExceeds (a b : List Val) (t : Val) : Bool :=
  match iouParts a b with
  | none => false
  | some (inter, uni) => (fmul t uni).lt inter

/-- A candidate of NMS: score, index, class, box. -/
structure Cand where
  score : Nat
  idx   : Nat
  cls   : Int
  box   : List Val

/-- A candidate's class and box read; none is a bus error. -/
def State.candOf (s : State) (a : Acc1) (box cls : Option Desc) (k : Nat × Nat) : Option Cand :=
  (match box with | some b => s.rowVals a b k.2 0 4 | none => some []).bind fun bs =>
    (match cls with | some d => (s.flatVal a d k.2).map truncInt | none => some 0).map fun c => ⟨k.1, k.2, c, bs⟩

/-- A box that has been kept suppresses the candidate (R186). -/
def suppressed (aware : Bool) (t : Val) (kept : List Cand) (c : Cand) : Bool :=
  kept.any fun k => (!aware || k.cls == c.cls) && iouExceeds k.box c.box t

/-- What the sorter of a loaded SSORT holds in its work area. -/
def State.sorting (s : State) (l : Loaded) : Sorting :=
  ((((s.queue l.queue).held).bind fun st => st.ranks[l.rank]?).map (·.sorting)).getD {}

/-- The state with what the sorter holds replaced. -/
def State.setSorting (s : State) (l : Loaded) (x : Sorting) : State := s.modRank l.queue l.rank fun r => { r with sorting := x }

/-- The keys in order: read, counted, thresholded, ordered (R185), with the cycles of Table 5.9; none is a bus error. -/
def State.sortKeys (s : State) (a : Acc1) (l : Loaded) (sc : Desc) : Option State :=
  let raw := l.raw
  let n := sc.elems
  let r := fun (o : Nat) => ibexReg a.ibex 3 o
  (optAll ((List.range n).map (s.flatVal a sc))).bind fun vs =>
    let real := vs.zipIdx.filter fun k => !k.1.isNaN
    let above := real.filter fun k => !k.1.lt (insF32 raw 8)
    let sorted := sortBy (fun x y => !x.1.lt y.1) above
    let full := srtPreK raw == 0
    let order := (if full then sorted else sorted.take (srtPreK raw)).map fun k => ((toF32 k.1).toNat, k.2)
    let m := ceilDiv n 16
    let sel := if full then m * (1 + clog2 m) + 16 else m + ceilDiv (srtPreK raw) 16 + 16
    let (fresh, s) := s.freshBytes (srtWork raw).len
    (s.tWrite a true (srtWork raw).base fresh).map fun s =>
      ((((s.count (r 0x40) n).count (r 0x48) (n - real.length)).count (r 0x50) (real.length - above.length)).count (r 0x60) sel).setSorting l
        { order := order, kept := if srtNms raw then [] else order }

/-- Candidate j of NMS examined (R186), unless OUT_K boxes are kept; none is a bus error. -/
def State.sortCand (s : State) (a : Acc1) (l : Loaded) (box cls : Option Desc) (j : Nat) : Option State :=
  let x := s.sorting l
  match x.order[j]? with
  | none => some s
  | some k =>
    if srtOutK l.raw ≤ x.kept.length then some s
    else (s.candOf a box cls k).bind fun c => (optAll (x.kept.map (s.candOf a box cls))).map fun ks =>
      let s := s.count (ibexReg a.ibex 3 0x60) (max 1 (ceilDiv x.kept.length 16))
      if suppressed (srtAware l.raw) (insF32 l.raw 0x0C) ks c then s.count (ibexReg a.ibex 3 0x58) 1
      else s.setSorting l { x with kept := x.kept ++ [k] }

/-- The records and the count written (R186); none is a bus error. -/
def State.sortOut (s : State) (a : Acc1) (l : Loaded) (out cnt : Desc) : Option State :=
  let outs := (s.sorting l).kept
  ((outs.zipIdx).foldl (fun (o : Option State) x => o.bind fun s => s.putCodes a out x.2 0 [x.1.1, x.1.2]) (some s)).bind fun s =>
    (s.putCodes a cnt 0 0 [outs.length]).map fun s => s.count (ibexReg a.ibex 3 0x60) (ceilDiv outs.length 8 + 1)

/-- Passes of a full sort after its first (Table 5.9). -/
def srtPasses (raw : List Byte) (n : Nat) : Nat := if srtPreK raw = 0 then clog2 (ceilDiv n 16) else 0

/-- The phases of an SSORT: piece 0 reads and orders the keys, a full sort's further passes reorder the work area, then each
candidate of NMS is a piece (R189). -/
def srtPieces (raw : List Byte) (n : Nat) : List Nat := List.range (1 + srtPasses raw n + (if srtNms raw then srtPreK raw else 0))

/-- SSORT on rank 0 from its piece `done` on (R185, R186, R188, R189). A bus error of the output phase leaves OUT as it was (DESIGN CHOICE,
log entry 75). -/
def State.sort (s : State) (a : Acc1) (l : Loaded) (done : Nat) (stop : Option Nat) : State × Option W16 :=
  match l.descs with
  | [some sc, box, cls, some out, some cnt] =>
    let m := 1 + srtPasses l.raw sc.elems
    match runPieces s (fun s i => if i = 0 then s.sortKeys a l sc else if i < m then some s else s.sortCand a l box cls (i - m))
        (piecesNow done stop (srtPieces l.raw sc.elems)) with
    | (s, some f) => (s, some f)
    | (s, none) => if stop.isSome then (s, none) else orUe s (s.sortOut a l out cnt)
  | _ => (s, none)

/-- SSORT (R183, R187): rank 0 runs it, the others pass over it. -/
def execSsort (n : IbexId) (stop : Option Nat) (s : State) : Host.Outcome State Fault Refusal :=
  s.runUnit n.val 0x90 stop (fun _ l => l.alone) fun l r s => if l.rank = 0 then s.sort (l.acc1 n.val) l r.done stop else (s, none)

end Sys2Proof.Machine
end

