-- ==== Sys2Proof/Machine/Hist.lean ====
section
/-! DEFINITION. The histogram unit (R215 to R219). -/

namespace Sys2Proof.Machine

/-- CG. -/
def histCg (raw : List Byte) : Nat := insF raw 2 2
/-- ACC. -/
def histAcc (raw : List Byte) : Bool := bitOf (insF raw 1 1) 0

/-- The checks of HIST (R219). -/
def State.loadHist (s : State) (c : Nat) (raw : List Byte) : Except Fail Checked := do
  orFail (chk1 Code.WALK_RSVD (insF raw 1 1 / 2 % 32 != 0 || bitOf (insF raw 1 1) 7 || !zeroBytes raw 0x10 64))
  let ds ← s.loadDescs c [⟨0, insF raw 0x0C 2, false⟩, ⟨0, insF raw 0x0E 2, false⟩]
  let all := descsOf [0, 0] ds
  match ds with
  | [some x, some b] => do
    orFail (firstFail (s.descRanges c all))
    orFail (firstFail (s.steps11 c all))
    let (lo, inv) := (insF32 raw 4, insF32 raw 8)
    orFail (firstFail ([
      chk1 Code.QNT_HIST_GROUPS (histCg raw == 0 || decide (64 < ceilDiv (x.e 0) (histCg raw))),
      chk1 Code.QNT_HIST_RANGE (lo.isSpecial || inv.isSpecial || !Val.zero.lt inv),
      chk1 Code.QNT_HIST_FMT (b.fmt != .s32 || b.e 0 != 260 || decide (b.rows < ceilDiv (x.e 0) (histCg raw))),
      chk1 Code.WALK_OUT_OVERLAP (spansMeet b.spans x.spans)]))
    .ok { descs := ds, reads := x.spans, writes := b.spans }
  | _ => .error (Code.WALK_DESC_INDEX, 0)

/-- The word of Table 6.5 that counts a value converted to F32. -/
def histWord (lo inv x : Val) : Nat :=
  match x with
  | .nan => 258
  | .inf n => if n then 256 else 257
  | _ =>
    let b := floorVal (Val.mul (Val.add x lo.neg) inv)
    if b < 0 then 256 else if 255 < b then 257 else b.toNat

/-- Counts of the words of one group; none is a bus error. -/
def State.histGroup (s : State) (a : Acc1) (raw : List Byte) (x : Desc) (g : Nat) : Option (Tbl Nat) :=
  let i0 := g * histCg raw
  let n := min (histCg raw) (x.e 0 - i0)
  (List.range x.rows).foldl (fun (o : Option (Tbl Nat)) r => o.bind fun t => (s.rowVals a x r i0 n).map fun vs =>
    vs.foldl (fun t v => Tbl.modify 0 (Tbl.modify 0 t (histWord (insF32 raw 4) (insF32 raw 8) (roundF32 v)) (· + 1)) 259 (· + 1)) t) (some [])

/-- The new words of row g of BINS (R217); none is a bus error. -/
def State.histRow (s : State) (a : Acc1) (raw : List Byte) (x b : Desc) (g : Nat) : Option (List Nat) :=
  (s.histGroup a raw x g).bind fun t =>
    (if histAcc raw then (s.rowVals a b g 0 260).map fun vs => vs.map truncInt else some (List.replicate 260 0)).map fun old =>
      old.zipIdx.map fun o => wrap 32 (min (o.1 + (Tbl.get 0 t o.2 : Nat)) 0x7FFFFFFF)

/-- HIST on rank 0: BINS is written only when every read has succeeded (R217, R218). -/
def State.hist (s : State) (a : Acc1) (raw : List Byte) (ds : List (Option Desc)) : Option State :=
  match ds with
  | [some x, some b] =>
    let groups := ceilDiv (x.e 0) (histCg raw)
    (optAll ((List.range groups).map fun g => s.histRow a raw x b g)).bind fun rows =>
      ((rows.zipIdx).foldl (fun (o : Option State) r => o.bind fun s => s.putCodes a b r.2 0 r.1) (some s)).map fun s =>
        let bc := ceilDiv (groups * 1040) 256 * (if histAcc raw then 2 else 1)
        (s.count (ibexReg a.ibex 4 0x48) x.elems).count (ibexReg a.ibex 4 0x50) (ceilDiv x.elems 64 + bc + 32)
  | _ => some s

/-- HIST (R215, R218): rank 0 runs it, the others pass over it. -/
def execHist (n : IbexId) (s : State) : Host.Outcome State Fault Refusal :=
  s.runUnit n.val 0x80 none (fun _ l => l.alone) fun l _ s => if l.rank = 0 then orUe s (s.hist (l.acc1 n.val) l.raw l.descs) else (s, none)

end Sys2Proof.Machine
end

