-- ==== Sys2Proof/Machine/Vector.lean ====
section
/-! DEFINITION. The vector engine (R229 to R242): VSEQ, VRED, VMOVE and VOPT. Elements enter as the values of their codes; the
engine applies no zero point (log entry 18). -/

namespace Sys2Proof.Machine

/-! ### Loads, stores and shares -/

/-- A descriptor without its zero point. -/
def Desc.plain (d : Desc) : Desc := { d with zpEn := false }

/-- Values of elements of a row converted to the working format, with the conversions counted (R231); none is a bus error. -/
def State.vload (s : State) (a : Acc1) (d : Desc) (wf : Fmt) (r i0 n : Nat) : Option (List Val × Nat) :=
  (s.rowVals a d.plain r i0 n).map fun vs =>
    let ws := vs.map (wround wf)
    (ws.map (·.1), (ws.map (·.2)).sum)

/-- Results converted and written (R232): the state with VEC_SAT and VEC_ELEMS; none is a bus error. -/
def State.vstore (s : State) (a : Acc1) (d : Desc) (r i0 : Nat) (vs : List Val) (sat : Nat) : Option State :=
  (s.putVals a d.plain r i0 vs).map fun x =>
    (x.1.count (ibexReg a.ibex 5 0x10) (sat + x.2)).count (ibexReg a.ibex 5 8) vs.length

/-- SPLIT of a vector instruction. -/
def vecSplit (raw : List Byte) : Bool := bitOf (insF raw 1 1) 5

/-- Rows first to last − 1 of the output that a cluster takes (R230). -/
def vecShare (raw : List Byte) (rank g rows : Nat) : Nat × Nat :=
  if vecSplit raw then share rank g rows else if rank = 0 then (0, rows) else (0, 0)

/-- Bytes of `n` elements of a row, scale bytes included. -/
def Desc.bytesOf (d : Desc) (n : Nat) : Nat := ceilDiv (n * d.fmt.bits) 8 + (if d.fmt.isBlock then ceilDiv n 32 else 0)

/-- The checks that every vector instruction passes first (R259): descriptors, spans, VEC_SPACE. -/
def State.vecDescs (s : State) (c : Nat) (os : List DescOp) : Except Fail (List (Option Desc)) := do
  let ds ← s.loadDescs c os
  let all := descsOf (os.map fun _ => 0) ds
  orFail (firstFail (s.descRanges c all))
  orFail (firstFail (s.steps11 c all))
  orFail (chkD Code.VEC_SPACE all fun d => !d.spm)
  .ok ds

/-- A piece of a row: row, first element, count. -/
abbrev Piece := Nat × Nat × Nat

/-- The pieces of flat elements lo to hi − 1 in rows of `e` elements. -/
def piecesOf (e : Nat) : Nat → Nat → Nat → List Piece
  | 0, _, _ => []
  | fuel + 1, lo, hi =>
    if hi ≤ lo then []
    else
      let n := min (hi - lo) (e - lo % e)
      (lo / e, lo % e, n) :: piecesOf e fuel (lo + n) hi

/-! ### VSEQ (R234 to R238) -/

/-- Micro-operation k. -/
def uop (raw : List Byte) (k : Nat) : Nat := insF raw (0x14 + 4 * k) 4
/-- NOPS. -/
def vseqN (raw : List Byte) : Nat := insF raw 1 1 % 16
/-- PREC. -/
def vseqPrec (raw : List Byte) : Bool := bitOf (insF raw 1 1) 4
/-- Sources that an operation reads: 0 for an unassigned one (R235). -/
def uopArity (op : Nat) : Nat :=
  if op = 4 ∨ op = 9 then 3
  else if op = 1 ∨ op = 2 ∨ op = 3 ∨ op = 5 ∨ op = 6 ∨ op = 0x0A then 2
  else if op = 7 ∨ op = 8 ∨ (0x0B ≤ op ∧ op ≤ 0x10) then 1
  else 0
/-- Cycles of an operation per group (Table 7.4). -/
def uopCycles (op : Nat) : Nat := if 0x0C ≤ op then 4 else 1
/-- Source selects that a micro-operation reads. -/
def uopSrcs (u : Nat) : List Nat := ([field u 19 16, field u 23 20, field u 27 24] : List Nat).take (uopArity (u % 256))
/-- Destination. -/
def uopDst (u : Nat) : Nat := field u 10 8
/-- The micro-operations in use. -/
def vseqOps (raw : List Byte) : List Nat := (List.range (min 11 (vseqN raw))).map (uop raw)

/-- A used slot breaks R235: unassigned operation, a reserved bit, or a source field that is not read. -/
def uopBad (u : Nat) : Bool :=
  let n := uopArity (u % 256)
  n == 0 || field u 15 11 != 0 || field u 31 28 != 0 || (([field u 19 16, field u 23 20, field u 27 24] : List Nat).drop n).any (· != 0)

/-- VEC_REG: a select of 14 or 15, a register before it is written, or an absent Y or Z (R235). -/
def regBad (y z : Bool) : List Nat → List Nat → Bool
  | _, [] => false
  | seen, u :: us =>
    (uopSrcs u).any (fun k => decide (14 ≤ k) || (decide (k < 8) && !seen.contains k) || (k == 9 && !y) || (k == 10 && !z)) ||
      regBad y z (uopDst u :: seen) us

/-- One of the three shapes of Y and Z (R236). -/
def vecShapeOk (x d : Desc) : Bool := d.ext == x.ext || (d.rows == 1 && d.e 0 == x.e 0) || d.elems == 1

/-- A float format of 16 bits or fewer. -/
def Fmt.isNarrowFloat (f : Fmt) : Bool := !f.isInt && !f.isBlock && f != .f32

/-- The checks of VSEQ (R231, R234 to R236, R259). -/
def State.loadVseq (s : State) (c : Nat) (raw : List Byte) : Except Fail Checked := do
  orFail (chk1 Code.WALK_RSVD (bitOf (insF raw 1 1) 7 || !zeroBytes raw 2 4))
  let ds ← s.vecDescs c [⟨0, insF raw 4 2, false⟩, ⟨0, insF raw 6 2, true⟩, ⟨0, insF raw 8 2, true⟩, ⟨0, insF raw 0x0A 2, false⟩]
  match ds with
  | [some x, y, z, some out] =>
    let ins := [some x, y, z].filterMap id
    orFail (firstFail [
      chk1 Code.VEC_NOPS (vseqN raw == 0 || decide (11 < vseqN raw)),
      chk1 Code.VEC_UOP ((vseqOps raw).any uopBad || (List.range 11).any fun k => decide (vseqN raw ≤ k) && uop raw k != 0),
      chk1 Code.VEC_REG (regBad y.isSome z.isSome [] (vseqOps raw)),
      chk1 Code.VEC_PREC (vseqPrec raw && ((out.fmt != .h16 && out.fmt != .b16) || ins.any fun d => !d.fmt.isNarrowFloat)),
      chk1 Code.VEC_SHAPE (([y, z].filterMap id).any (fun d => !vecShapeOk x d) || out.ext != x.ext),
      chk1 Code.VEC_IMM ((insF32 raw 0x0C).isNaN || (insF32 raw 0x10).isNaN)])
    .ok { descs := ds, reads := ins.flatMap Desc.spans, writes := out.spans }
  | _ => .error (Code.WALK_DESC_INDEX, 0)

/-- The largest finite value of a format with a sign, which counts as a saturation. -/
def bigVal (f : Fmt) (neg : Bool) : Val × Nat := (if neg then f.maxVal.neg else f.maxVal, 1)

/-- The sign of a zero; none for another value. -/
def Val.zeroSign : Val → Option Bool
  | .fin n 0 _ => some n
  | _ => none

/-- The floor of a value; a zero and a special value stay. -/
def Val.floor (v : Val) : Val := if v.isSpecial || v.zeroSign.isSome then v else Val.ofInt (floorVal v)

/-- The result of a micro-operation in the working format, and 1 when it saturates (Table 7.4, R231, R232, R237). -/
def microOp (wf : Fmt) (op : Nat) (a b c : Val) : Val × Nat :=
  match op with
  | 0x01 => wround wf (Val.add a b)
  | 0x02 => wround wf (Val.add a b.neg)
  | 0x03 => wround wf (Val.mul a b)
  | 0x04 => wround wf (Val.add (Val.mul a b) c)
  | 0x05 => wround wf (a.min b)
  | 0x06 => wround wf (a.max b)
  | 0x07 => wround wf a.abs
  | 0x08 => wround wf a.neg
  | 0x09 => wround wf (if Val.zero.lt a then b else c)
  | 0x0A => wround wf (if b.lt a then .pow2 0 else .zero)
  | 0x0B => wround wf a.floor
  | 0x0C => match a.zeroSign with
    | some n => bigVal wf n
    | none => wround wf (Val.div (.pow2 0) a)
  | 0x0D => wround wf a.sqrt
  | 0x0E => match a.zeroSign with
    | some _ => bigVal wf false
    | none => wround wf a.rsqrt
  | 0x0F => wround wf a.exp2
  | _ => match a.zeroSign with
    | some _ => bigVal wf true
    | none => wround wf a.log2

/-- The sources of an element: registers, X, Y, Z and the immediates. -/
def vsrc (regs : Tbl Val) (xs : List Val) (k : Nat) : Val :=
  if k < 8 then Tbl.get .zero regs k else if k < 13 then xs.getD (k - 8) .zero else .zero

/-- The sequence on one element: `xs` is X, Y, Z, IMM0, IMM1. -/
def vseqElem (wf : Fmt) (us : List Nat) (xs : List Val) : Val × Nat :=
  let r := us.foldl (fun (r : Tbl Val × Val × Nat) u =>
    let v := fun (lo : Nat) => vsrc r.1 xs (u / 2 ^ lo % 16)
    let y := microOp wf (u % 256) (v 16) (v 20) (v 24)
    (Tbl.set .zero r.1 (uopDst u) y.1, y.1, r.2.2 + y.2)) ([], .zero, 0)
  (r.2.1, r.2.2)

/-- An input over a piece: its elements, or its one row or element repeated; only a whole input counts its conversions here. -/
def State.vinput (s : State) (a : Acc1) (x : Desc) (d : Option Desc) (wf : Fmt) (used : Bool) (p : Piece) : Option (List Val × Nat) :=
  match (if used then d else none) with
  | none => some (List.replicate p.2.2 .zero, 0)
  | some d =>
    if d.ext = x.ext then s.vload a d wf p.1 p.2.1 p.2.2
    else if d.e 0 = x.e 0 then (s.vload a d wf 0 p.2.1 p.2.2).map fun v => (v.1, 0)
    else (s.vload a d wf 0 0 1).map fun v => (List.replicate p.2.2 (v.1.headD .zero), 0)

/-- A sequence reads source k. -/
def vseqReads (us : List Nat) (k : Nat) : Bool := us.any fun u => (uopSrcs u).contains k

/-- One group: every piece is computed from what stood before it, then written. -/
def State.vseqGroup (s : State) (a : Acc1) (raw : List Byte) (x : Desc) (y z : Option Desc) (out : Desc) (wf : Fmt) (imms : List Val)
    (ps : List Piece) : Option State :=
  let us := vseqOps raw
  (optAll (ps.map fun p =>
    (s.vinput a x (some x) wf (vseqReads us 8) p).bind fun vx => (s.vinput a x y wf (vseqReads us 9) p).bind fun vy =>
      (s.vinput a x z wf (vseqReads us 10) p).map fun vz =>
        let rs := (List.range p.2.2).map fun i =>
          vseqElem wf us ([vx.1.getD i .zero, vy.1.getD i .zero, vz.1.getD i .zero] ++ imms)
        (p, rs.map (·.1), (rs.map (·.2)).sum + vx.2 + vy.2 + vz.2))).bind fun ws =>
    ws.foldl (fun (o : Option State) w => o.bind fun s => s.vstore a out w.1.1 w.1.2.1 w.2.1 w.2.2) (some s)

/-- Conversions of a repeated row or element, counted once per instruction (R231, R238). -/
def State.broadcastSat (s : State) (a : Acc1) (x : Desc) (d : Option Desc) (wf : Fmt) (used : Bool) : Nat :=
  match (if used then d else none) with
  | none => 0
  | some d => if d.ext = x.ext then 0 else ((s.vload a d wf 0 0 (d.e 0)).map (·.2)).getD 0

/-- Bytes of the pieces of a group in a tensor: each row ends at a byte and at a block (R122, R125). -/
def Desc.groupBytes (d : Desc) (ps : List Piece) : Nat := (ps.map fun p => d.runBytes p.2.1 p.2.2).sum

/-- Bytes that a group of a VSEQ reads and writes, but for repeated rows and elements (R238). -/
def vseqBytes (us : List Nat) (x : Desc) (y z : Option Desc) (out : Desc) (ps : List Piece) : Nat × Nat :=
  ((([(8, some x), (9, y), (10, z)] : List (Nat × Option Desc)).filterMap fun d =>
    if vseqReads us d.1 then d.2.bind fun t => if t.ext = x.ext then some (t.groupBytes ps) else none else none).sum, out.groupBytes ps)

/-- Bytes of the rows and elements that a VSEQ reads once and repeats (R236, R238). -/
def vseqOnce (us : List Nat) (x : Desc) (y z : Option Desc) : Nat :=
  (([(9, y), (10, z)] : List (Nat × Option Desc)).filterMap fun d =>
    if vseqReads us d.1 then d.2.bind fun t => if t.ext = x.ext then none else some (t.bytesOf (t.e 0)) else none).sum

/-- CLKA cycles of a VSEQ in groups: every group by its operations, reads and writes, and 24 (R238). A repeated row or element is read
with the first group (DEDUCED, log entry 28). -/
def vseqCycles (us : List Nat) (x : Desc) (y z : Option Desc) (out : Desc) (gs : List (List Piece)) : Nat :=
  (gs.zipIdx.map fun ps =>
    let b := vseqBytes us x y z out ps.1
    max (us.map fun u => uopCycles (u % 256)).sum
      (max (ceilDiv (b.1 + (if ps.2 = 0 then vseqOnce us x y z else 0)) 1024) (ceilDiv b.2 512))).sum + 24

/-- Flat elements before the k-th group of a share that begins at element `lo`. Where the boundary of groups lies inside a block of a
block-scaled output, whose scale needs all of its elements, the block goes with the group behind it (DESIGN CHOICE, log entry 28). -/
def vseqCut (out : Desc) (e lo g k : Nat) : Nat :=
  let b := lo + k * g
  if out.fmt.isBlock then b - b % e % 32 else b

/-- Groups of the share of a VSEQ: 1,024 elements, or 2,048 with PREC 1. -/
def vseqGroups (out : Desc) (e g r0 r1 : Nat) : List (List Piece) :=
  let n := ceilDiv ((r1 - r0) * e) g
  (List.range n).map fun k => piecesOf e (g + 32) (vseqCut out e (r0 * e) g k)
    (if k + 1 = n then r1 * e else vseqCut out e (r0 * e) g (k + 1))

/-- VSEQ of a cluster from its group `done` on (R230, R234, R242). -/
def State.vseq (s : State) (a : Acc1) (l : Loaded) (done : Nat) (stop : Option Nat) : State × Option W16 :=
  match l.descs with
  | [some x, y, z, some out] =>
    let raw := l.raw
    let us := vseqOps raw
    let wf := if vseqPrec raw then out.fmt else .f32
    let (r0, r1) := vecShare raw l.rank l.g out.rows
    if r1 ≤ r0 then (s, none)
    else
      let w0 := wround wf (insF32 raw 0x0C)
      let w1 := wround wf (insF32 raw 0x10)
      let sat := w0.2 + w1.2 + s.broadcastSat a x y wf (vseqReads us 9) + s.broadcastSat a x z wf (vseqReads us 10)
      let g := if vseqPrec raw then 2048 else 1024
      let gs := vseqGroups out (x.e 0) g r0 r1
      let s := if done = 0 then (s.count (ibexReg a.ibex 5 0x10) sat).count (ibexReg a.ibex 5 0x20) (vseqCycles us x y z out gs) else s
      runPieces s (fun s ps => s.vseqGroup a raw x y z out wf [w0.1, w1.1] ps) (piecesNow done stop gs)
  | _ => (s, none)

/-- The spans that VSEQ of a cluster reads: the rows of its share of X and of each operand of X's extents that the sequence reads, and a
repeated row or element (R230, R236). -/
def Loaded.vseqSpans (l : Loaded) : List Span :=
  match l.descs with
  | [some x, y, z, some out] =>
    let (r0, r1) := vecShare l.raw l.rank l.g out.rows
    if r1 ≤ r0 then []
    else (([(8, some x), (9, y), (10, z)] : List (Nat × Option Desc)).filterMap fun d => if vseqReads (vseqOps l.raw) d.1 then d.2 else none).flatMap
      fun d => d.rowSpans (if d.ext = x.ext then (List.range (r1 - r0)).map (r0 + ·) else [0])
  | _ => []

/-- The spans of the cluster's share of rows of the first `k` operands of a vector instruction (R230). -/
def Loaded.shareSpans (l : Loaded) (k : Nat) : List Span :=
  let ds := l.descs.filterMap id
  let (r0, r1) := vecShare l.raw l.rank l.g ((ds.getLast?.map Desc.rows).getD 0)
  (ds.take k).flatMap fun d => d.rowSpans ((List.range (r1 - r0)).map (r0 + ·))

/-- VSEQ (R234). -/
def execVseq (n : IbexId) (stop : Option Nat) (s : State) : Host.Outcome State Fault Refusal :=
  s.runUnit n.val 0x40 stop (fun _ l => l.vseqSpans) fun l r s => s.vseq (l.acc1 n.val) l r.done stop

/-! ### VRED (R239) -/

/-- OP. -/
def vredOp (raw : List Byte) : Nat := insF raw 2 1 % 8

/-- The checks of VRED. -/
def State.loadVred (s : State) (c : Nat) (raw : List Byte) : Except Fail Checked := do
  let b1 := insF raw 1 1
  orFail (chk1 Code.WALK_RSVD (b1 % 32 != 0 || bitOf b1 7 || insF raw 2 1 / 8 != 0 || !zeroBytes raw 3 4 || !zeroBytes raw 8 64))
  let ds ← s.vecDescs c [⟨0, insF raw 4 2, false⟩, ⟨0, insF raw 6 2, false⟩]
  match ds with
  | [some x, some out] =>
    let op := vredOp raw
    orFail (firstFail [
      chk1 Code.VEC_RED_OP (decide (4 < op)),
      chk1 Code.VEC_SHAPE (out.ext != (if op = 4 then x.ext else 1 :: x.ext.drop 1) || (op == 3 && out.fmt != .s32))])
    .ok { descs := ds, reads := x.spans, writes := out.spans }
  | _ => .error (Code.WALK_DESC_INDEX, 0)

/-- Index of the first largest value that is not NaN, −1 when there is none. -/
def argMax (vs : List Val) : Int :=
  (vs.zipIdx.foldl (fun (b : Int × Val) v =>
    if v.1.isNaN then b else if b.1 < 0 || b.2.lt v.1 then ((v.2 : Int), v.1) else b) (-1, .nan)).1

/-- log2 e with 320 fraction bits, truncated. -/
def log2e : Val := .fin false
  3081577904126213121686167198097690134163479766071396094403848907535455306605342191083616308484524
  (-320)

/-- e to the power of a value (log entry 10). -/
def Val.exp (v : Val) : Val := (Val.mul v log2e).exp2

/-- SOFTMAX of a row with the saturations of its roundings (Table 7.6). -/
def softmax (vs : List Val) : List Val × Nat :=
  let m := match vs with | [] => Val.zero | x :: xs => xs.foldl Val.max x
  let es := vs.map fun v => wround .f32 (Val.add v m.neg).exp
  let t := wround .f32 (Val.sum (es.map (·.1)))
  let ys := es.map fun e => wround .f32 (Val.div e.1 t.1)
  (ys.map (·.1), (es.map (·.2)).sum + t.2 + (ys.map (·.2)).sum)

/-- The results of one row, with saturations. -/
def vredRow (op : Nat) (vs : List Val) : List Val × Nat :=
  match op with
  | 0 => let t := wround .f32 (Val.sum vs); ([t.1], t.2)
  | 1 => (match vs with | [] => [] | x :: xs => [xs.foldl Val.max x], 0)
  | 2 => (match vs with | [] => [] | x :: xs => [xs.foldl Val.min x], 0)
  | 3 => ([Val.ofInt (argMax vs)], 0)
  | _ => softmax vs

/-- VRED of a cluster from its row `done` on (R239, R242). -/
def State.vred (s : State) (a : Acc1) (l : Loaded) (done : Nat) (stop : Option Nat) : State × Option W16 :=
  match l.descs with
  | [some x, some out] =>
    let (r0, r1) := vecShare l.raw l.rank l.g out.rows
    if r1 ≤ r0 then (s, none)
    else
      let op := vredOp l.raw
      let s := if done = 0 then
        s.count (ibexReg a.ibex 5 0x20) ((r1 - r0) * ceilDiv (x.e 0) 1024 * (if op = 4 then 10 else 1) + 24) else s
      runPieces s (fun s r => (s.vload a x .f32 r 0 (x.e 0)).bind fun v =>
        let y := vredRow op v.1
        s.vstore a out r 0 y.1 (v.2 + y.2)) (piecesNow done stop ((List.range (r1 - r0)).map (r0 + ·)))
  | _ => (s, none)

/-- VRED (R239). -/
def execVred (n : IbexId) (stop : Option Nat) (s : State) : Host.Outcome State Fault Refusal :=
  s.runUnit n.val 0x41 stop (fun _ l => l.shareSpans 1) fun l r s => s.vred (l.acc1 n.val) l r.done stop

/-! ### VMOVE (R240) -/

/-- MODE 1: scatter. -/
def vmoveScatter (raw : List Byte) : Bool := bitOf (insF raw 1 1) 0

/-- The checks of VMOVE. -/
def State.loadVmove (s : State) (c : Nat) (raw : List Byte) : Except Fail Checked := do
  let b1 := insF raw 1 1
  orFail (chk1 Code.WALK_RSVD (b1 / 2 % 16 != 0 || bitOf b1 7 || !zeroBytes raw 2 4 || !zeroBytes raw 0x0A 64))
  let ds ← s.vecDescs c [⟨0, insF raw 4 2, false⟩, ⟨0, insF raw 6 2, false⟩, ⟨0, insF raw 8 2, false⟩]
  match ds with
  | [some x, some idx, some out] =>
    orFail (firstFail [
      chk1 Code.VEC_SHAPE (x.e 0 != out.e 0 || idx.elems != (if vmoveScatter raw then x.rows else out.rows)),
      chk1 Code.VEC_INDEX (idx.fmt != .s32 || x.fmt != out.fmt)])
    .ok { descs := ds, reads := x.spans ++ idx.spans, writes := out.spans }
  | _ => .error (Code.WALK_DESC_INDEX, 0)

/-- A row of codes with their scale bytes written as it is: VMOVE moves codes, and a NaN among them keeps its code (DESIGN CHOICE, log
entry 54). -/
def State.putRow (s : State) (a : Acc1) (d : Desc) (r : Nat) (cs : List (Nat × Nat)) : Option State :=
  (s.putCodes a d r 0 (cs.map (·.1))).bind fun s =>
    if d.fmt.isBlock then
      s.tWrite a d.spm (d.scaleBase + r * d.blocks) ((List.range d.blocks).map fun b => BitVec.ofNat 8 (cs.getD (32 * b) (0, 0)).2)
    else some s

/-- One moved row: index j of IDX. -/
def State.vmoveRow (s : State) (a : Acc1) (l : Loaded) (x idx out : Desc) (r0 r1 j : Nat) : Option State :=
  (s.flatVal a idx.plain j).bind fun v =>
    let i := truncInt v
    let scatter := vmoveScatter l.raw
    let oor := i < 0 ∨ ((if scatter then out.rows else x.rows) : Int) ≤ i
    let bump := fun (s : State) => s.count (ibexReg a.ibex 5 0x18) 1
    let done := fun (s : State) => s.count (ibexReg a.ibex 5 8) (x.e 0)
    if scatter then
      if oor then some (if l.rank = 0 then bump s else s)
      else if i.toNat < r0 ∨ r1 ≤ i.toNat then some s
      else (s.rowCodes a x j 0 (x.e 0)).bind fun cs => (s.putRow a out i.toNat cs).map done
    else if oor then (s.putRow a out j (List.replicate (x.e 0) (out.zpCode, 0))).map fun s => done (bump s)
    else (s.rowCodes a x i.toNat 0 (x.e 0)).bind fun cs => (s.putRow a out j cs).map done

/-- Rows that VMOVE of a cluster visits, by index in IDX (R240). -/
def vmoveRows (l : Loaded) (x : Desc) (r0 r1 : Nat) : List Nat :=
  if vmoveScatter l.raw then (if vecSplit l.raw || l.rank == 0 then List.range x.rows else [])
  else (List.range (r1 - r0)).map (r0 + ·)

/-- Rows of OUT that VMOVE of a cluster writes: every visited one in a gather, those whose index lies in the share in a scatter. -/
def State.vmoveWritten (s : State) (a : Acc1) (l : Loaded) (idx : Desc) (js : List Nat) (r0 r1 : Nat) : Nat :=
  if vmoveScatter l.raw then
    (js.filter fun j => match s.flatVal a idx.plain j with
      | some v => decide ((r0 : Int) ≤ truncInt v) && decide (truncInt v < (r1 : Int))
      | none => false).length
  else js.length

/-- VMOVE of a cluster from its row `done` on (R240, R242). -/
def State.vmove (s : State) (a : Acc1) (l : Loaded) (done : Nat) (stop : Option Nat) : State × Option W16 :=
  match l.descs with
  | [some x, some idx, some out] =>
    let (r0, r1) := vecShare l.raw l.rank l.g out.rows
    let js := vmoveRows l x r0 r1
    if js.isEmpty then (s, none)
    else
      let moved := s.vmoveWritten a l idx js r0 r1 * out.bytesOf (out.e 0)
      let s := if done = 0 then s.count (ibexReg a.ibex 5 0x20) (ceilDiv moved 1024 + 24) else s
      runPieces s (fun s j => s.vmoveRow a l x idx out r0 r1 j) (piecesNow done stop js)
  | _ => (s, none)

/-- The spans that VMOVE of a cluster reads: the indices that it visits, and the rows that it moves (R240). -/
def State.vmoveSpans (s : State) (n : Nat) (l : Loaded) : List Span :=
  match l.descs with
  | [some x, some idx, some out] =>
    let (r0, r1) := vecShare l.raw l.rank l.g out.rows
    let js := vmoveRows l x r0 r1
    let moved := js.filterMap fun j => (s.flatVal (l.acc1 n) idx.plain j).bind fun v =>
      let i := truncInt v
      if vmoveScatter l.raw then (if (r0 : Int) ≤ i ∧ i < (r1 : Int) then some j else none)
      else if 0 ≤ i ∧ i < (x.rows : Int) then some i.toNat else none
    js.map (fun j => idx.elemSpan (j / idx.e 0) (j % idx.e 0)) ++ x.rowSpans moved
  | _ => []

/-- VMOVE (R240). -/
def execVmove (n : IbexId) (stop : Option Nat) (s : State) : Host.Outcome State Fault Refusal :=
  s.runUnit n.val 0x42 stop (fun s l => s.vmoveSpans n.val l) fun l r s => s.vmove (l.acc1 n.val) l r.done stop

/-! ### VOPT (R241) -/

/-- The checks of VOPT. -/
def State.loadVopt (s : State) (c : Nat) (raw : List Byte) : Except Fail Checked := do
  let b1 := insF raw 1 1
  orFail (chk1 Code.WALK_RSVD (b1 % 32 != 0 || bitOf b1 7 || !zeroBytes raw 2 4 || !zeroBytes raw 0x20 64))
  let ds ← s.vecDescs c ((List.range 4).map fun i => ⟨0, insF raw (4 + 2 * i) 2, false⟩)
  match ds with
  | [some w, some g, some m1, some m2] =>
    let k := fun (i : Nat) => insF32 raw (0x0C + 4 * i)
    let unit := fun (v : Val) => !v.lt .zero && !(Val.pow2 0).lt v
    orFail (firstFail [
      chk1 Code.VEC_SHAPE (g.ext != w.ext || m1.ext != w.ext || m2.ext != w.ext || w.e 0 % 32 != 0),
      chk1 Code.VEC_IMM ((List.range 5).any (fun i => (k i).isSpecial) || !unit (k 1) || !unit (k 2) || !Val.zero.lt (k 3)),
      chk1 Code.VEC_OPT_FMT (w.fmt != .f32 || (g.fmt != .e5m2 && g.fmt != .bq8) || m1.fmt != .bq8 || m2.fmt != .b16)])
    .ok { descs := ds, reads := spansOf ds, writes := spansOf [some w, some m1, some m2] }
  | _ => .error (Code.WALK_DESC_INDEX, 0)

/-- The update of one element: w, m1, m2 and the saturations of the operations in F32. -/
def voptElem (raw : List Byte) (w g m1 m2 : Val) : (Val × Val × Val) × Nat :=
  let k := fun (i : Nat) => insF32 raw (0x0C + 4 * i)
  let (lr, b1, b2, eps, gs) := (k 0, k 1, k 2, k 3, k 4)
  let r := fun (v : Val) => wround .f32 v
  let one := Val.pow2 0
  let g := r (g.mul gs)
  let a1 := r (b1.mul m1)
  let c1 := r (one.add b1.neg)
  let d1 := r (c1.1.mul g.1)
  let m1 := r (a1.1.add d1.1)
  let a2 := r (b2.mul m2)
  let c2 := r (one.add b2.neg)
  let d2 := r (c2.1.mul g.1)
  let e2 := r (d2.1.mul g.1)
  let m2 := r (a2.1.add e2.1)
  let p := r (lr.mul m1.1)
  let q := r m2.1.sqrt
  let t := r (q.1.add eps)
  let u := r (p.1.div t.1)
  let w := r (w.add u.1.neg)
  ((w.1, m1.1, m2.1), ([g, a1, c1, d1, m1, a2, c2, d2, e2, m2, p, q, t, u, w].map (·.2)).sum)

/-- One block of 32 elements of row r from element i0. -/
def State.voptBlock (s : State) (a : Acc1) (raw : List Byte) (w g m1 m2 : Desc) (x : Nat × Nat) : Option State :=
  let ld := fun (d : Desc) => s.vload a d .f32 x.1 x.2 32
  (ld w).bind fun vw => (ld g).bind fun vg => (ld m1).bind fun v1 => (ld m2).bind fun v2 =>
    let rs := (List.range 32).map fun i =>
      voptElem raw (vw.1.getD i .zero) (vg.1.getD i .zero) (v1.1.getD i .zero) (v2.1.getD i .zero)
    let sat := (rs.map (·.2)).sum + vw.2 + vg.2 + v1.2 + v2.2
    (s.vstore a w x.1 x.2 (rs.map (·.1.1)) sat).bind fun s => (s.vstore a m1 x.1 x.2 (rs.map (·.1.2.1)) 0).bind fun s =>
      s.vstore a m2 x.1 x.2 (rs.map (·.1.2.2)) 0

/-- VOPT of a cluster from its block `done` on (R241, R242). -/
def State.vopt (s : State) (a : Acc1) (l : Loaded) (done : Nat) (stop : Option Nat) : State × Option W16 :=
  match l.descs with
  | [some w, some g, some m1, some m2] =>
    let (r0, r1) := vecShare l.raw l.rank l.g w.rows
    if r1 ≤ r0 then (s, none)
    else
      let e := w.e 0 / 32
      let s := if done = 0 then s.count (ibexReg a.ibex 5 0x20) (15 * ceilDiv ((r1 - r0) * w.e 0) 1024 + 24) else s
      runPieces s (fun s x => s.voptBlock a l.raw w g m1 m2 x)
        (piecesNow done stop ((List.range ((r1 - r0) * e)).map fun i => (r0 + i / e, i % e * 32)))
  | _ => (s, none)

/-- VOPT (R241). -/
def execVopt (n : IbexId) (stop : Option Nat) (s : State) : Host.Outcome State Fault Refusal :=
  s.runUnit n.val 0x43 stop (fun _ l => l.shareSpans 4) fun l r s => s.vopt (l.acc1 n.val) l r.done stop

end Sys2Proof.Machine
end

