-- ==== Sys2Proof/Machine/Scalar.lean ====
section
/-! DEFINITION. The scalar cores (R243 to R257, R634): TRACK, EMIT and their watchdog. -/

namespace Sys2Proof.Machine

/-! ### Loader checks (R245, R249, R259) -/

/-- SLOT. -/
def sclSlot (raw : List Byte) : Nat := insF raw 2 1

/-- The work area of a scalar core for a slot, in the partition of a context (R248). -/
def State.sclWork (s : State) (c slot : Nat) : Span := ⟨true, s.partSize c - 65536 + 16448 * (slot % 3), 16448⟩

/-- Detection, count, box and class tensors against Table 7.9. -/
def detBad (det cnt box : Desc) (cls : Option Desc) : Bool :=
  det.fmt != .s32 || det.e 0 != 2 || cnt.fmt != .s32 || cnt.elems != 1 || box.fmt != .f32 || box.e 0 != 4 ||
    (match cls with | some k => k.fmt != .s16 && k.fmt != .s32 | none => false)

/-- A scratchpad span of an operand overlaps the work area of R248. -/
def State.sclWorkBad (s : State) (c : Nat) (ds : List (Option Desc)) : Bool :=
  spansMeet (spansOf ds) [⟨true, s.partSize c - 65536, 65536⟩]

/-- A finite value that is not below 0. -/
def Val.finNonneg (v : Val) : Bool := !v.isSpecial && !v.lt .zero

/-- The checks that TRACK and EMIT share before their parameters; `slots` is the step's slot count. -/
def State.sclDescs (s : State) (c slots : Nat) (raw : List Byte) (os : List DescOp) : Except Fail (List (Option Desc)) := do
  let ds ← s.loadDescs c os
  let all := descsOf (os.map fun _ => 0) ds
  orFail (firstFail (s.descRanges c all))
  orFail (firstFail (s.steps11 c all))
  orFail (chk1 Code.SCL_SLOT (decide (63 < sclSlot raw) || decide (slots ≤ sclSlot raw)))
  .ok ds

/-- A TRACK parameter is out of range (Table 7.9). -/
def trackParamBad (raw : List Byte) : Bool :=
  let iou := insF32 raw 0x0C
  !Val.zero.lt iou || (Val.pow2 0).lt iou || (insF32 raw 0x10).isNaN || !(insF32 raw 0x14).finNonneg ||
    !(insF32 raw 0x18).finNonneg || !(insF32 raw 0x1C).finNonneg || !Val.zero.lt (insF32 raw 0x1C) ||
    insF raw 0x20 1 == 0 || insF raw 0x21 1 == 0

/-- The checks of TRACK; descriptors in the order DET, CNT, BOX, CLASS. -/
def State.loadTrack (s : State) (c slots : Nat) (raw : List Byte) : Except Fail Checked := do
  let b1 := insF raw 1 1
  orFail (chk1 Code.WALK_RSVD (b1 / 2 % 32 != 0 || bitOf b1 7 || !zeroBytes raw 3 4 || !zeroBytes raw 0x22 64))
  let ds ← s.sclDescs c slots raw [⟨0, insF raw 4 2, false⟩, ⟨0, insF raw 6 2, false⟩, ⟨0, insF raw 8 2, false⟩, ⟨0, insF raw 0x0A 2, true⟩]
  match ds with
  | [some det, some cnt, some box, cls] =>
    orFail (firstFail [
      chk1 Code.SCL_DET_FMT (detBad det cnt box cls),
      chk1 Code.SCL_TRACK_PARAM (trackParamBad raw),
      chk1 Code.SCL_WORK (s.sclWorkBad c ds)])
    .ok { descs := ds, reads := spansOf ds, writes := [s.sclWork c (sclSlot raw)] }
  | _ => .error (Code.WALK_DESC_INDEX, 0)

/-- MARGIN, MAX_REGIONS or MIN_SIDE is out of range (R249). -/
def regionParamBad (raw : List Byte) : Bool :=
  !(insF32 raw 0x0C).finNonneg || (Val.pow2 2).lt (insF32 raw 0x0C) || decide (64 < insF raw 0x10 1) ||
    insF raw 0x12 2 == 0 || decide (4096 < insF raw 0x12 2)

/-- The checks of EMIT; descriptors in the order DET, CNT, EMB, COUNTS, BOX, CLASS. -/
def State.loadEmit (s : State) (c slots : Nat) (raw : List Byte) : Except Fail Checked := do
  let b1 := insF raw 1 1
  orFail (chk1 Code.WALK_RSVD (b1 % 64 != 0 || bitOf b1 7 || !zeroBytes raw 3 4 || !zeroBytes raw 0x11 0x12 || !zeroBytes raw 0x18 64))
  let ds ← s.sclDescs c slots raw [⟨0, insF raw 4 2, false⟩, ⟨0, insF raw 6 2, false⟩, ⟨0, insF raw 8 2, true⟩, ⟨0, insF raw 0x0A 2, true⟩,
    ⟨0, insF raw 0x14 2, false⟩, ⟨0, insF raw 0x16 2, true⟩]
  match ds with
  | [some det, some cnt, emb, counts, some box, cls] =>
    orFail (firstFail [
      chk1 Code.SCL_DET_FMT (detBad det cnt box cls),
      chk1 Code.SCL_EMB ((match emb with | some d => d.fmt != .h16 || decide (1024 < d.e 0) | none => false) ||
        (match counts with | some d => d.fmt != .s32 || decide (256 < d.elems) | none => false)),
      chk1 Code.SCL_REGION_PARAM (regionParamBad raw),
      chk1 Code.SCL_WORK (s.sclWorkBad c ds)])
    .ok { descs := ds, reads := spansOf ds, writes := [] }
  | _ => .error (Code.WALK_DESC_INDEX, 0)

/-! ### Detections (R245, R246, R249) -/

/-- A detection: score as its F32 code, key index, class, and box codes X0, Y0, X1, Y1. -/
structure Det where
  score : W32
  key   : Nat
  cls   : Nat
  box   : List Nat
  deriving DecidableEq, Repr

/-- Box coordinates as values. -/
def Det.corners (d : Det) : List Val := d.box.map fun c => ofF32 (BitVec.ofNat 32 c)

/-- The code of an element at a flat index. -/
def State.flatCode (s : State) (a : Acc1) (d : Desc) (i : Nat) : Option Nat :=
  (s.rowCodes a d (i / d.e 0) (i % d.e 0) 1).bind fun l => l.head?.map (·.1)

/-- Detection i of DET with its box and class; a key index out of range is SCL_DET_FMT. -/
def State.readDet (s : State) (a : Acc1) (det box : Desc) (cls emb : Option Desc) (i : Nat) : Except W16 Det :=
  match s.rowCodes a det i 0 2 with
  | some [sc, ky] =>
    let key := sext 32 ky.1
    let past := fun (n : Nat) => decide ((n : Int) ≤ key)
    if decide (key < 0) || past box.rows || (match cls with | some k => past k.elems | none => false) ||
        (match emb with | some e => past e.rows | none => false) then .error Code.SCL_DET_FMT
    else
      match s.rowCodes a box key.toNat 0 4, (match cls with | some k => s.flatCode a k key.toNat | none => some 0) with
      | some b, some c => .ok ⟨BitVec.ofNat 32 sc.1, key.toNat, c % 65536, b.map (·.1)⟩
      | _, _ => .error Code.WALK_MEM_UE
  | _ => .error Code.WALK_MEM_UE

/-- The detections of an instruction: CNT and the keys under the rules of R246. -/
def State.readDets (s : State) (a : Acc1) (det cnt box : Desc) (cls emb : Option Desc) : Except W16 (List Det) :=
  match s.flatCode a cnt 0 with
  | none => .error Code.WALK_MEM_UE
  | some k =>
    let n := sext 32 k
    if n < 0 ∨ 1024 < n ∨ (det.rows : Int) < n then .error Code.SCL_DET_FMT
    else (List.range n.toNat).foldl (fun (r : Except W16 (List Det)) i => r.bind fun ds =>
      (s.readDet a det box cls emb i).map fun d => ds ++ [d]) (.ok [])

/-! ### The track table (R244, Table 7.8) -/

/-- A track slot. -/
structure Trk where
  id     : Nat
  cls    : Nat
  /-- 0 free, 1 tentative, 2 confirmed, 3 lost -/
  state  : Nat
  hits   : Nat
  misses : Nat
  score  : W32
  /-- CX, CY, W, H and their change per frame -/
  box    : List Val
  vel    : List Val
  pPos   : Val
  pVel   : Val
  lastPts : Nat
  deriving DecidableEq, Repr

/-- A free slot. -/
def Trk.free : Trk := ⟨0, 0, 0, 0, 0, 0, List.replicate 4 .zero, List.replicate 4 .zero, .zero, .zero, 0⟩

/-- The slot that 64 bytes spell. -/
def parseTrk (r : List Byte) : Trk :=
  { id := recField r 0 4, cls := recField r 4 2, state := recField r 6 1, hits := recField r 7 1, misses := recField r 8 1,
    score := BitVec.ofNat 32 (recField r 0x0C 4), box := (List.range 4).map fun i => insF32 r (0x10 + 4 * i),
    vel := (List.range 4).map fun i => insF32 r (0x20 + 4 * i), pPos := insF32 r 0x30, pVel := insF32 r 0x34,
    lastPts := recField r 0x38 8 }

/-- An F32 value as bytes. -/
def bytesF32 (v : Val) : List Byte := bytesLE 4 (toF32 v).toNat

/-- The 64 bytes of a slot. -/
def Trk.bytes (t : Trk) : List Byte :=
  bytesLE 4 t.id ++ bytesLE 2 t.cls ++ bytesLE 1 t.state ++ bytesLE 1 t.hits ++ bytesLE 1 t.misses ++ [0, 0, 0] ++
    bytesLE 4 t.score.toNat ++ t.box.flatMap bytesF32 ++ t.vel.flatMap bytesF32 ++ bytesF32 t.pPos ++ bytesF32 t.pVel ++ bytesLE 8 t.lastPts

/-- The table of a stream: NEXT_ID and its 256 slots; none is an uncorrectable error. -/
def State.loadTracks (s : State) (addr : Nat) : Option (Nat × List Trk) :=
  (s.memRead addr 16448).map fun r => (recField r 0 4, (List.range 256).map fun i => parseTrk ((r.drop (64 + 64 * i)).take 64))

/-- The 16,448 bytes of a table. -/
def tableBytes (nextId : Nat) (ts : List Trk) : List Byte :=
  bytesLE 4 nextId ++ bytesLE 4 (ts.filter fun t => t.state != 0).length ++ List.replicate 56 0 ++ ts.flatMap Trk.bytes

/-! ### TRACK (R246) -/

/-- One half. -/
def half : Val := .pow2 (-1)

/-- Centre and size of a detection's box. -/
def Det.centre (d : Det) : List Val :=
  match d.corners with
  | [x0, y0, x1, y1] => [fmul (fadd x0 x1) half, fmul (fadd y0 y1) half, fsub x1 x0, fsub y1 y0]
  | _ => []

/-- Corners of a track's box. -/
def Trk.corners (t : Trk) : List Val :=
  match t.box with
  | [cx, cy, w, h] => [fsub cx (fmul w half), fsub cy (fmul h half), fadd cx (fmul w half), fadd cy (fmul h half)]
  | _ => []

/-- The predict phase on a track. -/
def Trk.predict (raw : List Byte) (t : Trk) : Trk :=
  { t with box := List.zipWith fadd t.box t.vel, pPos := fadd t.pPos (fadd t.pVel (insF32 raw 0x14)), pVel := fadd t.pVel (insF32 raw 0x18) }

/-- A pair: slot, detection, intersection and union. -/
abbrev Pair := Nat × Nat × Val × Val

/-- The pairs, by IoU descending, then slot, then detection ascending: the exact quotients are compared. -/
def trackPairs (raw : List Byte) (ts : List Trk) (ds : List Det) : List Pair :=
  let ps := (ts.zipIdx).flatMap fun t => (ds.zipIdx).filterMap fun d =>
    if t.1.state = 0 ∨ (bitOf (insF raw 1 1) 0 ∧ t.1.cls ≠ d.1.cls) then none
    else (iouParts t.1.corners d.1.corners).bind fun q =>
      if (Val.mul (insF32 raw 0x0C) q.2).le q.1 then some (t.2, d.2, q.1, q.2) else none
  sortBy (fun (a b : Pair) => (Val.mul b.2.2.1 a.2.2.2).le (Val.mul a.2.2.1 b.2.2.2)) ps

/-- The greedy matching: slots with their detections. -/
def greedy : List Pair → List (Nat × Nat) → List (Nat × Nat)
  | [], ms => ms
  | p :: ps, ms => if ms.any fun m => m.1 == p.1 || m.2 == p.2.1 then greedy ps ms else greedy ps (ms ++ [(p.1, p.2.1)])

/-- The update of a matched track. -/
def Trk.matched (raw : List Byte) (pts : Nat) (t : Trk) (d : Det) : Trk :=
  let k := fdiv t.pPos (fadd t.pPos (insF32 raw 0x1C))
  let g := fdiv (fmul k t.pVel) t.pPos
  let innov := List.zipWith fsub d.centre t.box
  let hits := min 255 (t.hits + 1)
  { t with
    box := List.zipWith (fun b i => fadd b (fmul k i)) t.box innov,
    vel := List.zipWith (fun v i => fadd v (fmul g i)) t.vel innov,
    pPos := fmul (fsub (.pow2 0) k) t.pPos, hits := hits, misses := 0, score := d.score, lastPts := pts,
    state := if t.state ≠ 2 ∧ insF raw 0x20 1 ≤ hits then 2 else if t.state = 3 then 2 else t.state }

/-- The update of a track that no detection matched. A freed slot is zero whole (R246 states its TRACK_ID and STATE; DESIGN CHOICE for the
rest, log entry 52). -/
def Trk.missed (raw : List Byte) (t : Trk) : Trk :=
  if t.state = 0 then t
  else if insF raw 0x21 1 < t.misses + 1 ∨ t.state = 1 then .free
  else { t with misses := t.misses + 1, state := 3 }

/-- A track that detection d begins; the F32 code of its score is copied as it is (DESIGN CHOICE, log entry 54). -/
def newTrk (raw : List Byte) (pts id : Nat) (d : Det) : Trk :=
  { id := id, cls := d.cls, state := 1, hits := 1, misses := 0, score := d.score, box := d.centre,
    vel := List.replicate 4 .zero, pPos := insF32 raw 0x1C, pVel := insF32 raw 0x18, lastPts := pts }

/-- What TRACK has made so far: NEXT_ID, slots, new tracks refused, and KEY, TRACK_ID, TRACK_STATE of detections. -/
structure TrkRun where
  nextId : Nat
  ts     : List Trk
  noSlot : Nat
  info   : List (Nat × Nat × Nat)

/-- The birth phase for an unmatched detection. -/
def TrkRun.birth (raw : List Byte) (pts : Nat) (r : TrkRun) (d : Det) : TrkRun :=
  let v := ofF32 d.score
  if !(insF32 raw 0x10).le v then r
  else match r.ts.findIdx? fun t => t.state == 0 with
    | none => { r with noSlot := r.noSlot + 1 }
    | some i =>
      let id := if r.nextId = 0 then 1 else r.nextId
      { r with nextId := if id = 0xFFFFFFFF then 1 else id + 1, ts := r.ts.set i (newTrk raw pts id d),
               info := r.info ++ [(d.key, id, 1)] }

/-- The procedure of R246 on a table. -/
def trackRun (raw : List Byte) (pts nextId : Nat) (ts : List Trk) (ds : List Det) : TrkRun :=
  let ts := ts.map fun t => if t.state = 0 then t else t.predict raw
  let ms := greedy (trackPairs raw ts ds) []
  let upd := (ts.zipIdx).map fun t =>
    match (ms.find? fun m => m.1 == t.2).bind fun m => ds[m.2]? with
    | some d => (t.1.matched raw pts d, some d)
    | none => (t.1.missed raw, none)
  let info := upd.filterMap fun u => u.2.map fun d => (d.key, u.1.id, u.1.state)
  let rest := (ds.zipIdx).filter fun d => !(ms.any fun m => m.2 == d.2)
  rest.foldl (fun r d => r.birth raw pts d.1) ⟨nextId, upd.map (·.1), 0, info⟩

/-- The slot that an instruction names, in the open step of its queue. -/
def State.sclSlotOf (s : State) (l : Loaded) : Option (Step × Slot) := s.slotOf l.queue (sclSlot l.raw)

/-- The step's queue counts its own periods. -/
def State.ownPeriods (s : State) (l : Loaded) : Bool := (s.queue l.queue).lead == 0xFF

/-- The operand spans that TRACK and EMIT read on this cluster: none on a rank other than 0 or for a void slot (R247, R253). -/
def State.sclReads (s : State) (l : Loaded) : List Span :=
  if (s.sclSlotOf l).any fun x => x.2.state == .void then [] else l.alone

/-- TRACK on rank 0 (R246, R247, R252, R255). -/
def State.track (s : State) (a : Acc1) (l : Loaded) : State × Option W16 :=
  match l.descs, s.sclSlotOf l with
  | [some det, some cnt, some box, cls], some (_, sl) =>
    match (if s.strOpen sl.stream then s.trackAddr sl.stream else none) with
    | none => (s, none)
    | some addr =>
      match (if sl.state == .void then .ok [] else s.readDets a det cnt box cls none) with
      | .error c => (s, some c)
      | .ok ds =>
        match s.loadTracks addr with
        | none => (s, some Code.SCL_TABLE_UE)
        | some (next, ts) =>
          let r := trackRun l.raw (s.slotPts sl (s.ownPeriods l)).1.toNat next ts ds
          let bs := tableBytes r.nextId r.ts
          orUe s (((s.tWrite a true (s.sclWork l.ctx (sclSlot l.raw)).base bs).bind fun s => s.memWrite addr bs).map fun s =>
            (s.modSlot l.queue (sclSlot l.raw) fun sl => { sl with matched := r.info ++ sl.matched }).count
              (ibexReg a.ibex 5 0x70) r.noSlot)
  | _, _ => (s, none)

/-- TRACK. The other ranks pass over it, as R230 has it of an instruction that is not split. -/
def execTrack (n : IbexId) (s : State) : Host.Outcome State Fault Refusal :=
  s.runUnit n.val 0x60 none State.sclReads fun l _ s => if l.rank = 0 then s.track (l.acc1 n.val) l else (s, none)

/-! ### EMIT (R249 to R256) -/

/-- A record of a slot that is not a closing record: written, or dropped with every later one (R254). -/
def State.emitRecord (s : State) (n q i : Nat) (rec : List Byte) : State :=
  match s.slotOf q i with
  | none => s
  | some (_, sl) =>
    match (if sl.dropped then none else s.putRecord sl.stream rec) with
    | some s => (s.modSlot q i fun sl => { sl with records := sl.records + 1 }).count (ibexReg n 5 0x60) 1
    | none => (s.modSlot q i fun sl => { sl with dropped := true }).count (ibexReg n 5 0x68) 1

/-- Payload of a DETECTION record (Table 7.11). The F32 codes of score and box are copied as they are, a NaN with payload and sign
(DESIGN CHOICE, log entry 54). -/
def detPayload (d : Det) (tr : Nat × Nat) (emb : Nat) : List Byte :=
  bytesLE 4 tr.1 ++ bytesLE 2 d.cls ++ bytesLE 1 tr.2 ++ bytesLE 1 emb ++ bytesLE 4 d.score.toNat ++ d.box.flatMap (bytesLE 4) ++ bytesLE 4 d.key

/-- Payloads of the EMBEDDING records of a row of codes, which are copied as they are (DESIGN CHOICE, log entry 54). -/
def embPayloads (cs : List Nat) : List (List Byte) :=
  (List.range (ceilDiv cs.length 16)).map fun j =>
    let es := (cs.drop (16 * j)).take 16
    bytesLE 2 (16 * j) ++ bytesLE 1 es.length ++ List.replicate 5 0 ++ es.flatMap (bytesLE 2)

/-- Payloads of the COUNT records of the elements of COUNTS; VALUE of an unused entry is 0 (DESIGN CHOICE, log entry 79). -/
def countPayloads (vs : List Nat) : List (List Byte) :=
  (List.range (ceilDiv vs.length 5)).map fun j => (List.range 5).flatMap fun k =>
    match vs[5 * j + k]? with
    | some v => bytesLE 2 (5 * j + k) ++ [0, 0] ++ bytesLE 4 v
    | none => bytesLE 2 0xFFFF ++ [0, 0] ++ bytesLE 4 0

/-- The region record of a confirmed track, steps 2 to 4 of R256: `w` and `h` are the picture's size. -/
def regionOf (raw : List Byte) (w h : Nat) (t : Trk) : Option (List Byte) :=
  match List.zipWith fadd t.box t.vel with
  | [cx, cy, tw, th] =>
    let m := fadd (.pow2 0) (insF32 raw 0x0C)
    let hw := fmul (fmul m tw) half
    let hh := fmul (fmul m th) half
    let bs := [fsub cx hw, fadd cx hw, fsub cy hh, fadd cy hh]
    if ([cx, cy, tw, th, hw, hh] ++ bs).any Val.isSpecial then none
    else
      let cl := fun (v : Val) (n : Nat) => (min (max (truncInt v) 0) (n : Int)).toNat
      let x0 := cl (bs.getD 0 .zero) w
      let x1 := cl (bs.getD 1 .zero) w
      let y0 := cl (bs.getD 2 .zero) h
      let y1 := cl (bs.getD 3 .zero) h
      let side := insF raw 0x12 2
      if x1 < x0 + side ∨ y1 < y0 + side then none
      else some (bytesLE 2 x0 ++ bytesLE 2 y0 ++ bytesLE 2 x1 ++ bytesLE 2 y1 ++ bytesLE 4 t.id ++ bytesLE 2 t.cls ++ [0, 0])
  | _ => none

/-- The greater SCORE first, then the lower TRACK_ID; a score that is not a number is below every other. -/
def trkBefore (a b : Trk) : Bool :=
  let x := ofF32 a.score
  let y := ofF32 b.score
  if y.isNaN then !x.isNaN || decide (a.id ≤ b.id)
  else y.lt x || (y.eq x && decide (a.id ≤ b.id))

/-- The region list of a slot (R256). -/
def State.regionList (s : State) (raw : List Byte) (period : Nat) (pts : W64) (sl : Slot) (ts : List Trk) : List Byte :=
  let (w, h) := match sl.pic with
    | some p => (p.width, p.height)
    | none => (s.str sl.stream 0x18, s.str sl.stream 0x19)
  let rs := (((sortBy trkBefore (ts.filter fun t => t.state == 2)).filterMap (regionOf raw w h))).take (insF raw 0x10 1)
  bytesLE 1 rs.length ++ [0, 0, 0] ++ bytesLE 4 period ++ bytesLE 8 pts.toNat ++ rs.flatten

/-- The closing record of EMIT (R253), once for a slot, with SCL_RECORDS. -/
def State.emitClose (s : State) (n q i kind : Nat) (status : W16) (dets : Nat) : State :=
  match s.slotOf q i with
  | none => s
  | some (st, sl) =>
    if sl.closed then s
    else
      let room := ((s.stream sl.stream).hold.isEmpty && decide (0 < s.ringFree sl.stream)) || decide ((s.stream sl.stream).hold.length < 4)
      let s := s.closeSlot ((s.queue q).lead == 0xFF) st i sl kind status dets
      (s.modSlot q i fun sl => { sl with closed := true }).count (ibexReg n 5 0x60) (if room then 1 else 0)

/-- Everything that EMIT reads for a slot that is not void: detections, embedding rows, counts, and the tracks of an open
stream. -/
def State.emitReads (s : State) (a : Acc1) (l : Loaded) (sl : Slot) : Except W16 (List (Det × List Nat) × List Nat × Option (List Trk)) :=
  match l.descs with
  | [some det, some cnt, emb, counts, some box, cls] =>
    match s.readDets a det cnt box cls emb with
    | .error c => .error c
    | .ok ds =>
      let rows := optAll (ds.map fun d => match emb with
        | none => some (d, [])
        | some e => (s.rowCodes a e d.key 0 (e.e 0)).map fun cs => (d, cs.map (·.1)))
      let cs := match counts with
        | none => some []
        | some d => optAll ((List.range d.elems).map (s.flatCode a d))
      match rows, cs with
      | some rows, some cs =>
        match (if s.strOpen sl.stream then s.trackAddr sl.stream else none) with
        | none => .ok (rows, cs, none)
        | some addr => match s.loadTracks addr with
          | none => .error Code.SCL_TABLE_UE
          | some (_, ts) => .ok (rows, cs, some ts)
      | _, _ => .error Code.WALK_MEM_UE
  | _ => .error Code.WALK_MEM_UE

/-- EMIT on rank 0 (R249 to R256). -/
def State.emit (s : State) (a : Acc1) (l : Loaded) : State × Option W16 :=
  let i := sclSlot l.raw
  match s.sclSlotOf l with
  | none => (s, none)
  | some (st, sl) =>
    if sl.state == .void then (s.emitClose a.ibex l.queue i 2 sl.status 0, none)
    else match s.emitReads a l sl with
      | .error c => (s, some c)
      | .ok (rows, cs, ts) =>
        let (pts, fl) := s.slotPts sl (s.ownPeriods l)
        let flags := fl + (if st.widened then 1 else 0) + (if st.skipped then 2 else 0)
        let mk := fun (kind : Nat) (p : List Byte) => mkRecord kind flags sl.stream pts st.period 0 p
        let track := fun (k : Nat) => if ts.isNone then (0, 0) else ((sl.matched.find? fun m => m.1 == k).map (·.2)).getD (0, 0)
        let recs := rows.flatMap (fun r => mk 1 (detPayload r.1 (track r.1.key) (ceilDiv r.2.length 16)) :: (embPayloads r.2).map (mk 2)) ++
          (countPayloads cs).map (mk 3)
        let s := recs.foldl (fun s r => s.emitRecord a.ibex l.queue i r) s
        let s := match ts with
          | none => s
          | some ts =>
            let list := s.regionList l.raw st.period pts sl ts
            let s := match s.listAddr sl.stream (s.stream sl.stream).nextList with
              | some a => s.memPut a list
              | none => s
            (s.modStream sl.stream fun x => { x with pending := true }).modSlot l.queue i fun sl => { sl with listDone := true }
        (s.emitClose a.ibex l.queue i (if st.widened then 1 else 0) 0 rows.length, none)

/-- EMIT. The other ranks pass over it, as R230 has it of an instruction that is not split. -/
def execEmit (n : IbexId) (s : State) : Host.Outcome State Fault Refusal :=
  s.runUnit n.val 0x61 none State.sclReads fun l _ s => if l.rank = 0 then s.emit (l.acc1 n.val) l else (s, none)

/-- SCL_WATCHDOG (R243): the routine that runs on Ibex n did not finish in time. -/
def execSclWatchdog (n : IbexId) (s : State) : Host.Outcome State Fault Refusal :=
  match (match s.curOf n.val 0x60 with | some x => some x | none => s.curOf n.val 0x61) with
  | none => go s
  | some (l, _, _) => if l.rank = 0 then go (s.unitFault n.val l [] Code.SCL_WATCHDOG) else go s

end Sys2Proof.Machine
end

