-- ==== Sys2Proof/Machine/Walker.lean ====
section
/-! DEFINITION. The tile walker (R127, R128, R138, R144 to R154), layers and the wide re-run (R204 to R214), hitch instructions
(R363 to R366), and the end and the preemption of a step (R148, R257, R349, R356). -/

namespace Sys2Proof.Machine

/-! ### Loading an instruction -/

/-- The checks of a hitch instruction (R364, Table 10.9). -/
def State.loadHitch (s : State) (c : Nat) (raw : List Byte) : Except Fail Checked := do
  let b1 := insF raw 1 1
  let h := insF raw 4 2
  let one := opcode raw == 6 || opcode raw == 7
  orFail (chk1 Code.WALK_RSVD (b1 % 64 != 0 || bitOf b1 7 || !zeroBytes raw 2 4 || !zeroBytes raw 0x0C 64))
  orFail (chk1 Code.SCH_HITCH_FIELD (decide (4095 < h) || insF raw 6 2 == 0 || (one && insF raw 6 2 != 1)))
  orFail (chk1 Code.SCH_HITCH_ACCESS (!(s.hitch h).herds.testBit (s.ctx c 0x04)))
  .ok {}

/-- The checks of a NOP or an END (R128, R212). -/
def loadPlain (raw : List Byte) (wideEnd : Bool) : Except Fail Checked := do
  orFail (chk1 Code.WALK_RSVD (!zeroBytes raw 1 64))
  orFail (chk1 Code.QNT_WIDE_RANGE wideEnd)
  .ok {}

/-- The checks of an instruction at index `idx` of a schedule of `len` instructions, for rank `rank` of a step (R145). -/
def State.checkIns (s : State) (a : Acc1) (st : Step) (rank idx len : Nat) (wide : Bool) (raw : List Byte) : Except Fail Checked :=
  let c := a.ctx
  let g := st.ranks.length
  let slots := st.slots.length
  match opcode raw with
  | 0x00 => loadPlain raw false
  | 0x01 => loadPlain raw wide
  | 0x02 =>
    if !zeroBytes raw 1 2 || !zeroBytes raw 4 64 then .error (Code.WALK_RSVD, 0)
    else (s.loadLayer c raw wide idx len).map fun r => { opset := r }
  | 0x04 | 0x05 | 0x06 | 0x07 => s.loadHitch c raw
  | 0x10 => s.loadMM c raw g
  | 0x20 | 0x21 | 0x22 | 0x23 => s.loadWindow a raw rank g
  | 0x40 => s.loadVseq c raw
  | 0x41 => s.loadVred c raw
  | 0x42 => s.loadVmove c raw
  | 0x43 => s.loadVopt c raw
  | 0x60 => s.loadTrack c slots raw
  | 0x61 => s.loadEmit c slots raw
  | 0x80 => s.loadHist c raw
  | 0x90 => s.loadSort a raw
  | _ => .error (Code.WALK_OPCODE, 0)

/-- A fault of the walker outside a loaded instruction and outside a region: what the regions run is finished (R105, R150). -/
def State.walkFault (s : State) (n q c idx : Nat) (code : W16) : State :=
  (((s.loadErr n code c 0 idx).modIb n fun i => { i with cur := none }).finishJobs n).faultCtx c q code

/-- A schedule that ends without END: every region of the walker stops as R104 states, and shows the fault, then the context faults
(R150). That a region without an instruction shows it too is a DESIGN CHOICE, log entry 68. -/
def State.noEnd (s : State) (n q c idx : Nat) : State :=
  let s := (s.loadErr n Code.WALK_NO_END c 0 idx).modIb n fun i => { i with cur := none }
  let s := (s.jobs n).foldl (fun (s : State) j => s.regionStop n j.1 (s.region n j.1).lastParity (Code.WALK_NO_END, 0, 0)) s
  let s := ((List.range 4).filter fun k => (s.ib n).regions.all fun e => !(e.2.shown.any fun x => x.quarters.contains k)).foldl
    (fun s k => s.modRegion n k fun g => {
      parity := g.parity
      state := 5
      shown := some { opcode := 0, ctx := c, idx := idx, slice := 0, ordinal := 0, quarters := [k] } }) s
  s.faultCtx c q Code.WALK_NO_END

/-- A loader rejection (R146): every participant reports it. -/
def State.loadReject (s : State) (n q : Nat) (st : Step) (idx : Nat) (f : Fail) : State :=
  let s := st.ranks.foldl (fun s r => (s.loadErr r.ibex f.1 st.ctx f.2 idx).count (ibexReg r.ibex 2 0x60) 1) s
  (s.finishJobs n).faultCtx st.ctx q f.1

/-- The checks of an instruction that was read, and the loaded instruction or the rejection. -/
def State.loadChecked (s : State) (n q : Nat) (st : Step) (rank idx len : Nat) (wide : Bool) (raw : List Byte) : State :=
  match s.checkIns ⟨n, st.ctx⟩ st rank idx len wide raw with
  | .error f => s.loadReject n q st idx f
  | .ok c => s.modIb n fun i => { i with cur := some {
      queue := q, rank := rank, g := st.ranks.length, ctx := st.ctx, idx := idx, raw := raw, descs := c.descs, opset := c.opset,
      stripe := c.stripe, reads := c.reads, writes := c.writes } }

/-- The layer of a rank is over: what follows belongs to none until the next LAYER (R205). -/
def Rank.leaveLayer (r : Rank) : Rank := { r with layer := [], sat := 0 }

/-- The wide variant of a rank is complete: WIDE_SAT, STEPS under ALWAYS, and the walker continues at RESUME (R207, R210). None is
a bus error. -/
def State.wideDone (s : State) (q rank : Nat) (r : Rank) : Option State :=
  (s.layerStats r.layer 0 (if layPolicy r.layer = 2 ∧ rank = 0 then 1 else 0) 0 0 0 none r.wideSat).map fun s =>
    s.modRank q rank fun r => { r.leaveLayer with pc := r.resumeTo, wideEnd := 0, resumeTo := 0, wideSat := 0 }

/-- The next instruction of the rank on Ibex n read and checked; a bus error on the read of the instruction itself is WALK_MEM_UE, as
for an operand (DESIGN CHOICE, log entry 55). At the decision point of a layer under NEVER the layer's
statistics come first: each participant adds its count, to LAST_COUNT too after the first of the step has set it (R206, R210); under AUTO and SKIP the rank waits for the meeting (R207, R208). -/
def State.loadAt (s : State) (n : Nat) : State :=
  match s.rankOf n with
  | none => s
  | some (q, st, rank, r) =>
    let idx := match r.resume with | x :: _ => x.1 | [] => r.pc
    let v := st.variants.getD (Nat.log2 st.ranks.length) (0, 0)
    if v.2 ≤ idx then s.noEnd n q st.ctx idx
    else match s.memRead (s.ctx st.ctx 0x07 + v.1 + 64 * idx) 64 with
      | none => s.walkFault n q st.ctx idx Code.WALK_MEM_UE
      | some raw =>
        let wide := r.wideEnd != 0
        if !(opcode raw == 1 || opcode raw == 2) || wide || r.layer.isEmpty then s.loadChecked n q st rank idx v.2 wide raw
        else if !(s.jobs n).isEmpty then s
        else if layPolicy r.layer = 1 then
          let first := st.ranks.all fun x => decide (x.layers ≤ r.layers)
          match s.layerStats r.layer r.sat (if rank = 0 then 1 else 0) 0 0 0 (some (!first, r.sat)) 0 with
          | none => s.walkFault n q st.ctx idx Code.WALK_MEM_UE
          | some s => (s.modRank q rank fun r => { r.leaveLayer with layers := r.layers + 1 }).loadChecked n q st rank idx v.2 wide raw
        else s.modRank q rank fun r => { r with wait := .layer }

/-- The walker of Ibex n takes its next instruction after `cycles` more on the context. -/
def State.loadNext (s : State) (n cycles : Nat) : State :=
  match s.rankOf n with
  | none => s
  | some (q, st, rank, r) =>
    if st.stop || (r.wait != .none && r.resume.isEmpty) || r.stopped || r.ended || (s.ib n).cur.isSome then s
    else
      let s := s.modRank q rank fun r => { r with cycles := r.cycles + cycles }
      if r.wideEnd != 0 && r.resume.isEmpty && r.pc == r.wideEnd then
        if !(s.jobs n).isEmpty then s
        else match s.wideDone q rank r with
          | none => s.walkFault n q st.ctx r.pc Code.WALK_MEM_UE
          | some s => s.loadAt n
      else s.loadAt n

/-- INSTRUCTION_LOAD (R144, R145). -/
def execInstructionLoad (n : IbexId) (cycles : Nat) (s : State) : Host.Outcome State Fault Refusal := go (s.loadNext n.val cycles)

/-! ### NOP, MM, WCONV and the reducer -/

/-- NOP (R128). -/
def execNop (n : IbexId) (s : State) : Host.Outcome State Fault Refusal := s.runUnit n.val 0x00 none (fun _ _ => []) fun _ _ s => (s, none)

/-- The loaded MM or WCONV of Ibex n when its region may start it: the walker runs, or it resumes the instruction (R134, R149). -/
def State.matrixOf (s : State) (n op : Nat) : Option (Loaded × Rank × Mat) :=
  (s.ib n).cur.bind fun l => (s.rankOf n).bind fun x => l.mat.bind fun t =>
    let r := x.2.2.2
    let again := match r.resume with | y :: _ => y.1 == l.idx | [] => false
    if opcode l.raw == op && (r.wait == .none || again) && !r.stopped && !x.2.1.stop && !s.conflicts n l &&
        (s.jobs n).all (fun j => j.2.quarters.all fun k => !l.quarters.contains k) then some (l, r, t) else none

/-- The staging area of an instruction takes what the walker stages there: values that the spec does not state. -/
def State.stage2 (s : State) (a : Acc1) (raw : List Byte) : State :=
  let p := stageSpan raw
  let (bs, t) := s.freshBytes p.len
  if p.len = 0 then s else (t.tWrite a true p.base bs).getD t

/-- The regions that showed a quarter of `qs` show it no more. -/
def Ibex.unshow (i : Ibex) (qs : List Nat) : Ibex := { i with regions := i.regions.foldl (fun t e =>
  if e.2.job.isNone && (match e.2.shown with | some x => x.quarters.any qs.contains | none => false) then
    Tbl.set {} t e.1 { e.2 with state := 0, shown := none } else t) i.regions }

/-- The region of a product takes it as its job. -/
def State.takeJob (s : State) (n : Nat) (l : Loaded) (t : Mat) (ps : List Pass) : State :=
  ((s.stage2 (l.acc1 n) l.raw).modIb n fun i => i.unshow l.quarters).modRegion n (regionKey t.shape t.region) fun g =>
    { g with job := some l, passes := ps, shadow := none, latest := none, flight := false, nextRows := [], rows := [], state := 2 }

/-- A product starts: with the passes of its share, or with those that a preemption left (R132, R135, R149). An empty share runs
nothing and is complete. -/
def State.runMatrix (s : State) (n op : Nat) : State :=
  match s.matrixOf n op with
  | none => s
  | some (l, r, t) =>
    match r.resume with
    | (i, ps) :: rest =>
      if i = l.idx then
        let s := (s.modIb n fun i => { i with cur := none }).modRank l.queue l.rank fun r => { r with resume := rest }
        s.takeJob n l t ps
      else s
    | [] =>
      let ps := t.passes l.rank l.g
      if ps.isEmpty then (s.passCur n l).instrDone n else (s.passCur n l).takeJob n l t ps

/-- MM (R129, R132). -/
def execMm (n : IbexId) (s : State) : Host.Outcome State Fault Refusal := go (s.runMatrix n.val 0x10)

/-- WCONV (R163, R164). -/
def execWconv (n : IbexId) (s : State) : Host.Outcome State Fault Refusal := go (s.runMatrix n.val 0x20)

/-- A reducer instruction of a cluster from its output row `done` on: X in HBM is staged (R633), and a cluster with an empty share
runs none of it (R178, R632). -/
def State.runReducer (s : State) (n : Nat) (l : Loaded) (done : Nat) (stop : Option Nat) : State × Option W16 :=
  match l.descs with
  | some x :: _ :: some c :: _ =>
    let w := winOf l.raw x c l.rank l.g l.stripe
    if reducerIdle l.raw w l.rank l.g then (s, none)
    else
      let s := if x.spm then s else (s.stage2 (l.acc1 n) l.raw).countFree (ibexReg n 2 0x68)
      s.reduce (l.acc1 n) l.raw w l.rank l.g done stop
  | _ => (s, none)

/-- The spans that a reducer instruction of a cluster reads: the elements of X that its share of C is formed of (R178, R632). -/
def Loaded.reducerSpans (l : Loaded) : List Span :=
  match l.descs with
  | some x :: _ :: some c :: _ =>
    let w := winOf l.raw x c l.rank l.g l.stripe
    if reducerIdle l.raw w l.rank l.g then [] else w.readSpans l.raw (reducerShare l.raw w l.rank l.g)
  | _ => []

/-- WPOOL (R168 to R172). -/
def execWpool (n : IbexId) (stop : Option Nat) (s : State) : Host.Outcome State Fault Refusal :=
  s.runUnit n.val 0x21 stop (fun _ l => l.reducerSpans) fun l r s => s.runReducer n.val l r.done stop

/-- WRESAMPLE (R173 to R175). -/
def execWresample (n : IbexId) (stop : Option Nat) (s : State) : Host.Outcome State Fault Refusal :=
  s.runUnit n.val 0x22 stop (fun _ l => l.reducerSpans) fun l r s => s.runReducer n.val l r.done stop

/-- WREGROUP (R168, R169). -/
def execWregroup (n : IbexId) (stop : Option Nat) (s : State) : Host.Outcome State Fault Refusal :=
  s.runUnit n.val 0x23 stop (fun _ l => l.reducerSpans) fun l r s => s.runReducer n.val l r.done stop

/-! ### Layers (R204 to R214) -/

/-- Where a rank goes for a wide variant of its layer (R207). -/
def Rank.enterWide (r : Rank) : Rank :=
  let first := recField r.layer 8 2
  { r with pc := first, wideEnd := first + recField r.layer 0x0A 2, resumeTo := recField r.layer 0x0C 2, wideSat := 0, wait := .none }

/-- LAYER (R204, R205, R207): once the regions have finished, the record comes into force; under ALWAYS the walker runs the wide
variant at once. -/
def execLayer (n : IbexId) (s : State) : Host.Outcome State Fault Refusal :=
  match s.curOf n.val 0x02 with
  | none => go s
  | some (l, _, _) =>
    if !(s.jobs n.val).isEmpty then go s
    else
      let s := (s.passCur n.val l).modRank l.queue l.rank fun r =>
        { r with layer := l.opset, layerNo := insF l.raw 2 2, sat := 0 }
      let s := (s.setReg (ibexReg n.val 4 8) 0).instrDone n.val
      go (if layPolicy l.opset = 2 then s.modRank l.queue l.rank Rank.enterWide else s)

/-- The outcome of a meeting at a decision point (R207, R211): past, skip, wide re-run. -/
def layerOutcome (layer : List Byte) (total : Nat) (exact : Bool) : Bool × Bool × Bool :=
  let past := decide (recField layer 0 4 < total)
  (past, past && layPolicy layer == 3, past && layPolicy layer == 0 && !exact)

/-- A counter of the output pipe of every rank's Ibex. -/
def State.countRanks (s : State) (st : Step) (o k : Nat) : State :=
  st.ranks.foldl (fun s r => s.count (ibexReg r.ibex 4 o) k) s

/-- The meeting at a decision point: statistics before any wide run, then the branch, the same for every rank (R207 to R211). -/
def State.atDecision (s : State) (q : Nat) (st : Step) (r0 : Rank) : State :=
  let total := min 0xFFFFFFFF (st.ranks.map (·.sat)).sum
  let exact := s.ctx st.ctx 0x14 == 1
  let (past, skip, wide) := layerOutcome r0.layer total exact
  let n := fun (b : Bool) => if b then 1 else 0
  match s.layerStats r0.layer total 1 (n past) (n wide) (n skip) (some (false, total)) 0 with
  | none => s.walkFault r0.ibex q st.ctx r0.pc Code.WALK_MEM_UE
  | some s =>
    let s := ((s.countRanks st 0x28 1).countRanks st 0x30 (n wide)).countRanks st 0x38 (n skip)
    let s := s.countRanks st 0x40 (n (past && layPolicy r0.layer == 0 && exact))
    let move := fun (r : Rank) =>
      if wide then r.enterWide
      else if skip then { r.leaveLayer with pc := recField r.layer 0x0C 2, wait := .none }
      else { r.leaveLayer with wait := .none }
    s.modStep q fun st => { st with
      widened := st.widened || wide, skipped := st.skipped || skip, ranks := st.ranks.map move }

/-- LAYER_DECISION (R207, R208): every participant of the step of queue q has arrived. -/
def execLayerDecision (q : QueueId) (s : State) : Host.Outcome State Fault Refusal :=
  match (s.queue q.val).held with
  | none => go s
  | some st =>
    match st.ranks with
    | [] => go s
    | r0 :: _ =>
      if st.state != .running || st.ranks.any (fun r => r.wait != .layer || r.stopped) then go s
      else go (s.atDecision q.val st r0)

/-- Regions that wait at a meeting leave it (R138, R147). -/
def Ibex.meet (i : Ibex) : Ibex := { i with regions := i.regions.foldl (fun t e =>
  if e.2.state = 3 then Tbl.set {} t e.1 { e.2 with state := 0, shown := none } else t) i.regions }

/-- SYNC_RELEASE (R138): every participant has made all of its writes. -/
def execSyncRelease (q : QueueId) (s : State) : Host.Outcome State Fault Refusal :=
  match (s.queue q.val).held with
  | none => go s
  | some st =>
    if st.state != .running || st.ranks.any (fun r => r.wait != .sync || r.stopped || !r.resume.isEmpty || !(s.jobs r.ibex).isEmpty) then go s
    else
      let s := st.ranks.foldl (fun s r => (s.modIb r.ibex Ibex.meet).countFree (ibexReg r.ibex 2 0x80)) s
      go (s.modStep q.val fun st => { st with ranks := st.ranks.map fun r => { r with wait := .none } })

/-! ### END (R128, R257, R349) -/

/-- The closing records of the slots that have none when a step ends. -/
def State.closeEnded (s : State) (q : Nat) (st : Step) : State :=
  s.closeAll ((s.queue q).lead == 0xFF) st (if st.widened then 1 else 0) 0 true

/-- Pending region lists that the step completed become current at once (R20, R257). -/
def State.swapLists (s : State) (st : Step) : State :=
  st.slots.foldl (fun s sl =>
    if sl.listDone && s.strOpen sl.stream then s.modStream sl.stream fun x => { x with
      current := if x.pending then some x.nextList else x.current, pending := false } else s) s

/-- The step of queue q ends (R349) with the END of the rank on Ibex n. -/
def State.stepEnds (s : State) (n q : Nat) (st : Step) : State :=
  let s := (s.swapLists st).closeEnded q st
  let s := s.countCtx st.ctx 0x21 1
  let s := if s.ctx st.ctx 0x14 = 1 then s.countEntry 0x4000 0x03 1 else s
  (s.removeStep q st (some n)).schedule

/-- END (R349): the rank has ended once its regions have finished; the step ends with its last rank. -/
def execEndStep (n : IbexId) (cycles : Nat) (s : State) : Host.Outcome State Fault Refusal :=
  match s.curOf n.val 0x01 with
  | none => go s
  | some (l, _, _) =>
    if !(s.jobs n.val).isEmpty then go s
    else
      let s := (s.passCur n.val l).modRank l.queue l.rank fun r => { r with ended := true, cycles := r.cycles + cycles }
      let s := s.instrDone n.val
      match (s.queue l.queue).held with
      | none => go s
      | some st => if st.ranks.all (·.ended) then go (s.stepEnds n.val l.queue st) else go s

/-! ### Hitch instructions (R363 to R366) -/

/-- HITCH and N. -/
def hitchNo (raw : List Byte) : Nat := insF raw 4 2
/-- N. -/
def hitchN (raw : List Byte) : Nat := insF raw 6 2

/-- The lock hitch that a step waits for. -/
def State.lockWaited (s : State) (st : Step) : Option Nat :=
  st.waits.bind fun w => if (s.hitch w.1).lock && (s.hitch w.1).held then some w.1 else none

/-- Loans of the suspended steps of the holder of hitch k to context w, which waits at hitch `root`, along the chain of holders
(R366). -/
def State.lendChain (s : State) (w root k : Nat) : Nat → State
  | 0 => s
  | fuel + 1 =>
    let h := (s.hitch k).holder
    if h = w then s
    else
      let steps := s.stepsOf h
      let lent := (steps.filter fun x => x.2.state == .suspended || x.2.state == .suspending).map fun x => (⟨w, root, k, x.1⟩ : Loan)
      let s := s.setCtxSt h { (s.ctxSt h) with loans := (s.ctxSt h).loans ++ lent.filter fun l => !(s.ctxSt h).loans.contains l }
      match steps.findSome? fun x => s.lockWaited x.2 with
      | some j => s.lendChain w root j fuel
      | none => s

/-- The step of queue q parks when every rank waits at the hitch instruction, the one on Ibex n last: it leaves its Ibex clusters and
keeps its partitions there (R365). -/
def State.parkCheck (s : State) (n q : Nat) : State :=
  match (s.queue q).held with
  | none => s
  | some st =>
    match st.waits with
    | none => s
    | some (k, _, _) =>
      if !(st.ranks.all Rank.atHitch) then s
      else
        let s := s.leaveIbexes st (some n)
        let st := { st with
          state := .parked, parkedAt := s.sch.serial, stop := false, forQueue := none,
          ranks := st.ranks.map fun r => { r with cycles := 0 } }
        let s := { s with sch := { s.sch with serial := s.sch.serial + 1 } }
        let s := s.setStep q (some st)
        let h := s.hitch k
        (if h.lock && h.held then s.lendChain st.ctx k k 8 else s).schedule

/-- The rank on Ibex n waits at the loaded hitch instruction. -/
def State.waitHitch (s : State) (n : Nat) (l : Loaded) : State :=
  (s.modRank l.queue l.rank fun r => { r with wait := .hitch (syncBit l.raw), stands := (opcode l.raw, l.idx) }).parkCheck n l.queue

/-- Rank 0 passes the hitch instruction, and with it every rank that waits there (R365). -/
def State.passAll (s : State) (n : Nat) (l : Loaded) : State :=
  let rs := (((s.queue l.queue).held).map (·.ranks)).getD []
  let s := (s.hitchDone rs true).modStep l.queue fun st => { st with ranks := passHitch st.ranks }
  ((s.passCur n l).modRank l.queue l.rank fun r => { r with hpassed := r.hpassed + 1 }).instrDone n

/-- Rank 0 joins the waiters of hitch k for `m`, with the instruction's limit in µs (R365). -/
def State.joinHitch (s : State) (n : Nat) (l : Loaded) (k m : Nat) : State :=
  let limit := if insF l.raw 8 4 = 0 then s.ctx l.ctx 0x1A else insF l.raw 8 4
  let h := s.hitch k
  let s := s.setHitch k { h with waiters := h.waiters ++ [⟨l.queue, m⟩] }
  (s.modStep l.queue fun st => { st with waits := some (k, m, limit) }).waitHitch n l

/-- A hitch instruction on Ibex n: rank 0 runs `f`, which answers the state where the instruction passes or waits, or a code;
another rank passes where rank 0 has passed, and waits for it otherwise (R365). -/
def State.runHitch (s : State) (n op cycles : Nat) (f : Loaded → State → Except W16 State) : State :=
  match s.curOf n op with
  | none => s
  | some (l, st, r) =>
    if !(s.jobs n).isEmpty then s
    else
      let s := s.modRank l.queue l.rank fun r => { r with cycles := r.cycles + cycles }
      if l.rank = 0 then
        match f l s with
        | .ok s => s
        | .error code => s.unitFault n l [] code
      else if (match st.ranks with | r0 :: _ => decide (r.hpassed < r0.hpassed) | [] => false) then
        ((s.passCur n l).modRank l.queue l.rank fun r => { r with hpassed := r.hpassed + 1 }).instrDone n
      else s.waitHitch n l

/-- hwait of R365. -/
def State.hwait (s : State) (n : Nat) (l : Loaded) : Except W16 State :=
  let k := hitchNo l.raw
  let h := s.hitch k
  if h.lock then .error Code.SCH_HITCH_MODE
  else if h.waiters.isEmpty && decide (hitchN l.raw ≤ h.count) then
    .ok ((s.setHitch k { h with count := h.count - hitchN l.raw }).passAll n l)
  else .ok (s.joinHitch n l k (hitchN l.raw))

/-- hacquire of R365. -/
def State.hacquire (s : State) (n : Nat) (l : Loaded) : Except W16 State :=
  let k := hitchNo l.raw
  let h := s.hitch k
  if !h.lock then .error Code.SCH_HITCH_MODE
  else if h.waiters.isEmpty && h.count == 1 then
    let s := s.setHitch k { h with count := 0, holder := l.ctx, held := true }
    .ok ((s.modStep l.queue fun st => { st with holds := st.holds ++ [k] }).passAll n l)
  else .ok (s.joinHitch n l k 1)

/-- hsignal of R365. -/
def State.hsignal (s : State) (n : Nat) (l : Loaded) : Except W16 State :=
  let k := hitchNo l.raw
  let h := s.hitch k
  if h.lock then .error Code.SCH_HITCH_MODE
  else if 65535 < h.count + hitchN l.raw then .error Code.SCH_HITCH_OVF
  else .ok ((((s.setHitch k { h with count := h.count + hitchN l.raw }).passAll n l).serveHitch k).schedule)

/-- hrelease of R365. -/
def State.hrelease (s : State) (n : Nat) (l : Loaded) : Except W16 State :=
  let k := hitchNo l.raw
  let h := s.hitch k
  if !h.lock || !h.held || h.holder != l.ctx then .error Code.SCH_HITCH_MODE
  else .ok ((s.passAll n l).releaseHitch k).schedule

/-- HWAIT (R365). -/
def execHwait (n : IbexId) (cycles : Nat) (s : State) : Host.Outcome State Fault Refusal :=
  go (s.runHitch n.val 0x04 cycles fun l s => s.hwait n.val l)

/-- HSIGNAL (R365). -/
def execHsignal (n : IbexId) (s : State) : Host.Outcome State Fault Refusal :=
  go (s.runHitch n.val 0x05 0 fun l s => s.hsignal n.val l)

/-- HACQUIRE (R365). -/
def execHacquire (n : IbexId) (cycles : Nat) (s : State) : Host.Outcome State Fault Refusal :=
  go (s.runHitch n.val 0x06 cycles fun l s => s.hacquire n.val l)

/-- HRELEASE (R365). -/
def execHrelease (n : IbexId) (s : State) : Host.Outcome State Fault Refusal :=
  go (s.runHitch n.val 0x07 0 fun l s => s.hrelease n.val l)

/-! ### Preemption and run-time faults (R148, R150) -/

/-- What the regions of Ibex n have left: their instructions in schedule order with the passes that remain (R148). -/
def State.remaining (s : State) (n : Nat) : List (Nat × List Pass) :=
  sortBy (fun a b => decide (a.1 ≤ b.1)) ((s.jobs n).map fun j => (j.2.idx, (s.region n j.1).passes))

/-- A region as a preemption leaves it: what it ran shows until the step is saved (R147, R148). -/
def Region.preempt (g : Region) : Region :=
  match g.job with
  | some l => { parity := g.parity, state := 4, shown := some (g.show l) }
  | none => if g.state = 3 then { parity := g.parity, state := 4, shown := g.shown } else g.idle

/-- The walker of Ibex n has stopped at a preemption point (R148): it records the resume point of every region, and the step is saved
once every rank has stopped. -/
def State.stopRank (s : State) (n q rank cycles : Nat) : State :=
  let left := s.remaining n
  let here := (s.ib n).cur.map fun l => (opcode l.raw, l.idx)
  let s := (s.modRank q rank fun r => { r with
    stopped := true, resume := left ++ r.resume, cycles := r.cycles + cycles, stands := here.getD r.stands }).modIb n
    fun i => { i with cur := none, regions := i.regions.foldl (fun t e => Tbl.set {} t e.1 e.2.preempt) i.regions }
  s.modStep q fun st => if st.ranks.all (·.stopped) then { st with state := .suspending, parkedSave := false } else st

/-- WALKER_PREEMPT (R148): at a preemption point, with the tree drained and every complete tile written. An instruction outside the
Braid that has run in part goes on at the piece that its rank records. -/
def execWalkerPreempt (n : IbexId) (cycles : Nat) (s : State) : Host.Outcome State Fault Refusal :=
  match s.rankOf n.val with
  | none => go s
  | some (q, st, rank, r) =>
    if !st.stop || r.stopped || !(s.ib n.val).outq.isEmpty then go s else go (s.stopRank n.val q rank cycles)

/-- A fetch of Ibex n failed (R150): of the region that covers a quarter, or of the instruction outside the Braid. -/
def State.fetchFault (s : State) (n : Nat) (q : Option Nat) (code : W16) : State :=
  match q with
  | some q =>
    match s.jobAt n q with
    | none => s
    | some j => s.regionFault n j.1 (s.region n j.1).lastParity (code, 0, 0)
  | none =>
    match (s.ib n).cur with
    | some l => if (s.rankOf n).isSome && l.mat.isNone then s.unitFault n l l.reads code else s
    | none => s

/-- WALK_FETCH_TO (R150): a fetch for a region, or for the instruction outside the Braid, had no reply in time. -/
def execWalkFetchTo (n : IbexId) (q : Option Quarter) (s : State) : Host.Outcome State Fault Refusal :=
  go (s.fetchFault n.val (q.map (·.val)) Code.WALK_FETCH_TO)

/-- WALK_MEM_UE (R150): an operand fetch or an output write of a region, or of the instruction outside the Braid, returned a bus
error. -/
def execWalkMemUe (n : IbexId) (q : Option Quarter) (s : State) : Host.Outcome State Fault Refusal :=
  go (s.fetchFault n.val (q.map (·.val)) Code.WALK_MEM_UE)

/-- A write of WLK_CFG (R156): FETCH_TIMEOUT 0 is rejected. -/
def State.wlkCfg (s : State) (n v : Nat) : State :=
  if v % 65536 = 0 then s.logErr Code.WALK_CFG_RANGE 0 5 n (v % 2 ^ 32) (some 0) else s.setReg (ibexReg n 2 0) (BitVec.ofNat 64 (v % 65536))

/-- WLK_CFG_WRITE. -/
def execWlkCfgWrite (fn : Fn) (n : IbexId) (v : W32) (s : State) : Host.Outcome State Fault Refusal :=
  s.hostAct fn.val 4 fun s => if fn.val = 0 then s.wlkCfg n.val v.toNat else s

end Sys2Proof.Machine
end

