-- ==== Sys2Proof/Machine/Queues.lean ====
section
/-! DEFINITION. Queues, doorbells, descriptors, periods, the opening of a step, and save and restore (R339 to R351, R361,
R362). -/

namespace Sys2Proof.Machine

/-! ### Queue commands (R339, Table 10.12) -/

/-- A scheduler command register of function k (R494). -/
def schReg (k o : Nat) : Nat := fnReg k (schBase + o)

/-- SCH_QSTATUS of function k takes a result; a refusal also enters SCH_ERR and the error log (R339, R379). -/
def State.qResult (s : State) (k q : Nat) (code : W16) : State :=
  let s := s.setReg (schReg k 0x28) (BitVec.ofNat 64 (code.toNat + 0x10000))
  if code = 0 then s else (s.rejectV code k 3 q 0).famErr code k

/-- The record in SCH_QREC0 to 3 of function k. -/
def State.qRec (s : State) (k : Nat) : List Byte := (List.range 4).flatMap fun i => bytesLE 8 (s.reg (schReg k (8 * i))).toNat

/-- The checks of Table 10.3 in table order, for a record that function k binds. -/
def State.bindCode (s : State) (k : Nat) (r : List Byte) : Option W16 :=
  let f := recField r
  let lead := f 0x13 1
  let own := lead == 0xFF
  let fn := f 0x1C 1
  firstCode [
    if f 0 8 % 128 ≠ 0 then some Code.SCH_Q_RANGE else none,
    if f 8 8 % 8 ≠ 0 then some Code.SCH_Q_RANGE else none,
    if 1024 ≤ f 0x10 2 then some Code.SCH_Q_RANGE else none,
    if s.ctx (f 0x10 2) 0x03 ≠ fn || s.ctxState (f 0x10 2) = 0 then some Code.SCH_Q_CONTEXT else none,
    if f 0x12 1 < 4 || 12 < f 0x12 1 then some Code.SCH_Q_RANGE else none,
    if 64 ≤ lead && !own then some Code.SCH_Q_RANGE else none,
    if f 0x14 4 ≠ 0 && (!own || f 0x14 4 < 100 || 10000000 < f 0x14 4) then some Code.SCH_Q_RANGE else none,
    if 10000000 < f 0x18 4 || (f 0x18 4 = 0 && (!own || f 0x14 4 ≠ 0)) then some Code.SCH_Q_RANGE else none,
    if 64 ≤ fn || !s.enabled fn || (k ≠ 0 && k ≠ fn) then some Code.SCH_Q_CONTEXT else none,
    if f 0x1D 3 ≠ 0 then some Code.SCH_Q_RANGE else none]

/-- PICK, DAMAGE_VOID and TAINT_VOID of every stream, for the steps of a period that opens (R330). -/
def State.settings (s : State) : List (Nat × Nat × Nat) := (List.range 64).map fun n => (s.str n 0x42, s.str n 0x40, s.str n 0x41)

/-- The period of queue q opens (R347): a step it still holds is late-dropped, and a bound queue of a READY context may open
a step. -/
def State.queueOpening (s : State) (q : Nat) : State :=
  let s := match (s.queue q).held with
    | some st =>
      let s := if st.occupies then st.ranks.foldl (fun (s : State) (r : Rank) => s.drainOut r.ibex) s else s
      match (s.queue q).held with
      | some st => s.lateDrop q st
      | none => s
    | none => s
  let x := s.queue q
  s.setQueue q { x with
    mayOpen := x.bound && s.ctxState x.ctx == 2, openAt := s.sch.now, latch := s.settings,
    shedAt := s.sch.shed.contains x.ctx }

/-- BIND of queue q through function k's registers (R339); period 0 of a queue that counts its own opens (R346). -/
def State.qBind (s : State) (k q : Nat) : State :=
  let x := s.queue q
  if x.bound then s.qResult k q Code.SCH_Q_STATE
  else
    let r := s.qRec k
    match s.bindCode k r with
    | some c => s.qResult k q c
    | none =>
      let y : Queue := { bound := true, record := r, lastCode := x.lastCode, stale := x.stale + (if x.fetching then 1 else 0) }
      let s := s.setQueue q y
      let s := if y.lead = 0xFF ∧ y.f 0x14 4 ≠ 0 then s.queueOpening q else s
      s.qResult k q 0

/-- A queue whose commands function k may give: PF0 any, a VF its own. -/
def State.qMine (s : State) (k q : Nat) : Bool := k == 0 || !(s.queue q).bound || (s.queue q).fn == k

/-- UNBIND of queue q (R339). -/
def State.qUnbind (s : State) (k q : Nat) : State :=
  let x := s.queue q
  if !s.qMine k q then s.qResult k q Code.SCH_Q_CONTEXT
  else if x.held.isSome then s.qResult k q Code.SCH_Q_STATE
  else (s.setQueue q { x with bound := false, mayOpen := false }).qResult k q 0

/-- READ of queue q's record into function k's SCH_QRECk (Table 10.12). -/
def State.qRead (s : State) (k q : Nat) : State :=
  if !s.qMine k q then s.qResult k q Code.SCH_Q_CONTEXT
  else
    let s := (List.range 4).foldl (fun t i => t.setReg (schReg k (8 * i)) (BitVec.ofNat 64 ((s.queue q).f (8 * i) 8))) s
    s.qResult k q 0

/-- The scheduler's counter has reached `t` (R346). -/
def State.timeIs (s : State) (t : Nat) : State := { s with sch := { s.sch with now := max s.sch.now t } }

/-- BIND at `nowUs` of the scheduler's counter. -/
def execBind (fn : Fn) (q : QueueId) (nowUs : Nat) (s : State) : Host.Outcome State Fault Refusal :=
  s.hostAct fn.val 4 fun s => (s.timeIs nowUs).qBind fn.val q.val

/-- UNBIND. -/
def execUnbind (fn : Fn) (q : QueueId) (s : State) : Host.Outcome State Fault Refusal := s.hostAct fn.val 4 fun s => s.qUnbind fn.val q.val

/-- QUEUE_READ. -/
def execQueueRead (fn : Fn) (q : QueueId) (s : State) : Host.Outcome State Fault Refusal := s.hostAct fn.val 4 fun s => s.qRead fn.val q.val

/-! ### Doorbells and descriptors (R340 to R344) -/

/-- Entries of the ring of a queue. -/
def Queue.ring (x : Queue) : Nat := 2 ^ x.f 0x12 1

/-- The first failing check of a doorbell write (R340). -/
def Queue.doorCode (x : Queue) (k : Nat) (tail : W32) : Option W16 :=
  if !x.bound then some Code.SCH_DB_UNBOUND
  else if x.fn ≠ k then some Code.SCH_DB_OWNER
  else if x.ring < (tail - x.head).toNat || x.ring < (tail - x.tail).toNat then some Code.SCH_DB_RANGE
  else none

/-- A write of TAIL in the doorbell of queue q by function k (R340). -/
def State.doorbell (s : State) (k q : Nat) (tail : W32) : State :=
  let x := s.queue q
  match x.doorCode k tail with
  | some c =>
    (((s.setQueue q { x with lastCode := c }).countEntry 0x3400 0x15 1).rejectV c k 3 q tail.toNat).famErr c k
  | none => s.setQueue q { x with tail := tail }

/-- DOORBELL_WRITE (R340). -/
def execDoorbellWrite (fn : Fn) (q : QueueId) (tail : W32) (s : State) : Host.Outcome State Fault Refusal :=
  s.hostAct fn.val 4 fun s => s.doorbell fn.val q.val tail

/-- A queue that may fetch its head descriptor: it may open a step, and none is on its way (R341, R347). -/
def State.mayFetch (s : State) (q : Nat) : Bool :=
  let x := s.queue q
  x.bound && !x.fetching && x.held.isNone && x.head != x.tail && s.ctxState x.ctx == 2 &&
    (x.mayOpen || !x.hasPeriods) && s.canIssue x.fn && s.stage == 11

/-- DESC_FETCH (R341): one 128-byte read, HEAD advances, HEAD_WB is written. In Nap and during an entry into it, an opening with
a step to open is a wake event (R480, Table 10.11), and the fetch comes after it. -/
def execDescFetch (q : QueueId) (s : State) : Host.Outcome State Fault Refusal :=
  let x := s.queue q.val
  if !s.mayFetch q.val then go s
  else if 2 ≤ s.power || s.tth.nap ≠ 0 then go s.wakeUp
  else
    let addr := BitVec.ofNat 64 (x.f 0 8 + 128 * (x.head.toNat % x.ring))
    let s := s.issue (.read x.fn false addr 128 (.desc q)) .no
    let s := s.setQueue q.val { x with head := x.head + 1, fetching := true }
    go (if x.f 8 8 = 0 then s else s.hostWrite x.fn (BitVec.ofNat 64 (x.f 8 8)) (bytesLE 8 (x.head + 1).toNat) (.queue q.val))

/-- The variants of an entry record that are present: SCHED_LEN is not 0, SCHED_OFF is aligned and the schedule lies inside
the window (Table 10.2). An absent one is (0, 0). -/
def State.entryVariants (s : State) (c : Nat) (r : List Byte) : List (Nat × Nat) :=
  (List.range 4).map fun v =>
    let o := recField r (16 * v) 8
    let n := recField r (16 * v + 8) 4
    if n ≠ 0 && n ≤ 65535 && o % 64 = 0 && o + 64 * n ≤ s.ctx c 0x06 then (o, n) else (0, 0)

/-- Slot bytes of a descriptor. -/
def slotByte (d : List Byte) (i : Nat) : Nat := recField d (0x20 + i) 1

/-- Table 10.6, steps 2 to 6: the variants of the entry record, or the first failure. -/
def State.descCheck (s : State) (x : Queue) (d : List Byte) : Except W16 (List (Nat × Nat)) :=
  let c := x.ctx
  let n := recField d 0 1
  let flags := recField d 1 1
  let aug := bitOf flags 1
  let slots := (List.range (min n 64)).map fun i => slotByte d i
  let pics := (slots.filter fun b => !bitOf b 6).map (· % 64)
  if flags / 4 ≠ 0 || recField d 4 4 ≠ 0 || recField d 0x60 32 ≠ 0 || slots.any (bitOf · 7) ||
      (List.range 64).any (fun i => decide (n ≤ i) && slotByte d i != 0) || (aug && !bitOf flags 0) then
    .error Code.SCH_DESC_RSVD
  else if n = 0 || 64 < n || !decide pics.Nodup then .error Code.SCH_DESC_SLOTS
  else
    let e := recField d 2 2
    let a := s.ctx c 0x07 + s.ctx c 0x12 + 64 * e
    if s.ctx c 0x13 ≤ e || !s.inWindow c a 64 then .error Code.SCH_DESC_ENTRY
    else match s.memRead a 64 with
      | none => .error Code.SCH_DESC_ENTRY
      | some r =>
        let vs := s.entryVariants c r
        let has := fun g => decide (0 < (vs.getD (Nat.log2 g) (0, 0)).2)
        let fg := s.ctx c 0x15
        if (if fg ≠ 0 then !has fg else !([1, 2, 4, 8].any fun g => decide (g ≤ s.ctx c 0x16) && has g)) then
          .error Code.SCH_DESC_ENTRY
        else
          let ao := recField d 8 8
          if (if aug then ao % 32 ≠ 0 || s.ctx c 0x06 < ao + 32 * n else ao ≠ 0) then .error Code.SCH_DESC_AUG
          else if slots.any (fun b => s.strFn (b % 64) != x.fn || (!x.hasPeriods && !bitOf b 6)) then .error Code.SCH_DESC_STREAM
          else .ok vs

/-- A descriptor rejected at steps 1 to 6 (R343). -/
def State.descReject (s : State) (q : Nat) (code : W16) : State :=
  let x := s.queue q
  let s := (s.setQueue q { x with lastCode := code }).setEntry (0x3000 + x.ctx) 0x1D code.toNat
  (s.countEntry 0x3400 0x14 1).rejectV code x.fn 3 q 0

/-- PERIOD of a step's records (R348). -/
def State.periodNo (s : State) (q : Nat) : Nat :=
  let x := s.queue q
  if x.lead ≠ 0xFF then s.str x.lead 0x4C else x.periods

/-- A fresh slot for a slot byte, with the settings of its stream that the period latched (R330). -/
def State.newSlot (s : State) (latch : List (Nat × Nat × Nat)) (b : Nat) : Slot :=
  let n := b % 64
  let x := s.stream n
  let t := latch.getD n (0, 255, 0)
  { stream := n, host := bitOf b 6, openPts := x.openPts, openDerived := x.openDerived, pick := t.1, dmgVoid := t.2.1,
    taintVoid := t.2.2, state := .waiting, pic := none, status := 0, closed := false, records := 0, dropped := false,
    matched := [], listDone := false, latched := none, aug := none, items := [], running := 0, voidDue := false,
    holding := false }

/-- Close time of the present period of queue q for R327: the end of the fill window, or the next opening that a clock gives, if that
comes first (R346, R348). The opening that a picture calls for cannot be known. -/
def State.closeTime (s : State) (q : Nat) : Nat :=
  let x := s.queue q
  let lead := s.stream x.lead
  let next := if x.lead = 0xFF then x.f 0x14 4 else if lead.mode = 0 then lead.periodLen else lead.periodMax
  if !x.hasPeriods then s.sch.now else x.openAt + (if next = 0 then x.f 0x18 4 else min (x.f 0x18 4) next)

/-- The open step that descriptor d gives queue q. -/
def State.newStep (s : State) (q : Nat) (d : List Byte) (vs : List (Nat × Nat)) : Step :=
  let x := s.queue q
  { ctx := x.ctx, fn := x.fn, period := s.periodNo q, state := .filling, serial := s.sch.serial, parkedAt := 0, stop := false,
    forQueue := none, preproc := bitOf (recField d 1 1) 0, aug := bitOf (recField d 1 1) 1, augOff := recField d 8 8,
    seed := BitVec.ofNat 64 (recField d 0x10 8), stepNo := BitVec.ofNat 64 (recField d 0x18 8), variants := vs, plan := [],
    planDescs := [], closeAt := s.closeTime q,
    slots := (List.range (recField d 0 1)).map fun i => s.newSlot (if x.hasPeriods then x.latch else s.settings) (slotByte d i), fills := [], g := 0, ranks := [], holds := [],
    waits := none, passed := false, parkedSave := false, kdone := [], widened := false, skipped := false,
    overridden := false }

/-- Plan and generator checks of an opened step (R308, R603): plan, descriptors and fills, or the code of the first failure. -/
def State.openChecks (s : State) (st : Step) : Except W16 (List (List Byte) × List (List (Option Desc)) × List (Desc × List Byte)) :=
  match (if st.preproc then s.checkPlan st.ctx st.slots.length else .ok ([], [])) with
  | .error e => .error e
  | .ok (jobs, ds) =>
    match s.genList st.ctx ds with
    | .error e => .error e
    | .ok fs => .ok (jobs, ds, fs)

/-- A step of a shed context (R473): each slot takes a picture as R309 would and releases it, and closes void with
PWR_SHED. -/
def State.shedStep (s : State) (q : Nat) (st : Step) : State :=
  let r := (st.slots).foldl (fun (a : State × List Slot) sl =>
    let x := a.1.stream sl.stream
    match (if sl.host then none else if sl.pick = 1 then x.queue.getLast? else x.queue.head?) with
    | none => (a.1, a.2 ++ [sl])
    | some idx =>
      match x.frames.find? fun f => f.pic.decodeIdx == idx && f.output with
      | none => (a.1, a.2 ++ [sl])
      | some f =>
        let older := if sl.pick = 1 then x.queue.dropLast else []
        let s := older.foldl (fun s o => (s.takeQueued sl.stream o false).countEntry (0x2000 + sl.stream) 0x46 1) a.1
        let s := (s.takeQueued sl.stream idx false).modStream sl.stream fun y =>
          { y with tookPts := f.pic.pts, tookDerived := f.pic.ptsDerived, took := true }
        (s, a.2 ++ [{ sl with pic := some f.pic }])) (s, [])
  let s := r.1.countEntry 0x1400 0x35 1
  s.closeAll ((s.queue q).lead == 0xFF) { st with slots := r.2.map fun sl => { sl with state := .void } } 2 Code.PWR_SHED false

/-- The slots of an opened step start (R309, R313): a HOST slot without PREPROC is filled, with PREPROC its items begin. A slot of a stream
whose present period a reset has voided is void (R295). -/
def State.startHosts (s : State) (q : Nat) (st : Step) : State :=
  (st.slots.zipIdx).foldl (fun s x =>
    if x.1.host then s.startSlot q x.2
    else if (s.stream x.1.stream).voided then s.voidSlot q x.2 Code.VID_RESET else s) s

/-- A step opens for queue q (R347, Table 10.6 step 7). -/
def State.openStep (s : State) (q : Nat) (d : List Byte) (vs : List (Nat × Nat)) : State :=
  let st := s.newStep q d vs
  let x := s.queue q
  let s := { s with sch := { s.sch with serial := s.sch.serial + 1 } }
  let s := s.setQueue q { x with mayOpen := false, periods := if x.hasPeriods then x.periods else (x.periods + 1) % 2 ^ 32 }
  let s := if x.lead = 0xFF then s else s.modStream x.lead fun y => { y with used := true }
  let s := s.countCtx st.ctx 0x20 1
  if (if x.hasPeriods then x.shedAt else s.sch.shed.contains st.ctx) then s.shedStep q st
  else
    match s.openChecks st with
    | .error e => (((s.setStep q (some st)).preErr e st.ctx 0).logDev e 2 st.ctx).faultCtx st.ctx q e
    | .ok (jobs, ds, fs) =>
      let s := (s.setStep q (some { st with plan := jobs, planDescs := ds, fills := fs })).startHosts q st
      if x.hasPeriods ∧ !x.mayOpen then s.closeFill q else s

/-- The oldest outstanding descriptor read of queue q ends; true where its descriptor may still open a step. One whose binding is gone,
or whose context is not READY any more, opens none and counts as rejected (R344). -/
def State.endFetch (s : State) (q : Nat) : State × Bool :=
  let x := s.queue q
  if 0 < x.stale then ((s.setQueue q { x with stale := x.stale - 1 }).countEntry 0x3400 0x14 1, false)
  else if !x.fetching then (s, false)
  else
    let s := s.setQueue q { x with fetching := false }
    if x.bound && s.ctxState x.ctx == 2 then (s, true) else (s.countEntry 0x3400 0x14 1, false)

/-- DESC_ARRIVAL (R341 to R343): the fetched descriptor is checked; `nowUs` is the scheduler's counter. -/
def execDescArrival (q : QueueId) (d : Fetched) (nowUs : Nat) (s : State) : Host.Outcome State Fault Refusal :=
  if !s.awaits (.desc q) then go (s.timeIs nowUs)
  else
  match (((s.timeIs nowUs).land (.desc q)).received d.size).endFetch q.val with
  | (s, false) => go s
  | (s, true) =>
    match d with
    | .failed => go (s.descReject q.val Code.SCH_DESC_FETCH)
    | .bytes bs =>
      match s.descCheck (s.queue q.val) bs with
      | .error e => go (s.descReject q.val e)
      | .ok vs => go (s.openStep q.val bs vs)

/-! ### Periods (R345, R346) -/

/-- A period of stream n opens: its number, the settings that take effect, and each queue it leads. `pts` is the opening
PTS of a picture-driven period and whether it was derived from PTS_PERIOD. -/
def State.streamPeriod (s : State) (n : Nat) (pts : Option (W64 × Bool)) : State :=
  let x := s.stream n
  let s := if x.opened && !x.used then s.countEntry (0x2000 + n) 0x4E 1 else s
  let s := s.setEntry (0x2000 + n) 0x4C (if x.opened then (s.str n 0x4C + 1) % 2 ^ 32 else 0)
  let mode := s.str n 0x48
  let s := s.modStream n fun y => { y with
    opened := true, used := false, took := false, voided := false, mode := mode, ptsPeriod := s.str n 0x4A, periodLen := s.str n 0x49, periodMax := s.str n 0x4B, fresh := mode == 1 && pts.isNone,
    openPts := (pts.map (·.1)).getD y.openPts, openDerived := (pts.map (·.2)).getD false,
    cmpPts := if y.opens.isEmpty then (pts.map (·.1)).getD y.cmpPts else y.cmpPts }
  (s.sch.queues.filter fun e => e.2.bound && e.2.lead == n).foldl (fun s e => s.queueOpening e.1) s

/-- A picture enters the delivery queue of stream n: it calls for a period when the stream is picture-driven and its PTS
advances far enough, or is the first (R346). -/
def State.pictureCalls (s : State) (n : Nat) (pts : W64) : State :=
  let x := s.stream n
  if x.mode ≠ 1 then s
  else
    let d := pts - x.cmpPts
    if x.fresh || d.msb || x.ptsPeriod ≤ d.toNat then
      s.modStream n fun y => { y with opens := y.opens ++ [pts], cmpPts := pts, fresh := false }
    else s

/-- PERIOD_OPEN (R346) at `nowUs` of the scheduler's counter. -/
def execPeriodOpen (src : PeriodSource) (nowUs : Nat) (s : State) : Host.Outcome State Fault Refusal :=
  let s := s.timeIs nowUs
  match src with
  | .timer n =>
    let x := s.stream n.val
    if !s.strOpen n.val || s.strState n.val = 4 then go s
    else if x.mode = 0 then go (s.streamPeriod n.val none)
    else if x.opened && !x.fresh && x.periodMax ≠ 0 then
      go (s.streamPeriod n.val (some (x.openPts + BitVec.ofNat 64 x.ptsPeriod, true)))
    else go s
  | .picture n =>
    match (s.stream n.val).opens with
    | [] => go s
    | p :: ps => go ((s.modStream n.val fun y => { y with opens := ps }).streamPeriod n.val (some (p, false)))
  | .queue q =>
    let x := s.queue q.val
    if x.bound && x.lead == 0xFF && x.f 0x14 4 != 0 then
      go ((s.setQueue q.val { x with periods := (x.periods + 1) % 2 ^ 32 }).queueOpening q.val)
    else go s

/-! ### Save and restore (R361, R362) -/

/-- The bytes of the accumulator partition of a resident: entries from its base, 256 strands of 4 bytes each (log entry 15), with the
number of corrected words (R107); none is an uncorrectable word. -/
def State.accImage (s : State) (n : Nat) (r : Resident) : Option (List Byte × Nat) :=
  (List.range (r.accSize * 64)).foldl (fun (o : Option (List Byte × Nat)) e => o.bind fun bs =>
    match s.accRead n (r.accBase * 64 + e) 0 256 with
    | .ok (ws, ce) => some (bs.1 ++ ws.flatMap (fun w => bytesLE 4 w.toNat), bs.2 + ce)
    | .error _ => none) (some ([], 0))

/-- The accumulator partition of a resident written from its image, entry by entry (R361, R434). -/
def State.putAccImage (s : State) (n : Nat) (p : Resident) (ws : List W32) : State :=
  (List.range (p.accSize * 64)).foldl (fun s e => s.accWrite n (p.accBase * 64 + e) 0 ((ws.drop (256 * e)).take 256)) s

/-- Words that a list of bytes spells. -/
def words32 : Nat → List Byte → List W32
  | 0, _ => []
  | n + 1, bs => BitVec.ofNat 32 (natLE (bs.take 4)) :: words32 n (bs.drop 4)

/-- Bytes of the scratchpad partition that an image of `used` units holds: the work area is left out (R248, R361). -/
def State.savedBytes (s : State) (c used : Nat) : Nat := min (used * 262144) (s.ctx c 0x08 * 262144 - 65536)

/-- The scratchpad bytes that a save of the resident of context c on Ibex n reads, as a range. -/
def State.saveRange (s : State) (c : Nat) (p : Resident) : Nat × Nat := (p.spmBase * 262144, s.savedBytes c p.used)

/-- Rank r of a step saved: its image in the save area, the words that the reads corrected rewritten and counted (R107, Table 12.1), then
its partitions released; none is an uncorrectable error. -/
def State.saveRank (s : State) (c r : Nat) (k : Rank) : Option State :=
  let a := s.ctx c 0x1B + r * s.imageSize c
  match (s.ib k.ibex).resident c with
  | none => some s
  | some p =>
    (s.spmRead k.ibex (p.spmBase * 262144) (s.savedBytes c p.used)).bind fun sp =>
      let (ctl, s) := (s.mendSpm k.ibex [s.saveRange c p]).freshBytes 4096
      (s.memWrite a (ctl ++ sp)).bind fun s =>
        (s.accImage k.ibex p).bind fun ac => (s.memWrite (a + 4096 + p.spmSize * 262144) ac.1).map fun s =>
          (s.count (ibexReg k.ibex 1 0x68) ac.2).modIb k.ibex fun i => i.evict c

/-- A save that an uncorrectable error ends: the first lost scratchpad word that it read is counted and reported (Tables 12.1, 12.7). -/
def State.saveLost (s : State) (c : Nat) (ks : List Rank) : State :=
  match ks.find? fun k => ((s.ib k.ibex).resident c).any fun p => (s.spmRead k.ibex (p.spmBase * 262144) (s.savedBytes c p.used)).isNone with
  | some k => (((s.ib k.ibex).resident c).map fun p => s.lostSpm k.ibex [s.saveRange c p]).getD s
  | none => s

/-- Rank r of a step restored from its image (R361): the control state is the step's own, but is read. None is an uncorrectable
error (R362). -/
def State.restoreRank (s : State) (c r used : Nat) (k : Rank) : Option State :=
  let a := s.ctx c 0x1B + r * s.imageSize c
  match (s.ib k.ibex).resident c with
  | none => some s
  | some p =>
    (s.memRead a (4096 + s.savedBytes c used)).bind fun im =>
      let sp := im.drop 4096
      (s.memRead (a + 4096 + p.spmSize * 262144) (p.accSize * 65536)).map fun ac =>
        ((s.spmWrite k.ibex (p.spmBase * 262144) sp).putAccImage k.ibex p (words32 (p.accSize * 64 * 256) ac)).modIb k.ibex fun i => { i with
          slots := i.slots.map fun e => (e.1, e.2.map fun x => if x.ctx = c then { x with used := used } else x) }

/-- Highest scratchpad units written, by rank, when a step is suspended. -/
def State.usedOf (s : State) (st : Step) : List Nat :=
  st.ranks.map fun r => (((s.ib r.ibex).resident st.ctx).map (·.used)).getD 0

/-- SAVE_DONE (R361): every rank's image is written and its partitions are released; the step waits to be placed again, or
for its hitch. -/
def execSaveDone (q : QueueId) (ok : Bool) (s : State) : Host.Outcome State Fault Refusal :=
  match (s.queue q.val).held with
  | none => go s
  | some st =>
    if st.state != .suspending then go s
    else
      match (if ok then (st.ranks.zipIdx).foldl (fun (o : Option State) x =>
          o.bind fun s => s.saveRank st.ctx x.2 x.1) (some s) else none) with
      | none => go ((if ok then s.saveLost st.ctx st.ranks else s).faultCtx st.ctx q.val Code.SCH_SAVE_UE)
      | some s' =>
        let used := s.usedOf st
        let s := (s'.leaveIbexes st (match st.ranks with | [r] => some r.ibex | _ => none)).addWait st.ctx
        let s := (s.countEntry 0x3400 0x12 1).countCtx st.ctx 0x27 1
        let ranks := (st.ranks.zip used).map fun r => { r.1 with stopped := false, cycles := 0, saved := r.2 }
        go (s.setStep q.val (some { st with state := .suspended, ranks := ranks, stop := false, forQueue := none })).schedule

/-- RESTORE_DONE (R361): the saved bytes are back in the partitions and the step runs on; the cycles of the save that made room and of
the restore are the context's (R352), and are time (log entry 14). -/
def execRestoreDone (q : QueueId) (ok : Bool) (s : State) : Host.Outcome State Fault Refusal :=
  match (s.queue q.val).held with
  | none => go s
  | some st =>
    if st.state != .restoring then go s
    else
      match (if ok then (st.ranks.zipIdx).foldl (fun (o : Option State) x =>
          o.bind fun s => s.restoreRank st.ctx x.2 x.1.saved x.1) (some s) else none) with
      | none => go (s.faultCtx st.ctx q.val Code.SCH_SAVE_UE)
      | some s =>
        let (w, s) := s.freshWord
        go (s.setStep q.val (some { st with
          state := .running, ranks := st.ranks.map fun r => { r with cycles := r.cycles + w.toNat } }))

end Sys2Proof.Machine
end

