-- ==== Sys2Proof/Machine/Gazelle.lean ====
section
/-! DEFINITION. Gazelle (spec 08): feeding, opening, parsing, reconstruction, marks and delivery, errors and concealment, reset
and close. The parse of an access unit arrives as an operand; reconstruction is an opaque function of Config (log entry 8). -/

namespace Sys2Proof.Machine

/-! ### Settings and buffers (R272 to R276) -/

/-- GZ_IN_TAILn. -/
def gzTail (n : Nat) : Nat := gzBase + 0x1000 + 16 * n
/-- GZ_IN_HEADn. -/
def gzHead (n : Nat) : Nat := gzBase + 0x1008 + 16 * n

/-- Bytes of a sample (R273). -/
def sampleBytes (depth : Nat) : Nat := if depth = 8 then 1 else 2
/-- Pitch P of a width (R273). -/
def pitchOf (w depth : Nat) : Nat := ceilDiv (w * sampleBytes depth) 256 * 256
/-- Ha of a height (R273). -/
def planeRows (h : Nat) : Nat := ceilDiv h 64 * 64

/-- FB_BYTES of stream n (R273). -/
def State.fbBytes (s : State) (n : Nat) : Nat :=
  let w := s.str n 0x04
  let ha := planeRows (s.str n 0x05)
  pitchOf w (s.str n 0x06) * ha * 3 / 2 + ceilDiv w 16 * (ha / 16) * (if s.str n 0x03 = 3 then 64 else 16)

/-- Load of stream n (R274). -/
def State.strLoad (s : State) (n : Nat) : Nat := s.str n 0x04 * s.str n 0x05 * s.str n 0x08 * (if s.str n 0x06 = 8 then 3 else 4)

/-- NRES (R275). -/
def State.nres (s : State) (n : Nat) : Nat := s.str n 0x07 + 1 + s.str n 0x09 + s.str n 0x0A

/-- Checks 1 to 7 of OPEN (R276). -/
def State.openCode (s : State) (n : Nat) : Option W16 :=
  let f := fun (sub : Nat) => s.str n sub
  let out := fun (v lo hi : Nat) => decide (v < lo) || decide (hi < v)
  let load := (((List.range 64).filter fun m => s.strOpen m).map s.strLoad).sum + s.strLoad n
  let pow2 := (List.range 9).any fun i => f 0x0E == 2 ^ (i + 4)
  firstCode [
    if s.strState n ≠ 0 then some Code.VID_STATE else none,
    if out (f 0x03) 1 3 then some Code.VID_CODEC else none,
    if out (f 0x04) 64 8192 || out (f 0x05) 64 4352 || (f 0x06 != 8 && f 0x06 != 10) || out (f 0x07) 1 16 || out (f 0x08) 1 240 ||
        out (f 0x09) 1 8 || out (f 0x0A) 1 4 || (f 0x03 == 1 && f 0x06 == 10) || (f 0x03 == 3 && f 0x07 != 8) ||
        decide (67108864 < s.fbBytes n) then some Code.VID_CEILING else none,
    if f 0x0D % 32 ≠ 0 || !pow2 || f 0x0F % 8 ≠ 0 then some Code.VID_RING else none,
    if out (f 0x10) 4 6 || out (f 0x11) 5 7 then some Code.VID_BUFSIZE else none,
    if !s.enabled (f 0x0C) then some Code.VID_OWNER else none,
    if 24000000000 < load then some Code.VID_BUDGET else none]

/-- The reservations of an open and the three buffers that it takes, or none when the Coil cannot make them all (R275): the
state, the bitstream buffer, the syntax buffer and the track table. -/
def State.openReserve (s : State) (n : Nat) : Option (State × (Nat × Nat) × (Nat × Nat) × (Nat × Nat)) :=
  let fb := firstPool (s.fbBytes n)
  let want := fun (p : Nat) => (if p = fb then s.nres n else 0) + (if p = s.str n 0x10 then 1 else 0) + (if p = s.str n 0x11 then 1 else 0) +
    (if p = 2 then 1 else 0)
  let s' := (List.range 8).foldl (fun (s : State) p => s.setResv n p (want p)) s
  if (List.range 8).any fun p => decide (0 < want p) && (decide (s.poolBuffers p < want p) || decide (s'.poolFree p < s'.resvUnused p)) then none
  else
    (s'.coilGrantNow n (poolSize (s.str n 0x10))).bind fun b => (b.1.coilGrantNow n (poolSize (s.str n 0x11))).bind fun y =>
      (y.1.coilGrantNow n (poolSize 2)).map fun t => (t.1, b.2, y.2, t.2)

/-- The track table of an opened or reset stream: every slot free, NEXT_ID 1 (R244). -/
def State.clearTracks (s : State) (n : Nat) : State :=
  match s.trackAddr n with
  | some a => s.memPut a (tableBytes 1 (List.replicate 256 Trk.free))
  | none => s

/-- Entries of a stream set to 0. -/
def State.zeroSubs (s : State) (n lo k : Nat) : State := (List.range k).foldl (fun s i => s.setEntry (0x2000 + n) (lo + i) 0) s

/-- STATE of stream n written. -/
def State.setStrState (s : State) (n v : Nat) : State := s.setEntry (0x2000 + n) 0x02 v

/-- Where an opened or reset stream goes: WAIT_RAP, or DECODING when START_MODE is 1 (R276, R295). -/
def State.startState (s : State) (n : Nat) : Nat := if s.str n 0x0B = 1 then 2 else 1

/-- An open that passed its checks (R276, R346): rings at 0, credit 4, counters 0, the track table, and period 0 of a counted
stream. Closing records in the hold, of HOST slots of a closed stream, stay there (R254). -/
def State.opened (s : State) (n : Nat) (b y t : Nat × Nat) : State :=
  let old := s.stream n
  let s := s.setStream n {
    frames := old.frames, hold := old.hold, pend := old.pend, track := some t, bitBuf := some b, synBuf := some y, fbPool := firstPool (s.fbBytes n), credit := 4,
    mode := s.str n 0x48, ptsPeriod := s.str n 0x4A, periodLen := s.str n 0x49, periodMax := s.str n 0x4B }
  let s := ((s.zeroSubs n 0x18 5).zeroSubs n 0x20 14).clearTracks n
  let s := (((s.setReg (gzTail n) 0).setReg (gzHead n) 0).setReg (crReg n 0x10) 0).setReg (crReg n 0x18) 0
  let s := s.setStrState n (s.startState n)
  if (s.stream n).mode = 0 then s.streamPeriod n none else s

/-- OPEN (R276). -/
def State.streamOpen (s : State) (n : Nat) : Except W16 State :=
  match s.openCode n with
  | some c => .error c
  | none => match s.openReserve n with
    | none => .error Code.VID_RESERVE
    | some (s, b, y, t) => .ok (s.opened n b y t)

/-- STREAM_OPEN (R276). -/
def execStreamOpen (o : Origin) (n : StreamId) (s : State) : Host.Outcome State Fault Refusal :=
  s.dictCmd o (0x2000 + n.val) 0x01 [1] fun s => s.streamOpen n.val

/-! ### Reset and close (R295, R296, R298) -/

/-- Slots of stream n that wait for a picture become void with VID_RESET, and so do those that open later in a period that has no
picture yet (R295). -/
def State.voidWaiting (s : State) (n : Nat) : State :=
  let s := s.modStream n fun x => { x with voided := x.opened && !x.took }
  s.openSteps.foldl (fun s x => (x.2.slots.zipIdx).foldl (fun s y =>
    if y.1.stream = n ∧ y.1.host = false ∧ y.1.state = .waiting ∧ x.2.state = .filling then s.voidSlot x.1 y.2 Code.VID_RESET else s) s) s

/-- Buffers of stream n in use: pool and number. -/
def Stream.inUse (x : Stream) : List (Nat × Nat) :=
  [x.track, x.bitBuf, x.synBuf].filterMap id ++ x.jobs.filterMap (·.buf) ++ x.frames.map fun f => (f.pic.pool, f.pic.buf)

/-- Granted frame buffers of stream n that no picture uses yet. -/
def State.spareBufs (s : State) (n : Nat) : List (Nat × Nat) :=
  let x := s.stream n
  [x.fbPool, x.fbPool + 1].flatMap fun p => ((s.granted p).filter fun b => b.2 == n && !x.inUse.contains (p, b.1)).map fun b => (p, b.1)

/-- The scheduler drops what no slot has taken of stream n: its frames lose their held-by-analytics marks (R19). -/
def State.dropUnread (s : State) (n : Nat) : State :=
  let taken := s.openSteps.flatMap fun q => q.2.slots.filterMap fun sl => if sl.holding then sl.pic else none
  let keep := fun (f : Frame) => taken.any fun p => p.stream == n && p.pool == f.pic.pool && p.buf == f.pic.buf
  (s.modStream n fun x => { x with frames := x.frames.map fun f => { f with held := f.held && (f.output || keep f) } }).sweepFrames n

/-- Stream n has no more use for its chunk reads: one that has not left is withdrawn, and the bytes of one that has are dropped when they
arrive (R295, R298). -/
def State.leaveReads (s : State) (n : Nat) : State :=
  let mine := fun (r : DevRead) => match r with | .chunk m => m.val == n | .desc _ => false
  let drop := fun (f : Flight) => if mine f.read then { f with live := false } else f
  { s with hp := { s.hp with
    waits := s.hp.waits.filter (fun w => !(w.out.reads.any mine)),
    flying := s.hp.flying.map drop,
    invals := s.hp.invals.map fun (i : Inval) => { i with reads := i.reads.map drop } } }

/-- What a reset abandons and forgets (R295, R254, R21). Held-by-analytics marks stay, those of pictures that no slot has taken until the
reset or close is done, when the scheduler drops them (R19): DEDUCED, log entry 65. It releases no buffer but those whose last mark clears,
and no request that waits leaves the Coil (R451, R454). How long an engine was busy with what is abandoned is time: log entry 14. -/
def State.abandonStream (s : State) (n : Nat) : State :=
  let s := (List.range 4).foldl (fun s e => match Tbl.get none s.vid.ee e with
    | some j => if j.stream = n then s.countFree (gzBase + 0x30 + 8 * e) else s
    | none => s) s
  let s := (List.range 16).foldl (fun s e => match Tbl.get none s.vid.pe e with
    | some j => if j.stream = n then s.countFree (gzBase + 0x50) else s
    | none => s) s
  let s := { s with
    vid := { s.vid with
      ee := (List.range 4).foldl (fun t e => match Tbl.get none t e with
        | some j => if j.stream = n then Tbl.set none t e none else t
        | none => t) s.vid.ee,
      pe := (List.range 16).foldl (fun t e => match Tbl.get none t e with
        | some j => if j.stream = n then Tbl.set none t e none else t
        | none => t) s.vid.pe } }
  let s := s.modStream n fun x => { x with
    seq := 0, hold := [], current := none, pending := false, tookPts := 0, tookDerived := false, credit := 4, discont := false,
    chunk := .idle, copied := 0, scan := {}, aus := [], sets := [], newSets := [], marked := [], prevPts := none, decodeCount := 0, began := none, jobs := [],
    queue := [], fresh := true, opens := [],
    frames := x.frames.map fun f => { f with short := false, long := false, output := false, reorder := false } }
  let s := (s.sweepFrames n).zeroSubs n 0x18 5
  let s := s.openSteps.foldl (fun s q => s.modStep q.1 fun st => { st with
    slots := st.slots.map fun sl => if sl.stream = n then { sl with listDone := false } else sl }) s
  ((s.setReg (gzHead n) (s.reg (gzTail n))).clearTracks n).leaveReads n

/-- Accepted states of RESET and CLOSE. -/
def State.mayReset (s : State) (n : Nat) : Bool := s.strState n == 1 || s.strState n == 2 || s.strState n == 5

/-- RESET (R295). -/
def State.streamReset (s : State) (n : Nat) : Except W16 State :=
  if !s.mayReset n then .error Code.VID_STATE else .ok (((s.voidWaiting n).abandonStream n).setStrState n 3)

/-- STREAM_RESET (R295). -/
def execStreamReset (o : Origin) (n : StreamId) (s : State) : Host.Outcome State Fault Refusal :=
  s.dictCmd o (0x2000 + n.val) 0x01 [3] fun s => s.streamReset n.val

/-- STREAM_RESET_DONE (R295): the stream decodes again. -/
def execStreamResetDone (n : StreamId) (s : State) : Host.Outcome State Fault Refusal :=
  if s.strState n.val = 3 then go ((s.dropUnread n.val).setStrState n.val (s.startState n.val)) else go s

/-- CLOSE (R296). -/
def State.streamClose (s : State) (n : Nat) : Except W16 State :=
  if !s.mayReset n then .error Code.VID_STATE else .ok (((s.voidWaiting n).abandonStream n).setStrState n 4)

/-- STREAM_CLOSE (R296). -/
def execStreamClose (o : Origin) (n : StreamId) (s : State) : Host.Outcome State Fault Refusal :=
  s.dictCmd o (0x2000 + n.val) 0x01 [2] fun s => s.streamClose n.val

/-- The release that ends a close (R296, R451): reservations, the track table and every buffer without a mark; a buffer held by
analytics passes to the orphan owner. -/
def State.closeStream (s : State) (n : Nat) : State :=
  let s := s.dropUnread n
  let kept := (s.stream n).frames.map fun f => (f.pic.pool, f.pic.buf)
  (((s.releaseOwner n kept).modStream n fun x => { x with track := none, bitBuf := none, synBuf := none, opened := false })).setStrState n 0

/-- STREAM_CLOSE_DONE (R296). -/
def execStreamCloseDone (n : StreamId) (s : State) : Host.Outcome State Fault Refusal :=
  if s.strState n.val = 4 then go (s.closeStream n.val) else go s

/-- A close without any record (R298); what is held for the HOST slots of a closed stream goes too. -/
def State.streamQuiet (s : State) (n : Nat) : State :=
  let s := if s.strOpen n then (s.abandonStream n).closeStream n else s
  if (s.stream n).hold.isEmpty && (s.stream n).pend == 0 then s else s.modStream n fun x => { x with hold := [], pend := 0 }

/-! ### Feeding (R265 to R271) -/

/-- GZ_IN_TAIL_WRITE (R266): ownership first (R493), then the range of the index. -/
def State.inTail (s : State) (k n : Nat) (v : W32) : State :=
  if s.strFn n ≠ k then (s.rejectV Code.HP_NOT_OWNER k 1 n v.toNat).famErr Code.HP_NOT_OWNER k
  else
    let head := BitVec.ofNat 32 (s.reg (gzHead n)).toNat
    let old := BitVec.ofNat 32 (s.reg (gzTail n)).toNat
    if s.str n 0x0E < (v - head).toNat ∨ s.str n 0x0E < (v - old).toNat then (s.rejectV Code.VID_TAIL k 1 n v.toNat).strCode n Code.VID_TAIL
    else s.setReg (gzTail n) (BitVec.ofNat 64 v.toNat)

/-- GZ_IN_TAIL_WRITE (R266). -/
def execGzInTailWrite (fn : Fn) (n : StreamId) (v : W32) (s : State) : Host.Outcome State Fault Refusal :=
  s.hostAct fn.val 4 fun s => s.inTail fn.val n.val v

/-- A write of GZ_CFG (R302). -/
def State.gzCfg (s : State) (v : Nat) : State :=
  if v % 65536 = 0 || v / 65536 % 65536 = 0 then s.rejectV Code.VID_CFG_RANGE 0 0 0 v else s.setReg gzBase (BitVec.ofNat 64 (v % 2 ^ 32))

/-- GZ_CFG_WRITE (R302). -/
def execGzCfgWrite (fn : Fn) (v : W32) (s : State) : Host.Outcome State Fault Refusal :=
  s.hostAct fn.val 4 fun s => if fn.val = 0 then s.gzCfg v.toNat else s

/-- A stream that decodes: WAIT_RAP or DECODING. -/
def State.decodes (s : State) (n : Nat) : Bool := s.strState n == 1 || s.strState n == 2

/-- Bytes of the bitstream buffer of stream n. -/
def State.bitSize (s : State) (n : Nat) : Nat := poolSize (((s.stream n).bitBuf.map (·.1)).getD 0)

/-- A chunk has no room: it would overfill the buffer while a complete access unit is still in it (R267). -/
def State.noRoom (s : State) (n len : Nat) : Bool :=
  let x := s.stream n
  let used := (x.aus.map fun u => min u.bytes (s.bitSize n)).sum
  decide (s.bitSize n < used + len) && x.aus.any (·.complete)

/-- Gazelle may fetch for stream n (R267, R297, R299, R512). -/
def State.mayFetchChunk (s : State) (n : Nat) : Bool :=
  s.decodes n && s.canIssue (s.strFn n) && s.vid.power == 0 && decide (s.power < 2)

/-- The bytes of a record's chunk are asked for at its ADDR once the buffer has room; until then the record waits (R265, R267). -/
def State.askBytes (s : State) (n : StreamId) (r : List Byte) : State :=
  let k := s.strFn n.val
  if !s.mayFetchChunk n.val || s.noRoom n.val (recField r 8 4) then s.modStream n.val fun x => { x with chunk := .held r }
  else (s.issue (.read k false (BitVec.ofNat 64 (recField r 0 8)) (recField r 8 4) (.chunk n)) .no).modStream n.val fun x => { x with chunk := .body r }

/-- CHUNK_FETCH (R267): the read of the record at the consumer index, or of the bytes of a record that waited for room. -/
def execChunkFetch (n : StreamId) (s : State) : Host.Outcome State Fault Refusal :=
  let k := s.strFn n.val
  let head := (s.reg (gzHead n.val)).toNat
  match (s.stream n.val).chunk with
  | .idle =>
    if !s.mayFetchChunk n.val || s.reg (gzHead n.val) = s.reg (gzTail n.val) then go s
    else
      let addr := BitVec.ofNat 64 (s.str n.val 0x0D + 32 * (head % s.str n.val 0x0E))
      go ((s.issue (.read k false addr 32 (.chunk n)) .no).modStream n.val fun x => { x with chunk := .record })
  | .held r => go (s.askBytes n r)
  | _ => go s

/-- Write-back of the consumer index, held while the function may not issue (R267, R512). -/
def State.headWb (s : State) (n : Nat) : State :=
  let k := s.strFn n
  let a := s.str n 0x0F
  if a = 0 then s
  else if s.canIssue k then s.hostWrite k (BitVec.ofNat 64 a) (bytesLE 8 (s.reg (gzHead n)).toNat) (.ring n)
  else s.modFn k fun f => { f with dueIn := if f.dueIn.contains n then f.dueIn else f.dueIn ++ [n] }

/-- The consumer index passes a record (R267, R269). -/
def State.passChunk (s : State) (n : Nat) : State :=
  ((s.setReg (gzHead n) (BitVec.ofNat 64 (((s.reg (gzHead n)).toNat + 1) % 2 ^ 32))).modStream n fun x => { x with chunk := .idle }).headWb n

/-- A chunk rejected or discarded (R269). -/
def State.badChunk (s : State) (n : Nat) (code : W16) : State :=
  ((((s.passChunk n).strCode n code).countEntry (0x2000 + n) 0x2A 1)).modStream n fun x => { x with discont := true }

/-- A record breaks Table 8.2. -/
def chunkBad (r : List Byte) : Bool :=
  let len := recField r 0x08 4
  let flags := recField r 0x0C 2
  len == 0 || decide (16777216 < len) || flags / 16 != 0 || recField r 0x0E 2 != 0 || recField r 0x18 8 != 0 ||
    (!bitOf flags 0 && recField r 0x10 8 != 0)

/-- The access unit in progress is complete, with a code (R268). -/
def State.auComplete (s : State) (n : Nat) (code : W16) : State :=
  let x := s.stream n
  match x.aus.getLast? with
  | none => s
  | some u =>
    if u.complete then s
    else
      let s := s.modStream n fun x => { x with aus := x.aus.dropLast ++ [{ u with complete := true, code := code, arrival := s.vid.serial }] }
      ({ s with vid := { s.vid with serial := s.vid.serial + 1 } }).countEntry (0x2000 + n) 0x20 1

/-- Bytes added to the access unit in progress, or to a new one (R268, R271, VID_AU_OVF), each with the PTS of its chunk. -/
def State.auAdd (s : State) (n : Nat) (bs : List (Byte × Option W64)) : State :=
  if bs.isEmpty then s
  else
    let size := s.bitSize n
    let k := bs.length
    let pts := bs.findSome? fun b => b.2
    s.modStream n fun x =>
      let fresh := { x with aus := x.aus ++ [{ bytes := k, coded := bs.map (·.1), pts := pts, complete := false, code := 0,
                                               big := decide (size < k), arrival := 0, eos := false }] }
      match x.aus.getLast? with
      | some u =>
        if u.complete then fresh
        else
          let u : AU := { u with bytes := u.bytes + k, coded := u.coded ++ bs.map (·.1), pts := (match u.pts with | some p => some p | none => pts), big := decide (size < u.bytes + k) }
          { x with aus := x.aus.dropLast ++ [u] }
      | none => fresh

/-! ### Output order and delivery (R284 to R287) -/

/-- The oldest picture of a full delivery queue is discarded (R286). -/
def State.skipOldest (s : State) (n : Nat) : State :=
  let x := s.stream n
  match x.queue with
  | [] => s
  | i :: rest =>
    if x.queue.length < s.str n 0x09 then s
    else
      let s := s.modStream n fun x => { x with queue := rest, frames := x.frames.map fun f =>
        if f.pic.decodeIdx = i ∧ f.output then { f with output := false, held := false } else f }
      (s.countEntry (0x2000 + n) 0x29 1).sweepFrames n

/-- A picture enters the delivery queue (R286, R346). -/
def State.deliver (s : State) (n : Nat) (p : PicRec) : State :=
  let s := s.skipOldest n
  let s := s.modStream n fun x => { x with
    queue := x.queue ++ [p.decodeIdx], frames := x.frames.map fun f => if f.pic.decodeIdx = p.decodeIdx ∧ f.output then { f with reorder := false } else f }
  s.pictureCalls n p.pts

/-- The frame of the reorder stage that is first in output order. -/
def Stream.firstOut (x : Stream) : Option Frame :=
  match x.frames.filter fun f => f.reorder && f.output with
  | [] => none
  | f :: fs => some (fs.foldl (fun a b => if b.order < a.order then b else a) f)

/-- Frames of the reorder stage. -/
def Stream.reordering (x : Stream) : List Frame := x.frames.filter fun f => f.reorder && f.output

/-- The bumping process with a reorder and a latency limit; every picture when `all` (R270, R286). -/
def State.bump (s : State) (n reorder latency : Nat) (all : Bool) : Nat → State
  | 0 => s
  | fuel + 1 =>
    let x := s.stream n
    let r := x.reordering
    if all || decide (reorder < r.length) || (latency != 0 && r.any fun f => decide (latency ≤ f.later)) then
      match x.firstOut with
      | none => s
      | some f => (s.deliver n f.pic).bump n reorder latency all fuel
    else s

/-- Every output-pending picture of the reorder stage is output in order. -/
def State.flushOut (s : State) (n : Nat) : State := s.bump n 0 0 true ((s.stream n).reordering.length + 1)

/-- The frames after a show_existing_frame: of a key frame it refreshes every reference slot, so that no other frame keeps a reference
mark (R284; the refresh is the AV1 standard's). -/
def refreshed (name : Nat) (fs : List Frame) : List Frame :=
  if fs.any fun f => f.name == name && f.key then fs.map fun f => { f with short := f.name == name, long := false } else fs

/-- The frame that a name stands for. -/
def Stream.named (x : Stream) (name : Nat) : Option Frame :=
  x.frames.find? fun f => f.name == name && (f.short || f.long || f.output || f.held)

/-- An AV1 show_existing_frame (R286), with the PTS of its temporal unit (R271), and the marks that it leaves (R284). -/
def State.showExisting (s : State) (n name : Nat) (pts : W64) (derived : Bool) : State :=
  match (s.stream n).named name with
  | none => s
  | some f =>
    let s := if f.key then (s.modStream n fun x => { x with frames := refreshed name x.frames }).sweepFrames n else s
    if f.held then s.countEntry (0x2000 + n) 0x29 1
    else
      let pic := { f.pic with pts := pts, ptsDerived := derived }
      let s := s.modStream n fun x => { x with frames := x.frames.map fun g =>
        if g.pic.decodeIdx = f.pic.decodeIdx ∧ g.name = name then { g with output := true, held := true, pic := pic } else g }
      s.deliver n pic

/-- EOS takes effect after every picture before it (R270). -/
def State.endOfStream (s : State) (n : Nat) : State :=
  let s := if s.strState n = 2 then s.setStrState n 1 else s
  match (s.stream n).jobs.getLast? with
  | none => s.flushOut n
  | some j => s.modStream n fun x => { x with jobs := x.jobs.dropLast ++ [{ j with eos := true }] }

/-- EOS of a chunk: it follows the last access unit in the buffer, or the one in its parse (R270). -/
def State.eosChunk (s : State) (n : Nat) : State :=
  match (s.stream n).aus.getLast? with
  | some u => s.modStream n fun x => { x with aus := x.aus.dropLast ++ [{ u with eos := true }] }
  | none =>
    match (List.range 4).find? fun e => match Tbl.get none s.vid.ee e with | some j => j.stream == n | none => false with
    | some e => { s with vid := { s.vid with ee := Tbl.modify none s.vid.ee e fun j => j.map fun j => { j with eos := true } } }
    | none => s.endOfStream n

/-- The bytes of a chunk are copied into the bitstream buffer, a ring from its first byte (R267; where in the buffer a byte lies is the
model's: DESIGN CHOICE, log entry 66). -/
def State.copyChunk (s : State) (n : Nat) (bs : List Byte) : State :=
  match (s.stream n).bitBuf with
  | none => s
  | some b =>
    let size := s.bitSize n
    let at' := ((s.stream n).copied + (bs.length - size)) % size
    let all := bs.length
    let bs := bs.drop (bs.length - size)
    let s := (s.memPut (s.bufAddr b.1 b.2 + at') (bs.take (size - at'))).memPut (s.bufAddr b.1 b.2) (bs.drop (size - at'))
    s.modStream n fun x => { x with copied := x.copied + all }

/-- The access unit in progress ends with the bytes so far, also those too few to say what begins with them (R268). -/
def State.auEnd (s : State) (n : Nat) (code : W16) : State :=
  let s := s.auAdd n (s.stream n).scan.tail
  (s.modStream n fun x => { x with scan := {} }).auComplete n code

/-- Bytes of a chunk go to their access units (R268, Table 8.3). -/
def State.auSplit (s : State) (n : Nat) (bs : List (Byte × Option W64)) : State :=
  let x := s.stream n
  let all := x.scan.tail ++ bs
  let (cuts, vcl, skip, done) := scanUnits (s.str n 0x03) 0 x.scan.vcl x.scan.skip [] (all.map (·.1))
  let s := s.auAdd n (all.take ((cuts ++ [done]).headD 0))
  let s := (cuts.zip (cuts.drop 1 ++ [done])).foldl (fun (s : State) c => (s.auComplete n 0).auAdd n ((all.drop c.1).take (c.2 - c.1))) s
  s.modStream n fun x => { x with scan := { vcl := vcl, skip := skip, tail := all.drop done } }

/-- The bytes of a chunk and its flags take effect (R267 to R271). After DISCONT, bytes before its first start code or OBU
header belong to no access unit (R270); a chunk without one leaves the search on (DESIGN CHOICE, log entry 70). -/
def State.feed (s : State) (n : Nat) (r bs : List Byte) : State :=
  let flags := recField r 0x0C 2
  let pts := if bitOf flags 0 then some (BitVec.ofNat 64 (recField r 0x10 8)) else none
  let resync := bitOf flags 2 || (s.stream n).discont
  let s := if resync then s.auEnd n 0 else s
  let first := if resync then firstUnit (s.str n 0x03) 0 bs else some 0
  let s := (s.modStream n fun x => { x with discont := first.isNone }).countEntry (0x2000 + n) 0x21 bs.length
  let s := match first with
    | some k => s.auSplit n ((bs.drop k).map fun b => (b, pts))
    | none => s
  let s := if bitOf flags 1 || bitOf flags 3 then s.auEnd n 0 else s
  if bitOf flags 3 then s.eosChunk n else s

/-- CHUNK_ARRIVAL (R265, R267, R269): the record asked for arrives, and its bytes are asked for; or the bytes asked for arrive, and go into
the bitstream buffer. What a stream no longer waits for is dropped (R295, R298). -/
def execChunkArrival (n : StreamId) (got : Fetched) (s : State) : Host.Outcome State Fault Refusal :=
  match s.flight (.chunk n) with
  | none => go s
  | some f =>
  let s := (s.land (.chunk n)).received got.size
  if !f.live then go s
  else
  match (s.stream n.val).chunk, got with
  | .record, .failed | .body _, .failed => go (s.badChunk n.val Code.VID_CHUNK_FETCH)
  | .record, .bytes r => go (if chunkBad r then s.badChunk n.val Code.VID_CHUNK else s.askBytes n r)
  | .body r, .bytes bs =>
    let bs := bs.take (recField r 8 4)
    go (((s.copyChunk n.val bs).feed n.val r bs).passChunk n.val)
  | _, _ => go s

/-- Bytes of an access unit have come that is not complete. -/
def Stream.inProgress (x : Stream) : Bool :=
  !x.scan.tail.isEmpty || match x.aus.getLast? with | some u => !u.complete | none => false

/-- AU_TIMEOUT (R268): the access unit in progress is complete with VID_TIMEOUT. -/
def execAuTimeout (n : StreamId) (s : State) : Host.Outcome State Fault Refusal :=
  if !(s.stream n.val).inProgress || !s.decodes n.val then go s else go ((s.auEnd n.val Code.VID_TIMEOUT).strCode n.val Code.VID_TIMEOUT)

/-! ### Parameter sets and drops (R291, R293) -/

/-- A profile, bit depth or feature outside Table 8.1, or refused by R261. The profile numbers are the codecs' own: H.264 66, 77 and 100,
H.265 1 to 3, AV1 0 (log entry 8). -/
def profileBad (codec : Nat) (p : ParamSet) : Bool :=
  let prof := p.profile.toNat
  p.sizes && (
    if codec = 1 then !([66, 77, 100] : List Nat).contains prof || !p.framesOnly || p.chroma != 1 || p.depth != 8
    else if codec = 2 then !(1 ≤ prof && prof ≤ 3) || p.extension || p.chroma != 1 || !(p.depth == 8 || (p.depth == 10 && prof == 2))
    else prof != 0 || p.largeScale || 1 < p.chroma || !(p.depth == 8 || p.depth == 10)) ||
  codec == 1 && decide (1 < p.groups)

/-- A level above Table 8.1, numbered as the codec numbers it (5.2, 6.1, seq_level_idx 17), or its limits broken. -/
def levelBad (codec : Nat) (p : ParamSet) : Bool :=
  p.sizes && (decide ((if codec = 1 then 52 else if codec = 2 then 183 else 17) < p.level.toNat) || !p.limitsOk)

/-- The first failing check of a parameter set (R291). -/
def State.setCode (s : State) (n : Nat) (p : ParamSet) : Option W16 :=
  firstCode [
    if !p.parses then some Code.VID_PS_SYNTAX else none,
    if profileBad (s.str n 0x03) p then some Code.VID_PS_PROFILE else none,
    if levelBad (s.str n 0x03) p then some Code.VID_PS_LEVEL else none,
    if p.sizes && (s.str n 0x04 < p.width || s.str n 0x05 < p.height || s.str n 0x06 < p.depth || s.str n 0x07 < p.refs) then
      some Code.VID_PS_CEILING else none]

/-- The stream waits for a random-access point again, with START_MODE 0 (R291). -/
def State.nextRap (s : State) (n : Nat) : State := if s.str n 0x0B = 0 && s.strState n == 2 then s.setStrState n 1 else s

/-- A set of a list replaced by identifier. -/
def putSet (p : ParamSet) (l : List ParamSet) : List ParamSet := l.filter (fun q => q.ident != p.ident) ++ [p]

/-- A parameter set arrives (R293): rejected with its mark, in force, or waiting for a random-access point. Content that is in force
already takes the place of content that waits. -/
def State.takeSet (s : State) (n : Nat) (p : ParamSet) : State :=
  let x := s.stream n
  match s.setCode n p with
  | some c =>
    (((s.modStream n fun x => { x with marked := x.marked.filter (fun m => m.1 != p.ident) ++ [(p.ident, c)] }).countEntry
      (0x2000 + n) 0x28 1).strCode n c).nextRap n
  | none =>
    let wait := x.marked.any (fun m => m.1 == p.ident) || x.sets.any fun q => q.ident == p.ident && q != p
    s.modStream n fun x => { x with
      marked := x.marked.filter fun m => m.1 != p.ident
      sets := if wait then x.sets else putSet p x.sets
      newSets := if wait then putSet p x.newSets else x.newSets.filter fun q => q.ident != p.ident }

/-- The set of an identifier and the sets that it refers to, by identifier (R293): a picture's set, its sequence set, and that set's. -/
def Stream.reach (x : Stream) (i : Nat) : List Nat :=
  let needs := fun (i : Nat) => ((x.sets.find? fun q => q.ident == i).map (·.needs)).getD []
  let a := needs i
  i :: a ++ a.flatMap needs

/-- The set that gives a picture its size, among those that it names (R293). -/
def Stream.active (x : Stream) (i : Nat) : Option ParamSet :=
  (x.reach i).findSome? fun k => x.sets.find? fun q => q.ident == k && q.sizes

/-- A picture is dropped with a code; `lost` says that the stream waits for a random-access point after it (R291, R292). -/
def State.dropPic (s : State) (n : Nat) (code : W16) (lost : Bool) : State :=
  let s := (s.countEntry (0x2000 + n) 0x24 1).strCode n code
  if lost then s.nextRap n else s

/-- Why a picture is dropped after its headers, in the order of R291. -/
def State.judge (s : State) (n : Nat) (p : PicSyntax) : Option W16 :=
  let x := s.stream n
  let ids := x.reach p.ps
  if s.strState n = 1 && !p.rap then some Code.VID_NO_RAP
  else match x.marked.find? fun m => ids.contains m.1 with
    | some m => some m.2
    | none =>
      if (ids.any fun i => !x.sets.any fun q => q.ident == i) || (x.active p.ps).isNone then some Code.VID_NO_PS
      else match p.rasl with
        | some cra => if x.began == some cra then some Code.VID_NO_RAP else none
        | none => none

/-! ### Entropy engines (R277 to R279) -/

/-- The job of entropy engine e. -/
def State.eeAt (s : State) (e : Nat) : Option EeJob := Tbl.get none s.vid.ee e
/-- The state with the job of entropy engine e written. -/
def State.setEe (s : State) (e : Nat) (j : Option EeJob) : State := { s with vid := { s.vid with ee := Tbl.set none s.vid.ee e j } }

/-- 16 × 16 blocks of a coded size. -/
def blocksOf (w h : Nat) : Nat := ceilDiv w 16 * ceilDiv h 16

/-- Bytes of a picture's syntax, within the bound of R279. -/
def synSize (p : PicSyntax) (q : ParamSet) : Nat := min p.synBytes (896 * blocksOf q.width q.height + 4096)

/-- Bytes of the syntax ring of stream n that its pictures hold, and its size. -/
def State.synUsed (s : State) (n : Nat) : Nat := ((s.stream n).jobs.map fun j => synSize j.syn j.ps).sum
/-- Size of the syntax ring of stream n. -/
def State.synCap (s : State) (n : Nat) : Nat := poolSize (((s.stream n).synBuf.map (·.1)).getD 0)

/-- A random-access point brings the waiting parameter sets into force (R293). -/
def State.promoteSets (s : State) (n : Nat) : State :=
  s.modStream n fun x => { x with sets := x.newSets.foldl (fun l p => putSet p l) x.sets, newSets := [] }

/-- The PTS of an access unit's pictures, and whether it was derived (R271). -/
def State.unitPts (s : State) (n : Nat) (j : EeJob) : W64 × Bool :=
  match j.pts with
  | some t => (t, j.derived)
  | none => (match (s.stream n).prevPts with | some t => t + BitVec.ofNat 64 (s.str n 0x13) | none => 0, true)

/-- The parse of a picture that will be decoded starts: credit, PTS, the active set, and the place of decoding's beginning (R271,
R277, R291). After VID_SYNTAX_OVF decoding resumes at the next access unit: the other pictures of this one are dropped with it (DEDUCED,
log entry 71). -/
def State.startPic (s : State) (e n : Nat) (j : EeJob) (p : PicSyntax) (rest : List PicSyntax) (q : ParamSet) : State :=
  let x := s.stream n
  let begins := p.rap && (s.strState n == 1 || x.prevPts.isNone)
  let (pts, derived) := s.unitPts n j
  let s := s.modStream n fun x => { x with
    credit := x.credit - 1, prevPts := some pts,
    began := if begins then some p.name else if p.rap && x.began == some p.name then none else x.began }
  let s := if p.rap then s.setStrState n 2 else s
  let s := ((((s.setEntry (0x2000 + n) 0x18 q.outWidth).setEntry (0x2000 + n) 0x19 q.outHeight).setEntry (0x2000 + n) 0x1A q.depth).setEntry
    (0x2000 + n) 0x1B q.profile.toNat).setEntry (0x2000 + n) 0x1C q.level.toNat
  let s := if p.grain then s.countEntry (0x2000 + n) 0x2C 1 else s
  let full := decide (s.synCap n < s.synUsed n + synSize p q)
  if s.synCap n < synSize p q then
    (((s.countFree (gzBase + 0x30 + 8 * e)).countEntry (0x2000 + n) 0x24 rest.length).dropPic n Code.VID_SYNTAX_OVF
      ((p :: rest).any fun p => p.refMark != 0)).setEe e (some { j with rest := [], pts := some pts, derived := derived })
  else
    let sets := (x.reach p.ps).filterMap fun i => (x.sets.find? fun r => r.ident == i).map (·.coded)
    let job : PicJob := { syn := p, ps := q, au := j.au, coded := j.coded, sets := sets, pts := pts, derived := derived, status := j.code, buf := none,
                          serial := none, started := false, source := none, refBufs := [], taint := false, next := 0, done := [], nextEdge := 0, doneEdges := [], bad := [], subst := [],
                          shows := [], eos := false }
    (s.modStream n fun x => { x with jobs := x.jobs ++ [job] }).setEe e
      (some { j with rest := rest, pts := some pts, derived := derived, parsing := true, stalled := full })

/-- An access unit is parsed: its show_existing_frame and EOS, and the engine is free. -/
def State.eeFinish (s : State) (e n : Nat) (j : EeJob) : State :=
  let s := s.setEe e none
  let (pts, derived) := s.unitPts n j
  let s := match j.shows, (s.stream n).jobs.getLast? with
    | some f, none => s.showExisting n f pts derived
    | some f, some l => s.modStream n fun x => { x with jobs := x.jobs.dropLast ++ [{ l with shows := l.shows ++ [(f, pts, derived)] }] }
    | none, _ => s
  if j.eos then s.endOfStream n else s

/-- The engine goes on to the next picture of its access unit: drops take no credit, a picture to decode takes one or waits for it
(R277, R278). In a stream that has stopped it starts none, and keeps the access unit (R297). -/
def State.eeNext (s : State) (e : Nat) : Nat → State
  | 0 => s
  | fuel + 1 =>
    match s.eeAt e with
    | none => s
    | some j =>
      if j.parsing then s
      else
        let n := j.stream
        match j.rest with
        | [] => s.eeFinish e n j
        | p :: rest => if !s.decodes n then s else
          let s := if p.rap then s.promoteSets n else s
          match s.judge n p with
          | some c => ((s.dropPic n c (c != Code.VID_NO_RAP)).setEe e (some { j with rest := rest })).eeNext e fuel
          | none =>
            match (s.stream n).active p.ps with
            | none => s
            | some q => if (s.stream n).credit = 0 then s else (s.startPic e n j p rest q).eeNext e fuel

/-- Runs an engine as far as its access unit allows. -/
def State.eeRun (s : State) (e : Nat) : State :=
  match s.eeAt e with
  | none => s
  | some j => s.eeNext e (j.rest.length + 2)

/-- A stream that an engine may choose (R278): its state, a complete access unit, and no engine that parses it. -/
def State.parsable (s : State) (n : Nat) : Bool :=
  s.decodes n && (match (s.stream n).aus with | u :: _ => u.complete | [] => false) &&
    (List.range 4).all fun e => match s.eeAt e with | some j => j.stream != n | none => true

/-- Arrival of the head access unit of stream n. -/
def State.headArrival (s : State) (n : Nat) : Nat := match (s.stream n).aus with | u :: _ => u.arrival | [] => 0

/-- The choice of R278 among streams that can start. -/
def State.bestStream (s : State) (ok : Nat → Bool) : Option Nat :=
  (List.range 64).foldl (fun (b : Option Nat) n =>
    if s.parsable n && ok n then
      match b with
      | some m => if s.headArrival n < s.headArrival m then some n else b
      | none => some n
    else b) none

/-- What an access unit holds for Gazelle (R262): NAL units of other layers and operating points and redundant H.264 slices are
discarded uncounted. -/
def baseUnit (codec : Nat) (u : AuSyntax) : AuSyntax :=
  { u with
    sets := u.sets.filter fun p => codec == 1 || p.layer == 0
    pics := (u.pics.filter fun p => codec == 1 || p.layer == 0).map fun p =>
      { p with slices := p.slices.filter fun c => codec != 1 || c.redundant == 0 } }

/-- Every picture of a list is dropped after its headers (R278). -/
def State.onlyDrops (s : State) (n : Nat) : List PicSyntax → Bool
  | [] => true
  | p :: ps =>
    let s := if p.rap then s.promoteSets n else s
    match s.judge n p with
    | some c => (s.dropPic n c (c != Code.VID_NO_RAP)).onlyDrops n ps
    | none => false

/-- header_only_drop (R278): the head access unit of stream n, which holds `u`, needs no credit. -/
def State.headOnly (s : State) (n : Nat) (u : AuSyntax) : Bool :=
  match (s.stream n).aus with
  | a :: _ => a.big || (u.sets.foldl (fun (s : State) p => s.takeSet n p) s).onlyDrops n u.pics
  | [] => false

/-- ENTROPY_SELECT (R278): engine e takes the oldest complete access unit among the streams with credit, or whose next unit is
only dropped by its headers; `aus` is what head access units hold, by stream. Every other stream that waits for credit counts it. -/
def execEntropySelect (e : Fin 4) (aus : List (StreamId × AuSyntax)) (s : State) : Host.Outcome State Fault Refusal :=
  if (s.eeAt e.val).isSome || s.vid.power ≠ 0 || 2 ≤ s.power then go s
  else
    let au := fun (n : Nat) => baseUnit (s.str n 0x03) (((aus.find? fun x => x.1.val == n).map (·.2)).getD { sets := [], pics := [], shows := none })
    let ok := fun (n : Nat) => decide (0 < (s.stream n).credit) || s.headOnly n (au n)
    let best := s.bestStream ok
    let s := (List.range 64).foldl (fun s n => if s.parsable n && !ok n then s.countEntry (0x2000 + n) 0x2B 1 else s) s
    match best with
    | none => go s
    | some n =>
      match (s.stream n).aus with
      | [] => go s
      | u :: us =>
        let s := (s.modStream n fun x => { x with aus := us }).count (gzBase + 0x30 + 8 * e.val) 1200
        let job : EeJob := { stream := n, au := u.arrival, coded := if u.big then [] else u.coded, rest := if u.big then [] else (au n).pics, shows := if u.big then none else (au n).shows, pts := u.pts,
                             derived := false, eos := u.eos, code := u.code, parsing := false, stalled := false }
        let s := s.setEe e.val (some job)
        let s := if u.big then
            ((s.countEntry (0x2000 + n) 0x24 (au n).pics.length).strCode n Code.VID_AU_OVF |> fun s =>
              if (au n).pics.any fun p => p.refMark != 0 then s.nextRap n else s)
          else (au n).sets.foldl (fun (s : State) p => s.takeSet n p) s
        go (s.eeRun e.val)

/-- CREDIT_TICK (R277): one picture credit, lost at 4; an engine that waits for it goes on. -/
def execCreditTick (n : StreamId) (s : State) : Host.Outcome State Fault Refusal :=
  if !s.strOpen n.val then go s
  else
    let s := s.modStream n.val fun x => { x with credit := min 4 (x.credit + 1) }
    match (List.range 4).find? fun e => match s.eeAt e with | some j => j.stream == n.val | none => false with
    | some e => go (s.eeRun e)
    | none => go s

/-- SYNTAX_STALL_RESUME (R279): the ring has room again for the picture in its parse. -/
def execSyntaxStallResume (e : Fin 4) (s : State) : Host.Outcome State Fault Refusal :=
  match s.eeAt e.val with
  | none => go s
  | some j =>
    if j.stalled && decide (s.synUsed j.stream ≤ s.synCap j.stream) then
      go ((s.countFree (gzBase + 0x30 + 8 * e.val)).setEe e.val (some { j with stalled := false }))
    else go s

/-- A code raised while a picture is decoded: LAST_CODE, and STATUS when it is the first (R292). -/
def PicJob.raise (j : PicJob) (code : W16) : PicJob := if j.status = 0 then { j with status := code } else j

/-- What a finished parse leaves to conceal (R291): blocks lost to syntax errors and blocks that no slice covers. -/
def State.syntaxErrors (s : State) (n : Nat) (j : PicJob) : State × PicJob :=
  let broken := (j.syn.slices.filter fun c => !c.lost.isEmpty).length
  let lost := j.syn.slices.flatMap (·.lost)
  let covered := j.syn.slices.flatMap (·.covered)
  let short := (List.range (blocksOf j.ps.width j.ps.height)).filter fun b => !covered.contains b && !lost.contains b
  let (s, j) := if broken = 0 then (s, j)
    else ((s.countEntry (0x2000 + n) 0x27 broken).strCode n Code.VID_SLICE_SYNTAX, j.raise Code.VID_SLICE_SYNTAX)
  let (s, j) := if short.isEmpty || j.status = Code.VID_TIMEOUT then (s, j) else (s.strCode n Code.VID_SHORT, j.raise Code.VID_SHORT)
  (s, { j with bad := lost ++ short })

/-- The picture in its parse has its syntax complete (R280): the last of the stream's jobs. -/
def State.syntaxDone (s : State) (e : Nat) (j : EeJob) : State :=
  let n := j.stream
  match (s.stream n).jobs.getLast? with
  | none => s
  | some p =>
    let (s, p) := s.syntaxErrors n p
    let s := s.modStream n fun x => { x with jobs := x.jobs.dropLast ++ [{ p with serial := some s.vid.serial }] }
    let s := { s with vid := { s.vid with serial := s.vid.serial + 1 } }
    ((s.count (gzBase + 0x30 + 8 * e) p.syn.bins).setEe e (some { j with parsing := false })).eeRun e

/-- SYNTAX_COMPLETE (R278 to R280). -/
def execSyntaxComplete (e : Fin 4) (s : State) : Host.Outcome State Fault Refusal :=
  match s.eeAt e.val with
  | none => go s
  | some j => if j.parsing && !j.stalled then go (s.syntaxDone e.val j) else go s

/-! ### Pictures ready (R281 to R290, R294) -/

/-- Work units of a picture (R280): its tiles when it has two or more, else the rows of its coding blocks. -/
def PicJob.units (j : PicJob) : Nat := if 2 ≤ j.syn.tiles then j.syn.tiles else max 1 (ceilDiv j.ps.height (max 16 j.ps.block))

/-- Unit u may be complete (R281): in a picture without tiles, the row above is. -/
def PicJob.rowOk (j : PicJob) (u : Nat) : Bool := decide (2 ≤ j.syn.tiles) || u == 0 || j.done.contains (u - 1)

/-- Every unit and every edge pass is complete (R281). -/
def PicJob.complete (j : PicJob) : Bool :=
  j.serial.isSome && j.buf.isSome && j.done.length == j.units && j.doneEdges.length == j.syn.edges.length

/-- Luma samples of block b inside the output window (R294). -/
def windowSamples (q : ParamSet) (b : Nat) : Nat :=
  let cols := ceilDiv q.width 16
  let meet := fun (lo a n : Nat) => min (lo + 16) (a + n) - max lo a
  meet (b % cols * 16) q.cropLeft q.outWidth * meet (b / cols * 16) q.cropTop q.outHeight

/-- Byte runs of block b in a frame buffer: luma rows, then chroma rows. -/
def blockRuns (q : ParamSet) (b : Nat) : List (Nat × Nat) :=
  let bps := sampleBytes q.depth
  let p := pitchOf q.width q.depth
  let cols := ceilDiv q.width 16
  let x := b % cols * 16 * bps
  (List.range 16).map (fun r => ((b / cols * 16 + r) * p + x, 16 * bps)) ++
    (List.range 8).map fun r => (p * planeRows q.height + (b / cols * 8 + r) * p + x, 16 * bps)

/-- Mid-grey bytes: 1 << (depth − 1) in NV12 or P010. -/
def greyBytes (depth n : Nat) : List Byte := if depth = 8 then List.replicate n 0x80 else (List.replicate (n / 2) [(0x00 : Byte), 0x80]).flatten

/-- The concealment source (R294): the newest reference of the stream in decode order, where it is usable. -/
def Stream.source (x : Stream) (q : ParamSet) : Option Nat :=
  match x.frames.filter fun f => f.short || f.long with
  | [] => none
  | f :: fs =>
    let n := fs.foldl (fun a b => if a.pic.decodeIdx < b.pic.decodeIdx then b else a) f
    if n.codedW = q.width ∧ n.codedH = q.height ∧ n.pic.depth = q.depth then some n.pic.addr else none

/-- One block of a frame buffer concealed. -/
def State.concealBlock (s : State) (q : ParamSet) (dst : Nat) (src : Option Nat) (b : Nat) : State :=
  (blockRuns q b).foldl (fun (s : State) r =>
    let bs := match src with
      | some a => (s.memRead (a + r.1) r.2).getD (greyBytes q.depth r.2)
      | none => greyBytes q.depth r.2
    s.memPut (dst + r.1) bs) s

/-- A list without repeats, in ascending order. -/
def ascending (n : Nat) (l : List Nat) : List Nat := (List.range n).filter l.contains

/-- The picture record of a ready picture (Table 8.6). -/
def PicJob.record (j : PicJob) (n damage : Nat) (pool buf addr idx : Nat) : PicRec :=
  { stream := n, pool := pool, buf := buf, addr := addr, pts := j.pts, width := j.ps.outWidth, height := j.ps.outHeight,
    pitch := pitchOf j.ps.width j.ps.depth, depth := j.ps.depth, taint := j.taint, rap := j.syn.rap, ptsDerived := j.derived, damage := damage,
    status := j.status, decodeIdx := idx, cropLeft := j.ps.cropLeft, cropTop := j.ps.cropTop,
    chroma := pitchOf j.ps.width j.ps.depth * planeRows j.ps.height, matrix := j.ps.matrix.toNat, fullRange := j.ps.fullRange }

/-- The frames after the marks that a picture clears and those that it makes long-term (R284). -/
def remark (p : PicSyntax) (fs : List Frame) : List Frame :=
  fs.map fun f =>
    if p.unmark.contains f.name then { f with short := false, long := false }
    else if p.toLong.contains f.name && f.short then { f with short := false, long := true } else f

/-- Room for a picture's own reference mark (R285): with MAX_REFS marked, the short-term reference earliest in decode order loses its mark,
which the flag reports; the frames may then still leave no room. -/
def limitMarks (p : PicSyntax) (maxRefs : Nat) (fs : List Frame) : List Frame × Bool :=
  if p.refMark = 0 || (fs.filter fun f => f.short || f.long).length < maxRefs then (fs, false)
  else match fs.filter fun f => f.short && !f.long with
    | [] => (fs, true)
    | f :: rest =>
      let v := rest.foldl (fun a b => if b.pic.decodeIdx < a.pic.decodeIdx then b else a) f
      (fs.map fun g => if g.short ∧ g.pic.decodeIdx = v.pic.decodeIdx then { g with short := false } else g, true)

/-- The frame of a picture, with its own marks where there is room (R284, R285). -/
def PicJob.frame (j : PicJob) (room : Bool) (pic : PicRec) : Frame :=
  { name := j.syn.name, order := j.syn.order, codedW := j.ps.width, codedH := j.ps.height, short := j.syn.refMark == 1 && room,
    long := j.syn.refMark == 2 && room, output := j.syn.shown, held := j.syn.shown, key := j.syn.key, reorder := j.syn.shown, later := 0, pic := pic }

/-- A frame with a reference mark. -/
def Frame.isRef (f : Frame) : Bool := f.short || f.long

/-- The marks that pictures still in decoding, and what is shown after them, leave in decode order on the frames that are ready (R284, R285,
R301). -/
def Stream.marksAfter (x : Stream) (maxRefs : Nat) (js : List PicJob) : List Frame :=
  js.foldl (fun fs j =>
    let (fs, _) := limitMarks j.syn maxRefs (remark j.syn fs)
    let fs := fs ++ [j.frame (decide ((fs.filter Frame.isRef).length < maxRefs)) (j.record 0 0 0 0 0 (x.decodeCount + fs.length))]
    j.shows.foldl (fun fs f => refreshed f.1 fs) fs) x.frames

/-- Both chroma planes of an AV1 monochrome picture hold 2^(depth − 1) (R263). -/
def State.monoFill (s : State) (codec : Nat) (q : ParamSet) (addr : Nat) : State :=
  if codec ≠ 3 || q.chroma ≠ 0 then s
  else
    let p := pitchOf q.width q.depth
    (List.range (ceilDiv q.height 2)).foldl (fun (s : State) r =>
      s.memPut (addr + p * planeRows q.height + r * p) (greyBytes q.depth (2 * ceilDiv q.width 2 * sampleBytes q.depth))) s

/-- The blocks of a complete picture that did not decode are concealed from the source that also serves as its substitute (R294), then the
frames that it unmarks are released. -/
def State.concealBad (s : State) (n : Nat) (j : PicJob) (addr : Nat) : State :=
  let src := (s.stream n).source j.ps
  let s := (ascending (blocksOf j.ps.width j.ps.height) j.bad).foldl (fun (s : State) b => s.concealBlock j.ps addr src b) s
  (s.modStream n fun x => { x with frames := remark j.syn x.frames }).sweepFrames n

/-- What a ready picture counts. -/
def State.countPicture (s : State) (n damage bad taint : Nat) : State :=
  (((s.countEntry (0x2000 + n) 0x22 1).countEntry (0x2000 + n) 0x25 (if 0 < damage then 1 else 0)).countEntry (0x2000 + n) 0x26
    bad).countEntry (0x2000 + n) 0x2D taint

/-- What a ready picture, which is among the frames, sends to output (R286, R288). -/
def State.outputReady (s : State) (n : Nat) (j : PicJob) (pic : PicRec) : State :=
  let s := if s.str n 0x03 = 3 then (if j.syn.shown then s.deliver n pic else s)
    else s.bump n j.ps.reorder j.ps.latency false ((s.stream n).reordering.length + 1)
  let s := j.shows.foldl (fun (s : State) f => s.showExisting n f.1 f.2.1 f.2.2) s
  if j.eos then s.flushOut n else s

/-- A complete picture becomes ready (R284, R286, R290, R294): marks that it clears, concealment, counters, its own marks, and its
place in the output order. -/
def State.makeReady (s : State) (n : Nat) (j : PicJob) (pool buf : Nat) : State :=
  let total := blocksOf j.ps.width j.ps.height
  let addr := s.bufAddr pool buf
  let s := (s.monoFill (s.str n 0x03) j.ps addr).concealBad n j addr
  let damage := ((ascending total (j.bad ++ j.subst)).map (windowSamples j.ps)).sum
  let idx := (s.stream n).decodeCount
  let s := s.countPicture n damage (ascending total j.bad).length (if j.taint then 1 else 0)
  let lim := limitMarks j.syn (s.str n 0x07) (s.stream n).frames
  let s := (s.modStream n fun x => { x with frames := lim.1 }).sweepFrames n
  let s := if lim.2 then s.strCode n Code.VID_DPB_OVF else s
  let j := if lim.2 then j.raise Code.VID_DPB_OVF else j
  let pic := j.record n damage pool buf addr idx
  let s := if j.syn.flush then s.flushOut n else s
  let frame := j.frame (decide ((lim.1.filter Frame.isRef).length < s.str n 0x07)) pic
  let s := s.modStream n fun x => { x with
    decodeCount := idx + 1, jobs := x.jobs.drop 1,
    frames := x.frames.map (fun f => if f.reorder then { f with later := f.later + 1 } else f) ++ [frame] }
  (s.outputReady n j pic).sweepFrames n

/-- Complete pictures become ready in decode order. -/
def State.readyLoop (s : State) (n : Nat) : Nat → State
  | 0 => s
  | fuel + 1 =>
    match (s.stream n).jobs with
    | [] => s
    | j :: _ => if j.complete then
        (match j.buf with | some b => (s.makeReady n j b.1 b.2).readyLoop n fuel | none => s) else s

/-- Runs the ready pictures of stream n. -/
def State.settle (s : State) (n : Nat) : State := s.readyLoop n ((s.stream n).jobs.length + 1)

/-! ### Pixel engines (R280, R281, R288) -/

/-- An edge pass whose two tiles are complete and that is next (R281). -/
def PicJob.edgeReady (j : PicJob) : Bool :=
  match j.syn.edges[j.nextEdge]? with
  | some e => j.done.contains e.1 && j.done.contains e.2
  | none => false

/-- The picture has a unit or an edge pass for a free engine. -/
def PicJob.hasWork (j : PicJob) : Bool := j.serial.isSome && (decide (j.next < j.units) || j.edgeReady)

/-- A picture may be begun, behind the earlier pictures of its stream that are not ready: none of them is a reference of it, and none
is left when a reference is missing, so that the same buffer serves as its substitute whatever the load (R294, R301). -/
def Stream.mayBegin (x : Stream) (maxRefs : Nat) (earlier : List PicJob) (j : PicJob) : Bool :=
  let fs := x.marksAfter maxRefs earlier
  j.syn.refs.all (fun r => !earlier.any fun k => k.syn.name == r) &&
    (earlier.isEmpty || j.syn.refs.all fun r => fs.any fun f => f.name == r && f.isRef)

/-- Pictures with work for an engine, with their streams: in a stream that decodes, or started already (R297, R299), and with no
reference still in decoding. -/
def State.workable (s : State) : List (Nat × PicJob) :=
  (List.range 64).flatMap fun n =>
    let js := (s.stream n).jobs
    (js.zipIdx).filterMap fun x =>
      let j := x.1
      if j.hasWork && (j.started || (s.decodes n && s.vid.power == 0 && (s.stream n).mayBegin (s.str n 0x07) (js.take x.2) j)) then some (n, j)
      else none

/-- The order in which syntax completed; a lower stream first on a tie. -/
def syntaxFirst : List (Nat × PicJob) → Option (Nat × PicJob)
  | [] => none
  | x :: xs => some (xs.foldl (fun a b => if b.2.serial.getD 0 < a.2.serial.getD 0 then b else a) x)

/-- A granted frame buffer that a picture of stream n can take now. -/
def State.freshBuf (s : State) (n : Nat) : Option (Nat × Nat) := (s.spareBufs n).find? fun b => !(s.buf b.1 b.2).zeroing

/-- A buffer asked of the Coil for stream n: granted, or waited for up to POOL_WAIT (R288, R448). -/
def State.askBuf (s : State) (n : Nat) : State :=
  if !(s.spareBufs n).isEmpty || s.coil.waiters.any (fun w => w.owner == n) then s
  else match s.coilGrant n (s.fbBytes n) with
    | some (s, _) => s
    | none => { s with coil := { s.coil with
        waiters := s.coil.waiters ++ [⟨n, s.fbBytes n, firstPool (s.fbBytes n), s.regField gzBase 0 16⟩] } }

/-- A job of stream n changed, by its serial number. -/
def State.modJob (s : State) (n : Nat) (serial : Option Nat) (f : PicJob → PicJob) : State :=
  s.modStream n fun x => { x with jobs := x.jobs.map fun j => if j.serial = serial then f j else j }

/-- A picture starts: its buffer, references that are not held, the substitute for them, and TAINT (R290, R294, VID_MISSING_REF). -/
def State.beginPic (s : State) (n : Nat) (j : PicJob) (b : Nat × Nat) : State × PicJob :=
  let x := s.stream n
  let fs := x.marksAfter (s.str n 0x07) (x.jobs.takeWhile fun k => k.serial != j.serial)
  let held := fun (r : Nat) => fs.find? fun f => f.name == r && f.isRef
  let missing := j.syn.refs.any fun r => (held r).isNone
  let tainted := j.syn.refs.any fun r => match held r with | some f => decide (0 < f.pic.damage) || f.pic.taint | none => true
  let source := if missing then x.source j.ps else none
  let refBufs := j.syn.refs.map fun r => match held r with | some f => some f.pic.addr | none => source
  let j := { j with buf := some b, started := true, taint := tainted, source := source, refBufs := refBufs }
  if missing then (s.strCode n Code.VID_MISSING_REF, j.raise Code.VID_MISSING_REF) else (s, j)

/-- Engine p takes the next unit of a picture; units from `units` on are edge passes. -/
def State.takeUnit (s : State) (p n : Nat) (j : PicJob) : State :=
  let edge := decide (j.units ≤ j.next)
  let u := if edge then j.units + j.nextEdge else j.next
  let j' := if edge then { j with nextEdge := j.nextEdge + 1 } else { j with next := j.next + 1 }
  let s := s.modJob n j.serial fun _ => j'
  { s with vid := { s.vid with pe := Tbl.set none s.vid.pe p (some ⟨n, j.serial.getD 0, u⟩) } }

/-- PIXEL_UNIT_START (R280, R288): a free pixel engine takes the next unit of the picture whose syntax completed first. A picture
without a buffer asks for one, and gives way while it waits. -/
def execPixelUnitStart (p : Fin 16) (s : State) : Host.Outcome State Fault Refusal :=
  if (Tbl.get none s.vid.pe p.val).isSome || s.vid.power = 2 then go s
  else
    let s := match syntaxFirst (s.workable.filter fun x => x.2.buf.isNone) with
      | some (n, _) => s.askBuf n
      | none => s
    match syntaxFirst (s.workable.filter fun x => x.2.buf.isSome || (s.freshBuf x.1).isSome) with
    | none => go s
    | some (n, j) =>
      match j.buf, s.freshBuf n with
      | some _, _ => go (s.takeUnit p.val n j)
      | none, some b =>
        let (s, j) := s.beginPic n j b
        go (s.takeUnit p.val n j)
      | none, none => go s

/-- Bytes of a picture in its frame buffer: the planes at offset 0, the motion side data behind them (R283). -/
def frameBytes (q : ParamSet) (codec : Nat) : Nat :=
  pitchOf q.width q.depth * planeRows q.height * 3 / 2 + ceilDiv q.width 16 * (planeRows q.height / 16) * (if codec = 3 then 64 else 16)

/-- The samples and the motion side data of a unit written to its frame buffer: what the codec's decoding process makes of the coded bytes,
the references and the picture so far (R264, R283). -/
def State.writeSamples (s : State) (j : PicJob) (codec unit : Nat) : State :=
  match j.buf with
  | none => s
  | some b =>
    let a := s.bufAddr b.1 b.2
    let len := frameBytes j.ps codec
    let frame := fun (a : Nat) => (s.memRead a len).getD []
    let out := Config.codecUnit codec j.sets j.coded j.syn.name (j.refBufs.map fun r => r.map frame) (frame a) unit
    (out.filter fun x => decide (x.1 < len)).foldl (fun (s : State) x => s.memPut (a + x.1) [x.2]) s

/-- PIXEL_UNIT_DONE (R281, R291): a unit or an edge pass is complete; the picture that it completes becomes ready. A row cannot be
complete before the row above it. -/
def execPixelUnitDone (p : Fin 16) (r : UnitResult) (s : State) : Host.Outcome State Fault Refusal :=
  match Tbl.get none s.vid.pe p.val with
  | none => go s
  | some e =>
    let n := e.stream
    match (s.stream n).jobs.find? fun j => j.serial == some e.pic with
    | none => go { s with vid := { s.vid with pe := Tbl.set none s.vid.pe p.val none } }
    | some j => if decide (e.unit < j.units) && !j.rowOk e.unit then go s else
      let s := { s with vid := { s.vid with pe := Tbl.set none s.vid.pe p.val none } }
      let s := ((s.writeSamples j (s.str n 0x03) e.unit).count (gzBase + 0x50) r.cycles).count (gzBase + 0x58) r.blocks
      let ue := !r.memUe.isEmpty
      let s := if ue then s.strCode n Code.VID_MEM_UE else s
      let s := s.modJob n (some e.pic) fun j =>
        let j := if ue then j.raise Code.VID_MEM_UE else j
        { j with
          done := (if e.unit < j.units then j.done ++ [e.unit] else j.done),
          doneEdges := (if e.unit < j.units then j.doneEdges else j.doneEdges ++ [e.unit - j.units]),
          bad := j.bad ++ r.memUe, subst := j.subst ++ r.subst }
      go (s.settle n)

/-- What follows a picture that is dropped, the frames shown after it and EOS, follows the picture before it, or acts at once
(R270, R286). -/
def State.handOn (s : State) (n : Nat) (j : PicJob) : State :=
  match ((s.stream n).jobs.takeWhile fun k => k.serial != j.serial).getLast? with
  | some p => s.modStream n fun x => { x with jobs := x.jobs.map fun k =>
      if k.serial = p.serial then { k with shows := k.shows ++ j.shows, eos := k.eos || j.eos } else k }
  | none =>
    let s := j.shows.foldl (fun (s : State) f => s.showExisting n f.1 f.2.1 f.2.2) s
    if j.eos then s.flushOut n else s

/-- One picture in decoding is dropped: its engines are free and its buffer returns (R291). How long they were busy with it is time: log
entry 14. -/
def State.removeJob (s : State) (n : Nat) (j : PicJob) (code : W16) : State :=
  let drop := fun (t : Tbl (Option PeJob)) (e : Nat) =>
    match Tbl.get none t e with
    | some k => if k.stream = n ∧ j.serial = some k.pic then Tbl.set none t e none else t
    | none => t
  let s := (List.range 16).foldl (fun s e => if drop s.vid.pe e != s.vid.pe then s.countFree (gzBase + 0x50) else s) s
  let s := { s with vid := { s.vid with pe := (List.range 16).foldl drop s.vid.pe } }
  let s := s.handOn n j
  let s := s.modStream n fun x => { x with jobs := x.jobs.filter fun k => k.serial != j.serial }
  let s := match j.buf with | some b => s.freeBuf b.1 b.2 | none => s
  s.dropPic n code false

/-- The entropy engine of stream n goes on when its picture has been dropped in its parse; with `whole` its access unit `au` is passed over
(R291). -/
def State.parseOn (s : State) (n au : Nat) (whole : Bool) (code : W16) : State :=
  match (List.range 4).find? fun e => match s.eeAt e with | some k => k.stream == n | none => false with
  | none => s
  | some e =>
    match s.eeAt e with
    | none => s
    | some k =>
      let gone := k.parsing && (s.stream n).jobs.all fun j => j.serial.isSome
      let s := if gone then s.countFree (gzBase + 0x30 + 8 * e) else s
      let k := if gone then { k with parsing := false, stalled := false } else k
      let pass := whole && k.au == au
      let s := if pass && !k.rest.isEmpty then (s.countEntry (0x2000 + n) 0x24 k.rest.length).strCode n code else s
      (s.setEe e (some (if pass then { k with rest := [] } else k))).eeRun e

/-- A picture in decoding is dropped, and where decoding resumes (R291): with `whole` at the next access unit, so that the other pictures
of this one are dropped too; when a reference is `lost` and START_MODE is 0, at the next RAP, so that the pictures parsed before it are
dropped with VID_NO_RAP (DEDUCED, log entry 71). -/
def State.dropJob (s : State) (n : Nat) (j : PicJob) (code : W16) (lost whole : Bool) : State :=
  let behind := ((s.stream n).jobs.dropWhile fun k => k.serial != j.serial).drop 1
  let mates := if whole then behind.takeWhile fun k => k.au == j.au else []
  let unread := match (List.range 4).findSome? fun e => (s.eeAt e).filter fun k => k.stream == n && k.au == j.au with
    | some k => if whole then k.rest else []
    | none => []
  let lost := lost || mates.any (fun k => k.syn.refMark != 0) || unread.any fun p => p.refMark != 0
  let later := behind.drop mates.length
  let waits := if lost && s.str n 0x0B = 0 then later.takeWhile fun k => !k.syn.rap else []
  let s := (j :: mates).foldl (fun (s : State) k => s.removeJob n k code) s
  let s := waits.foldl (fun (s : State) k => s.removeJob n k Code.VID_NO_RAP) s
  let s := if lost && later.length == waits.length then s.nextRap n else s
  (s.parseOn n j.au whole code).settle n

/-- VID_ENGINE_TO (R291): an engine ran one picture past WATCHDOG. -/
def execVidEngineTo (e : VidEngine) (s : State) : Host.Outcome State Fault Refusal :=
  match e with
  | .entropy e =>
    match s.eeAt e.val with
    | none => go s
    | some j =>
      if !j.parsing then go s
      else match (s.stream j.stream).jobs.getLast? with
        | none => go s
        | some p => go (s.dropJob j.stream p Code.VID_ENGINE_TO true false)
  | .pixel p =>
    match Tbl.get none s.vid.pe p.val with
    | none => go s
    | some k =>
      match (s.stream k.stream).jobs.find? fun j => j.serial == some k.pic with
      | none => go s
      | some j => go (s.dropJob k.stream j Code.VID_ENGINE_TO true false)

/-- COIL_TIMEOUT (R448): the oldest waiting request of an owner reaches its limit and counts in FAILS; the picture of a stream that
waited for the buffer is dropped with VID_NO_BUFFER (R288). -/
def execCoilTimeout (owner : BitVec 12) (s : State) : Host.Outcome State Fault Refusal :=
  match s.coil.waiters.find? fun w => w.owner == owner.toNat with
  | none => go s
  | some w =>
    let s := { s with coil := { s.coil with waiters := s.coil.waiters.erase w } }.countEntry 0x1600 (0x48 + w.pool) 1
    if 64 ≤ w.owner then go s
    else match (s.stream w.owner).jobs.find? fun j => j.serial.isSome && j.buf.isNone with
      | none => go s
      | some j => go (s.dropJob w.owner j Code.VID_NO_BUFFER (j.syn.refMark != 0) true)

end Sys2Proof.Machine
end

