-- ==== Sys2Proof/Machine/Survive.lean ====
section
/-! DEFINITION. Which registers and entries keep their values at an event (R12, R588, the Survives columns), and what each
event leaves of the internal state. -/

namespace Sys2Proof.Machine

/-- Survival letters of a register as bits. Bits (Table 0.5): P 1, W 2, E 4, F 8, C 16, S 32, N 64, B 128. -/
def regSurv (key : Nat) : Nat :=
  let o := key % 0x100000000
  let ib := o % 0x200000
  if detBase ≤ o ∧ o < detBase + 0x4000 then 0xF0
  else if 0x01000000 ≤ o ∧ o < gzBase then
    (if ib = 0x10000 ∨ ib = 0x20000 ∨ (0x10010 ≤ ib ∧ ib < 0x10030) ∨ ib = 0x20048 then 0x30 else 0x20)
  else if gzBase ≤ o ∧ o < preBase then
    (if o = gzBase ∨ (gzBase + 0x1000 ≤ o ∧ o % 16 = 0) then 0x70 else 0x50)
  else if preBase ≤ o ∧ o < schBase then 0x50
  else if memBase + 0x10 ≤ o ∧ o < memBase + 0x80 then 0xFE
  else if memBase + 0x1000 ≤ o ∧ o < memBase + 0x2000 ∧ o % 0x80 = 8 then 0xFE
  else if intBase ≤ o ∧ o < intBase + 0x28 then 0
  else if o = tthBase + 0x200 then 0xFC
  else if tthBase ≤ o ∧ o < tthBase + 0x200 then 0
  else 0x70

/-- Survival letters of a dictionary entry. -/
def entrySurv (key : Nat) : Nat :=
  match dictRow (key / 256) (key % 256) with
  | some r => r.surv
  | none => 0

/-- The registers and entries that an event of one letter keeps; the others take their reset values (R12). -/
def State.survive (s : State) (letter : Nat) : State :=
  { s with
    dict := Tbl.keep s.dict fun k _ => entrySurv k / letter % 2 == 1
    regs := Tbl.keep s.regs fun k _ => regSurv k / letter % 2 == 1 }

/-- What power removed from every domain but the always-on domain, or a reset of the die, leaves of the fabric, the Ibex clusters,
Gazelle and the host port (R298, R477, Table 10.11, Table 17.1): nothing. HBM keeps its contents where `hbm` says so (R409). -/
def State.dieReset (s : State) (hbm : Bool) : State :=
  let m : Mem := if hbm then { hbm := s.mem.hbm, syn := s.mem.syn, chk := s.mem.chk } else {}
  { s with dm := [], mem := m, coil := {}, ibex := [], hp := { txBase := sentBytes s.out }, sch := {}, streams := [], vid := {}, wake := false, acts := {},
           store := { s.store with snapBusy := false, napped := [] } }

end Sys2Proof.Machine
end

