-- ==== Sys2Proof/Machine/Power.lean ====
section
/-! DEFINITION. Tether: operating points, cap, droop, fixed-frequency mode, shedding, temperature, and the power states
(R460 to R488), with the supply events of the package that lead to them (R611 to R619). -/

namespace Sys2Proof.Machine

/-- An entry of index 0x1400. -/
abbrev State.pw (s : State) (sub : Nat) : Nat := s.entry 0x1400 sub

/-- A power code: the error log and TTH_ERR (R488). -/
def State.pwrLog (s : State) (code : W16) (detail : Nat) : State := (s.logErr code originDev 0 0 detail none).famErr code 0

/-- Present operating point (OP). -/
def State.op (s : State) : Nat := s.pw 0x20

/-- The fused voltage table passes R461. -/
def State.fuseOk (s : State) : Bool :=
  (List.range 16).all fun k => decide (600 ≤ s.pw (0x40 + k)) && decide (s.pw (0x40 + k) ≤ 950) &&
    (k == 0 || decide (s.pw (0x40 + k - 1) ≤ s.pw (0x40 + k)))

/-- Any die sensor reads below 0 °C. -/
def State.anyCold (s : State) : Bool := s.tth.temps.any fun t => decide (t < 0)

/-- Voltage of a point in mV (R461, R462). -/
def State.volt (s : State) (k : Nat) : Nat :=
  if !s.fuseOk then 950 else s.pw (0x40 + k) + (if s.anyCold then s.pw 0x50 else 0)

/-- A change of Tether's own state. -/
def State.modTth (s : State) (f : Tether → Tether) : State := { s with tth := f s.tth }

/-- Highest reading. -/
def maxTemp : List Int → Int
  | [] => 0
  | [t] => t
  | t :: ts => max t (maxTemp ts)

/-- tj, the highest reading (R475). -/
def State.tj (s : State) : Int := maxTemp s.tth.temps

/-- Highest point usable (MAX_OP_ACTIVE): OP0 where the fused table fails, OP9 for grade S while a sensor reads below 0 °C (R461, R462). -/
def State.maxOp (s : State) : Nat := if !s.fuseOk then 0 else if partGrade = 0 && s.anyCold then 9 else 15

/-- Mean of the samples of the averaging window in mW, one sample each 10 µs (R464). -/
def State.pAvg (s : State) : Nat :=
  let xs := s.tth.samples.take (100 * s.pw 0x07)
  xs.sum / xs.length

/-- Effective cap in mW: the lesser of the cap in force and 20 A times the input voltage (R465). -/
def State.capEff (s : State) : Nat := min (s.tth.cap * 1000) (20 * s.tth.v12)

/-- Fixed-frequency mode is in force (R470); a mode that FIXED_FREQ asked for during a throttle waits for its end (Table 14.5). -/
def State.fixed (s : State) : Bool :=
  (s.pw 0x04 == 1 && !s.tth.deferred) || decide (0 < s.entry 0x4000 0x02)

/-! ### Steps (R463) -/

/-- A move of CLKA to a point below or equal, with the voltage to follow. -/
def State.moveOp (s : State) (k : Nat) : State :=
  (s.setEntry 0x1400 0x20 k).modTth fun t => { t with rising := none, target := s.volt k }

/-- Each exact step that is running counts once in OVERRIDE_STEPS while an override is in force (R599). -/
def State.markOverride (s : State) : State :=
  s.openSteps.foldl (fun s x =>
    if x.2.state == .running && s.ctx x.2.ctx 0x14 == 1 && !x.2.overridden then
      (s.countEntry 0x4000 0x04 1).setStep x.1 (some { x.2 with overridden := true })
    else s) s

/-- An episode that overrides fixed-frequency mode begins (R471). -/
def State.override (s : State) : State :=
  if !s.fixed || s.tth.broken then s
  else ((s.countEntry 0x1400 0x34 1).modTth fun t => { t with broken := true }).markOverride.pwrLog Code.PWR_FIXED_BROKEN s.op

/-- One step down: CLKA first, then the voltage (R463). -/
def State.stepDown (s : State) : State :=
  if s.op = 0 then s
  else
    let s := (s.moveOp (s.op - 1)).countEntry 0x1400 0x31 1
    if s.op < 9 then s.override else s

/-- One step up begins: the voltage rises, and CLKA follows when it stands (R463). -/
def State.stepUp (s : State) : State :=
  if s.tth.rising.isSome then s else s.modTth fun t => { t with rising := some (s.op + 1), target := s.volt (s.op + 1) }

/-- VOLTAGE_SLEW_DONE (R463, R470): CLKA rises behind its voltage, but not past OP9 in fixed-frequency mode. -/
def execVoltageSlewDone (s : State) : Host.Outcome State Fault Refusal :=
  let t := s.tth
  if t.rising.isNone && t.rail = t.target then go s
  else
    let s := s.modTth fun t => { t with rail := t.target, rising := none }
    match t.rising with
    | some k =>
      if s.fixed && decide (9 < k) then go (s.modTth fun t => { t with target := s.volt s.op })
      else go ((s.setEntry 0x1400 0x20 k).countEntry 0x1400 0x32 1)
    | none => go s

/-- A new cap takes effect: EFFECTIVE_CAP_W (R465). -/
def State.showCap (s : State) : State := s.setEntry 0x1400 0x23 (s.capEff / 1000)

/-- POWER_SAMPLE (R464, R466): a sample of 10 µs enters the averages and ENERGY_MJ, and the fast loop acts on it. -/
def execPowerSample (r : PowerReading) (s : State) : Host.Outcome State Fault Refusal :=
  let e := s.tth.energyNj + 10 * r.mw
  let s := s.modTth fun t => { t with samples := (r.mw :: t.samples).take 100000, energyNj := e % 1000000, v12 := r.v12 }
  let s := (s.setEntry 0x1400 0x26 r.v12).countEntry 0x1400 0x37 (e / 1000000)
  let s := (s.setEntry 0x1400 0x22 s.pAvg).showCap
  if s.power < 2 && !s.fixed && s.capEff * (100 + s.pw 0x08) < r.mw * 100 then go s.stepDown else go s

/-! ### Droop (R468, R469) -/

/-- DROOP_FIRE (R468, R469): one point down, or at OP0 the stretcher; the hold starts or restarts. -/
def execDroopFire (_n : IbexId) (s : State) : Host.Outcome State Fault Refusal :=
  if 2 ≤ s.power then go s
  else
    let atFloor := decide (s.op = 0)
    let s := (s.countEntry 0x1400 0x30 1).modTth fun t => { t with hold := true, stretch := t.stretch || atFloor }
    if atFloor then go s.override else go s.stepDown

/-- DROOP_HOLD_END (R468). -/
def execDroopHoldEnd (s : State) : Host.Outcome State Fault Refusal :=
  if s.tth.hold then go (s.modTth fun t => { t with hold := false, stretch := false }) else go s

/-! ### Shedding (R472 to R474) -/

/-- Contexts that may be shed: READY, with a bound queue, not shed (R472). -/
def State.sheddable (s : State) : List Nat :=
  let bound := s.sch.queues.filterMap fun e => if e.2.bound then some e.2.ctx else none
  bound.eraseDups.filter fun c => s.ctxState c == 2 && !s.sch.shed.contains c

/-- Context a is shed before context b: lowest WEIGHT first, then the higher number (R472). -/
def State.shedBefore (s : State) (a b : Nat) : Bool :=
  decide (s.ctx a 0x05 < s.ctx b 0x05) || (s.ctx a 0x05 == s.ctx b 0x05 && decide (b < a))

/-- One more context is shed (R472). -/
def State.shedNext (s : State) : State :=
  match s.sheddable with
  | [] => s
  | c :: cs =>
    let v := cs.foldl (fun m x => if s.shedBefore x m then x else m) c
    { s with sch := { s.sch with shed := s.sch.shed ++ [v] } }

/-- The context shed last is unshed (R472). -/
def State.unshedLast (s : State) : State := { s with sch := { s.sch with shed := s.sch.shed.dropLast } }

/-! ### The slow loop (R467) -/

/-- tj or the stack is above its limit (R476). -/
def State.hot (s : State) : Bool := decide ((s.pw 0x0A : Int) < s.tj) || decide (95 < s.tth.stack)

/-- The throttle episode of the tick (R476). -/
def State.throttleTick (s : State) : State :=
  if s.hot then
    let s := s.countEntry 0x1400 0x33 1
    if s.tth.throttling then s else (s.modTth fun t => { t with throttling := true }).pwrLog Code.PWR_THROTTLE 0
  else s.modTth fun t => { t with throttling := false, deferred := false }

/-- An episode of R471 ends once the device is back at OP9 and no cause stands. -/
def State.mend (s : State) : State :=
  if s.tth.broken && (!s.fixed || (decide (9 ≤ s.op) && !s.hot && !s.tth.hold && decide (s.pAvg ≤ s.capEff) && s.sch.shed.isEmpty)) then
    s.modTth fun t => { t with broken := false }
  else s

/-- Highest point that the loop may use: MAX_OP while boost is enabled, OP9 otherwise and in fixed mode, MAX_OP_ACTIVE at most
(R461, R462, R467). -/
def State.topOp (s : State) : Nat :=
  min (if s.fixed || s.pw 0x05 == 0 then 9 else s.pw 0x06) (s.pw 0x21)

/-- CLKA of a point in MHz (Table 14.1). -/
def opMhz (k : Nat) : Nat := if k ≤ 9 then 300 + 50 * k else 750 + 25 * (k - 9)

/-- 2^(r/25) in units of 2^-32, for r = 0 to 24 (log entry 20). -/
def pow25 : List Nat := [
  4294967296, 4415715262, 4539857915, 4667490694, 4798711718,
  4933621868, 5072324858, 5214927319, 5361538882, 5512272257,
  5667243324, 5826571220, 5990378433, 6158790894, 6331938074,
  6509953083, 6692972776, 6881137852, 7074592969, 7273486849,
  7477972398, 7688206817, 7904351731, 8126573306, 8355042379]

/-- LEAK_IBEX_MW × 2^((T − 85) / 25), in units of 2^-32 mW. -/
def leakAt (mw : Nat) (t : Int) : Nat :=
  let d := t - 85
  let e := Int.fdiv d 25
  let m := mw * pow25.getD (Int.fmod d 25).toNat 0
  if 0 ≤ e then m * 2 ^ e.toNat else m / 2 ^ (-e).toNat

/-- Energy at V9 of array and lane operations, of scalar instructions and of strand groups of dummy cycles, in fJ (R483). -/
def State.arith (s : State) (w : Work) (scalar groups : Nat) : Nat :=
  w.op4 * s.pw 0x51 + w.op8 * s.pw 0x52 + w.op16 * s.pw 0x53 + groups * s.pw 0x54 * 1000 + (w.vec + scalar) * s.pw 0x55

/-- predicted_rise (R467): the growth in mW of the arithmetic-rail power from one step up, with the activity of the last window at the next
point's clock and voltage, and the leakage of the Ibex clusters at that voltage (DESIGN CHOICE, log entry 20). -/
def State.predictedRise (s : State) : Nat :=
  let v := s.volt s.op
  let w := s.volt (s.op + 1)
  let v9 := s.pw 0x49
  let n := max 1 s.acts.window.length
  let leak := ((List.range 8).map fun i => leakAt (s.pw 0x59) (s.tth.temps.getD i 0)).sum
  s.acts.window.sum * (opMhz (s.op + 1) * w ^ 2 - opMhz s.op * v ^ 2) / (n * opMhz s.op * v9 ^ 2 * 1000000000) +
    leak * (w ^ 3 - v ^ 3) / (v9 ^ 3 * 2 ^ 32)

/-- The slow loop's decision (R467) with the predicted rise of one step in mW. -/
def State.slowLoop (s : State) (rise : Nat) : State :=
  let cap := s.capEff
  let avg := s.pAvg
  let hyst := s.pw 0x09 * 1000
  let low := min (if s.fixed then 9 else 0) (s.pw 0x21)
  let above := decide (cap < avg)
  if s.hot && decide (0 < s.op) then s.stepDown.modTth fun t => { t with floorMs := 0 }
  else if above && decide (low < s.op) then s.stepDown.modTth fun t => { t with floorMs := 0 }
  else if above || s.hot then
    let s := s.override.modTth fun t => { t with underMs := 0, floorMs := t.floorMs + 1 }
    if s.pw 0x0E ≤ s.tth.floorMs then s.shedNext.modTth fun t => { t with floorMs := 0 } else s
  else
    let s := s.modTth fun t => { t with floorMs := 0 }
    if s.topOp < s.op then s.stepDown
    else if s.op < low && !s.tth.hold then s.stepUp
    else if cap < avg + hyst then s.modTth fun t => { t with underMs := 0 }
    else if !s.sch.shed.isEmpty then
      let s := s.modTth fun t => { t with underMs := t.underMs + 1 }
      if s.pw 0x0F ≤ s.tth.underMs then s.unshedLast.modTth fun t => { t with underMs := 0 } else s
    else if s.op < s.topOp && !s.tth.hold && decide (s.tj ≤ (s.pw 0x0B : Int)) && decide (avg + rise + hyst ≤ cap) then s.stepUp
    else s

/-- SLOW_LOOP_TICK (R465, R467, R476): the tick uses the cap in force before a write that meets it by its place in the queue. A part whose
fused OP9 voltage is 0 has no predicted rise that the spec states: a fresh value (log entry 20). -/
def execSlowLoopTick (s : State) : Host.Outcome State Fault Refusal :=
  let s := (s.modTth fun t => { t with cap := s.pw 0x03 }).showCap
  if 2 ≤ s.power then go s
  else
    let (w, s) := if s.pw 0x49 = 0 then s.freshWord else (0, s)
    let s := s.throttleTick
    go ((s.slowLoop (if s.pw 0x49 = 0 then w.toNat else s.predictedRise)).mend)

/-! ### The energy estimate and the ledger (R374, R483, R484) -/

/-- Estimated energy of one millisecond in fJ (R483). -/
def State.estimate (s : State) (a : Activity) : Nat :=
  let v := s.tth.rail
  let v9 := s.pw 0x49
  let arith := s.arith s.acts.all a.scalar a.dummyGroups
  let rest := a.hbmBytes * s.pw 0x56 + a.blocks * s.pw 0x57 * 1000000 + a.pcieBytes * s.pw 0x58
  let leak := ((List.range 8).map fun n => leakAt (s.pw 0x59) (s.tth.temps.getD n 0)).sum + leakAt (s.pw 0x5A) s.tj
  arith * v ^ 2 / v9 ^ 2 + rest + leak * 1000000000 * v ^ 3 / (v9 ^ 3 * 2 ^ 32)

/-- ENERGY_TICK (R483): the estimate enters EST_ENERGY_MJ. A part whose fused OP9 voltage is 0 has no estimate that the spec
states: a fresh value (log entry 20). The arithmetic energy joins the window of predicted_rise (R484). -/
def execEnergyTick (a : Activity) (s : State) : Host.Outcome State Fault Refusal :=
  let (w, s) := if s.pw 0x49 = 0 then s.freshWord else (BitVec.ofNat 64 0, s)
  let e := if s.pw 0x49 = 0 then w.toNat else s.tth.estFj + s.estimate a
  let act := s.arith s.acts.all a.scalar a.dummyGroups
  let s := { s with acts := { s.acts with all := {}, window := (act :: s.acts.window).take (max 1 (s.pw 0x07)) } }
  go ((s.countEntry 0x1400 0x38 (e / 1000000000000)).modTth fun t => { t with estFj := e % 1000000000000 })

/-- Estimated energy in fJ that a context's work of one millisecond took (R374, R483, R484): array operations, the dummy operations
that R114 charges to it, vector and scalar work, HBM bytes, and the leakage of each Ibex for the time it held it. -/
def State.ctxEnergy (s : State) (a : CtxActivity) (work : Work) (dummy : Nat) : Nat :=
  let (v, v9) := (s.tth.rail, s.pw 0x49)
  let arith := s.arith work a.scalar dummy
  let leak := ((List.range 8).map fun n => leakAt (s.pw 0x59) (s.tth.temps.getD n 0) * a.heldUs.getD n 0).sum
  arith * v ^ 2 / v9 ^ 2 + a.hbmBytes * s.pw 0x56 + leak * 1000000 * v ^ 3 / (v9 ^ 3 * 2 ^ 32)

/-- LEDGER_TICK (R374): what was charged to the context and what its work items took enter ENGINE_CYCLES and PRE_CYCLES, and the
activity counters give BYTES_MOVED and ENERGY_UJ. A part whose fused OP9 voltage is 0 has no estimate that the spec states: a
fresh value (log entry 20). -/
def execLedgerTick (c : CtxId) (a : CtxActivity) (s : State) : Host.Outcome State Fault Refusal :=
  let x := s.ctxSt c.val
  let (w, s) := if s.pw 0x49 = 0 then s.freshWord else (0, s)
  let e := if s.pw 0x49 = 0 then w.toNat else x.energy + s.ctxEnergy a (Tbl.get {} s.acts.ctxs c.val) x.dummy
  let s := { s with acts := { s.acts with ctxs := Tbl.set {} s.acts.ctxs c.val {} } }
  let s := s.setCtxSt c.val { x with engine := 0, pre := 0, dummy := 0, energy := e % 1000000000 }
  let s := (s.countCtx c.val 0x28 x.engine).countCtx c.val 0x29 x.pre
  go ((s.countCtx c.val 0x2A a.hbmBytes).countCtx c.val 0x2B (e / 1000000000))

/-! ### Temperature (R475 to R477) -/

/-- The sensors' readings shown in TTH_TEMPk and TJ_C. -/
def State.showTemps (s : State) (t : List Int) : State :=
  let s := (t.take 12).zipIdx.foldl (fun s x => s.setReg (tthBase + 8 + 8 * x.2) (BitVec.ofInt 64 (x.1 % 256))) s
  (s.modTth fun h => { h with temps := t.take 12 }).setEntry 0x1400 0x24 (BitVec.ofInt 64 (maxTemp (t.take 12))).toNat

/-- The point lowered to OP9 where it is above. -/
def State.downTo9 (s : State) : Nat → State
  | 0 => s
  | n + 1 => if 9 < s.op then s.stepDown.downTo9 n else s

/-- TEMP_SAMPLE (R475, R462): the readings, the cold offset of grade X, and for grade S the points above OP9 withheld below 0 °C. -/
def execTempSample (t : List Int) (s : State) : Host.Outcome State Fault Refusal :=
  if t.isEmpty then go s
  else
    let s := s.showTemps t
    let cold := s.anyCold
    let s := if s.pw 0x50 = 0 ∧ partGrade ≠ 0 then s else s.modTth fun h => { h with target := s.volt (h.rising.getD s.op) }
    if partGrade ≠ 0 then go s
    else if !s.fuseOk then go ((if cold && !s.tth.cold then s.pwrLog Code.PWR_COLD 0 else s).modTth fun h => { h with cold := cold })
    else if !cold then go ((s.modTth fun h => { h with cold := false }).setEntry 0x1400 0x21 s.maxOp)
    else
      let s := s.setEntry 0x1400 0x21 s.maxOp
      let s := if s.tth.cold then s else (s.modTth fun h => { h with cold := true }).pwrLog Code.PWR_COLD 0
      if s.power < 2 then go ((s.modTth fun h => { h with rising := if (h.rising.getD 0) > 9 then none else h.rising }).downTo9 6) else go s

/-! ### Standby (R477, R482, Table 14.3) -/

/-- Entry into Standby: power leaves every domain but the always-on domain; streams close and contexts and queues are disabled
without records (R298, R482, Table 10.11); HBM contents are lost, and the Survives columns say what stays (R12). A start in
progress ends, its codes enter the log (R592), and a slot in programming is left as after a loss of power (R589). -/
def State.enterStandby (s : State) (byRange : Bool) : State :=
  let s := (s.flushCodes.survive 128).dieReset false
  let s := s.setEntry 0x1400 0x02 3
  let s := s.modTth fun t => { t with rail := 0, target := 0, rising := none, hold := false, stretch := false, floorMs := 0, underMs := 0,
                                      throttling := false, broken := false, deferred := false, nap := 0, byRange := byRange,
                                      perstSeen := s.pins.perst, wakeOut := false }
  let st := s.start
  { s with start := { record := st.record, slots := st.slots, kept := st.kept, changed := st.changed, bootSel := st.bootSel, torn := st.torn } }

/-- THERMAL_TRIP (R477): the output is asserted, power is removed and Standby entered, in every state; a trip during a trip adds
nothing. -/
def execThermalTrip (s : State) : Host.Outcome State Fault Refusal :=
  if s.tth.tripOut || s.start.halted then go s
  else
    let s := (s.countEntry 0x1400 0x39 1).pwrLog Code.PWR_TRIP 0
    let s := (s.modTth fun t => { t with tripOut := true }).send (.pin "THERMTRIP#" true)
    if s.power = 3 then go s else go (s.enterStandby false)

/-- THERMTRIP_RELEASE (R477): the output is deasserted once every sensor reads below 95 °C. -/
def execThermtripRelease (t : List Int) (s : State) : Host.Outcome State Fault Refusal :=
  if s.tth.tripOut && t.all (fun x => decide (x < 95)) then
    go ((s.modTth fun h => { h with tripOut := false }).send (.pin "THERMTRIP#" false))
  else go s

/-! ### Idle and Nap (R478 to R481) -/

/-- The Braid of Ibex n completes a ramp-down (R112). -/
def State.rampOff (s : State) (n : Nat) : State :=
  if (s.ib n).ramp.level = 0 then s
  else (s.dummies n).modIb n fun i => { i with ramp := { i.ramp with level := 0, ramping := false } }

/-- No Ibex runs a step but parked ones, and none is ready (Table 14.3). -/
def State.quiet (s : State) : Bool :=
  (List.range 8).all (fun n => (s.ib n).running == 7) && s.openSteps.all fun x => !x.2.waiting

/-- IDLE_ENTRY (R478, R112). -/
def execIdleEntry (s : State) : Host.Outcome State Fault Refusal :=
  if s.stage ≠ 11 || s.power ≠ 0 || !s.quiet then go s
  else
    let s := (List.range 8).foldl (fun s n => (s.rampOff n).modIb n fun i => { i with gated := true }) s
    go (s.setEntry 0x1400 0x02 1)

/-- Conditions of R479 but for the delay. -/
def State.napOk (s : State) : Bool :=
  s.stage == 11 && s.pw 0x11 == 1 && s.power == 1 && s.tth.nap == 0 &&
    (List.range 64).all (fun n => (s.stream n).jobs.isEmpty && !(s.stream n).chunk.asked) &&
    (List.range 4).all (fun e => (s.eeAt e).isNone && (Tbl.get none s.vid.pre e).isNone) &&
    (List.range 16).all (fun p => (Tbl.get none s.vid.pe p).isNone) &&
    s.readyItems.isEmpty && !s.voidsDue && s.hp.waits.isEmpty && s.hp.flying.isEmpty &&
    s.sch.queues.all fun e => !e.2.fetching && e.2.stale == 0

/-- Stage 1 of a Nap entry begins: Gazelle and preprocessing start nothing new (R299, R329, R480). -/
def State.napStart (s : State) : State :=
  { (s.modTth fun t => { t with nap := 1 }) with wake := false, vid := { s.vid with power := 1 } }

/-- NAP_ENTRY (R479, R480). -/
def execNapEntry (s : State) : Host.Outcome State Fault Refusal := if s.napOk then go s.napStart else go s

/-- The device is in Idle again: Gazelle decodes on, and ready steps are placed (R480, R481). -/
def State.backToIdle (s : State) : State :=
  let s := { (s.modTth fun t => { t with nap := 0 }) with wake := false, vid := { s.vid with power := 0 } }
  if s.waitList.isEmpty then s else s.leaveIdle.schedule

/-- Stage 2: parked steps are suspended and every other resident context is evicted (R34, R357, R361). -/
def State.napSuspend (s : State) : State :=
  let s := s.openSteps.foldl (fun s x => if x.2.state == .parked then s.setStep x.1 (some { x.2 with state := .suspending, parkedSave := true }) else s) s
  let keep := fun (s : State) (n c : Nat) => s.openSteps.any fun x => x.2.ctx == c && x.2.state == .suspending && x.2.on n
  (List.range 8).foldl (fun s n => ((s.ib n).residents.filter fun r => !keep s n r.2.ctx).foldl
    (fun s r => s.modIb n fun i => i.evict r.2.ctx) s) s

/-- What Nap removes: CLKA, the cache, the splice buffer and Gazelle; every pseudo-channel that has not failed refreshes itself
(R480, Table 10.11). -/
def State.napPower (s : State) : State :=
  let m := { s.mem with lines := [], lineSyn := [], splice := [], splSyn := [], rows := [], retries := [], queue := [], mends := [],
                        power := (List.range 32).foldl (fun t p => if s.pcFailed p then t else Tbl.set .active t p .selfRefresh) s.mem.power }
  { s with mem := m, ibex := [], vid := { s.vid with power := 2 } }

/-- Stage 4 (R33, R409, R480): the Ibex clusters have lost their contents, the cache is empty, HBM is in self-refresh, and the
arithmetic rail will come back at OP9 or the highest point usable. -/
def State.napGate (s : State) : State :=
  let s := (s.survive 64).napPower
  let k := min 9 s.maxOp
  ((s.setEntry 0x1400 0x21 s.maxOp).setEntry 0x1400 0x20 k).modTth fun t =>
    { t with nap := 0, rising := none, hold := false, stretch := false, rail := s.volt k, target := s.volt k }

/-- The device is in Nap (R480). -/
def State.napEnter (s : State) : State := (s.napGate.setEntry 0x1400 0x02 2).countEntry 0x1400 0x36 1

/-- The wake from Nap is complete (R299, R481, Table 14.4): Gazelle decodes on with four credits for each open stream. -/
def State.napExit (s : State) : State :=
  let s := (s.setEntry 0x1400 0x02 1)
  let s := { s with mem := { s.mem with power := s.mem.power.filter fun e => e.2 != PcPower.selfRefresh } }
  let s := (List.range 8).foldl (fun s n => s.modIb n fun i => { i with gated := true }) s
  let s := (List.range 64).foldl (fun s n => if s.strOpen n then s.modStream n fun x => { x with credit := 4 } else s) s
  let s := s.backToIdle
  (List.range 4).foldl (fun s e => s.eeRun e) s

/-- Nothing of Gazelle and preprocessing runs. -/
def State.drained (s : State) : Bool :=
  (List.range 4).all (fun e => (s.eeAt e).isNone && (Tbl.get none s.vid.pre e).isNone) &&
    (List.range 16).all (fun p => (Tbl.get none s.vid.pe p).isNone) && !s.voidsDue

/-- NAP_STAGE_DONE (R480): a stage completes; a wake event then returns the device to Idle, else the next stage begins. Steps that
stage 2 suspended stay suspended. A wake event in stage 4 finds the domains gated: the device wakes as from Nap, and the entry does
not count (Table 14.5; log entry 42). -/
def execNapStageDone (s : State) : Host.Outcome State Fault Refusal :=
  match s.tth.nap with
  | 1 =>
    if !s.drained then go s
    else if s.wake then go s.backToIdle
    else go (({ s with vid := { s.vid with power := 2 } }.modTth fun t => { t with nap := 2 }).napSuspend)
  | 2 =>
    if s.openSteps.any fun x => x.2.state == .suspending then go s
    else if s.wake then go s.backToIdle
    else go (s.modTth fun t => { t with nap := 3 })
  | 3 =>
    let s := s.serveQueues.writeBackAll.flushAll
    if s.wake then go s.backToIdle else go (s.modTth fun t => { t with nap := 4 })
  | 4 => if s.wake then go s.napGate.napExit else go s.napEnter
  | _ => go s

/-- WAKE_EVENT (R481). -/
def execWakeEvent (s : State) : Host.Outcome State Fault Refusal := go s.wakeUp

/-- LINK_L1_EXIT (R481). -/
def execLinkL1Exit (s : State) : Host.Outcome State Fault Refusal := go s.wakeUp

/-! ### Commands (R479, R481, R482, R631) -/

/-- The effect of a value of COMMAND. -/
def State.pwrCommand (s : State) (v : Nat) : Except W16 State :=
  if s.power = 3 then
    (if v = 4 then .ok ((s.modTth fun t => { t with wakeOut := true }).send (.pin "WAKE#" true)) else .error Code.PWR_STATE)
  else if v = 1 then .ok s.wakeUp
  else if v = 2 then (if s.napOk then .ok s.napStart else .error Code.PWR_STATE)
  else if v = 3 then .ok (s.enterStandby false)
  else .error Code.PWR_STATE

/-- RUN (R481). -/
def execRun (o : Origin) (s : State) : Host.Outcome State Fault Refusal := s.dictCmd o 0x1400 0x01 [1] fun s => s.pwrCommand 1

/-- NAP (R479). -/
def execNap (o : Origin) (s : State) : Host.Outcome State Fault Refusal := s.dictCmd o 0x1400 0x01 [2] fun s => s.pwrCommand 2

/-- STANDBY (R482). -/
def execStandby (o : Origin) (s : State) : Host.Outcome State Fault Refusal := s.dictCmd o 0x1400 0x01 [3] fun s => s.pwrCommand 3

/-- WAKE (R482). -/
def execWake (o : Origin) (s : State) : Host.Outcome State Fault Refusal := s.dictCmd o 0x1400 0x01 [4] fun s => s.pwrCommand 4

/-! ### Supplies (R612 to R614) -/

/-- A reading of the 12 V input: V12_MV (R465). -/
def State.volts (s : State) (mv : Nat) : State := (s.setEntry 0x1400 0x26 mv).modTth fun t => { t with v12 := mv }

/-- VIN12_OUT_OF_RANGE (R613): Standby, in every powered state; a trip stands (Table 19.12). -/
def execVin12OutOfRange (mv : Nat) (s : State) : Host.Outcome State Fault Refusal :=
  if !s.pins.vin then go s
  else
    let s := { s with pins := { s.pins with vin := false, onAux := s.pins.aux } }
    let s := if s.power = 3 || !s.start.running then s else s.enterStandby true
    go (s.volts mv)

/-- VIN12_OVERCURRENT (R613). -/
def execVin12Overcurrent (s : State) : Host.Outcome State Fault Refusal :=
  if s.power = 3 || !s.start.running then go s else go (s.enterStandby false)

/-- AUX_SWITCH (R612): the always-on domain changes its source and loses nothing. -/
def execAuxSwitch (inRange : Bool) (s : State) : Host.Outcome State Fault Refusal :=
  go { s with pins := { s.pins with aux := inRange, onAux := inRange } }

end Sys2Proof.Machine
end

