-- ==== Sys2Proof/Machine/Net.lean ====
section
/-! DEFINITION. The field-network node: its identifiers, its choice of a node ID, claims and events (R542 to R555), and the
pins that carry it (R622 to R624). -/

namespace Sys2Proof.Machine

/-- A change of the node's own state. -/
def State.modNode (s : State) (f : Node → Node) : State := { s with node := f s.node }

/-- Boundary cells own the pins (R624). -/
def State.tapOwns (s : State) : Bool :=
  match s.pins.tap with
  | .extest | .extestPulse | .extestTrain | .clamp | .highz => true
  | .bypass | .idcode | .samplePreload => false

/-- Node ID in use (R543, R544). -/
def State.nodeId (s : State) : Nat := s.entry 0x1100 0x01

/-- The node may send and serve: it has an ID, is active and owns its pins (R544, R545, R624). -/
def State.netOn (s : State) : Bool := s.node.mode == 1 && !s.tapOwns

/-- Least CAN FD data length that holds n bytes (R546). -/
def fdLen (n : Nat) : Nat := ([0, 1, 2, 3, 4, 5, 6, 7, 8, 12, 16, 20, 24, 32, 48, 64].find? fun k => decide (n ≤ k)).getD 64

/-- A frame with its padding. -/
def padFrame (bs : List Byte) : List Byte := bs ++ List.replicate (fdLen bs.length - bs.length) 0

/-- BRS of the frames that the node sends: the data rate in force exceeds the nominal rate (R542). -/
def State.brs (s : State) : Bool := decide (s.node.timing.getD 0 0 < s.node.timing.getD 1 0)

/-- Transmitter delay compensation: the data rate in force is above 1 Mbit/s (R542). -/
def State.delayComp (s : State) : Bool := decide (1000 < s.node.timing.getD 1 0)

/-- A frame sent on an identifier of the node. -/
def State.canSend (s : State) (ident : Nat) (bs : List Byte) : State :=
  (s.send (.can ident s.brs s.delayComp (padFrame bs))).countEntry 0x1100 0x11 1

/-- An event frame (R552). -/
def State.netEvent (s : State) (kind : Nat) (code n : Nat) : State :=
  s.canSend (0x300 + s.nodeId) (bytesLE 1 kind ++ bytesLE 1 s.power ++ bytesLE 2 code ++ bytesLE 4 n)

/-- STATE of Table 16.9: a node in error passive of ISO 11898-1 shows 3 (log entry 16). -/
def State.showNode (s : State) : State :=
  let m := s.node.mode
  s.setEntry 0x1100 0x0D (if m = 1 ∧ (128 ≤ s.entry 0x1100 0x15 ∨ 128 ≤ s.entry 0x1100 0x16) then 3 else m)

/-- The node becomes active: it claims its ID and listens (R545). -/
def State.claim (s : State) : State :=
  let s := s.modNode fun n => { n with mode := 1, listening := true }
  if s.tapOwns then s.showNode else s.showNode.netEvent 3 0 0

/-- The node takes its ID and its bit timing and claims (R544, R554, R555): the straps give the ID when they read 1 to 126, otherwise
NODE_ID_CFG; ID 0 is silent. An open transfer closes without a response (R550). -/
def State.nodeStart (s : State) : State :=
  let strap := s.entry 0x1100 0x03
  let ident := if 1 ≤ strap ∧ strap ≤ 126 then strap else s.entry 0x1100 0x02
  let s := s.setEntry 0x1100 0x01 ident
  let s := s.modNode fun n => { n with xfer := none, prev := none, waiting := none, listening := false, mode := 0,
                                       timing := [s.entry 0x1100 0x04, s.entry 0x1100 0x05, s.entry 0x1100 0x06, s.entry 0x1100 0x07] }
  let s := (s.setEntry 0x1100 0x15 0).setEntry 0x1100 0x16 0
  if ident = 0 then s.showNode else s.claim

/-- CLAIM_LISTEN_END (R545): the node serves requests. -/
def execClaimListenEnd (s : State) : Host.Outcome State Fault Refusal := go (s.modNode fun n => { n with listening := false })

/-- HEARTBEAT (R552). -/
def execHeartbeat (s : State) : Host.Outcome State Fault Refusal :=
  if !s.netOn || s.entry 0x1100 0x0A = 0 then go s
  else
    let n := s.node.heartbeats + 1
    go ((s.modNode fun x => { x with heartbeats := n }).netEvent 1 0 n)

/-- ERROR_EVENT (R552): the records since the last event are announced by one event with the SEQ of the newest. -/
def execErrorEvent (s : State) : Host.Outcome State Fault Refusal :=
  match s.log with
  | [] => go s
  | r :: _ =>
    if !s.netOn || s.entry 0x1100 0x0B = 0 || r.seq ≤ s.node.announced then go s
    else go ((s.modNode fun x => { x with announced := r.seq }).netEvent 2 r.code.toNat r.seq)

/-- A dictionary code that the node itself raises (R562). -/
def State.netLog (s : State) (code : W16) : State := s.logDev code 0 0

/-- KDP_DUP_ID (R545): another node uses this node's identifiers. -/
def execKdpDupId (s : State) : Host.Outcome State Fault Refusal :=
  if !s.netOn then go s
  else go ((s.modNode fun n => { n with mode := 2, listening := false, xfer := none, prev := none }).showNode.netLog Code.DICT_KDP_DUP_ID)

/-- CAN_BUS_ERROR (R553): the error counters of ISO 11898-1 as its controller has them after the error (log entry 16). -/
def execCanBusError (tec rec : W16) (s : State) : Host.Outcome State Fault Refusal :=
  if s.node.mode = 0 then go s
  else go ((s.setEntry 0x1100 0x15 tec.toNat).setEntry 0x1100 0x16 rec.toNat).showNode

/-- BUS_OFF (R550, R553): only a node that sends can reach it. -/
def execBusOff (s : State) : Host.Outcome State Fault Refusal :=
  if s.node.mode ≠ 1 then go s
  else
    let s := s.modNode fun n => { n with mode := 4, listening := false, xfer := none, prev := none, waiting := none }
    go ((s.countEntry 0x1100 0x14 1).showNode.netLog Code.DICT_KDP_BUS_OFF)

/-- BUS_OFF_RECOVERY (R553): 128 occurrences of 11 recessive bits; the counters are 0 and the node claims again. -/
def execBusOffRecovery (s : State) : Host.Outcome State Fault Refusal :=
  if s.node.mode ≠ 4 then go s else go ((s.setEntry 0x1100 0x15 0).setEntry 0x1100 0x16 0).claim

/-- BAD_FRAME (R542, R547): a classic, remote or 29-bit frame on the node's identifiers is ignored and counted. -/
def execBadFrame (s : State) : Host.Outcome State Fault Refusal :=
  if s.tapOwns then go s else go (s.countEntry 0x1100 0x12 1)

/-- CAN_TERM_CHANGE (R622). -/
def execCanTermChange (high : Bool) (s : State) : Host.Outcome State Fault Refusal :=
  go { s with pins := { s.pins with term := high } }

end Sys2Proof.Machine
end

