-- ==== Sys2Proof/Machine/Start.lean ====
section
/-! DEFINITION. Starts, images, the firmware update and attestation (R563 to R592), and the supply events that begin or end
everything (R612, R614). -/

namespace Sys2Proof.Machine

/-- An entry of index 0x1300. -/
abbrev State.st (s : State) (sub : Nat) : Nat := s.entry 0x1300 sub
/-- The state with an entry of index 0x1300 written. -/
abbrev State.setSt (s : State) (sub v : Nat) : State := s.setEntry 0x1300 sub v

/-! ### Measurements (R583) -/

/-- The 512-bit digest of bytes. -/
def digest (bs : List Byte) : List Byte := shake256 bs 64

/-- Measurement register k. -/
def State.mr (s : State) (k : Nat) : List Byte := Tbl.get (List.replicate 64 0) s.start.mrs k

/-- Register k extended by a digest. -/
def State.extendMr (s : State) (k : Nat) (d : List Byte) : State :=
  s.modStart fun x => { x with mrs := Tbl.set (List.replicate 64 0) x.mrs k (digest (s.mr k ++ d)) }

/-! ### Images (R570, R571, R575) -/

/-- Slot size of a kind (Table 17.3). -/
def slotSize (kind : Nat) : Nat := if kind = 1 then 0x1000000 else 0x800000

/-- The vendor public key. -/
def vendorKey : List Byte := (List.range 64).map Sys2Proof.Config.vendorKey
/-- Its fused 256-bit hash (R571). -/
def vendorHash : List Byte := shake256 vendorKey 32

/-- Interface version that the images of R4 declare, by kind (R541). -/
def ifaceOf (kind : Nat) : Nat := if kind = 1 then 0x00030200 else 0x00020400

/-- The image of R4 in an A slot (R541, R570, R574): versions and TESTED lists as R541 states them. -/
def factoryImage (i : Nat) : List Byte :=
  let kind := if i < 2 then 1 else 2
  let len := 1 + Sys2Proof.Config.factoryLen i % (slotSize kind - 33888)
  bytesLE 4 0x4D56494D ++ bytesLE 1 kind ++ List.replicate 3 0 ++ bytesLE 4 (ifaceOf kind) ++ bytesLE 4 (ifaceOf kind) ++
    bytesLE 4 (Sys2Proof.Config.factoryRollback i % 65) ++ bytesLE 4 len ++ [1] ++ List.replicate 7 0 ++
    bytesLE 4 (ifaceOf (3 - kind)) ++ List.replicate 92 0 ++ vendorKey ++ List.replicate 3904 0 ++
    (List.range len).map (Sys2Proof.Config.factoryBody i) ++ (List.range 29792).map (Sys2Proof.Config.factorySig i)

/-- The bytes in a slot: 0 Oryx A, 1 Oryx B, 2 Gazelle A, 3 Gazelle B; past the image the flash is erased. -/
def State.slotBytes (s : State) (i : Nat) : List Byte :=
  (Tbl.get none s.start.slots i).getD (if i % 2 = 0 then factoryImage i else Sys2Proof.Config.factorySlotB i)

/-- `n` bytes from an offset; erased flash reads 0xFF. -/
def flashBytes (img : List Byte) (o n : Nat) : List Byte :=
  let b := (img.drop o).take n
  b ++ List.replicate (n - b.length) 0xFF

/-- A little-endian field of an image. -/
def imgF (img : List Byte) (o n : Nat) : Nat := natLE (flashBytes img o n)

/-- Check 1 of Table 17.5 for the kind of the slot. -/
def headerOk (kind : Nat) (img : List Byte) : Bool :=
  let zero := fun (lo hi : Nat) => (flashBytes img lo (hi - lo)).all (· == 0)
  imgF img 0 4 == 0x4D56494D && imgF img 4 1 == kind && zero 5 8 && decide (1 ≤ imgF img 0x14 4) &&
    decide (imgF img 0x14 4 ≤ slotSize kind - 33888) && decide (1 ≤ imgF img 0x18 1) && decide (imgF img 0x18 1 ≤ 16) &&
    zero 0x19 0x20 && zero 0x60 0x80 && zero 0xC0 0x1000

/-- Header and body. -/
def imgMessage (img : List Byte) : List Byte := flashBytes img 0 (4096 + imgF img 0x14 4)

/-- Checks of Table 17.5: the first that fails, with the STATE that SLOT_INFO then shows. `full` asks for the signature check. -/
def State.imageCode (s : State) (kind : Nat) (img : List Byte) (full : Bool) : Option (W16 × Nat) :=
  if !headerOk kind img then some (Code.START_IMG_HDR, 2)
  else if shake256 (flashBytes img 0x80 64) 32 ≠ vendorHash then some (Code.START_KEY, 3)
  else if full && !Sys2Proof.Config.slhVerify (flashBytes img 0x80 64) (imgMessage img)
      (flashBytes img (4096 + imgF img 0x14 4) 29792) then some (Code.START_SIG, 3)
  else if imgF img 0x10 4 < s.st (0x17 + kind) then some (Code.START_ROLLBACK, 4)
  else none

/-- Interface versions match but for the patch number (R575). -/
def ifaceMatch (a b : Nat) : Bool := a / 256 % 65536 == b / 256 % 65536

/-- The image's TESTED list names an interface version. -/
def testedWith (img : List Byte) (v : Nat) : Bool :=
  (List.range (imgF img 0x18 1)).any fun i => ifaceMatch (imgF img (0x20 + 4 * i) 4) v

/-- The slots of a pair. -/
def pairSlots (p : Nat) : Nat × Nat := (p % 2, 2 + p / 2 % 2)

/-- The pair was tested together (R575). -/
def State.tested (s : State) (p : Nat) : Bool :=
  let o := s.slotBytes (pairSlots p).1
  let g := s.slotBytes (pairSlots p).2
  testedWith o (imgF g 0x0C 4) && testedWith g (imgF o 0x0C 4)

/-- STATE of SLOT_INFO of a slot. -/
def State.setSlotState (s : State) (i v : Nat) : State := s.modStart fun x => { x with slotState := Tbl.set 0 x.slotState i v }

/-! ### The start record (R574, R576, R577) -/

/-- The record's values as the entries show them. -/
def State.showRecord (s : State) : State :=
  let r := s.start.record
  (((s.setSt 0x05 (r.active + if r.trial then 128 else 0)).setSt 0x06 (r.lkg + if r.lkgValid then 128 else 0)).setSt 0x07 r.fails).setSt
    0x08 r.switches

/-- The record written. -/
def State.setRecord (s : State) (r : StartRec) : State := (s.modStart fun x => { x with record := r }).showRecord

/-- The 8 bytes that MR4 measures (Table 17.6). -/
def State.mr4Bytes (s : State) : List Byte :=
  [s.st 0x04, s.st 0x03, if s.start.bootSel then 1 else 0, s.entry 0x1100 0x03, s.st 0x05, s.st 0x06, s.st 0x07, s.st 0x08].flatMap (bytesLE 1)

/-- Entry into recovery (R578): MODE, MR4, the codes of the start, and the node. -/
def State.enterRecovery (s : State) (mode ms : Nat) : State :=
  let s := ((s.setSt 0x02 14).setSt 0x03 mode).setSt 0x0B ms
  let s := (s.extendMr 4 (digest s.mr4Bytes)).romLog Code.START_RECOVERY mode
  s.flushCodes.nodeStart

/-- The boot ROM chooses a pair and counts the start (R576, R577): recovery where no pair is left. -/
def State.choosePair (s : State) (ms : Nat) : State :=
  let r := s.start.record
  if 3 ≤ r.fails ∧ 2 ≤ r.switches then s.enterRecovery 1 ms
  else
    let back := r.lkgValid && r.lkg != r.active
    let r' := if r.fails < 3 then r
              else { r with switches := r.switches + 1, fails := 0, active := if back then r.lkg else 3 - r.active, trial := !back }
    let s := if r.fails < 3 then s else s.romLog Code.START_SLOT_SWITCH 0
    ((s.setRecord { r' with fails := r'.fails + 1 }).modStart fun x => { x with runs := r'.active }).setSt 0x02 3

/-- A check of the pair failed: the next candidate within the same start (R577). -/
def State.nextCandidate (s : State) (code : W16) (ms : Nat) : State :=
  ((s.romLog code 0).setRecord { s.start.record with fails := 3 }).choosePair ms

/-- Bits of a rollback counter blown up to the image's index; a blow that does not read back leaves the count at the value read
(R580). The spec does not say which blows fail: a fresh value does (log entry 3). -/
def State.blow (s : State) (kind slot : Nat) : State :=
  let want := min 64 (imgF (s.slotBytes slot) 0x10 4)
  let have0 := s.st (0x17 + kind)
  if want ≤ have0 then s
  else
    let (w, s) := s.freshWord
    let k := w.toNat % (want - have0 + 1)
    let s := s.setSt (0x17 + kind) (want - k)
    if k = 0 then s else s.startLog Code.START_FUSE 0

/-- ADVANCE for the active pair (R580). -/
def State.advance (s : State) : State :=
  let p := pairSlots s.start.record.active
  (s.blow 1 p.1).blow 2 p.2

/-- The active pair is confirmed (R576, R580). -/
def State.confirmPair (s : State) : State :=
  let s := s.setRecord { s.start.record with fails := 0, switches := 0, trial := false, lkg := s.start.record.active, lkgValid := true }
  if s.st 0x0A = 1 then s.advance else s

/-! ### Stages (R564) -/

/-- The image of a slot loaded and checked (R571, R573): a warm start checks the signature only where the flash has changed or the
bytes do not give the kept digest. An image that passes is measured. -/
def State.loadImage (s : State) (kind slot : Nat) : Except W16 State :=
  let img := s.slotBytes slot
  let d := digest img
  let full := s.start.cold || Tbl.get false s.start.changed slot || Tbl.get none s.start.kept slot != some d
  match s.imageCode kind img full with
  | some c => .error c.1
  | none =>
    let s := s.modStart fun x => { x with kept := Tbl.set none x.kept slot (some d), changed := Tbl.set false x.changed slot false }
    .ok ((s.setSlotState slot 1).extendMr kind (digest (imgMessage img)))

/-- Stage 3 or 4: load, or the next candidate. ROUTINE_VER is 0x00030200 with every Oryx image, whose header has no field for it
(Table 17.4): DESIGN CHOICE, log entry 58. -/
def State.imageStage (s : State) (kind slot ms : Nat) : State :=
  match s.loadImage kind slot with
  | .error c =>
    let st := ((s.imageCode kind (s.slotBytes slot) true).map (·.2)).getD 3
    (s.setSlotState slot st).nextCandidate c ms
  | .ok s =>
    let img := s.slotBytes slot
    if kind = 1 then
      (((s.setEntry 0x1000 0x06 (imgF img 8 4)).setEntry 0x1000 0x09 (imgF img 0x0C 4)).setEntry 0x1000 0x08 0x00030200).setSt 0x02 4
    else ((s.setEntry 0x1000 0x07 (imgF img 8 4)).setEntry 0x1000 0x0A (imgF img 0x0C 4)).setSt 0x02 5

/-- Offsets of the registers that the parameter block sets (R392). -/
def paramRegs : List Nat :=
  [0x10, 0x18, 0x20, 0x28, 0x30, 0x40, 0x48, 0x50, 0x58, 0x60, 0x68, 0x70, 0x78].map (memBase + ·) ++
    (List.range 32).map fun p => pcReg p 8

/-- The parameter block's masks meet R387 and R402. -/
def paramMasksOk : Bool :=
  let v := fun o => (Sys2Proof.Config.paramValue (memBase + o)).toNat
  ((List.range 5).all fun k => decide (v (0x10 + 8 * k) < 2 ^ 19)) &&
    (List.range 4).all fun k => v (0x40 + 8 * k) % 2 ^ 14 == 2 ^ (10 + k) && decide (v (0x40 + 8 * k) < 2 ^ 28) &&
      v (0x60 + 8 * k) % 16 == 2 ^ k && decide (v (0x60 + 8 * k) < 2 ^ 32)

/-- Stage 6 (R392, R572, R573): the masks and delays of a parameter block that is verified and meets R387 and R402, or the ROM defaults; then
MEM_STATUS shows READY (Table 11.10). A warm start takes the block without a signature check where its bytes give the kept digest (its
region of the flash is written at test alone). A delay register holds 32 bits. -/
def State.paramStage (s : State) (sigOk : Bool) : State :=
  let s := s.setField memBase 0 1 1
  let d := digest Sys2Proof.Config.paramBlock
  let ok := sigOk || !s.start.cold && Tbl.get none s.start.kept 4 == some d
  let s := if ok then s.modStart fun x => { x with kept := Tbl.set none x.kept 4 (some d) } else s
  if ok && paramMasksOk then
    let s := paramRegs.foldl (fun s o => s.setReg o (BitVec.ofNat 64 ((Sys2Proof.Config.paramValue o).toNat % 2 ^ 32))) s
    ((s.setField memBase 1 1 0).setEntry 0x1500 0x0A 0).extendMr 3 d
  else
    let s := (s.dropRegs fun k => paramRegs.contains k).romLog Code.MEM_PARAM_BLOCK 0
    ((s.setField memBase 1 1 1).setEntry 0x1500 0x0A 1).extendMr 3 (digest (List.replicate 64 0))

/-- Stage 7 (R32, R461): the arithmetic rail at the nominal point, or at OP0 with 950 mV where the fused table fails. -/
def State.railStage (s : State) : State :=
  let ok := s.fuseOk
  let k := if ok then 9 else 0
  let s := (s.setEntry 0x1400 0x20 k).setEntry 0x1400 0x21 s.maxOp
  let s := s.modTth fun t => { t with rail := s.volt k, target := s.volt k, rising := none }
  if ok then s else s.romLog Code.PWR_FUSE 0

/-- The two copies of the store may differ in the set whose commit a loss of power cut off: the start finds its previous values or its new
ones, all of them, and rebuilds the other copy (R534). A fresh value says which, and STORE_STATE shows it. -/
def State.mendStore (s : State) : State :=
  match s.start.torn with
  | none => s.setEntry 0x1000 0x21 0
  | some sets =>
    let (w, s) := s.freshWord
    let s := if w.getLsbD 0 then sets.foldl (fun s x => s.setEntry (x.1 / 256) (x.1 % 256) x.2.toNat) s else s
    (s.modStart fun x => { x with torn := none }).setEntry 0x1000 0x21 1

/-- An RWP entry. -/
def isRwp (key : Nat) : Bool :=
  match dictRow (key / 256) (key % 256) with
  | some r => r.acc == .rwp
  | none => false

/-- READY (R564, R576, R592). -/
def State.becomeStarted (s : State) (ms : Nat) : State :=
  let s := ((s.setSt 0x02 11).setSt 0x0B ms).flushCodes
  (if s.start.record.trial then s else s.confirmPair).nodeStart

/-- Stage 10 (R410, R441, R534): the store, the Coil's layout, MR4, and READY. A store with both copies bad gives the defaults. -/
def State.configStage (s : State) (ok : Bool) (ms : Nat) : State :=
  let s := if ok then s.mendStore else ((s.dropEntries isRwp).modStart fun x => { x with torn := none }).setEntry 0x1000 0x21 2
  let mib := s.entry 0x1500 0x03
  let s := ({ s with mem := { s.mem with common := mib } }.setEntry 0x1500 0x04 mib).layoutCoil s.start.cold
  (s.extendMr 4 (digest s.mr4Bytes)).becomeStarted ms

/-- Stage 2 (R576, R577): the start is counted, and a pair chosen. -/
def State.recordStage (s : State) (ok : Bool) (ms : Nat) : State :=
  if !ok then s.enterRecovery 1 ms
  else
    let s := (s.countEntry 0x1300 0x0D 1).showRecord
    if s.start.bootSel then s.enterRecovery 2 ms else s.choosePair ms

/-- Each bit takes the majority of its three samples (R566). -/
def majority (a b c : Byte) : Byte := (a &&& b) ||| (a &&& c) ||| (b &&& c)

/-- START_STAGE_DONE (R564): the stage in progress completes. -/
def execStartStageDone (r : StageResult) (s : State) : Host.Outcome State Fault Refusal :=
  if !s.start.running || s.start.halted || s.power = 3 then go s
  else
    let p := pairSlots s.start.record.active
    match s.stage with
    | 0 =>
      if !r.ok then go (s.modStart fun x => { x with halted := true })
      else go ((s.extendMr 0 (digest (Sys2Proof.Config.bootRom ++ vendorHash ++ bytesLE 1 (s.st 0x18) ++
        bytesLE 1 (s.st 0x19)))).setSt 0x02 1)
    | 1 =>
      let b := majority r.strap0 r.strap1 r.strap2
      go (((s.setEntry 0x1100 0x03 (b.toNat % 128)).modStart fun x => { x with bootSel := b.getLsbD 7 }).setSt 0x02 2)
    | 2 => go (s.recordStage r.ok r.ms)
    | 3 => go (s.imageStage 1 p.1 r.ms)
    | 4 => go (s.imageStage 2 p.2 r.ms)
    | 5 => if s.tested s.start.record.active then go (s.setSt 0x02 6) else go (s.nextCandidate Code.START_PAIR_UNTESTED r.ms)
    | 6 => go ((s.paramStage r.ok).setSt 0x02 7)
    | 7 => go (s.railStage.setSt 0x02 8)
    | 8 => if s.start.cold && !r.ok then go ((s.romLog Code.START_BIST 0).enterRecovery 3 r.ms) else go (s.setSt 0x02 9)
    | 9 =>
      let m : Mem := if s.start.cold then {} else { s.mem with power := [] }
      go ({ s with mem := m }.setSt 0x02 10)
    | 10 => go (s.configStage r.ok r.ms)
    | _ => go s

/-! ### Beginning a start (R563) -/

/-- Start state that every start keeps: what flash and the always-on domain hold. -/
def Start.fresh (x : Start) (cold : Bool) : Start :=
  { record := x.record, slots := x.slots, kept := x.kept, changed := x.changed, torn := x.torn, running := true, cold := cold }

/-- A cold start begins (Table 17.1): the measurement registers are zero and stage 0 runs. -/
def State.beginCold (s : State) (kind : Nat) : State :=
  let s := { (s.dieReset false) with start := s.start.fresh true, node := { announced := s.node.announced } }
  (((s.setEntry 0x1400 0x02 0).setSt 0x02 0).setSt 0x03 0).setSt 0x04 kind

/-- An RWP commit in progress is cut off (R534). -/
def State.tearCommit (s : State) : State :=
  let torn := match s.store.commits with
    | c :: _ => some c.sets
    | [] => s.start.torn
  { (s.modStart fun x => { x with torn := torn }) with store := {} }

/-- A warm start (Table 17.1): streams close and contexts are disabled without records, the splice buffer and the cache go to HBM,
which waits in self-refresh, and the die is reset. -/
def State.warmStart (s : State) (kind : Nat) : State :=
  let s := (s.tearCommit).serveQueues.writeBackAll.flushAll
  let s := (s.survive 2).dieReset true
  let pcs := (List.range 32).foldl (fun t p => Tbl.set PcPower.active t p PcPower.selfRefresh) []
  let s := { s with mem := { s.mem with power := pcs }, start := s.start.fresh false, node := { announced := s.node.announced },
                    tth := { temps := s.tth.temps, stack := s.tth.stack, v12 := s.tth.v12, cold := s.tth.cold, tripOut := s.tth.tripOut,
                             wakeOut := s.tth.wakeOut } }
  s.setSt 0x04 kind

/-- COLD_START (R563, R614): both supplies are in range after power-on. -/
def execColdStart (s : State) : Host.Outcome State Fault Refusal :=
  if s.start.running || s.power = 3 then go s
  else go ({ s with pins := { s.pins with vin := true, aux := true, onAux := true } }.beginCold 0)

/-- VIN12_RETURN (R613, Table 14.3): a start event where VIN12 had caused Standby and no trip stands. -/
def execVin12Return (mv : Nat) (s : State) : Host.Outcome State Fault Refusal :=
  let s := { s with pins := { s.pins with vin := true } }
  if s.power = 3 && s.tth.byRange && !s.tth.tripOut then go ((s.beginCold 1).volts mv) else go (s.volts mv)

/-- START_TIMEOUT (R568): a start that has reached neither READY nor recovery in time. -/
def execStartTimeout (s : State) : Host.Outcome State Fault Refusal :=
  if !s.start.running || s.start.halted || s.power = 3 || 11 ≤ s.stage then go s
  else go (((s.romLog Code.START_TIMEOUT 0).flushCodes).warmStart 5)

/-- Oryx runs: from the pair check of a start on (R577). -/
def State.oryxRuns (s : State) : Bool :=
  s.start.running && !s.start.halted && s.power != 3 && decide (6 ≤ s.stage) && decide (s.stage ≤ 11)

/-- ORYX_WATCHDOG (R579). -/
def execOryxWatchdog (s : State) : Host.Outcome State Fault Refusal :=
  if s.oryxRuns then go ((s.flushCodes.startLog Code.START_WATCHDOG 0).warmStart 3) else go s

/-- ORYX_UE (R579). -/
def execOryxUe (s : State) : Host.Outcome State Fault Refusal :=
  if s.oryxRuns then go ((s.flushCodes.startLog Code.START_ORYX_UE 0).warmStart 4) else go s

/-- POWER_LOSS (R612, R619, R629): only what fuses and flash hold stays, and the level at CAN_TERM, which the board sets (R622); the outputs
are released. -/
def execPowerLoss (s : State) : Host.Outcome State Fault Refusal :=
  let s := s.tearCommit
  let x := s.start
  let s' := { State.reset with
    pending := s.pending
    fresh := s.fresh
    out := s.out ++ [.pin "THERMTRIP#" false, .pin "WAKE#" false]
    hp := { txBase := sentBytes s.out }
    pins := { term := s.pins.term }
    dict := (s.survive 1).dict
    start := { record := x.record, slots := x.slots, torn := x.torn } }
  go s'

/-! ### Start commands (R563, R576, R580, R590) -/

/-- READY or recovery, powered. -/
def State.served (s : State) : Bool := (s.stage == 11 || s.stage == 14) && s.power != 3

/-- The effect of a value of START_CMD. -/
def State.startCommand (s : State) (v : Nat) : Except W16 State :=
  if v = 1 then
    (if !s.served then .error Code.START_STATE
     else if s.st 0x23 = 3 then .ok (s.modStart fun x => { x with warmDue := true })
     else .ok (s.warmStart 2))
  else if v = 2 then (if s.stage = 11 ∧ s.power ≠ 3 ∧ s.start.record.trial then .ok s.confirmPair else .error Code.START_STATE)
  else if v = 3 then (if s.stage = 11 ∧ s.power ≠ 3 ∧ !s.start.record.trial then .ok s.advance else .error Code.START_STATE)
  else .error Code.START_DICT_RANGE

/-- WARM. -/
def execWarm (o : Origin) (s : State) : Host.Outcome State Fault Refusal := s.dictCmd o 0x1300 0x01 [1] fun s => s.startCommand 1

/-- CONFIRM. -/
def execConfirm (o : Origin) (s : State) : Host.Outcome State Fault Refusal := s.dictCmd o 0x1300 0x01 [2] fun s => s.startCommand 2

/-- ADVANCE. -/
def execAdvance (o : Origin) (s : State) : Host.Outcome State Fault Refusal := s.dictCmd o 0x1300 0x01 [3] fun s => s.startCommand 3

/-- CONFIRM_TIMER (R576): CONFIRM_S seconds in READY. -/
def execConfirmTimer (s : State) : Host.Outcome State Fault Refusal :=
  if s.stage = 11 ∧ s.power ≠ 3 ∧ s.start.record.trial ∧ s.st 0x09 ≠ 0 then go s.confirmPair else go s

/-! ### Firmware update (R581, R582) -/

/-- Target slot of an update of a kind: the one that ACTIVE does not use. -/
def State.target (s : State) (kind : Nat) : Nat :=
  let p := pairSlots s.start.record.active
  if kind = 1 then 1 - p.1 else 5 - p.2

/-- Buffer of the staging owner, if it holds one (R444). -/
def State.staging (s : State) : Option Nat := ((s.granted 7).find? fun b => b.2 == 0x800).map (·.1)

/-- The staging buffer returns. -/
def State.freeStaging (s : State) : State :=
  match s.staging with
  | some k => s.freeBuf 7 k
  | none => s

/-- Bytes of a slot changed in flash (R573). -/
def State.program (s : State) (i : Nat) (bs : List Byte) : State :=
  s.modStart fun x => { x with slots := Tbl.set none x.slots i (some bs), changed := Tbl.set false x.changed i true }

/-- The update has failed (R581). -/
def State.updFail (s : State) (code : W16) : State :=
  (((s.setSt 0x23 5).setSt 0x27 code.toNat).startLog code 0).freeStaging

/-- UPD_BEGIN. In Standby neither Oryx nor the boot ROM serves an update: START_STATE (R590; log entry 44). -/
def State.updBegin (s : State) (v : List Byte) : Except W16 State :=
  let kind := recField v 0 1
  let len := recField v 4 4
  let st := s.st 0x23
  if !s.served then .error Code.START_STATE
  else if s.start.record.trial || (1 ≤ st && st ≤ 3) then .error Code.START_UPD_STATE
  else if kind ≠ 1 ∧ kind ≠ 2 ∨ recField v 1 3 ≠ 0 ∨ len < 33889 ∨ slotSize kind < len then .error Code.START_DICT_RANGE
  else
    let s := ((s.setSt 0x23 1).setSt 0x24 0).setSt 0x27 0
    let s := s.modStart fun x => { x with updKind := kind, updSlot := s.target kind, updLen := len, updData := [] }
    if s.stage = 11 ∧ s.staging.isNone then .ok ((s.coilGrantNow 0x800 67108864).map (·.1) |>.getD s)
    else .ok s

/-- UPD_CHUNK: in READY the bytes go to the staging buffer, in recovery to the target slot (R582). -/
def State.updChunk (s : State) (v : List Byte) : Except W16 State :=
  let o := recField v 0 4
  let got := s.st 0x24
  let keep := min 4096 (s.start.updLen - got)
  let data := (v.drop 4).take keep
  if s.st 0x23 ≠ 1 then .error Code.START_UPD_STATE
  else if o ≠ got || !(v.drop (4 + keep)).all (· == 0) then .error Code.START_UPD_SEQ
  else
    let s := (s.setSt 0x24 (got + keep)).modStart fun x => { x with updData := x.updData ++ data }
    if s.stage = 14 then
      .ok ((s.program s.start.updSlot s.start.updData).setSlotState s.start.updSlot 0)
    else .ok (match s.staging with | some k => s.memPut (s.bufAddr 7 k + got) data | none => s)

/-- UPD_END: the whole image is checked before the slot is erased; in recovery the slot is checked (R581, R582). -/
def State.updEnd (s : State) (v : Nat) : Except W16 State :=
  if s.st 0x23 ≠ 1 then .error Code.START_UPD_STATE
  else if v ≠ 1 then .error Code.START_DICT_RANGE
  else if s.st 0x24 < s.start.updLen then .error Code.START_UPD_SEQ
  else
    let img := s.start.updData
    let t := s.start.updSlot
    match s.imageCode s.start.updKind img true with
    | some c => .ok (s.updFail c.1)
    | none =>
      let s := s.extendMr 5 (digest img)
      if s.stage = 14 then .ok (((s.program t img).setSlotState t 1).setSt 0x23 4)
      else .ok (((s.program t []).setSlotState t 0).setSt 0x23 3)

/-- UPD_PROGRAM_DONE (R582): the slot is read back; a warm start that waited begins (Table 17.9). -/
def execUpdProgramDone (flashOk : Bool) (s : State) : Host.Outcome State Fault Refusal :=
  if s.st 0x23 ≠ 3 then go s
  else
    let t := s.start.updSlot
    let s := if flashOk then (((s.program t s.start.updData).setSlotState t 1).setSt 0x23 4).freeStaging else s.updFail Code.START_FLASH
    if s.start.warmDue then go (s.warmStart 2) else go s

/-- UPD_ACTIVATE. -/
def State.updActivate (s : State) (v : Nat) : Except W16 State :=
  let p := pairSlots s.start.record.active
  let pair := if s.start.updKind = 1 then s.start.updSlot + 2 * (p.2 - 2) else p.1 + 2 * (s.start.updSlot - 2)
  if s.st 0x23 ≠ 4 then .error Code.START_UPD_STATE
  else if v ≠ 1 then .error Code.START_DICT_RANGE
  else if !s.tested pair then .error Code.START_PAIR_UNTESTED
  else
    let s := s.setRecord { s.start.record with active := pair, trial := true, fails := 0, switches := 0 }
    .ok (s.extendMr 5 (digest (bytesLE 1 (s.st 0x05) ++ bytesLE 1 (s.st 0x06))))

/-- UPD_ABORT. -/
def State.updAbort (s : State) (v : Nat) : Except W16 State :=
  if s.st 0x23 = 3 then .error Code.START_UPD_STATE
  else if v ≠ 1 then .error Code.START_DICT_RANGE
  else .ok ((s.setSt 0x23 0).freeStaging)

/-- UPD_BEGIN. -/
def execUpdBegin (o : Origin) (value : List Byte) (s : State) : Host.Outcome State Fault Refusal :=
  s.dictCmd o 0x1300 0x20 value fun s => s.updBegin value

/-- UPD_CHUNK. -/
def execUpdChunk (o : Origin) (value : List Byte) (s : State) : Host.Outcome State Fault Refusal :=
  s.dictCmd o 0x1300 0x21 value fun s => s.updChunk value

/-- UPD_END. -/
def execUpdEnd (o : Origin) (v : Byte) (s : State) : Host.Outcome State Fault Refusal :=
  s.dictCmd o 0x1300 0x22 [v] fun s => s.updEnd v.toNat

/-- UPD_ACTIVATE. -/
def execUpdActivate (o : Origin) (v : Byte) (s : State) : Host.Outcome State Fault Refusal :=
  s.dictCmd o 0x1300 0x25 [v] fun s => s.updActivate v.toNat

/-- UPD_ABORT. -/
def execUpdAbort (o : Origin) (v : Byte) (s : State) : Host.Outcome State Fault Refusal :=
  s.dictCmd o 0x1300 0x26 [v] fun s => s.updAbort v.toNat

/-! ### Attestation (R584 to R587) -/

/-- EXTEND (R584). -/
def State.extendCmd (s : State) (v : List Byte) : Except W16 State :=
  let k := recField v 0 1
  if k = 6 ∨ k = 7 then .ok (s.extendMr k (v.drop 1)) else .error Code.START_EXTEND

/-- EXTEND. -/
def execExtend (o : Origin) (value : List Byte) (s : State) : Host.Outcome State Fault Refusal :=
  s.dictCmd o 0x1300 0x38 value fun s => s.extendCmd value

/-- The report body (Table 17.7) with a sequence number. -/
def State.reportBody (s : State) (n : Nat) : List Byte :=
  let e := fun idx sub k => bytesLE k (s.entry idx sub)
  bytesLE 4 0x4D564154 ++ bytesLE 2 1 ++ e 0x1000 0x03 1 ++ [0] ++ e 0x1000 0x05 8 ++ bytesLE 8 0x3141 ++
    e 0x1000 0x06 4 ++ e 0x1000 0x07 4 ++ e 0x1000 0x08 4 ++ e 0x1300 0x05 1 ++ e 0x1300 0x06 1 ++ e 0x1300 0x03 1 ++ e 0x1300 0x04 1 ++
    e 0x1300 0x18 1 ++ e 0x1300 0x19 1 ++ [0, 0] ++ e 0x1300 0x0D 4 ++ bytesLE 4 n ++ e 0x4000 0x01 4 ++ bytesLE 8 0 ++
    s.start.nonce ++ bytesLE 32 0 ++ (List.range 8).flatMap s.mr

/-- ATT_REQ (R587): the body is captured at the write. -/
def State.attReq (s : State) (v : Nat) : Except W16 State :=
  if s.st 0x42 = 1 then .error Code.START_ATT_BUSY
  else if s.stage ≠ 11 ∨ s.start.pk.isNone then .error Code.START_STATE
  else if v ≠ 1 then .error Code.START_DICT_RANGE
  else
    let n := s.start.reports + 1
    .ok ((s.modStart fun x => { x with body := s.reportBody n, reports := n }).setSt 0x42 1)

/-- ATT_REQ. -/
def execAttReq (o : Origin) (v : Byte) (s : State) : Host.Outcome State Fault Refusal :=
  s.dictCmd o 0x1300 0x41 [v] fun s => s.attReq v.toNat

/-- SK.seed, SK.prf and PK.seed (R585). -/
def deviceSeeds : List Byte :=
  shake256 ([0x4D, 0x56, 0x39, 0x30, 0x36, 0x34, 0x2D, 0x41, 0x54, 0x54, 0x45, 0x53, 0x54] ++ Sys2Proof.Config.deviceSeed) 96

/-- DEVICE_PK: PK.seed and PK.root (R585). -/
def devicePk : List Byte := deviceSeeds.drop 64 ++ (List.range 32).map (Sys2Proof.Config.slhRoot deviceSeeds)

/-- DEVICE_CERT (R586). -/
def State.deviceCert (s : State) : List Byte :=
  bytesLE 4 0x4D564345 ++ bytesLE 2 1 ++ bytesLE 1 (s.entry 0x1000 0x03) ++ [0] ++ bytesLE 8 (s.entry 0x1000 0x05) ++ devicePk ++
    bytesLE 4 (s.entry 0x4000 0x01) ++ List.replicate 12 0 ++ (List.range 29792).map Sys2Proof.Config.certByte

/-- ATT_SIGN_DONE (R587): the signature of 49,856 bytes follows the body. -/
def execAttSignDone (s : State) : Host.Outcome State Fault Refusal :=
  if s.st 0x42 ≠ 1 then go s
  else
    let b := s.start.body
    let sig := (List.range 49856).map (Sys2Proof.Config.slhSign deviceSeeds b)
    go ((s.modStart fun x => { x with report := b ++ sig }).setSt 0x42 2)

/-- DEVICE_PK_DERIVED (R585). -/
def execDevicePkDerived (s : State) : Host.Outcome State Fault Refusal :=
  if s.stage ≠ 11 ∨ s.start.pk.isSome then go s
  else go (s.modStart fun x => { x with pk := some devicePk })

end Sys2Proof.Machine
end

