-- ==== Sys2Proof/Machine/HostPort.lean ====
section
/-! DEFINITION. The PCIe host port (R489 to R525): the data port, completion-ring registers, function registers, translations,
Bus Master Enable, containment, and the resets. -/

namespace Sys2Proof.Machine

/-- Registers of function k in the host-port block (Table 15.7). -/
def fnCtl (k : Nat) : Nat := hpBase + 0x100 + 8 * k
/-- DP_BASEk. -/
def dpBase (k : Nat) : Nat := hpBase + 0x400 + 16 * k
/-- DP_PTRk. -/
def dpPtr (k : Nat) : Nat := hpBase + 0x408 + 16 * k

/-- A host-port code attributed to function k: the error log, HP_ERR and HP_FNERRk (R504, R525). -/
def State.hpLog (s : State) (code : W16) (k kind obj detail : Nat) : State := (s.rejectV code k kind obj detail).famErr code k

/-- A host-port code of the device's own finding about function k. -/
def State.hpDev (s : State) (code : W16) (k detail : Nat) : State := (s.logErr code originDev 9 k detail (some k)).famErr code k

/-! ### The data port (R495 to R497) -/

/-- A context of function k that is READY or FAULTED: its window and Coil buffers are in the function's permitted range (R496). -/
def State.mayTouch (s : State) (k a : Nat) : Bool :=
  (List.range 1024).any fun c =>
    s.ctx c 0x03 == k && (s.ctxState c == 2 || s.ctxState c == 3) &&
      ((decide (s.ctx c 0x07 ≤ a) && decide (a < s.ctx c 0x07 + s.ctx c 0x06)) ||
        match s.bufHolding a with
        | some (n, b) => (s.buf n b).owner == some (0x100 + c)
        | none => false)

/-- Every byte of an access names a location of one aperture (R384). -/
def State.addrsOk (s : State) (a n : Nat) : Bool :=
  n == 0 || (s.addrOk a && s.addrOk (a + n - 1) && decide (a / 2 ^ 35 = (a + n - 1) / 2 ^ 35))

/-- Every byte of an access of function k lies in its permitted range (R496). -/
def State.dpOk (s : State) (k a n : Nat) : Bool :=
  s.addrsOk a n && (k == 0 || (List.range n).all fun i => s.mayTouch k (a + i))

/-- A data-port write to an address (R495, R497); what a failed pseudo-channel refuses is lost (R393). -/
def State.dpWrite (s : State) (k a : Nat) (bs : List Byte) : Option State :=
  if s.dpOk k a bs.length then some (s.memPut a bs) else none

/-- An error of function k in its AER status (Table 15.1). -/
def State.aerNote (s : State) (k : Nat) (f : Aer → Aer) : State := s.modFn k fun x => { x with aer := f x.aer }

/-- A poisoned write is discarded whole (R497). -/
def State.poisonRx (s : State) (k : Nat) : State :=
  ((s.count (hpBase + 0x40) 1).aerNote k fun a => { a with poisoned := true }).hpLog Code.HP_POISON_RX k 9 k 0

/-- DP_WINDOW_WRITE (R495, R496). -/
def execDpWindowWrite (fn : Fn) (off : Nat) (bs : List Byte) (poisoned : Bool) (s : State) : Host.Outcome State Fault Refusal :=
  s.hostAct fn.val bs.length fun s =>
    let k := fn.val
    let a := (s.reg (dpBase k)).toNat + off
    if 0xF00000 < off + bs.length then s
    else if poisoned then s.poisonRx k
    else (s.dpWrite k a bs).getD (s.hpLog Code.HP_DP_RANGE k 9 k a)

/-- A read of a BAR by function k: in READY it is served, a frozen port answers 0xFF (R516), in recovery it reads 0 (R578); before
READY the port answers no memory request (R567), and in Standby the link is down. -/
def State.hostRead (s : State) (k len : Nat) (f : State → State) : Host.Outcome State Fault Refusal :=
  if s.power = 3 || !s.enabled k then go s
  else if s.frozen then go (s.send (.cpl k .ok (List.replicate len 0xFF)))
  else if s.stage = 14 then go (s.send (.cpl k .ok (List.replicate len 0)))
  else s.hostAct k 0 f

/-- Completions of a data-port read of `len` bytes that meets an uncorrectable word: one for each block of 64 bytes, poisoned where it
carries such a word (R497; PRESUMED, log entry 45). -/
def State.splitRead (s : State) (k a len : Nat) : State :=
  (List.range ((a + len - 1) / 64 - a / 64 + 1)).foldl (fun s i =>
    let lo := max a ((a / 64 + i) * 64)
    let hi := min (a + len) ((a / 64 + i + 1) * 64)
    match s.memRead lo (hi - lo) with
    | some bs => s.send (.cpl k .ok bs)
    | none => s.send (.cpl k .poisoned [])) s

/-- A data-port read of an address; an uncorrectable word poisons the completion that carries it (R497). -/
def State.dpRead (s : State) (k a len : Nat) : Option State :=
  if !s.dpOk k a len then none
  else match s.memRead a len with
    | some bs => some (s.send (.cpl k .ok bs))
    | none => some (s.splitRead k a len)

/-- A refused read completes with Completer Abort (R495, R496). -/
def State.dpAbort (s : State) (code : W16) (k detail : Nat) : State :=
  ((s.hpLog code k 9 k detail).aerNote k fun a => { a with abort := true }).send (.cpl k .abort [])

/-- DP_WINDOW_READ (R495, R496). -/
def execDpWindowRead (fn : Fn) (off : Nat) (len : Nat) (s : State) : Host.Outcome State Fault Refusal :=
  s.hostRead fn.val len fun s =>
    let k := fn.val
    let a := (s.reg (dpBase k)).toNat + off
    if 0xF00000 < off + len then s
    else (s.dpRead k a len).getD (s.dpAbort Code.HP_DP_RANGE k a)

/-- An access to the stream aperture meets R495. -/
def State.alignedStream (s : State) (k len : Nat) (allEnables : Bool) : Bool :=
  allEnables && len % 4 == 0 && (s.reg (dpPtr k)).toNat % 4 == 0

/-- DP_PTRk advances by an accepted access (R495). -/
def State.advancePtr (s : State) (k n : Nat) : State := s.setReg (dpPtr k) (s.reg (dpPtr k) + BitVec.ofNat 64 n)

/-- DP_STREAM_WRITE (R495, R496). -/
def execDpStreamWrite (fn : Fn) (bs : List Byte) (allEnables poisoned : Bool) (s : State) : Host.Outcome State Fault Refusal :=
  s.hostAct fn.val bs.length fun s =>
    let k := fn.val
    let a := (s.reg (dpPtr k)).toNat
    if poisoned then s.poisonRx k
    else if !s.alignedStream k bs.length allEnables then s.hpLog Code.HP_DP_ALIGN k 9 k a
    else match s.dpWrite k a bs with
      | some s => s.advancePtr k bs.length
      | none => s.hpLog Code.HP_DP_RANGE k 9 k a

/-- DP_STREAM_READ (R495, R496). -/
def execDpStreamRead (fn : Fn) (len : Nat) (allEnables : Bool) (s : State) : Host.Outcome State Fault Refusal :=
  s.hostRead fn.val len fun s =>
    let k := fn.val
    let a := (s.reg (dpPtr k)).toNat
    if !s.alignedStream k len allEnables then s.dpAbort Code.HP_DP_ALIGN k a
    else match s.dpRead k a len with
      | some s => s.advancePtr k len
      | none => s.dpAbort Code.HP_DP_RANGE k a

/-! ### Completion rings (R499 to R503) -/

/-- Range of CR_BASEn, CR_CFGn and CR_WBn (Table 15.7). -/
def crRangeOk (reg v : Nat) : Bool :=
  match reg with
  | 0 => v % 64 == 0
  | 1 => decide (6 ≤ field v 4 0) && decide (field v 4 0 ≤ 16) && decide (1 ≤ field v 23 16)
  | _ => v % 8 == 0

/-- Reserved bits of CR_CFGn read 0 (R7). -/
def crKeep (reg v : Nat) : Nat := if reg = 1 then field v 4 0 + field v 12 8 * 2 ^ 8 + field v 23 16 * 2 ^ 16 + field v 48 32 * 2 ^ 32 else v

/-- A write of CR_BASEn, CR_CFGn or CR_WBn: ownership, the stream's state, the range (R493, R499); one of CR_BASEn sets the indices and
SEQ to 0 (R252, Table 7.10). -/
def State.crConfig (s : State) (k n reg v : Nat) : State :=
  if s.strFn n ≠ k then s.hpLog Code.HP_NOT_OWNER k 1 n v
  else if s.strOpen n then s.hpLog Code.HP_RING_STATE k 1 n v
  else if !crRangeOk reg v then s.hpLog Code.HP_RING_RANGE k 1 n v
  else
    let s := s.setReg (crReg n ([0, 8, 0x20].getD reg 0)) (BitVec.ofNat 64 (crKeep reg v))
    let s := if reg = 0 then ((s.setReg (crReg n 0x10) 0).setReg (crReg n 0x18) 0).modStream n fun x => { x with seq := 0 } else s
    s.drainHold n ((s.stream n).hold.length + 1)

/-- CR_CONFIG_WRITE (R499). -/
def execCrConfigWrite (fn : Fn) (n : StreamId) (reg : Fin 3) (v : W64) (s : State) : Host.Outcome State Fault Refusal :=
  s.hostAct fn.val 8 fun s => s.crConfig fn.val n.val reg.val v.toNat

/-- A write of CR_HEADn: the check of R501 modulo 2^32; the freed slots take held closing records in order (R254). -/
def State.crHead (s : State) (k n v : Nat) : State :=
  let old := (s.reg (crReg n 0x10)).toNat
  let tail := (s.reg (crReg n 0x18)).toNat
  let d := fun (a b : Nat) => (a + 2 ^ 32 - b) % 2 ^ 32
  if s.strFn n ≠ k then s.hpLog Code.HP_NOT_OWNER k 1 n v
  else if d tail old < d v old ∨ 2 ^ s.regField (crReg n 8) 0 5 < d tail v then s.hpLog Code.HP_CR_HEAD k 1 n v
  else (s.setReg (crReg n 0x10) (BitVec.ofNat 64 v)).drainHold n ((s.stream n).hold.length + 1)

/-- CR_HEAD_WRITE (R501). -/
def execCrHeadWrite (fn : Fn) (n : StreamId) (v : W32) (s : State) : Host.Outcome State Fault Refusal :=
  s.hostAct fn.val 4 fun s => s.crHead fn.val n.val v.toNat

/-- COAL_TIMER (R503): COAL_US has run since the first pending closing record. -/
def execCoalTimer (n : StreamId) (s : State) : Host.Outcome State Fault Refusal :=
  if (s.stream n.val).pend = 0 || s.regField (crReg n.val 8) 32 16 = 0 || s.regField (crReg n.val 8) 48 1 = 0 then go s
  else go ((s.msix (s.strFn n.val) (s.regField (crReg n.val 8) 8 5)).modStream n.val fun x => { x with pend := 0 })

/-- Function k answers configuration requests: from READY or recovery on (R567), powered, and the function exists (R490). -/
def State.takesConfig (s : State) (k : Nat) : Bool := decide (11 ≤ s.stage) && s.power != 3 && s.enabled k

/-- MSIX_UNMASK (R502): MSI-X Enable is set in configuration space, which a frozen port accepts too (R516), and the entry is unmasked in
BAR0; the pending messages that both let go are sent. -/
def execMsixUnmask (fn : Fn) (vec : Fin 32) (s : State) : Host.Outcome State Fault Refusal :=
  if !s.takesConfig fn.val then go s
  else
    let s := s.modFn fn.val fun f => { f with msixEn := true }
    let s := if s.stage ≠ 11 || s.frozen || s.power = 3 then s
      else (s.wakeUp.received 4).modFn fn.val fun f => { f with masked := f.masked &&& ~~~(1#32 <<< vec.val) }
    go (s.sendPended fn.val)

/-! ### Function registers and translations (R493, R505 to R507) -/

/-- A write of HP_FNk (R505, R523): ownership, then the field's range, then ATS Enable. -/
def State.fnWrite (s : State) (fn k v : Nat) : State :=
  if fn ≠ k then s.hpLog Code.HP_NOT_OWNER fn 9 k v
  else if v % 4 = 3 then s.hpLog Code.HP_CFG_RANGE fn 9 k v
  else if v % 4 ≠ 0 ∧ !(s.fn k).atsEn then s.hpLog Code.HP_ATS_MODE fn 9 k v
  else s.setReg (fnCtl k) (BitVec.ofNat 64 (v % 4 + field v 12 8 * 2 ^ 8))

/-- HP_FN_WRITE (R505): `atsEnable` holds where host software has set ATS Enable in the function's configuration space before; clearing it
is ATS_ENABLE_CLEAR (log entry 17). -/
def execHpFnWrite (fn : Fn) (k : Fn) (v : W64) (atsEnable : Bool) (s : State) : Host.Outcome State Fault Refusal :=
  s.hostAct fn.val 8 fun s =>
    (if atsEnable && fn = k then s.modFn k.val fun f => { f with atsEn := true } else s).fnWrite fn.val k.val v.toNat

/-- A read of the device fails (R507, R511, R517): VID_CHUNK_FETCH for a chunk, SCH_DESC_FETCH for a descriptor. -/
def State.failRead (s : State) : DevRead → State
  | .chunk n => if (s.stream n.val).chunk.asked then s.badChunk n.val Code.VID_CHUNK_FETCH else s
  | .desc q =>
    match s.endFetch q.val with
    | (s, true) => s.descReject q.val Code.SCH_DESC_FETCH
    | (s, false) => s

/-- An access whose translation the host refuses fails (R507): a read is a failed fetch; a record or an index write-back is
discarded and logged. The last read of a queue that waits here is its present fetch where that fetch is this function's; an earlier
one is of a binding that is gone (R344). -/
def State.failXlate (s : State) (k : Nat) : Out → State
  | .read _ _ _ _ (.desc q) =>
    let x := s.queue q.val
    let others := s.hp.waits.any fun w => w.out.fnOf == k && w.out.reads == some (.desc q)
    if x.fetching && x.fn == k && !others then
      let s := (s.setQueue q.val { x with stale := 0 }).failRead (.desc q)
      s.setQueue q.val { s.queue q.val with stale := (s.queue q.val).stale + x.stale }
    else s.failRead (.desc q)
  | .read _ _ _ _ r => s.failRead r
  | .write _ _ _ bs =>
    let s := if bs.length = 64 then s.count (hpBase + 0x48) 1 else s
    s.hpDev Code.HP_XLATE k 0
  | _ => s

/-- ATS_TRANSLATION (R506, R507): the answer for the access whose translation was asked for. A translation of a page of 4 KiB to 1 GiB is
cached, the cache holding the 4,096 newest; one that grants no permission fails the access. -/
def execAtsTranslation (fn : Fn) (x : Xlate) (s : State) : Host.Outcome State Fault Refusal :=
  let k := fn.val
  match (s.fn k).asked with
  | none => go s
  | some o =>
    let s := s.modFn k fun f => { f with asked := none }
    let fail := fun (s : State) => match s.hp.waits.find? fun w => w.out == o with
      | some w => ({ s with hp := { s.hp with waits := s.hp.waits.erase w } }.failXlate k o).serve
      | none => s.serve
    match x with
    | .refused _ => go (fail s)
    | .granted page lg host write =>
      let needs := (o.target.map (·.2)).getD false
      let s := if 12 ≤ lg ∧ lg ≤ 30 then
          { s with hp := { s.hp with xcache := (⟨k, page.toNat, lg, host.toNat, write⟩ :: s.hp.xcache).take 4096 } }
        else s
      if (s.xlate k ((o.target.map (·.1)).getD 0) needs).isNone then go (fail s) else go s.serve

/-- LINK_UP of HP_STATUS. -/
def State.linkIsUp (s : State) : Bool := s.regField hpBase 0 1 == 1

/-- ATS_INVALIDATE (R506): matching entries go at once; the completion follows when the reads that used them have ended, whatever the state
of Bus Master Enable. -/
def execAtsInvalidate (fn : Fn) (page : W64) (log2 : Nat) (s : State) : Host.Outcome State Fault Refusal :=
  if s.power = 3 || !s.linkIsUp || !s.enabled fn.val then go s
  else
    let lo := page.toNat / 2 ^ log2 * 2 ^ log2
    let hit := fun (e : XEntry) => decide (e.fn = fn.val) && decide (e.page / 2 ^ e.log2 * 2 ^ e.log2 < lo + 2 ^ log2) &&
      decide (lo < e.page / 2 ^ e.log2 * 2 ^ e.log2 + 2 ^ e.log2)
    let i : Inval := ⟨fn.val, page, s.hp.flying.filter fun f => f.entry.any hit⟩
    let s := { s with hp := { s.hp with xcache := s.hp.xcache.filter (fun e => !hit e), invals := s.hp.invals ++ [i] } }
    go (s.count (hpBase + 0x50) 1).sendInvals

/-- ATS_ENABLE_CLEAR (R505, Table 15.6): mode 0, and what waits leaves untranslated. -/
def execAtsEnableClear (fn : Fn) (s : State) : Host.Outcome State Fault Refusal :=
  let k := fn.val
  if !s.takesConfig k then go s
  else
    let s := (s.modFn k fun f => { f with atsEn := false, asked := none }).setField (fnCtl k) 0 2 0
    go { s with hp := { s.hp with xcache := s.hp.xcache.filter fun e => e.fn != k } }.serve

/-- CPL_TIMEOUT (R511): the oldest such read is a failed fetch; one that its stream has left behind fails nothing. -/
def execCplTimeout (r : DevRead) (s : State) : Host.Outcome State Fault Refusal :=
  match s.flight r with
  | none => go s
  | some f =>
    let s := ((s.land r).aerNote f.fn fun a => { a with timeout := true }).count (hpBase + 0x38) 1
    let s := s.hpDev Code.HP_CPL_TIMEOUT f.fn 0
    go (if f.live then s.failRead r else s)

/-! ### Bus Master Enable and D3hot (R512 to R514) -/

/-- A withdrawn read consumes nothing (R512): a queue's HEAD steps back. -/
def State.withdrawRead (s : State) (k : Nat) : DevRead → State
  | .chunk n => s.modStream n.val fun x => { x with chunk := match x.chunk with
      | .body r => .held r
      | _ => .idle }
  | .desc q =>
    let x := s.queue q.val
    if x.fetching && x.fn == k then s.setQueue q.val { x with fetching := false, head := x.head - 1 }
    else s.setQueue q.val { x with stale := x.stale - 1 }

/-- The index write-backs of queues and rings among what waits: the ones due when a function may issue again. The write-back of a fetch
that is withdrawn with it is not sent. -/
def dueQueues (ws : List Wait) : List Nat :=
  let qs := ws.filterMap fun w => match w.wb with | .queue q => some q | _ => none
  let gone := ws.filterMap fun w => match w.out.reads with | some (.desc q) => some q.val | _ => none
  (qs.filter fun q => decide (gone.count q < qs.count q)).eraseDups

/-- Chunk rings whose write-back waits. -/
def dueRings (ws : List Wait) : List Nat := (ws.filterMap fun w => match w.wb with | .ring n => some n | _ => none).eraseDups

/-- Messages that wait. -/
def dueVectors (ws : List Wait) : List Nat := ws.filterMap fun w => match w.out with | .msix _ v => some v | _ => none

/-- What stays waiting of a function that may issue no more: its records, and the last CR_WB of each stream. -/
def heldWrites : List Wait → List Wait
  | [] => []
  | w :: ws =>
    let keep : Bool := match w.out, w.wb with
      | .write _ _ _ _, .no => true
      | .write _ _ _ _, .tail n => !ws.any fun v => v.wb == .tail n
      | _, _ => false
    if keep then w :: heldWrites ws else heldWrites ws

/-- Untransmitted reads of function k are withdrawn; its posted writes and messages are held, of each write-back the latest value (R512). -/
def State.withdraw (s : State) (k : Nat) : State :=
  let mine := s.hp.waits.filter fun w => w.out.fnOf == k
  if mine.isEmpty then s
  else
    let held := heldWrites mine
    let s := (s.modFn k fun f => { f with
      dueQ := (f.dueQ ++ dueQueues mine).eraseDups, dueIn := (f.dueIn ++ dueRings mine).eraseDups,
      pend := (dueVectors mine).foldl (fun p v => p ||| (1#32 <<< v)) f.pend })
    let s := { s with hp := { s.hp with waits := s.hp.waits.filter fun w => w.out.fnOf != k || held.contains w } }
    ((mine.filterMap fun w => w.out.reads).foldl (fun s r => s.withdrawRead k r) s).serve

/-- HEAD_WB of queue q, with its latest value, where function k still has it bound (R341, R512). -/
def State.queueWb (s : State) (k q : Nat) : State :=
  let x := s.queue q
  if x.bound && x.fn == k && x.f 8 8 != 0 then s.hostWrite k (BitVec.ofNat 64 (x.f 8 8)) (bytesLE 8 x.head.toNat) (.queue q) else s

/-- A function may issue again (R513): its held records with CR_WB, then due messages, then the queues' HEAD_WB and the chunk rings'
HEAD_WB. -/
def State.resume (s : State) (k : Nat) : State :=
  if !s.canIssue k then s
  else
    let s := s.serve
    let s := (List.range 64).foldl (fun s n => if s.strFn n = k then s.drainHold n ((s.stream n).hold.length + 1) else s) s
    let s := s.sendPended k
    let qs := (s.fn k).dueQ
    let ns := (s.fn k).dueIn
    let s := qs.foldl (fun s q => s.queueWb k q) (s.modFn k fun f => { f with dueQ := [], dueIn := [] })
    ns.foldl (fun s n => s.headWb n) s

/-- BME_CLEAR (R512). -/
def execBmeClear (fn : Fn) (s : State) : Host.Outcome State Fault Refusal :=
  if s.takesConfig fn.val then go ((s.modFn fn.val fun f => { f with bme := false }).withdraw fn.val) else go s

/-- BME_SET (R513). -/
def execBmeSet (fn : Fn) (s : State) : Host.Outcome State Fault Refusal :=
  if s.takesConfig fn.val then go ((s.modFn fn.val fun f => { f with bme := true }).resume fn.val) else go s

/-- D3HOT_ENTRY (R514). -/
def execD3hotEntry (fn : Fn) (s : State) : Host.Outcome State Fault Refusal :=
  if s.takesConfig fn.val then go ((s.modFn fn.val fun f => { f with d3hot := true }).withdraw fn.val) else go s

/-- D0_RETURN (R514). -/
def execD0Return (fn : Fn) (s : State) : Host.Outcome State Fault Refusal :=
  if s.takesConfig fn.val then go ((s.modFn fn.val fun f => { f with d3hot := false }).resume fn.val) else go s

/-! ### Containment (R515 to R519) -/

/-- The port freezes (R515, R517): the first cause stands; requests are withdrawn, and every read awaiting a completion is a failed
fetch. -/
def State.freezePort (s : State) (cause : Nat) : State :=
  if s.frozen then s
  else
    let s := ((s.setField hpBase 9 1 1).setField hpBase 10 4 cause).count (hpBase + 0x30) 1
    let s := if cause = 4 then s.hpLog Code.HP_FROZEN 0 9 0 4 else s.hpDev Code.HP_FROZEN 0 cause
    let s := (List.range 64).foldl (fun s k => s.withdraw k) s
    let out := s.hp.flying
    out.foldl (fun s f => if f.live then s.failRead f.read else s)
      { s with hp := { s.hp with flying := [], invals := s.hp.invals.map fun (i : Inval) => { i with reads := [] } } }

/-- The link leaves DL_Active (R515): a link that was up freezes the port with CAUSE 1. -/
def State.loseLink (s : State) : State :=
  if !s.linkIsUp then s else ((s.setField hpBase 0 1 0).setField hpBase 1 8 0).freezePort 1

/-- LINK_DOWN (R515). -/
def execLinkDown (s : State) : Host.Outcome State Fault Refusal := go s.loseLink

/-- LINK_UP (R518, R567, R624): the port trains after stage 0 with PERST# deasserted and the pins its own, up to TARGET_SPEED. -/
def execLinkUp (speed : BitVec 3) (width : BitVec 5) (s : State) : Host.Outcome State Fault Refusal :=
  if !s.start.running || s.start.halted || s.power = 3 || s.stage = 0 || s.pins.perst || s.tapOwns || speed.toNat = 0 ||
      s.entry 0x1200 0x08 < speed.toNat || !([1, 2, 4, 8, 16].contains width.toNat) then go s
  else go (((s.setField hpBase 0 1 1).setField hpBase 1 3 speed.toNat).setField hpBase 4 5 width.toNat)

/-- The port is in a state to meet errors of its own: powered and its link up. -/
def State.portLive (s : State) : Bool := s.power != 3 && s.linkIsUp

/-- An error of the port as a whole, in the AER status of every function (PRESUMED, log entry 73). -/
def State.aerAll (s : State) (f : Aer → Aer) : State := ((List.range 64).filter s.enabled).foldl (fun s k => s.aerNote k f) s

/-- HP_INTERNAL_ERROR (R515). -/
def execHpInternalError (s : State) : Host.Outcome State Fault Refusal :=
  if s.portLive then go ((s.aerAll fun a => { a with internal := true }).freezePort 2) else go s

/-- FATAL_TLP (R515). -/
def execFatalTlp (s : State) : Host.Outcome State Fault Refusal :=
  if s.portLive then go ((s.aerAll fun a => { a with fatal := true }).freezePort 3) else go s

/-- FREEZE (R515): only PF0's BAR0 has HP_CONTAIN (Table 15.3). -/
def execFreeze (fn : Fn) (s : State) : Host.Outcome State Fault Refusal :=
  s.hostAct fn.val 4 fun s => if fn.val = 0 then s.freezePort 4 else s

/-- A release (R518, R519): while the link is down it is rejected; else FROZEN and CAUSE clear, each function's error message falls due
(R504), Invalidate Completions leave, and held work resumes, the messages in their turn (R513). -/
def State.releasePort (s : State) : Except W16 State :=
  if !s.frozen then .ok s
  else if !s.linkIsUp then .error Code.HP_CONTAIN_LINK
  else
    let s := s.setField hpBase 9 5 0
    let ks := (List.range 64).filter s.enabled
    let s := ks.foldl (fun s k => (s.errReg (hpBase + 0x800 + 8 * k) Code.HP_FROZEN.toNat).modFn k fun f =>
      { f with pend := f.pend ||| (1#32 <<< s.regField (fnCtl k) 8 5) }) s
    .ok (ks.foldl (fun s k => s.resume k) s.sendInvals)

/-- RELEASE (R518, R519): PF0's write of HP_CONTAIN, which a frozen port accepts (R516), or the entry at index 0x1200 by KDP. -/
def execRelease (o : Origin) (s : State) : Host.Outcome State Fault Refusal :=
  match o with
  | .kdp => s.dictCmd .kdp 0x1200 0x06 [1] fun s => s.releasePort
  | .fn k =>
    if k.val ≠ 0 || s.stage ≠ 11 || s.power = 3 then go s
    else match (s.received 4).releasePort with
      | .ok s => go s
      | .error c => go ((s.received 4).hpLog c 0 9 0 0)

/-! ### Resets (R490, R520, R521, R539) -/

/-- Objects of function k: its streams, contexts and queues. -/
def State.fnStreams (s : State) (k : Nat) : List Nat := (List.range 64).filter fun n => s.strFn n == k
/-- Contexts that function k owns. -/
def State.fnCtxs (s : State) (k : Nat) : List Nat := (List.range 1024).filter fun c => s.ctx c 0x03 == k

/-- Commits of function k complete without an origin, and its accesses that wait for a wake are abandoned (R539). -/
def State.orphanCommits (s : State) (k : Nat) : State :=
  { s with store := { s.store with
      napped := s.store.napped.filter (fun a => match a.origin with | .fn f => f.val != k | .kdp => true)
      commits := s.store.commits.map fun c =>
      match c.origin with
      | some (.fn f) => if f.val = k then { c with origin := none } else c
      | _ => c } }

/-- Registers that an FLR of function k resets: its host-port and data-port registers, its copies of the command registers, its
mailbox, and those of its streams (R494, R520). -/
def flrRegs (k : Nat) (streams : List Nat) (key : Nat) : Bool :=
  decide (key = fnCtl k) || decide (key = dpBase k) || decide (key = dpPtr k) || decide (key = hpBase + 0x800 + 8 * k) ||
    (decide (key / 0x100000000 = k) && (let o := key % 0x100000000
      decide (schBase ≤ o ∧ o < schBase + 0x38) || decide (coilBase ≤ o ∧ o < coilBase + 0x28) || decide (dmBase ≤ o ∧ o < dmBase + 0x20) ||
        decide (hpBase + 0x10000 ≤ o ∧ o < hpBase + 0x10200))) ||
    streams.any fun n => decide (crReg n 0 ≤ key ∧ key < crReg n 0x40) || decide (key = gzTail n) || decide (key = gzHead n)

/-- Entries of objects of function k that do not survive letter F. -/
def flrEntries (streams ctxs : List Nat) (key : Nat) : Bool :=
  let idx := key / 256
  (streams.any (fun n => idx == 0x2000 + n) || ctxs.any (fun c => idx == 0x3000 + c)) && entrySurv key / 8 % 2 == 0

/-- The queues of function k are unbound, and what their outstanding descriptor reads would have brought is forgotten. -/
def State.dropQueues (s : State) (k : Nat) : State :=
  { s with sch := { s.sch with queues := Tbl.keep s.sch.queues fun _ x => x.fn != k } }

/-- Function k's configuration, translations and DM_DATA at their reset values. -/
def State.dropFn (s : State) (k : Nat) : State :=
  { s with hp := { s.hp with
             fns := Tbl.set {} s.hp.fns k { vf := (s.fn k).vf, flrBusy := true, aer := (s.fn k).aer, cplTime := (s.fn k).cplTime },
             xcache := s.hp.xcache.filter (fun e => e.fn != k), waits := s.hp.waits.filter (fun w => w.out.fnOf != k),
             flying := s.hp.flying.filter (fun f => f.fn != k), invals := s.hp.invals.filter fun i => i.fn != k },
           dm := Tbl.keep s.dm fun o _ => o / 65536 != k }

/-- The effects of an FLR of function k (R520): requests withdrawn, streams closed, contexts disabled and queues unbound without
a record, Coil buffers released, registers at their reset values. -/
def State.flrFn (s : State) (k : Nat) : State :=
  let ns := s.fnStreams k
  let cs := s.fnCtxs k
  let s := ns.foldl (fun s n => s.streamQuiet n) s
  let s := cs.foldl (fun s c => s.ctxQuiet c) s
  let s := (((s.dropQueues k).orphanCommits k).dropRegs (flrRegs k ns)).dropEntries (flrEntries ns cs)
  (s.dropFn k).serve

/-- The VFs that exist become those up to `num` (R490): an FLR for each that ceases. -/
def State.setVfs (s : State) (num : Nat) : State :=
  let ceases := ((List.range 64).drop (num + 1)).any fun k => (s.fn k).vf
  let s := ((List.range 64).drop 1).foldl (fun s k =>
    if k ≤ num then s.modFn k fun f => { f with vf := true }
    else if (s.fn k).vf then ((s.flrFn k).modFn k fun f => { f with vf := false, flrBusy := false }) else s) s
  if ceases then s.schedule else s

/-- The scheduler, the host port and the mailboxes at reset. -/
def State.dropHost (s : State) : State := { s with sch := {}, hp := { txBase := sentBytes s.out }, dm := [] }

/-- No reset of functions moves the operating point, the cap or the power state (Table 14.5). -/
def State.keepPoint (s old : State) : State := [0x02, 0x20, 0x21, 0x23].foldl (fun t k => t.setEntry 0x1400 k (old.pw k)) s

/-- Everything of every function, and the port where `port` (R521): objects of all functions as an FLR leaves them, and the items
that lack a survival letter at their reset values. HBM and the cache stay. -/
def State.resetAll (s : State) (letter : Nat) (port : Bool) : State :=
  let s := (List.range 64).foldl (fun s k => s.flrFn k) s
  let st := s.reg hpBase
  let s := ((s.survive letter).survive 8).keepPoint s
  let s := s.ibex.foldl (fun s e => s.modIb e.1 fun i => { i with ramp := {} }) s
  let s := { s.dropHost with mem := { s.mem with scrubAt := 0 } }
  if port then s else s.setReg hpBase st

/-- The port alone reset, in a start that goes on (R521, Table 17.9). -/
def State.resetPort (s : State) : State :=
  { s.dropRegs (fun k => decide (hpBase ≤ k ∧ k < hpBase + 0x100000)) with hp := { txBase := sentBytes s.out }, dm := [] }

/-- FLR (R520): PF0's clears VF Enable and so resets every function; device-wide items are PF0's (log entry 19). -/
def execFlr (fn : Fn) (s : State) : Host.Outcome State Fault Refusal :=
  if !s.takesConfig fn.val then go s
  else if fn.val = 0 then go ((s.resetAll 8 false).modFn 0 fun f => { f with flrBusy := true })
  else go (s.flrFn fn.val).schedule

/-- FLR_DONE (R520). -/
def execFlrDone (fn : Fn) (s : State) : Host.Outcome State Fault Refusal := go (s.modFn fn.val fun f => { f with flrBusy := false })

/-- VF_ENABLE_CHANGE (R490, R567): ignored until READY. -/
def execVfEnableChange (enable : Bool) (num : Nat) (s : State) : Host.Outcome State Fault Refusal :=
  if s.stage ≠ 11 || s.power = 3 then go s else go (s.setVfs (if enable then min num 63 else 0))

/-- PERST (R521, Table 0.5), in READY and in recovery; in a start it only holds the port (Table 17.9). -/
def execPerst (s : State) : Host.Outcome State Fault Refusal :=
  let s := { s with pins := { s.pins with perst := true } }
  if s.power = 3 then go (s.modTth fun t => { t with perstSeen := true })
  else if 11 ≤ s.stage then go (s.resetAll 4 true)
  else go s.resetPort

/-- HOT_RESET (R521). -/
def execHotReset (s : State) : Host.Outcome State Fault Refusal :=
  if s.power = 3 || !s.linkIsUp then go s
  else if 11 ≤ s.stage then go (s.resetAll 8 true)
  else go s.resetPort

/-- PERST_DEASSERT (R567, R482, Table 14.3): training may begin; WAKE# is released; in Standby it is a start event when VIN12 is in
range and no trip stands. -/
def execPerstDeassert (s : State) : Host.Outcome State Fault Refusal :=
  let was := s.pins.perst
  let s := { s with pins := { s.pins with perst := false } }
  let s := if s.tth.wakeOut then (s.modTth fun t => { t with wakeOut := false }).send (.pin "WAKE#" false) else s
  if was && s.power = 3 && s.tth.perstSeen && s.pins.vin && !s.tth.tripOut then go (s.beginCold 1) else go s

/-! ### Boundary scan (R623, R624) -/

/-- TAP_INSTRUCTION (R624): an instruction that gives the boundary cells the pins takes the link down. The node is silent while it
stands. -/
def execTapInstruction (i : TapInstr) (s : State) : Host.Outcome State Fault Refusal :=
  let s := { s with pins := { s.pins with tap := i } }
  if s.tapOwns then go s.loseLink else go s

/-- TEST_LOGIC_RESET (R624): the pins are the device's again; IDCODE is the instruction (IEEE 1149.1). A frozen port waits for its
release. -/
def execTestLogicReset (s : State) : Host.Outcome State Fault Refusal := go { s with pins := { s.pins with tap := .idcode } }

end Sys2Proof.Machine
end

