-- ==== Sys2Proof/Machine/Dictionary.lean ====
section
/-! DEFINITION. The object dictionary's accesses: what a read returns and what a write of each entry does (R526 to R540), RWP
commits, RESTORE, the error log's CLEAR and the counter snapshot (R535, R557 to R559). -/

namespace Sys2Proof.Machine

/-! ### Reads (R528, R532) -/

/-- Characters of the STR entries (Table 16.5). -/
def strEntry (sub : Nat) : List Byte :=
  if sub = 0x01 then [0x49, 0x6D, 0x7A, 0x61, 0x75, 0x72, 0x69]
  else if sub = 0x02 then [0x4D, 0x56, 0x39, 0x30, 0x36, 0x34]
  else [0x41, 0x31]

/-- A log record's 16 bytes (Table 16.10). -/
def LogRec.bytes (r : LogRec) : List Byte :=
  bytesLE 4 r.seq ++ bytesLE 2 r.code.toNat ++ bytesLE 1 r.origin ++ bytesLE 1 r.kind ++ bytesLE 4 r.obj ++ bytesLE 4 r.detail

/-- SLOT_INFO of a slot (Table 17.10). -/
def State.slotInfo (s : State) (i : Nat) : List Byte :=
  let st := Tbl.get 0 s.start.slotState i
  let img := s.slotBytes i
  if st = 0 then List.replicate 32 0
  else
    [BitVec.ofNat 8 st, 0, 0, 0] ++ bytesLE 4 (imgF img 0x08 4) ++ bytesLE 4 (imgF img 0x0C 4) ++ bytesLE 4 (imgF img 0x10 4) ++
      bytesLE 4 (imgF img 0x14 4) ++ bytesLE 1 (imgF img 0x18 1) ++ List.replicate 11 0

/-- Free units of 2 MiB in herd h's aperture: total and longest run (Table 11.9). -/
def State.freeUnits (s : State) (h : Nat) : Nat × Nat :=
  let fs := (List.range (s.apertureMib (h + 1) / 2)).map (s.unitFree h)
  let runs := fs.foldl (fun (acc : Nat × Nat) b => if b then (acc.1 + 1, max acc.2 (acc.1 + 1)) else (0, acc.2)) (0, 0)
  ((fs.filter id).length, runs.2)

/-- Entries whose value the device derives from other state. -/
def State.derived (s : State) (idx sub : Nat) : Option Nat :=
  if idx = 0x1200 then
    (if sub = 0x01 then some (s.regField hpBase 0 1) else if sub = 0x02 then some (s.regField hpBase 1 3)
     else if sub = 0x03 then some (s.regField hpBase 4 5) else if sub = 0x04 then some (s.regField hpBase 9 1)
     else if sub = 0x05 then some (s.regField hpBase 10 4)
     else if sub = 0x07 then some ((List.range 64).filter fun k => (s.fn k).vf).length
     else if sub = 0x10 then some (s.reg (hpBase + 0x30)).toNat else if sub = 0x11 then some (s.reg (hpBase + 0x48)).toNat else none)
  else if idx = 0x1400 then
    (if sub = 0x27 then some (if s.fixed then 1 else 0) else if sub = 0x28 then some s.sch.shed.length else none)
  else if idx = 0x1500 then
    (if 0x10 ≤ sub ∧ sub < 0x18 then some (s.apertureMib (sub - 0x0F))
     else if 0x18 ≤ sub ∧ sub < 0x20 then some (2 * (s.freeUnits (sub - 0x18)).1)
     else if 0x20 ≤ sub ∧ sub < 0x28 then some (2 * (s.freeUnits (sub - 0x20)).2) else none)
  else if idx = 0x1600 then
    (if 0x28 ≤ sub ∧ sub < 0x30 then some (if s.coil.laid then s.poolFree (sub - 0x28) else s.entry 0x1600 (sub - 0x18))
     else if 0x30 ≤ sub ∧ sub < 0x38 then some (s.resvUnused (sub - 0x30)) else none)
  else if idx = 0x6000 ∧ sub = 0x02 then some s.log.length
  else none

/-- Bytes of a numeric type. -/
def DTy.size : DTy → Nat
  | .u8 => 1
  | .u16 => 2
  | .u32 | .s32 => 4
  | .u64 => 8
  | .str n | .blob n => n

/-- Value of a BLOB entry that can be read. A closed stream has no track table and reads zeros; bytes that a bus error denies are
fresh (log entry 3). -/
def State.blobValue (s : State) (idx sub n : Nat) : List Byte × State :=
  let zeros := List.replicate n (0 : Byte)
  if idx = 0x6000 then (match s.log[sub - 0x10]? with | some r => (r.bytes, s) | none => (zeros, s))
  else if idx = 0x1300 then
    if 0x10 ≤ sub ∧ sub < 0x14 then (s.slotInfo (sub - 0x10), s)
    else if 0x30 ≤ sub ∧ sub < 0x38 then (s.mr (sub - 0x30), s)
    else if sub = 0x40 then (s.start.nonce, s)
    else if sub = 0x43 then ((if s.start.report.isEmpty then List.replicate 50496 0 else s.start.report), s)
    else if sub = 0x44 then (s.start.pk.getD (List.replicate 64 0), s)
    else if sub = 0x45 then (s.deviceCert, s)
    else (zeros, s)
  else if isStreamIdx idx then
    match s.trackAddr (idx - 0x2000) with
    | none => (List.replicate 16448 0, s)
    | some a => match s.memRead a 16448 with
      | some bs => (bs, s)
      | none => s.freshBytes 16448
  else (zeros, s)

/-- The value of an entry that exists (R528, R532); a WO entry reads 0 (Table 0.4). -/
def State.dictValue (s : State) (idx sub : Nat) (r : DRow) : List Byte × State :=
  if r.acc == .wo then (List.replicate r.ty.size 0, s)
  else match r.ty with
    | .str _ => (strEntry sub, s)
    | .blob n => s.blobValue idx sub n
    | t => (bytesLE t.size ((s.derived idx sub).getD (s.entry idx sub)), s)

/-- A read of an origin: the checks of Table 16.2, then the value. -/
def State.dictGet (s : State) (o : Origin) (idx sub : Nat) : State × Except W16 (List Byte) :=
  let s := if alwaysOn idx then s else s.wakeUp
  match s.dictGate o idx sub false [] with
  | some c => (s.rejectEntry c o idx sub [], .error c)
  | none => match dictRow idx sub with
    | none => (s, .error Code.DICT_NO_SUB)
    | some r => let (v, s) := s.dictValue idx sub r; (s, .ok v)

/-- A mailbox read (R538): the value in DM_DATA with its length, or the code. -/
def State.mailGet (s : State) (k : Fin 64) (idx sub : Nat) : State :=
  if s.mustWake idx then s.napAccess (.fn k) idx sub false []
  else
    let (s, r) := s.dictGet (.fn k) idx sub
    match r with
    | .error c => s.dmResult k.val c true
    | .ok v => ((s.dmPut k.val 0 v).setReg (dmReg k.val 8) (BitVec.ofNat 64 v.length)).dmResult k.val 0 true

/-- DICT_READ (R532, R538): a mailbox read; a KDP read that reached the store leaves its answer to the frame's command. -/
def execDictRead (o : Origin) (index : BitVec 16) (sub : BitVec 8) (s : State) : Host.Outcome State Fault Refusal :=
  match o with
  | .kdp => go (if s.mustWake index.toNat then s.napAccess o index.toNat sub.toNat false [] else (s.dictGet o index.toNat sub.toNat).1)
  | .fn k => s.hostDict k.val 4 fun s =>
      if !s.dmDone k.val then s.rejectEntry Code.DICT_BUSY o index.toNat sub.toNat []
      else (s.dmRequest k.val index.toNat sub.toNat false []).mailGet k index.toNat sub.toNat

/-! ### Writes (R531 step 10 on) -/

/-- A numeric setting: its range, then the new value. -/
def State.setRanged (s : State) (idx sub n : Nat) (r : DRow) (code : W16) : Except W16 State :=
  if r.rng.ok n then .ok (s.setEntry idx sub n) else .error (if r.code = 0 then code else r.code)

/-- Stream entries (R272, R330, R345): the settings of Table 8.4 only while the stream is CLOSED. -/
def State.writeStream (s : State) (n sub v : Nat) (r : DRow) : Except W16 State :=
  if sub = 0x01 then
    (if v = 1 then s.streamOpen n else if v = 2 then s.streamClose n else if v = 3 then s.streamReset n else .error Code.VID_STATE)
  else if sub < 0x40 ∧ s.strOpen n then .error Code.VID_STATE
  else s.setRanged (0x2000 + n) sub v r Code.VID_CEILING

/-- Context entries (R334): WEIGHT and HITCH_TIMEOUT in every state, the others only while DISABLED. -/
def State.writeCtx (s : State) (c sub v : Nat) (r : DRow) : Except W16 State :=
  if sub = 0x01 then
    (if v = 1 then s.ctxEnable c else if v = 2 then s.ctxDisable c else if v = 3 then s.ctxClear c else .error Code.SCH_DICT_RANGE)
  else if sub ≠ 0x05 ∧ sub ≠ 0x1A ∧ s.ctxState c ≠ 0 then .error Code.SCH_CTX_STATE
  else s.setRanged (0x3000 + c) sub v r Code.SCH_DICT_RANGE

/-- Herd masks (R371, R391). -/
def State.writeHerd (s : State) (sub v : Nat) : Except W16 State :=
  let h := sub % 16
  let group := sub / 16 * 16
  let busy := (List.range 1024).any (fun c => s.ctx c 0x04 == h && s.ctxState c != 0) ||
    (group == 0x10 && s.mem.allocs.any fun a => a.herd == h)
  if busy then .error Code.SCH_HERD_BUSY
  else if (List.range 8).any fun g => g != h && s.entry 0x3500 (group + g) &&& v != 0 then .error Code.SCH_HERD_CONFIG
  else .ok (s.setEntry 0x3500 sub v).wakeSteady

/-- Power entries (R470, R486, Table 14.5). -/
def State.writePower (s : State) (sub v : Nat) (r : DRow) : Except W16 State :=
  if sub = 0x01 then s.pwrCommand v
  else if sub = 0x0A ∧ v ≤ s.pw 0x0B ∨ sub = 0x0B ∧ s.pw 0x0A ≤ v then .error Code.PWR_DICT_RANGE
  else
    let wait := sub == 0x04 && v == 1 && s.tth.throttling && !s.fixed
    (s.setRanged 0x1400 sub v r Code.PWR_DICT_RANGE).map fun s => if sub = 0x04 then s.modTth fun t => { t with deferred := wait } else s

/-- Start entries (R581, R584, R587, R590). -/
def State.writeStart (s : State) (sub : Nat) (v : List Byte) : Except W16 State :=
  let n := natLE v
  if sub = 0x01 then s.startCommand n
  else if sub = 0x20 then s.updBegin v
  else if sub = 0x21 then s.updChunk v
  else if sub = 0x22 then s.updEnd n
  else if sub = 0x25 then s.updActivate n
  else if sub = 0x26 then s.updAbort n
  else if sub = 0x38 then s.extendCmd v
  else if sub = 0x40 then (if s.st 0x42 = 1 then .error Code.START_ATT_BUSY else .ok (s.modStart fun x => { x with nonce := v }))
  else s.attReq n

/-- APPLY (R555). -/
def State.applyCmd (s : State) (v : Nat) : Except W16 State := if v = 1 then .ok s.nodeStart else .error Code.DICT_RANGE

/-- CLEAR (R558): LOGGED and SEQ go on. -/
def State.clearCmd (s : State) (v : Nat) : Except W16 State := if v = 1 then .ok { s with log := [] } else .error Code.DICT_RANGE

/-- SNAP (R559). -/
def State.snapCmd (s : State) (v : Nat) : Except W16 State :=
  if s.store.snapBusy then .error Code.DICT_BUSY
  else if v = 1 then .ok { s with store := { s.store with snapBusy := true } }
  else .error Code.DICT_RANGE

/-- RELEASE at index 0x1200: the port's state is checked before the value (R531). -/
def State.releaseCmd (s : State) (v : Nat) : Except W16 State :=
  if s.frozen && !s.linkIsUp then .error Code.HP_CONTAIN_LINK else if v = 1 then s.releasePort else .error Code.HP_DICT_RANGE

/-- Keys of the RWP entries (R535). -/
def rwpKeys : List Nat :=
  [0x1100, 0x1200, 0x1300, 0x1500, 0x1600].flatMap fun idx =>
    (dictRows idx).flatMap fun r => if r.acc == .rwp then (List.range r.n).map fun i => dkey idx (r.sub + i) else []

/-- A set of RWP values waits for its commit, for an origin that wrote the entry `key` (R533, R534). -/
def State.queueCommit (s : State) (o : Origin) (key : Nat) (sets : List (Nat × W64)) : State :=
  { s with store := { s.store with commits := s.store.commits ++ [⟨some o, key, sets⟩] } }

/-- RESTORE (R535). -/
def State.restoreCmd (s : State) (o : Origin) (v : Nat) : Except W16 State :=
  if v ≠ 0x5AA5 then .error Code.DICT_RANGE
  else .ok (s.queueCommit o (dkey 0x1000 0x22) (rwpKeys.map fun k => (k, dictDefault (k / 256) (k % 256))))

/-- An RWP write that passes its range waits for its commit (R534). DATA_KBPS is not below NOMINAL_KBPS (Table 16.9). -/
def State.writeRwp (s : State) (o : Origin) (idx sub n : Nat) (r : DRow) : Except W16 State :=
  if !r.rng.ok n || (idx == 0x1100 && sub == 0x05 && decide (n < s.entry 0x1100 0x04)) then
    .error (if r.code = 0 then Code.DICT_RANGE else r.code)
  else .ok (s.queueCommit o (dkey idx sub) [(dkey idx sub, BitVec.ofNat 64 n)])

/-- A write's new state, with whether its result waits for a commit. -/
def effect (waits : Bool) (x : Except W16 State) : Except W16 (State × Bool) := x.map fun s => (s, waits)

/-- The effect of a write that has passed steps 1 to 9: the new state, and whether the result waits for a commit. -/
def State.dictEffect (s : State) (o : Origin) (idx sub : Nat) (v : List Byte) (r : DRow) : Except W16 (State × Bool) :=
  let n := natLE v
  if r.acc == .rwp then effect true (s.writeRwp o idx sub n r)
  else if idx = 0x1000 then effect true (s.restoreCmd o n)
  else if isStreamIdx idx then effect false (s.writeStream (idx - 0x2000) sub n r)
  else if isCtxIdx idx then effect false (s.writeCtx (idx - 0x3000) sub n r)
  else if idx = 0x1100 then
    (if sub = 0x0C then effect false (s.applyCmd n)
     else effect false ((s.setRanged idx sub n r Code.DICT_RANGE).map fun t =>
       if sub = 0x0B ∧ n = 1 ∧ s.entry 0x1100 0x0B = 0 then t.modNode fun x => { x with announced := t.entry 0x6000 0x01 } else t))
  else if idx = 0x1200 then effect false (s.releaseCmd n)
  else if idx = 0x1300 then effect false (s.writeStart sub v)
  else if idx = 0x1400 then effect false (s.writePower sub n r)
  else if idx = 0x1600 then (if sub = 0x1F ∧ n ≠ 0 then .error Code.COIL_DICT_RANGE else effect false (s.setRanged idx sub n r Code.COIL_DICT_RANGE))
  else if idx = 0x1500 then effect false ((s.setRanged idx sub n r Code.DICT_RANGE).map State.wakeSteady)
  else if idx = 0x3500 then effect false (s.writeHerd sub n)
  else if idx = 0x5000 then effect false (s.snapCmd n)
  else if idx = 0x6000 then effect false (s.clearCmd n)
  else effect false (s.setRanged idx sub n r Code.DICT_RANGE)

/-- A write of an origin (R531): the state after it, and its result; none while a commit is awaited. -/
def State.dictPut (s : State) (o : Origin) (idx sub : Nat) (v : List Byte) : State × Option W16 :=
  let s := if alwaysOn idx then s else s.wakeUp
  let bad := fun (s : State) (c : W16) => (s.rejectEntry c o idx sub v, some c)
  match s.dictGate o idx sub true v with
  | some c => bad s c
  | none => match dictRow idx sub with
    | none => bad s Code.DICT_NO_SUB
    | some r => match s.dictEffect o idx sub v r with
      | .error c => bad s c
      | .ok (s, wait) => (s, if wait then none else some 0)

/-- A mailbox write (R538): its result, or DONE 0 while a commit or the wake is awaited. -/
def State.mailPut (s : State) (k : Fin 64) (idx sub : Nat) (v : List Byte) : State :=
  if s.mustWake idx then s.napAccess (.fn k) idx sub true v
  else
    let (s, c) := s.dictPut (.fn k) idx sub v
    match c with
    | some c => s.dmResult k.val c true
    | none => s.dmResult k.val 0 false

/-- A path that takes a write whose result may wait: a mailbox keeps DONE 0 (R538, R539). -/
def State.putVia (s : State) (o : Origin) (idx sub : Nat) (v : List Byte) : Host.Outcome State Fault Refusal :=
  match o with
  | .kdp => go (if s.mustWake idx then s.napAccess o idx sub true v else (s.dictPut o idx sub v).1)
  | .fn k => s.hostDict k.val (8 + v.length) fun s =>
      if !s.dmDone k.val then s.rejectEntry Code.DICT_BUSY o idx sub v
      else (s.dmRequest k.val idx sub true v).mailPut k idx sub v

/-- DICT_WRITE (R531). -/
def execDictWrite (o : Origin) (index : BitVec 16) (sub : BitVec 8) (value : List Byte) (s : State) : Host.Outcome State Fault Refusal :=
  s.putVia o index.toNat sub.toNat value

/-- RESTORE (R535). -/
def execRestore (o : Origin) (v : W16) (s : State) : Host.Outcome State Fault Refusal := s.putVia o 0x1000 0x22 (bytesLE 2 v.toNat)

/-- CLEAR (R558). -/
def execClear (o : Origin) (v : Byte) (s : State) : Host.Outcome State Fault Refusal := s.putVia o 0x6000 0x04 [v]

/-- SNAP (R559). -/
def execSnap (o : Origin) (v : Byte) (s : State) : Host.Outcome State Fault Refusal := s.putVia o 0x5000 0x01 [v]

/-- APPLY (R554, R555). -/
def execApply (o : Origin) (v : Byte) (s : State) : Host.Outcome State Fault Refusal := s.putVia o 0x1100 0x0C [v]

/-- SNAP_DONE (R559, Table 16.12). -/
def execSnapDone (s : State) : Host.Outcome State Fault Refusal :=
  if !s.store.snapBusy then go s
  else
    let e := fun idx sub => s.entry idx sub
    let put := fun (s : State) (x : Nat × Nat) => s.setEntry 0x5000 x.1 x.2
    let vals : List (Nat × Nat) := [
      (0x10, ((List.range 8).map fun n => (s.reg (ibexReg n 5 0x60)).toNat).sum),
      (0x11, (((List.range 64).filter s.strOpen).map fun n => s.str n 0x22).sum),
      (0x12, (s.reg (preBase + 0x58)).toNat), (0x13, e 0x3400 0x13),
      (0x14, ((List.range 1024).map fun c => s.ctx c 0x22).sum),
      (0x15, e 0x1500 0x50), (0x16, e 0x1500 0x51), (0x17, e 0x1500 0x53), (0x18, e 0x1400 0x37), (0x19, e 0x1400 0x30),
      (0x1A, (s.reg (hpBase + 0x30)).toNat)]
    go ({ (vals.foldl put s).countEntry 0x5000 0x02 1 with store := { s.store with snapBusy := false } })

/-- The final response of a write: it leaves while the node may send, and answers a repeat of the last segment (R548). -/
def State.finalResp (s : State) (bs : List Byte) : State :=
  let s := s.modNode fun n => { n with prev := n.prev.map fun x => { x with resp := bs } }
  if s.netOn then s.canSend (0x280 + s.nodeId) bs else s

/-- The response that a KDP write owes once its commit has ended (R534). -/
def State.lateResponse (s : State) (code : W16) : State :=
  match s.node.waiting with
  | none => s
  | some h =>
    (s.modNode fun n => { n with waiting := none }).finalResp (patch h 4 (bytesLE 2 code.toNat))

/-- The value that the write of a commit carried (R557). -/
def Commit.value (c : Commit) : List Byte :=
  if c.key = dkey 0x1000 0x22 then bytesLE 2 0x5AA5 else bytesLE 8 ((c.sets.head?.map (·.2.toNat)).getD 0)

/-- COMMIT_DONE (R533, R534): the oldest commit ends; its values take effect, or the write returns DICT_COMMIT. -/
def execCommitDone (ok : Bool) (s : State) : Host.Outcome State Fault Refusal :=
  match s.store.commits with
  | [] => go s
  | c :: cs =>
    let s := { s with store := { s.store with commits := cs } }
    let s := if ok then (c.sets.foldl (fun s x => s.setEntry (x.1 / 256) (x.1 % 256) x.2.toNat) s).countEntry 0x1000 0x20 1
      else match c.origin with
        | some o => s.rejectEntry Code.DICT_COMMIT o (c.key / 256) (c.key % 256) c.value
        | none => s.logDev Code.DICT_COMMIT 4 c.key
    let code := if ok then 0 else Code.DICT_COMMIT
    match c.origin with
    | some (.fn k) => go (s.dmResult k.val code true)
    | some .kdp => go (s.lateResponse code)
    | none => go s

end Sys2Proof.Machine
end

