-- ==== Sys2Proof/Machine/Kdp.lean ====
section
/-! DEFINITION. KDP frames: requests, segmented transfers and their responses (R545 to R551). -/

namespace Sys2Proof

open Machine

/-- Fields of a request's header (Table 16.7). -/
def KdpFrame.b (f : KdpFrame) (o n : Nat) : Nat := natLE ((f.data.drop o).take n)
/-- OP. -/
def KdpFrame.op (f : KdpFrame) : Nat := f.b 0 1 % 16
/-- TOGGLE. -/
def KdpFrame.toggle (f : KdpFrame) : Bool := bitOf (f.b 0 1) 4
/-- INDEX. -/
def KdpFrame.index (f : KdpFrame) : Nat := f.b 1 2
/-- SUB. -/
def KdpFrame.sub (f : KdpFrame) : Nat := f.b 3 1
/-- LENGTH of READ and WRITE, OFFSET of segments. -/
def KdpFrame.len (f : KdpFrame) : Nat := f.b 4 2

/-- The frame carries a well-formed header of the operation (R546, R547, Table 16.7, Table 16.8). -/
def KdpFrame.ok (f : KdpFrame) (op : Nat) : Bool :=
  decide (8 ≤ f.data.length) && decide (f.data.length ≤ 64) && f.op == op && f.b 0 1 / 32 == 0 &&
    (op == 5 || f.b 6 2 == 0) && (decide (op ≤ 4) || f.len == 0) && ((op != 1 && op != 3) || !f.toggle) &&
    (op != 6 || (f.broadcast && f.index == 0 && f.sub == 0)) &&
    (op != 3 || decide (8 + min f.len 56 ≤ f.data.length))

end Sys2Proof

namespace Sys2Proof.Machine

/-- A response's header (Table 16.7). -/
def respHead (op : Nat) (toggle : Bool) (idx sub status last : Nat) : List Byte :=
  bytesLE 1 (op + (if toggle then 16 else 0) + 128) ++ bytesLE 2 idx ++ bytesLE 1 sub ++ bytesLE 2 status ++ bytesLE 2 last

/-- A response of the node. -/
def State.respond (s : State) (bs : List Byte) : State := s.canSend (0x280 + s.nodeId) bs

/-- A request that the node rejects: the code enters the log and the response's STATUS (R562); bytes 6 and 7 give the LENGTH of a write, the
OFFSET of a segment (Table 16.7). A read has no value whose LENGTH they could give. -/
def State.kdpReject (s : State) (f : KdpFrame) (code : W16) : State :=
  (s.rejectEntry code .kdp f.index f.sub []).respond
    (respHead f.op f.toggle f.index f.sub code.toNat (if f.op = 2 ∨ f.op = 3 ∨ f.op = 4 then f.len else 0))

/-- The open transfer closes with a response of OP ABORT (R548, R550). -/
def State.kdpClose (s : State) (idx sub : Nat) (toggle : Bool) (code : W16) : State :=
  ((s.modNode fun n => { n with xfer := none }).rejectEntry code .kdp idx sub []).respond (respHead 5 toggle idx sub code.toNat 0)

/-- A request frame reaches the node: it counts; a silent or listening node serves nothing; a broadcast other than DISCOVER is
ignored; a malformed request is answered with DICT_KDP_FRAME (R544, R545, R547). -/
def State.kdpServe (s : State) (op : Nat) (f : KdpFrame) (act : State → State) : Host.Outcome State Fault Refusal :=
  if s.tapOwns || s.node.mode == 4 then go s
  else
    let s := s.countEntry 0x1100 0x10 1
    if f.broadcast && op != 6 then go (s.countEntry 0x1100 0x12 1)
    else if !s.netOn || s.node.listening then go s
    else
      let s := if op = 2 ∨ op = 4 then s else s.modNode fun n => { n with prev := none }
      if !f.ok op then go (s.kdpReject f Code.DICT_KDP_FRAME)
    else go (act s)

/-- A transfer is open, or a commit's result is owed (R550, Table 16.2 step 2). -/
def State.kdpBusy (s : State) : Bool := s.node.xfer.isSome || s.node.waiting.isSome

/-- A value read by KDP: the response, and the transfer that stays open (R547, R549). -/
def State.kdpGet (s : State) (idx sub : Nat) : State :=
  let (s, r) := s.dictGet .kdp idx sub
  let answer := fun (s : State) (bs : List Byte) => if s.netOn then s.respond bs else s
  match r with
  | .error c => answer s (respHead 1 false idx sub c.toNat 0)
  | .ok v =>
    let s := answer s (respHead 1 false idx sub 0 v.length ++ v.take 56)
    if v.length ≤ 56 then s
    else s.modNode fun n => { n with xfer := some ⟨false, idx, sub, v.length, v, 56, true, none, []⟩ }

/-- KDP_READ (R547, R549). -/
def execKdpRead (f : KdpFrame) (s : State) : Host.Outcome State Fault Refusal :=
  s.kdpServe 1 f fun s =>
    if s.kdpBusy then s.kdpReject f Code.DICT_KDP_BUSY
    else if s.mustWake f.index then (s.napAccess .kdp f.index f.sub false []).modNode fun n => { n with waiting := some [] }
    else s.kdpGet f.index f.sub

/-- A segment request repeats the latest one of a transfer (R548). -/
def Xfer.repeats (x : Xfer) (f : KdpFrame) (write : Bool) : Bool :=
  x.write == write && x.idx == f.index && x.sub == f.sub && x.last == some (f.toggle, f.len)

/-- A segment request meets the open transfer: a repeat gets the previous response again, also where it has closed the transfer, and
waits where that response waits for a commit; a mismatch closes it with DICT_KDP_SEQ (R548). -/
def State.segment (s : State) (f : KdpFrame) (write : Bool) (act : Xfer → State) : State :=
  match s.node.xfer with
  | none =>
    match s.node.prev with
    | some x =>
      if !x.repeats f write then s.kdpClose f.index f.sub f.toggle Code.DICT_KDP_SEQ
      else if s.node.waiting.isSome then s else s.respond x.resp
    | none => s.kdpClose f.index f.sub f.toggle Code.DICT_KDP_SEQ
  | some x =>
    if x.write != write || x.idx != f.index || x.sub != f.sub then s.kdpClose x.idx x.sub f.toggle Code.DICT_KDP_SEQ
    else if x.repeats f write then s.respond x.resp
    else if f.toggle ≠ x.toggle ∨ f.len ≠ x.done then s.kdpClose x.idx x.sub f.toggle Code.DICT_KDP_SEQ
    else act x

/-- READ_SEG (R547, R548). -/
def execReadSeg (f : KdpFrame) (s : State) : Host.Outcome State Fault Refusal :=
  s.kdpServe 2 f fun s => s.segment f false fun x =>
    let part := (x.data.drop x.done).take 56
    let resp := respHead 2 f.toggle x.idx x.sub 0 x.done ++ part
    let done := x.done + part.length
    let s := s.respond resp
    let y : Xfer := { x with done := done, toggle := !x.toggle, last := some (f.toggle, f.len), resp := resp }
    s.modNode fun n => if x.len ≤ done then { n with xfer := none, prev := some y } else { n with xfer := some y }

/-- A whole value written by KDP (R549): the response at once, or after its commit or the wake from Nap. -/
def State.kdpPut (s : State) (idx sub : Nat) (v head : List Byte) : State :=
  if s.mustWake idx then (s.napAccess .kdp idx sub true v).modNode fun n => { n with waiting := some head }
  else
    let (s, c) := s.dictPut .kdp idx sub v
    match c with
    | some c => s.finalResp (patch head 4 (bytesLE 2 c.toNat))
    | none => s.modNode fun n => { n with waiting := some head }

/-- KDP_WRITE (R547, R549). -/
def execKdpWrite (f : KdpFrame) (s : State) : Host.Outcome State Fault Refusal :=
  s.kdpServe 3 f fun s =>
    if s.kdpBusy then s.kdpReject f Code.DICT_KDP_BUSY
    else
      let v := (f.data.drop 8).take (min f.len 56)
      let head := respHead 3 false f.index f.sub 0 f.len
      if f.len ≤ 56 then s.kdpPut f.index f.sub v head
      else (s.respond head).modNode fun n => { n with xfer := some ⟨true, f.index, f.sub, f.len, v, 56, true, none, []⟩ }

/-- WRITE_SEG (R548, R549): the value takes effect after its last byte. -/
def execWriteSeg (f : KdpFrame) (s : State) : Host.Outcome State Fault Refusal :=
  s.kdpServe 4 f fun s => s.segment f true fun x =>
    let n := min 56 (x.len - x.done)
    if f.data.length < 8 + n then s.kdpReject f Code.DICT_KDP_FRAME
    else
      let data := x.data ++ (f.data.drop 8).take n
      let head := respHead 4 f.toggle x.idx x.sub 0 x.done
      let y : Xfer := { x with data := data, done := x.done + n, toggle := !x.toggle, last := some (f.toggle, f.len), resp := head }
      if x.len ≤ x.done + n then (s.modNode fun m => { m with xfer := none, prev := some y }).kdpPut x.idx x.sub data head
      else
        (s.respond head).modNode fun m => { m with xfer := some y }

/-- ABORT (R547): the open transfer closes without a response. -/
def execAbort (f : KdpFrame) (s : State) : Host.Outcome State Fault Refusal :=
  s.kdpServe 5 f fun s =>
    match s.node.xfer with
    | none => s
    | some x => (s.modNode fun n => { n with xfer := none }).logErr Code.DICT_KDP_ABORT 0x40 4 (dkey x.idx x.sub) (f.b 6 2) none

/-- DISCOVER (R547, R556). -/
def execDiscover (f : KdpFrame) (s : State) : Host.Outcome State Fault Refusal :=
  s.kdpServe 6 f fun s =>
    s.respond (respHead 6 f.toggle 0 0 0 0 ++ bytesLE 8 (s.entry 0x1000 0x05) ++ bytesLE 1 (s.entry 0x1000 0x03) ++
      bytesLE 1 (s.entry 0x1100 0x0D) ++ bytesLE 4 (s.entry 0x1000 0x06))

/-- KDP_TIMEOUT (R550). -/
def execKdpTimeout (s : State) : Host.Outcome State Fault Refusal :=
  match s.node.xfer with
  | none => go s
  | some x =>
    let s := s.countEntry 0x1100 0x13 1
    if s.netOn then go (s.kdpClose x.idx x.sub false Code.DICT_KDP_TIMEOUT)
    else go ((s.modNode fun n => { n with xfer := none }).netLog Code.DICT_KDP_TIMEOUT)

/-! ### Accesses that a wake lets go (R536) -/

/-- An access that waited for the wake completes; a KDP request whose transfer has closed meanwhile is not answered (R550). -/
def State.wakeAccess (s : State) (a : Access) : State :=
  match a.origin with
  | .fn k => if a.write then s.mailPut k a.idx a.sub a.value else s.mailGet k a.idx a.sub
  | .kdp =>
    match s.node.waiting with
    | none => if a.write then (s.dictPut .kdp a.idx a.sub a.value).1 else s
    | some head =>
      let s := s.modNode fun n => { n with waiting := none }
      if a.write then s.kdpPut a.idx a.sub a.value head else s.kdpGet a.idx a.sub

/-- NAP_EXIT_DONE (R481, R536): due once a wake event has come in Nap; the accesses that waited for it complete in order. -/
def execNapExitDone (s : State) : Host.Outcome State Fault Refusal :=
  if s.power = 2 && s.wake then
    let t := s.napExit
    go (s.store.napped.foldl (fun s a => s.wakeAccess a) { t with store := { t.store with napped := [] } })
  else go s

end Sys2Proof.Machine
end

