-- ==== Sys2Proof/Machine/RegWrite.lean ====
section
/-! DEFINITION. REGISTER_WRITE: a host write through BAR0 (R7, R9, R11, R492 to R494), offset by offset. Registers with a
command of their own reach that command's operation. -/

namespace Sys2Proof.Machine

/-- What a write carries to the 8 bytes of its register: the value as merged into the old one, and whether the low and the high half
are written. -/
structure RegVal where
  merge : Nat → Nat
  lo    : Bool
  hi    : Bool

/-- The 4 or 8 bytes of a write at an aligned offset. -/
def regVal (off size : Nat) (v : W64) : RegVal :=
  let n := v.toNat
  if size = 8 then ⟨fun _ => n, true, true⟩
  else if off % 8 = 0 then ⟨fun old => old / 2 ^ 32 * 2 ^ 32 + n % 2 ^ 32, true, false⟩
  else ⟨fun old => old % 2 ^ 32 + n % 2 ^ 32 * 2 ^ 32, false, true⟩

/-- Bit 63 of a W1C register is written 1. -/
def RegVal.clears (w : RegVal) : Bool := w.hi && bitOf (w.merge 0) 63

/-- Writing 1 to VALID clears the whole register. -/
def State.clearErr (s : State) (key : Nat) (w : RegVal) : State := if w.clears then s.setReg key 0 else s

/-- Offset in the register map of an offset of VF k's BAR0 (Table 15.3); none where the table assigns nothing. -/
def vfOffset (k o : Nat) : Option Nat :=
  if o < 0x08 then some (fnCtl k + o)
  else if o < 0x18 then some (dpBase k + (o - 0x08))
  else if o < 0x20 then some (hpBase + 0x800 + 8 * k + (o - 0x18))
  else if 0x1000 ≤ o ∧ o < 0x1400 then some (gzBase + o)
  else if 0x2000 ≤ o ∧ o < 0x3000 then some (hpBase + 0x1000 + (o - 0x2000))
  else if 0x4000 ≤ o ∧ o < 0x4200 then some (hpBase + 0x10000 + (o - 0x4000))
  else if 0x5000 ≤ o ∧ o < 0x5008 then some (hpBase + 0x11000 + (o - 0x5000))
  else if 0x6000 ≤ o ∧ o < 0x6038 then some (schBase + (o - 0x6000))
  else if 0x7000 ≤ o ∧ o < 0x7028 then some (coilBase + (o - 0x7000))
  else if 0x80000 ≤ o ∧ o < 0x100000 then some (dmBase + (o - 0x80000))
  else none

/-- Registers of an Ibex (Tables 3.8 and 4.9): `o` is the offset within its block of the map. -/
def State.ibexWrite (s : State) (n o : Nat) (w : RegVal) : State :=
  if o = 0x10000 then (if w.lo then s.brdCfg n (w.merge 0 % 2 ^ 32) else s)
  else if o = 0x10008 then
    (if w.lo then
      let keep := s.regField (ibexReg n 1 8) 12 4 &&& (15 - field (w.merge 0) 15 12)
      s.setField (ibexReg n 1 8) 12 4 keep
    else s)
  else if o = 0x10010 ∨ o = 0x10018 ∨ o = 0x10020 ∨ o = 0x10028 then s.clearErr (ibexReg n 0 o) w
  else if o = 0x20000 then (if w.lo then s.wlkCfg n (w.merge 0 % 2 ^ 32) else s)
  else if o = 0x20048 then s.clearErr (ibexReg n 2 0x48) w
  else s

/-- Scheduler registers (Table 10.12). SCH_QCMD with CMD 0 is discarded: DESIGN CHOICE, log entry 59. -/
def State.schWrite (s : State) (k o : Nat) (w : RegVal) : State :=
  let v := w.merge 0
  let q := v % 65536
  if o < 0x20 then s.setReg (schReg k o) (BitVec.ofNat 64 (w.merge (s.reg (schReg k o)).toNat))
  else if o = 0x20 then
    (if !w.lo then s
     else match field v 17 16 with
       | 1 => s.qBind k q
       | 2 => s.qUnbind k q
       | 3 => s.qRead k q
       | _ => s)
  else if o = 0x30 then (if w.lo then s.hostSignal k (v % 2 ^ 32) else s)
  else if o = 0x80 then s.clearErr (schBase + 0x80) w
  else if 0x10000 ≤ o ∧ o < 0x18000 then
    let i := (o - 0x10000) / 8
    let h := s.hitch i
    s.hostHitch k i (w.merge (h.count + (if h.lock then 2 ^ 27 else 0) + h.herds * 2 ^ 28))
  else s

/-- Coil command registers of function k (Table 13.7). -/
def State.coilWrite (s : State) (k o : Nat) (w : RegVal) : State :=
  let c := w.merge 0 % 2 ^ 32
  if o = 0x00 then
    (if !w.lo then s
     else match c % 8 with
       | 1 => s.coilAlloc k c
       | 2 => s.coilFree k c
       | 3 => s.coilReserve k c
       | 4 => s.coilQuery k c
       | _ => s.coilBad k c)
  else if o = 0x08 then s.setReg (fnReg k (coilBase + 8)) (BitVec.ofNat 64 (w.merge (s.coilArg k)))
  else if o = 0x80 then s.clearErr (coilBase + 0x80) w
  else s

/-- Flip and integrity registers (Table 12.6). -/
def State.intWrite (s : State) (o : Nat) (w : RegVal) : State :=
  let plain := fun (mask : Nat) => s.setReg (intBase + o) (BitVec.ofNat 64 (w.merge (s.reg (intBase + o)).toNat % mask))
  if o = 0x00 then (if w.lo then s.flipWrite (w.merge 0 % 2 ^ 32) else s)
  else if o = 0x08 ∨ o = 0x10 ∨ o = 0x20 then plain (2 ^ 64)
  else if o = 0x18 then plain 256
  else if o = 0x40 then (if w.clears then (s.setReg (intBase + 0x40) 0).setReg (intBase + 0x48) 0 else s)
  else s

/-- A write of HP_CONTAIN (R515, R518). -/
def State.containWrite (s : State) (v : Nat) : State :=
  let s := if bitOf v 0 then (match s.releasePort with | .ok s => s | .error c => s.hpLog c 0 9 0 v) else s
  if bitOf v 1 then s.freezePort 4 else s

/-- A write of DP_BASEk or DP_PTRk: ownership, then the low bits that must be zero (R493, R523). -/
def State.dpSet (s : State) (fn k key align : Nat) (w : RegVal) : State :=
  let v := w.merge (s.reg key).toNat
  if fn ≠ k then s.hpLog Code.HP_NOT_OWNER fn 9 k v
  else if v % align ≠ 0 then s.hpLog Code.HP_CFG_RANGE fn 9 k v
  else s.setReg key (BitVec.ofNat 64 v)

/-- A write to the MSI-X table of function k (R502): message address and data, and vector control, whose bit 0 masks the entry. -/
def State.msixTable (s : State) (k o : Nat) (w : RegVal) : State :=
  let key := fnReg k (hpBase + 0x10000 + o)
  let s := s.setReg key (BitVec.ofNat 64 (w.merge (s.reg key).toNat))
  let bit := 1#32 <<< (o / 16)
  if o % 16 ≠ 8 || !w.hi then s
  else if bitOf (w.merge 0) 32 then s.modFn k fun f => { f with masked := f.masked ||| bit }
  else
    (s.modFn k fun f => { f with masked := f.masked &&& ~~~bit }).sendPended k

/-- Host-port registers (Table 15.7). -/
def State.hpWrite (s : State) (fn o : Nat) (w : RegVal) : State :=
  if o = 0x08 then (if w.lo then s.containWrite (w.merge 0) else s)
  else if o = 0x10 then s.clearErr (hpBase + 0x10) w
  else if 0x100 ≤ o ∧ o < 0x300 then
    let k := (o - 0x100) / 8
    s.fnWrite fn k (w.merge (s.reg (fnCtl k)).toNat)
  else if 0x400 ≤ o ∧ o < 0x800 then
    let k := (o - 0x400) / 16
    if o % 16 = 0 then s.dpSet fn k (dpBase k) 64 w else s.dpSet fn k (dpPtr k) 4 w
  else if 0x800 ≤ o ∧ o < 0xA00 then
    let k := (o - 0x800) / 8
    if fn ≠ k then s.hpLog Code.HP_NOT_OWNER fn 9 k (w.merge 0) else s.clearErr (hpBase + 0x800 + 8 * k) w
  else if 0x1000 ≤ o ∧ o < 0x2000 then
    let n := (o - 0x1000) / 0x40
    let r := o % 0x40
    if r = 0x00 then s.crConfig fn n 0 (w.merge (s.reg (crReg n 0)).toNat)
    else if r = 0x08 then s.crConfig fn n 1 (w.merge (s.reg (crReg n 8)).toNat)
    else if r = 0x10 ∧ w.lo then s.crHead fn n (w.merge 0 % 2 ^ 32)
    else if r ≤ 0x18 then (if s.strFn n ≠ fn then s.hpLog Code.HP_NOT_OWNER fn 1 n (w.merge 0) else s)
    else if r = 0x20 then s.crConfig fn n 2 (w.merge (s.reg (crReg n 0x20)).toNat)
    else s
  else if 0x10000 ≤ o ∧ o < 0x10200 then s.msixTable fn (o - 0x10000) w
  else s

/-- The mailbox of function k (R537, R538). A malformed request returns its code where no access is in progress (R562). `off` and `bs`
give the bytes of a write to DM_DATA. -/
def State.dmWrite (s : State) (k off : Nat) (bs : List Byte) (w : RegVal) : State :=
  let o := off / 8 * 8
  let v := w.merge 0
  let idx := v % 65536
  let sub := field v 23 16
  let op := field v 25 24
  if o = 0x00 then
    if !w.lo then s
    else if op = 3 || v / 2 ^ 26 % 64 ≠ 0 then
      let t := s.logErr Code.DICT_REQ k 9 k (v % 2 ^ 32) (some k)
      if s.dmDone k then t.dmResult k Code.DICT_REQ true else t
    else if op ≠ 0 && !s.dmDone k then s.logErr Code.DICT_BUSY k 4 (dkey idx sub) 0 (some k)
    else
      let s := s.setReg (dmReg k 0) (BitVec.ofNat 64 (v % 2 ^ 26))
      if h : k < 64 then
        if op = 1 then s.mailGet ⟨k, h⟩ idx sub
        else if op = 2 then s.mailPut ⟨k, h⟩ idx sub (Tbl.getList 0 s.dm (k * 65536) (min (s.reg (dmReg k 8)).toNat 65536))
        else s
      else s
  else if !s.dmDone k then s
  else if o = 0x08 then (if w.lo then s.setReg (dmReg k 8) (BitVec.ofNat 64 (v % 2 ^ 17)) else s)
  else if 0x10000 ≤ off ∧ off < 0x20000 then s.dmPut k (off - 0x10000) bs
  else s

/-- A write at an offset of the register map by function k. Read-only and unassigned offsets discard it (R9, Table 0.4). -/
def State.mapWrite (s : State) (k off size : Nat) (v : W64) : State :=
  let w := regVal off size v
  let o := off / 8 * 8
  if detBase ≤ o ∧ o < detBase + 0x4000 then
    (if o % 16 = 8 && !w.lo then s else s.genWrite (o - detBase) (w.merge (s.reg o).toNat))
  else if dmBase ≤ o ∧ o < dmBase + 0x20000 then s.dmWrite k (off - dmBase) (bytesLE size v.toNat) w
  else if 0x01000000 ≤ o ∧ o < 0x02000000 then s.ibexWrite ((o - 0x01000000) / 0x200000) (o % 0x200000) w
  else if o = gzBase then (if w.lo then s.gzCfg (w.merge 0) else s)
  else if gzBase + 0x1000 ≤ o ∧ o < gzBase + 0x1400 then
    (let n := (o - gzBase - 0x1000) / 16
     if o % 16 = 0 && w.lo then s.inTail k n (BitVec.ofNat 32 (w.merge 0))
     else if s.strFn n ≠ k then s.hpLog Code.HP_NOT_OWNER k 1 n (w.merge 0)
     else s)
  else if o = preBase + 0x68 then s.clearErr o w
  else if schBase ≤ o ∧ o < schBase + 0x18000 then s.schWrite k (o - schBase) w
  else if o = memBase + 0x80 then s.clearErr o w
  else if intBase ≤ o ∧ o < intBase + 0x60 then s.intWrite (o - intBase) w
  else if coilBase ≤ o ∧ o < coilBase + 0x88 then s.coilWrite k (o - coilBase) w
  else if o = tthBase + 0x200 then s.clearErr o w
  else if hpBase ≤ o ∧ o < hpBase + 0x10200 then s.hpWrite k (o - hpBase) w
  else s

/-- An access of BAR0 against R492. -/
def badAccess (off size : Nat) : Bool := (size != 4 && size != 8) || off % size != 0

/-- REGISTER_WRITE (R7, R492 to R494): an access of a wrong size or alignment is logged and discarded; HP_CONTAIN takes a write while
the port is frozen (R516), and PF0's mailbox in recovery (R578). -/
def execRegisterWrite (fn : Fn) (off size : Nat) (v : W64) (nowUs : Nat) (s : State) : Host.Outcome State Fault Refusal :=
  let k := fn.val
  let place := if k = 0 then some off else vfOffset k off
  let act := fun (s : State) =>
    if badAccess off size then s.hpLog Code.HP_ACCESS k 9 k off
    else match place with
      | some o => (s.timeIs nowUs).mapWrite k o size v
      | none => s
  if k = 0 ∧ off / 8 * 8 = hpBase + 8 ∧ s.frozen ∧ s.stage = 11 ∧ s.power ≠ 3 then go (act (s.received size))
  else if k = 0 ∧ dmBase ≤ off ∧ off < dmBase + 0x20000 then s.hostDict k size act
  else s.hostAct k size act

end Sys2Proof.Machine
end

