-- ==== Sys2Proof/Machine/Scrub.lean ====
section
/-! DEFINITION. The scrubber of the on-die memories (R430, R431, Table 12.1). -/

namespace Sys2Proof.Machine

/-- A syndrome that names one bit (R417). -/
def correctable (syn : Nat) : Bool := popcount 8 syn == 1 || wordCols.contains syn

/-- An uncorrectable word of a valid mask: every byte it covers is treated as valid and is written (Table 12.1); a byte that no write has
placed is a fresh value (DESIGN CHOICE, log entry 62). -/
def State.maskLost (s : State) (e : Splice) (i : Nat) : State :=
  let r := (List.range 64).foldl (fun (x : State × Splice) b =>
    if (Tbl.get none x.2.data (64 * i + b)).isSome then x
    else
      let (w, s) := x.1.freshWord
      (s, x.2.put (64 * i + b) [w.setWidth 8])) (s, e)
  { r.1 with mem := { r.1.mem with splice := r.1.mem.splice.map fun (x : Splice) => if x.page = e.page then r.2 else x } }.flushFull e.page

/-- SRAM_SCRUB (R430, Table 12.1): the scrubber reads a word whose stored bits differ from the intended ones by
`dataFlip` and whose check bits differ by `checkFlip`, beside any flip that is stored. A correctable error is rewritten;
an uncorrectable one is handled as the domain's row states. -/
def execSramScrub (site : SramSite) (dataFlip : W64) (checkFlip : Byte) (s : State) : Host.Outcome State Fault Refusal :=
  let seen := (checkByte dataFlip.toNat) ^^^ checkFlip.toNat
  let ce := s.countEntry 0x1500 0x55 1
  let ue := fun (s : State) (dom a : Nat) => (s.countEntry 0x1500 0x56 1).intErr Code.MEM_SRAM_UE dom a
  match site with
  | .scratchpad n w =>
    let syn := seen ^^^ (Tbl.get 0 (s.ib n.val).spmSyn w).toNat
    let data := natLE (Tbl.getList 0 (s.ib n.val).spm (8 * w) 8) ^^^ dataFlip.toNat
    if syn = 0 then go s
    else match (decodeWord data syn).value with
      | some v => go (ce.modIb n.val fun i => { i with spm := Tbl.setList 0 i.spm (8 * w) (bytesLE 8 v), spmSyn := Tbl.set 0 i.spmSyn w 0 })
      | none => go ((ue s 2 (8 * w)).modIb n.val fun i =>
          { i with spm := Tbl.setList 0 i.spm (8 * w) (bytesLE 8 0), spmSyn := Tbl.set 0 i.spmSyn w 0x7F })
  | .accumulator n entry pair =>
    let k := entry.val * 256 + 2 * pair.val
    let a := entry.val * 128 + pair.val
    let syn := seen ^^^ (Tbl.get 0 (s.ib n.val).accSyn a).toNat
    let data := ((Tbl.get 0 (s.ib n.val).acc k).toNat + (Tbl.get 0 (s.ib n.val).acc (k + 1)).toNat * 2 ^ 32) ^^^ dataFlip.toNat
    if syn = 0 then go s
    else
      let put := fun (v syn : Nat) (s : State) => s.modIb n.val fun i =>
        { i with acc := Tbl.set 0 (Tbl.set 0 i.acc k (BitVec.ofNat 32 v)) (k + 1) (BitVec.ofNat 32 (v / 2 ^ 32)),
                 accSyn := Tbl.set 0 i.accSyn a (BitVec.ofNat 8 syn) }
      match (decodeWord data syn).value with
      | some v => go (put v 0 (s.count (ibexReg n.val 1 0x68) 1))
      | none => go (put data syn (ue s 3 a))
  | .cacheData a =>
    match Tbl.get none s.mem.lines (a / 128) with
    | none => go s
    | some l =>
      let syn := seen ^^^ (Tbl.get 0 s.mem.lineSyn (a / 8)).toNat
      let data := l.word (a % 128 / 8) ^^^ dataFlip.toNat
      if syn = 0 then go s
      else match (decodeWord data syn).value with
        | some v =>
          let l' := l.rewrite (a % 128 / 8) v
          go (ce.setLine (a / 128) l' (a % 128 / 8) 0)
        | none =>
          if l.dirty then go (((ue s 4 a).setLine (a / 128) (l.rewrite (a % 128 / 8) 0) (a % 128 / 8) 0x7F).evictLine (a / 128))
          else go (s.dropLine (a / 128))
  | .cacheTag a =>
    match Tbl.get none s.mem.lines (a / 128) with
    | none => go s
    | some _ => go (if seen = 0 then s else if correctable seen then ce else s.tagUe site)
  | .splice a =>
    let k := physKey (s.mapAddr a)
    match s.mem.entry (k / 2048) with
    | none => go s
    | some e =>
      let syn := seen ^^^ (Tbl.get 0 s.mem.splSyn (k / 8)).toNat
      let data := e.merge (k % 2048 / 8) 0 ^^^ dataFlip.toNat
      if syn = 0 then go s
      else match (decodeWord data syn).value with
        | some v => go { ce with mem := { ce.mem with
            splice := ce.mem.splice.map (fun x => if x.page = e.page then x.rewrite (k % 2048 / 8) v else x), splSyn := Tbl.set 0 ce.mem.splSyn (k / 8) 0 } }
        | none => let s := ue s 5 a
          go { s with mem := { s.mem with splice := s.mem.splice.map (fun x => if x.page = e.page then x.rewrite (k % 2048 / 8) 0 else x),
                                          splSyn := Tbl.set 0 s.mem.splSyn (k / 8) 0x7F } }
  | .spliceMask page i =>
    match s.mem.entry page with
    | none => go s
    | some e =>
      if seen = 0 then go s
      else if correctable seen then go ce
      else go ((ue s 5 (page * 2048 + 64 * i.val)).maskLost e i.val)
  | .spliceTag a =>
    match s.mem.entry (physKey (s.mapAddr a) / 2048) with
    | none => go s
    | some _ => go (if seen = 0 then s else if correctable seen then ce else s.tagUe site)
  | .oryx =>
    if seen = 0 then go s
    else if correctable seen then go ce
    else execOryxUe (ue s 7 0)

end Sys2Proof.Machine
end

