-- ==== Sys2Proof/Machine/Dispatch.lean ====
section
/-! DEFINITION. The meaning of every command: one direct call per constructor of `Instr`. -/

namespace Sys2Proof.Machine

def exec (i : Instr) (s : State) : Host.Outcome State Fault Refusal :=
  match i with
  | .registerWrite fn off size v nowUs => Sys2Proof.Machine.execRegisterWrite fn off size v nowUs s
  | .brdCfgWrite fn n v => Sys2Proof.Machine.execBrdCfgWrite fn n v s
  | .wlkCfgWrite fn n v => Sys2Proof.Machine.execWlkCfgWrite fn n v s
  | .gzCfgWrite fn v => Sys2Proof.Machine.execGzCfgWrite fn v s
  | .instructionLoad n cycles => Sys2Proof.Machine.execInstructionLoad n cycles s
  | .nop n => Sys2Proof.Machine.execNop n s
  | .endStep n cycles => Sys2Proof.Machine.execEndStep n cycles s
  | .layer n => Sys2Proof.Machine.execLayer n s
  | .mm n => Sys2Proof.Machine.execMm n s
  | .shadowLoad n q => Sys2Proof.Machine.execShadowLoad n q s
  | .knotIssue n q held => Sys2Proof.Machine.execKnotIssue n q held s
  | .brdKnotHold n q => Sys2Proof.Machine.execBrdKnotHold n q s
  | .regionFault n hit also => Sys2Proof.Machine.execRegionFault n hit also s
  | .outputTile n => Sys2Proof.Machine.execOutputTile n s
  | .rampDown n => Sys2Proof.Machine.execRampDown n s
  | .rampGroupStep n => Sys2Proof.Machine.execRampGroupStep n s
  | .clusterReset n inFlight => Sys2Proof.Machine.execClusterReset n inFlight s
  | .syncRelease q => Sys2Proof.Machine.execSyncRelease q s
  | .walkerPreempt n cycles => Sys2Proof.Machine.execWalkerPreempt n cycles s
  | .walkFetchTo n q => Sys2Proof.Machine.execWalkFetchTo n q s
  | .walkMemUe n q => Sys2Proof.Machine.execWalkMemUe n q s
  | .wconv n => Sys2Proof.Machine.execWconv n s
  | .wpool n stop => Sys2Proof.Machine.execWpool n stop s
  | .wresample n stop => Sys2Proof.Machine.execWresample n stop s
  | .wregroup n stop => Sys2Proof.Machine.execWregroup n stop s
  | .ssort n stop => Sys2Proof.Machine.execSsort n stop s
  | .hist n => Sys2Proof.Machine.execHist n s
  | .layerDecision q => Sys2Proof.Machine.execLayerDecision q s
  | .vseq n stop => Sys2Proof.Machine.execVseq n stop s
  | .vred n stop => Sys2Proof.Machine.execVred n stop s
  | .vmove n stop => Sys2Proof.Machine.execVmove n stop s
  | .vopt n stop => Sys2Proof.Machine.execVopt n stop s
  | .track n => Sys2Proof.Machine.execTrack n s
  | .emit n => Sys2Proof.Machine.execEmit n s
  | .sclWatchdog n => Sys2Proof.Machine.execSclWatchdog n s
  | .hwait n cycles => Sys2Proof.Machine.execHwait n cycles s
  | .hsignal n => Sys2Proof.Machine.execHsignal n s
  | .hacquire n cycles => Sys2Proof.Machine.execHacquire n cycles s
  | .hrelease n => Sys2Proof.Machine.execHrelease n s
  | .hitchTimeout q => Sys2Proof.Machine.execHitchTimeout q s
  | .schHsigWrite fn v => Sys2Proof.Machine.execSchHsigWrite fn v s
  | .schHitchWrite fn k v => Sys2Proof.Machine.execSchHitchWrite fn k v s
  | .gzInTailWrite fn n v => Sys2Proof.Machine.execGzInTailWrite fn n v s
  | .chunkFetch n => Sys2Proof.Machine.execChunkFetch n s
  | .chunkArrival n got => Sys2Proof.Machine.execChunkArrival n got s
  | .auTimeout n => Sys2Proof.Machine.execAuTimeout n s
  | .creditTick n => Sys2Proof.Machine.execCreditTick n s
  | .entropySelect e aus => Sys2Proof.Machine.execEntropySelect e aus s
  | .syntaxStallResume e => Sys2Proof.Machine.execSyntaxStallResume e s
  | .syntaxComplete e => Sys2Proof.Machine.execSyntaxComplete e s
  | .pixelUnitStart p => Sys2Proof.Machine.execPixelUnitStart p s
  | .pixelUnitDone p r => Sys2Proof.Machine.execPixelUnitDone p r s
  | .vidEngineTo e => Sys2Proof.Machine.execVidEngineTo e s
  | .streamOpen o n => Sys2Proof.Machine.execStreamOpen o n s
  | .streamClose o n => Sys2Proof.Machine.execStreamClose o n s
  | .streamReset o n => Sys2Proof.Machine.execStreamReset o n s
  | .dictWrite o index sub value => Sys2Proof.Machine.execDictWrite o index sub value s
  | .dictRead o index sub => Sys2Proof.Machine.execDictRead o index sub s
  | .commitDone ok => Sys2Proof.Machine.execCommitDone ok s
  | .restore o v => Sys2Proof.Machine.execRestore o v s
  | .clear o v => Sys2Proof.Machine.execClear o v s
  | .snap o v => Sys2Proof.Machine.execSnap o v s
  | .snapDone => Sys2Proof.Machine.execSnapDone s
  | .apply o v => Sys2Proof.Machine.execApply o v s
  | .slotTakePicture q slot => Sys2Proof.Machine.execSlotTakePicture q slot s
  | .workItemStart e => Sys2Proof.Machine.execWorkItemStart e s
  | .workItemDone e cycles => Sys2Proof.Machine.execWorkItemDone e cycles s
  | .slotVoid q slot => Sys2Proof.Machine.execSlotVoid q slot s
  | .fillClose q => Sys2Proof.Machine.execFillClose q s
  | .periodOpen src nowUs => Sys2Proof.Machine.execPeriodOpen src nowUs s
  | .passLimitExpiry q => Sys2Proof.Machine.execPassLimitExpiry q s
  | .contextEnable o c => Sys2Proof.Machine.execContextEnable o c s
  | .contextReady c => Sys2Proof.Machine.execContextReady c s
  | .contextDisable o c => Sys2Proof.Machine.execContextDisable o c s
  | .contextDisabled c => Sys2Proof.Machine.execContextDisabled c s
  | .clearFault o c => Sys2Proof.Machine.execClearFault o c s
  | .bind fn q nowUs => Sys2Proof.Machine.execBind fn q nowUs s
  | .unbind fn q => Sys2Proof.Machine.execUnbind fn q s
  | .queueRead fn q => Sys2Proof.Machine.execQueueRead fn q s
  | .doorbellWrite fn q tail => Sys2Proof.Machine.execDoorbellWrite fn q tail s
  | .descFetch q => Sys2Proof.Machine.execDescFetch q s
  | .descArrival q d nowUs => Sys2Proof.Machine.execDescArrival q d nowUs s
  | .saveDone q ok => Sys2Proof.Machine.execSaveDone q ok s
  | .restoreDone q ok => Sys2Proof.Machine.execRestoreDone q ok s
  | .ledgerTick c a => Sys2Proof.Machine.execLedgerTick c a s
  | .genFillDone q => Sys2Proof.Machine.execGenFillDone q s
  | .detGenWrite fn off v => Sys2Proof.Machine.execDetGenWrite fn off v s
  | .cacheRead r addr len => Sys2Proof.Machine.execCacheRead r addr len s
  | .cacheWrite r addr bs => Sys2Proof.Machine.execCacheWrite r addr bs s
  | .cacheAtomic addr add => Sys2Proof.Machine.execCacheAtomic addr add s
  | .cacheFill p waited => Sys2Proof.Machine.execCacheFill p waited s
  | .refresh p => Sys2Proof.Machine.execRefresh p s
  | .selfRefreshEntry p => Sys2Proof.Machine.execSelfRefreshEntry p s
  | .powerDownEntry p => Sys2Proof.Machine.execPowerDownEntry p s
  | .stackTempRead celsius => Sys2Proof.Machine.execStackTempRead celsius s
  | .cmdParityError p => Sys2Proof.Machine.execCmdParityError p s
  | .pageRebuild addr => Sys2Proof.Machine.execPageRebuild addr s
  | .spliceWrite addr bs => Sys2Proof.Machine.execSpliceWrite addr bs s
  | .spliceHoldExpiry page => Sys2Proof.Machine.execSpliceHoldExpiry page s
  | .scrubPage => Sys2Proof.Machine.execScrubPage s
  | .sramScrub site dataFlip checkFlip => Sys2Proof.Machine.execSramScrub site dataFlip checkFlip s
  | .memTagUe site => Sys2Proof.Machine.execMemTagUe site s
  | .flipArm fn v => Sys2Proof.Machine.execFlipArm fn v s
  | .coilRequest owner bytes waitUs => Sys2Proof.Machine.execCoilRequest owner bytes waitUs s
  | .coilZeroDone pool k => Sys2Proof.Machine.execCoilZeroDone pool k s
  | .coilTimeout owner => Sys2Proof.Machine.execCoilTimeout owner s
  | .bufferRelease pool k => Sys2Proof.Machine.execBufferRelease pool k s
  | .alloc fn cmd => Sys2Proof.Machine.execAlloc fn cmd s
  | .free fn cmd => Sys2Proof.Machine.execFree fn cmd s
  | .reserve fn cmd => Sys2Proof.Machine.execReserve fn cmd s
  | .query fn cmd => Sys2Proof.Machine.execQuery fn cmd s
  | .powerSample r => Sys2Proof.Machine.execPowerSample r s
  | .slowLoopTick => Sys2Proof.Machine.execSlowLoopTick s
  | .energyTick a => Sys2Proof.Machine.execEnergyTick a s
  | .droopFire n => Sys2Proof.Machine.execDroopFire n s
  | .droopHoldEnd => Sys2Proof.Machine.execDroopHoldEnd s
  | .tempSample t => Sys2Proof.Machine.execTempSample t s
  | .thermalTrip => Sys2Proof.Machine.execThermalTrip s
  | .thermtripRelease t => Sys2Proof.Machine.execThermtripRelease t s
  | .idleEntry => Sys2Proof.Machine.execIdleEntry s
  | .napEntry => Sys2Proof.Machine.execNapEntry s
  | .run o => Sys2Proof.Machine.execRun o s
  | .nap o => Sys2Proof.Machine.execNap o s
  | .standby o => Sys2Proof.Machine.execStandby o s
  | .wake o => Sys2Proof.Machine.execWake o s
  | .wakeEvent => Sys2Proof.Machine.execWakeEvent s
  | .napExitDone => Sys2Proof.Machine.execNapExitDone s
  | .vin12OutOfRange mv => Sys2Proof.Machine.execVin12OutOfRange mv s
  | .vin12Overcurrent => Sys2Proof.Machine.execVin12Overcurrent s
  | .vin12Return mv => Sys2Proof.Machine.execVin12Return mv s
  | .auxSwitch inRange => Sys2Proof.Machine.execAuxSwitch inRange s
  | .coldStart => Sys2Proof.Machine.execColdStart s
  | .startStageDone r => Sys2Proof.Machine.execStartStageDone r s
  | .startTimeout => Sys2Proof.Machine.execStartTimeout s
  | .oryxWatchdog => Sys2Proof.Machine.execOryxWatchdog s
  | .oryxUe => Sys2Proof.Machine.execOryxUe s
  | .warm o => Sys2Proof.Machine.execWarm o s
  | .confirm o => Sys2Proof.Machine.execConfirm o s
  | .confirmTimer => Sys2Proof.Machine.execConfirmTimer s
  | .advance o => Sys2Proof.Machine.execAdvance o s
  | .updBegin o value => Sys2Proof.Machine.execUpdBegin o value s
  | .updChunk o value => Sys2Proof.Machine.execUpdChunk o value s
  | .updEnd o v => Sys2Proof.Machine.execUpdEnd o v s
  | .updProgramDone flashOk => Sys2Proof.Machine.execUpdProgramDone flashOk s
  | .updActivate o v => Sys2Proof.Machine.execUpdActivate o v s
  | .updAbort o v => Sys2Proof.Machine.execUpdAbort o v s
  | .extend o value => Sys2Proof.Machine.execExtend o value s
  | .attReq o v => Sys2Proof.Machine.execAttReq o v s
  | .attSignDone => Sys2Proof.Machine.execAttSignDone s
  | .devicePkDerived => Sys2Proof.Machine.execDevicePkDerived s
  | .dpWindowWrite fn off bs poisoned => Sys2Proof.Machine.execDpWindowWrite fn off bs poisoned s
  | .dpWindowRead fn off len => Sys2Proof.Machine.execDpWindowRead fn off len s
  | .dpStreamWrite fn bs allEnables poisoned => Sys2Proof.Machine.execDpStreamWrite fn bs allEnables poisoned s
  | .dpStreamRead fn len allEnables => Sys2Proof.Machine.execDpStreamRead fn len allEnables s
  | .crConfigWrite fn n reg v => Sys2Proof.Machine.execCrConfigWrite fn n reg v s
  | .crHeadWrite fn n v => Sys2Proof.Machine.execCrHeadWrite fn n v s
  | .coalTimer n => Sys2Proof.Machine.execCoalTimer n s
  | .hpFnWrite fn k v atsEnable => Sys2Proof.Machine.execHpFnWrite fn k v atsEnable s
  | .atsTranslation fn x => Sys2Proof.Machine.execAtsTranslation fn x s
  | .atsInvalidate fn page log2 => Sys2Proof.Machine.execAtsInvalidate fn page log2 s
  | .cplTimeout r => Sys2Proof.Machine.execCplTimeout r s
  | .bmeClear fn => Sys2Proof.Machine.execBmeClear fn s
  | .bmeSet fn => Sys2Proof.Machine.execBmeSet fn s
  | .d3hotEntry fn => Sys2Proof.Machine.execD3hotEntry fn s
  | .d0Return fn => Sys2Proof.Machine.execD0Return fn s
  | .vfEnableChange enable num => Sys2Proof.Machine.execVfEnableChange enable num s
  | .linkDown => Sys2Proof.Machine.execLinkDown s
  | .linkUp speed width => Sys2Proof.Machine.execLinkUp speed width s
  | .hpInternalError => Sys2Proof.Machine.execHpInternalError s
  | .fatalTlp => Sys2Proof.Machine.execFatalTlp s
  | .freeze fn => Sys2Proof.Machine.execFreeze fn s
  | .release o => Sys2Proof.Machine.execRelease o s
  | .flr fn => Sys2Proof.Machine.execFlr fn s
  | .flrDone fn => Sys2Proof.Machine.execFlrDone fn s
  | .perst => Sys2Proof.Machine.execPerst s
  | .perstDeassert => Sys2Proof.Machine.execPerstDeassert s
  | .hotReset => Sys2Proof.Machine.execHotReset s
  | .linkL1Exit => Sys2Proof.Machine.execLinkL1Exit s
  | .kdpRead f => Sys2Proof.Machine.execKdpRead f s
  | .readSeg f => Sys2Proof.Machine.execReadSeg f s
  | .kdpWrite f => Sys2Proof.Machine.execKdpWrite f s
  | .writeSeg f => Sys2Proof.Machine.execWriteSeg f s
  | .abort f => Sys2Proof.Machine.execAbort f s
  | .discover f => Sys2Proof.Machine.execDiscover f s
  | .badFrame => Sys2Proof.Machine.execBadFrame s
  | .kdpDupId => Sys2Proof.Machine.execKdpDupId s
  | .kdpTimeout => Sys2Proof.Machine.execKdpTimeout s
  | .claimListenEnd => Sys2Proof.Machine.execClaimListenEnd s
  | .heartbeat => Sys2Proof.Machine.execHeartbeat s
  | .errorEvent => Sys2Proof.Machine.execErrorEvent s
  | .busOff => Sys2Proof.Machine.execBusOff s
  | .busOffRecovery => Sys2Proof.Machine.execBusOffRecovery s
  | .canTermChange high => Sys2Proof.Machine.execCanTermChange high s
  | .tapInstruction t => Sys2Proof.Machine.execTapInstruction t s
  | .testLogicReset => Sys2Proof.Machine.execTestLogicReset s
  | .streamResetDone n => Sys2Proof.Machine.execStreamResetDone n s
  | .streamCloseDone n => Sys2Proof.Machine.execStreamCloseDone n s
  | .napStageDone => Sys2Proof.Machine.execNapStageDone s
  | .powerLoss => Sys2Proof.Machine.execPowerLoss s
  | .canBusError tec rec => Sys2Proof.Machine.execCanBusError tec rec s
  | .msixUnmask fn vec => Sys2Proof.Machine.execMsixUnmask fn vec s
  | .atsEnableClear fn => Sys2Proof.Machine.execAtsEnableClear fn s
  | .voltageSlewDone => Sys2Proof.Machine.execVoltageSlewDone s

end Sys2Proof.Machine
end

