-- ==== Sys2Proof/Safety.lean ====
section
/-! DEFINITION. What a state of the device satisfies whatever is commanded: its tables are in their one canonical form, so
that equal contents are equal data, and the error log holds at most 64 records (R557). -/

namespace Sys2Proof.Machine

/-- Keys strictly rising, and no entry equal to what its key reads as when it is not listed. -/
def Tbl.canon {α : Type} [DecidableEq α] (d : Nat → α) : Tbl α → Bool
  | [] => true
  | [(k, v)] => decide (v ≠ d k)
  | (k, v) :: (l, w) :: t => decide (v ≠ d k) && decide (k < l) && Tbl.canon d ((l, w) :: t)

/-- The canonical form of a table whose unlisted keys read as `d`. -/
abbrev Tbl.ok {α : Type} [DecidableEq α] (d : α) (t : Tbl α) : Prop := Tbl.canon (fun _ => d) t = true

/-- The canonical form of the memory: bytes of HBM by location, an unlisted location reads 0 (log entry 6), their syndromes and
page check words, the lines of the cache, the words in flight, and the state of the pseudo-channels. -/
abbrev Memory.wf (m : Mem) : Prop :=
  Tbl.ok 0 m.hbm ∧ Tbl.ok 0 m.syn ∧ Tbl.ok {} m.chk ∧ Tbl.ok none m.lines ∧ Tbl.ok 0 m.lineSyn ∧ Tbl.ok 0 m.splSyn ∧
    Tbl.ok .active m.power ∧ Tbl.ok 0 m.retries ∧ Tbl.ok 0 m.rows

/-- The canonical form of an Ibex cluster's memories: scratchpad, accumulators, resident slots and regions. -/
structure Ibex.ok (i : Ibex) : Prop where
  spm : Tbl.ok 0 i.spm
  spmSyn : Tbl.ok 0 i.spmSyn
  acc : Tbl.ok 0 i.acc
  accSyn : Tbl.ok 0 i.accSyn
  slots : Tbl.ok none i.slots
  regions : Tbl.ok {} i.regions

/-- The canonical form of the Coil's tables. -/
structure Coil.ok (c : Coil) : Prop where
  buffers : Tbl.ok 0 c.buffers
  bases : Tbl.ok 0 c.bases
  bufs : Tbl.ok {} c.bufs
  resv : Tbl.ok 0 c.resv

/-- The canonical form of the engines' tables. -/
structure Video.ok (v : Video) : Prop where
  ee : Tbl.ok none v.ee
  pe : Tbl.ok none v.pe
  pre : Tbl.ok none v.pre

/-- The canonical form of the start state's tables. -/
structure Start.ok (x : Start) : Prop where
  slots : Tbl.ok none x.slots
  kept : Tbl.ok none x.kept
  changed : Tbl.ok false x.changed
  mrs : Tbl.ok (List.replicate 64 0) x.mrs
  slotState : Tbl.ok 0 x.slotState

/-- The invariant that every command keeps. -/
structure State.Inv (s : State) : Prop where
  /-- registers, against their reset values -/
  regs : Tbl.canon regReset s.regs = true
  /-- dictionary entries, against their defaults -/
  dict : Tbl.canon dictReset s.dict = true
  /-- the 64 newest error records (R557) -/
  log  : s.log.length ≤ 64
  mem  : Memory.wf s.mem
  /-- the mailboxes' DM_DATA -/
  dm   : Tbl.ok 0 s.dm
  /-- the records of the Ibex clusters, and each cluster's memories -/
  ibex : Tbl.ok {} s.ibex
  ibexes : ∀ e ∈ s.ibex, e.2.ok
  /-- the records of the streams, queues, hitches, contexts and functions -/
  streams : Tbl.ok {} s.streams
  queues : Tbl.ok {} s.sch.queues
  hitches : Tbl.ok {} s.sch.hitches
  ctxs : Tbl.ok {} s.sch.ctxs
  fns  : Tbl.ok {} s.hp.fns
  /-- the activity counters of the contexts -/
  acts : Tbl.ok {} s.acts.ctxs
  coil : s.coil.ok
  vid  : s.vid.ok
  start : s.start.ok

/-- The device serves function k's host: READY, in Run, no Nap entry in progress, the port not frozen, and the function exists (R490, R578,
R516, Table 14.6). -/
structure State.Serving (s : State) (k : Nat) : Prop where
  fn : s.enabled k = true
  ready : s.stage = 11
  run : s.power = 0
  noNap : s.tth.nap = 0
  live : s.frozen = false

/-- A dictionary access of an origin reaches the store: KDP's in Run of a READY device, a function's through its mailbox, which is
not in use (R538). -/
def State.Reaches (s : State) : Origin → Prop
  | .kdp => s.stage = 11 ∧ s.power = 0 ∧ s.tth.nap = 0
  | .fn k => s.Serving k.val ∧ s.dmDone k.val = true

/-- The state in which the effect of a dictionary write runs: a mailbox holds the request, whose bytes the port has counted (R538). -/
def State.asked (s : State) (o : Origin) (idx sub : Nat) (v : List Byte) : State :=
  match o with
  | .kdp => s
  | .fn k => (s.received (8 + v.length)).dmRequest k.val idx sub true v

/-- The state with an access answered: a mailbox shows RESULT and DONE (R538); KDP's answer is its frame's. -/
def State.answered (s : State) (o : Origin) (code : W16) : State :=
  match o with
  | .kdp => s
  | .fn k => s.dmResult k.val code true

/-- The state with an access whose result waits for a commit: a mailbox keeps DONE 0 (R539). -/
def State.awaited (s : State) (o : Origin) : State :=
  match o with
  | .kdp => s
  | .fn k => s.dmResult k.val 0 false

/-- No error is stored in the scratchpad or the accumulators of Ibex n, and no flip is armed that would store one (R434): every read of
these memories gives what was written. -/
structure State.Clean (s : State) (n : Nat) : Prop where
  spm : (s.ib n).spmSyn = []
  acc : (s.ib n).accSyn = []
  flip : ∀ d, s.flipArmed d = false

/-- Every tensor of a loaded instruction, and the parameter vectors of its set, lie in the scratchpad. -/
structure Loaded.InSpm (l : Loaded) : Prop where
  descs : ∀ d, some d ∈ l.descs → d.spm = true
  params : opsBit l.opset 6 = true

/-! What a command leaves unchanged: every part of the state but the ones named. -/

/-- Registers outside the list read as before. -/
def State.RegsBut (s t : State) (ks : List Nat) : Prop := ∀ k, k ∉ ks → t.reg k = s.reg k

/-- Dictionary entries outside the list read as before. -/
def State.EntriesBut (s t : State) (ks : List Nat) : Prop := ∀ i j, dkey i j ∉ ks → t.entry i j = s.entry i j

/-- Ibex clusters but n stand as before. -/
def State.IbexesBut (s t : State) (n : Nat) : Prop := ∀ m, m ≠ n → t.ib m = s.ib m

/-- Streams but n stand as before. -/
def State.StreamsBut (s t : State) (n : Nat) : Prop := ∀ m, m ≠ n → t.stream m = s.stream m

/-- Queues but q stand as before. -/
def State.QueuesBut (s t : State) (q : Nat) : Prop := ∀ p, p ≠ q → t.queue p = s.queue p

/-- Hitches but k stand as before. -/
def State.HitchesBut (s t : State) (k : Nat) : Prop := ∀ j, j ≠ k → t.hitch j = s.hitch j

/-- Functions but k stand as before. -/
def State.FnsBut (s t : State) (k : Nat) : Prop := ∀ j, j ≠ k → t.fn j = s.fn j

end Sys2Proof.Machine
end

