-- ==== Sys2Proof/Certificates/Slice0/Obligations.lean ====
section
/-! DEFINITION. The statements for the provers. Each quantifies over states that satisfy the invariant of Safety.lean (or over
all states), also those that no run reaches. -/

open Sys2Proof Sys2Proof.Machine

/-- A step runs the command at the front of the queue on the state with the queue's rest; an empty queue idles (log entries 1, 3:
the queue is the model's, not the spec's). -/
def Obligations.StepRunsFrontCommand : Prop :=
  (∀ (s : State) (c : Instr) (cs : List Instr), step { s with pending := c :: cs } = exec c { s with pending := cs }) ∧
  ∀ s : State, s.pending = [] → step s = .next s

/-- The reset values that the tables give: registers, entries, and empty queues and logs. That an unlisted byte of HBM reads 0 is the
model's choice (log entry 6) and no part of this. -/
def Obligations.PowerOnState : Prop :=
  State.reset.pending = [] ∧ State.reset.out = [] ∧ State.reset.log = [] ∧ State.reset.stage = 0 ∧
  (∀ n : IbexId, State.reset.reg (ibexReg n.val 1 0) = 0x01000801 ∧ State.reset.reg (ibexReg n.val 2 0) = 0x100) ∧
  State.reset.reg gzBase = 0x010003E8 ∧ (∀ k : Fn, State.reset.dmDone k.val = true) ∧
  (∀ c : Fin 1024, State.reset.ctxState c.val = 0) ∧ (∀ n : StreamId, State.reset.str n.val 0x02 = 0) ∧
  (∀ q : QueueId, (State.reset.queue q.val).bound = false) ∧ State.reset.mem.hbm = []

/-- The invariant that InvariantKept rests on holds at reset. -/
def Obligations.InvariantAtReset : Prop := State.reset.Inv

/-- Every step keeps the invariant: no command leaves a table out of its canonical form or the error log above its 64 records. -/
def Obligations.InvariantKept : Prop := ∀ s t : State, s.Inv → step s = .next t → t.Inv

/-- The meaning of every command is total: every command answers a next state in every state. -/
def Obligations.EveryCommandAnswers : Prop := ∀ (c : Instr) (s : State), ∃ t, exec c s = .next t

/-- What has left the device stands, in its order (R508), and a command leaves the queue alone (log entries 1, 3). -/
def Obligations.SentStands : Prop :=
  ∀ (c : Instr) (s t : State), exec c s = .next t → s.out <+: t.out ∧ t.pending = s.pending ∧ s.fresh ≤ t.fresh

/-- R61: the code of a converted finite value is finite in the target (a block-scaled target converts its elements to S8 or E2M1). -/
def Obligations.FiniteConvertsFinite : Prop :=
  (∀ (f : Fmt) (neg : Bool) (m : Nat) (e : Int), f.isBlock = false → (decodeElem f (convert f (.fin neg m e)).1).isSpecial = false) ∧
  ∀ (f : Fmt) (neg : Bool) (m : Nat) (e : Int), f.isInt = false → f.isBlock = false →
    (decodeFloat f (convert f (.fin neg m e)).1).isSpecial = false ∧
    (convert f (.fin neg m e)).1 % f.signWeight ≤ f.maxCode ∧ (convert f (.fin neg m e)).1 < 2 * f.signWeight ∧
    (f.maxVal.le (.fin false m e) = true → (convert f (.fin neg m e)).1 % f.signWeight = f.maxCode)

/-- Table 2.5 for a float target. Row 4: of all codes up to the largest finite one the greatest whose value does not exceed the
source's magnitude, so truncation toward zero to the nearest target value; the sign is kept (R51). -/
def Obligations.FloatConversionRule : Prop :=
  ∀ f : Fmt, f.isInt = false → f.isBlock = false →
    convert f .nan = (if f.hasNaN then (f.nanCode, false) else (0, true)) ∧
    (∀ neg : Bool, convert f (.inf neg) =
      ((if neg then f.signWeight else 0) + (if f.hasInf then f.infCode else f.maxCode), !f.hasInf)) ∧
    ∀ (neg : Bool) (m : Nat) (e : Int),
      (f.maxVal.lt (.fin false m e) = true →
        convert f (.fin neg m e) = ((if neg then f.signWeight else 0) + f.maxCode, true)) ∧
      (f.maxVal.lt (.fin false m e) = false → ∃ b : Nat,
        convert f (.fin neg m e) = ((if neg then f.signWeight else 0) + b, false) ∧ b ≤ f.maxCode ∧
        (decodeFloat f b).le (.fin false m e) = true ∧
        ∀ b' : Nat, b' ≤ f.maxCode → (decodeFloat f b').le (.fin false m e) = true → b' ≤ b)

/-- Table 2.5 for an integer target; codes are read back in two's complement, U8 plain (R46). -/
def Obligations.IntegerConversionRule : Prop :=
  ∀ f : Fmt, f.isInt = true →
    convert f .nan = (0, true) ∧ (∀ neg : Bool, convert f (.inf neg) =
      (wrap f.bits (if neg then f.intRange.1 else f.intRange.2), true)) ∧
    ∀ (neg : Bool) (m : Nat) (e : Int),
      let v : Val := .fin neg m e
      (v.lt (Val.ofInt f.intRange.1) = true → convert f v = (wrap f.bits f.intRange.1, true)) ∧
      ((Val.ofInt f.intRange.2).lt v = true → convert f v = (wrap f.bits f.intRange.2, true)) ∧
      (v.lt (Val.ofInt f.intRange.1) = false → (Val.ofInt f.intRange.2).lt v = false →
        convert f v = (wrap f.bits (truncInt v), false) ∧ f.intRange.1 ≤ truncInt v ∧ truncInt v ≤ f.intRange.2 ∧
        decodeElem f (convert f v).1 = Val.ofInt (truncInt v))

/-- R58: the result does not depend on the order in which the adder tree forms the sum; R630: the sign of a zero sum. -/
def Obligations.SumOrderFree : Prop :=
  (∀ xs ys : List Val, xs.Perm ys → accF32 xs = accF32 ys) ∧
  ∀ xs : List Val, xs.all (fun v => !v.isSpecial) = true → (finSum xs).1 = 0 →
    accF32 xs = (if !xs.isEmpty && xs.all Val.isNegZero then 0x80000000 else 0, false)

/-- R46, R49, R53 and R54. -/
def Obligations.NumberFormatCodes : Prop :=
  (∀ (f : Fmt) (c : Nat), f ∈ [Fmt.s4, .s8, .s16, .s32] → c < 2 ^ f.bits →
    decodeElem f c = Val.ofInt (if c < 2 ^ (f.bits - 1) then (c : Int) else (c : Int) - 2 ^ f.bits)) ∧
  (∀ c, c < 256 → decodeElem .u8 c = Val.ofInt c) ∧
  (∀ (f : Fmt) (c : Nat), f.isInt = true → c < 2 ^ f.bits → ∃ i : Int, decodeElem f c = Val.ofInt i ∧ f.intRange.1 ≤ i ∧ i ≤ f.intRange.2 ∧
    (decodeElem f c).isSpecial = false) ∧
  (∀ (f : Fmt) (lo hi : Int) (cl ch : Nat), (f, lo, hi, cl, ch) ∈ [(Fmt.s4, (-8 : Int), (7 : Int), 0x8, 0x7), (.s8, -128, 127, 0x80, 0x7F),
      (.u8, 0, 255, 0x00, 0xFF), (.s16, -32768, 32767, 0x8000, 0x7FFF), (.s32, -2147483648, 2147483647, 0x80000000, 0x7FFFFFFF)] →
    f.intRange = (lo, hi) ∧ decodeElem f cl = Val.ofInt lo ∧ decodeElem f ch = Val.ofInt hi) ∧
  (∀ m : Fin 7, (decodeFloat .e4m3 (0x78 + m.val)).eq (Val.ofInt (256 + 32 * m.val)) = true ∧
    (decodeFloat .e4m3 (0xF8 + m.val)).eq (Val.ofInt (-(256 + 32 * m.val))) = true) ∧
  (∀ e q, e < 0xFF → q < 256 →
    decodeBlock .bq8 e q = Val.mul (Val.mul (Val.ofInt (if q < 128 then (q : Int) else (q : Int) - 256)) (Val.pow2 (-6))) (Val.pow2 ((e : Int) - 127))) ∧
  (∀ e c, e < 0xFF → c < 16 → decodeBlock .bq4 e c = Val.mul (decodeFloat .e2m1 c) (Val.pow2 ((e : Int) - 127))) ∧
  (∀ (f : Fmt) (e c : Nat), f.isBlock = true → e < 0xFF → (decodeBlock f e c).isSpecial = false) ∧
  ∀ (f : Fmt) (c : Nat), f.isBlock = true → decodeBlock f 0xFF c = .nan

/-- R57: the sum that an integer accumulation stores, and whether it counts as a saturation. -/
def Obligations.IntegerSumSaturates : Prop :=
  ∀ i : Int, (-2147483648 ≤ i → i ≤ 2147483647 → (satS32 i).1.toInt = i ∧ (satS32 i).2 = false) ∧
    (2147483647 < i → satS32 i = (0x7FFFFFFF, true)) ∧ (i < -2147483648 → satS32 i = (0x80000000, true))

/-- BRD_CFG and WLK_CFG: what a write sets, and what it refuses (R113, R116, R156). -/
def Obligations.ClusterConfigWrites : Prop :=
  ∀ (s : State) (n : IbexId) (v : W32), s.Inv → s.Serving 0 →
    let s1 := s.received 4
    let len := field v.toNat 13 8
    let lim := field v.toNat 31 16
    let k := ibexReg n.val 1 0
    let r := (s.ib n.val).ramp
    let was := s.regField k 0 1 == 1
    let on := bitOf v.toNat 0
    (∀ fn : Fn, fn.val ≠ 0 → let t := if s.enabled fn.val then s1 else s
      exec (.brdCfgWrite fn n v) s = .next t ∧ exec (.wlkCfgWrite fn n v) s = .next t) ∧
    (4 ≤ len → len ≤ 32 → lim ≠ 0 → ∃ t, exec (.brdCfgWrite 0 n v) s = .next t ∧
      t.reg k = BitVec.ofNat 64 (v.toNat % 2 + len * 256 + lim * 65536) ∧ s.RegsBut t [k] ∧ s.IbexesBut t n.val ∧
      t.ib n.val = { s.ib n.val with ramp :=
        if was && !on && r.level != 0 then { r with ramping := true, up := false, len := if r.ramping && !r.up then r.len else len }
        else if !was && on && !(s.ib n.val).gated then { r with level := 8, ramping := false } else r } ∧
      t = { s1 with regs := t.regs, ibex := t.ibex }) ∧
    (len < 4 ∨ 32 < len ∨ lim = 0 → ∃ t, exec (.brdCfgWrite 0 n v) s = .next t ∧ t.reg k = s.reg k ∧
      t = s1.logErr Code.BRD_CFG_RANGE 0 5 n.val v.toNat (some 0)) ∧
    (v.toNat % 65536 ≠ 0 → ∃ t, exec (.wlkCfgWrite 0 n v) s = .next t ∧
      t.reg (ibexReg n.val 2 0) = BitVec.ofNat 64 (v.toNat % 65536) ∧ s.RegsBut t [ibexReg n.val 2 0] ∧
      t = { s1 with regs := t.regs }) ∧
    (v.toNat % 65536 = 0 → ∃ t, exec (.wlkCfgWrite 0 n v) s = .next t ∧ t.reg (ibexReg n.val 2 0) = s.reg (ibexReg n.val 2 0) ∧
      t = s1.logErr Code.WALK_CFG_RANGE 0 5 n.val v.toNat (some 0))

/-- RAMP_DOWN and RAMP_GROUP_STEP (R110, R111). The counters at 0x48 and 0x70 advance by amounts that timing gives (log entry 14); the
second amount is the one that a context is charged with (R114). -/
def Obligations.RampsOfDummyIssue : Prop :=
  ∀ (s : State) (n : IbexId), s.Inv →
    let r := (s.ib n.val).ramp
    (s.regField (ibexReg n.val 1 0) 0 1 = 1 → r.ramping = false → r.level ≠ 0 → s.noShadow n.val = true →
      ∃ t, exec (.rampDown n) s = .next t ∧ s.IbexesBut t n.val ∧ t = { s with ibex := t.ibex } ∧
        t.ib n.val = { s.ib n.val with ramp := { r with ramping := true, up := false, len := s.regField (ibexReg n.val 1 0) 8 6 } }) ∧
    (r.ramping = true → ∃ (t : State) (w : W64), exec (.rampGroupStep n) s = .next t ∧ s.IbexesBut t n.val ∧
      s.RegsBut t [ibexReg n.val 1 0x48, ibexReg n.val 1 0x70] ∧
      t = { s with ibex := t.ibex, regs := t.regs, fresh := t.fresh, sch := { s.sch with ctxs := t.sch.ctxs } } ∧
      t.reg (ibexReg n.val 1 0x70) = s.reg (ibexReg n.val 1 0x70) + w ∧
      (∀ c, t.ctxSt c = if (s.ib n.val).before = some c then { (s.ctxSt c) with dummy := (s.ctxSt c).dummy + w.toNat } else s.ctxSt c) ∧
      t.ib n.val = { s.ib n.val with ramp := { r with level := if r.up then r.level + 1 else r.level - 1,
                                                       ramping := if r.up then decide (r.level + 1 < 8) else decide (1 < r.level) } })

/-- The life of a pass: weights into the shadow, the knot, and the tile through the output pipe (R87 to R91, R98, R193). A region's next
pass, job and product are given by `nextPass`; what a vector leaves in its entry is VectorAccumulates. -/
def Obligations.PassesOfRegion : Prop :=
  ∀ (s : State) (n : IbexId) (q : Quarter), s.Inv →
    (∀ key l t p, s.nextPass n.val q.val = some (key, l, t, p) →
      let g := s.region n.val key
      (g.shadow = none → ∀ w rows, s.loadTile (l.acc1 n.val) t p = some w → s.fetchRows (l.acc1 n.val) t p = some rows →
        ∃ u, exec (.shadowLoad n q) s = .next u ∧ u.region n.val key = { g with shadow := some p, weights := w, nextRows := rows } ∧
          (∀ j, j ≠ key → u.region n.val j = s.region n.val j) ∧ s.IbexesBut u n.val ∧
          s.RegsBut u [ibexReg n.val 2 0x68, ibexReg n.val 2 0x78] ∧ u = { s with ibex := u.ibex, regs := u.regs, fresh := u.fresh }) ∧
      (s.Clean n.val → l.InSpm → (s.loadTile (l.acc1 n.val) t p).isSome = true ∧ (s.fetchRows (l.acc1 n.val) t p).isSome = true) ∧
      (∀ held : Nat, g.shadow.isSome = true → s.unread n.val key t p = false → ((s.ib n.val).ramp.ramping && (s.ib n.val).ramp.up) = false →
        held ≤ 256 * s.regField (ibexReg n.val 1 0) 16 16 → s.Clean n.val →
        let p' : Pass := { p with parity := g.parity }
        let ptr : Ptr := { entryBase := s.accBase (l.acc1 n.val) + t.entryOf p, clear := p.first, last := p.last }
        (∀ i, i < t.rowsOf p → (s.vectorOf (g.knot ptr p) (l.acc1 n.val) t p i).isSome = true) →
        ∃ u, exec (.knotIssue n q held) s = .next u ∧ u.region n.val key = { g with
            active := g.weights, weights := g.active, rows := g.nextRows, nextRows := g.rows, shadow := none, passes := g.passes.drop 1,
            latest := some p', flight := true, parity := !g.parity,
            ptr0 := if g.parity then g.ptr0 else ptr, ptr1 := if g.parity then ptr else g.ptr1 } ∧
          (∀ j, j ≠ key → u.region n.val j = s.region n.val j) ∧ (u.ib n.val).before = some l.ctx ∧
          (u.ib n.val).outq = (s.ib n.val).outq ++ (if p.last then [(key, p')] else []) ∧
          u.reg (ibexReg n.val 1 0x50) = s.reg (ibexReg n.val 1 0x50) + BitVec.ofNat 64 held ∧
          u.reg (ibexReg n.val 1 0x58) = s.reg (ibexReg n.val 1 0x58) + 1 ∧ s.IbexesBut u n.val ∧
          u = { s with ibex := u.ibex, regs := u.regs, fresh := u.fresh, sch := { s.sch with ctxs := u.sch.ctxs },
                       acts := (s.addWork l.ctx (t.work p)).acts })) ∧
    ∀ key l t p rest, (s.ib n.val).outq = (key, p) :: rest → (s.region n.val key).job = some l → l.mat = some t → s.Clean n.val → l.InSpm →
      ∃ u, exec (.outputTile n) s = .next u ∧ (u.ib n.val).outq = rest.filter (fun e => !(e.1 == key && e.2 == p)) ∧
        (u.region n.val key).job =
          (if (s.region n.val key).passes.isEmpty && rest.all (fun e => e.1 != key || e.2 == p) then none else some l) ∧
        (∀ j, j ≠ key → u.region n.val j = s.region n.val j) ∧ s.IbexesBut u n.val ∧
        u = { s with ibex := u.ibex, regs := u.regs, sch := { s.sch with queues := u.sch.queues } }

/-- R58, R86: the entry of a vector takes the exact sum of its previous value (unless the pass clears) and the products, rounded
once; nothing else of the accumulators changes. -/
def Obligations.VectorAccumulates : Prop :=
  ∀ (s : State) (n : IbexId) (g : Region) (l : Loaded) (t : Mat) (p : Pass) (i : Nat) (acts : List Val) (prev : List W32) (ce : Nat),
    s.Inv → s.flipArmed 3 = false → s.vectorOf g (l.acc1 n.val) t p i = some acts →
    s.accRead n.val (s.accBase (l.acc1 n.val) + t.entryOf p + i) (64 * regionKey t.shape t.region) (shapeStrands t.shape) =
      Except.ok (prev, ce) →
    let e := (s.accBase (l.acc1 n.val) + t.entryOf p + i) * 256 + 64 * regionKey t.shape t.region
    ∃ u, s.issueRow n.val g l t p i = (u, none) ∧
      (∀ j, j < shapeStrands t.shape →
        Tbl.get 0 (u.ib n.val).acc (e + j) = (accumulate t.isInt (if p.first then none else prev[j]?) (t.terms g.active p j acts)).1) ∧
      (∀ k, k < e ∨ e + shapeStrands t.shape ≤ k → Tbl.get 0 (u.ib n.val).acc k = Tbl.get 0 (s.ib n.val).acc k) ∧
      s.IbexesBut u n.val ∧ u = { s with ibex := u.ibex, regs := u.regs }

/-- R91, R103 to R106, R108: where a region's fault goes, and what a cluster reset leaves. The states are those of the operations that
the rules describe: `regionStop` (R104), `finishJobs` and `faultCtx` (R105, R337), `faultOnly` and `schedule` (Table 10.11, R354). -/
def Obligations.RegionFaultsAndClusterReset : Prop :=
  ∀ (s : State) (n : IbexId) (q : Quarter), s.Inv →
    let stopBy := fun (u : State) (key : Nat) (h : RegionHit) => u.regionStop n.val key (!(s.region n.val key).parity)
      (braidCode h.check, h.strand.val, if h.check = .accUe then h.entry.val else 0)
    (∀ (h : RegionHit) key l, s.jobAt n.val h.q.val = some (key, l) → exec (.regionFault n h []) s =
      .next (((stopBy s key h).finishJobs n.val).faultCtx l.ctx l.queue (braidCode h.check))) ∧
    (∀ (h1 h2 : RegionHit) k1 l1 k2 l2, s.jobAt n.val h1.q.val = some (k1, l1) → s.jobAt n.val h2.q.val = some (k2, l2) →
      exec (.regionFault n h1 [h2]) s = .next ((((stopBy (stopBy s k1 h1) k2 h2).finishJobs n.val).faultCtx l1.ctx l1.queue
        (braidCode h1.check)).faultCtx l2.ctx l2.queue (braidCode h2.check))) ∧
    (∀ key l t p, s.nextPass n.val q.val = some (key, l, t, p) →
      let limit := 256 * s.regField (ibexReg n.val 1 0) 16 16
      let held := (s.region n.val key).shadow = none ∨ s.unread n.val key t p = true
      let u := ((((s.count (ibexReg n.val 1 0x50) (limit + 1)).regionStop n.val key (s.region n.val key).parity
        (Code.BRD_KNOT_HOLD, 64 * key, 0)).finishJobs n.val).faultCtx l.ctx l.queue Code.BRD_KNOT_HOLD)
      (held → exec (.brdKnotHold n q) s = .next u) ∧
      (∀ cycles, ¬ held → ((s.ib n.val).ramp.ramping && (s.ib n.val).ramp.up) = false → limit < cycles →
        exec (.knotIssue n q cycles) s = .next u)) ∧
    (∀ key l par strand entry (code : W16), (s.region n.val key).job = some l → l.quarters.Nodup → code.toNat / 256 = 9 →
      let u := s.regionStop n.val key par (code, strand, entry)
      u.region n.val key = { state := 5, shown := some ((s.region n.val key).show l) } ∧ (∀ x ∈ (u.ib n.val).outq, x.1 ≠ key) ∧
      ∀ k ∈ l.quarters, k < 4 → (s.reg (ibexReg n.val 1 (0x10 + 8 * k))).getLsbD 63 = false →
        u.reg (ibexReg n.val 1 (0x10 + 8 * k)) = BitVec.ofNat 64 (2 ^ 63 + code.toNat + l.ctx % 1024 * 2 ^ 16 +
          (if par then 2 ^ 26 else 0) + entry % 2048 * 2 ^ 28 + strand % 256 * 2 ^ 39)) ∧
    ∀ inFlight : List Quarter, ∃ u,
      (let hit := s.openSteps.filter fun x => x.2.on n.val
       exec (.clusterReset n inFlight) s = .next (((hit.map fun x => x.2.ctx).eraseDups.foldl (fun s c =>
        s.faultOnly c ((hit.filter fun x => x.2.ctx == c).map (·.1)) Code.SCH_CLUSTER_RESET) u).schedule)) ∧
      u.ib n.val = { s.ib n.val with
        acc := [], accSyn := [], slots := [], cur := none, regions := [], outq := [], ramp := {}, ran := none, before := none } ∧
      s.IbexesBut u n.val ∧
      u = { s with ibex := u.ibex, regs := u.regs, fresh := u.fresh, sch := { s.sch with ctxs := u.sch.ctxs } } ∧
      (∀ o, o < 0x200000 → survivesCluster o = false → u.reg (ibexReg n.val 0 o) = regReset (ibexReg n.val 0 o)) ∧
      (∀ k, (k < ibexReg n.val 0 0 ∨ ibexReg n.val 0 0 + 0x200000 ≤ k) → u.reg k = s.reg k) ∧
      u.reg (ibexReg n.val 1 0) = s.reg (ibexReg n.val 1 0) ∧ u.reg (ibexReg n.val 2 0) = s.reg (ibexReg n.val 2 0) ∧
      (inFlight = [] → ∀ k, k < 4 → u.reg (ibexReg n.val 1 (0x10 + 8 * k)) = s.reg (ibexReg n.val 1 (0x10 + 8 * k)))

/-- R133, R135, R137: the visit order is a bijection with the grid, and the shares of the clusters partition the passes, which is why
an output's bits do not depend on G (R136). -/
def Obligations.EveryPassRunsOnce : Prop :=
  (∀ rows cols : Nat, (visitOrder rows cols).Nodup ∧ ∀ y x, (y, x) ∈ visitOrder rows cols ↔ y < rows ∧ x < cols) ∧
  ∀ (t : Mat) (g : Nat), 0 < g → t.split ≤ 2 → (t.split = 1 → t.win = none) →
    (∀ y x k part, y < t.trows → x < t.tcols → k < t.slices → part < (if t.shape = 5 then 3 else 1) →
      ∃ rank p, rank < g ∧ p ∈ t.passes rank g ∧ (p.row, p.col, p.slice, p.part) = (y, x, k, part) ∧
        ∀ rank' p', rank' < g → p' ∈ t.passes rank' g → (p'.row, p'.col, p'.slice, p'.part) = (y, x, k, part) → rank' = rank ∧ p' = p) ∧
    ∀ rank, rank < g → (t.passes rank g).Nodup ∧ ∀ p ∈ t.passes rank g,
      p.row < t.trows ∧ p.col < t.tcols ∧ p.slice < t.slices ∧ p.part < (if t.shape = 5 then 3 else 1)

/-- An instruction outside the Braid completes (R134, R138). For the engines the conditions are on the state and the operands alone; what
each computes is the matter of other statements. -/
def Obligations.UnitInstructionsPass : Prop :=
  (∀ (s : State) (n : IbexId) (l : Loaded) (st : Step) (r : Rank), s.Inv → s.conflicts n.val l = false →
    let a := l.acc1 n.val
    let passed := fun (ps : List Span) (u : State) => ((u.mendReads n.val l ps).passCur n.val l).instrDone n.val
    (s.curOf n.val 0x00 = some (l, st, r) → exec (.nop n) s = .next (passed [] s)) ∧
    (∀ (op : Nat) (i : Instr), (op, i) ∈ [(0x21, Instr.wpool n none), (0x22, .wresample n none), (0x23, .wregroup n none),
        (0x90, .ssort n none), (0x80, .hist n), (0x40, .vseq n none), (0x41, .vred n none), (0x42, .vmove n none), (0x43, .vopt n none)] →
      s.curOf n.val op = some (l, st, r) → s.Clean n.val → l.InSpm →
      ∃ t, exec i s = .next t ∧ (t.ib n.val).cur = none ∧ t.reg (ibexReg n.val 2 0x50) = s.reg (ibexReg n.val 2 0x50) + 1 ∧
        (t.queue l.queue).held = (s.queue l.queue).held.map (fun st => { st with ranks := st.ranks.modify l.rank fun r =>
          { r with pc := l.idx + 1, wait := if syncBit l.raw then .sync else .none, done := 0, sorting := {}, stands := (op, l.idx) } }) ∧
        s.IbexesBut t n.val ∧ s.QueuesBut t l.queue ∧
        t = { s with ibex := t.ibex, regs := t.regs, fresh := t.fresh, sch := { s.sch with queues := t.sch.queues },
                     acts := (s.addWork l.ctx { vec := (t.reg (ibexReg n.val 5 8) - s.reg (ibexReg n.val 5 8)).toNat }).acts }) ∧
    (∀ (op : Nat) (i : Instr), (op, i) ∈ [(0x60, Instr.track n), (0x61, .emit n), (0x90, .ssort n none), (0x80, .hist n)] →
      s.curOf n.val op = some (l, st, r) → l.rank ≠ 0 → exec i s = .next (passed [] s)) ∧
    (l.rank = 0 → ∀ (st' : Step) (sl : Slot), s.sclSlotOf l = some (st', sl) →
      (∀ (det cnt box : Desc) (cls : Option Desc), s.curOf n.val 0x60 = some (l, st, r) → l.descs = [some det, some cnt, some box, cls] →
        (s.strOpen sl.stream = false ∨ s.trackAddr sl.stream = none → exec (.track n) s = .next (passed (s.sclReads l) s)) ∧
        (∀ (addr next : Nat) (ts : List Trk) (ds : List Det), s.strOpen sl.stream = true → s.trackAddr sl.stream = some addr →
          (if sl.state == .void then .ok [] else s.readDets a det cnt box cls none) = Except.ok ds →
          s.loadTracks addr = some (next, ts) →
          let run := trackRun l.raw (s.slotPts sl (s.ownPeriods l)).1.toNat next ts ds
          let bs := tableBytes run.nextId run.ts
          s.rangeOk addr bs.length = true → ∃ u w : State,
            s.tWrite a true (s.sclWork l.ctx (sclSlot l.raw)).base bs = some u ∧ u.memWrite addr bs = some w ∧
            exec (.track n) s = .next (passed (s.sclReads l) ((w.modSlot l.queue (sclSlot l.raw) fun sl =>
              { sl with matched := run.info ++ sl.matched }).count (ibexReg n.val 5 0x70) run.noSlot)))) ∧
      (s.curOf n.val 0x61 = some (l, st, r) → sl.state = .void ∨ (∃ x, s.emitReads a l sl = .ok x) →
        exec (.emit n) s = .next (passed (s.sclReads l) (s.emit a l).1) ∧
        ((s.emit a l).1.slotOf l.queue (sclSlot l.raw)).map (fun x => x.2.closed) = some true))) ∧
  (∀ (u : State) (n : IbexId) (l : Loaded), u.Inv →
    let t := (u.passCur n.val l).instrDone n.val
    (t.ib n.val).cur = none ∧ (syncBit l.raw = false ∨ l.mat.isSome = true → t.ib n.val = { u.ib n.val with cur := none }) ∧
    t.ib n.val = { u.ib n.val with cur := none, regions := (t.ib n.val).regions } ∧
    (syncBit l.raw = true → l.mat = none → ∀ q, q < 4 → u.jobAt n.val q = none → (t.region n.val q).state = 3) ∧
    u.IbexesBut t n.val ∧ u.RegsBut t [ibexReg n.val 2 0x50] ∧
    t.reg (ibexReg n.val 2 0x50) = u.reg (ibexReg n.val 2 0x50) + 1 ∧ u.QueuesBut t l.queue ∧
    (t.queue l.queue).held = (u.queue l.queue).held.map (fun st => { st with ranks := st.ranks.modify l.rank fun r =>
      { r with pc := l.idx + 1, wait := if syncBit l.raw then .sync else .none, done := 0, sorting := {},
               stands := (opcode l.raw, l.idx) } }) ∧
    t = { u with ibex := t.ibex, regs := t.regs, sch := { u.sch with queues := t.sch.queues } }) ∧
  ∀ (s u : State) (a : Acc1) (l : Loaded) (done : Nat) (stop : Option Nat),
    (s.runReducer a.ibex l done stop).1 = u ∨ (s.sort a l done stop).1 = u ∨ s.hist a l.raw l.descs = some u ∨ (s.vseq a l done stop).1 = u ∨
      (s.vred a l done stop).1 = u ∨ (s.vmove a l done stop).1 = u ∨ (s.vopt a l done stop).1 = u →
    u = { s with
      mem := u.mem, ibex := u.ibex, regs := u.regs, dict := u.dict, log := u.log, fresh := u.fresh, sch := { s.sch with queues := u.sch.queues } }

/-- R144, R145, R134: the walker's fetch, and how MM and WCONV begin. -/
def Obligations.WalkerLoadsAndStarts : Prop :=
  (∀ (s : State) (n : IbexId) (cycles q rank : Nat) (st st' : Step) (r r' : Rank) (raw : List Byte) (c : Checked),
    s.rankOf n.val = some (q, st, rank, r) → st.stop = false → r.wait = .none → r.stopped = false → r.ended = false →
    (s.ib n.val).cur = none → r.wideEnd = 0 →
    let s' := s.modRank q rank fun r => { r with cycles := r.cycles + cycles }
    s'.rankOf n.val = some (q, st', rank, r') → r'.resume = [] → r'.layer = [] → r'.wideEnd = 0 →
    let v := st'.variants.getD (Nat.log2 st'.ranks.length) (0, 0)
    r'.pc < v.2 → s'.memRead (s'.ctx st'.ctx 0x07 + v.1 + 64 * r'.pc) 64 = some raw →
    s'.checkIns ⟨n.val, st'.ctx⟩ st' rank r'.pc v.2 false raw = .ok c →
    exec (.instructionLoad n cycles) s = .next (s'.modIb n.val fun i => { i with cur := some {
      queue := q, rank := rank, g := st'.ranks.length, ctx := st'.ctx, idx := r'.pc, raw := raw, descs := c.descs, opset := c.opset,
      stripe := c.stripe, reads := c.reads, writes := c.writes } })) ∧
  ∀ (s : State) (n : IbexId) (op : Nat) (i : Instr) (l : Loaded) (r : Rank) (t : Mat), s.Inv → (op, i) ∈ [(0x10, Instr.mm n), (0x20, Instr.wconv n)] →
    s.matrixOf n.val op = some (l, r, t) → r.resume = [] →
    (∀ ps, t.passes l.rank l.g = ps → ps ≠ [] → ∃ u, exec i s = .next u ∧
      u.region n.val (regionKey t.shape t.region) = { s.region n.val (regionKey t.shape t.region) with
        job := some l, passes := ps, shadow := none, latest := none, flight := false, nextRows := [], rows := [], state := 2,
        shown := (u.region n.val (regionKey t.shape t.region)).shown } ∧
      (∀ k, k ≠ regionKey t.shape t.region → u.region n.val k = s.region n.val k ∨
        u.region n.val k = { s.region n.val k with state := 0, shown := none }) ∧ (u.ib n.val).cur = none ∧ s.IbexesBut u n.val) ∧
    (t.passes l.rank l.g = [] → exec i s = .next ((s.passCur n.val l).instrDone n.val))

/-- Progress of the ranks of a step (R138, R148, R204 to R208, R211, R349). -/
def Obligations.RanksOfStep : Prop :=
  (∀ (s : State) (n : IbexId) (l : Loaded) (st : Step) (r : Rank), s.Inv → s.jobs n.val = [] →
    let onward : Rank → Rank := fun r => { r with
      pc := l.idx + 1, wait := if syncBit l.raw then .sync else .none, done := 0, sorting := {}, stands := (opcode l.raw, l.idx) }
    let enter : Rank → Rank := fun r =>
      if layPolicy l.opset = 2 then { (onward r) with
        layer := l.opset, layerNo := insF l.raw 2 2, sat := 0, pc := recField l.opset 8 2,
        wideEnd := recField l.opset 8 2 + recField l.opset 0x0A 2, resumeTo := recField l.opset 0x0C 2, wideSat := 0, wait := .none }
      else { (onward r) with layer := l.opset, layerNo := insF l.raw 2 2, sat := 0 }
    (s.curOf n.val 0x02 = some (l, st, r) → ∃ t, exec (.layer n) s = .next t ∧ t.reg (ibexReg n.val 4 8) = 0 ∧
      t.reg (ibexReg n.val 2 0x50) = s.reg (ibexReg n.val 2 0x50) + 1 ∧ s.RegsBut t [ibexReg n.val 4 8, ibexReg n.val 2 0x50] ∧
      (t.ib n.val).cur = none ∧ s.IbexesBut t n.val ∧ s.QueuesBut t l.queue ∧
      (t.queue l.queue).held = (s.queue l.queue).held.map (fun st => { st with ranks := st.ranks.modify l.rank enter }) ∧
      t = { s with ibex := t.ibex, regs := t.regs, sch := { s.sch with queues := t.sch.queues } }) ∧
    (∀ (cycles : Nat) (st' : Step), s.curOf n.val 0x01 = some (l, st, r) → (s.queue l.queue).held = some st' →
      let rs := st'.ranks.modify l.rank fun r => { (onward r) with ended := true, cycles := r.cycles + cycles }
      ∃ u, (u.queue l.queue).held = some { st' with ranks := rs } ∧ (u.ib n.val).cur = none ∧ s.IbexesBut u n.val ∧ s.QueuesBut u l.queue ∧
        u.reg (ibexReg n.val 2 0x50) = s.reg (ibexReg n.val 2 0x50) + 1 ∧ s.RegsBut u [ibexReg n.val 2 0x50] ∧
        u = { s with ibex := u.ibex, regs := u.regs, sch := { s.sch with queues := u.sch.queues } } ∧
        (rs.all (·.ended) = false → exec (.endStep n cycles) s = .next u) ∧
        (rs.all (·.ended) = true → ∃ t, exec (.endStep n cycles) s = .next t ∧ t = u.stepEnds n.val l.queue { st' with ranks := rs } ∧
          (t.queue l.queue).held = none ∧ (st'.ctx < 1024 → t.ctx st'.ctx 0x21 = (s.ctx st'.ctx 0x21 + 1) % 2 ^ 64)))) ∧
  (∀ (s : State) (q : QueueId) (st : Step) (r0 : Rank) (rs : List Rank), s.Inv → (s.queue q.val).held = some st → st.ranks = r0 :: rs →
    st.state = .running → (∀ r ∈ st.ranks, r.stopped = false) →
    ((∀ r ∈ st.ranks, r.wait = .layer) →
      let stats := recField r0.layer 0x10 8
      let past := decide (recField r0.layer 0 4 < min 0xFFFFFFFF (st.ranks.map (·.sat)).sum)
      let wide := past && layPolicy r0.layer == 0 && s.ctx st.ctx 0x14 != 1
      let skip := past && layPolicy r0.layer == 3
      stats = 0 ∨ (s.memRead stats 32).isSome = true ∧ s.rangeOk stats 32 = true → ∃ t, exec (.layerDecision q) s = .next t ∧
        (t.queue q.val).held = some { st with
          widened := st.widened || wide, skipped := st.skipped || skip, ranks := st.ranks.map fun r =>
            if wide then { r with
              pc := recField r.layer 8 2, wideEnd := recField r.layer 8 2 + recField r.layer 0x0A 2, resumeTo := recField r.layer 0x0C 2,
              wideSat := 0, wait := .none }
            else { r with layer := [], sat := 0, wait := .none, pc := if skip then recField r.layer 0x0C 2 else r.pc } } ∧
        s.QueuesBut t q.val ∧ (stats = 0 → t.mem = s.mem) ∧
        t = { s with mem := t.mem, regs := t.regs, dict := t.dict, log := t.log, sch := { s.sch with queues := t.sch.queues } }) ∧
    ((∀ r ∈ st.ranks, r.wait = .sync ∧ r.resume = [] ∧ s.jobs r.ibex = []) → ∃ t, exec (.syncRelease q) s = .next t ∧
      (t.queue q.val).held = some { st with ranks := st.ranks.map fun r => { r with wait := .none } } ∧ s.QueuesBut t q.val ∧
      (∀ n, t.ib n = if st.ranks.any (fun r => r.ibex == n) then (s.ib n).meet else s.ib n) ∧
      t = { s with ibex := t.ibex, regs := t.regs, sch := { s.sch with queues := t.sch.queues }, fresh := t.fresh })) ∧
  ∀ (s : State) (n : IbexId) (cycles q rank : Nat) (st : Step) (r : Rank), s.Inv → s.rankOf n.val = some (q, st, rank, r) →
    st.stop = true → r.stopped = false → (s.ib n.val).outq = [] → ∃ t, exec (.walkerPreempt n cycles) s = .next t ∧
      t.ib n.val = { s.ib n.val with cur := none, regions := (t.ib n.val).regions } ∧
      (∀ k, t.region n.val k = (s.region n.val k).preempt) ∧ s.IbexesBut t n.val ∧ s.QueuesBut t q ∧
      (let rs := st.ranks.modify rank fun r => { r with
          stopped := true, resume := s.remaining n.val ++ r.resume, cycles := r.cycles + cycles,
          stands := ((s.ib n.val).cur.map fun l => (opcode l.raw, l.idx)).getD r.stands }
       (t.queue q).held = some (if rs.all (·.stopped) then { st with ranks := rs, state := .suspending, parkedSave := false }
         else { st with ranks := rs })) ∧
      t = { s with ibex := t.ibex, sch := { s.sch with queues := t.sch.queues } }

/-- R365 and R369. `s'` is the state with the rank's cycles charged to it. -/
def Obligations.HitchesServeInOrder : Prop :=
  (∀ (s : State) (n : IbexId) (l : Loaded) (st : Step) (r : Rank) (cycles : Nat), s.Inv → s.jobs n.val = [] → l.rank = 0 →
    let k := hitchNo l.raw
    let m := hitchN l.raw
    let h := s.hitch k
    let s' := s.modRank l.queue l.rank fun r => { r with cycles := r.cycles + cycles }
    (s.curOf n.val 0x04 = some (l, st, r) →
      (h.lock = false → h.waiters = [] → m ≤ h.count → ∃ t, exec (.hwait n cycles) s = .next t ∧ (t.ib n.val).cur = none ∧
        t.hitch k = { h with count := h.count - m } ∧ s.HitchesBut t k ∧ t = (s'.setHitch k { h with count := h.count - m }).passAll n.val l) ∧
      (h.lock = false → (h.waiters ≠ [] ∨ h.count < m) → ∃ t, exec (.hwait n cycles) s = .next t ∧
        t.hitch k = { h with waiters := h.waiters ++ [⟨l.queue, m⟩] } ∧ s.HitchesBut t k ∧ t = s'.joinHitch n.val l k m) ∧
      (h.lock = true → exec (.hwait n cycles) s = .next (s'.unitFault n.val l [] Code.SCH_HITCH_MODE))) ∧
    (s.curOf n.val 0x06 = some (l, st, r) →
      (h.lock = true → h.waiters = [] → h.count = 1 → ∃ t, exec (.hacquire n cycles) s = .next t ∧ (t.ib n.val).cur = none ∧
        t.hitch k = { h with count := 0, holder := l.ctx, held := true } ∧ s.HitchesBut t k ∧
        t = ((s'.setHitch k { h with count := 0, holder := l.ctx, held := true }).modStep l.queue fun st =>
          { st with holds := st.holds ++ [k] }).passAll n.val l) ∧
      (h.lock = true → (h.waiters ≠ [] ∨ h.count ≠ 1) → ∃ t, exec (.hacquire n cycles) s = .next t ∧
        t.hitch k = { h with waiters := h.waiters ++ [⟨l.queue, 1⟩] } ∧ s.HitchesBut t k ∧ t = s'.joinHitch n.val l k 1) ∧
      (h.lock = false → exec (.hacquire n cycles) s = .next (s'.unitFault n.val l [] Code.SCH_HITCH_MODE))) ∧
    (cycles = 0 → s.curOf n.val 0x05 = some (l, st, r) →
      (h.lock = false → h.count + m ≤ 65535 → ∃ t, exec (.hsignal n) s = .next t ∧
        (h.waiters = [] → t.hitch k = { h with count := h.count + m } ∧ s.HitchesBut t k) ∧
        t = (((s'.setHitch k { h with count := h.count + m }).passAll n.val l).serveHitch k).schedule) ∧
      (h.lock = false → 65535 < h.count + m → exec (.hsignal n) s = .next (s'.unitFault n.val l [] Code.SCH_HITCH_OVF)) ∧
      (h.lock = true → exec (.hsignal n) s = .next (s'.unitFault n.val l [] Code.SCH_HITCH_MODE))) ∧
    (cycles = 0 → s.curOf n.val 0x07 = some (l, st, r) →
      (h.lock = true → h.held = true → h.holder = l.ctx → ∃ t, exec (.hrelease n) s = .next t ∧
        (h.waiters = [] → t.hitch k = { h with held := false, holder := 0, count := 1 } ∧ s.HitchesBut t k) ∧
        t = ((s'.passAll n.val l).releaseHitch k).schedule) ∧
      (h.lock = false ∨ h.held = false ∨ h.holder ≠ l.ctx →
        exec (.hrelease n) s = .next (s'.unitFault n.val l [] Code.SCH_HITCH_MODE)))) ∧
  (∀ (s0 : State) (fn : Fn) (v : W32), s0.Inv → s0.Serving fn.val →
    let s := s0.received 4
    let k := v.toNat % 4096
    let m := field v.toNat 31 16
    let h := s.hitch k
    (m ≠ 0 → h.lock = false → h.count + m ≤ 65535 → ∃ t, exec (.schHsigWrite fn v) s0 = .next t ∧
      (h.waiters = [] → t.hitch k = { h with count := h.count + m } ∧ s.HitchesBut t k) ∧
      t = ((s.setHitch k { h with count := h.count + m }).serveHitch k).schedule) ∧
    (m = 0 ∨ h.lock = true ∨ 65535 < h.count + m → ∃ t, exec (.schHsigWrite fn v) s0 = .next t ∧ t.sch = s.sch ∧
      t = s.hitchRefuse (if m = 0 then Code.SCH_HITCH_FIELD else if h.lock then Code.SCH_HITCH_MODE else Code.SCH_HITCH_OVF) fn.val k v.toNat)) ∧
  (∀ (s0 : State) (fn : Fn) (k : HitchId) (v : W64), s0.Inv → s0.Serving fn.val →
    let s := s0.received 8
    let h := s.hitch k.val
    let lock := bitOf v.toNat 27
    let herds := field v.toNat 35 28
    let count := v.toNat % 65536
    let busy := (h.held || !h.waiters.isEmpty) && (lock != h.lock || herds != h.herds || (h.held && count != h.count))
    let wrong := lock && count != (if h.held then 0 else 1)
    (fn.val ≠ 0 → exec (.schHitchWrite fn k v) s0 = .next s) ∧
    (fn.val = 0 → busy = false → wrong = false → ∃ t, exec (.schHitchWrite fn k v) s0 = .next t ∧
      (h.waiters = [] → t.hitch k.val = { h with count := count, lock := lock, herds := herds } ∧ s.HitchesBut t k.val) ∧
      t = ((s.setHitch k.val { h with count := count, lock := lock, herds := herds }).serveHitch k.val).schedule) ∧
    (fn.val = 0 → busy = true ∨ wrong = true → ∃ t, exec (.schHitchWrite fn k v) s0 = .next t ∧ t.sch = s.sch ∧
      t = s.hitchRefuse (if busy then Code.SCH_HITCH_BUSY else Code.SCH_HITCH_MODE) 0 k.val v.toNat)) ∧
  ∀ (s : State) (q : QueueId) (st : Step) (w : Nat × Nat × Nat), s.Inv → (s.queue q.val).held = some st → st.waits = some w →
    ∃ t, exec (.hitchTimeout q) s = .next t ∧ t = s.faultCtx st.ctx q.val Code.SCH_HITCH_TIMEOUT ∧
      (st.ctx < 1024 → s.ctxState st.ctx = 2 → (∀ x ∈ s.stepsOf st.ctx, ∀ sl ∈ x.2.slots, sl.stream < 64) → t.ctxState st.ctx = 3 ∧ t.ctx st.ctx 0x1D = Code.SCH_HITCH_TIMEOUT.toNat ∧
        (t.queue q.val).held = none)

/-- R150, R243: the states are those of `unitFault` and `regionFault`, which name what R104, R105 and R337 do. -/
def Obligations.WalkerFaultsContext : Prop :=
  (∀ (s : State) (n : IbexId) (l : Loaded) (x : Nat × Step × Nat × Rank), (s.ib n.val).cur = some l → s.rankOf n.val = some x → l.mat = none →
    exec (.walkFetchTo n none) s = .next (s.unitFault n.val l l.reads Code.WALK_FETCH_TO) ∧
    exec (.walkMemUe n none) s = .next (s.unitFault n.val l l.reads Code.WALK_MEM_UE)) ∧
  (∀ (s : State) (n : IbexId) (q : Quarter) (j : Nat × Loaded), s.jobAt n.val q.val = some j →
    let parity := !(s.region n.val j.1).parity
    exec (.walkFetchTo n (some q)) s = .next (s.regionFault n.val j.1 parity (Code.WALK_FETCH_TO, 0, 0)) ∧
    exec (.walkMemUe n (some q)) s = .next (s.regionFault n.val j.1 parity (Code.WALK_MEM_UE, 0, 0))) ∧
  (∀ (s : State) (n : IbexId) (op : Nat) (l : Loaded) (st : Step) (r : Rank), op = 0x60 ∨ op = 0x61 → s.curOf n.val op = some (l, st, r) →
    l.rank = 0 → exec (.sclWatchdog n) s = .next (s.unitFault n.val l [] Code.SCL_WATCHDOG)) ∧
  ∀ (s : State) (n : IbexId) (l : Loaded) (ps : List Span) (code : W16), s.Inv → (s.reg (ibexReg n.val 2 0x48)).getLsbD 63 = false →
    code ≠ Code.WALK_MEM_UE ∨ (s.ib n.val).spmSyn = [] →
    ∃ u, s.unitFault n.val l ps code = (u.finishJobs n.val).faultCtx l.ctx l.queue code ∧
      u.reg (ibexReg n.val 2 0x48) = BitVec.ofNat 64 (2 ^ 63 + code.toNat + l.ctx % 1024 * 2 ^ 16 + l.idx % 65536 * 2 ^ 32) ∧
      s.RegsBut u [ibexReg n.val 2 0x48] ∧ u.ib n.val = { s.ib n.val with cur := none } ∧ s.IbexesBut u n.val ∧
      u = { s with ibex := u.ibex, regs := u.regs }

/-- R302 and R266. That VID_TAIL also enters LAST_CODE is the model's reading (DEDUCED, log entry 30). -/
def Obligations.GazelleRegisterWrites : Prop :=
  ∀ (s0 : State) (fn : Fn) (n : StreamId) (v : W32), s0.Inv → s0.Serving fn.val →
    let s := s0.received 4
    (fn.val ≠ 0 → exec (.gzCfgWrite fn v) s0 = .next s) ∧
    (v.toNat % 65536 ≠ 0 → v.toNat / 65536 ≠ 0 → ∃ t, exec (.gzCfgWrite 0 v) s0 = .next t ∧ t.reg gzBase = BitVec.ofNat 64 v.toNat ∧
      s.RegsBut t [gzBase] ∧ t = { s with regs := t.regs }) ∧
    (v.toNat % 65536 = 0 ∨ v.toNat / 65536 = 0 → ∃ t, exec (.gzCfgWrite 0 v) s0 = .next t ∧ t.reg gzBase = s.reg gzBase ∧
      t = s.logErr Code.VID_CFG_RANGE 0 0 0 v.toNat (some 0)) ∧
    (s.strFn n.val ≠ fn.val → ∃ t, exec (.gzInTailWrite fn n v) s0 = .next t ∧ t.reg (gzTail n.val) = s.reg (gzTail n.val) ∧
      t.reg (gzHead n.val) = s.reg (gzHead n.val) ∧
      t = (s.logErr Code.HP_NOT_OWNER fn.val 1 n.val v.toNat (some fn.val)).famErr Code.HP_NOT_OWNER fn.val) ∧
    (s.strFn n.val = fn.val →
      let ahead := fun (k : Nat) => (v - BitVec.ofNat 32 (s.reg k).toNat).toNat
      (ahead (gzHead n.val) ≤ s.str n.val 0x0E → ahead (gzTail n.val) ≤ s.str n.val 0x0E → ∃ t, exec (.gzInTailWrite fn n v) s0 = .next t ∧
        t.reg (gzTail n.val) = BitVec.ofNat 64 v.toNat ∧ s.RegsBut t [gzTail n.val] ∧ t = { s with regs := t.regs }) ∧
      (s.str n.val 0x0E < ahead (gzHead n.val) ∨ s.str n.val 0x0E < ahead (gzTail n.val) → ∃ t, exec (.gzInTailWrite fn n v) s0 = .next t ∧
        t.reg (gzTail n.val) = s.reg (gzTail n.val) ∧ t.reg (gzHead n.val) = s.reg (gzHead n.val) ∧
        t.str n.val 0x1D = Code.VID_TAIL.toNat ∧ t = { (s.logErr Code.VID_TAIL fn.val 1 n.val v.toNat (some fn.val)) with dict := t.dict } ∧
        s.EntriesBut t [dkey (0x2000 + n.val) 0x1D, dkey 0x6000 1, dkey 0x6000 3]))

/-- R265 to R271. A completion comes only for a read that is in flight; `b` is the state once it has landed. -/
def Obligations.ChunksFeedStream : Prop :=
  ∀ (s : State) (n : StreamId), s.Inv →
    let k := s.strFn n.val
    let x := s.stream n.val
    let head := (s.reg (gzHead n.val)).toNat
    let d := 0x2000 + n.val
    let may := s.decodes n.val && s.canIssue k && s.vid.power == 0 && decide (s.power < 2)
    let asks := fun (b : State) (i : Instr) (c : ChunkStage) (addr len : Nat) => ∃ t, exec i s = .next t ∧
      t.stream n.val = { x with chunk := c } ∧ b.StreamsBut t n.val ∧ t = { b with streams := t.streams, out := t.out, hp := t.hp } ∧
      (b.hp.waits = [] → b.hp.flying.length < 512 → b.atsMode k = 0 →
        t.hp = { b.hp with flying := b.hp.flying ++ [{ fn := k, read := .chunk n }] } ∧
        t.out = b.out ++ [.read k false (BitVec.ofNat 64 addr) len (.chunk n)])
    (x.chunk = .idle → may = true → s.reg (gzHead n.val) ≠ s.reg (gzTail n.val) →
      asks s (.chunkFetch n) .record (s.str n.val 0x0D + 32 * (head % s.str n.val 0x0E)) 32) ∧
    (∀ r, x.chunk = .held r → may = true → s.noRoom n.val (recField r 8 4) = false →
      asks s (.chunkFetch n) (.body r) (recField r 0 8) (recField r 8 4)) ∧
    (∀ got : Fetched, s.flight (.chunk n) = none → exec (.chunkArrival n got) s = .next s) ∧
    (∀ (got : Fetched) (f : Flight), s.flight (.chunk n) = some f →
      let b := (s.land (.chunk n)).received got.size
      let i := Instr.chunkArrival n got
      b = { s with hp := b.hp, out := b.out } ∧ (f.live = false → exec i s = .next b) ∧ (f.live = true →
        (∀ r, x.chunk = .record → got = .bytes r → chunkBad r = false →
          (may = true → s.noRoom n.val (recField r 8 4) = false → asks b i (.body r) (recField r 0 8) (recField r 8 4)) ∧
          (may = false ∨ s.noRoom n.val (recField r 8 4) = true → ∃ t, exec i s = .next t ∧
            t.stream n.val = { x with chunk := .held r } ∧ b.StreamsBut t n.val ∧ t = { b with streams := t.streams })) ∧
        (∀ code : W16, (x.chunk = .record ∧ got = .failed ∧ code = Code.VID_CHUNK_FETCH) ∨
            (∃ r, x.chunk = .record ∧ got = .bytes r ∧ chunkBad r = true ∧ code = Code.VID_CHUNK) ∨
            (∃ r, x.chunk = .body r ∧ got = .failed ∧ code = Code.VID_CHUNK_FETCH) →
          ∃ t, exec i s = .next t ∧ t.reg (gzHead n.val) = BitVec.ofNat 64 ((head + 1) % 2 ^ 32) ∧
            s.RegsBut t [gzHead n.val] ∧ t.stream n.val = { x with chunk := .idle, discont := true } ∧ s.StreamsBut t n.val ∧
            t.str n.val 0x1D = code.toNat ∧ t.str n.val 0x2A = (s.str n.val 0x2A + 1) % 2 ^ 64 ∧
            s.EntriesBut t [dkey d 0x1D, dkey d 0x2A] ∧
            t = { s with streams := t.streams, regs := t.regs, dict := t.dict, out := t.out, hp := t.hp }) ∧
        (∀ r all : List Byte, x.chunk = .body r → got = .bytes all →
          let bs := all.take (recField r 8 4)
          let flags := recField r 0x0C 2
          let resync := bitOf flags 2 || x.discont
          let first := if resync then firstUnit (s.str n.val 0x03) 0 bs else some 0
          let lo := first.getD bs.length
          bitOf flags 3 = false ∨ lo < bs.length ∨ x.aus ≠ [] → ∃ t, exec i s = .next t ∧
            t.reg (gzHead n.val) = BitVec.ofNat 64 ((head + 1) % 2 ^ 32) ∧
            t.stream n.val = { x with
              chunk := .idle, discont := first.isNone, copied := ((b.copyChunk n.val bs).stream n.val).copied,
              scan := (t.stream n.val).scan, aus := (t.stream n.val).aus } ∧ s.StreamsBut t n.val ∧
            ((t.stream n.val).aus.map (·.bytes)).sum + (t.stream n.val).scan.tail.length =
              (x.aus.map (·.bytes)).sum + x.scan.tail.length + (bs.length - lo) ∧
            (bitOf flags 1 = true ∨ bitOf flags 3 = true → (t.stream n.val).scan = {}) ∧
            t.str n.val 0x21 = (s.str n.val 0x21 + bs.length) % 2 ^ 64 ∧ t.mem = (b.copyChunk n.val bs).mem ∧
            (∀ m sub, m < 64 → sub < 256 → (m ≠ n.val ∨ sub ≠ 0x20 ∧ sub ≠ 0x21) → t.str m sub = s.str m sub) ∧
            ∃ m, t = { s with
              streams := t.streams, regs := t.regs, dict := t.dict, out := t.out, hp := t.hp, mem := t.mem, log := t.log,
              vid := { s.vid with serial := m } }))) ∧
    (let a := ((s.auAdd n.val x.scan.tail).stream n.val).aus
     (∀ u, a.getLast? = some u → u.complete = false → s.decodes n.val = true → ∃ t, exec (.auTimeout n) s = .next t ∧
      t.stream n.val = { x with
        scan := {}, aus := a.dropLast ++ [{ u with complete := true, code := Code.VID_TIMEOUT, arrival := s.vid.serial }] } ∧
      s.StreamsBut t n.val ∧ t.str n.val 0x20 = (s.str n.val 0x20 + 1) % 2 ^ 64 ∧ t.str n.val 0x1D = Code.VID_TIMEOUT.toNat ∧
      s.EntriesBut t [dkey d 0x20, dkey d 0x1D] ∧
      t = { s with streams := t.streams, dict := t.dict, vid := { s.vid with serial := s.vid.serial + 1 } }))

/-- R277 to R280. `eeRun` goes on with an engine's access unit; its own clause says what it does with a picture that passes. -/
def Obligations.EntropyEngines : Prop :=
  (∀ (s : State) (e : Fin 4) (aus : List (StreamId × AuSyntax)), s.Inv → s.eeAt e.val = none → s.vid.power = 0 → s.power < 2 →
    let au := fun (n : Nat) => baseUnit (s.str n 0x03)
      (((aus.find? fun x => x.1.val == n).map (·.2)).getD { sets := [], pics := [], shows := none })
    let ok := fun (n : Nat) => decide (0 < (s.stream n).credit) || s.headOnly n (au n)
    ∃ s', s' = { s with dict := s'.dict } ∧
      (∀ m, m < 64 → s'.str m 0x2B = (s.str m 0x2B + if s.parsable m && !ok m then 1 else 0) % 2 ^ 64) ∧
      s.EntriesBut s' ((List.range 64).map fun m => dkey (0x2000 + m) 0x2B) ∧
      ((∀ m, m < 64 → s.parsable m = true → ok m = false) → exec (.entropySelect e aus) s = .next s') ∧
      ∀ (n : Nat) (u : AU) (us : List AU), n < 64 → s.parsable n = true → ok n = true → (s.stream n).aus = u :: us →
        (∀ m, m < 64 → s.parsable m = true → ok m = true → s.headArrival n < s.headArrival m ∨ s.headArrival n = s.headArrival m ∧ n ≤ m) →
        ∃ s2, s2.stream n = { s.stream n with aus := us } ∧ s.StreamsBut s2 n ∧
          s2.eeAt e.val = some {
            stream := n, au := u.arrival, coded := (if u.big then [] else u.coded), rest := (if u.big then [] else (au n).pics), shows := (if u.big then none else (au n).shows),
            pts := u.pts, derived := false, eos := u.eos, code := u.code, parsing := false, stalled := false } ∧
          (∀ f, f ≠ e.val → s2.eeAt f = s.eeAt f) ∧ s2.reg (gzBase + 0x30 + 8 * e.val) = s.reg (gzBase + 0x30 + 8 * e.val) + 1200 ∧
          s.RegsBut s2 [gzBase + 0x30 + 8 * e.val] ∧
          s2 = { s' with streams := s2.streams, regs := s2.regs, vid := { s.vid with ee := s2.vid.ee } } ∧
          (u.big = false → exec (.entropySelect e aus) s = .next (((au n).sets.foldl (fun s p => s.takeSet n p) s2).eeRun e.val)) ∧
          (u.big = true →
            let lost := (s2.countEntry (0x2000 + n) 0x24 (au n).pics.length).strCode n Code.VID_AU_OVF
            exec (.entropySelect e aus) s = .next ((if (au n).pics.any fun p => p.refMark != 0 then lost.nextRap n else lost).eeRun e.val))) ∧
  (∀ (s : State) (e : Nat) (j : EeJob) (p : PicSyntax) (rest : List PicSyntax) (q : ParamSet), s.Inv → s.eeAt e = some j →
    j.parsing = false → j.rest = p :: rest → s.decodes j.stream = true → p.rap = false → s.judge j.stream p = none →
    (s.stream j.stream).active p.ps = some q → (s.stream j.stream).credit ≠ 0 → synSize p q ≤ s.synCap j.stream →
    let x := s.stream j.stream
    let y := (s.eeRun e).stream j.stream
    y.credit = x.credit - 1 ∧ y.jobs.dropLast = x.jobs ∧ (∃ k, y.jobs.getLast? = some k ∧ k.syn = p ∧ k.ps = q ∧ y.prevPts = some k.pts ∧
      k.pts = (match j.pts, x.prevPts with
        | some t, _ => t
        | none, some t => t + BitVec.ofNat 64 (s.str j.stream 0x13)
        | none, none => 0)) ∧ s.StreamsBut (s.eeRun e) j.stream ∧
    (∃ k, (s.eeRun e).eeAt e = some k ∧ k.stream = j.stream ∧ k.rest = rest ∧ k.parsing = true ∧
      k.stalled = decide (s.synCap j.stream < s.synUsed j.stream + synSize p q))) ∧
  (∀ (s : State) (n : StreamId), s.strOpen n.val = true →
    let u := s.modStream n.val fun x => { x with credit := min 4 (x.credit + 1) }
    ((∀ e j, e < 4 → s.eeAt e = some j → j.stream ≠ n.val) → exec (.creditTick n) s = .next u) ∧
    ∀ e j, e < 4 → s.eeAt e = some j → j.stream = n.val → (∀ f k, f < e → s.eeAt f = some k → k.stream ≠ n.val) →
      exec (.creditTick n) s = .next (u.eeRun e)) ∧
  (∀ (s : State) (e : Fin 4) (j : EeJob), s.Inv → s.eeAt e.val = some j →
    (j.stalled = true → s.synUsed j.stream ≤ s.synCap j.stream → ∃ t, exec (.syntaxStallResume e) s = .next t ∧
      t.eeAt e.val = some { j with stalled := false } ∧ (∀ f, f ≠ e.val → t.eeAt f = s.eeAt f) ∧
      s.RegsBut t [gzBase + 0x30 + 8 * e.val] ∧ t = { s with regs := t.regs, fresh := t.fresh, vid := { s.vid with ee := t.vid.ee } }) ∧
    (∀ p, j.parsing = true → j.stalled = false → (s.stream j.stream).jobs.getLast? = some p → ∃ (u : State) (p' : PicJob),
      exec (.syntaxComplete e) s = .next (u.eeRun e.val) ∧ u.eeAt e.val = some { j with parsing := false } ∧
      (∀ f, f ≠ e.val → u.eeAt f = s.eeAt f) ∧
      u.stream j.stream = { s.stream j.stream with jobs := (s.stream j.stream).jobs.dropLast ++ [p'] } ∧ s.StreamsBut u j.stream ∧
      p' = { p with serial := some s.vid.serial, bad := p'.bad, status := p'.status } ∧
      (∀ b, b ∈ p'.bad ↔ (∃ c ∈ p.syn.slices, b ∈ c.lost) ∨ b < blocksOf p.ps.width p.ps.height ∧ ∀ c ∈ p.syn.slices, b ∉ c.covered) ∧
      u.vid = { s.vid with ee := u.vid.ee, serial := s.vid.serial + 1 } ∧
      u.reg (gzBase + 0x30 + 8 * e.val) = s.reg (gzBase + 0x30 + 8 * e.val) + BitVec.ofNat 64 p.syn.bins ∧
      s.RegsBut u [gzBase + 0x30 + 8 * e.val] ∧ u = { s with streams := u.streams, regs := u.regs, dict := u.dict, vid := u.vid }))

/-- R280, R281, R288, R291. -/
def Obligations.PixelEngines : Prop :=
  (∀ (s : State) (p : Fin 16), s.Inv → Tbl.get none s.vid.pe p.val = none → s.vid.power ≠ 2 →
    (let u := match syntaxFirst (s.workable.filter fun x => x.2.buf.isNone) with
      | some (n, _) => s.askBuf n
      | none => s
     let best := syntaxFirst (u.workable.filter fun x => x.2.buf.isSome || (u.freshBuf x.1).isSome)
     (best = none → exec (.pixelUnitStart p) s = .next u) ∧
     ∀ n j, best = some (n, j) →
      (j.buf.isSome = true → exec (.pixelUnitStart p) s = .next (u.takeUnit p.val n j)) ∧
      ∀ b, j.buf = none → u.freshBuf n = some b →
        exec (.pixelUnitStart p) s = .next ((u.beginPic n j b).1.takeUnit p.val n (u.beginPic n j b).2) ∧
        (u.beginPic n j b).2.buf = some b ∧ (u.beginPic n j b).2.started = true) ∧
    ∀ n j, (∀ x ∈ s.workable, x.2.buf ≠ none) → (n, j) ∈ s.workable →
      (∀ y ∈ s.workable, y ≠ (n, j) → j.serial.getD 0 < y.2.serial.getD 0) →
      ∃ t, exec (.pixelUnitStart p) s = .next t ∧
        Tbl.get none t.vid.pe p.val = some ⟨n, j.serial.getD 0, if j.next < j.units then j.next else j.units + j.nextEdge⟩ ∧
        (∀ q, q ≠ p.val → Tbl.get none t.vid.pe q = Tbl.get none s.vid.pe q) ∧ s.StreamsBut t n ∧
        (t.stream n).jobs = (s.stream n).jobs.map (fun k => if k.serial = j.serial then
          { j with next := (if j.next < j.units then j.next + 1 else j.next),
                   nextEdge := (if j.next < j.units then j.nextEdge else j.nextEdge + 1) } else k) ∧
        t = { s with streams := t.streams, vid := { s.vid with pe := t.vid.pe } }) ∧
  (∀ (s : State) (p : Fin 16) (r : UnitResult) (e : PeJob), s.Inv → Tbl.get none s.vid.pe p.val = some e →
    ((s.stream e.stream).jobs.find? (fun j => j.serial == some e.pic) = none →
      exec (.pixelUnitDone p r) s = .next { s with vid := { s.vid with pe := Tbl.set none s.vid.pe p.val none } }) ∧
    ∀ j : PicJob, (s.stream e.stream).jobs.find? (fun j => j.serial == some e.pic) = some j →
    (e.unit < j.units → j.rowOk e.unit = false → exec (.pixelUnitDone p r) s = .next s) ∧
    (j.units ≤ e.unit ∨ j.rowOk e.unit = true →
    ∃ u : State, exec (.pixelUnitDone p r) s = .next (u.settle e.stream) ∧ Tbl.get none u.vid.pe p.val = none ∧
      (∀ q, q ≠ p.val → Tbl.get none u.vid.pe q = Tbl.get none s.vid.pe q) ∧
      u.reg (gzBase + 0x50) = s.reg (gzBase + 0x50) + BitVec.ofNat 64 r.cycles ∧
      u.reg (gzBase + 0x58) = s.reg (gzBase + 0x58) + BitVec.ofNat 64 r.blocks ∧ s.StreamsBut u e.stream ∧
      u.mem = (s.writeSamples j (s.str e.stream 0x03) e.unit).mem ∧
      (u.stream e.stream).jobs = (s.stream e.stream).jobs.map fun k => if k.serial = some e.pic then
        let k := if r.memUe.isEmpty then k else k.raise Code.VID_MEM_UE
        { k with done := (if e.unit < k.units then k.done ++ [e.unit] else k.done),
                 doneEdges := (if e.unit < k.units then k.doneEdges else k.doneEdges ++ [e.unit - k.units]),
                 bad := k.bad ++ r.memUe, subst := k.subst ++ r.subst }
        else k)) ∧
  (∀ (s : State) (n : Nat), (∀ j js, (s.stream n).jobs = j :: js → j.complete = false) → s.settle n = s) ∧
  (∀ (s : State) (n : Nat) (j : PicJob) (js : List PicJob) (b : Nat × Nat), (s.stream n).jobs = j :: js → j.complete = true → j.buf = some b →
    s.settle n = (s.makeReady n j b.1 b.2).readyLoop n (js.length + 1)) ∧
  (∀ (s : State) (e : Fin 4) (j : EeJob) (p : PicJob), s.Inv → s.eeAt e.val = some j → j.parsing = true → j.stream < 64 →
    (s.stream j.stream).jobs.getLast? = some p → p.serial = none → (∀ k ∈ (s.stream j.stream).jobs.dropLast, k.serial ≠ none) →
    let n := j.stream
    let u := s.removeJob n p Code.VID_ENGINE_TO
    exec (.vidEngineTo (.entropy e)) s = .next (((u.nextRap n).parseOn n p.au false Code.VID_ENGINE_TO).settle n) ∧
      (u.stream n).jobs.map (·.serial) = (s.stream n).jobs.dropLast.map (·.serial) ∧
      u.str n 0x24 = (s.str n 0x24 + 1) % 2 ^ 64 ∧ u.str n 0x1D = Code.VID_ENGINE_TO.toNat ∧ u.eeAt e.val = some j) ∧
  ∀ (s : State) (p : Fin 16) (k : PeJob) (j : PicJob), s.Inv → Tbl.get none s.vid.pe p.val = some k →
    (s.stream k.stream).jobs.find? (fun j => j.serial == some k.pic) = some j →
    ∃ t, exec (.vidEngineTo (.pixel p)) s = .next t ∧ t = s.dropJob k.stream j Code.VID_ENGINE_TO true false ∧
      Tbl.get none t.vid.pe p.val = none ∧ ∀ y ∈ (t.stream k.stream).jobs, y.serial ≠ j.serial

/-- R276, R295, R296: each write answered through its mailbox or KDP. A write that is rejected changes nothing but what R531 says. -/
def Obligations.StreamsOpenResetClose : Prop :=
  (∀ (s : State) (o : Origin) (n : StreamId), s.Inv → s.Reaches o →
    let i := 0x2000 + n.val
    (∀ (v : Byte) (c : Instr), (v, c) ∈ [(1, Instr.streamOpen o n), (3, .streamReset o n), (2, .streamClose o n)] →
      let a := s.asked o i 0x01 [v]
      ∀ code, a.dictGate o i 0x01 true [v] = some code →
        exec c s = .next ((a.rejectEntry code o i 0x01 [v]).answered o code)) ∧
    (let a := s.asked o i 0x01 [1]
     a.dictGate o i 0x01 true [1] = none →
      (∀ code, a.openCode n.val = some code → exec (.streamOpen o n) s = .next ((a.rejectEntry code o i 0x01 [1]).answered o code)) ∧
      (a.openCode n.val = none → a.openReserve n.val = none →
        exec (.streamOpen o n) s = .next ((a.rejectEntry Code.VID_RESERVE o i 0x01 [1]).answered o Code.VID_RESERVE)) ∧
      ∀ x, a.openCode n.val = none → a.openReserve n.val = some x → ∃ t : State,
        exec (.streamOpen o n) s = .next ((if s.str n.val 0x48 = 0 then t.streamPeriod n.val none else t).answered o 0) ∧
        t.str n.val 0x02 = (if s.str n.val 0x0B = 1 then 2 else 1) ∧ (t.stream n.val).credit = 4 ∧ (t.stream n.val).aus = [] ∧
        (t.stream n.val).jobs = [] ∧ (t.stream n.val).track = some x.2.2.2 ∧ (t.stream n.val).bitBuf = some x.2.1 ∧
        (t.stream n.val).synBuf = some x.2.2.1 ∧ (∀ k, k < 14 → t.str n.val (0x20 + k) = 0) ∧
        t.reg (gzTail n.val) = 0 ∧ t.reg (gzHead n.val) = 0 ∧ t.reg (crReg n.val 0x10) = 0 ∧ t.reg (crReg n.val 0x18) = 0) ∧
    ∀ (v : Byte) (c : Instr) (st : Nat), (v, c, st) ∈ [(3, Instr.streamReset o n, 3), (2, .streamClose o n, 4)] →
      let a := s.asked o i 0x01 [v]
      a.dictGate o i 0x01 true [v] = none →
      (s.str n.val 0x02 = 1 ∨ s.str n.val 0x02 = 2 ∨ s.str n.val 0x02 = 5 → ∃ t : State, exec c s = .next (t.answered o 0) ∧
        t.str n.val 0x02 = st ∧ (t.stream n.val).aus = [] ∧ (t.stream n.val).jobs = [] ∧ (t.stream n.val).queue = [] ∧
        (t.stream n.val).credit = 4 ∧ t.reg (gzHead n.val) = t.reg (gzTail n.val)) ∧
      (s.str n.val 0x02 = 0 ∨ s.str n.val 0x02 = 3 ∨ s.str n.val 0x02 = 4 →
        exec c s = .next ((a.rejectEntry Code.VID_STATE o i 0x01 [v]).answered o Code.VID_STATE))) ∧
  ∀ (s : State) (n : StreamId), s.Inv →
    (s.str n.val 0x02 = 3 → ∃ t, exec (.streamResetDone n) s = .next t ∧ t.str n.val 0x02 = (if s.str n.val 0x0B = 1 then 2 else 1) ∧
      (∀ m sub, m < 64 → sub < 256 → (m ≠ n.val ∨ sub ≠ 0x02) → t.str m sub = s.str m sub) ∧
      ((s.stream n.val).frames = [] → t.stream n.val = s.stream n.val)) ∧
    (s.str n.val 0x02 = 4 → ∃ t, exec (.streamCloseDone n) s = .next t ∧ t.str n.val 0x02 = 0 ∧ (t.stream n.val).track = none ∧
      (t.stream n.val).bitBuf = none ∧ (t.stream n.val).synBuf = none ∧ (t.stream n.val).opened = false)

/-- R557, R504, R502: `logErr`, which every refusal of this model ends in. -/
def Obligations.ErrorRecords : Prop :=
  ∀ (s : State) (code : W16) (origin kind obj detail : Nat) (fn : Option Nat), s.Inv →
    let t := s.logErr code origin kind obj detail fn
    let n := s.entry 0x6000 1 + 1
    t.log.head? = some ⟨n, code, origin, kind, obj, detail⟩ ∧ t.log.drop 1 = s.log.take 63 ∧
    t.entry 0x6000 1 = n % 2 ^ 64 ∧ t.entry 0x6000 3 = (s.entry 0x6000 3 + if s.log.length = 64 then 1 else 0) % 2 ^ 64 ∧
    s.EntriesBut t [dkey 0x6000 1, dkey 0x6000 3] ∧ t = { s with dict := t.dict, log := t.log, regs := t.regs, out := t.out, hp := t.hp } ∧
    (fn = none → t.regs = s.regs ∧ t.out = s.out ∧ t.hp = s.hp) ∧
    ∀ k, fn = some k →
      let v := s.regField (hpBase + 0x100 + 8 * k) 8 5
      let e := hpBase + 0x800 + 8 * k
      t.reg e = (if (s.reg e).getLsbD 63 then s.reg e else BitVec.ofNat 64 (code.toNat + 2 ^ 63)) ∧ s.RegsBut t [e] ∧
      (∀ j, j ≠ k → t.fn j = { s.fn j with asked := (t.fn j).asked }) ∧
      (s.canIssue k = false ∨ (s.fn k).msixEn = false ∨ (s.fn k).masked.getLsbD v = true →
        t.out = s.out ∧ t.fn k = { s.fn k with pend := (s.fn k).pend ||| (1#32 <<< v) }) ∧
      (s.canIssue k = true → (s.fn k).msixEn = true → (s.fn k).masked.getLsbD v = false → s.hp.waits = [] →
        t.out = s.out ++ [.msix k v] ∧ t.hp = s.hp)

/-- Table 16.2 and R531, for the settings that have no effect beyond their value. -/
def Obligations.DictionaryWrites : Prop :=
  (∀ (s : State) (o : Origin) (idx : BitVec 16) (sub : BitVec 8) (v : List Byte), s.Inv → s.Reaches o →
    let i := idx.toNat
    let j := sub.toNat
    let a := s.asked o i j v
    let n := natLE v
    let rejected := fun (code : W16) => exec (.dictWrite o idx sub v) s = .next ((a.rejectEntry code o i j v).answered o code)
    (∀ code, s.dictGate o i j true v = some code → rejected code) ∧
    ∀ r : DRow, s.dictGate o i j true v = none → dictRow i j = some r → r.acc ≠ .rwp → r.ty.numeric = true →
      (isStreamIdx i = true → j ≠ 1 → j < 0x40 → s.strOpen (i - 0x2000) = true → rejected Code.VID_STATE) ∧
      (isCtxIdx i = true → j ≠ 1 → j ≠ 0x05 → j ≠ 0x1A → s.ctxState (i - 0x3000) ≠ 0 → rejected Code.SCH_CTX_STATE) ∧
      ((isStreamIdx i = true ∧ j ≠ 1 ∧ (0x40 ≤ j ∨ s.strOpen (i - 0x2000) = false)) ∨
        (isCtxIdx i = true ∧ j ≠ 1 ∧ (j = 0x05 ∨ j = 0x1A ∨ s.ctxState (i - 0x3000) = 0)) ∨
        (i = 0x1100 ∧ j ≠ 0x0B ∧ j ≠ 0x0C) ∨ (i = 0x1600 ∧ j ≠ 0x1F) →
        (r.rng.ok n = false → ∃ code, code ≠ 0 ∧ rejected code) ∧
        (r.rng.ok n = true → ∃ t : State, exec (.dictWrite o idx sub v) s = .next (t.answered o 0) ∧ t.entry i j = n ∧
          a.EntriesBut t [dkey i j] ∧ t = { a with dict := t.dict }))) ∧
  ∀ (s : State) (code : W16) (o : Origin) (i j : Nat) (v : List Byte), s.Inv → code ≠ 0 →
    let t := s.rejectEntry code o i j v
    t = { s with regs := t.regs, dict := t.dict, log := t.log, out := t.out, hp := t.hp } ∧
    s.EntriesBut t [dkey 0x6000 1, dkey 0x6000 3, dkey 0x1300 0x0C] ∧
    t.log.head? = some ⟨s.entry 0x6000 1 + 1, code, originNo o, 4, dkey i j, natLE (v.take 4)⟩

/-- R532, R538. KDP's answer is the frame command's. `fresh` may advance where a bus error denies a track table's bytes (log entry 3). -/
def Obligations.DictionaryReads : Prop :=
  ∀ (s : State) (idx : BitVec 16) (sub : BitVec 8), s.Inv →
    let i := idx.toNat
    let j := sub.toNat
    (∀ k : Fn, s.Serving k.val → s.dmDone k.val = false →
      exec (.dictRead (.fn k) idx sub) s = .next ((s.received 4).rejectEntry Code.DICT_BUSY (.fn k) i j [])) ∧
    (∀ k : Fn, s.Serving k.val → s.dmDone k.val = true →
      let s1 := s.received 4
      (∀ code, s.dictGate (.fn k) i j false [] = some code → exec (.dictRead (.fn k) idx sub) s =
        .next (((s1.dmRequest k.val i j false []).rejectEntry code (.fn k) i j []).dmResult k.val code true)) ∧
      ∀ r, s.dictGate (.fn k) i j false [] = none → dictRow i j = some r → ∃ t,
        let v := (s.dictValue i j r).1
        exec (.dictRead (.fn k) idx sub) s = .next t ∧ t = { s1 with regs := t.regs, dm := t.dm, fresh := t.fresh } ∧
        s.RegsBut t [dmReg k.val 0, dmReg k.val 8, dmReg k.val 0x10] ∧ t.reg (dmReg k.val 0x10) = 0x10000 ∧
        t.reg (dmReg k.val 8) = BitVec.ofNat 64 v.length ∧ t.reg (dmReg k.val 0) = BitVec.ofNat 64 (i + j * 2 ^ 16 + 2 ^ 24) ∧
        (∀ b x, b < 65536 → v[b]? = some x → Tbl.get 0 t.dm (k.val * 65536 + b) = x) ∧ (r.ty.numeric = true → v.length = r.ty.size ∧ t.fresh = s.fresh) ∧
        (r.ty.numeric = true → (r.acc == .wo) = false → s.derived i j = none →
          ∀ b, b < r.ty.size → (Tbl.get 0 t.dm (k.val * 65536 + b)).toNat = s.entry i j / 256 ^ b % 256) ∧
        (r.ty.numeric = true → (r.acc == .wo) = true → ∀ b, b < r.ty.size → Tbl.get 0 t.dm (k.val * 65536 + b) = 0) ∧
        ∀ m, (m < k.val * 65536 ∨ k.val * 65536 + min 65536 v.length ≤ m) → Tbl.get 0 t.dm m = Tbl.get 0 s.dm m) ∧
    (s.Reaches .kdp → ∃ t, exec (.dictRead .kdp idx sub) s = .next t ∧
      (∀ code, s.dictGate .kdp i j false [] = some code → t = s.rejectEntry code .kdp i j []) ∧
      (s.dictGate .kdp i j false [] = none → s.EntriesBut t [dkey 0x6000 1, dkey 0x6000 3] ∧
        ∀ r, dictRow i j = some r → t = { s with fresh := t.fresh } ∧ (r.ty.numeric = true → t = s)))

/-- R533 to R535, R539. -/
def Obligations.CommitsAndRestore : Prop :=
  (∀ (s : State) (o : Origin) (idx : BitVec 16) (sub : BitVec 8) (v : List Byte) (r : DRow), s.Inv → s.Reaches o →
    s.dictGate o idx.toNat sub.toNat true v = none → dictRow idx.toNat sub.toNat = some r → r.acc = .rwp → r.rng.ok (natLE v) = true →
    (idx = 0x1100 → sub = 0x05 → s.entry 0x1100 0x04 ≤ natLE v) →
    ∃ t : State, exec (.dictWrite o idx sub v) s = .next (t.awaited o) ∧
      t = { s.asked o idx.toNat sub.toNat v with store := { s.store with
        commits := s.store.commits ++ [⟨some o, dkey idx.toNat sub.toNat, [(dkey idx.toNat sub.toNat, BitVec.ofNat 64 (natLE v))]⟩] } }) ∧
  (∀ (s : State) (o : Origin) (v : W16), s.Inv → s.Reaches o →
    let bs := bytesLE 2 v.toNat
    let a := s.asked o 0x1000 0x22 bs
    s.dictGate o 0x1000 0x22 true bs = none →
    (v = 0x5AA5 → ∃ t : State, exec (.restore o v) s = .next (t.awaited o) ∧ t = { a with store := { s.store with
      commits := s.store.commits ++ [⟨some o, dkey 0x1000 0x22, rwpKeys.map fun k => (k, dictDefault (k / 256) (k % 256))⟩] } }) ∧
    (v ≠ 0x5AA5 → exec (.restore o v) s = .next ((a.rejectEntry Code.DICT_RANGE o 0x1000 0x22 bs).answered o Code.DICT_RANGE))) ∧
  (∀ (s : State) (ok : Bool), s.store.commits = [] → exec (.commitDone ok) s = .next s) ∧
  ∀ (s : State) (c : Commit) (cs : List Commit), s.Inv → s.store.commits = c :: cs →
    (let keys := c.sets.map (·.1)
     keys.Nodup → dkey 0x1000 0x20 ∉ keys → ∃ u : State,
      u = { s with dict := u.dict, store := { s.store with commits := cs } } ∧
      (∀ x ∈ c.sets, u.entry (x.1 / 256) (x.1 % 256) = x.2.toNat) ∧ u.entry 0x1000 0x20 = (s.entry 0x1000 0x20 + 1) % 2 ^ 64 ∧
      s.EntriesBut u (dkey 0x1000 0x20 :: keys) ∧
      exec (.commitDone true) s = .next (match c.origin with
        | some (.fn k) => u.dmResult k.val 0 true
        | some .kdp => u.lateResponse 0
        | none => u)) ∧
    ∃ u : State, u.store = { s.store with commits := cs } ∧ s.EntriesBut u [dkey 0x6000 1, dkey 0x6000 3] ∧
      u.log.head?.map (·.code) = some Code.DICT_COMMIT ∧
      exec (.commitDone false) s = .next (match c.origin with
        | some (.fn k) => u.dmResult k.val Code.DICT_COMMIT true
        | some .kdp => u.lateResponse Code.DICT_COMMIT
        | none => u)

/-- R558, R559, R555. -/
def Obligations.LogSnapshotApply : Prop :=
  (∀ (s : State) (o : Origin) (v : Byte), s.Inv → s.Reaches o →
    (s.dictGate o 0x6000 0x04 true [v] = none →
      let a := s.asked o 0x6000 0x04 [v]
      (v = 1 → exec (.clear o v) s = .next ({ a with log := [] }.answered o 0)) ∧
      (v ≠ 1 → exec (.clear o v) s = .next ((a.rejectEntry Code.DICT_RANGE o 0x6000 0x04 [v]).answered o Code.DICT_RANGE))) ∧
    (s.dictGate o 0x5000 0x01 true [v] = none →
      let a := s.asked o 0x5000 0x01 [v]
      (s.store.snapBusy = true → exec (.snap o v) s = .next ((a.rejectEntry Code.DICT_BUSY o 0x5000 0x01 [v]).answered o Code.DICT_BUSY)) ∧
      (s.store.snapBusy = false → v = 1 →
        exec (.snap o v) s = .next ({ a with store := { s.store with snapBusy := true } }.answered o 0)) ∧
      (s.store.snapBusy = false → v ≠ 1 →
        exec (.snap o v) s = .next ((a.rejectEntry Code.DICT_RANGE o 0x5000 0x01 [v]).answered o Code.DICT_RANGE))) ∧
    (s.dictGate o 0x1100 0x0C true [v] = none →
      let a := s.asked o 0x1100 0x0C [v]
      (v ≠ 1 → exec (.apply o v) s = .next ((a.rejectEntry Code.DICT_RANGE o 0x1100 0x0C [v]).answered o Code.DICT_RANGE)) ∧
      (v = 1 → ∃ t : State, exec (.apply o v) s = .next (t.answered o 0) ∧ t.entry 0x1100 0x15 = 0 ∧ t.entry 0x1100 0x16 = 0 ∧
        t.node.xfer = none ∧ t.node.waiting = none ∧
        t.node.timing = [s.entry 0x1100 0x04, s.entry 0x1100 0x05, s.entry 0x1100 0x06, s.entry 0x1100 0x07] ∧
        t.entry 0x1100 0x01 = (if 1 ≤ s.entry 0x1100 0x03 ∧ s.entry 0x1100 0x03 ≤ 126 then s.entry 0x1100 0x03 else s.entry 0x1100 0x02) ∧
        t = { a with dict := t.dict, node := t.node, out := t.out }))) ∧
  ∀ s : State, s.Inv → (s.store.snapBusy = false → exec .snapDone s = .next s) ∧
    (s.store.snapBusy = true → ∃ t, exec .snapDone s = .next t ∧ t.store = { s.store with snapBusy := false } ∧
      t.entry 0x5000 0x02 = (s.entry 0x5000 0x02 + 1) % 2 ^ 64 ∧
      t.entry 0x5000 0x10 = ((List.range 8).map fun n => (s.reg (ibexReg n 5 0x60)).toNat).sum % 2 ^ 64 ∧
      t.entry 0x5000 0x11 = (((List.range 64).filter s.strOpen).map fun n => s.str n 0x22).sum % 2 ^ 64 ∧
      t.entry 0x5000 0x12 = (s.reg (preBase + 0x58)).toNat ∧ t.entry 0x5000 0x13 = s.entry 0x3400 0x13 ∧
      t.entry 0x5000 0x14 = ((List.range 1024).map fun c => s.ctx c 0x22).sum % 2 ^ 64 ∧
      (∀ x ∈ [(0x15, 0x50), (0x16, 0x51), (0x17, 0x53)], t.entry 0x5000 x.1 = s.entry 0x1500 x.2) ∧
      t.entry 0x5000 0x18 = s.entry 0x1400 0x37 ∧ t.entry 0x5000 0x19 = s.entry 0x1400 0x30 ∧
      t.entry 0x5000 0x1A = (s.reg (hpBase + 0x30)).toNat ∧
      s.EntriesBut t ((0x02 :: (List.range 11).map (0x10 + ·)).map (dkey 0x5000 ·)) ∧ t = { s with dict := t.dict, store := t.store })

/-- R309, R310, R324, R325, R348. `startSlot`, `voidSlot` and `checkReady` name what R311, R324 and R312 say. -/
def Obligations.SlotsTakeAndVoid : Prop :=
  (∀ (s : State) (q : QueueId) (i : Fin 64) (st : Step) (sl : Slot), s.Inv → s.slotOf q.val i.val = some (st, sl) →
    sl.state = .waiting → sl.host = false → st.state = .filling →
    let n := sl.stream
    let older := if sl.pick = 1 then (s.stream n).queue.dropLast else []
    ((s.stream n).queue = [] → exec (.slotTakePicture q i) s = .next s) ∧
    ∀ idx f, (if sl.pick = 1 then (s.stream n).queue.getLast? else (s.stream n).queue.head?) = some idx →
      (s.stream n).frames.find? (fun f => f.pic.decodeIdx == idx && f.output) = some f →
      let f' := fun (y : Slot) => { y with pic := some f.pic, holding := true }
      let bad := decide (sl.dmgVoid < damageByte (some f.pic)) || (f.pic.taint && sl.taintVoid == 1)
      ∃ u : State, exec (.slotTakePicture q i) s =
          .next (if bad then (u.modSlot q.val i.val fun y => { y with state := .taken }).voidSlot q.val i.val Code.PRE_DAMAGED
            else u.startSlot q.val i.val) ∧
        u.slotOf q.val i.val = some ({ st with slots := st.slots.modify i.val f' }, f' sl) ∧ s.QueuesBut u q.val ∧
        (u.stream n).queue = (s.stream n).queue.filter (fun o => o != idx && !older.contains o) ∧ (u.stream n).tookPts = f.pic.pts ∧
        (u.stream n).tookDerived = f.pic.ptsDerived ∧ (u.stream n).took = true ∧ s.StreamsBut u n ∧ u.str n 0x23 = (s.str n 0x23 + (1 + older.length)) % 2 ^ 64 ∧
        (older ≠ [] → u.str n 0x46 = (s.str n 0x46 + older.length) % 2 ^ 64) ∧
        (∀ a, (∀ k, a ≠ fnReg k (coilBase + 0x10)) → u.reg a = s.reg a) ∧
        u = { s with regs := u.regs, dict := u.dict, streams := u.streams, coil := u.coil, sch := { s.sch with queues := u.sch.queues } }) ∧
  (∀ (s : State) (q i : Nat) (code : W16) (st : Step) (sl : Slot), s.Inv → s.slotOf q i = some (st, sl) → st.state = .filling →
    sl.state = .waiting ∨ sl.state = .taken → st.plan ≠ [] →
    let t := s.voidSlot q i code
    let f := fun (x : Slot) => { x with state := .void, status := code, items := [], running := 0, voidDue := true }
    let mine := fun (e : Nat) => match Tbl.get none s.vid.pre e with | some it => it.queue == q && it.slot == i | none => false
    t.slotOf q i = some ({ st with slots := st.slots.modify i f }, f sl) ∧ s.QueuesBut t q ∧
    (∀ e, e < 4 → Tbl.get none t.vid.pre e = if mine e then none else Tbl.get none s.vid.pre e) ∧
    t.reg (preBase + 0x58) = s.reg (preBase + 0x58) + 1 ∧ t.str sl.stream 0x44 = (s.str sl.stream 0x44 + 1) % 2 ^ 64 ∧
    (code ≠ 0 → t.str sl.stream 0x47 = code.toNat) ∧
    t = { s with regs := t.regs, dict := t.dict, fresh := t.fresh, vid := { s.vid with pre := t.vid.pre },
                 sch := { s.sch with queues := t.sch.queues, ctxs := t.sch.ctxs } }) ∧
  (∀ (s : State) (q : QueueId) (i : Fin 64) (st : Step) (sl : Slot), s.Inv → s.slotOf q.val i.val = some (st, sl) →
    (sl.voidDue = false ∨ s.vid.power = 2 ∨ 2 ≤ s.power → exec (.slotVoid q i) s = .next s) ∧
    (sl.voidDue = true → s.vid.power ≠ 2 → s.power < 2 →
      let w := match sl.holding, sl.pic with | true, some p => s.unhold p | _, _ => s
      let u := (st.plan.zip st.planDescs).foldl (fun s x => (s.voidJob ⟨0, st.ctx⟩ x.1 x.2 i.val).1) w
      u.sch = s.sch ∧ u.vid = s.vid ∧ w.mem = s.mem ∧ exec (.slotVoid q i) s =
      .next ((u.modSlot q.val i.val fun x => { x with voidDue := false, holding := false }).checkReady q.val))) ∧
  ∀ (s : State) (q : QueueId), s.Inv →
    ((s.queue q.val).hasPeriods = false → exec (.fillClose q) s = .next s) ∧
    ((s.queue q.val).hasPeriods = true → (∀ st, (s.queue q.val).held = some st → st.state ≠ .filling) → ∃ t, exec (.fillClose q) s = .next t ∧
      t.queue q.val = { s.queue q.val with mayOpen := false } ∧ s.QueuesBut t q.val ∧
      t = { s with sch := { s.sch with queues := t.sch.queues } }) ∧
    ∀ st sl, (s.queue q.val).hasPeriods = true → (s.queue q.val).held = some st → st.state = .filling → st.slots = [sl] →
      (sl.state = .waiting ∨ sl.state = .taken) → ∃ u : State, u.queue q.val = { s.queue q.val with mayOpen := false } ∧
        u = { s with sch := { s.sch with queues := u.sch.queues } } ∧
        exec (.fillClose q) s = .next (u.voidSlot q.val 0 (if sl.state = .waiting then 0 else Code.PRE_CLOSED))

/-- R311, R312, R316, R322, R327. `bestItem` is the order of R311, `runItem` the item's samples of R313 to R318. -/
def Obligations.WorkItemsRun : Prop :=
  (∀ (s : State) (e : Fin 4), s.Inv → Tbl.get none s.vid.pre e.val = none → (s.entry 0x2100 0x01).testBit e.val = true → s.vid.power = 0 →
    (s.bestItem = none → exec (.workItemStart e) s = .next s) ∧
    ∀ it st sl, s.bestItem = some it → s.slotOf it.queue it.slot = some (st, sl) →
      let j := st.plan.getD it.job []
      let need := jobAug j && st.aug && !(sl.host && jobKind j != 3)
      let list := match sl.latched with
        | some l => some l
        | none => if sl.host then some [] else s.regionBytes sl.stream
      let got := match sl.aug with | some r => some r | none => s.memRead (s.ctx st.ctx 0x07 + st.augOff + 32 * it.slot) 32
      let takes := fun (a : Option (List Byte)) (l : List Byte) => ∃ t, exec (.workItemStart e) s = .next t ∧ Tbl.get none t.vid.pre e.val = some it ∧
        (∀ d, d ≠ e.val → Tbl.get none t.vid.pre d = Tbl.get none s.vid.pre d) ∧ s.QueuesBut t it.queue ∧
        (∃ st' sl', t.slotOf it.queue it.slot = some (st', sl') ∧ sl' = { sl with
          latched := some l, aug := a, items := sl.items.erase (it.job, it.region), running := sl.running + 1 }) ∧
        t = { s with vid := { s.vid with pre := t.vid.pre }, sch := { s.sch with queues := t.sch.queues } }
      (∀ l, need = false → list = some l → takes sl.aug l) ∧
      (∀ r l, need = true → got = some r → list = some l → augOk r (jobFilter j) = true → takes (some r) l) ∧
      (∀ r l, need = true → got = some r → list = some l → augOk r (jobFilter j) = false →
        exec (.workItemStart e) s = .next (s.voidSlot it.queue it.slot Code.PRE_AUG)) ∧
      ((need = true ∧ got = none) ∨ list = none → exec (.workItemStart e) s = .next (s.voidSlot it.queue it.slot Code.PRE_MEM_UE))) ∧
  (∀ (s : State) (e : Fin 4) (cycles : Nat), Tbl.get none s.vid.pre e.val = none → exec (.workItemDone e cycles) s = .next s) ∧
  (∀ (s : State) (e : Fin 4) (cycles : Nat) (it : Item), s.Inv → Tbl.get none s.vid.pre e.val = some it → s.slotOf it.queue it.slot = none →
    ∃ t, exec (.workItemDone e cycles) s = .next t ∧ Tbl.get none t.vid.pre e.val = none ∧
      (∀ d, d ≠ e.val → Tbl.get none t.vid.pre d = Tbl.get none s.vid.pre d) ∧
      t.reg (preBase + 0x20 + 8 * e.val) = s.reg (preBase + 0x20 + 8 * e.val) + BitVec.ofNat 64 cycles ∧
      s.RegsBut t [preBase + 0x20 + 8 * e.val] ∧ t = { s with regs := t.regs, vid := { s.vid with pre := t.vid.pre } }) ∧
  ∀ (s : State) (e : Fin 4) (cycles : Nat) (it : Item) (st : Step) (sl : Slot), s.Inv → Tbl.get none s.vid.pre e.val = some it →
    s.slotOf it.queue it.slot = some (st, sl) → ∃ u : State, Tbl.get none u.vid.pre e.val = none ∧
      (∀ d, d ≠ e.val → Tbl.get none u.vid.pre d = Tbl.get none s.vid.pre d) ∧
      u.reg (preBase + 0x20 + 8 * e.val) = s.reg (preBase + 0x20 + 8 * e.val) + BitVec.ofNat 64 cycles ∧
      s.RegsBut u [preBase + 0x20 + 8 * e.val] ∧ (u.ctxSt st.ctx) = { s.ctxSt st.ctx with pre := (s.ctxSt st.ctx).pre + cycles } ∧
      (∀ c, c ≠ st.ctx → u.ctxSt c = s.ctxSt c) ∧
      u = { s with regs := u.regs, vid := { s.vid with pre := u.vid.pre }, sch := { s.sch with ctxs := u.sch.ctxs } } ∧
      (u.runItem st sl it = none → exec (.workItemDone e cycles) s = .next (u.voidSlot it.queue it.slot Code.PRE_MEM_UE)) ∧
      ∀ w px sat, u.runItem st sl it = some (w, px, sat) → ∃ t : State,
        t.reg (preBase + 0x40) = w.reg (preBase + 0x40) + BitVec.ofNat 64 px ∧ t.reg (preBase + 0x48) = w.reg (preBase + 0x48) + BitVec.ofNat 64 sat ∧
        t.entry 0x2100 0x03 = (w.entry 0x2100 0x03 + px) % 2 ^ 64 ∧ w.RegsBut t [preBase + 0x40, preBase + 0x48, preBase + 0x50] ∧
        w.EntriesBut t [dkey 0x2100 2, dkey 0x2100 3] ∧ w.QueuesBut t it.queue ∧ t.mem = w.mem ∧
        (t.queue it.queue).held = (w.queue it.queue).held.map (fun st => { st with
          slots := st.slots.modify it.slot fun x => { x with running := x.running - 1 } }) ∧
        exec (.workItemDone e cycles) s = .next (if sl.running ≤ 1 ∧ sl.items = [] then t.fillSlot it.queue it.slot sl else t)

/-- R335, R337, R338. -/
def Obligations.ContextsLiveAndEnd : Prop :=
  (∀ (s : State) (o : Origin) (c : CtxId), s.Inv → s.Reaches o →
    let i := 0x3000 + c.val
    let st := s.ctxState c.val
    let unshed := fun (t : State) => c.val ∉ t.sch.shed ∧ ∀ q,
      t.queue q = { s.queue q with shedAt := (s.queue q).shedAt && (s.queue q).ctx != c.val }
    let d := dkey i 0x02 :: [dkey 0x3500 (0x30 + s.ctx c.val 4), dkey 0x4000 2]
    (∀ (v : Byte) (x : Instr) (code : W16), s.dictGate o i 0x01 true [v] = none →
      (v, x, code) ∈ [(1, Instr.contextEnable o c, if st ≠ 0 then Code.SCH_CTX_STATE else Code.SCH_CTX_CONFIG),
        (2, .contextDisable o c, Code.SCH_CTX_STATE), (3, .clearFault o c, Code.SCH_CTX_STATE)] →
      (v = 1 → st ≠ 0 ∨ s.enableOk c.val = false) → (v = 2 → st ≠ 2 ∧ st ≠ 3) → (v = 3 → st ≠ 3) →
      exec x s = .next (((s.asked o i 0x01 [v]).rejectEntry code o i 0x01 [v]).answered o code)) ∧
    (s.dictGate o i 0x01 true [1] = none → st = 0 → s.enableOk c.val = true →
      let h := s.ctx c.val 4
      let a := s.asked o i 0x01 [1]
      let w := s.ctx c.val 0x06 / 0x200000
      let sv := s.saveSize c.val / 0x200000
      let with1 := fun (x : Nat) => { s with mem := { s.mem with allocs := s.mem.allocs ++ [(⟨h, x, w, c.val, false⟩ : Alloc)] } }
      (s.freeRun h w = none ∨ (∃ x, s.freeRun h w = some x ∧ (with1 x).freeRun h sv = none) → exec (.contextEnable o c) s =
        .next ((a.rejectEntry Code.SCH_CTX_MEMORY o i 0x01 [1]).answered o Code.SCH_CTX_MEMORY)) ∧
      ∀ x y, s.freeRun h w = some x → (with1 x).freeRun h sv = some y → ∃ t : State, exec (.contextEnable o c) s = .next (t.answered o 0) ∧
        t.ctxState c.val = 1 ∧
        t.mem = { s.mem with allocs := s.mem.allocs ++ [⟨h, x, w, c.val, false⟩, ⟨h, y, sv, c.val, true⟩], power := t.mem.power } ∧
        (∀ p, Tbl.get .active t.mem.power p = if Tbl.get .active s.mem.power p = .selfRefresh ∧ t.dozing p = false then .active
          else Tbl.get .active s.mem.power p) ∧
        (∀ u, x ≤ u → u < x + w → s.unitFree h u = true) ∧
        (∀ u, y ≤ u → u < y + sv → s.unitFree h u = true ∧ (u < x ∨ x + w ≤ u)) ∧
        s.EntriesBut t d ∧ unshed t ∧ t = { a with dict := t.dict, mem := t.mem, sch := { s.sch with shed := t.sch.shed, queues := t.sch.queues } }) ∧
    (s.dictGate o i 0x01 true [2] = none → st = 2 ∨ st = 3 → (∀ x ∈ s.stepsOf c.val, ∀ sl ∈ x.2.slots, sl.stream < 64) → ∃ u : State,
      exec (.contextDisable o c) s = .next (u.schedule.answered o 0) ∧ u.ctxState c.val = 4 ∧ u.ctx c.val 0x07 = 0 ∧
      u.ctx c.val 0x1B = 0 ∧ u.ctx c.val 0x1C = 0 ∧ u.stepsOf c.val = [] ∧
      (s.stepsOf c.val ≠ [] → u.ctx c.val 0x1D = Code.SCH_CTX_DISABLED.toNat) ∧ ∀ n, n < 8 → (u.ib n).slotOf c.val = none) ∧
    (s.dictGate o i 0x01 true [3] = none → st = 3 → ∃ t : State, exec (.clearFault o c) s = .next (t.answered o 0) ∧
      t.ctxState c.val = (if s.ctx c.val 0x07 = 0 then 1 else 2) ∧ s.EntriesBut t d ∧ unshed t ∧
      t = { s.asked o i 0x01 [3] with dict := t.dict, sch := { s.sch with shed := t.sch.shed, queues := t.sch.queues } })) ∧
  ∀ (s : State) (c : CtxId), s.Inv →
    (∀ w sv, s.ctxState c.val = 1 → (s.mem.allocs.filter fun a => a.ctx == c.val) = [w, sv] → w.save = false → sv.save = true →
      ∃ t, exec (.contextReady c) s = .next t ∧ t.ctxState c.val = 2 ∧ t.ctx c.val 0x07 = w.addr % 2 ^ 64 ∧
        t.ctx c.val 0x1B = sv.addr % 2 ^ 64 ∧ t.ctx c.val 0x1C = s.saveSize c.val % 2 ^ 64 ∧
        ((∀ x, s.flipArmed x = false) →
          (∀ a ∈ [w, sv], ∀ i j, i < a.size * 1024 → j < 2048 →
            Tbl.get 0 t.mem.hbm (physKey (s.mapAddr (a.addr + i * 2048)) + j) = 0) ∧
          (∀ a, (∀ p x, a ≠ pcReg p x) → t.reg a = s.reg a) ∧ t = { s with regs := t.regs, dict := t.dict, mem := t.mem })) ∧
    (s.ctxState c.val = 4 → ∃ t, exec (.contextDisabled c) s = .next t ∧ t.ctxState c.val = 0 ∧
      t.mem.allocs = s.mem.allocs.filter (fun a => a.ctx != c.val) ∧ (∀ a, (∀ k, a ≠ fnReg k (coilBase + 0x10)) → t.reg a = s.reg a) ∧
      t = { s with regs := t.regs, dict := t.dict, mem := t.mem, coil := t.coil })

/-- R339, R340. -/
def Obligations.QueueCommands : Prop :=
  ∀ (s0 : State) (fn : Fn) (q : QueueId), s0.Inv → s0.Serving fn.val →
    let s := s0.received 4
    let x := s.queue q.val
    let refused := fun (c : Instr) (u : State) (code : W16) => ∃ t, exec c s0 = .next t ∧ t = u.qResult fn.val q.val code ∧
      t.queue q.val = x ∧ s.QueuesBut t q.val ∧ t.reg (schReg fn.val 0x28) = BitVec.ofNat 64 (code.toNat + 0x10000) ∧
      t.log.head? = some ⟨s.entry 0x6000 1 + 1, code, fn.val, 3, q.val, 0⟩
    (∀ now : Nat, (x.bound = true → refused (.bind fn q now) (s.timeIs now) Code.SCH_Q_STATE) ∧
      (∀ code, x.bound = false → s.bindCode fn.val (s.qRec fn.val) = some code → refused (.bind fn q now) (s.timeIs now) code) ∧
      (x.bound = false → s.bindCode fn.val (s.qRec fn.val) = none →
        let y : Queue := { bound := true, record := s.qRec fn.val, lastCode := x.lastCode,
                           stale := x.stale + (if x.fetching then 1 else 0) }
        (y.lead ≠ 0xFF ∨ y.f 0x14 4 = 0 → ∃ t, exec (.bind fn q now) s0 = .next t ∧ t.queue q.val = y ∧ s.QueuesBut t q.val ∧
          t.reg (schReg fn.val 0x28) = 0x10000 ∧ s.RegsBut t [schReg fn.val 0x28] ∧
          t = { s with regs := t.regs, sch := { s.sch with queues := t.sch.queues, now := max s.sch.now now } }) ∧
        (y.lead = 0xFF → y.f 0x14 4 ≠ 0 → ∃ t, exec (.bind fn q now) s0 = .next t ∧
          t.queue q.val = { y with
            mayOpen := s.ctxState y.ctx == 2, openAt := max s.sch.now now, latch := s.settings, shedAt := s.sch.shed.contains y.ctx } ∧
          s.QueuesBut t q.val ∧ t.reg (schReg fn.val 0x28) = 0x10000 ∧ s.RegsBut t [schReg fn.val 0x28]))) ∧
    (s.qMine fn.val q.val = false → refused (.unbind fn q) s Code.SCH_Q_CONTEXT ∧ refused (.queueRead fn q) s Code.SCH_Q_CONTEXT) ∧
    (s.qMine fn.val q.val = true →
      (x.held.isSome = true → refused (.unbind fn q) s Code.SCH_Q_STATE) ∧
      (x.held = none → ∃ t, exec (.unbind fn q) s0 = .next t ∧ t.queue q.val = { x with bound := false, mayOpen := false } ∧
        s.QueuesBut t q.val ∧ t.reg (schReg fn.val 0x28) = 0x10000 ∧ s.RegsBut t [schReg fn.val 0x28] ∧
        t = { s with regs := t.regs, sch := { s.sch with queues := t.sch.queues } }) ∧
      ∃ t, exec (.queueRead fn q) s0 = .next t ∧ (∀ i, i < 4 → t.reg (schReg fn.val (8 * i)) = BitVec.ofNat 64 (x.f (8 * i) 8)) ∧
        t.reg (schReg fn.val 0x28) = 0x10000 ∧ s.RegsBut t ([0, 8, 0x10, 0x18, 0x28].map (schReg fn.val)) ∧ t = { s with regs := t.regs }) ∧
    ∀ tail : W32, (x.doorCode fn.val tail = none → ∃ t, exec (.doorbellWrite fn q tail) s0 = .next t ∧ t.queue q.val = { x with tail := tail } ∧
        s.QueuesBut t q.val ∧ t = { s with sch := { s.sch with queues := t.sch.queues } }) ∧
      ∀ code, x.doorCode fn.val tail = some code → ∃ t, exec (.doorbellWrite fn q tail) s0 = .next t ∧
        t.queue q.val = { x with lastCode := code } ∧ s.QueuesBut t q.val ∧ t.entry 0x3400 0x15 = (s.entry 0x3400 0x15 + 1) % 2 ^ 64 ∧
        t.log.head?.map (·.code) = some code

/-- R341 to R344, R347. The code of a late descriptor and the counts of a queue without periods are the model's reading (log entry 31). -/
def Obligations.DescriptorsOpenSteps : Prop :=
  (∀ (s : State) (q : QueueId), s.Inv →
    let x := s.queue q.val
    (s.mayFetch q.val = false → exec (.descFetch q) s = .next s) ∧
    (s.mayFetch q.val = true → 2 ≤ s.power ∨ s.tth.nap ≠ 0 → exec (.descFetch q) s = .next s.wakeUp) ∧
    (s.mayFetch q.val = true → s.power < 2 → s.tth.nap = 0 → ∃ t, exec (.descFetch q) s = .next t ∧
      t.queue q.val = { x with head := x.head + 1, fetching := true } ∧ s.QueuesBut t q.val ∧
      t = { s with sch := { s.sch with queues := t.sch.queues }, out := t.out, hp := t.hp } ∧
      (s.hp.waits = [] → s.hp.flying.length < 512 → s.atsMode x.fn = 0 →
        t.hp = { s.hp with flying := s.hp.flying ++ [{ fn := x.fn, read := .desc q }] } ∧ t.out = s.out ++
        ([.read x.fn false (BitVec.ofNat 64 (x.f 0 8 + 128 * (x.head.toNat % x.ring))) 128 (.desc q)] ++
          (if x.f 8 8 = 0 then [] else [.write x.fn false (BitVec.ofNat 64 (x.f 8 8)) (bytesLE 8 (x.head + 1).toNat)]))))) ∧
  (∀ (s : State) (q : QueueId) (d : Fetched) (now : Nat), s.awaits (.desc q) = false → exec (.descArrival q d now) s = .next (s.timeIs now)) ∧
  (∀ (s : State) (q : QueueId) (d : Fetched) (now : Nat), s.Inv → s.awaits (.desc q) = true → 0 < (s.queue q.val).stale →
    let x := s.queue q.val
    ∃ t, exec (.descArrival q d now) s = .next t ∧ t.queue q.val = { x with stale := x.stale - 1 } ∧
      s.QueuesBut t q.val ∧ t.entry 0x3400 0x14 = (s.entry 0x3400 0x14 + 1) % 2 ^ 64 ∧ s.EntriesBut t [dkey 0x3400 0x14] ∧
      t = { s with dict := t.dict, hp := t.hp, out := t.out, sch := { s.sch with queues := t.sch.queues, now := max s.sch.now now } }) ∧
  (∀ (s : State) (q : QueueId) (d : Fetched) (now : Nat), s.awaits (.desc q) = true → (s.queue q.val).stale = 0 →
    (s.queue q.val).fetching = false → ∃ t, exec (.descArrival q d now) s = .next t ∧
      t = { s with hp := t.hp, out := t.out, sch := { s.sch with now := max s.sch.now now } }) ∧
  (∀ (s : State) (q : QueueId) (d : Fetched) (now : Nat), s.Inv → s.awaits (.desc q) = true → (s.queue q.val).stale = 0 → (s.queue q.val).fetching = true →
    let x := s.queue q.val
    (x.bound = false ∨ s.ctxState x.ctx ≠ 2 → ∃ t, exec (.descArrival q d now) s = .next t ∧ t.queue q.val = { x with fetching := false } ∧
      s.QueuesBut t q.val ∧ t.entry 0x3400 0x14 = (s.entry 0x3400 0x14 + 1) % 2 ^ 64 ∧ s.EntriesBut t [dkey 0x3400 0x14] ∧
      t = { s with dict := t.dict, hp := t.hp, out := t.out, sch := { s.sch with queues := t.sch.queues, now := max s.sch.now now } }) ∧
    (x.bound = true → s.ctxState x.ctx = 2 →
      (∀ code, (d = .failed ∧ code = Code.SCH_DESC_FETCH) ∨ (∃ bs, d = .bytes bs ∧ s.descCheck x bs = .error code) →
        ∃ t, exec (.descArrival q d now) s = .next t ∧ t.queue q.val = { x with fetching := false, lastCode := code } ∧ s.QueuesBut t q.val ∧
          t.ctx x.ctx 0x1D = code.toNat ∧ t.entry 0x3400 0x14 = (s.entry 0x3400 0x14 + 1) % 2 ^ 64 ∧
          t.log.head? = some ⟨s.entry 0x6000 1 + 1, code, x.fn, 3, q.val, 0⟩ ∧
          s.EntriesBut t [dkey 0x3400 0x14, dkey (0x3000 + x.ctx) 0x1D, dkey 0x6000 1, dkey 0x6000 3]) ∧
      ∀ bs vs, d = .bytes bs → s.descCheck x bs = .ok vs → ∃ u : State, exec (.descArrival q d now) s = .next (u.openStep q.val bs vs) ∧
        u.queue q.val = { x with fetching := false } ∧ s.QueuesBut u q.val ∧
        u = { s with hp := u.hp, out := u.out, sch := { s.sch with queues := u.sch.queues, now := max s.sch.now now } })) ∧
  ∀ (s : State) (q : Nat) (d : List Byte) (vs : List (Nat × Nat)), s.Inv →
    let x := s.queue q
    let st := s.newStep q d vs
    let shed := if x.hasPeriods then x.shedAt else s.sch.shed.contains x.ctx
    ∃ w : State, w = { s with dict := w.dict, streams := w.streams, sch := { s.sch with queues := w.sch.queues, serial := s.sch.serial + 1 } } ∧
      w.queue q = { x with mayOpen := false, periods := if x.hasPeriods then x.periods else (x.periods + 1) % 2 ^ 32 } ∧ s.QueuesBut w q ∧
      w.ctx x.ctx 0x20 = (s.ctx x.ctx 0x20 + 1) % 2 ^ 64 ∧ s.EntriesBut w [dkey (0x3000 + x.ctx) 0x20] ∧ s.StreamsBut w x.lead ∧
      (x.lead ≠ 0xFF → w.stream x.lead = { s.stream x.lead with used := true }) ∧
      (shed = true → s.openStep q d vs = w.shedStep q st) ∧
      (∀ e, shed = false → w.openChecks st = .error e →
        s.openStep q d vs = (((w.setStep q (some st)).preErr e st.ctx 0).logDev e 2 st.ctx).faultCtx st.ctx q e) ∧
      (∀ jobs ds fs, shed = false → w.openChecks st = .ok (jobs, ds, fs) → (x.hasPeriods = true → x.mayOpen = true) →
        (∀ sl ∈ st.slots, sl.host = false ∧ (s.stream sl.stream).voided = false) →
        s.openStep q d vs = w.setStep q (some { st with plan := jobs, planDescs := ds, fills := fs }))

/-- R345 to R347, R355. -/
def Obligations.PeriodsOpen : Prop :=
  (∀ (s : State) (n : StreamId) (now : Nat), s.Inv →
    let x := s.stream n.val
    let u := s.timeIs now
    (s.str n.val 0x02 = 0 ∨ s.str n.val 0x02 = 4 → exec (.periodOpen (.timer n) now) s = .next u) ∧
    (s.str n.val 0x02 ≠ 0 → s.str n.val 0x02 ≠ 4 → x.mode = 0 →
      exec (.periodOpen (.timer n) now) s = .next (u.streamPeriod n.val none)) ∧
    (s.str n.val 0x02 ≠ 0 → s.str n.val 0x02 ≠ 4 → x.mode ≠ 0 → x.opened = true → x.fresh = false → x.periodMax ≠ 0 →
      exec (.periodOpen (.timer n) now) s = .next (u.streamPeriod n.val (some (x.openPts + BitVec.ofNat 64 x.ptsPeriod, true)))) ∧
    (s.str n.val 0x02 ≠ 0 → s.str n.val 0x02 ≠ 4 → x.mode ≠ 0 → x.opened = false ∨ x.fresh = true ∨ x.periodMax = 0 →
      exec (.periodOpen (.timer n) now) s = .next u) ∧
    (x.opens = [] → exec (.periodOpen (.picture n) now) s = .next u) ∧
    ∀ p ps, x.opens = p :: ps → exec (.periodOpen (.picture n) now) s =
      .next ((u.modStream n.val fun y => { y with opens := ps }).streamPeriod n.val (some (p, false)))) ∧
  (∀ (s : State) (n : Nat) (pts : Option (W64 × Bool)), s.Inv → (∀ e ∈ s.sch.queues, e.2.bound = true → e.2.lead ≠ n) →
    let x := s.stream n
    let t := s.streamPeriod n pts
    t.str n 0x4C = (if x.opened then (s.str n 0x4C + 1) % 2 ^ 32 else 0) ∧
    t.str n 0x4E = (s.str n 0x4E + if x.opened && !x.used then 1 else 0) % 2 ^ 64 ∧
    s.EntriesBut t [dkey (0x2000 + n) 0x4C, dkey (0x2000 + n) 0x4E] ∧
    (t.stream n).opened = true ∧ (t.stream n).used = false ∧ (t.stream n).mode = s.str n 0x48 ∧ (t.stream n).ptsPeriod = s.str n 0x4A ∧
    (t.stream n).periodLen = s.str n 0x49 ∧ (t.stream n).periodMax = s.str n 0x4B ∧ (t.stream n).took = false ∧ (t.stream n).voided = false ∧
    (t.stream n).jobs = x.jobs ∧ (t.stream n).frames = x.frames ∧ (t.stream n).queue = x.queue ∧
    (∀ p, pts = some p → (t.stream n).openPts = p.1 ∧ (t.stream n).openDerived = p.2) ∧ s.StreamsBut t n ∧
    t = { s with dict := t.dict, streams := t.streams }) ∧
  (∀ (s : State) (q : QueueId) (now : Nat), s.Inv →
    let x := s.queue q.val
    (x.bound = true → x.lead = 0xFF → x.f 0x14 4 ≠ 0 → x.held = none → ∃ t, exec (.periodOpen (.queue q) now) s = .next t ∧
      t.queue q.val = { x with
        periods := (x.periods + 1) % 2 ^ 32, mayOpen := s.ctxState x.ctx == 2, openAt := max s.sch.now now,
                               shedAt := s.sch.shed.contains x.ctx, latch := (List.range 64).map fun n => (s.str n 0x42, s.str n 0x40, s.str n 0x41) } ∧
      s.QueuesBut t q.val ∧ t = { s with sch := { s.sch with queues := t.sch.queues, now := max s.sch.now now } }) ∧
    (∀ st, x.held = some st → ((s.queueOpening q.val).queue q.val).held = none) ∧
    ∀ st, x.held = some st →
      (st.waiting = false → exec (.passLimitExpiry q) s = .next s) ∧
      (st.waiting = true → ∃ u : State, exec (.passLimitExpiry q) s = .next u.schedule ∧
        (u.queue q.val).held = some { st with passed := true } ∧ s.QueuesBut u q.val ∧ u = { s with sch := { s.sch with queues := u.sch.queues } }))

/-- R361, R604, R606, R374. `saveRank` and `restoreRank` are the image of R361 (layout: log entry 15). -/
def Obligations.SaveRestoreFillLedger : Prop :=
  (∀ (s : State) (q : QueueId) (ok : Bool) (st : Step), s.Inv → (s.queue q.val).held = some st →
    (st.state ≠ .suspending → exec (.saveDone q ok) s = .next s) ∧
    (st.state ≠ .restoring → exec (.restoreDone q ok) s = .next s) ∧
    (st.state = .suspending → exec (.saveDone q false) s = .next (s.faultCtx st.ctx q.val Code.SCH_SAVE_UE)) ∧
    (st.state = .restoring → exec (.restoreDone q false) s = .next (s.faultCtx st.ctx q.val Code.SCH_SAVE_UE)) ∧
    (∀ k u, st.state = .suspending → st.ranks = [k] → s.saveRank st.ctx 0 k = some u → ∃ t : State, exec (.saveDone q true) s = .next t.schedule ∧
      (t.queue q.val).held = some { st with
        state := .suspended, stop := false, forQueue := none,
        ranks := [{ k with stopped := false, cycles := 0, saved := (((s.ib k.ibex).resident st.ctx).map (·.used)).getD 0 }] } ∧
      s.QueuesBut t q.val ∧ (∀ n, n ≠ k.ibex → t.ib n = s.ib n) ∧ t.mem = u.mem ∧
      t.entry 0x3400 0x12 = (u.entry 0x3400 0x12 + 1) % 2 ^ 64) ∧
    (∀ k, st.state = .suspending → st.ranks = [k] → s.saveRank st.ctx 0 k = none →
      exec (.saveDone q true) s = .next ((s.saveLost st.ctx [k]).faultCtx st.ctx q.val Code.SCH_SAVE_UE)) ∧
    ∀ k, st.state = .restoring → st.ranks = [k] →
      (s.restoreRank st.ctx 0 k.saved k = none → exec (.restoreDone q true) s = .next (s.faultCtx st.ctx q.val Code.SCH_SAVE_UE)) ∧
      ∀ u, s.restoreRank st.ctx 0 k.saved k = some u → ∃ (t : State) (w : Nat), exec (.restoreDone q true) s = .next t ∧
        (t.queue q.val).held = some { st with state := .running, ranks := [{ k with cycles := k.cycles + w }] } ∧ s.QueuesBut t q.val ∧ s.IbexesBut t k.ibex ∧ t.ib k.ibex = u.ib k.ibex ∧
        t.mem = u.mem) ∧
  (∀ (s : State) (q : QueueId) (st : Step) (d : Desc) (r : List Byte) (fs : List (Desc × List Byte)), s.Inv →
    (s.queue q.val).held = some st → st.fills = (d, r) :: fs →
    (s.genNext ≠ some q.val → exec (.genFillDone q) s = .next s) ∧
    (∀ u, s.genNext = some q.val → s.genFill st.ctx st d r = (u, false) →
      exec (.genFillDone q) s = .next (u.faultCtx st.ctx q.val Code.DET_GEN_UE)) ∧
    ∀ u, s.genNext = some q.val → s.genFill st.ctx st d r = (u, true) → ∃ t : State, exec (.genFillDone q) s = .next (t.checkReady q.val) ∧
      t.entry 0x4000 0x05 = (u.entry 0x4000 0x05 + 1) % 2 ^ 64 ∧ t.entry 0x4000 0x06 = (u.entry 0x4000 0x06 + d.rows * d.e 0 * 4) % 2 ^ 64 ∧
      u.EntriesBut t [dkey 0x4000 5, dkey 0x4000 6] ∧ (t.queue q.val).held = some { st with fills := fs } ∧ s.QueuesBut t q.val ∧
      t = { u with dict := t.dict, sch := t.sch }) ∧
  (∀ (s0 : State) (fn : Fn) (off : Nat) (v : W64), s0.Inv → s0.Serving fn.val → off < 0x4000 → off % 8 = 0 →
    let s := s0.received 8
    let w := if off % 16 = 8 then v.toNat % 128 else v.toNat
    let bad := if off % 16 = 0 then v.toNat % 64 ≠ 0 else 64 < w
    (fn.val ≠ 0 → exec (.detGenWrite fn off v) s0 = .next s) ∧
    (fn.val = 0 → s.ctxState (off / 16) = 0 → ¬ bad → ∃ t, exec (.detGenWrite fn off v) s0 = .next t ∧ t.reg (detBase + off) = BitVec.ofNat 64 w ∧
      s.RegsBut t [detBase + off] ∧ t = { s with regs := t.regs }) ∧
    (fn.val = 0 → s.ctxState (off / 16) ≠ 0 ∨ bad → ∃ t code x, exec (.detGenWrite fn off v) s0 = .next t ∧ t.reg (detBase + off) = s.reg (detBase + off) ∧
      code = (if s.ctxState (off / 16) ≠ 0 then Code.DET_GEN_STATE else Code.DET_GEN_RANGE) ∧
      t = s.logErr code 0 2 (off / 16) x (some 0))) ∧
  ∀ (s : State) (c : CtxId) (a : CtxActivity), s.Inv →
    let x := s.ctxSt c.val
    ∃ (t : State) (e : Nat), exec (.ledgerTick c a) s = .next t ∧ (s.pw 0x49 ≠ 0 → e = x.energy + s.ctxEnergy a (Tbl.get {} s.acts.ctxs c.val) x.dummy ∧ t.fresh = s.fresh) ∧
      t.ctx c.val 0x28 = (s.ctx c.val 0x28 + x.engine) % 2 ^ 64 ∧ t.ctx c.val 0x29 = (s.ctx c.val 0x29 + x.pre) % 2 ^ 64 ∧
      t.ctx c.val 0x2A = (s.ctx c.val 0x2A + a.hbmBytes) % 2 ^ 64 ∧ t.ctx c.val 0x2B = (s.ctx c.val 0x2B + e / 1000000000) % 2 ^ 64 ∧
      (t.ctxSt c.val) = { x with engine := 0, pre := 0, dummy := 0, energy := e % 1000000000 } ∧
      (∀ b, b ≠ c.val → t.ctxSt b = s.ctxSt b) ∧ s.EntriesBut t ([0x28, 0x29, 0x2A, 0x2B].map (dkey (0x3000 + c.val))) ∧
      (∀ b, Tbl.get {} t.acts.ctxs b = if b = c.val then {} else Tbl.get {} s.acts.ctxs b) ∧
      t = { s with dict := t.dict, fresh := t.fresh, sch := { s.sch with ctxs := t.sch.ctxs }, acts := { s.acts with ctxs := t.acts.ctxs } }

/-- R416 to R418. A stored word is kept as its data and the syndrome of its 72 bits; a wrong data bit d changes both, a wrong check bit
the syndrome alone. -/
def Obligations.WordCodeCorrects : Prop :=
  let flip := fun (v b : Nat) => if b < 64 then v ^^^ 2 ^ b else v
  let syn := fun (b : Nat) => if b < 64 then checkByte (2 ^ b) else 2 ^ (b - 64)
  decodeWord 0 0x7F = .poison ∧ ∀ v, v < 2 ^ 64 → decodeWord v 0 = .clean v ∧
    (∀ b, b < 72 → decodeWord (flip v b) (syn b) = .corrected v) ∧
    ∀ b c, b < c → c < 72 → decodeWord (flip (flip v b) c) (syn b ^^^ syn c) = .ue

/-- R421, R422: the algebra of the page code over GF(256). -/
def Obligations.PageCodeRebuilds : Prop :=
  ∀ (m : Mem) (page : Nat) (val : Nat → Nat) (lost : List Nat), (∀ i, i < 256 → val i < 2 ^ 64) →
    erased (m.pageWords page) = lost → (∀ i, i < 256 → i ∉ lost → (m.readWord (256 * page + i)).value = some (val i)) →
    let syms := pageSyms ((List.range 256).map fun i => (i, val i))
    (lost.length ≤ 2 → (m.checkWords page).1.value = some syms.1 → (m.checkWords page).2.value = some syms.2 →
      m.rebuild page = some (lost.map fun i => (i, val i))) ∧
    (∀ i, lost = [i] → (m.checkWords page).1.value = some syms.1 → m.rebuild page = some [(i, val i)]) ∧
    ∀ i, lost = [i] → i ≠ 0 → (m.checkWords page).1.value = none → (m.checkWords page).2.value = some syms.2 →
      m.rebuild page = some [(i, val i)]

/-- R385: the map of addresses to pseudo-channels is injective, over all apertures. -/
def Obligations.AddressMapInjective : Prop :=
  ∀ s : State, s.commonMib ≤ 762 → (∀ g h, g < 8 → h < 8 → g ≠ h → s.pcMask g &&& s.pcMask h = 0) →
    ∀ a, s.addrOk a = true → (s.mapAddr a).1 < 32 ∧ (s.mapAddr a).2 < 762 * 2 ^ 20 ∧
      ∀ b, s.addrOk b = true → physKey (s.mapAddr a) = physKey (s.mapAddr b) → a = b

/-- The coherent view (R401, R404, R427) for aligned words, and R406. -/
def Obligations.WordWrittenReadsBack : Prop :=
  (∀ (s t : State) (a : Nat) (bs : List Byte), s.Inv → (∀ d, s.flipArmed d = false) → a % 8 = 0 → bs.length = 8 →
    Tbl.get 0 s.mem.splSyn (physKey (s.mapAddr a) / 8) = 0 → s.memWrite a bs = some t → t.memRead a 8 = some bs) ∧
  (∀ (s : State) (a v : Nat) (add : W64), s.Inv → (∀ d, s.flipArmed d = false) → a % 8 = 0 → s.rangeOk a 8 = true →
    Tbl.get 0 s.mem.splSyn (physKey (s.mapAddr a) / 8) = 0 → s.memNat a 8 = some v →
    ∃ t, exec (.cacheAtomic a add) s = .next t ∧ t.memNat a 8 = some ((v + add.toNat) % 2 ^ 64) ∧
      t.reg (memBase + 0x4020) = s.reg (memBase + 0x4020) + 1) ∧
  ∀ (s : State) (w data : Nat), s.Inv → s.flipArmed 0 = false →
    (s.storeWord w data).mem.readWord w = .clean (data % 2 ^ 64) ∧
    ∀ x, x ≠ w → (s.storeWord w data).mem.readWord x = s.mem.readWord x

/-- R393 to R395, R403, R404, R408. `victim` is the replacement rule of R403, `choose` the choice of R394. -/
def Obligations.CacheLines : Prop :=
  (∀ (s : State) (r : Requester) (a n : Nat), s.Inv → s.addrOk a = true → 0 < n →
    let la := a / 128
    (∀ l, Tbl.get none s.mem.lines la = some l → (∀ i, i < 16 → Tbl.get 0 s.mem.lineSyn (la * 16 + i) = 0) → ∃ t : State,
      exec (.cacheRead r a n) s = .next (if l.whole then t else t.readLine r la) ∧ Tbl.get none t.mem.lines la = some { l with nru := true } ∧
      (∀ b, b ≠ la → Tbl.get none t.mem.lines b = Tbl.get none s.mem.lines b) ∧
      t.reg (memBase + 0x4000) = s.reg (memBase + 0x4000) + 1 ∧ s.RegsBut t [memBase + 0x4000] ∧
      t = { s with regs := t.regs, mem := { s.mem with lines := t.mem.lines } }) ∧
    (Tbl.get none s.mem.lines la = none → exec (.cacheRead r a n) s = .next ((s.count (memBase + 0x4008) 1).readLine r la))) ∧
  (∀ (s : State) (r : Requester) (la : Nat), s.Inv →
    let pc := (s.mapAddr (la * 128)).1
    let q : PcReq := { write := false, pc := pc, line := la, words := s.lineWords la, who := r }
    (s.pcFailed pc = true → s.readLine r la = s) ∧
    (s.pcFailed pc = false → (s.lineWords la).all s.mem.spliceHas = true → s.readLine r la = ((s.wakePc pc).checkSplice (s.lineWords la)).fillLine r la) ∧
    (s.pcFailed pc = false → (s.lineWords la).all s.mem.spliceHas = false → ∃ u : State, s.readLine r la = u.drain pc ∧
      u.mem.queue = s.mem.queue ++ [q] ∧ Tbl.get .active u.mem.power pc = .active ∧
      u.reg (pcReg pc 0x40) = s.reg (pcReg pc 0x40) + (if s.mem.queue.any (·.meets q) then 1 else 0) ∧ s.RegsBut u [pcReg pc 0x40] ∧
      u = { s with regs := u.regs, mem := { s.mem with queue := u.mem.queue, power := u.mem.power } })) ∧
  (∀ (s : State) (p : PcId) (waited : Nat), s.Inv →
    let rs := s.mem.reads p.val
    let aged := decide (s.entry 0x1500 0x09 * 64 < waited)
    let old := if aged then s.mem.queue.takeWhile (fun x => x.write || x.pc != p.val) else []
    let pick := if aged then (rs.filter fun r => !s.mem.holds r).head? else s.choose rs
    (pick = none → exec (.cacheFill p waited) s = .next s) ∧
    ∀ r, pick = some r →
      let u := (if aged then s.count (pcReg p.val 0x38) 1 else s).issueReq r
      let w0 := r.words.headD 0
      let row := pcReg (w0 / 2 ^ 27) (if s.rowIsOpen w0 then 0x28 else 0x20)
      u.mem.queue = s.mem.queue.erase r ∧ Tbl.get 0 u.mem.rows (s.rowOf w0).1 = (s.rowOf w0).2 ∧ u.reg row = s.reg row + 1 ∧
      u.reg (pcReg p.val 0x10) = s.reg (pcReg p.val 0x10) + BitVec.ofNat 64 (8 * r.words.length) ∧
      u.reg (pcReg p.val 0x38) = s.reg (pcReg p.val 0x38) + (if aged then 1 else 0) ∧
      ((∀ w ∈ r.words, Tbl.get 0 s.mem.splSyn w = 0 ∧ ∃ v, s.mem.readWord w = .clean v) →
        exec (.cacheFill p waited) s = .next ((u.fillLine r.who r.line).drainOld old p.val)) ∧
      ((∃ w ∈ r.words, s.mem.readWord w = .ue ∧ s.mem.spliceHas w = false) → ∃ t : State, exec (.cacheFill p waited) s = .next (t.drainOld old p.val) ∧
        t.mem.mends = s.mem.mends ++ [r] ∧ t.mem.queue = s.mem.queue.erase r ∧ t.mem.lines = s.mem.lines)) ∧
  (∀ (s : State) (r : Requester) (la : Nat) (bs : List Byte), s.Inv →
    (s.memRead (la * 128) 128 = none → s.fillLine r la = s) ∧
    (s.memRead (la * 128) 128 = some bs →
      let t := s.fillLine r la
      (∀ l, Tbl.get none s.mem.lines la = some l → ∃ l', Tbl.get none t.mem.lines la = some l' ∧ l' = { l with nru := true, data := l'.data } ∧
        (∀ i, i < 128 → Tbl.get none l'.data i = bs[i]?) ∧ (∀ i, i < 16 → Tbl.get 0 t.mem.lineSyn (la * 16 + i) = 0) ∧
        s.EntriesBut t [dkey 0x1500 0x55] ∧ t = { s with dict := t.dict, mem := { s.mem with lines := t.mem.lines, lineSyn := t.mem.lineSyn } }) ∧
      (Tbl.get none s.mem.lines la = none → (s.victim la (s.fillMask r) = none → t = s) ∧
        ∀ w v, s.victim la (s.fillMask r) = some (w, v) → ∃ l, Tbl.get none t.mem.lines la = some l ∧
          l.way = w ∧ l.nru = true ∧ l.dirty = false ∧ (∀ i, i < 128 → Tbl.get none l.data i = bs[i]?) ∧
          t = { v with regs := t.regs, mem := { v.mem with lines := t.mem.lines, lineSyn := t.mem.lineSyn } }))) ∧
  ∀ (s : State) (r : Requester) (a : Nat) (bs : List Byte), s.Inv → s.flipArmed 4 = false → bs ≠ [] → a % 128 + bs.length ≤ 128 →
    s.addrOk a = true → s.addrOk (a + bs.length - 1) = true →
    let la := a / 128
    let u := s.count (memBase + 0x4008) 1
    (∀ l, Tbl.get none s.mem.lines la = some l → (∀ i, i < 16 → Tbl.get 0 s.mem.lineSyn (la * 16 + i) = 0) → ∃ t l',
      exec (.cacheWrite r a bs) s = .next t ∧
      Tbl.get none t.mem.lines la = some l' ∧ l' = { l with dirty := true, nru := true, data := l'.data } ∧
      (∀ i, i < bs.length → Tbl.get none l'.data (a % 128 + i) = bs[i]?) ∧
      (∀ j, j < a % 128 ∨ a % 128 + bs.length ≤ j → Tbl.get none l'.data j = Tbl.get none l.data j) ∧
      (∀ b, b ≠ la → Tbl.get none t.mem.lines b = Tbl.get none s.mem.lines b) ∧
      t.reg (memBase + 0x4000) = s.reg (memBase + 0x4000) + 1 ∧ s.RegsBut t [memBase + 0x4000] ∧
      t = { s with regs := t.regs, mem := { s.mem with lines := t.mem.lines, lineSyn := t.mem.lineSyn } }) ∧
    (Tbl.get none s.mem.lines la = none →
      (∀ h w v, r = .herd h → (∀ i, i < 16 → Tbl.get 0 s.mem.lineSyn (la * 16 + i) = 0) → u.victim la (u.fillMask r) = some (w, v) → ∃ t l, exec (.cacheWrite r a bs) s = .next t ∧
        Tbl.get none t.mem.lines la = some l ∧ l.way = w ∧ l.dirty = true ∧
        (∀ i, i < bs.length → Tbl.get none l.data (a % 128 + i) = bs[i]?) ∧
        (∀ j, j < a % 128 ∨ a % 128 + bs.length ≤ j → Tbl.get none l.data j = none)) ∧
      ((∀ h, r = .herd h → u.victim la (u.fillMask r) = none) → exec (.cacheWrite r a bs) s =
        .next (if s.pcFailed (s.mapAddr a).1 then u else ((u.count (memBase + 0x4018) 1).wakePc (s.mapAddr a).1).spliceBytes a bs)))

/-- R393, R397, R399, R434, R436. -/
def Obligations.PseudoChannelStates : Prop :=
  (∀ (s : State) (p : PcId), s.Inv →
    let st := Tbl.get .active s.mem.power p.val
    let asked := s.mem.queue.any fun r => r.pc == p.val
    let moved := fun (t : State) (x : PcPower) => Tbl.get .active t.mem.power p.val = x ∧
      ∀ q, q ≠ p.val → Tbl.get .active t.mem.power q = Tbl.get .active s.mem.power q
    (st = .active ∨ st = .powerDown → ∃ t, exec (.refresh p) s = .next t ∧ t.reg (pcReg p.val 0x30) = s.reg (pcReg p.val 0x30) + 1 ∧
      s.RegsBut t [pcReg p.val 0x30] ∧ (∀ b, b < 64 → Tbl.get 0 t.mem.rows (p.val * 64 + b) = 0) ∧
      (∀ k, k < p.val * 64 ∨ p.val * 64 + 64 ≤ k → Tbl.get 0 t.mem.rows k = Tbl.get 0 s.mem.rows k) ∧
      moved t .active ∧ t = { s with regs := t.regs, mem := { s.mem with rows := t.mem.rows, power := t.mem.power } }) ∧
    (st = .selfRefresh ∨ st = .failed → exec (.refresh p) s = .next s ∧ exec (.selfRefreshEntry p) s = .next s) ∧
    (st = .active ∨ st = .powerDown → s.dozing p.val = false ∨ asked = true → exec (.selfRefreshEntry p) s = .next s) ∧
    (st = .active ∨ st = .powerDown → s.dozing p.val = true → asked = false → ∃ t, exec (.selfRefreshEntry p) s = .next t ∧ moved t .selfRefresh ∧
      t.reg (pcReg p.val 0x48) = s.reg (pcReg p.val 0x48) + 1 ∧ s.RegsBut t [pcReg p.val 0x48] ∧
      t = { s with regs := t.regs, mem := { s.mem with power := t.mem.power, rows := t.mem.rows } }) ∧
    (st ≠ .active ∨ asked = true → exec (.powerDownEntry p) s = .next s) ∧
    (st = .active → asked = false → ∃ t, exec (.powerDownEntry p) s = .next t ∧ moved t .powerDown ∧ t = { s with mem := { s.mem with power := t.mem.power } }) ∧
    (st ≠ .failed → Tbl.get 0 s.mem.retries p.val < 3 → ∃ t, exec (.cmdParityError p) s = .next t ∧
      Tbl.get 0 t.mem.retries p.val = Tbl.get 0 s.mem.retries p.val + 1 ∧ t.reg (pcReg p.val 0x50) = s.reg (pcReg p.val 0x50) + 1 ∧
      s.RegsBut t [pcReg p.val 0x50] ∧ t = { s with regs := t.regs, mem := { s.mem with retries := t.mem.retries } }) ∧
    (st = .failed → exec (.cmdParityError p) s = .next s) ∧
    (st ≠ .failed → 3 ≤ Tbl.get 0 s.mem.retries p.val → ∃ t, exec (.cmdParityError p) s = .next t ∧ moved t .failed ∧
      (t.reg (memBase + 8)).toNat = (s.reg (memBase + 8)).toNat ||| 2 ^ p.val ∧ t.entry 0x1500 0x0B = (t.reg (memBase + 8)).toNat ∧
      t.mem.splice = s.mem.splice.filter (fun e => e.page * 2048 / 2 ^ 30 != p.val) ∧
      t.log.head? = some ⟨s.entry 0x6000 1 + 1, Code.MEM_PC_FAIL, 0x41, 6, p.val, 0⟩ ∧
      t.mem.queue = s.mem.queue.filter (fun r => r.pc != p.val) ∧ t.mem.mends = s.mem.mends.filter (fun r => r.pc != p.val) ∧
      ((∀ r ∈ s.mem.queue, r.pc = p.val → r.write = false) → t.mem.hbm = s.mem.hbm))) ∧
  (∀ (s : State) (c : Int), s.Inv → -128 ≤ c → c ≤ 127 → ∃ t, exec (.stackTempRead c) s = .next t ∧
    t.regField memBase 8 8 = (c % 256).toNat ∧ t.regField memBase 16 1 = (if 85 < c then 1 else 0) ∧
    t.entry 0x1400 0x25 = (c % 2 ^ 64).toNat ∧ t.mem = s.mem ∧
    (85 < c ∧ s.regField memBase 16 1 = 0 → t.log.head?.map (·.code) = some Code.MEM_HOT) ∧
    (c ≤ 85 ∨ s.regField memBase 16 1 = 1 → t.log = s.log)) ∧
  ∀ (s0 : State) (fn : Fn) (v : W32), s0.Inv → s0.Serving fn.val →
    let s := s0.received 4
    (fn.val ≠ 0 → exec (.flipArm fn v) s0 = .next s) ∧
    (fn.val = 0 → bitOf v.toNat 6 = false → ∃ t, exec (.flipArm fn v) s0 = .next t ∧ t.regField intBase 6 1 = 0 ∧ t.regField intBase 0 3 = v.toNat % 8 ∧
      (bitOf v.toNat 7 = true → t.regField intBase 7 1 = 0) ∧ (bitOf v.toNat 7 = false → t.regField intBase 7 1 = s.regField intBase 7 1) ∧
      s.RegsBut t [intBase] ∧ t = { s with regs := t.regs }) ∧
    (fn.val = 0 → bitOf v.toNat 6 = true → s.entry 0x1500 0x44 = 1 → v.toNat % 8 = 0 → s.flipAddr % 8 = 0 → s.addrOk s.flipAddr = true →
      ∃ t, exec (.flipArm fn v) s0 = .next t ∧ t.flipArmed 0 = true ∧ s.RegsBut t [intBase] ∧ t = { s with regs := t.regs }) ∧
    (fn.val = 0 → bitOf v.toNat 6 = true → s.entry 0x1500 0x44 ≠ 1 → ∃ t, exec (.flipArm fn v) s0 = .next t ∧ t.reg intBase = s.reg intBase ∧
      t = s.flipRefuse Code.MEM_FLIP_LOCKED v.toNat) ∧
    (fn.val = 0 → bitOf v.toNat 6 = true → s.entry 0x1500 0x44 = 1 → 5 < v.toNat % 8 → ∃ t, exec (.flipArm fn v) s0 = .next t ∧ t.reg intBase = s.reg intBase ∧
      t = s.flipRefuse Code.MEM_FLIP_RANGE v.toNat)

/-- R423 to R425, R428, R430, R431. -/
def Obligations.SpliceScrubRepair : Prop :=
  (∀ (s : State) (a : Nat) (bs : List Byte), s.Inv → s.flipArmed 5 = false → bs ≠ [] → a % 128 + bs.length ≤ 128 →
    s.addrOk a = true → s.addrOk (a + bs.length - 1) = true → s.pcFailed (s.mapAddr a).1 = false →
    let k := physKey (s.mapAddr a)
    let e := ((s.mem.entry (k / 2048)).getD { page := k / 2048, data := [] }).put (k % 2048) bs
    ((s.mem.entry (k / 2048)).isSome = true ∨ s.mem.splice.length < 64) → e.full = false →
    (∀ i, i < 256 → Tbl.get 0 s.mem.splSyn (k / 2048 * 256 + i) = 0) → ∃ t, exec (.spliceWrite a bs) s = .next t ∧
      t.mem.splice = s.mem.splice.filter (fun x => x.page != k / 2048) ++ [e] ∧ t.mem.entry (k / 2048) = some e ∧
      t = { s with mem := { s.mem with splice := t.mem.splice, power := t.mem.power } }) ∧
  (∀ (s : State) (page : Nat), s.Inv →
    (s.mem.entry page = none → exec (.spliceHoldExpiry page) s = .next s) ∧
    ∀ e, s.mem.entry page = some e → (∀ d, s.flipArmed d = false) → (∀ i, i < 256 → Tbl.get 0 s.mem.splSyn (256 * page + i) = 0) →
      e.full = false → ∀ val : Nat → Nat, (∀ i, i < 256 → s.mem.readWord (256 * page + i) = .clean (val i)) →
      (∃ p q, s.mem.checkWords page = (.clean p, .clean q)) → ∃ t, exec (.spliceHoldExpiry page) s = .next t ∧
        t.mem.splice = s.mem.splice.filter (fun x => x.page != page) ∧
        (∀ i, i < 256 → t.mem.readWord (256 * page + i) = .clean (if i ∈ e.touched then e.merge i (val i) else val i)) ∧
        (∀ w, w / 256 ≠ page → t.mem.readWord w = s.mem.readWord w) ∧
        (s.mem.checkWords page = (let z := pageSyms ((List.range 256).map fun i => (i, val i)); (.clean z.1, .clean z.2)) →
          t.mem.checkWords page = (let z := pageSyms ((List.range 256).map fun i => (i, if i ∈ e.touched then e.merge i (val i) else val i));
            (.clean z.1, .clean z.2)))) ∧
  (∀ (s : State) (a : Nat), s.Inv → s.addrOk a = true → s.pcFailed (s.mapAddr a).1 = false →
    let page := physKey (s.mapAddr a) / 2048
    let lost := erased (s.mem.pageWords page)
    (lost = [] → exec (.pageRebuild a) s = .next s) ∧
    let quiet := (∀ d, s.flipArmed d = false) ∧ ∀ q ∈ s.mem.mends, q.words.headD 0 / 256 ≠ page
    (∀ r, lost ≠ [] → s.mem.rebuild page = some r → quiet → ∃ t, exec (.pageRebuild a) s = .next t ∧
      (∀ x ∈ r, t.mem.readWord (256 * page + x.1) = .clean (x.2 % 2 ^ 64)) ∧ t.entry 0x1500 0x52 = (s.entry 0x1500 0x52 + 1) % 2 ^ 64 ∧
      (∀ w, (∀ x ∈ r, w ≠ 256 * page + x.1) → (t.mem.readWord w).value = (s.mem.readWord w).value)) ∧
    (lost ≠ [] → s.mem.rebuild page = none → quiet → ∃ t, exec (.pageRebuild a) s = .next t ∧
      (∀ i ∈ lost, t.mem.readWord (256 * page + i) = .poison) ∧ t.mem.checkWords page = (.poison, .poison) ∧
      t.entry 0x1500 0x53 = (s.entry 0x1500 0x53 + 1) % 2 ^ 64 ∧ (t.log.take 2).map (·.code) = [Code.MEM_PAGE_LOST, Code.MEM_UE] ∧
      ∀ w, (∀ i ∈ lost, w ≠ 256 * page + i) → (t.mem.readWord w).value = (s.mem.readWord w).value)) ∧
  (∀ s : State, s.entry 0x1500 0x40 = 0 → exec .scrubPage s = .next s) ∧
  (∀ s : State, s.Inv → s.entry 0x1500 0x40 ≠ 0 → s.mem.scrubAt + 1 < 32 * pagesPerPc →
    let pc := s.mem.scrubAt % 32
    let page := pc * 2 ^ 19 + s.mem.scrubAt / 32
    let busy := (s.mem.entry page).isSome || Tbl.get .active s.mem.power pc == .selfRefresh || s.pcFailed pc
    let moved := fun (t : State) => t.mem = { s.mem with scrubAt := s.mem.scrubAt + 1, power := t.mem.power, rows := t.mem.rows } ∧
      t.reg (intBase + 0x58) = BitVec.ofNat 64 (s.mem.scrubAt + 1)
    (busy = true → ∃ t, exec .scrubPage s = .next t ∧ moved t ∧ t.mem.power = s.mem.power ∧ t.mem.rows = s.mem.rows ∧ s.RegsBut t [intBase + 0x58] ∧ t.entry 0x1500 0x58 = (s.entry 0x1500 0x58 + 1) % 2 ^ 64 ∧
      s.EntriesBut t [dkey 0x1500 0x58] ∧ t = { s with mem := t.mem, regs := t.regs, dict := t.dict }) ∧
    ∀ val : Nat → Nat, busy = false → (∀ i, i < 256 → s.mem.readWord (256 * page + i) = .clean (val i)) →
      s.mem.checkWords page = (let z := pageSyms ((List.range 256).map fun i => (i, val i)); (.clean z.1, .clean z.2)) →
      ∃ t, exec .scrubPage s = .next t ∧ moved t ∧ t.reg (pcReg pc 0x10) = s.reg (pcReg pc 0x10) + 2064 ∧
        t.reg (pcReg pc 0x20) + t.reg (pcReg pc 0x28) = s.reg (pcReg pc 0x20) + s.reg (pcReg pc 0x28) + 17 ∧
        (∀ q, Tbl.get .active t.mem.power q = if q = pc then .active else Tbl.get .active s.mem.power q) ∧
        s.RegsBut t ([0x10, 0x20, 0x28].map (pcReg pc) ++ [intBase + 0x58]) ∧ t = { s with mem := t.mem, regs := t.regs }) ∧
  (∀ (s : State) (n : IbexId) (w : Nat), s.Inv → Tbl.get 0 (s.ib n.val).spmSyn w = 0 →
    (exec (.sramScrub (.scratchpad n w) 0 0) s = .next s) ∧
    (∀ d, d < 64 → ∃ t, exec (.sramScrub (.scratchpad n w) (BitVec.ofNat 64 (2 ^ d)) 0) s = .next t ∧
      t.entry 0x1500 0x55 = (s.entry 0x1500 0x55 + 1) % 2 ^ 64 ∧ s.EntriesBut t [dkey 0x1500 0x55] ∧
      (∀ m, t.ib m = s.ib m) ∧ t.mem = s.mem ∧ t.log = s.log) ∧
    ∀ d e, d < e → e < 64 → ∃ t, exec (.sramScrub (.scratchpad n w) (BitVec.ofNat 64 (2 ^ d + 2 ^ e)) 0) s = .next t ∧
      t.entry 0x1500 0x56 = (s.entry 0x1500 0x56 + 1) % 2 ^ 64 ∧ t.log.head?.map (·.code) = some Code.MEM_SRAM_UE ∧ s.IbexesBut t n.val ∧
      Tbl.get 0 (t.ib n.val).spmSyn w = 0x7F ∧ (∀ i, i < 8 → Tbl.get 0 (t.ib n.val).spm (8 * w + i) = 0) ∧
      (∀ i, i < 8 * w ∨ 8 * w + 8 ≤ i → Tbl.get 0 (t.ib n.val).spm i = Tbl.get 0 (s.ib n.val).spm i)) ∧
  (∀ (s : State) (n : IbexId) (e : Fin 2048) (j : Fin 128), s.Inv → Tbl.get 0 (s.ib n.val).accSyn (e.val * 128 + j.val) = 0 →
    (exec (.sramScrub (.accumulator n e j) 0 0) s = .next s) ∧
    ∀ d, d < 64 → ∃ t, exec (.sramScrub (.accumulator n e j) (BitVec.ofNat 64 (2 ^ d)) 0) s = .next t ∧
      t.reg (ibexReg n.val 1 0x68) = s.reg (ibexReg n.val 1 0x68) + 1 ∧ s.RegsBut t [ibexReg n.val 1 0x68] ∧ (∀ m, t.ib m = s.ib m) ∧
      t = { s with regs := t.regs, ibex := t.ibex }) ∧
  (∀ (s : State) (a : Nat) (e : Splice), s.Inv → s.mem.entry (physKey (s.mapAddr a) / 2048) = some e → ∃ u : State,
    u.mem.splice = s.mem.splice.filter (fun x => x.page != physKey (s.mapAddr a) / 2048) ∧ u.mem.hbm = s.mem.hbm ∧
    u.log.head?.map (·.code) = some Code.MEM_TAG_UE ∧ u.entry 0x1500 0x56 = (s.entry 0x1500 0x56 + 1) % 2 ^ 64 ∧
    exec (.memTagUe (.spliceTag a)) s = .next (u.tagFaults fun _ => true)) ∧
  ∀ (s : State) (a : Nat) (l : Line), s.Inv → Tbl.get none s.mem.lines (a / 128) = some l →
    (l.dirty = false → ∃ t, exec (.memTagUe (.cacheTag a)) s = .next t ∧ Tbl.get none t.mem.lines (a / 128) = none ∧
      (∀ b, b ≠ a / 128 → Tbl.get none t.mem.lines b = Tbl.get none s.mem.lines b) ∧
      t = { s with mem := { s.mem with lines := t.mem.lines, lineSyn := t.mem.lineSyn } }) ∧
    (l.dirty = true → ∃ u : State, Tbl.get none u.mem.lines (a / 128) = none ∧ u.mem.hbm = s.mem.hbm ∧
      u.log.head?.map (·.code) = some Code.MEM_TAG_UE ∧ exec (.memTagUe (.cacheTag a)) s = .next (u.tagFaults fun c =>
        (s.entry 0x1500 0x05).testBit l.way || (s.wayMask (s.ctx c 0x04)).testBit l.way))

/-- R445 to R450. -/
def Obligations.CoilGrantsAndReleases : Prop :=
  (∀ (s : State) (o : BitVec 12) (bytes wait : Nat), s.Inv →
    let n := firstPool bytes
    let known := ownerOk o.toNat && bytes != 0 && decide (bytes ≤ 67108864)
    let gone := decide (o.toNat < 64) && !([1, 2, 5] : List Nat).contains (s.str o.toNat 0x02)
    (known = false → ∃ t, exec (.coilRequest o bytes wait) s = .next t ∧
      t = s.coilCode o.toNat (if ownerOk o.toNat = false then Code.COIL_OWNER else Code.COIL_SIZE) ∧ t.coil = s.coil ∧
      t.log.head?.map (·.code) = some (if ownerOk o.toNat = false then Code.COIL_OWNER else Code.COIL_SIZE)) ∧
    (∀ u m k, known = true → gone = true → s.coilGrant o.toNat bytes = some (u, m, k) →
      exec (.coilRequest o bytes wait) s = .next (u.freeBuf m k)) ∧
    (known = true → gone = false → s.poolBuffers n ≤ 2 ^ 20 → s.resvUnused n - (s.resv o.toNat n - s.held o.toNat n) < s.poolFree n →
      ∃ t k, exec (.coilRequest o bytes wait) s = .next t ∧ k < s.poolBuffers n ∧ (s.buf n k).owner = none ∧
        (t.buf n k).owner = some o.toNat ∧ ((t.buf n k).zeroing = true ↔ s.lastOf n k ≠ 0xFFF ∧ s.lastOf n k ≠ o.toNat) ∧
        (∀ m j, j < 2 ^ 20 → (m, j) ≠ (n, k) → t.buf m j = s.buf m j) ∧ t.entry 0x1600 (0x38 + n) = (s.entry 0x1600 (0x38 + n) + 1) % 2 ^ 64 ∧
        s.EntriesBut t [dkey 0x1600 (0x38 + n)] ∧ t = { s with dict := t.dict, coil := { s.coil with bufs := t.coil.bufs } }) ∧
    (known = true → s.coilGrant o.toNat bytes = none →
      (wait = 0 → ∃ t, exec (.coilRequest o bytes wait) s = .next t ∧ t.entry 0x1600 (0x48 + n) = (s.entry 0x1600 (0x48 + n) + 1) % 2 ^ 64 ∧
        s.EntriesBut t [dkey 0x1600 (0x48 + n)] ∧ t = { s with dict := t.dict }) ∧
      (wait ≠ 0 → exec (.coilRequest o bytes wait) s =
        .next { s with coil := { s.coil with waiters := s.coil.waiters ++ [⟨o.toNat, bytes, n, wait⟩] } }))) ∧
  (∀ (s : State) (p : PoolId) (k : Nat), s.Inv →
    let b := s.buf p.val k
    (b.zeroing = false → exec (.coilZeroDone p k) s = .next s) ∧
    (b.zeroing = true → ∃ t, exec (.coilZeroDone p k) s = .next t ∧ t.buf p.val k = { b with zeroing := false, last := b.owner } ∧
      t.entry 0x1600 0x02 = (s.entry 0x1600 0x02 + poolSize p.val) % 2 ^ 64 ∧
      ((∀ x, s.flipArmed x = false) →
        (∀ i j, i < poolSize p.val / 2048 → j < 2048 →
          Tbl.get 0 t.mem.hbm (physKey (s.mapAddr (s.bufAddr p.val k + i * 2048)) + j) = 0) ∧ s.EntriesBut t [dkey 0x1600 2] ∧
        t = { s with regs := t.regs, dict := t.dict, mem := t.mem, coil := { s.coil with bufs := t.coil.bufs } })) ∧
    (b.owner = none ∨ s.bufUsed p.val k = true → exec (.bufferRelease p k) s = .next s) ∧
    (b.owner ≠ none → s.bufUsed p.val k = false → ∃ u : State, exec (.bufferRelease p k) s = .next (u.serveWaiters p.val) ∧
      u.buf p.val k = { b with owner := none, zeroing := false } ∧ (∀ q, q ≠ bufKey p.val k → Tbl.get {} u.coil.bufs q = Tbl.get {} s.coil.bufs q) ∧
      (b.zeroing = false → u.regs = s.regs) ∧ (∀ a, (∀ k, a ≠ fnReg k (coilBase + 0x10)) → u.reg a = s.reg a) ∧
      u = { s with regs := u.regs, coil := { s.coil with bufs := u.coil.bufs } } ∧ (s.coil.waiters = [] → u.serveWaiters p.val = u))) ∧
  ∀ (s : State) (o : BitVec 12), s.Inv →
    ((∀ w ∈ s.coil.waiters, w.owner ≠ o.toNat) → exec (.coilTimeout o) s = .next s) ∧
    ∀ pre w post, s.coil.waiters = pre ++ w :: post → (∀ x ∈ pre, x.owner ≠ o.toNat) → w.owner = o.toNat → ∃ u : State,
      u.coil = { s.coil with waiters := pre ++ post } ∧ u.entry 0x1600 (0x48 + w.pool) = (s.entry 0x1600 (0x48 + w.pool) + 1) % 2 ^ 64 ∧
      s.EntriesBut u [dkey 0x1600 (0x48 + w.pool)] ∧ u = { s with dict := u.dict, coil := u.coil } ∧
      (64 ≤ o.toNat → exec (.coilTimeout o) s = .next u) ∧
      (o.toNat < 64 → (∀ j ∈ (s.stream o.toNat).jobs, j.serial.isSome = true → j.buf.isSome = true) → exec (.coilTimeout o) s = .next u) ∧
      ∀ j, o.toNat < 64 → (s.stream o.toNat).jobs.find? (fun j => j.serial.isSome && j.buf.isNone) = some j →
        exec (.coilTimeout o) s = .next (u.dropJob o.toNat j Code.VID_NO_BUFFER (j.syn.refMark != 0) true)

/-- R455, R446. `c` is the command word with its OP. -/
def Obligations.CoilCommands : Prop :=
  (∀ (s0 : State) (fn : Fn) (cmd : W32), s0.Inv → s0.Serving fn.val →
    let s := s0.received 4
    let res := fnReg fn.val (coilBase + 0x10)
    let arg := s.coilArg fn.val
    let o := cmd.toNat / 256 % 4096
    let n := cmd.toNat / 8 % 8
    let c := fun (op : Nat) => putField cmd.toNat 0 3 op
    (∀ op x e, (op, x) ∈ [(1, Instr.alloc fn cmd), (2, .free fn cmd), (3, .reserve fn cmd), (4, .query fn cmd)] →
      s.coilCheck fn.val (c op) op = some e → exec x s0 = .next (s.coilRefuse fn.val (c op) e)) ∧
    (s.coilCheck fn.val (c 1) 1 = none →
      (arg = 0 ∨ 67108864 < arg → exec (.alloc fn cmd) s0 = .next (s.coilRefuse fn.val (c 1) Code.COIL_SIZE)) ∧
      (0 < arg → arg ≤ 67108864 → s.coilGrant o arg = none → ∃ u : State, u.entry 0x1600 (0x48 + firstPool arg) =
        (s.entry 0x1600 (0x48 + firstPool arg) + 1) % 2 ^ 64 ∧ u = { s with dict := u.dict } ∧
        exec (.alloc fn cmd) s0 = .next (u.coilRefuse fn.val (c 1) Code.COIL_EXHAUSTED)) ∧
      ∀ u p b, 0 < arg → arg ≤ 67108864 → s.coilGrant o arg = some (u, p, b) → ∃ t, exec (.alloc fn cmd) s0 = .next t ∧
        t.reg (fnReg fn.val (coilBase + 0x18)) = BitVec.ofNat 64 (s.bufAddr p b) ∧ t.reg res = (if (u.buf p b).zeroing then 0 else 0x10000) ∧
        s.RegsBut t [res, fnReg fn.val (coilBase + 0x18)] ∧ t = { u with regs := t.regs }) ∧
    (s.coilCheck fn.val (c 2) 2 = none →
      (∀ p b, s.bufOfAddr arg = some (p, b) → (s.buf p b).owner = some o → ∃ t, exec (.free fn cmd) s0 = .next t ∧ t.reg res = 0x10000 ∧
        (s.freeBuf p b).RegsBut t [res] ∧ t = { s.freeBuf p b with regs := t.regs }) ∧
      ((∀ p b, s.bufOfAddr arg = some (p, b) → (s.buf p b).owner ≠ some o) →
        exec (.free fn cmd) s0 = .next (s.coilRefuse fn.val (c 2) Code.COIL_ADDR))) ∧
    (s.coilCheck fn.val (c 3) 3 = none →
      let u := s.setResv o n arg
      (s.poolBuffers n < arg → exec (.reserve fn cmd) s0 = .next (s.coilRefuse fn.val (c 3) Code.COIL_SIZE)) ∧
      (arg ≤ s.poolBuffers n → u.poolFree n < u.resvUnused n → exec (.reserve fn cmd) s0 = .next (s.coilRefuse fn.val (c 3) Code.COIL_RESERVE)) ∧
      (arg ≤ s.poolBuffers n → u.resvUnused n ≤ u.poolFree n → ∃ t, exec (.reserve fn cmd) s0 = .next t ∧ t.resv o n = arg ∧
        (∀ p m, m < 8 → (p, m) ≠ (o, n) → t.resv p m = s.resv p m) ∧ t.reg res = 0x10000 ∧ s.RegsBut t [res] ∧
        t = { s with regs := t.regs, coil := { s.coil with resv := t.coil.resv } })) ∧
    (s.coilCheck fn.val (c 4) 4 = none → ∃ t, exec (.query fn cmd) s0 = .next t ∧
      t.reg (fnReg fn.val (coilBase + 0x20)) = BitVec.ofNat 64 (s.held o n + s.resv o n * 2 ^ 32) ∧ t.reg res = 0x10000 ∧
      s.RegsBut t [res, fnReg fn.val (coilBase + 0x20)] ∧ t = { s with regs := t.regs })) ∧
  ∀ (s : State) (fn : Fn) (cmd : Nat) (e : W16), s.Inv →
    let t := s.coilRefuse fn.val cmd e
    t.coil = s.coil ∧ t.mem = s.mem ∧ t.log.head?.map (·.code) = some e ∧
    (e ≠ Code.COIL_BUSY → t.reg (fnReg fn.val (coilBase + 0x10)) = BitVec.ofNat 64 (e.toNat + 0x10000)) ∧
    (e = Code.COIL_BUSY → t.reg (fnReg fn.val (coilBase + 0x10)) = s.reg (fnReg fn.val (coilBase + 0x10)))

/-- R463 to R469. -/
def Obligations.PowerFastLoop : Prop :=
  (∀ (s : State) (r : PowerReading), s.Inv → r.v12 < 2 ^ 64 → ∃ t, exec (.powerSample r) s = .next t ∧
    let cap := min (s.tth.cap * 1000) (20 * r.v12)
    let e := s.tth.energyNj + 10 * r.mw
    let kept := (r.mw :: s.tth.samples).take 100000
    let xs := kept.take (100 * s.pw 0x07)
    let over' := decide (s.power < 2) && !s.fixed && decide (cap * (100 + s.pw 0x08) < r.mw * 100)
    t.tth.samples = kept ∧ t.tth.v12 = r.v12 ∧ t.tth.energyNj = e % 1000000 ∧ t.pw 0x37 = (s.pw 0x37 + e / 1000000) % 2 ^ 64 ∧ t.pw 0x26 = r.v12 ∧
    t.pw 0x22 = (xs.sum / xs.length) % 2 ^ 64 ∧ t.pw 0x23 = (cap / 1000) % 2 ^ 64 ∧ t.op = (if over' then s.op - 1 else s.op) ∧
    t.pw 0x31 = (s.pw 0x31 + if over' && s.op != 0 then 1 else 0) % 2 ^ 64 ∧
    s.EntriesBut t ([0x20, 0x22, 0x23, 0x26, 0x31, 0x37].map (dkey 0x1400 ·)) ∧ t = { s with dict := t.dict, tth := t.tth }) ∧
  (∀ (s : State) (n : IbexId), s.Inv →
    (2 ≤ s.power → exec (.droopFire n) s = .next s) ∧
    (s.power < 2 → ∃ t, exec (.droopFire n) s = .next t ∧ t.op = s.op - 1 ∧ t.tth.hold = true ∧
      t.tth.stretch = (s.tth.stretch || s.op == 0) ∧ t.pw 0x30 = (s.pw 0x30 + 1) % 2 ^ 64 ∧ t.tth.samples = s.tth.samples ∧
      (s.fixed = false → s.EntriesBut t ([0x20, 0x30, 0x31].map (dkey 0x1400 ·)) ∧ t = { s with dict := t.dict, tth := t.tth }) ∧
      (s.fixed = true → s.tth.broken = false → s.op ≤ 9 → t.tth.broken = true ∧ t.pw 0x34 = (s.pw 0x34 + 1) % 2 ^ 64 ∧
        t.log.head?.map (·.code) = some Code.PWR_FIXED_BROKEN))) ∧
  ∀ s : State, s.Inv →
    (s.tth.hold = false → exec .droopHoldEnd s = .next s) ∧
    (s.tth.hold = true → exec .droopHoldEnd s = .next { s with tth := { s.tth with hold := false, stretch := false } }) ∧
    (∀ k, s.tth.rising = some k → s.fixed = false ∨ k ≤ 9 → ∃ t, exec .voltageSlewDone s = .next t ∧ t.op = k % 2 ^ 64 ∧ t.pw 0x32 = (s.pw 0x32 + 1) % 2 ^ 64 ∧
      s.EntriesBut t ([0x20, 0x32].map (dkey 0x1400 ·)) ∧
      t = { s with dict := t.dict, tth := { s.tth with rail := s.tth.target, rising := none } }) ∧
    (∀ k, s.tth.rising = some k → s.fixed = true → 9 < k → exec .voltageSlewDone s =
      .next { s with tth := { s.tth with rail := s.tth.target, rising := none, target := s.volt s.op } }) ∧
    (s.tth.rising = none → ∃ t, exec .voltageSlewDone s = .next t ∧ t = { s with tth := { s.tth with rail := s.tth.target } })

/-- R467 over all states: the loop's decisions are single steps. -/
def Obligations.SlowLoopSingleSteps : Prop :=
  ∀ s : State, s.Inv → ∃ t, exec .slowLoopTick s = .next t ∧
    let u := (s.modTth fun t => { t with cap := s.pw 0x03 }).showCap
    (2 ≤ s.power → t = u) ∧
    (s.power < 2 →
      (t.op = s.op ∨ t.op + 1 = s.op) ∧
      (u.hot = true → 0 < s.op → t.op + 1 = s.op) ∧
      (u.hot = false → u.capEff < u.pAvg → min (if s.pw 0x04 = 1 ∨ 0 < s.entry 0x4000 0x02 then 9 else 0) (s.pw 0x21) < s.op → t.op + 1 = s.op) ∧
      (t.tth.rising = s.tth.rising ∨ t.tth.rising = none ∨ t.tth.rising = some (s.op + 1)) ∧
      (t.sch.shed = s.sch.shed ∨ t.sch.shed = s.sch.shed.dropLast ∨
        ∃ c, c ∈ s.sheddable ∧ t.sch.shed = s.sch.shed ++ [c] ∧ ∀ d ∈ s.sheddable, d ≠ c → s.shedBefore c d = true) ∧
      t.tth.hold = s.tth.hold ∧ t.acts = s.acts ∧ t.out = s.out ∧ t.mem = s.mem ∧ t.ibex = s.ibex ∧ t.streams = s.streams)

/-- R475 to R478, R483. -/
def Obligations.EnergyTemperatureIdle : Prop :=
  (∀ (s : State) (a : Activity), s.Inv → ∃ t e, exec (.energyTick a) s = .next t ∧
    (s.pw 0x49 ≠ 0 → e = s.tth.estFj + s.estimate a ∧ t.fresh = s.fresh) ∧
    t.pw 0x38 = (s.pw 0x38 + e / 1000000000000) % 2 ^ 64 ∧ s.EntriesBut t [dkey 0x1400 0x38] ∧
    t.acts = { s.acts with
      all := {}, window := (s.arith s.acts.all a.scalar a.dummyGroups :: s.acts.window).take (max 1 (s.pw 0x07)) } ∧
    t = { s with dict := t.dict, fresh := t.fresh, acts := t.acts, tth := { s.tth with estFj := e % 1000000000000 } }) ∧
  (∀ (s : State) (ts : List Int), s.Inv →
    (ts = [] → exec (.tempSample ts) s = .next s) ∧
    (ts.length = 12 → (∀ x ∈ ts, -128 ≤ x ∧ x ≤ 127) → ∃ t m, exec (.tempSample ts) s = .next t ∧ t.tth.temps = ts ∧
      m ∈ ts ∧ (∀ x ∈ ts, x ≤ m) ∧ t.tj = m ∧ t.op ≤ s.op ∧ t.mem = s.mem ∧ t.ibex = s.ibex ∧
      ∀ k x, ts[k]? = some x → t.reg (tthBase + 8 + 8 * k) = BitVec.ofInt 64 (x % 256))) ∧
  (∀ s : State, s.Inv →
    (s.tth.tripOut = true ∨ s.start.halted = true → exec .thermalTrip s = .next s) ∧
    (s.tth.tripOut = false → s.start.halted = false → ∃ t, exec .thermalTrip s = .next t ∧ t.tth.tripOut = true ∧ t.power = 3 ∧
      t.out = s.out ++ [.pin "THERMTRIP#" true]) ∧
    (∀ ts : List Int, s.tth.tripOut = true → (∀ x ∈ ts, x < 95) → exec (.thermtripRelease ts) s =
      .next { s with tth := { s.tth with tripOut := false }, out := s.out ++ [.pin "THERMTRIP#" false] }) ∧
    (∀ ts : List Int, s.tth.tripOut = false ∨ (∃ x ∈ ts, 95 ≤ x) → exec (.thermtripRelease ts) s = .next s) ∧
    (s.stage ≠ 11 ∨ s.power ≠ 0 ∨ s.quiet = false → exec .idleEntry s = .next s) ∧
    (s.stage = 11 → s.power = 0 → s.quiet = true → ∃ t, exec .idleEntry s = .next t ∧ t.power = 1 ∧
      (∀ n, n < 8 → (t.ib n).gated = true ∧ t.ib n = { s.ib n with gated := true, ramp := (t.ib n).ramp } ∧ (t.ib n).ramp =
        (if (s.ib n).ramp.level = 0 then (s.ib n).ramp else { (s.ib n).ramp with level := 0, ramping := false })) ∧
      s.EntriesBut t [dkey 0x1400 2] ∧
      t = { s with dict := t.dict, regs := t.regs, ibex := t.ibex, fresh := t.fresh, sch := { s.sch with ctxs := t.sch.ctxs } }))

/-- R479 to R481. -/
def Obligations.NapEntersAndWakes : Prop :=
  (∀ s : State, s.Inv →
    (s.napOk = false → exec .napEntry s = .next s) ∧
    (s.napOk = true → ∃ t, exec .napEntry s = .next t ∧ t.tth.nap = 1 ∧ t.wake = false ∧ t.vid.power = 1 ∧ t.power = 1 ∧
      t = { s with tth := { s.tth with nap := 1 }, wake := false, vid := { s.vid with power := 1 } }) ∧
    (∀ c ∈ [Instr.wakeEvent, .linkL1Exit], exec c s = .next (if s.power = 2 ∨ s.tth.nap ≠ 0 then { s with wake := true } else s)) ∧
    ((s.power ≠ 2 ∨ s.wake = false) → exec .napExitDone s = .next s) ∧
    (s.power = 2 → s.wake = true → exec .napExitDone s =
      .next (s.store.napped.foldl (fun s a => s.wakeAccess a) { s.napExit with store := { s.napExit.store with napped := [] } })) ∧
    (s.power = 2 → s.wake = true → s.store.napped = [] → s.waitList = [] → (∀ e, e < 4 → s.eeAt e = none) → ∃ t, exec .napExitDone s = .next t ∧ t.power = 1 ∧ t.wake = false ∧
      t.vid.power = 0 ∧ t.tth.nap = 0 ∧ (∀ p, Tbl.get .active t.mem.power p ≠ .selfRefresh) ∧ (∀ n, n < 8 → (t.ib n).gated = true) ∧
      (∀ n, n < 64 → t.stream n = if s.strOpen n then { s.stream n with credit := 4 } else s.stream n) ∧ t.mem.hbm = s.mem.hbm) ∧
    (s.tth.nap = 0 ∨ 4 < s.tth.nap → exec .napStageDone s = .next s) ∧
    (s.tth.nap = 1 → s.drained = false → exec .napStageDone s = .next s) ∧
    (s.tth.nap = 1 → s.drained = true → s.wake = false → ∃ t, exec .napStageDone s = .next t ∧ t.tth.nap = 2 ∧ t.vid.power = 2 ∧
      (∀ x ∈ t.openSteps, x.2.state ≠ .parked)) ∧
    (s.tth.nap = 2 → (∃ x ∈ s.openSteps, x.2.state = .suspending) → exec .napStageDone s = .next s) ∧
    (s.tth.nap = 2 → (∀ x ∈ s.openSteps, x.2.state ≠ .suspending) → s.wake = false →
      exec .napStageDone s = .next { s with tth := { s.tth with nap := 3 } }) ∧
    (s.tth.nap = 3 → s.wake = false → ∃ t, exec .napStageDone s = .next t ∧ t.tth = { s.tth with nap := 4 } ∧ t.mem.splice = [] ∧
      ∀ la, Tbl.get none t.mem.lines la = none) ∧
    (s.tth.nap = 4 → s.wake = false → ∃ t, exec .napStageDone s = .next t ∧ t.power = 2 ∧ t.tth.nap = 0 ∧ t.op = min 9 (t.pw 0x21) ∧
      t.mem.lines = [] ∧ t.mem.splice = [] ∧ t.ibex = [] ∧ t.mem.hbm = s.mem.hbm ∧ t.vid.power = 2) ∧
    (s.tth.nap = 4 → s.wake = true → exec .napStageDone s = .next s.napGate.napExit) ∧
    (1 ≤ s.tth.nap → s.tth.nap ≤ 3 → s.drained = true → (∀ x ∈ s.openSteps, x.2.state ≠ .suspending) → s.wake = true → ∃ u : State,
      exec .napStageDone s = .next u.backToIdle ∧ u.tth = s.tth ∧ (s.tth.nap ≠ 3 → u = s))) ∧
  (∀ (s : State) (o : Origin), s.Inv → s.Reaches o →
    (s.dictGate o 0x1400 0x01 true [2] = none → exec (.nap o) s =
      .next (((s.asked o 0x1400 0x01 [2]).rejectEntry Code.PWR_STATE o 0x1400 0x01 [2]).answered o Code.PWR_STATE)) ∧
    (s.dictGate o 0x1400 0x01 true [1] = none → exec (.run o) s = .next ((s.asked o 0x1400 0x01 [1]).answered o 0))) ∧
  ∀ (s : State) (k : Fn), s.Inv → s.enabled k.val = true → s.frozen = false → s.dmDone k.val = true → s.napOk = true →
    s.dictGate (.fn k) 0x1400 0x01 true [2] = none → ∃ t : State, exec (.nap (.fn k)) s = .next (t.dmResult k.val 0 true) ∧
      t.tth.nap = 1 ∧ t.vid.power = 1 ∧ t.mem = s.mem ∧ t.dict = s.dict

/-- R482, R612, R613, R619. What waits in the queue of commands and the counter of fresh values are the model's own (log entries 1, 3). -/
def Obligations.StandbyAndSupplies : Prop :=
  let inStandby := fun (t : State) => t.power = 3 ∧ t.ibex = [] ∧ t.streams = [] ∧ t.sch = {} ∧ t.mem = {} ∧ t.coil = {} ∧ t.hp = { txBase := sentBytes t.out } ∧ t.acts = {} ∧
    t.vid = {} ∧ t.tth.nap = 0
  (∀ s : State, s.Inv →
    (s.power = 3 ∨ s.start.running = false → exec .vin12Overcurrent s = .next s) ∧
    (s.power ≠ 3 → s.start.running = true → ∃ t, exec .vin12Overcurrent s = .next t ∧ inStandby t ∧ t.tth.byRange = false ∧ t.out = s.out ∧
      (s.start.codes = [] → t.log = s.log) ∧ t.pins = s.pins) ∧
    (∀ mv, s.pins.vin = false → exec (.vin12OutOfRange mv) s = .next s) ∧
    (∀ mv, mv < 2 ^ 64 → s.pins.vin = true → s.power ≠ 3 → s.start.running = true → ∃ t, exec (.vin12OutOfRange mv) s = .next t ∧ inStandby t ∧
      t.tth.byRange = true ∧ t.pins = { s.pins with vin := false, onAux := s.pins.aux } ∧ t.pw 0x26 = mv) ∧
    (∀ b, exec (.auxSwitch b) s = .next { s with pins := { s.pins with aux := b, onAux := b } }) ∧
    (∀ mv, mv < 2 ^ 64 → s.power ≠ 3 ∨ s.tth.byRange = false ∨ s.tth.tripOut = true → ∃ t, exec (.vin12Return mv) s = .next t ∧
      t.pins = { s.pins with vin := true } ∧ t.pw 0x26 = mv ∧ s.EntriesBut t [dkey 0x1400 0x26] ∧ t = { s with dict := t.dict, pins := t.pins, tth := { s.tth with v12 := mv } }) ∧
    (∀ mv, s.power = 3 → s.tth.byRange = true → s.tth.tripOut = false → ∃ t, exec (.vin12Return mv) s = .next t ∧ t.start.running = true ∧
      t.start.cold = true ∧ t.stage = 0 ∧ t.power = 0) ∧
    ∃ t, exec .powerLoss s = .next t ∧ t.out = s.out ++ [.pin "THERMTRIP#" false, .pin "WAKE#" false] ∧
      t.start.slots = s.start.slots ∧ t.start.record = s.start.record ∧
      (∀ i j, entrySurv (dkey i j) % 2 = 0 → t.entry i j = (dictReset (dkey i j)).toNat) ∧
      t = { State.reset with
        pending := s.pending, fresh := t.fresh, out := t.out, hp := { txBase := sentBytes s.out }, pins := { term := s.pins.term }, dict := t.dict, start := t.start }) ∧
  (∀ (s : State) (o : Origin), s.Inv → s.Reaches o →
    (s.dictGate o 0x1400 0x01 true [3] = none → ∃ t : State, exec (.standby o) s = .next (t.answered o 0) ∧ inStandby t ∧
      t.tth.byRange = false ∧ t.out = s.out) ∧
    (s.dictGate o 0x1400 0x01 true [4] = none → exec (.wake o) s =
      .next (((s.asked o 0x1400 0x01 [4]).rejectEntry Code.PWR_STATE o 0x1400 0x01 [4]).answered o Code.PWR_STATE))) ∧
  ∀ s : State, s.power = 3 → s.dictGate .kdp 0x1400 0x01 true [4] = none → exec (.wake .kdp) s =
    .next { s with tth := { s.tth with wakeOut := true }, out := s.out ++ [.pin "WAKE#" true] }

/-- R563 to R568, R571, R575 to R580. A warm start's values are those that survive letter W (R12, Table 17.8). -/
def Obligations.StartsRun : Prop :=
  let began := fun (s t : State) (cold : Bool) (cause : Nat) => t.start.running = true ∧ t.start.halted = false ∧ t.start.cold = cold ∧ t.stage = 0 ∧
    t.st 0x04 = cause ∧ t.power = 0 ∧ t.start.record = s.start.record ∧ t.start.slots = s.start.slots ∧ t.start.mrs = [] ∧ t.ibex = [] ∧
    t.streams = [] ∧ t.sch = {} ∧ t.coil = {} ∧ t.hp = { txBase := sentBytes t.out } ∧ t.vid = {} ∧ t.dm = [] ∧ t.mem.lines = [] ∧ t.mem.splice = []
  let warmed := fun (s t : State) (cause : Nat) => began s t false cause ∧ t.store = {} ∧ (∀ p, p < 32 → Tbl.get .active t.mem.power p = .selfRefresh) ∧
    (s.mem.lines = [] → s.mem.splice = [] → s.mem.queue = [] → t.mem.hbm = s.mem.hbm) ∧
    (∀ i j, entrySurv (dkey i j) / 2 % 2 = 0 → (i, j) ≠ (0x1300, 0x04) → j < 256 → t.entry i j = (dictReset (dkey i j)).toNat)
  let confirmed := fun (r : StartRec) => ({ r with fails := 0, switches := 0, trial := false, lkg := r.active, lkgValid := true } : StartRec)
  let chosen := fun (r : StartRec) (t : State) => (3 ≤ r.fails → 2 ≤ r.switches → t.stage = 14 ∧ t.st 0x03 = 1 ∧ t.start.record = r) ∧
    (r.fails < 3 → t.stage = 3 ∧ t.start.record = { r with fails := r.fails + 1 }) ∧
    (3 ≤ r.fails → r.switches < 2 → r.lkgValid = true → r.lkg ≠ r.active → t.stage = 3 ∧
      t.start.record = { r with fails := 1, switches := r.switches + 1, active := r.lkg, trial := false }) ∧
    (3 ≤ r.fails → r.switches < 2 → r.lkgValid = false ∨ r.lkg = r.active → t.stage = 3 ∧
      t.start.record = { r with fails := 1, switches := r.switches + 1, active := 3 - r.active, trial := true })
  (∀ s : State, s.Inv →
    (s.start.running = true ∨ s.power = 3 → exec .coldStart s = .next s) ∧
    (s.start.running = false → s.power ≠ 3 → ∃ t, exec .coldStart s = .next t ∧ began s t true 0 ∧ t.mem = {} ∧ t.pins.vin = true ∧ t.pins.aux = true ∧
      t.log = s.log ∧ t.out = s.out)) ∧
  (∀ (s : State) (r : StageResult), s.Inv →
    (s.start.running = false ∨ s.start.halted = true ∨ s.power = 3 ∨ 11 ≤ s.stage → exec (.startStageDone r) s = .next s) ∧
    (s.start.running = true → s.start.halted = false → s.power ≠ 3 → ∃ t, exec (.startStageDone r) s = .next t ∧
      (s.stage = 0 → r.ok = false → t = { s with start := { s.start with halted := true } }) ∧
      (s.stage = 0 → r.ok = true → t.stage = 1 ∧ (∃ d, t.mr 0 = digest (s.mr 0 ++ d)) ∧ (∀ k, k ≠ 0 → t.mr k = s.mr k) ∧
        s.EntriesBut t [dkey 0x1300 2] ∧ t = { s with dict := t.dict, start := { s.start with mrs := t.start.mrs } }) ∧
      (s.stage = 1 → let b := majority r.strap0 r.strap1 r.strap2
        t.stage = 2 ∧ t.entry 0x1100 0x03 = b.toNat % 128 ∧ s.EntriesBut t [dkey 0x1300 2, dkey 0x1100 3] ∧
        t = { s with dict := t.dict, start := { s.start with bootSel := b.getLsbD 7 } }) ∧
      (s.stage = 2 → r.ok = false → t.stage = 14 ∧ t.st 0x03 = 1) ∧
      (s.stage = 2 → r.ok = true → s.start.bootSel = true → t.stage = 14 ∧ t.st 0x03 = 2 ∧ t.start.record = s.start.record) ∧
      (s.stage = 2 → r.ok = true → s.start.bootSel = false → chosen s.start.record t ∧ t.st 0x0D = (s.st 0x0D + 1) % 2 ^ 64) ∧
      (∀ kind, s.stage = kind + 2 → kind = 1 ∨ kind = 2 →
        let slot := if kind = 1 then (pairSlots s.start.record.active).1 else (pairSlots s.start.record.active).2
        let img := s.slotBytes slot
        let code := s.imageCode kind img (s.start.cold || Tbl.get false s.start.changed slot || Tbl.get none s.start.kept slot != some (digest img))
        (code = none → t.stage = kind + 3 ∧ Tbl.get 0 t.start.slotState slot = 1 ∧ t.mr kind = digest (s.mr kind ++ digest (imgMessage img)) ∧
          (∀ k, k ≠ kind → t.mr k = s.mr k) ∧ t.start.record = s.start.record ∧ t.entry 0x1000 (5 + kind) = imgF img 8 4 ∧
          t.start.codes = s.start.codes) ∧
        (code ≠ none → chosen { s.start.record with fails := 3 } t)) ∧
      (s.stage = 5 → s.tested s.start.record.active = true → t.stage = 6 ∧ t = { s with dict := t.dict }) ∧
      (s.stage = 5 → s.tested s.start.record.active = false → chosen { s.start.record with fails := 3 } t) ∧
      (s.stage = 6 →
        let kept := Tbl.get none s.start.kept 4 = some (digest Sys2Proof.Config.paramBlock)
        let ok := (r.ok || !s.start.cold && decide kept) && paramMasksOk
        t.stage = 7 ∧ t.regField memBase 0 1 = 1 ∧ t.regField memBase 1 1 = (if ok then 0 else 1) ∧
        t.entry 0x1500 0x0A = (if ok then 0 else 1) ∧
        t.start.codes = s.start.codes ++ (if ok then [] else [(Code.MEM_PARAM_BLOCK, 0)])) ∧
      (s.stage = 7 → t.stage = 8 ∧ t.op = (if s.fuseOk then 9 else 0) ∧ t.tth.rail = t.tth.target ∧ t.tth.rising = none ∧
        t.start.codes = s.start.codes ++ (if s.fuseOk then [] else [(Code.PWR_FUSE, 0)])) ∧
      (s.stage = 8 → (s.start.cold = true → r.ok = false → t.stage = 14 ∧ t.st 0x03 = 3) ∧
        (s.start.cold = false ∨ r.ok = true → t.stage = 9 ∧ t = { s with dict := t.dict })) ∧
      (s.stage = 9 → t.stage = 10 ∧ (s.start.cold = true → t.mem = {}) ∧
        (s.start.cold = false → t.mem = { s.mem with power := [] })) ∧
      (s.stage = 10 → t.stage = 11 ∧ t.start.codes = [] ∧ t.entry 0x1500 0x04 = t.entry 0x1500 0x03 ∧
        t.start.record = (if s.start.record.trial then s.start.record else confirmed s.start.record)))) ∧
  (∀ s : State, s.Inv →
    (s.start.running = false ∨ s.start.halted = true ∨ s.power = 3 ∨ 11 ≤ s.stage → exec .startTimeout s = .next s) ∧
    (s.start.running = true → s.start.halted = false → s.power ≠ 3 → s.stage < 11 → ∃ t, exec .startTimeout s = .next t ∧ warmed s t 5 ∧
      (s.mem.lines = [] → s.mem.splice = [] → s.mem.queue = [] → t.log.head?.map (·.code) = some Code.START_TIMEOUT)) ∧
    ∀ c cause code, (c, cause, code) ∈ [(Instr.oryxWatchdog, 3, Code.START_WATCHDOG), (.oryxUe, 4, Code.START_ORYX_UE)] →
      (s.oryxRuns = false → exec c s = .next s) ∧
      (s.oryxRuns = true → ∃ t, exec c s = .next t ∧ warmed s t cause ∧
        (s.mem.lines = [] → s.mem.splice = [] → s.mem.queue = [] → t.log.head?.map (·.code) = some code))) ∧
  (∀ (s : State) (o : Origin), s.Inv → s.Reaches o →
    let a := fun (v : Byte) => s.asked o 0x1300 1 [v]
    let refused := fun (v : Byte) => Host.Outcome.next (((a v).rejectEntry Code.START_STATE o 0x1300 1 [v]).answered o Code.START_STATE)
    (s.dictGate o 0x1300 1 true [1] = none →
      (s.st 0x23 = 3 → exec (.warm o) s = .next ({ a 1 with start := { s.start with warmDue := true } }.answered o 0)) ∧
      (s.st 0x23 ≠ 3 → ∃ t : State, exec (.warm o) s = .next (t.answered o 0) ∧ warmed s t 2)) ∧
    (s.dictGate o 0x1300 1 true [2] = none →
      (s.start.record.trial = false → exec (.confirm o) s = refused 2) ∧
      (s.start.record.trial = true → ∃ t : State, exec (.confirm o) s = .next (t.answered o 0) ∧ t.start = { s.start with record := confirmed s.start.record } ∧
        t.st 0x05 = s.start.record.active % 2 ^ 64 ∧ t.st 0x07 = 0 ∧ t.st 0x08 = 0 ∧
        (s.st 0x0A ≠ 1 → s.EntriesBut t ([5, 6, 7, 8].map (dkey 0x1300 ·)) ∧ t = { a 2 with dict := t.dict, start := t.start }))) ∧
    (s.dictGate o 0x1300 1 true [3] = none →
      (s.start.record.trial = true → exec (.advance o) s = refused 3) ∧
      (s.start.record.trial = false → ∃ t : State, exec (.advance o) s = .next (t.answered o 0) ∧
        t = { a 3 with dict := t.dict, log := t.log, fresh := t.fresh } ∧
        s.EntriesBut t [dkey 0x1300 0x18, dkey 0x1300 0x19, dkey 0x1300 0x0C, dkey 0x6000 1, dkey 0x6000 3] ∧
        ∀ kind, kind = 1 ∨ kind = 2 →
          let slot := if kind = 1 then (pairSlots s.start.record.active).1 else (pairSlots s.start.record.active).2
          let want := max (s.st (0x17 + kind)) (min 64 (imgF (s.slotBytes slot) 0x10 4))
          s.st (0x17 + kind) ≤ t.st (0x17 + kind) ∧ t.st (0x17 + kind) ≤ want ∧
            (t.st (0x17 + kind) ≠ want → t.entry 0x6000 1 ≠ s.entry 0x6000 1 ∧ ∃ r ∈ t.log, r.code = Code.START_FUSE)))) ∧
  (∀ (s : State) (o : Origin), s.Inv → s.stage = 14 → s.power ≠ 3 → o = .kdp ∨ (o = .fn 0 ∧ s.frozen = false ∧ s.dmDone 0 = true) →
    s.dictGate o 0x1300 1 true [1] = none → s.st 0x23 ≠ 3 → ∃ t : State, exec (.warm o) s = .next (t.answered o 0) ∧ warmed s t 2) ∧
  ∀ s : State, s.Inv →
    (s.stage ≠ 11 ∨ s.power = 3 ∨ s.start.record.trial = false ∨ s.st 0x09 = 0 → exec .confirmTimer s = .next s) ∧
    (s.stage = 11 → s.power ≠ 3 → s.start.record.trial = true → s.st 0x09 ≠ 0 → ∃ t, exec .confirmTimer s = .next t ∧
      t.start = { s.start with record := confirmed s.start.record } ∧ t.st 0x07 = 0)

/-- R573, R581 to R585, R587. -/
def Obligations.UpdatesAndAttestation : Prop :=
  let takes := fun (s : State) (o : Origin) => match o with
    | .kdp => True
    | .fn k => (s.Serving k.val ∨ (s.stage = 14 ∧ k = 0 ∧ s.power ≠ 3 ∧ s.frozen = false)) ∧ s.dmDone k.val = true
  let slotsBut := fun (s t : State) (n : Nat) => ∀ i, i ≠ n → t.slotBytes i = s.slotBytes i
  (∀ (s : State) (o : Origin), s.Inv → takes s o →
    let st := s.st 0x23
    let a := fun (j : Nat) (v : List Byte) => s.asked o 0x1300 j v
    let refused := fun (j : Nat) (v : List Byte) (code : W16) =>
      Host.Outcome.next (((a j v).rejectEntry code o 0x1300 j v).answered o code)
    (∀ v, s.dictGate o 0x1300 0x20 true v = none →
      let kind := recField v 0 1
      let len := recField v 4 4
      let bad := (kind ≠ 1 ∧ kind ≠ 2) ∨ recField v 1 3 ≠ 0 ∨ len < 33889 ∨ slotSize kind < len
      (s.served = false → exec (.updBegin o v) s = refused 0x20 v Code.START_STATE) ∧
      (s.served = true → s.start.record.trial = true ∨ (1 ≤ st ∧ st ≤ 3) → exec (.updBegin o v) s = refused 0x20 v Code.START_UPD_STATE) ∧
      (s.served = true → s.start.record.trial = false → st = 0 ∨ 3 < st →
        (bad → exec (.updBegin o v) s = refused 0x20 v Code.START_DICT_RANGE) ∧
        (¬ bad → ∃ t : State, exec (.updBegin o v) s = .next (t.answered o 0) ∧ t.st 0x23 = 1 ∧ t.st 0x24 = 0 ∧ t.st 0x27 = 0 ∧
          t.start = { s.start with updKind := kind, updSlot := s.target kind, updLen := len, updData := [] }))) ∧
    (∀ v, s.dictGate o 0x1300 0x21 true v = none →
      let keep := min 4096 (s.start.updLen - s.st 0x24)
      let seq := recField v 0 4 ≠ s.st 0x24 ∨ ∃ b ∈ v.drop (4 + keep), b ≠ 0
      (st ≠ 1 → exec (.updChunk o v) s = refused 0x21 v Code.START_UPD_STATE) ∧
      (st = 1 → seq → exec (.updChunk o v) s = refused 0x21 v Code.START_UPD_SEQ) ∧
      (st = 1 → ¬ seq → ∃ t : State, exec (.updChunk o v) s = .next (t.answered o 0) ∧ t.st 0x24 = (s.st 0x24 + keep) % 2 ^ 64 ∧
        t.start.updData = s.start.updData ++ (v.drop 4).take keep ∧ t.start.record = s.start.record ∧
        (s.stage ≠ 14 → t.start.slots = s.start.slots) ∧
        (s.stage = 14 → slotsBut s t s.start.updSlot ∧ t.slotBytes s.start.updSlot = t.start.updData))) ∧
    (∀ v : Byte, s.dictGate o 0x1300 0x22 true [v] = none →
      (st ≠ 1 → exec (.updEnd o v) s = refused 0x22 [v] Code.START_UPD_STATE) ∧
      (st = 1 → v ≠ 1 → exec (.updEnd o v) s = refused 0x22 [v] Code.START_DICT_RANGE) ∧
      (st = 1 → v = 1 → s.st 0x24 < s.start.updLen → exec (.updEnd o v) s = refused 0x22 [v] Code.START_UPD_SEQ) ∧
      (st = 1 → v = 1 → s.start.updLen ≤ s.st 0x24 → ∃ t : State, exec (.updEnd o v) s = .next (t.answered o 0) ∧
        t.start.record = s.start.record ∧
        (∀ c, s.imageCode s.start.updKind s.start.updData true = some c → t.st 0x23 = 5 ∧ t.st 0x27 = c.1.toNat ∧ t.start = s.start) ∧
        (s.imageCode s.start.updKind s.start.updData true = none →
          t.mr 5 = digest (s.mr 5 ++ digest s.start.updData) ∧ (∀ k, k ≠ 5 → t.mr k = s.mr k) ∧ t.st 0x23 = (if s.stage = 14 then 4 else 3) ∧
          slotsBut s t s.start.updSlot ∧
          t.slotBytes s.start.updSlot = (if s.stage = 14 then s.start.updData else []) ∧
          Tbl.get 0 t.start.slotState s.start.updSlot = (if s.stage = 14 then 1 else 0)))) ∧
    (∀ v : Byte, s.dictGate o 0x1300 0x25 true [v] = none →
      let p := pairSlots s.start.record.active
      let pair := if s.start.updKind = 1 then s.start.updSlot + 2 * (p.2 - 2) else p.1 + 2 * (s.start.updSlot - 2)
      (st ≠ 4 → exec (.updActivate o v) s = refused 0x25 [v] Code.START_UPD_STATE) ∧
      (st = 4 → v ≠ 1 → exec (.updActivate o v) s = refused 0x25 [v] Code.START_DICT_RANGE) ∧
      (st = 4 → v = 1 → s.tested pair = false → exec (.updActivate o v) s = refused 0x25 [v] Code.START_PAIR_UNTESTED) ∧
      (st = 4 → v = 1 → s.tested pair = true → s.start.updSlot < 4 → ∃ t : State, exec (.updActivate o v) s = .next (t.answered o 0) ∧
        t.start.record = { s.start.record with active := pair, trial := true, fails := 0, switches := 0 } ∧
        t.st 0x05 = pair + 128 ∧ t.st 0x07 = 0 ∧ t.st 0x08 = 0 ∧ t.start.slots = s.start.slots ∧
        t.mr 5 = digest (s.mr 5 ++ digest [BitVec.ofNat 8 (pair + 128), BitVec.ofNat 8 (t.st 0x06)]) ∧ (∀ k, k ≠ 5 → t.mr k = s.mr k) ∧
        s.EntriesBut t ([5, 6, 7, 8].map (dkey 0x1300 ·)) ∧ t = { a 0x25 [v] with dict := t.dict, start := t.start })) ∧
    (∀ v : Byte, s.dictGate o 0x1300 0x26 true [v] = none →
      (st = 3 → exec (.updAbort o v) s = refused 0x26 [v] Code.START_UPD_STATE) ∧
      (st ≠ 3 → v ≠ 1 → exec (.updAbort o v) s = refused 0x26 [v] Code.START_DICT_RANGE) ∧
      (st ≠ 3 → v = 1 → ∃ t : State, exec (.updAbort o v) s = .next (t.answered o 0) ∧ t.st 0x23 = 0 ∧ t.start = s.start)) ∧
    (∀ v, s.dictGate o 0x1300 0x38 true v = none →
      let k := recField v 0 1
      (k ≠ 6 → k ≠ 7 → exec (.extend o v) s = refused 0x38 v Code.START_EXTEND) ∧
      (k = 6 ∨ k = 7 → ∃ t : State, exec (.extend o v) s = .next (t.answered o 0) ∧ t.mr k = digest (s.mr k ++ v.drop 1) ∧
        (∀ l, l ≠ k → t.mr l = s.mr l) ∧ t = { a 0x38 v with start := { s.start with mrs := t.start.mrs } })) ∧
    ∀ v : Byte, s.dictGate o 0x1300 0x41 true [v] = none →
      (s.st 0x42 = 1 → exec (.attReq o v) s = refused 0x41 [v] Code.START_ATT_BUSY) ∧
      (s.st 0x42 ≠ 1 → s.stage ≠ 11 ∨ s.start.pk = none → exec (.attReq o v) s = refused 0x41 [v] Code.START_STATE) ∧
      (s.st 0x42 ≠ 1 → s.stage = 11 → s.start.pk ≠ none → v ≠ 1 → exec (.attReq o v) s = refused 0x41 [v] Code.START_DICT_RANGE) ∧
      (s.st 0x42 ≠ 1 → s.stage = 11 → s.start.pk ≠ none → v = 1 → ∃ t : State, exec (.attReq o v) s = .next (t.answered o 0) ∧
        t.st 0x42 = 1 ∧ t.start = { s.start with reports := s.start.reports + 1, body := s.reportBody (s.start.reports + 1) } ∧
        s.EntriesBut t [dkey 0x1300 0x42] ∧ t = { a 0x41 [v] with dict := t.dict, start := t.start })) ∧
  ∀ s : State, s.Inv →
    (∀ ok, s.st 0x23 ≠ 3 → exec (.updProgramDone ok) s = .next s) ∧
    (s.st 0x23 = 3 → s.start.warmDue = false →
      (∃ t, exec (.updProgramDone true) s = .next t ∧ t.st 0x23 = 4 ∧ slotsBut s t s.start.updSlot ∧
        t.slotBytes s.start.updSlot = s.start.updData ∧ Tbl.get 0 t.start.slotState s.start.updSlot = 1 ∧
        t.start.record = s.start.record) ∧
      ∃ t, exec (.updProgramDone false) s = .next t ∧ t.st 0x23 = 5 ∧ t.st 0x27 = Code.START_FLASH.toNat ∧ t.start = s.start) ∧
    (∀ ok, s.st 0x23 = 3 → s.start.warmDue = true → ∃ t, exec (.updProgramDone ok) s = .next t ∧ t.stage = 0 ∧ t.st 0x04 = 2 ∧ t.start.cold = false ∧
      t.start.running = true ∧ t.start.record = s.start.record ∧ slotsBut s t s.start.updSlot) ∧
    (s.st 0x42 ≠ 1 → exec .attSignDone s = .next s) ∧
    (s.st 0x42 = 1 → ∃ t sig, exec .attSignDone s = .next t ∧ t.st 0x42 = 2 ∧ sig.length = 49856 ∧ t.start = { s.start with report := s.start.body ++ sig } ∧
      s.EntriesBut t [dkey 0x1300 0x42] ∧ t = { s with dict := t.dict, start := t.start }) ∧
    (s.stage ≠ 11 ∨ s.start.pk ≠ none → exec .devicePkDerived s = .next s) ∧
    (s.stage = 11 → s.start.pk = none → ∃ root : List Byte, root.length = 32 ∧
      exec .devicePkDerived s = .next { s with start := { s.start with pk := some (deviceSeeds.drop 64 ++ root) } })

/-- R492 to R503. The scheduler's microsecond counter comes with a BAR0 write as an operand. -/
def Obligations.HostAccesses : Prop :=
  let shut := fun (s : State) => s.stage ≠ 11 ∨ s.power = 3 ∨ s.frozen = true
  let drained := fun (u t : State) (n j : Nat) => ((u.stream n).hold = [] ∨ u.ringFree n = 0 → t = u) ∧ (t.stream n).hold = (u.stream n).hold.drop j ∧
    ((t.stream n).hold ≠ [] → t.ringFree n = 0) ∧ u.StreamsBut t n ∧ t.dict = u.dict ∧ t.mem = u.mem
  let timed := fun (s : State) (now : Nat) => { s with sch := { s.sch with now := max s.sch.now now } }
  (∀ (s : State) (fn : Fn) (n : StreamId) (off size len now : Nat) (v : W64) (w : W32) (reg : Fin 3) (bs : List Byte) (p e : Bool), s.Inv → shut s →
    (fn ≠ 0 ∨ (off / 8 * 8 ≠ hpBase + 8 ∧ ¬ (dmBase ≤ off ∧ off < dmBase + 0x20000)) → exec (.registerWrite fn off size v now) s = .next s) ∧
    (∀ c ∈ [Instr.dpWindowWrite fn off bs p, .dpStreamWrite fn bs e p, .crConfigWrite fn n reg v, .crHeadWrite fn n w], exec c s = .next s) ∧
    ∀ c ∈ [Instr.dpWindowRead fn off len, .dpStreamRead fn len e], s.enabled fn.val = true →
      (s.power = 3 → exec c s = .next s) ∧
      (s.power ≠ 3 → s.frozen = true → exec c s = .next (s.send (.cpl fn.val .ok (List.replicate len 0xFF)))) ∧
      (s.power ≠ 3 → s.frozen = false → s.stage = 14 → exec c s = .next (s.send (.cpl fn.val .ok (List.replicate len 0)))) ∧
      (s.power ≠ 3 → s.frozen = false → s.stage ≠ 14 → exec c s = .next s)) ∧
  (∀ (s : State) (fn : Fn) (n : StreamId) (off size len now : Nat) (v : W64) (w : W32) (reg : Fin 3) (bs : List Byte) (p e : Bool),
    s.enabled fn.val = false → ∀ c ∈ [Instr.registerWrite fn off size v now, .dpWindowWrite fn off bs p, .dpStreamWrite fn bs e p,
      .crConfigWrite fn n reg v, .crHeadWrite fn n w, .dpWindowRead fn off len, .dpStreamRead fn len e], exec c s = .next s) ∧
  (∀ (s0 : State) (fn : Fn) (off size now : Nat) (v : W64), s0.Inv → s0.Serving fn.val →
    let s := s0.received size
    let k := fn.val
    let u := timed s now
    (¬ (k = 0 ∧ dmBase ≤ off ∧ off < dmBase + 0x20000) →
      ((size ≠ 4 ∧ size ≠ 8) ∨ off % size ≠ 0 → exec (.registerWrite fn off size v now) s0 = .next (s.hpLog Code.HP_ACCESS k 9 k off))) ∧
    (size = 4 ∨ size = 8 → off % size = 0 →
      (k ≠ 0 → vfOffset k off = none → exec (.registerWrite fn off size v now) s0 = .next s) ∧
      (k = 0 → off < 0x100 → exec (.registerWrite fn off size v now) s0 = .next u) ∧
      (∀ (key base align : Nat), (key, base, align) ∈ [(dpBase k, if k = 0 then dpBase 0 else 8, 64), (dpPtr k, if k = 0 then dpPtr 0 else 0x10, 4)] →
        off / 8 * 8 = base →
        let x := (regVal off size v).merge (s.reg key).toNat
        (x % align ≠ 0 → exec (.registerWrite fn off size v now) s0 = .next (u.hpLog Code.HP_CFG_RANGE k 9 k x)) ∧
        (x % align = 0 → ∃ t, exec (.registerWrite fn off size v now) s0 = .next t ∧ t.reg key = BitVec.ofNat 64 x ∧ s.RegsBut t [key] ∧
          t = { u with regs := t.regs })) ∧
      (∀ j : Fn, k = 0 → j ≠ 0 → off = dpBase j.val → size = 8 →
        exec (.registerWrite fn off size v now) s0 = .next (u.hpLog Code.HP_NOT_OWNER 0 9 j.val v.toNat)) ∧
      (∀ n : IbexId, k = 0 → off ∈ [hpBase + 0x10, memBase + 0x80, tthBase + 0x200, preBase + 0x68, schBase + 0x80, coilBase + 0x80,
          ibexReg n.val 1 0x10, ibexReg n.val 1 0x18, ibexReg n.val 1 0x20, ibexReg n.val 1 0x28, ibexReg n.val 2 0x48] → size = 8 →
        ∃ t, exec (.registerWrite fn off size v now) s0 = .next t ∧ t.reg off = (if v.getLsbD 63 then 0 else s.reg off) ∧ s.RegsBut t [off] ∧
          t = { u with regs := t.regs }))) ∧
  (∀ (s : State) (v : W64) (now : Nat), s.Inv → s.frozen = false → s.power ≠ 3 → s.stage = 14 → s.dmDone 0 = true → ∃ t,
    exec (.registerWrite 0 (dmBase + 8) 8 v now) s = .next t ∧ t.reg (dmReg 0 8) = BitVec.ofNat 64 (v.toNat % 2 ^ 17) ∧ s.RegsBut t [dmReg 0 8] ∧
    t = { timed (s.received 8) now with regs := t.regs }) ∧
  (∀ (s : State) (k a n : Nat), s.dpOk k a n = true →
    (0 < n → s.addrOk a = true ∧ s.addrOk (a + n - 1) = true ∧ a / 2 ^ 35 = (a + n - 1) / 2 ^ 35) ∧ (k ≠ 0 → ∀ i, i < n → ∃ c, c < 1024 ∧ s.ctx c 3 = k ∧
    (s.ctxState c = 2 ∨ s.ctxState c = 3) ∧ ((s.ctx c 7 ≤ a + i ∧ a + i < s.ctx c 7 + s.ctx c 6) ∨
      ∃ p b, s.bufHolding (a + i) = some (p, b) ∧ (s.buf p b).owner = some (0x100 + c)))) ∧
  (∀ (s : State) (k a n : Nat), 0 < n → s.memRead a n = none → ∃ cs : List (CplStatus × List Byte),
    s.splitRead k a n = { s with out := s.out ++ cs.map fun c => .cpl k c.1 c.2 } ∧ cs.length = (a + n - 1) / 64 - a / 64 + 1 ∧
    ∀ i, i < cs.length → cs[i]? =
      (let lo := max a ((a / 64 + i) * 64)
       match s.memRead lo (min (a + n) ((a / 64 + i + 1) * 64) - lo) with | some x => some (.ok, x) | none => some (.poisoned, []))) ∧
  (∀ (s : State) (fn : Fn) (off len : Nat) (bs : List Byte) (e : Bool), s.Inv → s.Serving fn.val →
    let k := fn.val
    let b := s.received bs.length
    let win := (s.reg (dpBase k)).toNat + off
    let ptr := (s.reg (dpPtr k)).toNat
    let poison := ((b.count (hpBase + 0x40) 1).aerNote k fun a => { a with poisoned := true }).hpLog Code.HP_POISON_RX k 9 k 0
    let moved := fun (t : State) (n : Nat) => t.setReg (dpPtr k) (s.reg (dpPtr k) + BitVec.ofNat 64 n)
    let aligned := fun (n : Nat) => e = true ∧ n % 4 = 0 ∧ ptr % 4 = 0
    let abort := fun (code : W16) (a : Nat) => ((s.hpLog code k 9 k a).aerNote k fun x => { x with abort := true }).send (.cpl k .abort [])
    let answer := fun (a n : Nat) => match s.memRead a n with | some x => s.send (.cpl k .ok x) | none => s.splitRead k a n
    (∀ p, 0xF00000 < off + bs.length → exec (.dpWindowWrite fn off bs p) s = .next b) ∧
    (off + bs.length ≤ 0xF00000 →
      exec (.dpWindowWrite fn off bs true) s = .next poison ∧
      (s.dpOk k win bs.length = false → exec (.dpWindowWrite fn off bs false) s = .next (b.hpLog Code.HP_DP_RANGE k 9 k win)) ∧
      (s.dpOk k win bs.length = true → exec (.dpWindowWrite fn off bs false) s = .next (b.memPut win bs))) ∧
    (0xF00000 < off + len → exec (.dpWindowRead fn off len) s = .next s) ∧
    (off + len ≤ 0xF00000 →
      (s.dpOk k win len = false → exec (.dpWindowRead fn off len) s = .next (abort Code.HP_DP_RANGE win)) ∧
      (s.dpOk k win len = true → exec (.dpWindowRead fn off len) s = .next (answer win len))) ∧
    exec (.dpStreamWrite fn bs e true) s = .next poison ∧
    (¬ aligned bs.length → exec (.dpStreamWrite fn bs e false) s = .next (b.hpLog Code.HP_DP_ALIGN k 9 k ptr)) ∧
    (aligned bs.length → (s.dpOk k ptr bs.length = false → exec (.dpStreamWrite fn bs e false) s = .next (b.hpLog Code.HP_DP_RANGE k 9 k ptr)) ∧
      (s.dpOk k ptr bs.length = true → exec (.dpStreamWrite fn bs e false) s =
        .next ((b.memPut ptr bs).setReg (dpPtr k) ((b.memPut ptr bs).reg (dpPtr k) + BitVec.ofNat 64 bs.length)))) ∧
    (¬ aligned len → exec (.dpStreamRead fn len e) s = .next (abort Code.HP_DP_ALIGN ptr)) ∧
    (aligned len → (s.dpOk k ptr len = false → exec (.dpStreamRead fn len e) s = .next (abort Code.HP_DP_RANGE ptr)) ∧
      (s.dpOk k ptr len = true → exec (.dpStreamRead fn len e) s = .next (moved (answer ptr len) len)))) ∧
  (∀ (s0 : State) (fn : Fn) (n : StreamId) (reg : Fin 3) (v : W64), s0.Inv → s0.Serving fn.val →
    let s := s0.received 8
    let x := v.toNat
    let key := crReg n.val ([0, 8, 0x20].getD reg.val 0)
    let fits := (reg = 0 → x % 64 = 0) ∧ (reg = 1 → 6 ≤ field x 4 0 ∧ field x 4 0 ≤ 16 ∧ 1 ≤ field x 23 16) ∧ (reg = 2 → x % 8 = 0)
    let stop := fun (code : W16) => exec (.crConfigWrite fn n reg v) s0 = .next (s.hpLog code fn.val 1 n.val x)
    (s.strFn n.val ≠ fn.val → stop Code.HP_NOT_OWNER) ∧
    (s.strFn n.val = fn.val → s.strOpen n.val = true → stop Code.HP_RING_STATE) ∧
    (s.strFn n.val = fn.val → s.strOpen n.val = false → ¬ fits → stop Code.HP_RING_RANGE) ∧
    (s.strFn n.val = fn.val → s.strOpen n.val = false → fits → ∃ z t j, exec (.crConfigWrite fn n reg v) s0 = .next z ∧ drained t z n.val j ∧
      (reg ≠ 1 → t.reg key = v) ∧ (reg = 1 → field (t.reg key).toNat 4 0 = field x 4 0 ∧ field (t.reg key).toNat 12 8 = field x 12 8 ∧
        field (t.reg key).toNat 23 16 = field x 23 16 ∧ field (t.reg key).toNat 48 32 = field x 48 32) ∧
      (reg = 0 → t.reg (crReg n.val 0x10) = 0 ∧ t.reg (crReg n.val 0x18) = 0 ∧ s.RegsBut t [key, crReg n.val 0x10, crReg n.val 0x18]) ∧
      (reg ≠ 0 → s.RegsBut t [key] ∧ t.streams = s.streams) ∧ (reg = 0 → t.stream n.val = { s.stream n.val with seq := 0 } ∧ s.StreamsBut t n.val) ∧
      t = { s with regs := t.regs, streams := t.streams })) ∧
  (∀ (s0 : State) (fn : Fn) (n : StreamId) (v : W32), s0.Inv → s0.Serving fn.val →
    let s := s0.received 4
    let x := v.toNat
    let old := (s.reg (crReg n.val 0x10)).toNat
    let tail := (s.reg (crReg n.val 0x18)).toNat
    let d := fun (a b : Nat) => (a + 2 ^ 32 - b) % 2 ^ 32
    let bad := d tail old < d x old ∨ 2 ^ s.regField (crReg n.val 8) 0 5 < d tail x
    let u := s.setReg (crReg n.val 0x10) (BitVec.ofNat 64 x)
    (s.strFn n.val ≠ fn.val → exec (.crHeadWrite fn n v) s0 = .next (s.hpLog Code.HP_NOT_OWNER fn.val 1 n.val x)) ∧
    (s.strFn n.val = fn.val → bad → exec (.crHeadWrite fn n v) s0 = .next (s.hpLog Code.HP_CR_HEAD fn.val 1 n.val x)) ∧
    (s.strFn n.val = fn.val → ¬ bad → ∃ t j, exec (.crHeadWrite fn n v) s0 = .next t ∧ t.reg (crReg n.val 0x10) = BitVec.ofNat 64 x ∧ drained u t n.val j)) ∧
  (∀ (s : State) (n : StreamId), s.Inv →
    let k := s.strFn n.val
    let idle := (s.stream n.val).pend = 0 ∨ s.regField (crReg n.val 8) 32 16 = 0 ∨ s.regField (crReg n.val 8) 48 1 = 0
    (idle → exec (.coalTimer n) s = .next s) ∧
    (¬ idle → ∃ t, exec (.coalTimer n) s = .next t ∧ (t.stream n.val).pend = 0 ∧ s.StreamsBut t n.val ∧
      t = { s with out := t.out, hp := t.hp, streams := t.streams } ∧ (s.hp.waits = [] → s.FnsBut t k) ∧
      (s.canIssue k = true → (s.fn k).msixEn = true → (s.fn k).masked.getLsbD (s.regField (crReg n.val 8) 8 5) = false → s.hp.waits = [] →
        t.out = s.out ++ [.msix k (s.regField (crReg n.val 8) 8 5)]))) ∧
  ∀ (s : State) (fn : Fn) (vec : Fin 32), s.Inv →
    let k := fn.val
    let bar := s.stage = 11 ∧ s.frozen = false
    let mask := fun (v : Nat) => (s.fn k).masked.getLsbD v && !(decide bar && v == vec.val)
    let due := (List.range 32).filter fun v => (s.fn k).pend.getLsbD v && !mask v
    (s.takesConfig k = false → exec (.msixUnmask fn vec) s = .next s) ∧
    (s.takesConfig k = true → ∃ t, exec (.msixUnmask fn vec) s = .next t ∧ (t.fn k).msixEn = true ∧
      (∀ v, v < 32 → (t.fn k).masked.getLsbD v = mask v) ∧ t = { s with wake := t.wake, out := t.out, hp := t.hp } ∧
      (s.canIssue k = false → t.out = s.out ∧ (t.fn k).pend = (s.fn k).pend) ∧
      (s.canIssue k = true → (∀ v, v < 32 → (t.fn k).pend.getLsbD v = ((s.fn k).pend.getLsbD v && mask v)) ∧
        (s.hp.waits = [] → t.out = s.out ++ due.map fun v => .msix k v)) ∧
      (s.hp.waits = [] → s.FnsBut t k))

/-- R505 to R514. -/
def Obligations.FunctionsAndTranslations : Prop :=
  (∀ (s : State) (fn k : Fn) (v : W64) (e : Bool), s.Inv →
    (s.stage ≠ 11 ∨ s.power = 3 ∨ s.frozen = true ∨ s.enabled fn.val = false → exec (.hpFnWrite fn k v e) s = .next s) ∧
    (s.Serving fn.val →
      let b := s.received 8
      let on := (s.fn k.val).atsEn || e
      let u := if e = true ∧ fn = k then b.modFn k.val (fun f => { f with atsEn := true }) else b
      let stop := fun (code : W16) => exec (.hpFnWrite fn k v e) s = .next (u.hpLog code fn.val 9 k.val v.toNat)
      (fn ≠ k → stop Code.HP_NOT_OWNER) ∧ (fn = k → v.toNat % 4 = 3 → stop Code.HP_CFG_RANGE) ∧
      (fn = k → v.toNat % 4 ∈ [1, 2] → on = false → stop Code.HP_ATS_MODE) ∧
      (fn = k → v.toNat % 4 ≠ 3 → v.toNat % 4 = 0 ∨ on = true → ∃ t, exec (.hpFnWrite fn k v e) s = .next t ∧ t.atsMode k.val = v.toNat % 4 ∧
        t.regField (fnCtl k.val) 8 5 = field v.toNat 12 8 ∧ t.fn k.val = { s.fn k.val with atsEn := on } ∧ s.FnsBut t k.val ∧
        s.RegsBut t [fnCtl k.val] ∧ t = { b with regs := t.regs, hp := t.hp }))) ∧
  (∀ (s : State) (fn : Fn), s.Inv →
    let k := fn.val
    (∀ x, (s.fn k).asked = none → exec (.atsTranslation fn x) s = .next s) ∧
    (∀ o page lg host write a needs, (s.fn k).asked = some o → o.target = some (a, needs) → s.atsMode k = 1 →
      12 ≤ lg → lg ≤ 30 → a / 2 ^ lg = page.toNat / 2 ^ lg → needs = false ∨ write = true → ∃ u : State,
      exec (.atsTranslation fn (.granted page lg host write)) s = .next u.serve ∧ u.fn k = { s.fn k with asked := none } ∧ s.FnsBut u k ∧
      u.hp.xcache = (⟨k, page.toNat, lg, host.toNat, write⟩ :: s.hp.xcache).take 4096 ∧ u.hp.waits = s.hp.waits ∧ u = { s with hp := u.hp } ∧
      ∀ w ws, s.hp.waits = w :: ws → w.out = o → o.fnOf = k → s.canIssue k = true → o.reads = none ∨ s.hp.flying.length < 512 → ∃ rest,
        u.serve.out = s.out ++ o.retarget (host.toNat / 2 ^ lg * 2 ^ lg + a % 2 ^ lg) :: rest ∧ List.Sublist u.serve.hp.waits ws) ∧
    ∀ o x w a needs, (s.fn k).asked = some o → s.hp.waits = [w] → w.out = o → o.target = some (a, needs) → (∃ b, x = .refused b) ∨
        (s.xlate k a needs = none ∧ ∃ page lg host write, x = .granted page lg host write ∧ ((needs = true ∧ write = false) ∨ lg < 12 ∨ 30 < lg)) →
      (∀ f b a bs, o = .write f b a bs → ∃ t, exec (.atsTranslation fn x) s = .next t ∧ t.hp.waits = [] ∧
        (t.log.head?.map (·.code)) = some Code.HP_XLATE ∧ (∀ w ∈ t.out, w ∈ s.out ∨ ∃ v, w = .msix k v) ∧
        (t.reg (hpBase + 0x48) = if bs.length = 64 then s.reg (hpBase + 0x48) + 1 else s.reg (hpBase + 0x48)) ∧
        t.mem = s.mem ∧ t.streams = s.streams ∧ t.sch = s.sch) ∧
      (∀ f b a n (q : StreamId), o = .read f b a n (.chunk q) → (s.stream q.val).chunk.asked = true → ∃ t, exec (.atsTranslation fn x) s = .next t ∧
        t.str q.val 0x1D = Code.VID_CHUNK_FETCH.toNat ∧ (t.stream q.val).chunk.asked = false ∧ (t.stream q.val).discont = true ∧
        s.StreamsBut t q.val ∧ t.log = s.log) ∧
      ∀ f b a n (q : QueueId), o = .read f b a n (.desc q) → ∃ t, exec (.atsTranslation fn x) s = .next t ∧ t.streams = s.streams ∧
        ((s.queue q.val).fetching = true → (s.queue q.val).fn = k → (t.queue q.val).fetching = false ∧ s.QueuesBut t q.val) ∧
        ((s.queue q.val).fetching = false ∨ (s.queue q.val).fn ≠ k → 0 < (s.queue q.val).stale → s.QueuesBut t q.val ∧
          t.queue q.val = { s.queue q.val with stale := (s.queue q.val).stale - 1 } ∧
          t.entry 0x3400 0x14 = (s.entry 0x3400 0x14 + 1) % 2 ^ 64)) ∧
  (∀ (s : State) (fn : Fn) (page : W64) (lg : Nat), s.Inv →
    (s.power = 3 ∨ s.linkIsUp = false ∨ s.enabled fn.val = false → exec (.atsInvalidate fn page lg) s = .next s) ∧
    (s.power ≠ 3 → s.linkIsUp = true → s.enabled fn.val = true →
      let lo := page.toNat / 2 ^ lg * 2 ^ lg
      let apart := fun (e : XEntry) => e.fn ≠ fn.val ∨ lo + 2 ^ lg ≤ e.page / 2 ^ e.log2 * 2 ^ e.log2 ∨
        e.page / 2 ^ e.log2 * 2 ^ e.log2 + 2 ^ e.log2 ≤ lo
      ∃ t, exec (.atsInvalidate fn page lg) s = .next t ∧ (∀ e, e ∈ t.hp.xcache ↔ e ∈ s.hp.xcache ∧ apart e) ∧
      t.reg (hpBase + 0x50) = s.reg (hpBase + 0x50) + 1 ∧ s.RegsBut t [hpBase + 0x50] ∧ t.hp.fns = s.hp.fns ∧
      t = { s with regs := t.regs, out := t.out, hp := t.hp } ∧ ((∀ i ∈ s.hp.invals, i.reads ≠ []) →
        (s.frozen = false → (∀ f ∈ s.hp.flying, ∀ e, f.entry = some e → apart e) →
          t.out = s.out ++ [.invDone fn.val page] ∧ t.hp.invals = s.hp.invals) ∧
        (s.frozen = true ∨ (∃ f ∈ s.hp.flying, ∃ e, f.entry = some e ∧ ¬ apart e) → t.out = s.out ∧ ∃ i : Inval,
          t.hp.invals = s.hp.invals ++ [i] ∧ i.fn = fn.val ∧ i.page = page ∧
          ∀ f, f ∈ i.reads ↔ f ∈ s.hp.flying ∧ ∃ e, f.entry = some e ∧ ¬ apart e)))) ∧
  (∀ (s : State) (fn : Fn), s.Inv →
    let k := fn.val
    (s.takesConfig k = false → exec (.atsEnableClear fn) s = .next s) ∧
    (s.takesConfig k = true → ∃ u : State, exec (.atsEnableClear fn) s = .next u.serve ∧ u.fn k = { s.fn k with atsEn := false, asked := none } ∧
      u.atsMode k = 0 ∧ u.regField (fnCtl k) 8 5 = s.regField (fnCtl k) 8 5 ∧ (∀ e, e ∈ u.hp.xcache ↔ e ∈ s.hp.xcache ∧ e.fn ≠ k) ∧
      u.hp.waits = s.hp.waits ∧ s.FnsBut u k ∧ s.RegsBut u [fnCtl k] ∧ u = { s with regs := u.regs, hp := u.hp } ∧
      ((∀ w ∈ s.hp.waits, w.out.fnOf = k) →
        (s.canIssue k = true → s.hp.flying.length + s.hp.waits.length ≤ 512 → u.serve.out = s.out ++ s.hp.waits.map (·.out) ∧ u.serve.hp.waits = []) ∧
        (s.canIssue k = false → u.serve = u)))) ∧
  (∀ (s : State) (r : DevRead), s.Inv →
    (s.flight r = none → exec (.cplTimeout r) s = .next s) ∧
    ∀ f, s.flight r = some f → ∃ t, exec (.cplTimeout r) s = .next t ∧ t.reg (hpBase + 0x38) = s.reg (hpBase + 0x38) + 1 ∧
      (t.fn f.fn).aer.timeout = true ∧ (∃ e ∈ t.log, e.code = Code.HP_CPL_TIMEOUT ∧ e.obj = f.fn) ∧ t.mem = s.mem ∧
      (s.hp.waits = [] → t.hp.flying = s.hp.flying.erase f) ∧ (f.live = false → t.streams = s.streams ∧ t.sch = s.sch) ∧
      (f.live = true → (∀ n : StreamId, r = .chunk n → t.sch = s.sch ∧ ((s.stream n.val).chunk.asked = true →
        t.str n.val 0x1D = Code.VID_CHUNK_FETCH.toNat ∧ (t.stream n.val).chunk.asked = false ∧
        (t.stream n.val).discont = true ∧ s.StreamsBut t n.val)) ∧
      ∀ q : QueueId, r = .desc q → t.streams = s.streams ∧ s.QueuesBut t q.val ∧
        ((s.queue q.val).stale = 0 → (t.queue q.val).fetching = false) ∧
        (0 < (s.queue q.val).stale → t.queue q.val = { s.queue q.val with stale := (s.queue q.val).stale - 1 } ∧
          t.entry 0x3400 0x14 = (s.entry 0x3400 0x14 + 1) % 2 ^ 64))) ∧
  ∀ (s : State) (fn : Fn), s.Inv →
    let k := fn.val
    let mine := s.hp.waits.filter fun w => w.out.fnOf == k
    let alone := ∀ w ∈ s.hp.waits, w.out.fnOf = k
    (s.takesConfig k = false → ∀ c ∈ [Instr.bmeClear fn, .bmeSet fn, .d3hotEntry fn, .d0Return fn], exec c s = .next s) ∧
    (s.takesConfig k = true →
      (∀ c on d3, (c, on, d3) ∈ [(Instr.bmeClear fn, false, (s.fn k).d3hot), (.d3hotEntry fn, (s.fn k).bme, true)] → ∃ t, exec c s = .next t ∧
        (t.fn k).bme = on ∧ (t.fn k).d3hot = d3 ∧ t.canIssue k = false ∧
        (∀ w ∈ t.hp.waits, w.out.fnOf = k → w ∈ s.hp.waits ∧ ∃ f b a bs, w.out = .write f b a bs) ∧
        (∀ w ∈ mine, w.wb = .no → (∃ f b a bs, w.out = .write f b a bs) → w ∈ t.hp.waits) ∧
        (∀ v, v < 32 → (t.fn k).pend.getLsbD v = ((s.fn k).pend.getLsbD v || mine.any fun w => match w.out with | .msix _ x => x == v | _ => false)) ∧
        (mine = [] → t = { s with hp := t.hp } ∧ t.hp.waits = s.hp.waits ∧ t.fn k = { s.fn k with bme := on, d3hot := d3 }) ∧
        (∀ w ∈ mine, ∀ r, w.out.reads = some r → (∀ q : StreamId, r = .chunk q → (t.stream q.val).chunk.asked = false) ∧
          ∀ q : QueueId, r = .desc q → (s.queue q.val).fetching = true → (s.queue q.val).fn = k → (t.queue q.val).fetching = false ∧
            (mine = [w] → (t.queue q.val).head = (s.queue q.val).head - 1)) ∧
        (alone → s.FnsBut t k ∧ t.out = s.out) ∧
        t = { s with out := t.out, hp := t.hp, streams := t.streams, sch := { s.sch with queues := t.sch.queues } }) ∧
      ∀ c on d3, (c, on, d3) ∈ [(Instr.bmeSet fn, true, (s.fn k).d3hot), (.d0Return fn, (s.fn k).bme, false)] →
        let u := s.modFn k fun f => { f with bme := on, d3hot := d3 }
        ∃ t, exec c s = .next t ∧ (t.fn k).bme = on ∧ (t.fn k).d3hot = d3 ∧
          (alone → (∀ n ∈ (s.fn k).dueIn, s.strFn n = k) → s.FnsBut t k) ∧ t.dict = s.dict ∧ t.mem = s.mem ∧ t.log = s.log ∧
          (u.canIssue k = false → t = u) ∧
          (u.canIssue k = true → (t.fn k).dueIn = [] ∧ (t.fn k).dueQ = [] ∧
            (∀ v, v < 32 → (t.fn k).pend.getLsbD v = true → (t.fn k).msixEn = false ∨ (t.fn k).masked.getLsbD v = true) ∧
            (∀ n, n < 64 → s.strFn n = k → (t.stream n).hold ≠ [] → t.ringFree n = 0) ∧
            ∀ n, n < 64 → ∃ j, (t.stream n).hold = (s.stream n).hold.drop j))

/-- R490, R515 to R521, R567, R624. An error of the port as a whole in the AER status of every function is the model's choice (PRESUMED,
log entry 73). `away` is a read that waits to leave, or has left and is wanted. -/
def Obligations.ContainmentAndResets : Prop :=
  let away := fun (s : State) (r : DevRead) => (∃ f ∈ s.hp.flying, f.read = r ∧ f.live = true) ∨
    ∃ w ∈ s.hp.waits, w.out.reads = some r ∧ w.out.fnOf < 64 ∧ ∀ q : QueueId, r = .desc q → w.out.fnOf = (s.queue q.val).fn
  let frozeBy := fun (s t : State) (cause : Nat) => t.frozen = true ∧ t.regField hpBase 10 4 = cause ∧
    t.reg (hpBase + 0x30) = s.reg (hpBase + 0x30) + 1 ∧ t.out = s.out ∧ t.mem = s.mem ∧ t.pins.perst = s.pins.perst ∧
    t.hp.flying = [] ∧ (∀ w ∈ t.hp.waits, w.out.fnOf < 64 → w.out.reads = none) ∧
    (∀ n : StreamId, (s.stream n.val).chunk.asked = false ∨ away s (.chunk n) → (t.stream n.val).chunk.asked = false) ∧
    (∀ q : QueueId, (s.queue q.val).stale = 0 → (s.queue q.val).fetching = false ∨ away s (.desc q) → (t.queue q.val).fetching = false) ∧
    (s.hp.flying = [] → t.log.head?.map (·.code) = some Code.HP_FROZEN)
  let lost := fun (s : State) (c : Instr) (u : State) =>
    (s.linkIsUp = false → exec c s = .next u) ∧
    (s.linkIsUp = true → ∃ t, exec c s = .next t ∧ t.linkIsUp = false ∧ t.regField hpBase 1 8 = 0 ∧ t.pins = u.pins ∧
      (s.frozen = false → frozeBy u t 1) ∧
      (s.frozen = true → t.frozen = true ∧ t.regField hpBase 10 4 = s.regField hpBase 10 4 ∧ s.RegsBut t [hpBase] ∧ t = { u with regs := t.regs }))
  let released := fun (s t : State) => t.frozen = false ∧ t.regField hpBase 10 4 = 0 ∧ t.linkIsUp = true ∧ t.log = s.log ∧ t.mem = s.mem ∧ t.dict = s.dict ∧
    ∀ k, k < 64 → s.enabled k = true →
      (t.reg (hpBase + 0x800 + 8 * k) = if (s.reg (hpBase + 0x800 + 8 * k)).getLsbD 63 then s.reg (hpBase + 0x800 + 8 * k)
        else BitVec.ofNat 64 (Code.HP_FROZEN.toNat + 2 ^ 63)) ∧
      ((s.fn k).bme = true → (s.fn k).d3hot = false → (t.fn k).dueIn = [] ∧ (t.fn k).dueQ = [] ∧ ∀ n, n < 64 → s.strFn n = k → (t.stream n).hold ≠ [] → t.ringFree n = 0)
  let cleared := fun (s t : State) (letter : Nat) (port : Bool) => t.sch = {} ∧ t.dm = [] ∧ t.hp.xcache = [] ∧
    (∀ n, n < 64 → t.strState n = 0) ∧ (∀ c, c < 1024 → t.ctxState c = 0) ∧
    (∀ key, (port = true ∨ key ≠ hpBase) → regSurv key / letter % 2 = 0 ∨ regSurv key / 8 % 2 = 0 → t.reg key = regReset key) ∧
    (port = false → t.reg hpBase = s.reg hpBase) ∧
    (∀ i j, i ≠ 0x1400 ∨ j ∉ [0x02, 0x20, 0x21, 0x23] → j < 256 → entrySurv (dkey i j) / letter % 2 = 0 ∨ entrySurv (dkey i j) / 8 % 2 = 0 →
      t.entry i j = (dictReset (dkey i j)).toNat) ∧
    (∀ j ∈ [0x20, 0x21, 0x23], t.pw j = s.pw j) ∧ (s.power ≠ 1 → t.power = s.power)
  (∀ s : State, s.Inv →
    lost s .linkDown s ∧
    (∀ c cause, (c, cause) ∈ [(Instr.hpInternalError, 2), (.fatalTlp, 3)] →
      (s.power = 3 ∨ s.linkIsUp = false ∨ s.frozen = true → exec c s = .next s) ∧
      (s.power ≠ 3 → s.linkIsUp = true → s.frozen = false → ∃ t, exec c s = .next t ∧ frozeBy s t cause ∧
        ∀ k, k < 64 → s.enabled k = true → (cause = 2 → (t.fn k).aer.internal = true) ∧ (cause = 3 → (t.fn k).aer.fatal = true))) ∧
    (∀ fn : Fn, (s.stage ≠ 11 ∨ s.power = 3 ∨ s.frozen = true ∨ s.enabled fn.val = false → exec (.freeze fn) s = .next s) ∧
      (s.Serving fn.val → (fn ≠ 0 → exec (.freeze fn) s = .next (s.received 4)) ∧
        (fn = 0 → ∃ t, exec (.freeze fn) s = .next t ∧ frozeBy (s.received 4) t 4))) ∧
    ∀ (speed : BitVec 3) (width : BitVec 5),
      let trains := s.start.running = true ∧ s.start.halted = false ∧ s.power ≠ 3 ∧ s.stage ≠ 0 ∧ s.pins.perst = false ∧ s.tapOwns = false ∧
        1 ≤ speed.toNat ∧ speed.toNat ≤ s.entry 0x1200 0x08 ∧ width.toNat ∈ [1, 2, 4, 8, 16]
      (¬ trains → exec (.linkUp speed width) s = .next s) ∧
      (trains → ∃ t, exec (.linkUp speed width) s = .next t ∧ t.linkIsUp = true ∧ t.regField hpBase 1 3 = speed.toNat ∧
        t.regField hpBase 4 5 = width.toNat ∧ t.frozen = s.frozen ∧ s.RegsBut t [hpBase] ∧ t = { s with regs := t.regs })) ∧
  (∀ s : State, s.Inv →
    (∀ k : Fn, k ≠ 0 ∨ s.stage ≠ 11 ∨ s.power = 3 → exec (.release (.fn k)) s = .next s) ∧
    (s.stage = 11 → s.power ≠ 3 →
      let b := s.received 4
      (s.frozen = false → exec (.release (.fn 0)) s = .next b) ∧
      (s.frozen = true → s.linkIsUp = false → exec (.release (.fn 0)) s = .next (b.hpLog Code.HP_CONTAIN_LINK 0 9 0 0)) ∧
      (s.frozen = true → s.linkIsUp = true → ∃ t, exec (.release (.fn 0)) s = .next t ∧ released s t)) ∧
    (s.Reaches .kdp → s.dictGate .kdp 0x1200 0x06 true [1] = none →
      (s.frozen = false → exec (.release .kdp) s = .next s) ∧
      (s.frozen = true → s.linkIsUp = false → exec (.release .kdp) s = .next (s.rejectEntry Code.HP_CONTAIN_LINK .kdp 0x1200 0x06 [1])) ∧
      (s.frozen = true → s.linkIsUp = true → ∃ t, exec (.release .kdp) s = .next t ∧ released s t))) ∧
  (∀ (s : State) (fn : Fn), s.Inv →
    let k := fn.val
    (s.stage < 11 ∨ s.power = 3 ∨ s.enabled k = false → exec (.flr fn) s = .next s) ∧
    (11 ≤ s.stage → s.power ≠ 3 → fn = 0 → ∃ t, exec (.flr fn) s = .next t ∧ cleared s t 8 false ∧ t.fn 0 = { flrBusy := true } ∧
      ∀ j, j ≠ 0 → t.fn j = {}) ∧
    (11 ≤ s.stage → s.power ≠ 3 → fn ≠ 0 → s.enabled k = true → ∃ u : State, exec (.flr fn) s = .next u.schedule ∧
      u.fn k = { vf := true, flrBusy := true, aer := (s.fn k).aer, cplTime := (s.fn k).cplTime } ∧ (∀ e ∈ u.hp.xcache, e.fn ≠ k) ∧
      (∀ n, n < 64 → s.strFn n = k → u.strState n = 0) ∧ (∀ c, c < 1024 → s.ctx c 3 = k → u.ctxState c = 0) ∧
      (∀ q, (u.queue q).bound = true → (u.queue q).fn ≠ k) ∧ (∀ key, flrRegs k (s.fnStreams k) key = true → u.reg key = regReset key) ∧
      ∀ i, i < 65536 → Tbl.get 0 u.dm (k * 65536 + i) = 0) ∧
    exec (.flrDone fn) s = .next (s.modFn k fun f => { f with flrBusy := false })) ∧
  (∀ s : State, s.Inv →
    let held := { s with pins := { s.pins with perst := true } }
    let portOff := fun (s t : State) => (∀ key, t.reg key = if hpBase ≤ key ∧ key < hpBase + 0x100000 then regReset key else s.reg key) ∧
      t = { s with regs := t.regs, hp := { txBase := sentBytes s.out }, dm := [] }
    (s.power = 3 → exec .perst s = .next { held with tth := { s.tth with perstSeen := true } }) ∧
    (s.power ≠ 3 → 11 ≤ s.stage → ∃ t, exec .perst s = .next t ∧ cleared s t 4 true ∧ t.hp = { txBase := sentBytes t.out } ∧ t.pins.perst = true) ∧
    (s.power ≠ 3 → s.stage < 11 → ∃ t, exec .perst s = .next t ∧ portOff held t) ∧
    (s.power = 3 ∨ s.linkIsUp = false → exec .hotReset s = .next s) ∧
    (s.power ≠ 3 → s.linkIsUp = true → 11 ≤ s.stage → ∃ t, exec .hotReset s = .next t ∧ cleared s t 8 true ∧ t.hp = { txBase := sentBytes t.out }) ∧
    (s.power ≠ 3 → s.linkIsUp = true → s.stage < 11 → ∃ t, exec .hotReset s = .next t ∧ portOff s t) ∧
    ∃ t, exec .perstDeassert s = .next t ∧ t.pins.perst = false ∧ t.out = s.out ++ (if s.tth.wakeOut then [.pin "WAKE#" false] else []) ∧
      (s.pins.perst = true → s.power = 3 → s.tth.perstSeen = true → s.pins.vin = true → s.tth.tripOut = false →
        t.start.running = true ∧ t.start.cold = true ∧ t.stage = 0 ∧ t.power = 0 ∧ t.st 0x04 = 1) ∧
      (s.pins.perst = false ∨ s.power ≠ 3 ∨ s.tth.perstSeen = false ∨ s.pins.vin = false ∨ s.tth.tripOut = true →
        t = { s with pins := t.pins, out := t.out, tth := { s.tth with wakeOut := false } })) ∧
  ∀ s : State, s.Inv →
    (∀ enable num, (s.stage ≠ 11 ∨ s.power = 3 → exec (.vfEnableChange enable num) s = .next s) ∧
      (s.stage = 11 → s.power ≠ 3 →
        let last := if enable then min num 63 else 0
        ∃ t, exec (.vfEnableChange enable num) s = .next t ∧ (∀ k, 1 ≤ k → k < 64 → t.enabled k = decide (k ≤ last)) ∧
          ((∀ k, last < k → k < 64 → (s.fn k).vf = false) → t = { s with hp := t.hp } ∧
            ∀ k, 1 ≤ k → k ≤ last → t.fn k = { s.fn k with vf := true }))) ∧
    (∀ i : TapInstr, let u := { s with pins := { s.pins with tap := i } }
      (i ∈ [TapInstr.bypass, .idcode, .samplePreload] → exec (.tapInstruction i) s = .next u) ∧
      (i ∉ [TapInstr.bypass, .idcode, .samplePreload] → lost s (.tapInstruction i) u)) ∧
    exec .testLogicReset s = .next { s with pins := { s.pins with tap := .idcode } }

/-- R542 to R553, R562. -/
def Obligations.NodeServesAndSpeaks : Prop :=
  let tells := fun (s t : State) (ident : Nat) (bs : List Byte) => t.out = s.out ++ [.can ident (decide (s.node.timing.getD 0 0 < s.node.timing.getD 1 0)) (decide (1000 < s.node.timing.getD 1 0)) (padFrame bs)] ∧
    t.entry 0x1100 0x11 = (s.entry 0x1100 0x11 + 1) % 2 ^ 64
  let replies := fun (s t : State) (bs : List Byte) => tells s t (0x280 + s.nodeId) bs
  let finished := fun (w : State) (bs : List Byte) =>
    let x := { w with node := { w.node with prev := w.node.prev.map fun p => { p with resp := bs } } }
    if w.netOn then x.respond bs else x
  let closes := fun (s t : State) (idx sub : Nat) (tg : Bool) (code : W16) => t.node = { s.node with xfer := none } ∧
    replies s t (respHead 5 tg idx sub code.toNat 0) ∧ t.log.head?.map (·.code) = some code
  (∀ (s : State) (f : KdpFrame), s.Inv →
    let u := s.countEntry 0x1100 0x10 1
    let v := { u with node := { u.node with prev := none } }
    let i := f.index
    let j := f.sub
    let naps := s.power = 2 ∧ alwaysOn i = false
    let held := fun (w : State) (write : Bool) (bs head : List Byte) =>
      ({ w.wakeUp with
        store := { w.store with napped := w.store.napped ++ [⟨.kdp, i, j, write, bs⟩] }
        node := { w.node with waiting := some head } } : State)
    let seen := if f.op = 2 ∨ f.op = 3 ∨ f.op = 4 then f.len else 0
    (∀ c op, (c, op) ∈ [(Instr.kdpRead f, 1), (.readSeg f, 2), (.kdpWrite f, 3), (.writeSeg f, 4), (.abort f, 5), (.discover f, 6)] →
      (s.tapOwns = true ∨ s.node.mode = 4 → exec c s = .next s) ∧
      (s.tapOwns = false → s.node.mode ≠ 4 →
        (f.broadcast = true → op ≠ 6 → exec c s = .next (u.countEntry 0x1100 0x12 1)) ∧
        (f.broadcast = false ∨ op = 6 → s.netOn = false ∨ s.node.listening = true → exec c s = .next u) ∧
        (f.broadcast = false ∨ op = 6 → s.netOn = true → s.node.listening = false → f.ok op = false → ∃ t, exec c s = .next t ∧
          replies s t (respHead f.op f.toggle i j Code.DICT_KDP_FRAME.toNat seen) ∧ t.log.head?.map (·.code) = some Code.DICT_KDP_FRAME ∧
          t.node = (if op = 2 ∨ op = 4 then s.node else v.node)))) ∧
    (s.netOn = true → s.node.listening = false → f.broadcast = false →
      (∀ c op, (c, op) ∈ [(Instr.kdpRead f, 1), (.kdpWrite f, 3)] → f.ok op = true → s.kdpBusy = true → ∃ t, exec c s = .next t ∧
        replies s t (respHead f.op f.toggle i j Code.DICT_KDP_BUSY.toNat seen) ∧ t.node = v.node ∧ t.mem = s.mem ∧ t.streams = s.streams) ∧
      (f.ok 1 = true → s.kdpBusy = false → naps → exec (.kdpRead f) s = .next (held v false [] [])) ∧
      (f.ok 1 = true → s.kdpBusy = false → ¬ naps →
        (∀ w c, v.dictGet .kdp i j = (w, .error c) → exec (.kdpRead f) s = .next (w.respond (respHead 1 false i j c.toNat 0))) ∧
        ∀ w bs, v.dictGet .kdp i j = (w, .ok bs) → ∃ t, exec (.kdpRead f) s = .next t ∧
          replies w t (respHead 1 false i j 0 bs.length ++ bs.take 56) ∧ t = { w with out := t.out, dict := t.dict, node := t.node } ∧
          t.node = { w.node with xfer := if bs.length ≤ 56 then w.node.xfer else some ⟨false, i, j, bs.length, bs, 56, true, none, []⟩ }) ∧
      (f.ok 3 = true → s.kdpBusy = false →
        let head := respHead 3 false i j 0 f.len
        (56 < f.len → ∃ t, exec (.kdpWrite f) s = .next t ∧ replies s t head ∧ t = { s with out := t.out, dict := t.dict, node := t.node } ∧
          t.node = { s.node with prev := none, xfer := some ⟨true, i, j, f.len, (f.data.drop 8).take 56, 56, true, none, []⟩ }) ∧
        (f.len ≤ 56 → naps → exec (.kdpWrite f) s = .next (held v true ((f.data.drop 8).take f.len) head)) ∧
        (f.len ≤ 56 → ¬ naps → ∀ w r, v.dictPut .kdp i j ((f.data.drop 8).take f.len) = (w, r) →
          (∀ code, r = some code → exec (.kdpWrite f) s = .next (finished w (patch head 4 (bytesLE 2 code.toNat)))) ∧
          (r = none → exec (.kdpWrite f) s = .next { w with node := { w.node with waiting := some head } }))) ∧
      (∀ c op w, (c, op, w) ∈ [(Instr.readSeg f, 2, false), (.writeSeg f, 4, true)] → f.ok op = true →
        (s.node.xfer = none → (∀ x, s.node.prev = some x → x.repeats f w = false) → ∃ t, exec c s = .next t ∧
          closes s t i j f.toggle Code.DICT_KDP_SEQ) ∧
        (∀ x, s.node.xfer = none → s.node.prev = some x → x.write = w → x.idx = i → x.sub = j → x.last = some (f.toggle, f.len) →
          exec c s = .next (if s.node.waiting.isSome then u else u.respond x.resp)) ∧
        ∀ x, s.node.xfer = some x →
          let same := x.write = w ∧ x.idx = i ∧ x.sub = j
          (¬ same ∨ (x.last ≠ some (f.toggle, f.len) ∧ (f.toggle ≠ x.toggle ∨ f.len ≠ x.done)) → ∃ t, exec c s = .next t ∧
            closes s t x.idx x.sub f.toggle Code.DICT_KDP_SEQ) ∧
          (same → x.last = some (f.toggle, f.len) → exec c s = .next (u.respond x.resp)) ∧
          (same → x.last ≠ some (f.toggle, f.len) → f.toggle = x.toggle → f.len = x.done →
            (w = false → ∃ t, exec c s = .next t ∧ replies s t (respHead 2 f.toggle i j 0 x.done ++ (x.data.drop x.done).take 56) ∧
              (x.len ≤ x.done + ((x.data.drop x.done).take 56).length → ∃ y, t.node = { s.node with xfer := none, prev := some y } ∧
                y.write = false ∧ y.idx = i ∧ y.sub = j ∧ y.last = some (f.toggle, f.len) ∧
                y.resp = respHead 2 f.toggle i j 0 x.done ++ (x.data.drop x.done).take 56) ∧
              (x.done + ((x.data.drop x.done).take 56).length < x.len → ∃ y, t.node = { s.node with xfer := some y } ∧
                y.done = x.done + ((x.data.drop x.done).take 56).length ∧ y.toggle = !x.toggle ∧ y.data = x.data ∧ y.len = x.len ∧
                y.last = some (f.toggle, f.len)) ∧
              t = { s with out := t.out, dict := t.dict, node := t.node }) ∧
            (w = true → f.data.length < 8 + min 56 (x.len - x.done) → ∃ t, exec c s = .next t ∧ t.node = s.node ∧
              replies s t (respHead f.op f.toggle i j Code.DICT_KDP_FRAME.toNat f.len)) ∧
            (w = true → 8 + min 56 (x.len - x.done) ≤ f.data.length →
              let n := min 56 (x.len - x.done)
              let data := x.data ++ (f.data.drop 8).take n
              (x.done + n < x.len → ∃ t y, exec c s = .next t ∧ replies s t (respHead 4 f.toggle i j 0 x.done) ∧
                t.node = { s.node with xfer := some y } ∧ y.data = data ∧ y.done = x.done + n ∧ y.toggle = !x.toggle ∧ y.len = x.len ∧
                t = { s with out := t.out, dict := t.dict, node := t.node }) ∧
              let head := respHead 4 f.toggle i j 0 x.done
              let y := { x with data := data, done := x.done + n, toggle := !x.toggle, last := some (f.toggle, f.len), resp := head }
              (x.len ≤ x.done + n → naps →
                exec c s = .next (held { u with node := { u.node with xfer := none, prev := some y } } true data head)) ∧
              (x.len ≤ x.done + n → ¬ naps → ∀ z r,
                ({ u with node := { u.node with xfer := none, prev := some y } } : State).dictPut .kdp i j data = (z, r) →
                (∀ code, r = some code → exec c s = .next (finished z (patch (respHead 4 f.toggle i j 0 x.done) 4 (bytesLE 2 code.toNat)))) ∧
                (r = none → exec c s = .next { z with node := { z.node with waiting := some (respHead 4 f.toggle i j 0 x.done) } }))))) ∧
      (f.ok 5 = true → (s.node.xfer = none → exec (.abort f) s = .next v) ∧
        ∀ x, s.node.xfer = some x → ∃ t, exec (.abort f) s = .next t ∧ t.node = { s.node with xfer := none, prev := none } ∧ t.out = s.out ∧
          t.log.head?.map (·.code) = some Code.DICT_KDP_ABORT)) ∧
    (s.netOn = true → s.node.listening = false → f.ok 6 = true → ∃ t, exec (.discover f) s = .next t ∧
      replies s t (respHead 6 f.toggle 0 0 0 0 ++ bytesLE 8 (s.entry 0x1000 0x05) ++ bytesLE 1 (s.entry 0x1000 0x03) ++
        bytesLE 1 (s.entry 0x1100 0x0D) ++ bytesLE 4 (s.entry 0x1000 0x06)) ∧
        t = { s with out := t.out, dict := t.dict, node := { s.node with prev := none } })) ∧
  ∀ s : State, s.Inv →
    (s.node.xfer = none → exec .kdpTimeout s = .next s) ∧
    (∀ x, s.node.xfer = some x → ∃ t, exec .kdpTimeout s = .next t ∧ t.node = { s.node with xfer := none } ∧
      t.entry 0x1100 0x13 = (s.entry 0x1100 0x13 + 1) % 2 ^ 64 ∧ t.log.head?.map (·.code) = some Code.DICT_KDP_TIMEOUT ∧
      (s.netOn = true → closes s t x.idx x.sub false Code.DICT_KDP_TIMEOUT) ∧ (s.netOn = false → t.out = s.out)) ∧
    exec .badFrame s = .next (if s.tapOwns then s else s.countEntry 0x1100 0x12 1) ∧
    (s.netOn = false → exec .kdpDupId s = .next s) ∧
    (s.netOn = true → ∃ t, exec .kdpDupId s = .next t ∧ t.node = { s.node with mode := 2, listening := false, xfer := none, prev := none } ∧ t.netOn = false ∧
      t.entry 0x1100 0x0D = 2 ∧ t.log.head?.map (·.code) = some Code.DICT_KDP_DUP_ID ∧ t.out = s.out) ∧
    exec .claimListenEnd s = .next { s with node := { s.node with listening := false } } ∧
    (s.netOn = false ∨ s.entry 0x1100 0x0A = 0 → exec .heartbeat s = .next s) ∧
    (s.netOn = true → s.entry 0x1100 0x0A ≠ 0 → ∃ t, exec .heartbeat s = .next t ∧ t.node = { s.node with heartbeats := s.node.heartbeats + 1 } ∧
      tells s t (0x300 + s.nodeId) (bytesLE 1 1 ++ bytesLE 1 s.power ++ bytesLE 2 0 ++ bytesLE 4 (s.node.heartbeats + 1)) ∧
      t = { s with node := t.node, out := t.out, dict := t.dict }) ∧
    (s.log = [] → exec .errorEvent s = .next s) ∧
    (∀ r rs, s.log = r :: rs → s.netOn = false ∨ s.entry 0x1100 0x0B = 0 ∨ r.seq ≤ s.node.announced → exec .errorEvent s = .next s) ∧
    (∀ r rs, s.log = r :: rs → s.netOn = true → s.entry 0x1100 0x0B ≠ 0 → s.node.announced < r.seq → ∃ t, exec .errorEvent s = .next t ∧
      t.node = { s.node with announced := r.seq } ∧
      tells s t (0x300 + s.nodeId) (bytesLE 1 2 ++ bytesLE 1 s.power ++ bytesLE 2 r.code.toNat ++ bytesLE 4 r.seq) ∧
      t = { s with node := t.node, out := t.out, dict := t.dict }) ∧
    (∀ tec re : W16, (s.node.mode = 0 → exec (.canBusError tec re) s = .next s) ∧
      (s.node.mode ≠ 0 → ∃ t, exec (.canBusError tec re) s = .next t ∧ t.entry 0x1100 0x15 = tec.toNat ∧ t.entry 0x1100 0x16 = re.toNat ∧
        t.entry 0x1100 0x0D = (if s.node.mode = 1 ∧ (128 ≤ tec.toNat ∨ 128 ≤ re.toNat) then 3 else s.node.mode % 2 ^ 64) ∧
        s.EntriesBut t ([0x0D, 0x15, 0x16].map (dkey 0x1100 ·)) ∧ t = { s with dict := t.dict })) ∧
    (s.node.mode ≠ 1 → exec .busOff s = .next s) ∧
    (s.node.mode = 1 → ∃ t, exec .busOff s = .next t ∧
      t.node = { s.node with mode := 4, listening := false, xfer := none, prev := none, waiting := none } ∧ t.out = s.out ∧
      t.entry 0x1100 0x14 = (s.entry 0x1100 0x14 + 1) % 2 ^ 64 ∧ t.entry 0x1100 0x0D = 4 ∧
      t.log.head?.map (·.code) = some Code.DICT_KDP_BUS_OFF) ∧
    (s.node.mode ≠ 4 → exec .busOffRecovery s = .next s) ∧
    (s.node.mode = 4 → ∃ t, exec .busOffRecovery s = .next t ∧ t.node = { s.node with mode := 1, listening := true } ∧
      t.entry 0x1100 0x15 = 0 ∧ t.entry 0x1100 0x16 = 0 ∧ t.entry 0x1100 0x0D = 1 ∧
      (s.tapOwns = true → t.out = s.out) ∧
      (s.tapOwns = false → tells s t (0x300 + s.nodeId) (bytesLE 1 3 ++ bytesLE 1 s.power ++ bytesLE 2 0 ++ bytesLE 4 0)) ∧
      t = { s with node := t.node, out := t.out, dict := t.dict }) ∧
    ∀ high, exec (.canTermChange high) s = .next { s with pins := { s.pins with term := high } }
end

