-- ==== Sys2Proof/Laws/Bits.lean ====
section
/-! SUPPORT. Laws of bit fields of numbers: a field after a write of it, and the fields beside it. -/

namespace Sys2Proof.Machine

theorem putField_eq (v lo w x : Nat) :
    putField v lo w x = v / 2 ^ (lo + w) * 2 ^ (lo + w) + (x % 2 ^ w * 2 ^ lo + v % 2 ^ lo) := by
  unfold putField
  have e1 : v = v / 2 ^ lo * 2 ^ lo + v % 2 ^ lo := (Nat.div_add_mod' _ _).symm
  have e2 : v / 2 ^ lo = v / 2 ^ lo / 2 ^ w * 2 ^ w + v / 2 ^ lo % 2 ^ w := (Nat.div_add_mod' _ _).symm
  have e3 : v / 2 ^ lo / 2 ^ w = v / 2 ^ (lo + w) := by rw [Nat.div_div_eq_div_mul, Nat.pow_add]
  rw [e3] at e2
  have e4 : v / 2 ^ (lo + w) * 2 ^ (lo + w) = v / 2 ^ (lo + w) * 2 ^ w * 2 ^ lo := by rw [Nat.pow_add]; ring
  have e5 : v = v / 2 ^ (lo + w) * 2 ^ (lo + w) + v / 2 ^ lo % 2 ^ w * 2 ^ lo + v % 2 ^ lo := by
    rw [e4]; conv_lhs => rw [e1, e2]
    ring
  omega

theorem putField_low (v lo w x : Nat) : x % 2 ^ w * 2 ^ lo + v % 2 ^ lo < 2 ^ (lo + w) := by
  have h1 : x % 2 ^ w + 1 ≤ 2 ^ w := Nat.mod_lt _ (Nat.two_pow_pos w)
  have h2 : v % 2 ^ lo < 2 ^ lo := Nat.mod_lt _ (Nat.two_pow_pos lo)
  have h3 : (x % 2 ^ w + 1) * 2 ^ lo ≤ 2 ^ w * 2 ^ lo := Nat.mul_le_mul_right _ h1
  rw [Nat.pow_add, Nat.mul_comm (2 ^ lo)]
  rw [Nat.add_mul] at h3
  omega

theorem putField_lt {v lo w x n : Nat} (hv : v < 2 ^ n) (hw : lo + w ≤ n) : putField v lo w x < 2 ^ n := by
  rw [putField_eq]
  have h1 := putField_low v lo w x
  have h2 : v / 2 ^ (lo + w) < 2 ^ (n - (lo + w)) := by
    apply Nat.div_lt_of_lt_mul
    rw [← Nat.pow_add]; rwa [show lo + w + (n - (lo + w)) = n by omega]
  have h3 : (v / 2 ^ (lo + w) + 1) * 2 ^ (lo + w) ≤ 2 ^ (n - (lo + w)) * 2 ^ (lo + w) := Nat.mul_le_mul_right _ h2
  rw [← Nat.pow_add, show n - (lo + w) + (lo + w) = n by omega, Nat.add_mul] at h3
  omega

theorem field_putField (v lo w x : Nat) : putField v lo w x / 2 ^ lo % 2 ^ w = x % 2 ^ w := by
  rw [putField_eq]
  have e : v / 2 ^ (lo + w) * 2 ^ (lo + w) + (x % 2 ^ w * 2 ^ lo + v % 2 ^ lo) =
      v % 2 ^ lo + 2 ^ lo * (x % 2 ^ w + 2 ^ w * (v / 2 ^ (lo + w))) := by rw [Nat.pow_add]; ring
  rw [e, Nat.add_mul_div_left _ _ (Nat.two_pow_pos lo), Nat.div_eq_of_lt (Nat.mod_lt _ (Nat.two_pow_pos lo)), Nat.zero_add,
    Nat.add_mul_mod_self_left, Nat.mod_mod]

theorem field_putField_above (v lo w x lo' w' : Nat) (h : lo + w ≤ lo') :
    putField v lo w x / 2 ^ lo' % 2 ^ w' = v / 2 ^ lo' % 2 ^ w' := by
  rw [putField_eq]
  obtain ⟨d, rfl⟩ := Nat.exists_eq_add_of_le h
  congr 1
  rw [Nat.pow_add _ (lo + w) d, ← Nat.div_div_eq_div_mul, ← Nat.div_div_eq_div_mul, Nat.add_comm (_ * _), Nat.add_mul_div_right _ _ (Nat.two_pow_pos _),
    Nat.div_eq_of_lt (putField_low v lo w x), Nat.zero_add]

theorem field_putField_below (v lo w x lo' w' : Nat) (h : lo' + w' ≤ lo) :
    putField v lo w x / 2 ^ lo' % 2 ^ w' = v / 2 ^ lo' % 2 ^ w' := by
  have key : ∀ u, u % 2 ^ lo / 2 ^ lo' % 2 ^ w' = u / 2 ^ lo' % 2 ^ w' := by
    intro u
    obtain ⟨d, rfl⟩ := Nat.exists_eq_add_of_le h
    rw [Nat.pow_add, Nat.pow_add, Nat.mul_assoc, Nat.mod_mul_right_div_self, Nat.mod_mul_right_mod]
  rw [← key, ← key v, putField_eq]
  congr 2
  rw [Nat.pow_add, show v / (2 ^ lo * 2 ^ w) * (2 ^ lo * 2 ^ w) + (x % 2 ^ w * 2 ^ lo + v % 2 ^ lo) =
    v % 2 ^ lo + 2 ^ lo * (v / (2 ^ lo * 2 ^ w) * 2 ^ w + x % 2 ^ w) by ring, Nat.add_mul_mod_self_left, Nat.mod_mod]

end Sys2Proof.Machine
end

