-- ==== Sys2Proof/Laws/Table.lean ====
section
/-! SUPPORT. Laws of sparse tables: a read after a write, and the canonical form, which every operation keeps. -/

namespace Sys2Proof.Machine

variable {α : Type} [DecidableEq α]

theorem Tbl.canon_tail {d : Nat → α} {k : Nat} {v : α} {t : Tbl α} (h : Tbl.canon d ((k, v) :: t) = true) :
    Tbl.canon d t = true := by
  cases t with
  | nil => rfl
  | cons p t => simp only [Tbl.canon, Bool.and_eq_true] at h; exact h.2

theorem Tbl.canon_head {d : Nat → α} {k : Nat} {v : α} {t : Tbl α} (h : Tbl.canon d ((k, v) :: t) = true) : v ≠ d k := by
  cases t with
  | nil => simpa [Tbl.canon] using h
  | cons p t => simp only [Tbl.canon, Bool.and_eq_true, decide_eq_true_eq] at h; exact h.1.1

theorem Tbl.canon_lt {d : Nat → α} {k : Nat} {v : α} {t : Tbl α} (h : Tbl.canon d ((k, v) :: t) = true) :
    ∀ p ∈ t, k < p.1 := by
  induction t generalizing k v with
  | nil => intro p hp; cases hp
  | cons q t ih =>
    have hk : k < q.1 := by simp only [Tbl.canon, Bool.and_eq_true, decide_eq_true_eq] at h; exact h.1.2
    intro p hp
    rcases List.mem_cons.1 hp with rfl | hp
    · exact hk
    · exact Nat.lt_trans hk (ih (Tbl.canon_tail h) p hp)

theorem Tbl.canon_cons {d : Nat → α} {k : Nat} {v : α} {t : Tbl α} (hv : v ≠ d k) (hlt : ∀ p ∈ t, k < p.1)
    (ht : Tbl.canon d t = true) : Tbl.canon d ((k, v) :: t) = true := by
  cases t with
  | nil => simp [Tbl.canon, hv]
  | cons q t =>
    have := hlt q (List.mem_cons_self ..)
    simp only [Tbl.canon, Bool.and_eq_true, decide_eq_true_eq]
    exact ⟨⟨hv, this⟩, ht⟩

theorem Tbl.mem_set {d : α} {t : Tbl α} {i : Nat} {v : α} {p : Nat × α} (h : p ∈ Tbl.set d t i v) : p = (i, v) ∨ p ∈ t := by
  induction t with
  | nil =>
    simp only [Tbl.set] at h
    split at h
    · cases h
    · simp at h; exact .inl h
  | cons q t ih =>
    obtain ⟨k, w⟩ := q
    simp only [Tbl.set] at h
    split at h
    · split at h
      · exact .inr h
      · rcases List.mem_cons.1 h with rfl | h
        · exact .inl rfl
        · exact .inr h
    · split at h
      · split at h
        · exact .inr (List.mem_cons_of_mem _ h)
        · rcases List.mem_cons.1 h with rfl | h
          · exact .inl rfl
          · exact .inr (List.mem_cons_of_mem _ h)
      · rcases List.mem_cons.1 h with rfl | h
        · exact .inr (List.mem_cons_self ..)
        · exact (ih h).imp_right (List.mem_cons_of_mem _)

/-- A write keeps the canonical form. -/
theorem Tbl.canon_set {d : Nat → α} {t : Tbl α} (h : Tbl.canon d t = true) (i : Nat) (v : α) :
    Tbl.canon d (Tbl.set (d i) t i v) = true := by
  induction t with
  | nil =>
    simp only [Tbl.set]
    split
    · rfl
    · next hv => exact Tbl.canon_cons hv (by intro p hp; cases hp) rfl
  | cons q t ih =>
    obtain ⟨k, w⟩ := q
    simp only [Tbl.set]
    have hlt := Tbl.canon_lt h
    split
    · next hik =>
      split
      · exact h
      · next hv =>
        refine Tbl.canon_cons hv ?_ h
        intro p hp
        rcases List.mem_cons.1 hp with rfl | hp
        · exact hik
        · exact Nat.lt_trans hik (hlt p hp)
    · next hik =>
      split
      · next he =>
        subst he
        split
        · exact Tbl.canon_tail h
        · next hv => exact Tbl.canon_cons hv hlt (Tbl.canon_tail h)
      · next hne =>
        refine Tbl.canon_cons (Tbl.canon_head h) ?_ (ih (Tbl.canon_tail h))
        intro p hp
        rcases Tbl.mem_set hp with rfl | hp
        · simp only; omega
        · exact hlt p hp

/-- A filter keeps the canonical form. -/
theorem Tbl.canon_filter {d : Nat → α} {t : Tbl α} (h : Tbl.canon d t = true) (p : Nat × α → Bool) :
    Tbl.canon d (t.filter p) = true := by
  induction t with
  | nil => rfl
  | cons q t ih =>
    obtain ⟨k, w⟩ := q
    simp only [List.filter_cons]
    split
    · exact Tbl.canon_cons (Tbl.canon_head h) (fun x hx => Tbl.canon_lt h x (List.mem_filter.1 hx).1) (ih (Tbl.canon_tail h))
    · exact ih (Tbl.canon_tail h)

/-- Writes of consecutive keys keep the canonical form of a table with one default. -/
theorem Tbl.canon_setList {d : α} (vs : List α) : ∀ {t : Tbl α} (i : Nat), Tbl.canon (fun _ => d) t = true →
    Tbl.canon (fun _ => d) (Tbl.setList d t i vs) = true := by
  induction vs with
  | nil => intro t i h; exact h
  | cons v vs ih => intro t i h; exact ih (i + 1) (Tbl.canon_set (d := fun _ => d) h i v)

theorem Tbl.canon_clear {d : Nat → α} {t : Tbl α} (h : Tbl.canon d t = true) (lo n : Nat) : Tbl.canon d (Tbl.clear t lo n) = true :=
  Tbl.canon_filter h _

theorem Tbl.canon_keep {d : Nat → α} {t : Tbl α} (h : Tbl.canon d t = true) (p : Nat → α → Bool) :
    Tbl.canon d (Tbl.keep t p) = true := Tbl.canon_filter h _

/-- A change of values that makes none of them the default keeps the canonical form. -/
theorem Tbl.canon_map {d : Nat → α} {t : Tbl α} (h : Tbl.canon d t = true) (f : Nat × α → Nat × α) (hk : ∀ e, (f e).1 = e.1)
    (hv : ∀ e, e.2 ≠ d e.1 → (f e).2 ≠ d e.1) : Tbl.canon d (t.map f) = true := by
  induction t with
  | nil => rfl
  | cons q t ih =>
    obtain ⟨k, w⟩ := q
    have e : f (k, w) = (k, (f (k, w)).2) := Prod.ext (hk _) rfl
    rw [List.map_cons, e]
    refine Tbl.canon_cons (hv (k, w) (Tbl.canon_head h)) (fun p hp => ?_) (ih (Tbl.canon_tail h))
    obtain ⟨q, hq, rfl⟩ := List.mem_map.1 hp
    rw [hk]; exact Tbl.canon_lt h q hq

/-- What holds of the default and of every listed value holds of every value. -/
theorem Tbl.get_all {P : α → Prop} {d : α} (hd : P d) : ∀ {t : Tbl α}, (∀ e ∈ t, P e.2) → ∀ i, P (Tbl.get d t i)
  | [], _, _ => hd
  | (k, v) :: t, h, i => by
    unfold Tbl.get
    split
    · exact h (k, v) (List.mem_cons_self ..)
    · split
      · exact hd
      · exact Tbl.get_all hd (fun e he => h e (List.mem_cons_of_mem _ he)) i

/-- A read after a write of the same key gives the value written. -/
theorem Tbl.get_set_self {d : Nat → α} {t : Tbl α} (h : Tbl.canon d t = true) (i : Nat) (v : α) :
    Tbl.get (d i) (Tbl.set (d i) t i v) i = v := by
  induction t with
  | nil =>
    simp only [Tbl.set]
    split
    · next hv => simp [Tbl.get, hv]
    · simp [Tbl.get]
  | cons q t ih =>
    obtain ⟨k, w⟩ := q
    simp only [Tbl.set]
    split
    · next hik =>
      split
      · next hv => simp [Tbl.get, hv, hik, Nat.ne_of_lt hik]
      · simp [Tbl.get]
    · next hik =>
      split
      · next he =>
        subst he
        split
        · next hv =>
          have hlt := Tbl.canon_lt h
          cases t with
          | nil => simp [Tbl.get, hv]
          | cons p t =>
            have := hlt p (List.mem_cons_self ..)
            simp [Tbl.get, hv, this, Nat.ne_of_lt this]
        · simp [Tbl.get]
      · next hne => simp only [Tbl.get, hne, hik, if_false]; exact ih (Tbl.canon_tail h)

/-- A write leaves every other key alone. -/
theorem Tbl.get_set_ne {d d' : α} {t : Tbl α} {i j : Nat} (hij : j ≠ i) (v : α)
    (hlt : List.Pairwise (fun a b => a.1 < b.1) t) : Tbl.get d (Tbl.set d' t i v) j = Tbl.get d t j := by
  induction t with
  | nil =>
    simp only [Tbl.set]
    split
    · rfl
    · simp [Tbl.get, hij]
  | cons q t ih =>
    obtain ⟨k, w⟩ := q
    rw [List.pairwise_cons] at hlt
    simp only [Tbl.set]
    split
    · next hik =>
      split
      · rfl
      · simp only [Tbl.get, hij, if_false]
        by_cases hjk : j = k
        · subst hjk; simp [Nat.not_lt.2 (Nat.le_of_lt hik)]
        · by_cases hji : j < i
          · simp [hji, hjk, Nat.lt_trans hji hik]
          · simp [hji]
    · next hik =>
      split
      · next he =>
        subst he
        split
        · simp only [Tbl.get, hij, if_false]
          split
          · next hlt' =>
            cases t with
            | nil => simp [Tbl.get]
            | cons p t =>
              have : i < p.1 := hlt.1 p (List.mem_cons_self ..)
              have h1 : j < p.1 := Nat.lt_trans hlt' this
              simp [Tbl.get, h1, Nat.ne_of_lt h1]
          · rfl
        · simp [Tbl.get, hij]
      · next hne => simp only [Tbl.get]; rw [ih hlt.2]

/-- Keys of a canonical table rise strictly. -/
theorem Tbl.canon_pairwise {d : Nat → α} {t : Tbl α} (h : Tbl.canon d t = true) : List.Pairwise (fun a b => a.1 < b.1) t := by
  induction t with
  | nil => exact .nil
  | cons q t ih => exact .cons (Tbl.canon_lt h) (ih (Tbl.canon_tail h))

end Sys2Proof.Machine
end

