-- ==== Sys2Proof/Laws/Keep.lean ====
section
/-! SUPPORT. What every function of the machine keeps, and the forms in which it does so, by what it answers, and the operations that change a
part which the invariant speaks of. -/

namespace Sys2Proof.Machine

/-- What a function that turns s₀ into s keeps: the invariant, the queue, what has been sent, and the free values already taken. -/
structure Kept (s₀ s : State) : Prop where
  inv : s₀.Inv → s.Inv
  pending : s.pending = s₀.pending
  /-- what has been sent stands, in its order (R508) -/
  out : s₀.out <+: s.out
  /-- a free value is taken once -/
  fresh : s₀.fresh ≤ s.fresh

theorem Kept.refl (s : State) : Kept s s := ⟨id, rfl, List.prefix_refl _, Nat.le_refl _⟩

/-- Every value that an option holds. -/
def OptAll {α : Type} (P : α → Prop) (o : Option α) : Prop := ∀ t, o = some t → P t
/-- Every value that a result holds. -/
def ExAll {ε α : Type} (P : α → Prop) (o : Except ε α) : Prop := ∀ t, o = .ok t → P t
/-- Every next state of an outcome. -/
def OutAll (P : State → Prop) (o : Host.Outcome State Fault Refusal) : Prop := ∀ t, o = .next t → P t

section forms
variable {α β γ ε : Type} {P : α → Prop} {Q : β → Prop} {s₀ : State}

theorem OptAll.none : OptAll P none := fun _ h => nomatch h
theorem OptAll.some {t : α} (h : P t) : OptAll P (some t) := fun _ e => Option.some.inj e ▸ h
theorem OptAll.elim {o : Option α} {t : α} (h : OptAll P o) (e : o = .some t) : P t := h t e
theorem OptAll.elim2 {o : Option (State × β)} {a : State} {b : β} (h : OptAll (fun p : State × β => Kept s₀ p.1) o) (e : o = .some (a, b)) : Kept s₀ a := h _ e
theorem OptAll.elim3 {o : Option (β × State)} {a : State} {b : β} (h : OptAll (fun p : β × State => Kept s₀ p.2) o) (e : o = .some (b, a)) : Kept s₀ a := h _ e
theorem OptAll.bind {o : Option β} {f : β → Option α} (h : OptAll Q o) (hf : ∀ t, Q t → OptAll P (f t)) : OptAll P (o.bind f) := by
  intro t e
  cases o with
  | none => cases e
  | some x => exact hf x (h x rfl) t e
theorem OptAll.map {o : Option β} {f : β → α} (h : OptAll Q o) (hf : ∀ t, Q t → P (f t)) : OptAll P (o.map f) := by
  intro t e
  cases o with
  | none => cases e
  | some x => cases e; exact hf x (h x rfl)
theorem OptAll.any {o : Option α} : OptAll (fun _ => True) o := fun _ _ => trivial
theorem OptAll.getD {o : Option α} {d : α} (h : OptAll P o) (hd : P d) : P (o.getD d) := by
  cases o with
  | none => exact hd
  | some x => exact h x rfl
theorem OptAll.orElse {o p : Option α} (h : OptAll P o) (hp : OptAll P p) : OptAll P (o.or p) := by
  cases o with
  | none => exact hp
  | some x => exact h

theorem ExAll.ok {t : α} (h : P t) : ExAll (ε := ε) P (.ok t) := fun _ e => Except.ok.inj e ▸ h
theorem ExAll.error {x : ε} : ExAll P (.error x) := fun _ h => nomatch h
theorem ExAll.elim {o : Except ε α} {t : α} (h : ExAll P o) (e : o = .ok t) : P t := h t e

theorem ExAll.elim2 {o : Except ε (State × β)} {a : State} {b : β} (h : ExAll (fun p : State × β => Kept s₀ p.1) o) (e : o = .ok (a, b)) :
    Kept s₀ a := h _ e
theorem ExAll.any {o : Except ε α} : ExAll (fun _ => True) o := fun _ _ => trivial
theorem ExAll.bind {o : Except ε β} {f : β → Except ε α} (h : ExAll Q o) (hf : ∀ t, Q t → ExAll P (f t)) : ExAll P (o.bind f) := by
  intro t e
  cases o with
  | error => cases e
  | ok x => exact hf x (h x rfl) t e
theorem ExAll.map {o : Except ε β} {f : β → α} (h : ExAll Q o) (hf : ∀ t, Q t → P (f t)) : ExAll P (o.map f) := by
  intro t e
  cases o with
  | error => cases e
  | ok x => cases e; exact hf x (h x rfl)

theorem OutAll.next {t : State} (h : Kept s₀ t) : OutAll (Kept s₀) (.next t) := fun _ e => Host.Outcome.next.inj e ▸ h
theorem OutAll.elim {o : Host.Outcome State Fault Refusal} {t : State} (h : OutAll (Kept s₀) o) (e : o = .next t) : Kept s₀ t := h t e
theorem OutAll.go {t : State} (h : Kept s₀ t) : OutAll (Kept s₀) (go t) := OutAll.next h

theorem ite_keep {c : Prop} [Decidable c] {s t : State} (h : Kept s₀ s) (h' : Kept s₀ t) : Kept s₀ (if c then s else t) := by
  split
  · exact h
  · exact h'
theorem ite_out {c : Prop} [Decidable c] {s t : Host.Outcome State Fault Refusal} (h : OutAll (Kept s₀) s) (h' : OutAll (Kept s₀) t) :
    OutAll (Kept s₀) (if c then s else t) := by
  split
  · exact h
  · exact h'
theorem ite_ex {c : Prop} [Decidable c] {s t : Except ε α} (h : ExAll P s) (h' : ExAll P t) : ExAll P (if c then s else t) := by
  split
  · exact h
  · exact h'

theorem pair_fst {p : State × β} {a : State} {b : β} (h : Kept s₀ p.1) (e : p = (a, b)) : Kept s₀ a := by subst e; exact h
theorem pair_snd {p : β × State} {a : State} {b : β} (h : Kept s₀ p.2) (e : p = (b, a)) : Kept s₀ a := by subst e; exact h

theorem foldl_keep {f : State → β → State} {l : List β} {s : State} (h : Kept s₀ s) (hf : ∀ s x, Kept s₀ s → Kept s₀ (f s x)) :
    Kept s₀ (l.foldl f s) := by
  induction l generalizing s with
  | nil => exact h
  | cons x l ih => exact ih (hf _ _ h)
theorem foldl_all {P : α → Prop} {f : α → β → α} {l : List β} {s : α} (h : P s) (hf : ∀ s x, P s → P (f s x)) : P (l.foldl f s) := by
  induction l generalizing s with
  | nil => exact h
  | cons x l ih => exact ih (hf _ _ h)
theorem foldl_fst {f : State × γ → β → State × γ} {l : List β} {s : State × γ} (h : Kept s₀ s.1)
    (hf : ∀ s x, Kept s₀ s.1 → Kept s₀ (f s x).1) : Kept s₀ (l.foldl f s).1 := foldl_all (P := fun p : State × γ => Kept s₀ p.1) h hf
theorem foldl_snd {f : γ × State → β → γ × State} {l : List β} {s : γ × State} (h : Kept s₀ s.2)
    (hf : ∀ s x, Kept s₀ s.2 → Kept s₀ (f s x).2) : Kept s₀ (l.foldl f s).2 := foldl_all (P := fun p : γ × State => Kept s₀ p.2) h hf
theorem foldl_opt {f : Option α → β → Option α} {l : List β} {s : Option α} (h : OptAll P s)
    (hf : ∀ s x, OptAll P s → OptAll P (f s x)) : OptAll P (l.foldl f s) := foldl_all h hf
theorem foldl_ex {f : Except ε α → β → Except ε α} {l : List β} {s : Except ε α} (h : ExAll P s)
    (hf : ∀ s x, ExAll P s → ExAll P (f s x)) : ExAll P (l.foldl f s) := foldl_all h hf

end forms

/-! ### Operations on the parts that it speaks of -/

variable {s₀ : State}

/-- A change of parts that it does not speak of, or of the memory, the Coil, the engines or the start state that keeps their
forms. -/
theorem Kept.of_parts {s : State} {pending fresh out dict dm regs log mem coil ibex hp sch streams vid wake tth start node store
    pins acts} (h : Kept s₀ s) (hr : regs = s.regs) (hd : dict = s.dict) (hl : log = s.log) (hp' : pending = s.pending) (ho : out = s.out)
    (hf : fresh = s.fresh) (hdm : dm = s.dm) (hi : ibex = s.ibex) (hs : streams = s.streams) (hq : sch.queues = s.sch.queues)
    (hh : sch.hitches = s.sch.hitches) (hc : sch.ctxs = s.sch.ctxs) (hfn : hp.fns = s.hp.fns) (ha : acts = s.acts) (hm : Memory.wf s.mem → Memory.wf mem)
    (hb : s.coil.ok → coil.ok) (hv : s.vid.ok → vid.ok) (hst : s.start.ok → start.ok) :
    Kept s₀ (State.mk pending fresh out dict dm regs log mem coil ibex hp sch streams vid wake acts tth start node store pins) := by
  refine ⟨fun h0 => ?_, hp' ▸ h.pending, ho ▸ h.out, hf ▸ h.fresh⟩
  have h := h.inv h0
  refine ⟨hr ▸ h.regs, hd ▸ h.dict, hl ▸ h.log, hm h.mem, hdm ▸ h.dm, hi ▸ h.ibex, hi ▸ h.ibexes, hs ▸ h.streams, ?_, ?_, ?_, ?_, ?_,
    hb h.coil, hv h.vid, hst h.start⟩
  · simp only; rw [hq]; exact h.queues
  · simp only; rw [hh]; exact h.hitches
  · simp only; rw [hc]; exact h.ctxs
  · simp only; rw [hfn]; exact h.fns
  · simp only; rw [ha]; exact h.acts

/-- A change of the memory that keeps its form. -/
theorem Kept.setMem {s : State} {m : Mem} (h : Kept s₀ s) (hm : Memory.wf s.mem → Memory.wf m) : Kept s₀ { s with mem := m } :=
  Kept.of_parts h rfl rfl rfl rfl rfl rfl rfl rfl rfl rfl rfl rfl rfl rfl hm id id id

/-- A change of the activity counters that keeps their form. -/
theorem Kept.setActs {s : State} {a : Activities} (h : Kept s₀ s) (ha : Tbl.ok {} s.acts.ctxs → Tbl.ok {} a.ctxs) :
    Kept s₀ { s with acts := a } :=
  ⟨fun h0 => { h.inv h0 with acts := ha (h.inv h0).acts }, h.pending, h.out, h.fresh⟩

/-- A change of registers, entries or the log that keeps their forms. -/
theorem Kept.of_inv {s t : State} (h : Kept s₀ s) (hi : s.Inv → t.Inv) (hp' : t.pending = s.pending) (ho : t.out = s.out)
    (hf : t.fresh = s.fresh) : Kept s₀ t := ⟨fun h0 => hi (h.inv h0), hp' ▸ h.pending, ho ▸ h.out, hf ▸ h.fresh⟩

/-! ### Operations of tables keep the canonical form -/

section tables
variable {α β : Type} [DecidableEq α] {d : α} {t : Tbl α}

theorem Tbl.ok_nil : Tbl.ok d [] := rfl
theorem Tbl.ok_set {i : Nat} {v : α} (h : Tbl.ok d t) : Tbl.ok d (Tbl.set d t i v) := Tbl.canon_set (d := fun _ => d) h i v
theorem Tbl.ok_modify {i : Nat} {f : α → α} (h : Tbl.ok d t) : Tbl.ok d (Tbl.modify d t i f) := Tbl.ok_set h
theorem Tbl.ok_setList {i : Nat} {vs : List α} (h : Tbl.ok d t) : Tbl.ok d (Tbl.setList d t i vs) := Tbl.canon_setList vs i h
theorem Tbl.ok_clear {lo n : Nat} (h : Tbl.ok d t) : Tbl.ok d (Tbl.clear t lo n) := Tbl.canon_clear (d := fun _ => d) h lo n
theorem Tbl.ok_keep {p : Nat → α → Bool} (h : Tbl.ok d t) : Tbl.ok d (Tbl.keep t p) := Tbl.canon_keep (d := fun _ => d) h p
theorem Tbl.ok_filter {p : Nat × α → Bool} (h : Tbl.ok d t) : Tbl.ok d (List.filter p t) := Tbl.canon_filter (d := fun _ => d) h p
theorem Tbl.ok_foldl {f : Tbl α → β → Tbl α} {l : List β} (h : Tbl.ok d t) (hf : ∀ t x, Tbl.ok d t → Tbl.ok d (f t x)) :
    Tbl.ok d (l.foldl f t) := foldl_all (P := fun t => Tbl.ok d t) h hf
theorem Tbl.ok_ite {c : Prop} [Decidable c] {u : Tbl α} (h : Tbl.ok d t) (h' : Tbl.ok d u) : Tbl.ok d (if c then t else u) := by
  split
  · exact h
  · exact h'

end tables

/-! ### Every operation of a memory keeps its canonical form -/

theorem Memory.wf_mk {hbm syn chk lines lineSyn splice splSyn allocs power retries rows queue mends scrubAt common} (h1 : Tbl.ok 0 hbm) (h2 : Tbl.ok 0 syn)
    (h3 : Tbl.ok {} chk) (h4 : Tbl.ok none lines) (h5 : Tbl.ok 0 lineSyn) (h6 : Tbl.ok 0 splSyn) (h7 : Tbl.ok .active power)
    (h8 : Tbl.ok 0 retries) (h9 : Tbl.ok 0 rows) :
    Memory.wf (Mem.mk hbm syn chk lines lineSyn splice splSyn allocs power retries rows queue mends scrubAt common) :=
  ⟨h1, h2, h3, h4, h5, h6, h7, h8, h9⟩

section memory
variable {m : Mem}
theorem Memory.wf_hbm (h : Memory.wf m) : Tbl.ok 0 m.hbm := h.1
theorem Memory.wf_syn (h : Memory.wf m) : Tbl.ok 0 m.syn := h.2.1
theorem Memory.wf_chk (h : Memory.wf m) : Tbl.ok {} m.chk := h.2.2.1
theorem Memory.wf_lines (h : Memory.wf m) : Tbl.ok none m.lines := h.2.2.2.1
theorem Memory.wf_lineSyn (h : Memory.wf m) : Tbl.ok 0 m.lineSyn := h.2.2.2.2.1
theorem Memory.wf_splSyn (h : Memory.wf m) : Tbl.ok 0 m.splSyn := h.2.2.2.2.2.1
theorem Memory.wf_power (h : Memory.wf m) : Tbl.ok .active m.power := h.2.2.2.2.2.2.1
theorem Memory.wf_retries (h : Memory.wf m) : Tbl.ok 0 m.retries := h.2.2.2.2.2.2.2.1
theorem Memory.wf_rows (h : Memory.wf m) : Tbl.ok 0 m.rows := h.2.2.2.2.2.2.2.2

theorem Memory.wf_empty : Memory.wf {} := by decide

theorem Memory.setSplSyn_wf {w : Nat} {y : Byte} (h : Memory.wf m) : Memory.wf { m with splSyn := Tbl.set 0 m.splSyn w y } :=
  ⟨h.1, h.2.1, h.2.2.1, h.2.2.2.1, h.2.2.2.2.1, Tbl.ok_set h.2.2.2.2.2.1, h.2.2.2.2.2.2⟩

theorem Memory.store_wf {w data syn : Nat} (h : Memory.wf m) : Memory.wf (m.store w data syn) :=
  ⟨Tbl.ok_setList h.1, Tbl.ok_set h.2.1, h.2.2⟩

theorem Memory.poison_wf {w : Nat} (h : Memory.wf m) : Memory.wf (m.poison w) := Memory.store_wf h

theorem Memory.setCheck_wf {page p q : Nat} (h : Memory.wf m) : Memory.wf (m.setCheck page p q) :=
  ⟨h.1, h.2.1, Tbl.ok_set h.2.2.1, h.2.2.2⟩

theorem Memory.poisonCheck_wf {page : Nat} (h : Memory.wf m) : Memory.wf (m.poisonCheck page) :=
  ⟨h.1, h.2.1, Tbl.ok_set h.2.2.1, h.2.2.2⟩

theorem Memory.putEntry_wf {e : Splice} (h : Memory.wf m) : Memory.wf (m.putEntry e) := h

end memory

theorem foldl_wf {β : Type} {f : Mem → β → Mem} {l : List β} {m : Mem} (h : Memory.wf m)
    (hf : ∀ m x, Memory.wf m → Memory.wf (f m x)) : Memory.wf (l.foldl f m) :=
  foldl_all (P := fun m => Memory.wf m) h hf

theorem Ibex.ok_mk {spm spmSyn acc accSyn slots running reserved cur regions outq ramp gated ran before} (h1 : Tbl.ok 0 spm) (h2 : Tbl.ok 0 spmSyn)
    (h3 : Tbl.ok 0 acc) (h4 : Tbl.ok 0 accSyn) (h5 : Tbl.ok none slots) (h6 : Tbl.ok {} regions) :
    Ibex.ok (Ibex.mk spm spmSyn acc accSyn slots running reserved cur regions outq ramp gated ran before) := ⟨h1, h2, h3, h4, h5, h6⟩

theorem Ibex.ok_empty : Ibex.ok {} := by constructor <;> decide

theorem Coil.ok_mk {buffers bases bufs lastReset resv waiters laid} (h1 : Tbl.ok 0 buffers) (h2 : Tbl.ok 0 bases) (h3 : Tbl.ok {} bufs)
    (h4 : Tbl.ok 0 resv) : Coil.ok (Coil.mk buffers bases bufs lastReset resv waiters laid) := ⟨h1, h2, h3, h4⟩
theorem Coil.ok_empty : Coil.ok {} := by constructor <;> decide

theorem Video.ok_mk {ee pe pre serial power} (h1 : Tbl.ok none ee) (h2 : Tbl.ok none pe) (h3 : Tbl.ok none pre) :
    Video.ok (Video.mk ee pe pre serial power) := ⟨h1, h2, h3⟩
theorem Video.ok_empty : Video.ok {} := by constructor <;> decide

theorem Start.ok_mk {record slots kept changed running halted cold codes mrs slotState bootSel runs updKind updSlot updLen updData warmDue nonce body
    report pk reports torn} (h1 : Tbl.ok none slots) (h2 : Tbl.ok none kept) (h3 : Tbl.ok false changed)
    (h4 : Tbl.ok (List.replicate 64 0) mrs) (h5 : Tbl.ok 0 slotState) :
    Start.ok (Start.mk record slots kept changed running halted cold codes mrs slotState bootSel runs updKind updSlot updLen updData warmDue nonce body
      report pk reports torn) := ⟨h1, h2, h3, h4, h5⟩

end Sys2Proof.Machine
end

