-- ==== Sys2Proof/Laws/KeepBase.lean ====
section
/-! SUPPORT. `Kept` holds of every function of the register file, the error log, the HBM array, the pools and the records. -/

namespace Sys2Proof.Machine

variable {s₀ : State}

/-! ### Regs -/

theorem State.setReg_keep (a0 : State) (a1 : Nat) (a2 : W64) (h0 : Kept s₀ a0) : Kept s₀ (State.setReg a0 a1 a2) :=
  Kept.of_inv h0 (fun h => { h with regs := Tbl.canon_set h.regs a1 a2 }) rfl rfl rfl
theorem State.setField_keep (a0 : State) (a1 : Nat) (a2 : Nat) (a3 : Nat) (a4 : Nat) (h0 : Kept s₀ a0) : Kept s₀ (State.setField a0 a1 a2 a3 a4) := by
  unfold State.setField
  repeat' (with_reducible first | assumption | refine State.setReg_keep _ _ _ ?_)

theorem State.count_keep (a0 : State) (a1 : Nat) (a2 : Nat) (h0 : Kept s₀ a0) : Kept s₀ (State.count a0 a1 a2) := by
  unfold State.count
  repeat' (with_reducible first | assumption | refine State.setReg_keep _ _ _ ?_)

theorem State.setEntry_keep (a0 : State) (a1 a2 a3 : Nat) (h0 : Kept s₀ a0) : Kept s₀ (State.setEntry a0 a1 a2 a3) :=
  Kept.of_inv h0 (fun h => { h with dict := Tbl.canon_set h.dict (dkey a1 a2) _ }) rfl rfl rfl
theorem State.countEntry_keep (a0 : State) (a1 : Nat) (a2 : Nat) (a3 : Nat) (h0 : Kept s₀ a0) : Kept s₀ (State.countEntry a0 a1 a2 a3) := by
  unfold State.countEntry
  repeat' (with_reducible first | assumption | refine State.setEntry_keep _ _ _ _ ?_)

theorem State.send_keep (a0 : State) (a1 : Out) (h0 : Kept s₀ a0) : Kept s₀ (State.send a0 a1) :=
  ⟨fun h => { h0.inv h with }, h0.pending, h0.out.trans (List.prefix_append _ _), h0.fresh⟩
theorem State.errReg_keep (a0 : State) (a1 : Nat) (a2 : Nat) (h0 : Kept s₀ a0) : Kept s₀ (State.errReg a0 a1 a2) := by
  unfold State.errReg
  repeat' (with_reducible first | assumption | refine State.setReg_keep _ _ _ ?_ | refine ite_keep ?_ ?_)

theorem State.logRec_keep (a0 : State) (a1 : W16) (a2 a3 a4 a5 : Nat) (h0 : Kept s₀ a0) : Kept s₀ (State.logRec a0 a1 a2 a3 a4 a5) := by
  unfold State.logRec
  have h : Kept s₀ (if 64 ≤ a0.log.length then a0.countEntry 0x6000 3 1 else a0) := by
    split
    · exact State.countEntry_keep _ _ _ _ h0
    · exact h0
  exact Kept.of_inv h (fun h => { h with dict := Tbl.canon_set h.dict _ _, log := by simp only [List.length_take]; omega }) rfl rfl rfl
theorem State.dropRegs_keep (a0 : State) (a1 : Nat → Bool) (h0 : Kept s₀ a0) : Kept s₀ (State.dropRegs a0 a1) :=
  Kept.of_inv h0 (fun h => { h with regs := Tbl.canon_keep h.regs (fun k _ => !a1 k) }) rfl rfl rfl
theorem State.dropEntries_keep (a0 : State) (a1 : Nat → Bool) (h0 : Kept s₀ a0) : Kept s₀ (State.dropEntries a0 a1) :=
  Kept.of_inv h0 (fun h => { h with dict := Tbl.canon_keep h.dict (fun k _ => !a1 k) }) rfl rfl rfl

/-! ### Ops -/

theorem State.modFn_keep (a0 : State) (a1 : Nat) (a2 : FnSt → FnSt) (h0 : Kept s₀ a0) : Kept s₀ (State.modFn a0 a1 a2) :=
  Kept.of_inv h0 (fun h => { h with fns := Tbl.canon_set (d := fun _ => {}) h.fns a1 (a2 (a0.fn a1)) }) rfl rfl rfl
theorem State.addWork_keep (a0 : State) (a1 : Nat) (a2 : Work) (h0 : Kept s₀ a0) : Kept s₀ (State.addWork a0 a1 a2) := by
  unfold State.addWork
  exact Kept.setActs h0 fun h => by dsimp only; exact Tbl.ok_modify h
theorem State.leave_keep (a0 : State) (a1 : Nat) (a2 : Out) (h0 : Kept s₀ a0) : OptAll (Kept s₀) (State.leave a0 a1 a2) := by
  unfold State.leave
  repeat' (with_reducible first
    | assumption | refine State.send_keep _ _ ?_ | refine OptAll.some ?_
    | refine OptAll.map (Q := fun _ => True) OptAll.any (fun _ _ => ?_) | split)

theorem State.askXlate_keep (a0 : State) (a1 : Nat) (a2 : Out) (h0 : Kept s₀ a0) : Kept s₀ (State.askXlate a0 a1 a2) := by
  unfold State.askXlate
  repeat' (with_reducible first
    | assumption | refine State.modFn_keep _ _ _ ?_ | refine State.send_keep _ _ ?_ | refine ite_keep ?_ ?_)

theorem State.takeOff_keep (a0 : State) (a1 : Nat) (a2 : Out) (h0 : Kept s₀ a0) : Kept s₀ (State.takeOff a0 a1 a2) := by
  unfold State.takeOff
  repeat' (with_reducible first
    | assumption | exact id | split | extract_lets
    | refine Kept.of_parts ?_ rfl rfl rfl rfl rfl rfl rfl rfl rfl rfl rfl rfl rfl rfl ?_ ?_ ?_ ?_)

theorem State.serveWaits_keep (a0 : State) (a1 : List Wait) (a2 : List Nat) (a3 : Bool) (a4 : List Wait) (h0 : Kept s₀ a0) : Kept s₀ (State.serveWaits a0 a1 a2 a3 a4) := by
  induction a4 generalizing a0 a1 a2 a3 with
  | nil => exact Kept.of_parts h0 rfl rfl rfl rfl rfl rfl rfl rfl rfl rfl rfl rfl rfl rfl id id id id
  | cons w ws ih =>
  unfold State.serveWaits
  repeat' (with_reducible first
    | assumption | refine ih _ _ _ _ ?_ | refine OptAll.elim (State.leave_keep _ _ _ ?_) ‹_ = some _›
    | refine State.askXlate_keep _ _ _ ?_ | refine State.takeOff_keep _ _ _ ?_ | refine ite_keep ?_ ?_ | split)

theorem State.serve_keep (a0 : State) (h0 : Kept s₀ a0) : Kept s₀ (State.serve a0) := by
  unfold State.serve
  repeat' (with_reducible first | assumption | refine State.serveWaits_keep _ _ _ _ _ ?_)

theorem State.issue_keep (a0 : State) (a1 : Out) (a2 : WriteBack) (h0 : Kept s₀ a0) : Kept s₀ (State.issue a0 a1 a2) := by
  unfold State.issue
  repeat' (with_reducible first
    | assumption | refine State.serve_keep _ ?_ | exact id | extract_lets
    | refine Kept.of_parts ?_ rfl rfl rfl rfl rfl rfl rfl rfl rfl rfl rfl rfl rfl rfl ?_ ?_ ?_ ?_)

theorem State.hostWrite_keep (a0 : State) (a1 : Nat) (a2 : W64) (a3 : List Byte) (a4 : WriteBack) (h0 : Kept s₀ a0) : Kept s₀ (State.hostWrite a0 a1 a2 a3 a4) := by
  unfold State.hostWrite
  repeat' (with_reducible first | assumption | refine State.issue_keep _ _ _ ?_)

theorem State.sendInvals_keep (a0 : State) (h0 : Kept s₀ a0) : Kept s₀ (State.sendInvals a0) := by
  unfold State.sendInvals
  repeat' (with_reducible first
    | assumption | refine State.send_keep _ _ ?_ | refine foldl_keep ?_ (fun _ _ _ => ?_) | refine ite_keep ?_ ?_ | exact id
    | extract_lets | refine Kept.of_parts ?_ rfl rfl rfl rfl rfl rfl rfl rfl rfl rfl rfl rfl rfl rfl ?_ ?_ ?_ ?_)

theorem State.land_keep (a0 : State) (a1 : DevRead) (h0 : Kept s₀ a0) : Kept s₀ (State.land a0 a1) := by
  unfold State.land
  repeat' (with_reducible first
    | assumption | refine State.serve_keep _ ?_ | refine State.sendInvals_keep _ ?_ | exact id | split | extract_lets
    | refine Kept.of_parts ?_ rfl rfl rfl rfl rfl rfl rfl rfl rfl rfl rfl rfl rfl rfl ?_ ?_ ?_ ?_)

theorem State.received_keep (a0 : State) (a1 : Nat) (h0 : Kept s₀ a0) : Kept s₀ (State.received a0 a1) := by
  unfold State.received
  repeat' (with_reducible first
    | assumption | exact id | extract_lets
    | refine Kept.of_parts ?_ rfl rfl rfl rfl rfl rfl rfl rfl rfl rfl rfl rfl rfl rfl ?_ ?_ ?_ ?_)

theorem State.msix_keep (a0 : State) (a1 : Nat) (a2 : Nat) (h0 : Kept s₀ a0) : Kept s₀ (State.msix a0 a1 a2) := by
  unfold State.msix
  repeat' (with_reducible first
    | assumption | refine State.issue_keep _ _ _ ?_ | refine State.modFn_keep _ _ _ ?_ | refine ite_keep ?_ ?_)

theorem State.sendPended_keep (a0 : State) (a1 : Nat) (h0 : Kept s₀ a0) : Kept s₀ (State.sendPended a0 a1) := by
  unfold State.sendPended
  repeat' (with_reducible first
    | assumption | refine State.issue_keep _ _ _ ?_ | refine State.modFn_keep _ _ _ ?_ | refine foldl_keep ?_ (fun _ _ _ => ?_)
    | refine ite_keep ?_ ?_)

theorem State.fnErr_keep (a0 : State) (a1 : W16) (a2 : Nat) (h0 : Kept s₀ a0) : Kept s₀ (State.fnErr a0 a1 a2) := by
  unfold State.fnErr
  repeat' (with_reducible first | assumption | refine State.msix_keep _ _ _ ?_ | refine State.errReg_keep _ _ _ ?_)

theorem State.logErr_keep (a0 : State) (a1 : W16) (a2 : Nat) (a3 : Nat) (a4 : Nat) (a5 : Nat) (a6 : Option Nat) (h0 : Kept s₀ a0) : Kept s₀ (State.logErr a0 a1 a2 a3 a4 a5 a6) := by
  unfold State.logErr
  repeat' (with_reducible first
    | assumption | refine State.logRec_keep _ _ _ _ _ _ ?_ | refine State.fnErr_keep _ _ _ ?_ | split)

theorem State.reject_keep (a0 : State) (a1 : W16) (a2 : Nat) (a3 : Nat) (a4 : Nat) (h0 : Kept s₀ a0) : Kept s₀ (State.reject a0 a1 a2 a3 a4) := by
  unfold State.reject
  repeat' (with_reducible first | assumption | refine State.logErr_keep _ _ _ _ _ _ _ ?_)

theorem State.rejectV_keep (a0 : State) (a1 : W16) (a2 : Nat) (a3 : Nat) (a4 : Nat) (a5 : Nat) (h0 : Kept s₀ a0) : Kept s₀ (State.rejectV a0 a1 a2 a3 a4 a5) := by
  unfold State.rejectV
  repeat' (with_reducible first | assumption | refine State.logErr_keep _ _ _ _ _ _ _ ?_)

theorem State.rejectBy_keep (a0 : State) (a1 : W16) (a2 : Origin) (a3 : Nat) (a4 : Nat) (h0 : Kept s₀ a0) : Kept s₀ (State.rejectBy a0 a1 a2 a3 a4) := by
  unfold State.rejectBy
  repeat' (with_reducible first
    | assumption | refine State.reject_keep _ _ _ _ _ ?_ | refine State.logErr_keep _ _ _ _ _ _ _ ?_ | split)

theorem State.logDev_keep (a0 : State) (a1 : W16) (a2 : Nat) (a3 : Nat) (h0 : Kept s₀ a0) : Kept s₀ (State.logDev a0 a1 a2 a3) := by
  unfold State.logDev
  repeat' (with_reducible first | assumption | refine State.logErr_keep _ _ _ _ _ _ _ ?_)

theorem State.wakeUp_keep (a0 : State) (h0 : Kept s₀ a0) : Kept s₀ (State.wakeUp a0) := by
  unfold State.wakeUp
  repeat' (with_reducible first
    | assumption | refine ite_keep ?_ ?_ | exact id | extract_lets
    | refine Kept.of_parts ?_ rfl rfl rfl rfl rfl rfl rfl rfl rfl rfl rfl rfl rfl rfl ?_ ?_ ?_ ?_)

theorem State.hostAct_keep (a0 : State) (a1 : Nat) (a2 : Nat) (a3 : State → State) (h0 : Kept s₀ a0) (h1 : ∀ x0, Kept s₀ (x0) → Kept s₀ (a3 x0)) : OutAll (Kept s₀) (State.hostAct a0 a1 a2 a3) := by
  unfold State.hostAct
  repeat' (with_reducible first
    | assumption | refine h1 _ ?_ | refine State.received_keep _ _ ?_ | refine State.wakeUp_keep _ ?_ | refine OutAll.next ?_
    | refine ite_out ?_ ?_)

theorem State.hostDict_keep (a0 : State) (a1 : Nat) (a2 : Nat) (a3 : State → State) (h0 : Kept s₀ a0) (h1 : ∀ x0, Kept s₀ (x0) → Kept s₀ (a3 x0)) : OutAll (Kept s₀) (State.hostDict a0 a1 a2 a3) := by
  unfold State.hostDict
  repeat' (with_reducible first
    | assumption | refine h1 _ ?_ | refine State.received_keep _ _ ?_ | refine State.hostAct_keep _ _ _ _ ?_ ?_
    | refine OutAll.next ?_ | refine ite_out ?_ ?_)

theorem State.freshWord_keep (a0 : State) (h0 : Kept s₀ a0) : Kept s₀ (State.freshWord a0).2 :=
  ⟨fun h => { h0.inv h with }, h0.pending, h0.out, Nat.le_succ_of_le h0.fresh⟩
theorem State.countFree_keep (a0 : State) (a1 : Nat) (h0 : Kept s₀ a0) : Kept s₀ (State.countFree a0 a1) := by
  unfold State.countFree
  repeat' (with_reducible first | assumption | refine State.freshWord_keep _ ?_ | refine State.count_keep _ _ _ ?_)

theorem go_keep (a0 : State) (h0 : Kept s₀ a0) : OutAll (Kept s₀) (go a0) := by
  unfold go
  repeat' (with_reducible first | assumption | refine OutAll.next ?_)

/-! ### Entries -/

theorem State.famErr_keep (a0 : State) (a1 : W16) (a2 : Nat) (h0 : Kept s₀ a0) : Kept s₀ (State.famErr a0 a1 a2) := by
  unfold State.famErr
  repeat' (with_reducible first
    | assumption | refine State.errReg_keep _ _ _ ?_ | refine State.setEntry_keep _ _ _ _ ?_ | refine ite_keep ?_ ?_)

theorem Start.fresh_ok {x : Start} {c : Bool} (h : x.ok) : (x.fresh c).ok := ⟨h.slots, h.kept, h.changed, Tbl.ok_nil, Tbl.ok_nil⟩

theorem State.modStart_keep (a0 : State) (a1 : Start → Start) (h0 : Kept s₀ a0) (h1 : ∀ x, x.ok → (a1 x).ok) : Kept s₀ (State.modStart a0 a1) :=
  Kept.of_parts h0 rfl rfl rfl rfl rfl rfl rfl rfl rfl rfl rfl rfl rfl rfl id id id (h1 _)
theorem State.startLog_keep (a0 : State) (a1 : W16) (a2 : Nat) (h0 : Kept s₀ a0) : Kept s₀ (State.startLog a0 a1 a2) := by
  unfold State.startLog
  repeat' (with_reducible first | assumption | refine State.famErr_keep _ _ _ ?_ | refine State.logErr_keep _ _ _ _ _ _ _ ?_)

theorem State.romLog_keep (a0 : State) (a1 : W16) (a2 : Nat) (h0 : Kept s₀ a0) : Kept s₀ (State.romLog a0 a1 a2) := by
  unfold State.romLog
  repeat' (with_reducible first
    | assumption | refine State.modStart_keep _ _ ?_ ?_ | extract_lets | intro _ | refine Start.ok_mk ?_ ?_ ?_ ?_ ?_
    | refine Start.ok.slots ?_ | refine Start.ok.kept ?_ | refine Start.ok.changed ?_ | refine Start.ok.mrs ?_
    | refine Start.ok.slotState ?_)

theorem State.flushCodes_keep (a0 : State) (h0 : Kept s₀ a0) : Kept s₀ (State.flushCodes a0) := by
  unfold State.flushCodes
  repeat' (with_reducible first
    | assumption | refine State.modStart_keep _ _ ?_ ?_ | refine State.startLog_keep _ _ _ ?_
    | refine foldl_keep ?_ (fun _ _ _ => ?_) | extract_lets | intro _ | refine Start.ok_mk ?_ ?_ ?_ ?_ ?_
    | refine Start.ok.slots ?_ | refine Start.ok.kept ?_ | refine Start.ok.changed ?_ | refine Start.ok.mrs ?_
    | refine Start.ok.slotState ?_)

theorem State.rejectEntry_keep (a0 : State) (a1 : W16) (a2 : Origin) (a3 : Nat) (a4 : Nat) (a5 : List Byte) (h0 : Kept s₀ a0) : Kept s₀ (State.rejectEntry a0 a1 a2 a3 a4 a5) := by
  unfold State.rejectEntry
  repeat' (with_reducible first | assumption | refine State.logErr_keep _ _ _ _ _ _ _ ?_ | refine State.famErr_keep _ _ _ ?_)

theorem State.dmResult_keep (a0 : State) (a1 : Nat) (a2 : W16) (a3 : Bool) (h0 : Kept s₀ a0) : Kept s₀ (State.dmResult a0 a1 a2 a3) := by
  unfold State.dmResult
  repeat' (with_reducible first | assumption | refine State.setReg_keep _ _ _ ?_)

theorem State.dmPut_keep (a0 : State) (a1 a2 : Nat) (a3 : List Byte) (h0 : Kept s₀ a0) : Kept s₀ (State.dmPut a0 a1 a2 a3) :=
  Kept.of_inv h0 (fun h => { h with dm := Tbl.canon_setList _ _ h.dm }) rfl rfl rfl
theorem State.dmRequest_keep (a0 : State) (a1 : Nat) (a2 : Nat) (a3 : Nat) (a4 : Bool) (a5 : List Byte) (h0 : Kept s₀ a0) : Kept s₀ (State.dmRequest a0 a1 a2 a3 a4 a5) := by
  unfold State.dmRequest
  repeat' (with_reducible first
    | assumption | refine State.setReg_keep _ _ _ ?_ | refine State.dmPut_keep _ _ _ _ ?_ | refine ite_keep ?_ ?_)

theorem State.dictTry_keep (a0 : State) (a1 : Origin) (a2 : Nat) (a3 : Nat) (a4 : List Byte) (a5 : State → Except W16 State) (h0 : Kept s₀ a0) (h1 : ∀ x0, Kept s₀ (x0) → ExAll (Kept s₀) (a5 x0)) : Kept s₀ (State.dictTry a0 a1 a2 a3 a4 a5).1 := by
  unfold State.dictTry
  repeat' (with_reducible first
    | assumption | refine State.wakeUp_keep _ ?_ | refine State.rejectEntry_keep _ _ _ _ _ _ ?_
    | refine ExAll.elim (h1 _ ?_) ‹_ = Except.ok _› | split | extract_lets)

theorem State.napAccess_keep (a0 : State) (a1 : Origin) (a2 : Nat) (a3 : Nat) (a4 : Bool) (a5 : List Byte) (h0 : Kept s₀ a0) : Kept s₀ (State.napAccess a0 a1 a2 a3 a4 a5) := by
  unfold State.napAccess
  repeat' (with_reducible first
    | assumption | refine State.wakeUp_keep _ ?_ | refine State.dmResult_keep _ _ _ _ ?_ | exact id | split | extract_lets
    | refine Kept.of_parts ?_ rfl rfl rfl rfl rfl rfl rfl rfl rfl rfl rfl rfl rfl rfl ?_ ?_ ?_ ?_)

theorem State.viaPath_keep (a0 : State) (a1 : Origin) (a2 : Nat) (a3 : Nat) (a4 : Bool) (a5 : List Byte) (a6 : State → Prod State W16) (h0 : Kept s₀ a0) (h1 : ∀ x0, Kept s₀ (x0) → Kept s₀ (a6 x0).1) : OutAll (Kept s₀) (State.viaPath a0 a1 a2 a3 a4 a5 a6) := by
  unfold State.viaPath
  repeat' (with_reducible first
    | assumption | refine h1 _ ?_ | refine OutAll.go ?_ | refine State.napAccess_keep _ _ _ _ _ _ ?_
    | refine State.hostDict_keep _ _ _ _ ?_ ?_ | refine State.rejectEntry_keep _ _ _ _ _ _ ?_
    | refine State.dmRequest_keep _ _ _ _ _ _ ?_ | refine State.dmResult_keep _ _ _ _ ?_ | refine ite_out ?_ ?_ | split
    | extract_lets | intro _)

theorem State.dictCmd_keep (a0 : State) (a1 : Origin) (a2 : Nat) (a3 : Nat) (a4 : List Byte) (a5 : State → Except W16 State) (h0 : Kept s₀ a0) (h1 : ∀ x0, Kept s₀ (x0) → ExAll (Kept s₀) (a5 x0)) : OutAll (Kept s₀) (State.dictCmd a0 a1 a2 a3 a4 a5) := by
  unfold State.dictCmd
  repeat' (with_reducible first
    | assumption | refine State.viaPath_keep _ _ _ _ _ _ _ ?_ ?_ | refine State.dictTry_keep _ _ _ _ _ _ ?_ ?_ | extract_lets
    | intro _)

/-! ### Hbm -/

theorem State.flipDone_keep (a0 : State) (h0 : Kept s₀ a0) : Kept s₀ (State.flipDone a0) := by
  unfold State.flipDone
  repeat' (with_reducible first | assumption | refine State.setField_keep _ _ _ _ _ ?_)

theorem State.storeWord_keep (a0 : State) (a1 a2 : Nat) (h0 : Kept s₀ a0) : Kept s₀ (State.storeWord a0 a1 a2) := by
  unfold State.storeWord
  split
  · refine Kept.of_parts (State.flipDone_keep _ h0) rfl rfl rfl rfl rfl rfl rfl rfl rfl rfl rfl rfl rfl rfl (fun h => Memory.store_wf ?_) id id id
    have e : a0.flipDone.mem = a0.mem := by unfold State.flipDone; rfl
    rwa [e] at h
  · exact Kept.of_parts h0 rfl rfl rfl rfl rfl rfl rfl rfl rfl rfl rfl rfl rfl rfl Memory.store_wf id id id
theorem State.storeCheck_keep (a0 : State) (a1 : Nat) (a2 : Nat) (a3 : Nat) (h0 : Kept s₀ a0) : Kept s₀ (State.storeCheck a0 a1 a2 a3) := by
  unfold State.storeCheck
  repeat' (with_reducible first
    | assumption | refine State.flipDone_keep _ ?_ | refine ite_keep ?_ ?_ | exact id | extract_lets | intro _
    | refine Kept.of_parts ?_ rfl rfl rfl rfl rfl rfl rfl rfl rfl rfl rfl rfl rfl rfl ?_ ?_ ?_ ?_ | refine Memory.setCheck_wf ?_
    | (with_unfolding_all assumption))

theorem State.intErr_keep (a0 : State) (a1 : W16) (a2 : Nat) (a3 : Nat) (h0 : Kept s₀ a0) : Kept s₀ (State.intErr a0 a1 a2 a3) := by
  unfold State.intErr
  repeat' (with_reducible first
    | assumption | refine State.logDev_keep _ _ _ _ ?_ | refine State.setReg_keep _ _ _ ?_ | refine State.errReg_keep _ _ _ ?_
    | refine ite_keep ?_ ?_)

theorem State.openRow_keep (a0 : State) (a1 : Nat) (h0 : Kept s₀ a0) : Kept s₀ (State.openRow a0 a1) := by
  unfold State.openRow
  repeat' (with_reducible first
    | assumption | refine State.count_keep _ _ _ ?_ | exact id | split | extract_lets | intro _
    | refine Kept.of_parts ?_ rfl rfl rfl rfl rfl rfl rfl rfl rfl rfl rfl rfl rfl rfl ?_ ?_ ?_ ?_
    | refine Memory.wf_mk ?_ ?_ ?_ ?_ ?_ ?_ ?_ ?_ ?_ | refine Memory.wf_hbm ?_ | refine Memory.wf_syn ?_
    | refine Memory.wf_chk ?_ | refine Memory.wf_lines ?_ | refine Memory.wf_lineSyn ?_ | refine Memory.wf_splSyn ?_
    | refine Memory.wf_power ?_ | refine Memory.wf_retries ?_ | refine Memory.wf_rows ?_ | refine Tbl.ok_set ?_)

theorem State.openLines_keep (a0 : State) (a1 : Nat) (a2 : List Nat) (h0 : Kept s₀ a0) : Kept s₀ (State.openLines a0 a1 a2) := by
  unfold State.openLines
  repeat' (with_reducible first | assumption | refine State.openRow_keep _ _ ?_ | refine foldl_keep ?_ (fun _ _ _ => ?_))

theorem State.countRd_keep (a0 : State) (a1 : Nat) (a2 : List Nat) (a3 : Bool) (h0 : Kept s₀ a0) : Kept s₀ (State.countRd a0 a1 a2 a3) := by
  unfold State.countRd
  repeat' (with_reducible first
    | assumption | refine State.openLines_keep _ _ _ ?_ | refine State.openRow_keep _ _ ?_ | refine State.count_keep _ _ _ ?_
    | refine ite_keep ?_ ?_)

theorem State.writeWord_keep (a0 : State) (a1 : Nat) (a2 : Nat) (h0 : Kept s₀ a0) : Kept s₀ (State.writeWord a0 a1 a2) := by
  unfold State.writeWord
  repeat' (with_reducible first
    | assumption | refine State.count_keep _ _ _ ?_ | refine State.openRow_keep _ _ ?_ | refine State.storeWord_keep _ _ _ ?_)

theorem State.writeRebuilt_keep (a0 : State) (a1 : Nat) (a2 : List (Prod Nat Nat)) (h0 : Kept s₀ a0) : Kept s₀ (State.writeRebuilt a0 a1 a2) := by
  unfold State.writeRebuilt
  repeat' (with_reducible first
    | assumption | refine State.countEntry_keep _ _ _ _ ?_ | refine State.writeWord_keep _ _ _ ?_
    | refine foldl_keep ?_ (fun _ _ _ => ?_))

theorem State.countWord_keep (a0 : State) (a1 : Nat) (h0 : Kept s₀ a0) : Kept s₀ (State.countWord a0 a1) := by
  unfold State.countWord
  repeat' (with_reducible first
    | assumption | refine State.countEntry_keep _ _ _ _ ?_ | refine State.intErr_keep _ _ _ _ ?_ | split)

theorem State.checkWord_keep (a0 : State) (a1 : Bool) (a2 : Nat) (h0 : Kept s₀ a0) : Kept s₀ (State.checkWord a0 a1 a2) := by
  unfold State.checkWord
  repeat' (with_reducible first
    | assumption | refine State.countWord_keep _ _ ?_ | refine State.writeWord_keep _ _ _ ?_ | refine ite_keep ?_ ?_ | split)

theorem State.checkPair_keep (a0 : State) (a1 : Bool) (a2 : Nat) (h0 : Kept s₀ a0) : Kept s₀ (State.checkPair a0 a1 a2) := by
  unfold State.checkPair
  repeat' (with_reducible first
    | assumption | refine State.countEntry_keep _ _ _ _ ?_ | refine ite_keep ?_ ?_ | exact id | split | extract_lets | intro _
    | refine Kept.of_parts ?_ rfl rfl rfl rfl rfl rfl rfl rfl rfl rfl rfl rfl rfl rfl ?_ ?_ ?_ ?_
    | refine Memory.wf_mk ?_ ?_ ?_ ?_ ?_ ?_ ?_ ?_ ?_ | refine Memory.wf_hbm ?_ | refine Memory.wf_syn ?_
    | refine Memory.wf_chk ?_ | refine Memory.wf_lines ?_ | refine Memory.wf_lineSyn ?_ | refine Memory.wf_splSyn ?_
    | refine Memory.wf_power ?_ | refine Memory.wf_retries ?_ | refine Memory.wf_rows ?_ | refine Tbl.ok_set ?_)

theorem State.wakePc_keep (a0 : State) (a1 : Nat) (h0 : Kept s₀ a0) : Kept s₀ (State.wakePc a0 a1) := by
  unfold State.wakePc
  repeat' (with_reducible first
    | assumption | refine ite_keep ?_ ?_ | exact id | extract_lets | intro _
    | refine Kept.of_parts ?_ rfl rfl rfl rfl rfl rfl rfl rfl rfl rfl rfl rfl rfl rfl ?_ ?_ ?_ ?_
    | refine Memory.wf_mk ?_ ?_ ?_ ?_ ?_ ?_ ?_ ?_ ?_ | refine Memory.wf_hbm ?_ | refine Memory.wf_syn ?_
    | refine Memory.wf_chk ?_ | refine Memory.wf_lines ?_ | refine Memory.wf_lineSyn ?_ | refine Memory.wf_splSyn ?_
    | refine Memory.wf_power ?_ | refine Memory.wf_retries ?_ | refine Memory.wf_rows ?_ | refine Tbl.ok_set ?_)

theorem State.issueReq_keep (a0 : State) (a1 : PcReq) (h0 : Kept s₀ a0) : Kept s₀ (State.issueReq a0 a1) := by
  unfold State.issueReq
  repeat' (with_reducible first
    | assumption | refine State.count_keep _ _ _ ?_ | refine State.openRow_keep _ _ ?_ | exact id | split | extract_lets
    | intro _ | refine Kept.of_parts ?_ rfl rfl rfl rfl rfl rfl rfl rfl rfl rfl rfl rfl rfl rfl ?_ ?_ ?_ ?_
    | refine Memory.wf_mk ?_ ?_ ?_ ?_ ?_ ?_ ?_ ?_ ?_ | refine Memory.wf_hbm ?_ | refine Memory.wf_syn ?_
    | refine Memory.wf_chk ?_ | refine Memory.wf_lines ?_ | refine Memory.wf_lineSyn ?_ | refine Memory.wf_splSyn ?_
    | refine Memory.wf_power ?_ | refine Memory.wf_retries ?_ | refine Memory.wf_rows ?_ | refine Tbl.ok_set ?_)

theorem State.drainTo_keep (a0 : State) (a1 : List PcReq) (a2 : Nat) (a3 : Nat) (a4 : Nat) (h0 : Kept s₀ a0) : Kept s₀ (State.drainTo a0 a1 a2 a3 a4) := by
  induction a4 generalizing a0 with
  | zero => exact h0
  | succ n ih =>
  unfold State.drainTo
  repeat' (with_reducible first
    | assumption | refine ih _ ?_ | refine State.issueReq_keep _ _ ?_ | refine ite_keep ?_ ?_ | split)

theorem State.drainFor_keep (a0 : State) (a1 : List PcReq) (a2 : Nat) (a3 : Nat) (h0 : Kept s₀ a0) : Kept s₀ (State.drainFor a0 a1 a2 a3) := by
  induction a3 generalizing a0 with
  | zero => exact h0
  | succ n ih =>
  unfold State.drainFor
  repeat' (with_reducible first
    | assumption | refine ih _ ?_ | refine State.issueReq_keep _ _ ?_ | refine ite_keep ?_ ?_ | split)

theorem State.drainOld_keep (a0 : State) (a1 : List PcReq) (a2 : Nat) (h0 : Kept s₀ a0) : Kept s₀ (State.drainOld a0 a1 a2) := by
  unfold State.drainOld
  repeat' (with_reducible first
    | assumption | refine State.drainTo_keep _ _ _ _ _ ?_ | refine State.drainFor_keep _ _ _ _ ?_ | refine ite_keep ?_ ?_)

theorem State.drain_keep (a0 : State) (a1 : Nat) (h0 : Kept s₀ a0) : Kept s₀ (State.drain a0 a1) := by
  unfold State.drain
  repeat' (with_reducible first | assumption | refine State.drainOld_keep _ _ _ ?_)

theorem State.queueFlush_keep (a0 : State) (a1 : Mem) (a2 : Nat) (a3 : List Nat) (h0 : Kept s₀ a0) : Kept s₀ (State.queueFlush a0 a1 a2 a3) := by
  unfold State.queueFlush
  repeat' (with_reducible first
    | assumption | refine State.wakePc_keep _ _ ?_ | refine State.drain_keep _ _ ?_ | exact id | extract_lets
    | refine Kept.of_parts ?_ rfl rfl rfl rfl rfl rfl rfl rfl rfl rfl rfl rfl rfl rfl ?_ ?_ ?_ ?_)

theorem State.flushLost_keep (a0 : State) (a1 : Splice) (h0 : Kept s₀ a0) : Kept s₀ (State.flushLost a0 a1) := by
  unfold State.flushLost
  repeat' (with_reducible first
    | assumption | refine State.storeWord_keep _ _ _ ?_ | refine State.intErr_keep _ _ _ _ ?_
    | refine State.countEntry_keep _ _ _ _ ?_ | refine foldl_keep ?_ (fun _ _ _ => ?_) | refine ite_keep ?_ ?_ | exact id
    | split | extract_lets | intro _
    | refine Kept.of_parts ?_ rfl rfl rfl rfl rfl rfl rfl rfl rfl rfl rfl rfl rfl rfl ?_ ?_ ?_ ?_
    | refine Memory.poisonCheck_wf ?_ | refine Memory.poison_wf ?_)

theorem State.readRest_keep (a0 : State) (a1 : Splice) (h0 : Kept s₀ a0) : Kept s₀ (State.readRest a0 a1) := by
  unfold State.readRest
  repeat' (with_reducible first
    | assumption | refine State.checkWord_keep _ _ _ ?_ | refine State.countRd_keep _ _ _ _ ?_
    | refine foldl_keep ?_ (fun _ _ _ => ?_))

theorem State.flushWords_keep (a0 : State) (a1 : Splice) (h0 : Kept s₀ a0) : Kept s₀ (State.flushWords a0 a1) := by
  unfold State.flushWords
  repeat' (with_reducible first
    | assumption | refine State.storeCheck_keep _ _ _ _ ?_ | refine State.storeWord_keep _ _ _ ?_
    | refine foldl_keep ?_ (fun _ _ _ => ?_))

theorem State.flushClean_keep (a0 : State) (a1 : Splice) (h0 : Kept s₀ a0) : Kept s₀ (State.flushClean a0 a1) := by
  unfold State.flushClean
  repeat' (with_reducible first
    | assumption | refine State.storeCheck_keep _ _ _ _ ?_ | refine State.storeWord_keep _ _ _ ?_
    | refine State.countRd_keep _ _ _ _ ?_ | refine State.countWord_keep _ _ ?_ | refine State.checkPair_keep _ _ _ ?_
    | refine State.readRest_keep _ _ ?_ | refine State.flushLost_keep _ _ ?_ | refine State.flushWords_keep _ _ ?_
    | refine State.writeRebuilt_keep _ _ _ ?_ | refine foldl_keep ?_ (fun _ _ _ => ?_) | refine ite_keep ?_ ?_ | split
    | extract_lets)

theorem State.sramLost_keep (a0 : State) (a1 : WordRead) (a2 : Nat) (a3 : Nat) (h0 : Kept s₀ a0) : Kept s₀ (State.sramLost a0 a1 a2 a3) := by
  unfold State.sramLost
  repeat' (with_reducible first | assumption | refine State.intErr_keep _ _ _ _ ?_ | refine State.countEntry_keep _ _ _ _ ?_)

theorem State.sramPass_keep (a0 : State) (a1 : WordRead) (a2 : Nat) (a3 : Nat) (h0 : Kept s₀ a0) : Kept s₀ (State.sramPass a0 a1 a2 a3) := by
  unfold State.sramPass
  repeat' (with_reducible first
    | assumption | refine State.countEntry_keep _ _ _ _ ?_ | refine State.sramLost_keep _ _ _ _ ?_ | split)

theorem State.flush_keep (a0 : State) (a1 : Splice) (h0 : Kept s₀ a0) : Kept s₀ (State.flush a0 a1) := by
  unfold State.flush
  repeat' (with_reducible first
    | assumption | refine State.flushClean_keep _ _ ?_ | refine State.sramPass_keep _ _ _ _ ?_
    | refine State.queueFlush_keep _ _ _ _ ?_ | refine foldl_keep ?_ (fun _ _ _ => ?_) | exact id | extract_lets | intro _
    | refine Kept.of_parts ?_ rfl rfl rfl rfl rfl rfl rfl rfl rfl rfl rfl rfl rfl rfl ?_ ?_ ?_ ?_
    | refine foldl_wf ?_ (fun _ _ _ => ?_) | refine Memory.poison_wf ?_ | refine Memory.wf_mk ?_ ?_ ?_ ?_ ?_ ?_ ?_ ?_ ?_
    | refine Memory.wf_hbm ?_ | refine Memory.wf_syn ?_ | refine Memory.wf_chk ?_ | refine Memory.wf_lines ?_
    | refine Memory.wf_lineSyn ?_ | refine Memory.wf_splSyn ?_ | refine Memory.wf_power ?_ | refine Memory.wf_retries ?_
    | refine Memory.wf_rows ?_ | refine Tbl.ok_clear ?_)

theorem State.healWord_keep (a0 : State) (a1 : Splice) (a2 : Nat) (a3 : List (Option Byte)) (a4 : Nat) (h0 : Kept s₀ a0) : Kept s₀ (State.healWord a0 a1 a2 a3 a4).1 := by
  unfold State.healWord
  repeat' (with_reducible first
    | assumption | refine State.sramPass_keep _ _ _ _ ?_ | exact id | split | extract_lets | intro _
    | refine Kept.of_parts ?_ rfl rfl rfl rfl rfl rfl rfl rfl rfl rfl rfl rfl rfl rfl ?_ ?_ ?_ ?_
    | refine Memory.wf_mk ?_ ?_ ?_ ?_ ?_ ?_ ?_ ?_ ?_ | refine Memory.wf_hbm ?_ | refine Memory.wf_syn ?_
    | refine Memory.wf_chk ?_ | refine Memory.wf_lines ?_ | refine Memory.wf_lineSyn ?_ | refine Memory.wf_splSyn ?_
    | refine Memory.wf_power ?_ | refine Memory.wf_retries ?_ | refine Memory.wf_rows ?_ | refine Tbl.ok_set ?_)

theorem State.healEntry_keep (a0 : State) (a1 : Splice) (a2 : Nat) (a3 : List (Option Byte)) (h0 : Kept s₀ a0) : Kept s₀ (State.healEntry a0 a1 a2 a3).1 := by
  unfold State.healEntry
  repeat' (with_reducible first | assumption | refine State.healWord_keep _ _ _ _ _ ?_ | refine foldl_fst ?_ (fun _ _ _ => ?_))

theorem State.splicePut_keep (a0 : State) (a1 : Nat) (a2 : Nat) (a3 : List (Option Byte)) (h0 : Kept s₀ a0) : Kept s₀ (State.splicePut a0 a1 a2 a3) := by
  unfold State.splicePut
  repeat' (with_reducible first
    | assumption | refine State.healEntry_keep _ _ _ _ ?_ | refine State.flipDone_keep _ ?_ | refine ite_keep ?_ ?_ | exact id
    | extract_lets | intro _ | refine Kept.of_parts ?_ rfl rfl rfl rfl rfl rfl rfl rfl rfl rfl rfl rfl rfl rfl ?_ ?_ ?_ ?_
    | refine Memory.putEntry_wf ?_ | (with_unfolding_all assumption) | refine Memory.wf_mk ?_ ?_ ?_ ?_ ?_ ?_ ?_ ?_ ?_
    | refine Memory.wf_hbm ?_ | refine Memory.wf_syn ?_ | refine Memory.wf_chk ?_ | refine Memory.wf_lines ?_
    | refine Memory.wf_lineSyn ?_ | refine Memory.wf_splSyn ?_ | refine Memory.wf_power ?_ | refine Memory.wf_retries ?_
    | refine Memory.wf_rows ?_ | refine Tbl.ok_set ?_)

theorem State.flushEntry_keep (a0 : State) (a1 : Splice) (h0 : Kept s₀ a0) : Kept s₀ (State.flushEntry a0 a1) := by
  unfold State.flushEntry
  repeat' (with_reducible first
    | assumption | refine State.flush_keep _ _ ?_ | exact id | extract_lets
    | refine Kept.of_parts ?_ rfl rfl rfl rfl rfl rfl rfl rfl rfl rfl rfl rfl rfl rfl ?_ ?_ ?_ ?_)

theorem State.flushFull_keep (a0 : State) (a1 : Nat) (h0 : Kept s₀ a0) : Kept s₀ (State.flushFull a0 a1) := by
  unfold State.flushFull
  repeat' (with_reducible first | assumption | refine State.flushEntry_keep _ _ ?_ | refine ite_keep ?_ ?_ | split)

theorem State.setLine_keep (a0 : State) (a1 : Nat) (a2 : Line) (a3 : Nat) (a4 : Byte) (h0 : Kept s₀ a0) : Kept s₀ (State.setLine a0 a1 a2 a3 a4) := by
  unfold State.setLine
  repeat' (with_reducible first
    | assumption | exact id | extract_lets | intro _
    | refine Kept.of_parts ?_ rfl rfl rfl rfl rfl rfl rfl rfl rfl rfl rfl rfl rfl rfl ?_ ?_ ?_ ?_
    | refine Memory.wf_mk ?_ ?_ ?_ ?_ ?_ ?_ ?_ ?_ ?_ | refine Memory.wf_hbm ?_ | refine Memory.wf_syn ?_
    | refine Memory.wf_chk ?_ | refine Memory.wf_lines ?_ | refine Memory.wf_lineSyn ?_ | refine Memory.wf_splSyn ?_
    | refine Memory.wf_power ?_ | refine Memory.wf_retries ?_ | refine Memory.wf_rows ?_ | refine Tbl.ok_set ?_)

theorem State.linePut_keep (a0 : State) (a1 : Line) (a2 : Nat) (a3 : List Byte) (h0 : Kept s₀ a0) : Kept s₀ (State.linePut a0 a1 a2 a3) := by
  unfold State.linePut
  repeat' (with_reducible first
    | assumption | refine State.sramPass_keep _ _ _ _ ?_ | refine State.setLine_keep _ _ _ _ _ ?_
    | refine State.flipDone_keep _ ?_ | refine ite_keep ?_ ?_)

theorem State.dropLine_keep (a0 : State) (a1 : Nat) (h0 : Kept s₀ a0) : Kept s₀ (State.dropLine a0 a1) := by
  unfold State.dropLine
  repeat' (with_reducible first
    | assumption | exact id | extract_lets | intro _
    | refine Kept.of_parts ?_ rfl rfl rfl rfl rfl rfl rfl rfl rfl rfl rfl rfl rfl rfl ?_ ?_ ?_ ?_
    | refine Memory.wf_mk ?_ ?_ ?_ ?_ ?_ ?_ ?_ ?_ ?_ | refine Memory.wf_hbm ?_ | refine Memory.wf_syn ?_
    | refine Memory.wf_chk ?_ | refine Memory.wf_lines ?_ | refine Memory.wf_lineSyn ?_ | refine Memory.wf_splSyn ?_
    | refine Memory.wf_power ?_ | refine Memory.wf_retries ?_ | refine Memory.wf_rows ?_ | refine Tbl.ok_set ?_
    | refine Tbl.ok_clear ?_)

theorem State.putAround_keep (a0 : State) (a1 : Nat) (a2 : List Byte) (h0 : Kept s₀ a0) : Kept s₀ (State.putAround a0 a1 a2) := by
  unfold State.putAround
  repeat' (with_reducible first
    | assumption | refine State.wakePc_keep _ _ ?_ | refine State.flushFull_keep _ _ ?_ | refine State.splicePut_keep _ _ _ _ ?_
    | refine State.flush_keep _ _ ?_ | split | extract_lets)

theorem State.writePart_keep (a0 : State) (a1 : Nat) (a2 : List Byte) (h0 : Kept s₀ a0) : Kept s₀ (State.writePart a0 a1 a2) := by
  unfold State.writePart
  repeat' (with_reducible first
    | assumption | refine State.putAround_keep _ _ _ ?_ | refine State.dropLine_keep _ _ ?_
    | refine State.linePut_keep _ _ _ _ ?_ | refine ite_keep ?_ ?_ | split)

theorem State.writeParts_keep (a0 : State) (a1 : Nat) (a2 : List Byte) (a3 : Nat) (h0 : Kept s₀ a0) : Kept s₀ (State.writeParts a0 a1 a2 a3) := by
  induction a3 generalizing a0 a1 a2 with
  | zero => exact h0
  | succ n ih =>
  unfold State.writeParts
  repeat' (with_reducible first
    | assumption | refine ih _ _ _ ?_ | refine State.writePart_keep _ _ _ ?_ | refine ite_keep ?_ ?_)

theorem State.memWrite_keep (a0 : State) (a1 : Nat) (a2 : List Byte) (h0 : Kept s₀ a0) : OptAll (Kept s₀) (State.memWrite a0 a1 a2) := by
  unfold State.memWrite
  repeat' (with_reducible first
    | assumption | refine State.writeParts_keep _ _ _ _ ?_ | refine OptAll.some ?_ | exact OptAll.none | split)

theorem State.memPut_keep (a0 : State) (a1 : Nat) (a2 : List Byte) (h0 : Kept s₀ a0) : Kept s₀ (State.memPut a0 a1 a2) := by
  unfold State.memPut
  repeat' (with_reducible first | assumption | refine State.memWrite_keep _ _ _ ?_ | refine OptAll.getD ?_ ?_)

/-! ### Memory -/

theorem State.spliceMask_keep (a0 : State) (a1 : Nat) (a2 : List (Option Byte)) (h0 : Kept s₀ a0) : Kept s₀ (State.spliceMask a0 a1 a2) := by
  unfold State.spliceMask
  repeat' (with_reducible first
    | assumption | refine State.flushEntry_keep _ _ ?_ | refine State.countEntry_keep _ _ _ _ ?_
    | refine State.flushFull_keep _ _ ?_ | refine State.splicePut_keep _ _ _ _ ?_ | refine ite_keep ?_ ?_ | split)

theorem State.spliceBytes_keep (a0 : State) (a1 : Nat) (a2 : List Byte) (h0 : Kept s₀ a0) : Kept s₀ (State.spliceBytes a0 a1 a2) := by
  unfold State.spliceBytes
  repeat' (with_reducible first | assumption | refine State.spliceMask_keep _ _ _ ?_)

theorem State.poisonWord_keep (a0 : State) (a1 : Nat) (h0 : Kept s₀ a0) : Kept s₀ (State.poisonWord a0 a1) := by
  unfold State.poisonWord
  split
  · exact Kept.setMem h0 Memory.setSplSyn_wf
  · exact Kept.setMem h0 Memory.poison_wf
theorem State.splicePoison_keep (a0 : State) (a1 : Nat) (h0 : Kept s₀ a0) : Kept s₀ (State.splicePoison a0 a1) := by
  unfold State.splicePoison
  repeat' (with_reducible first | assumption | refine State.poisonWord_keep _ _ ?_ | refine State.spliceBytes_keep _ _ _ ?_)

theorem State.writeBack_keep (a0 : State) (a1 : Nat) (a2 : Line) (h0 : Kept s₀ a0) : Kept s₀ (State.writeBack a0 a1 a2) := by
  unfold State.writeBack
  repeat' (with_reducible first
    | assumption | refine State.count_keep _ _ _ ?_ | refine State.sramPass_keep _ _ _ _ ?_
    | refine State.spliceMask_keep _ _ _ ?_ | refine State.splicePoison_keep _ _ ?_ | refine foldl_keep ?_ (fun _ _ _ => ?_)
    | refine ite_keep ?_ ?_ | split)

theorem State.evictLine_keep (a0 : State) (a1 : Nat) (h0 : Kept s₀ a0) : Kept s₀ (State.evictLine a0 a1) := by
  unfold State.evictLine
  repeat' (with_reducible first
    | assumption | refine State.dropLine_keep _ _ ?_ | refine State.writeBack_keep _ _ _ ?_ | refine ite_keep ?_ ?_ | split)

theorem State.victim_keep (a0 : State) (a1 : Nat) (a2 : Nat) (h0 : Kept s₀ a0) : OptAll (fun p => Kept s₀ p.2) (State.victim a0 a1 a2) := by
  unfold State.victim
  repeat' (with_reducible first
    | assumption | refine State.evictLine_keep _ _ ?_ | refine OptAll.map (Q := fun _ => True) OptAll.any (fun _ _ => ?_)
    | refine ite_keep ?_ ?_ | exact id | split | extract_lets | intro _
    | refine Kept.of_parts ?_ rfl rfl rfl rfl rfl rfl rfl rfl rfl rfl rfl rfl rfl rfl ?_ ?_ ?_ ?_
    | refine Memory.wf_mk ?_ ?_ ?_ ?_ ?_ ?_ ?_ ?_ ?_ | refine Memory.wf_hbm ?_ | refine Memory.wf_syn ?_
    | refine Memory.wf_chk ?_ | refine Memory.wf_lines ?_ | refine Memory.wf_lineSyn ?_ | refine Memory.wf_splSyn ?_
    | refine Memory.wf_power ?_ | refine Memory.wf_retries ?_ | refine Memory.wf_rows ?_ | refine Tbl.ok_set ?_
    | refine Tbl.ok_foldl ?_ (fun _ _ _ => ?_))

theorem State.countFill_keep (a0 : State) (a1 : Requester) (h0 : Kept s₀ a0) : Kept s₀ (State.countFill a0 a1) := by
  unfold State.countFill
  repeat' (with_reducible first | assumption | refine State.count_keep _ _ _ ?_ | split)

theorem State.fillLine_keep (a0 : State) (a1 : Requester) (a2 : Nat) (h0 : Kept s₀ a0) : Kept s₀ (State.fillLine a0 a1 a2) := by
  unfold State.fillLine
  repeat' (with_reducible first
    | assumption | refine State.countEntry_keep _ _ _ _ ?_ | refine OptAll.elim3 (State.victim_keep _ _ _ ?_) ‹_ = some _›
    | refine State.countFill_keep _ _ ?_ | refine foldl_keep ?_ (fun _ _ _ => ?_) | refine ite_keep ?_ ?_ | exact id | split
    | extract_lets | intro _ | refine Kept.of_parts ?_ rfl rfl rfl rfl rfl rfl rfl rfl rfl rfl rfl rfl rfl rfl ?_ ?_ ?_ ?_
    | refine Memory.wf_mk ?_ ?_ ?_ ?_ ?_ ?_ ?_ ?_ ?_ | refine Memory.wf_hbm ?_ | refine Memory.wf_syn ?_
    | refine Memory.wf_chk ?_ | refine Memory.wf_lines ?_ | refine Memory.wf_lineSyn ?_ | refine Memory.wf_splSyn ?_
    | refine Memory.wf_power ?_ | refine Memory.wf_retries ?_ | refine Memory.wf_rows ?_ | refine Tbl.ok_set ?_
    | refine Tbl.ok_clear ?_)

theorem State.checkSplice_keep (a0 : State) (a1 : List Nat) (h0 : Kept s₀ a0) : Kept s₀ (State.checkSplice a0 a1) := by
  unfold State.checkSplice
  refine foldl_keep h0 (fun s w h => ?_)
  split
  · exact h
  · split
    · exact h
    · extract_lets r
      split
      · exact State.sramLost_keep _ _ _ _ h
      · exact Kept.setMem (State.countEntry_keep _ _ _ _ h) (fun hm => Memory.setSplSyn_wf (m := { s.mem with splice := _ }) hm)
theorem State.readLine_keep (a0 : State) (a1 : Requester) (a2 : Nat) (h0 : Kept s₀ a0) : Kept s₀ (State.readLine a0 a1 a2) := by
  unfold State.readLine
  extract_lets pc ws s q s'
  have h : Kept s₀ s := State.wakePc_keep _ _ h0
  clear_value s
  split
  · exact h0
  · split
    · exact State.fillLine_keep _ _ _ (State.checkSplice_keep _ _ h)
    · exact State.drain_keep _ _ (Kept.setMem (ite_keep (State.count_keep _ _ _ h) h) id)
theorem State.mendLine_keep (a0 : State) (a1 : Nat) (a2 : Nat) (a3 : Nat) (h0 : Kept s₀ a0) : Kept s₀ (State.mendLine a0 a1 a2 a3) := by
  unfold State.mendLine
  repeat' (with_reducible first
    | assumption | refine State.setLine_keep _ _ _ _ _ ?_ | refine State.countEntry_keep _ _ _ _ ?_
    | refine State.sramLost_keep _ _ _ _ ?_ | refine State.evictLine_keep _ _ ?_ | refine foldl_keep ?_ (fun _ _ _ => ?_)
    | refine ite_keep ?_ ?_ | split)

theorem execCacheRead_keep (a0 : Requester) (a1 a2 : Nat) (a3 : State) (h0 : Kept s₀ a3) : OutAll (Kept s₀) (execCacheRead a0 a1 a2 a3) := by
  unfold execCacheRead
  extract_lets la n s1
  have h1 : Kept s₀ s1 := State.count_keep _ _ _ h0
  clear_value s1
  split
  · exact OutAll.go h0
  split
  · exact OutAll.go (State.readLine_keep _ _ _ (State.count_keep _ _ _ h0))
  · extract_lets s2 s3
    have h2 : Kept s₀ s2 := Kept.of_parts h1 rfl rfl rfl rfl rfl rfl rfl rfl rfl rfl rfl rfl rfl rfl (fun hm =>
      Memory.wf_mk (Memory.wf_hbm hm) (Memory.wf_syn hm) (Memory.wf_chk hm) (Tbl.ok_set (Memory.wf_lines hm))
        (Memory.wf_lineSyn hm) (Memory.wf_splSyn hm) (Memory.wf_power hm) (Memory.wf_retries hm) (Memory.wf_rows hm)) id id id
    have h3 : Kept s₀ s3 := State.mendLine_keep _ _ _ _ h2
    split
    · exact OutAll.go (ite_keep h3 (State.readLine_keep _ _ _ h3))
    · exact OutAll.go (ite_keep h3 (State.readLine_keep _ _ _ h3))
theorem State.cacheWrite_keep (a0 : State) (a1 : Requester) (a2 : Nat) (a3 : List Byte) (h0 : Kept s₀ a0) :
    Kept s₀ (State.cacheWrite a0 a1 a2 a3) := by
  unfold State.cacheWrite
  extract_lets la s1 pc
  have h1 : Kept s₀ s1 := State.count_keep _ _ _ h0
  clear_value s1
  split
  · exact State.writeParts_keep _ _ _ _ (State.count_keep _ _ _ h0)
  · split
    · next w t e =>
      have h : Kept s₀ t := by
        cases a1 with
        | herd k => exact OptAll.elim3 (State.victim_keep _ _ _ h1) e
        | _ => cases e
      extract_lets u v
      have hu : Kept s₀ u := State.countFill_keep _ _ h
      clear_value u
      refine State.writeParts_keep _ _ _ _ (Kept.of_parts hu rfl rfl rfl rfl rfl rfl
        rfl rfl rfl rfl rfl rfl rfl rfl (fun h => ?_) id id id)
      exact ⟨h.1, h.2.1, h.2.2.1, Tbl.ok_set h.2.2.2.1, h.2.2.2.2⟩
    · split
      · exact h1
      · exact State.spliceBytes_keep _ _ _ (State.wakePc_keep _ _ (State.count_keep _ _ _ h1))
theorem execCacheWrite_keep (a0 : Requester) (a1 : Nat) (a2 : List Byte) (a3 : State) (h0 : Kept s₀ a3) : OutAll (Kept s₀) (execCacheWrite a0 a1 a2 a3) := by
  unfold execCacheWrite
  repeat' (with_reducible first
    | assumption | refine OutAll.go ?_ | refine State.cacheWrite_keep _ _ _ _ ?_ | refine ite_out ?_ ?_)

theorem execCacheAtomic_keep (a0 : Nat) (a1 : W64) (a2 : State) (h0 : Kept s₀ a2) : OutAll (Kept s₀) (execCacheAtomic a0 a1 a2) := by
  unfold execCacheAtomic
  repeat' (with_reducible first
    | assumption | refine OutAll.go ?_ | refine State.count_keep _ _ _ ?_ | refine State.memPut_keep _ _ _ ?_ | split)

theorem State.returned_keep (a0 : State) (a1 : PcReq) (h0 : Kept s₀ a0) : Kept s₀ (State.returned a0 a1) := by
  unfold State.returned
  extract_lets s
  have h : Kept s₀ s := State.checkSplice_keep _ _ (foldl_keep h0 fun _ _ h => State.checkWord_keep _ _ _ h)
  clear_value s
  split
  · exact Kept.setMem h id
  · exact State.fillLine_keep _ _ _ h
theorem execCacheFill_keep (a0 : PcId) (a1 : Nat) (a2 : State) (h0 : Kept s₀ a2) : OutAll (Kept s₀) (execCacheFill a0 a1 a2) := by
  unfold execCacheFill
  repeat' (with_reducible first
    | assumption | refine OutAll.go ?_ | refine State.count_keep _ _ _ ?_ | refine State.drainOld_keep _ _ _ ?_
    | refine State.returned_keep _ _ ?_ | refine State.issueReq_keep _ _ ?_ | refine ite_keep ?_ ?_ | split | extract_lets)

theorem State.serveQueues_keep (a0 : State) (h0 : Kept s₀ a0) : Kept s₀ (State.serveQueues a0) := by
  unfold State.serveQueues
  repeat' (with_reducible first
    | assumption | refine State.drain_keep _ _ ?_ | refine State.returned_keep _ _ ?_ | refine State.issueReq_keep _ _ ?_
    | refine foldl_keep ?_ (fun _ _ _ => ?_))

theorem execRefresh_keep (a0 : PcId) (a1 : State) (h0 : Kept s₀ a1) : OutAll (Kept s₀) (execRefresh a0 a1) := by
  unfold execRefresh
  repeat' (with_reducible first
    | assumption | refine OutAll.go ?_ | refine State.count_keep _ _ _ ?_ | exact id | split | extract_lets | intro _
    | refine Kept.of_parts ?_ rfl rfl rfl rfl rfl rfl rfl rfl rfl rfl rfl rfl rfl rfl ?_ ?_ ?_ ?_
    | refine Memory.wf_mk ?_ ?_ ?_ ?_ ?_ ?_ ?_ ?_ ?_ | refine Memory.wf_hbm ?_ | refine Memory.wf_syn ?_
    | refine Memory.wf_chk ?_ | refine Memory.wf_lines ?_ | refine Memory.wf_lineSyn ?_ | refine Memory.wf_splSyn ?_
    | refine Memory.wf_power ?_ | refine Memory.wf_retries ?_ | refine Memory.wf_rows ?_ | refine Tbl.ok_set ?_
    | refine Tbl.ok_clear ?_)

theorem State.wakeSteady_keep (a0 : State) (h0 : Kept s₀ a0) : Kept s₀ (State.wakeSteady a0) := by
  unfold State.wakeSteady
  repeat' (with_reducible first
    | assumption | refine ite_keep ?_ ?_ | exact id | extract_lets | intro _
    | refine Kept.of_parts ?_ rfl rfl rfl rfl rfl rfl rfl rfl rfl rfl rfl rfl rfl rfl ?_ ?_ ?_ ?_
    | refine Memory.wf_mk ?_ ?_ ?_ ?_ ?_ ?_ ?_ ?_ ?_ | refine Memory.wf_hbm ?_ | refine Memory.wf_syn ?_
    | refine Memory.wf_chk ?_ | refine Memory.wf_lines ?_ | refine Memory.wf_lineSyn ?_ | refine Memory.wf_splSyn ?_
    | refine Memory.wf_power ?_ | refine Memory.wf_retries ?_ | refine Memory.wf_rows ?_ | refine Tbl.ok_filter ?_)

theorem execSelfRefreshEntry_keep (a0 : PcId) (a1 : State) (h0 : Kept s₀ a1) : OutAll (Kept s₀) (execSelfRefreshEntry a0 a1) := by
  unfold execSelfRefreshEntry
  repeat' (with_reducible first
    | assumption | refine OutAll.go ?_ | refine State.count_keep _ _ _ ?_ | refine ite_out ?_ ?_ | exact id | split
    | extract_lets | intro _ | refine Kept.of_parts ?_ rfl rfl rfl rfl rfl rfl rfl rfl rfl rfl rfl rfl rfl rfl ?_ ?_ ?_ ?_
    | refine Memory.wf_mk ?_ ?_ ?_ ?_ ?_ ?_ ?_ ?_ ?_ | refine Memory.wf_hbm ?_ | refine Memory.wf_syn ?_
    | refine Memory.wf_chk ?_ | refine Memory.wf_lines ?_ | refine Memory.wf_lineSyn ?_ | refine Memory.wf_splSyn ?_
    | refine Memory.wf_power ?_ | refine Memory.wf_retries ?_ | refine Memory.wf_rows ?_ | refine Tbl.ok_set ?_
    | refine Tbl.ok_clear ?_)

theorem execPowerDownEntry_keep (a0 : PcId) (a1 : State) (h0 : Kept s₀ a1) : OutAll (Kept s₀) (execPowerDownEntry a0 a1) := by
  unfold execPowerDownEntry
  repeat' (with_reducible first
    | assumption | refine OutAll.go ?_ | refine ite_out ?_ ?_ | exact id | split | extract_lets | intro _
    | refine Kept.of_parts ?_ rfl rfl rfl rfl rfl rfl rfl rfl rfl rfl rfl rfl rfl rfl ?_ ?_ ?_ ?_
    | refine Memory.wf_mk ?_ ?_ ?_ ?_ ?_ ?_ ?_ ?_ ?_ | refine Memory.wf_hbm ?_ | refine Memory.wf_syn ?_
    | refine Memory.wf_chk ?_ | refine Memory.wf_lines ?_ | refine Memory.wf_lineSyn ?_ | refine Memory.wf_splSyn ?_
    | refine Memory.wf_power ?_ | refine Memory.wf_retries ?_ | refine Memory.wf_rows ?_ | refine Tbl.ok_set ?_)

theorem State.memErr_keep (a0 : State) (a1 : W16) (a2 : Nat) (h0 : Kept s₀ a0) : Kept s₀ (State.memErr a0 a1 a2) := by
  unfold State.memErr
  repeat' (with_reducible first | assumption | refine State.errReg_keep _ _ _ ?_ | refine State.logDev_keep _ _ _ _ ?_)

theorem execStackTempRead_keep (a0 : Int) (a1 : State) (h0 : Kept s₀ a1) : OutAll (Kept s₀) (execStackTempRead a0 a1) := by
  unfold execStackTempRead
  repeat' (with_reducible first
    | assumption | refine State.setEntry_keep _ _ _ _ ?_ | refine State.setField_keep _ _ _ _ _ ?_ | refine OutAll.go ?_
    | refine State.memErr_keep _ _ _ ?_ | refine ite_keep ?_ ?_ | refine ite_out ?_ ?_ | exact id | extract_lets
    | refine Kept.of_parts ?_ rfl rfl rfl rfl rfl rfl rfl rfl rfl rfl rfl rfl rfl rfl ?_ ?_ ?_ ?_)

theorem Memory.cancel_wf {m : Mem} {p : Nat} (h : Memory.wf m) : Memory.wf (m.cancel p) := by
  unfold Mem.cancel
  extract_lets undo t
  have ht : Memory.wf t := by
    refine foldl_wf h (fun m r hm => ?_)
    simp only [undo]
    have hs := foldl_wf (l := r.old) (f := fun m o => m.store o.1 o.2.1 o.2.2.toNat) hm (fun _ _ h => Memory.store_wf h)
    split
    · exact ⟨hs.1, hs.2.1, Tbl.ok_set hs.2.2.1, hs.2.2.2⟩
    · exact hs
  exact ht

theorem execCmdParityError_keep (a0 : PcId) (a1 : State) (h0 : Kept s₀ a1) : OutAll (Kept s₀) (execCmdParityError a0 a1) := by
  unfold execCmdParityError
  extract_lets n src m s v t
  split
  · exact OutAll.go h0
  · split
    · exact OutAll.go (State.count_keep _ _ _ (Kept.of_parts h0 rfl rfl rfl rfl rfl rfl rfl rfl rfl rfl rfl rfl rfl rfl (fun hm =>
        Memory.wf_mk (Memory.wf_hbm hm) (Memory.wf_syn hm) (Memory.wf_chk hm) (Memory.wf_lines hm) (Memory.wf_lineSyn hm)
          (Memory.wf_splSyn hm) (Memory.wf_power hm) (Tbl.ok_set (Memory.wf_retries hm)) (Memory.wf_rows hm)) id id id))
    · have hs : Kept s₀ s := Kept.of_parts h0 rfl rfl rfl rfl rfl rfl rfl rfl rfl rfl rfl rfl rfl rfl (fun h => by
        have hm : Memory.wf m := Memory.cancel_wf h
        exact Memory.wf_mk (Memory.wf_hbm hm) (Memory.wf_syn hm) (Memory.wf_chk hm) (Memory.wf_lines hm) (Memory.wf_lineSyn hm)
          (Tbl.ok_clear (Memory.wf_splSyn hm)) (Tbl.ok_set (Memory.wf_power hm)) (Tbl.ok_set (Memory.wf_retries hm)) (Memory.wf_rows hm)) id id id
      exact OutAll.go (State.memErr_keep _ _ _ (State.setEntry_keep _ _ _ _ (State.setReg_keep _ _ _ hs)))
theorem State.mendPage_keep (a0 : State) (a1 : Nat) (a2 : List W16) (a3 : Nat) (h0 : Kept s₀ a0) : Kept s₀ (State.mendPage a0 a1 a2 a3) := by
  unfold State.mendPage
  extract_lets e
  split
  · exact h0
  · split
    · exact State.writeRebuilt_keep _ _ _ h0
    · refine foldl_keep (State.countEntry_keep _ _ _ _ (Kept.of_parts h0 rfl rfl rfl rfl rfl rfl rfl rfl rfl rfl rfl rfl rfl rfl (fun h => ?_) id id id))
        (fun _ _ h => State.intErr_keep _ _ _ _ h)
      exact Memory.poisonCheck_wf (foldl_wf h (fun _ _ h => Memory.poison_wf h))
theorem State.endMends_keep (a0 : State) (a1 : Nat) (h0 : Kept s₀ a0) : Kept s₀ (State.endMends a0 a1) := by
  unfold State.endMends
  repeat' (with_reducible first
    | assumption | refine State.fillLine_keep _ _ _ ?_ | refine foldl_keep ?_ (fun _ _ _ => ?_) | exact id | extract_lets
    | refine Kept.of_parts ?_ rfl rfl rfl rfl rfl rfl rfl rfl rfl rfl rfl rfl rfl rfl ?_ ?_ ?_ ?_)

theorem execPageRebuild_keep (a0 : Nat) (a1 : State) (h0 : Kept s₀ a1) : OutAll (Kept s₀) (execPageRebuild a0 a1) := by
  unfold execPageRebuild
  extract_lets w page s1 rest s2
  have h1 : Kept s₀ s1 := State.wakePc_keep _ _ h0
  clear_value s1 rest
  have h2 : Kept s₀ s2 := foldl_keep (State.checkPair_keep _ _ _ (State.countRd_keep _ _ _ _ h1)) (fun _ _ h => State.checkWord_keep _ _ _ h)
  clear_value s2
  split
  · exact OutAll.go h0
  split
  · exact OutAll.go h0
  · exact OutAll.go (State.endMends_keep _ _ (State.mendPage_keep _ _ _ _ h2))
theorem execSpliceWrite_keep (a0 : Nat) (a1 : List Byte) (a2 : State) (h0 : Kept s₀ a2) : OutAll (Kept s₀) (execSpliceWrite a0 a1 a2) := by
  unfold execSpliceWrite
  repeat' (with_reducible first
    | assumption | refine OutAll.go ?_ | refine State.spliceBytes_keep _ _ _ ?_ | refine State.wakePc_keep _ _ ?_
    | refine ite_out ?_ ?_)

theorem execSpliceHoldExpiry_keep (a0 : Nat) (a1 : State) (h0 : Kept s₀ a1) : OutAll (Kept s₀) (execSpliceHoldExpiry a0 a1) := by
  unfold execSpliceHoldExpiry
  repeat' (with_reducible first | assumption | refine OutAll.go ?_ | refine State.flushEntry_keep _ _ ?_ | split)

theorem State.flushAll_keep (a0 : State) (h0 : Kept s₀ a0) : Kept s₀ (State.flushAll a0) := by
  unfold State.flushAll
  repeat' (with_reducible first
    | assumption | refine State.flush_keep _ _ ?_ | refine foldl_keep ?_ (fun _ _ _ => ?_) | exact id | extract_lets
    | refine Kept.of_parts ?_ rfl rfl rfl rfl rfl rfl rfl rfl rfl rfl rfl rfl rfl rfl ?_ ?_ ?_ ?_)

theorem State.writeBackAll_keep (a0 : State) (h0 : Kept s₀ a0) : Kept s₀ (State.writeBackAll a0) := by
  unfold State.writeBackAll
  repeat' (with_reducible first | assumption | refine State.evictLine_keep _ _ ?_ | refine foldl_keep ?_ (fun _ _ _ => ?_))

theorem Memory.mendCheck_wf {m : Mem} {page p q : Nat} (h : Memory.wf m) : Memory.wf (m.mendCheck page p q) :=
  ⟨h.1, h.2.1, Tbl.ok_set h.2.2.1, h.2.2.2⟩

theorem execScrubPage_keep (a0 : State) (h0 : Kept s₀ a0) : OutAll (Kept s₀) (execScrubPage a0) := by
  unfold execScrubPage
  split
  · exact OutAll.go h0
  · extract_lets n pc page last src s1 s2 s3 stored before s4 s5 s6 ws
    have h3 : Kept s₀ s3 := by
      have h2 : Kept s₀ s2 := State.setReg_keep _ _ _ (Kept.setMem h0 id)
      exact ite_keep (State.countEntry_keep _ _ _ _ h2) h2
    have h6 : Kept s₀ s6 := State.mendPage_keep _ _ _ _ (foldl_keep (State.checkPair_keep _ _ _ (State.countRd_keep _ _ _ _
      (State.wakePc_keep _ _ h3))) fun _ _ h => State.checkWord_keep _ _ _ h)
    clear_value s3 s6 before ws
    split
    · exact OutAll.go (State.countEntry_keep _ _ _ _ h3)
    · split
      split
      split
      · split
        · exact OutAll.go h6
        · split
          · exact OutAll.go (State.intErr_keep _ _ _ _ (State.countEntry_keep _ _ _ _ (State.writeWord_keep _ _ _ h6)))
          · exact OutAll.go (State.intErr_keep _ _ _ _ (State.countEntry_keep _ _ _ _ h6))
      · exact OutAll.go (ite_keep (State.count_keep _ _ _ (State.openRow_keep _ _ (Kept.setMem h6 Memory.mendCheck_wf))) h6)
theorem State.setIb_keep (a0 : State) (a1 : Nat) (a2 : Ibex) (h0 : Kept s₀ a0) (h1 : a0.Inv → a2.ok) : Kept s₀ (State.setIb a0 a1 a2) :=
  Kept.of_inv h0 (fun h => { h with
    ibex := Tbl.ok_set h.ibex, ibexes := fun e he => (Tbl.mem_set he).elim (fun x => x ▸ h1 h) (h.ibexes e) }) rfl rfl rfl
/-- The memories of a cluster are in canonical form. -/
theorem State.Inv.ib {s : State} (h : s.Inv) (n : Nat) : (s.ib n).ok := Tbl.get_all Ibex.ok_empty h.ibexes n

theorem State.modIb_keep (a0 : State) (a1 : Nat) (a2 : Ibex → Ibex) (h0 : Kept s₀ a0) (h1 : ∀ i, i.ok → (a2 i).ok) :
    Kept s₀ (State.modIb a0 a1 a2) := State.setIb_keep _ _ _ h0 (fun h => h1 _ (h.ib a1))
theorem State.flipSpm_keep (a0 : State) (a1 : Nat) (a2 : Nat) (a3 : Nat) (h0 : Kept s₀ a0) : Kept s₀ (State.flipSpm a0 a1 a2 a3) := by
  unfold State.flipSpm
  repeat' (with_reducible first
    | assumption | refine State.modIb_keep _ _ _ ?_ ?_ | refine State.flipDone_keep _ ?_ | refine ite_keep ?_ ?_ | extract_lets
    | intro _ | refine Ibex.ok_mk ?_ ?_ ?_ ?_ ?_ ?_ | refine Ibex.ok.spm ?_ | refine Ibex.ok.spmSyn ?_ | refine Ibex.ok.acc ?_
    | refine Ibex.ok.accSyn ?_ | refine Ibex.ok.slots ?_ | refine Ibex.ok.regions ?_ | refine Tbl.ok_set ?_
    | refine Tbl.ok_setList ?_)

theorem State.flipAcc_keep (a0 : State) (a1 : Nat) (a2 : Nat) (a3 : Nat) (a4 : Nat) (a5 : Nat) (h0 : Kept s₀ a0) : Kept s₀ (State.flipAcc a0 a1 a2 a3 a4 a5) := by
  unfold State.flipAcc
  repeat' (with_reducible first
    | assumption | refine State.modIb_keep _ _ _ ?_ ?_ | refine State.flipDone_keep _ ?_ | refine ite_keep ?_ ?_ | extract_lets
    | intro _ | refine Ibex.ok_mk ?_ ?_ ?_ ?_ ?_ ?_ | refine Ibex.ok.spm ?_ | refine Ibex.ok.spmSyn ?_ | refine Ibex.ok.acc ?_
    | refine Ibex.ok.accSyn ?_ | refine Ibex.ok.slots ?_ | refine Ibex.ok.regions ?_ | refine Tbl.ok_set ?_
    | refine Tbl.ok_setList ?_)

theorem State.flipRefuse_keep (a0 : State) (a1 : W16) (a2 : Nat) (h0 : Kept s₀ a0) : Kept s₀ (State.flipRefuse a0 a1 a2) := by
  unfold State.flipRefuse
  repeat' (with_reducible first
    | assumption | refine State.logErr_keep _ _ _ _ _ _ _ ?_ | refine State.setReg_keep _ _ _ ?_
    | refine State.errReg_keep _ _ _ ?_ | refine ite_keep ?_ ?_)

theorem State.flipWrite_keep (a0 : State) (a1 : Nat) (h0 : Kept s₀ a0) : Kept s₀ (State.flipWrite a0 a1) := by
  unfold State.flipWrite
  repeat' (with_reducible first
    | assumption | refine State.flipRefuse_keep _ _ _ ?_ | refine State.setReg_keep _ _ _ ?_ | refine ite_keep ?_ ?_)

theorem execFlipArm_keep (a0 : Fn) (a1 : W32) (a2 : State) (h0 : Kept s₀ a2) : OutAll (Kept s₀) (execFlipArm a0 a1 a2) := by
  unfold execFlipArm
  repeat' (with_reducible first
    | assumption | refine State.hostAct_keep _ _ _ _ ?_ ?_ | refine State.flipWrite_keep _ _ ?_ | exact id | split | intro _)

/-! ### Pools -/

theorem State.setBuf_keep (a0 : State) (a1 a2 : Nat) (a3 : Buf) (h0 : Kept s₀ a0) : Kept s₀ (State.setBuf a0 a1 a2 a3) :=
  Kept.of_inv h0 (fun h => { h with coil := ⟨h.coil.buffers, h.coil.bases, Tbl.ok_set h.coil.bufs, h.coil.resv⟩ }) rfl rfl rfl
theorem State.setResv_keep (a0 : State) (a1 : Nat) (a2 : Nat) (a3 : Nat) (h0 : Kept s₀ a0) : Kept s₀ (State.setResv a0 a1 a2 a3) := by
  unfold State.setResv
  repeat' (with_reducible first
    | assumption | exact id | extract_lets | intro _
    | refine Kept.of_parts ?_ rfl rfl rfl rfl rfl rfl rfl rfl rfl rfl rfl rfl rfl rfl ?_ ?_ ?_ ?_
    | refine Coil.ok_mk ?_ ?_ ?_ ?_ | refine Coil.ok.buffers ?_ | refine Coil.ok.bases ?_ | refine Coil.ok.bufs ?_
    | refine Coil.ok.resv ?_ | refine Tbl.ok_set ?_)

theorem Memory.zeroPage_wf {m : Mem} {p : Nat} (h : Memory.wf m) : Memory.wf (m.zeroPage p) :=
  ⟨Tbl.ok_clear h.1, Tbl.ok_clear h.2.1, Tbl.ok_set h.2.2.1, h.2.2.2.1, h.2.2.2.2.1, Tbl.ok_clear h.2.2.2.2.2.1, h.2.2.2.2.2.2⟩

theorem State.zeroPage_keep (a0 : State) (a1 : Nat) (h0 : Kept s₀ a0) : Kept s₀ (State.zeroPage a0 a1) := by
  unfold State.zeroPage
  extract_lets target s
  have h : Kept s₀ s := Kept.setMem h0 Memory.zeroPage_wf
  clear_value s target
  exact ite_keep (State.flushFull_keep _ _ (State.splicePut_keep _ _ _ _ h))
    (State.count_keep _ _ _ (State.openRow_keep _ _ (State.openLines_keep _ _ _ h)))
theorem State.zeroRange_keep (a0 : State) (a1 a2 : Nat) (h0 : Kept s₀ a0) : Kept s₀ (State.zeroRange a0 a1 a2) := by
  unfold State.zeroRange
  extract_lets s
  have h : Kept s₀ s := foldl_keep h0 fun _ _ h => State.zeroPage_keep _ _ h
  exact Kept.setMem h fun hm => ⟨hm.1, hm.2.1, hm.2.2.1, Tbl.ok_clear hm.2.2.2.1, Tbl.ok_clear hm.2.2.2.2.1, hm.2.2.2.2.2⟩
theorem State.tryPool_keep (a0 : State) (a1 : Nat) (a2 : Nat) (a3 : Bool) (h0 : Kept s₀ a0) : OptAll (fun p => Kept s₀ p.1) (State.tryPool a0 a1 a2 a3) := by
  unfold State.tryPool
  repeat' (with_reducible first
    | assumption | refine State.countEntry_keep _ _ _ _ ?_ | refine State.setBuf_keep _ _ _ _ ?_ | refine OptAll.some ?_
    | exact OptAll.none | split | extract_lets)

theorem State.coilGrant_keep (a0 : State) (a1 : Nat) (a2 : Nat) (h0 : Kept s₀ a0) : OptAll (fun p => Kept s₀ p.1) (State.coilGrant a0 a1 a2) := by
  unfold State.coilGrant
  repeat' (with_reducible first
    | assumption | refine State.tryPool_keep _ _ _ _ ?_ | refine OptAll.elim2 (State.tryPool_keep _ _ _ _ ?_) ‹_ = some _›
    | refine OptAll.some ?_ | exact OptAll.none | refine OptAll.map (Q := fun p : State × _ => Kept s₀ p.1) ?_ (fun _ _ => ?_)
    | split | extract_lets)

theorem State.zeroBuf_keep (a0 : State) (a1 : Nat) (a2 : Nat) (h0 : Kept s₀ a0) : Kept s₀ (State.zeroBuf a0 a1 a2) := by
  unfold State.zeroBuf
  repeat' (with_reducible first
    | assumption | refine State.setBuf_keep _ _ _ _ ?_ | refine State.countEntry_keep _ _ _ _ ?_
    | refine State.zeroRange_keep _ _ _ ?_ | refine ite_keep ?_ ?_)

theorem State.coilGrantNow_keep (a0 : State) (a1 : Nat) (a2 : Nat) (h0 : Kept s₀ a0) : OptAll (fun p => Kept s₀ p.1) (State.coilGrantNow a0 a1 a2) := by
  unfold State.coilGrantNow
  repeat' (with_reducible first
    | assumption | refine State.zeroBuf_keep _ _ _ ?_ | refine State.coilGrant_keep _ _ _ ?_
    | refine OptAll.map (Q := fun p : State × _ => Kept s₀ p.1) ?_ (fun _ _ => ?_))

theorem State.serveWaiters_keep (a0 : State) (a1 : Nat) (h0 : Kept s₀ a0) : Kept s₀ (State.serveWaiters a0 a1) := by
  unfold State.serveWaiters
  repeat' (with_reducible first
    | assumption | refine OptAll.elim2 (State.coilGrant_keep _ _ _ ?_) ‹_ = some _› | refine State.setBuf_keep _ _ _ _ ?_
    | refine foldl_keep ?_ (fun _ _ _ => ?_) | refine ite_keep ?_ ?_ | exact id | split | extract_lets | intro _
    | refine Kept.of_parts ?_ rfl rfl rfl rfl rfl rfl rfl rfl rfl rfl rfl rfl rfl rfl ?_ ?_ ?_ ?_
    | refine Coil.ok_mk ?_ ?_ ?_ ?_ | refine Coil.ok.buffers ?_ | refine Coil.ok.bases ?_ | refine Coil.ok.bufs ?_
    | refine Coil.ok.resv ?_)

theorem State.coilResult_keep (a0 : State) (a1 : Nat) (a2 : Nat) (a3 : Nat) (a4 : Bool) (h0 : Kept s₀ a0) : Kept s₀ (State.coilResult a0 a1 a2 a3 a4) := by
  unfold State.coilResult
  repeat' (with_reducible first | assumption | refine State.setReg_keep _ _ _ ?_ | refine ite_keep ?_ ?_)

theorem State.allocDone_keep (a0 : State) (a1 : Nat) (a2 : Nat) (h0 : Kept s₀ a0) : Kept s₀ (State.allocDone a0 a1 a2) := by
  unfold State.allocDone
  repeat' (with_reducible first | assumption | refine State.coilResult_keep _ _ _ _ _ ?_ | split)

theorem State.freeBuf_keep (a0 : State) (a1 : Nat) (a2 : Nat) (h0 : Kept s₀ a0) : Kept s₀ (State.freeBuf a0 a1 a2) := by
  unfold State.freeBuf
  repeat' (with_reducible first
    | assumption | refine State.allocDone_keep _ _ _ ?_ | refine State.serveWaiters_keep _ _ ?_
    | refine State.setBuf_keep _ _ _ _ ?_ | refine ite_keep ?_ ?_)

theorem State.releaseOwner_keep (a0 : State) (a1 : Nat) (a2 : List (Prod Nat Nat)) (h0 : Kept s₀ a0) : Kept s₀ (State.releaseOwner a0 a1 a2) := by
  unfold State.releaseOwner
  repeat' (with_reducible first
    | assumption | refine State.setResv_keep _ _ _ _ ?_ | refine State.setBuf_keep _ _ _ _ ?_
    | refine State.freeBuf_keep _ _ _ ?_ | refine foldl_keep ?_ (fun _ _ _ => ?_) | refine ite_keep ?_ ?_)

theorem State.coilCode_keep (a0 : State) (a1 : Nat) (a2 : W16) (h0 : Kept s₀ a0) : Kept s₀ (State.coilCode a0 a1 a2) := by
  unfold State.coilCode
  repeat' (with_reducible first | assumption | refine State.errReg_keep _ _ _ ?_ | refine State.logDev_keep _ _ _ _ ?_)

theorem execCoilRequest_keep (a0 : BitVec 12) (a1 : Nat) (a2 : Nat) (a3 : State) (h0 : Kept s₀ a3) : OutAll (Kept s₀) (execCoilRequest a0 a1 a2 a3) := by
  unfold execCoilRequest
  repeat' (with_reducible first
    | assumption | refine OutAll.go ?_ | refine State.coilCode_keep _ _ _ ?_
    | refine OptAll.elim2 (State.coilGrant_keep _ _ _ ?_) ‹_ = some _› | refine State.freeBuf_keep _ _ _ ?_
    | refine State.countEntry_keep _ _ _ _ ?_ | refine ite_keep ?_ ?_ | refine ite_out ?_ ?_ | exact id | split | extract_lets
    | intro _ | refine Kept.of_parts ?_ rfl rfl rfl rfl rfl rfl rfl rfl rfl rfl rfl rfl rfl rfl ?_ ?_ ?_ ?_
    | refine Coil.ok_mk ?_ ?_ ?_ ?_ | refine Coil.ok.buffers ?_ | refine Coil.ok.bases ?_ | refine Coil.ok.bufs ?_
    | refine Coil.ok.resv ?_)

theorem execCoilZeroDone_keep (a0 : PoolId) (a1 : Nat) (a2 : State) (h0 : Kept s₀ a2) : OutAll (Kept s₀) (execCoilZeroDone a0 a1 a2) := by
  unfold execCoilZeroDone
  repeat' (with_reducible first
    | assumption | refine OutAll.go ?_ | refine State.allocDone_keep _ _ _ ?_ | refine State.zeroBuf_keep _ _ _ ?_
    | refine ite_out ?_ ?_)

theorem execBufferRelease_keep (a0 : PoolId) (a1 : Nat) (a2 : State) (h0 : Kept s₀ a2) : OutAll (Kept s₀) (execBufferRelease a0 a1 a2) := by
  unfold execBufferRelease
  repeat' (with_reducible first | assumption | refine OutAll.go ?_ | refine State.freeBuf_keep _ _ _ ?_ | refine ite_out ?_ ?_)

theorem State.coilRefuse_keep (a0 : State) (a1 : Nat) (a2 : Nat) (a3 : W16) (h0 : Kept s₀ a0) : Kept s₀ (State.coilRefuse a0 a1 a2 a3) := by
  unfold State.coilRefuse
  repeat' (with_reducible first
    | assumption | refine State.errReg_keep _ _ _ ?_ | refine State.rejectV_keep _ _ _ _ _ _ ?_
    | refine State.coilResult_keep _ _ _ _ _ ?_ | refine ite_keep ?_ ?_)

theorem State.coilBad_keep (a0 : State) (a1 : Nat) (a2 : Nat) (h0 : Kept s₀ a0) : Kept s₀ (State.coilBad a0 a1 a2) := by
  unfold State.coilBad
  repeat' (with_reducible first | assumption | refine State.coilRefuse_keep _ _ _ _ ?_)

theorem State.coilAlloc_keep (a0 : State) (a1 : Nat) (a2 : Nat) (h0 : Kept s₀ a0) : Kept s₀ (State.coilAlloc a0 a1 a2) := by
  unfold State.coilAlloc
  repeat' (with_reducible first
    | assumption | refine State.coilRefuse_keep _ _ _ _ ?_ | refine OptAll.elim2 (State.coilGrant_keep _ _ _ ?_) ‹_ = some _›
    | refine State.countEntry_keep _ _ _ _ ?_ | refine State.setReg_keep _ _ _ ?_ | refine State.coilResult_keep _ _ _ _ _ ?_
    | refine ite_keep ?_ ?_ | split)

theorem State.coilFree_keep (a0 : State) (a1 : Nat) (a2 : Nat) (h0 : Kept s₀ a0) : Kept s₀ (State.coilFree a0 a1 a2) := by
  unfold State.coilFree
  repeat' (with_reducible first
    | assumption | refine State.coilRefuse_keep _ _ _ _ ?_ | refine State.coilResult_keep _ _ _ _ _ ?_
    | refine State.freeBuf_keep _ _ _ ?_ | refine ite_keep ?_ ?_ | split)

theorem State.coilReserve_keep (a0 : State) (a1 : Nat) (a2 : Nat) (h0 : Kept s₀ a0) : Kept s₀ (State.coilReserve a0 a1 a2) := by
  unfold State.coilReserve
  repeat' (with_reducible first
    | assumption | refine State.coilRefuse_keep _ _ _ _ ?_ | refine State.setResv_keep _ _ _ _ ?_
    | refine State.coilResult_keep _ _ _ _ _ ?_ | refine ite_keep ?_ ?_ | split)

theorem State.coilQuery_keep (a0 : State) (a1 : Nat) (a2 : Nat) (h0 : Kept s₀ a0) : Kept s₀ (State.coilQuery a0 a1 a2) := by
  unfold State.coilQuery
  repeat' (with_reducible first
    | assumption | refine State.coilRefuse_keep _ _ _ _ ?_ | refine State.coilResult_keep _ _ _ _ _ ?_
    | refine State.setReg_keep _ _ _ ?_ | split)

theorem execAlloc_keep (a0 : Fn) (a1 : W32) (a2 : State) (h0 : Kept s₀ a2) : OutAll (Kept s₀) (execAlloc a0 a1 a2) := by
  unfold execAlloc
  repeat' (with_reducible first
    | assumption | refine State.hostAct_keep _ _ _ _ ?_ ?_ | refine State.coilAlloc_keep _ _ _ ?_ | extract_lets | intro _)

theorem execFree_keep (a0 : Fn) (a1 : W32) (a2 : State) (h0 : Kept s₀ a2) : OutAll (Kept s₀) (execFree a0 a1 a2) := by
  unfold execFree
  repeat' (with_reducible first
    | assumption | refine State.hostAct_keep _ _ _ _ ?_ ?_ | refine State.coilFree_keep _ _ _ ?_ | extract_lets | intro _)

theorem execReserve_keep (a0 : Fn) (a1 : W32) (a2 : State) (h0 : Kept s₀ a2) : OutAll (Kept s₀) (execReserve a0 a1 a2) := by
  unfold execReserve
  repeat' (with_reducible first
    | assumption | refine State.hostAct_keep _ _ _ _ ?_ ?_ | refine State.coilReserve_keep _ _ _ ?_ | extract_lets | intro _)

theorem execQuery_keep (a0 : Fn) (a1 : W32) (a2 : State) (h0 : Kept s₀ a2) : OutAll (Kept s₀) (execQuery a0 a1 a2) := by
  unfold execQuery
  repeat' (with_reducible first
    | assumption | refine State.hostAct_keep _ _ _ _ ?_ ?_ | refine State.coilQuery_keep _ _ _ ?_ | extract_lets | intro _)

theorem State.layoutCoil_keep (a0 : State) (a1 : Bool) (h0 : Kept s₀ a0) : Kept s₀ (State.layoutCoil a0 a1) := by
  unfold State.layoutCoil
  extract_lets size want dflt use bases coil s s'
  clear_value size want dflt use bases
  have h1 : Kept s₀ s := Kept.of_inv h0 (fun h => { h with
    coil := ⟨Tbl.ok_foldl Tbl.ok_nil (fun _ _ h => Tbl.ok_set h), Tbl.ok_foldl Tbl.ok_nil (fun _ _ h => Tbl.ok_set h), Tbl.ok_nil, Tbl.ok_set Tbl.ok_nil⟩ }) rfl rfl rfl
  have h2 : Kept s₀ s' := foldl_keep h1 (fun _ _ h => State.setEntry_keep _ _ _ _ h)
  split
  · exact State.setEntry_keep _ _ _ _ h2
  · exact State.errReg_keep _ _ _ (State.logDev_keep _ _ _ _ (State.setEntry_keep _ _ _ _ h2))

/-! ### Records -/

theorem State.setStream_keep (a0 : State) (a1 : Nat) (a2 : Stream) (h0 : Kept s₀ a0) : Kept s₀ (State.setStream a0 a1 a2) :=
  Kept.of_inv h0 (fun h => { h with streams := Tbl.canon_set (d := fun _ => {}) h.streams a1 a2 }) rfl rfl rfl
theorem State.modStream_keep (a0 : State) (a1 : Nat) (a2 : Stream → Stream) (h0 : Kept s₀ a0) : Kept s₀ (State.modStream a0 a1 a2) := by
  unfold State.modStream
  repeat' (with_reducible first | assumption | refine State.setStream_keep _ _ _ ?_)

theorem State.coalesce_keep (a0 : State) (a1 : Nat) (h0 : Kept s₀ a0) : Kept s₀ (State.coalesce a0 a1) := by
  unfold State.coalesce
  repeat' (with_reducible first
    | assumption | refine State.modStream_keep _ _ _ ?_ | refine State.msix_keep _ _ _ ?_ | refine ite_keep ?_ ?_)

theorem State.placeRecord_keep (a0 : State) (a1 : Nat) (a2 : List Byte) (a3 : Bool) (h0 : Kept s₀ a0) : Kept s₀ (State.placeRecord a0 a1 a2 a3) := by
  unfold State.placeRecord
  repeat' (with_reducible first
    | assumption | refine State.hostWrite_keep _ _ _ _ _ ?_ | refine State.setReg_keep _ _ _ ?_
    | refine State.coalesce_keep _ _ ?_ | refine ite_keep ?_ ?_)

theorem State.stamp_keep (a0 : State) (a1 : Nat) (a2 : List Byte) (h0 : Kept s₀ a0) : Kept s₀ (State.stamp a0 a1 a2).1 := by
  unfold State.stamp
  repeat' (with_reducible first | assumption | refine State.modStream_keep _ _ _ ?_)

theorem State.drainHold_keep (a0 : State) (a1 : Nat) (a2 : Nat) (h0 : Kept s₀ a0) : Kept s₀ (State.drainHold a0 a1 a2) := by
  induction a2 generalizing a0 with
  | zero => exact h0
  | succ n ih =>
  unfold State.drainHold
  repeat' (with_reducible first
    | assumption | refine ih _ ?_ | refine State.placeRecord_keep _ _ _ _ ?_ | refine State.modStream_keep _ _ _ ?_
    | refine ite_keep ?_ ?_ | split)

theorem State.strCode_keep (a0 : State) (a1 : Nat) (a2 : W16) (h0 : Kept s₀ a0) : Kept s₀ (State.strCode a0 a1 a2) := by
  unfold State.strCode
  repeat' (with_reducible first | assumption | refine State.setEntry_keep _ _ _ _ ?_)

theorem State.putClosing_keep (a0 : State) (a1 : Nat) (a2 : Nat) (a3 : List Byte) (h0 : Kept s₀ a0) : Kept s₀ (State.putClosing a0 a1 a2 a3) := by
  unfold State.putClosing
  repeat' (with_reducible first
    | assumption | refine State.stamp_keep _ _ _ ?_ | refine State.placeRecord_keep _ _ _ _ ?_
    | refine State.modStream_keep _ _ _ ?_ | refine State.strCode_keep _ _ _ ?_ | refine State.count_keep _ _ _ ?_
    | refine State.logDev_keep _ _ _ _ ?_ | refine State.setEntry_keep _ _ _ _ ?_ | refine ite_keep ?_ ?_)

theorem State.putRecord_keep (a0 : State) (a1 : Nat) (a2 : List Byte) (h0 : Kept s₀ a0) : OptAll (Kept s₀) (State.putRecord a0 a1 a2) := by
  unfold State.putRecord
  repeat' (with_reducible first
    | assumption | refine State.stamp_keep _ _ _ ?_ | refine State.placeRecord_keep _ _ _ _ ?_ | refine OptAll.some ?_
    | exact OptAll.none | split)

theorem State.closeSlot_keep (a0 : State) (a1 : Bool) (a2 : Step) (a3 : Nat) (a4 : Slot) (a5 : Nat) (a6 : W16) (a7 : Nat) (h0 : Kept s₀ a0) : Kept s₀ (State.closeSlot a0 a1 a2 a3 a4 a5 a6 a7) := by
  unfold State.closeSlot
  repeat' (with_reducible first | assumption | refine State.putClosing_keep _ _ _ _ ?_)

theorem State.closeAll_keep (a0 : State) (a1 : Bool) (a2 : Step) (a3 : Nat) (a4 : W16) (a5 : Bool) (h0 : Kept s₀ a0) : Kept s₀ (State.closeAll a0 a1 a2 a3 a4 a5) := by
  unfold State.closeAll
  repeat' (with_reducible first
    | assumption | refine State.closeSlot_keep _ _ _ _ _ _ _ _ ?_ | refine foldl_keep ?_ (fun _ _ _ => ?_)
    | refine ite_keep ?_ ?_)

end Sys2Proof.Machine
end

