-- ==== Sys2Proof/Laws/KeepSched.lean ====
section
/-! SUPPORT. `Kept` holds of every function of the scheduler, the tensors, preprocessing, the contexts, the generator and the loader. -/

namespace Sys2Proof.Machine

variable {s₀ : State}

/-! ### Sched -/

theorem Ibex.idle_ok {i : Ibex} (h : i.ok) : Tbl.ok {} i.idleRegions := Tbl.ok_foldl h.regions (fun _ _ h => Tbl.ok_set h)

theorem Ibex.stop_ok {i : Ibex} (h : i.ok) : i.stop.ok := ⟨h.spm, h.spmSyn, h.acc, h.accSyn, h.slots, Ibex.idle_ok h⟩

theorem Ibex.begin_ok {i : Ibex} {c : Nat} {r : Bool} (h : i.ok) : (i.begin c r).ok := ⟨h.spm, h.spmSyn, h.acc, h.accSyn, h.slots,
  Tbl.ok_ite (Ibex.idle_ok h) (Tbl.ok_foldl (Ibex.idle_ok h) (fun _ _ h => Tbl.ok_set h))⟩

theorem Ibex.evict_ok {i : Ibex} {c : Nat} (h : i.ok) : (i.evict c).ok := ⟨h.spm, h.spmSyn, h.acc, h.accSyn, Tbl.ok_filter h.slots, h.regions⟩

theorem State.setQueue_keep (a0 : State) (a1 : Nat) (a2 : Queue) (h0 : Kept s₀ a0) : Kept s₀ (State.setQueue a0 a1 a2) :=
  Kept.of_inv h0 (fun h => { h with queues := Tbl.canon_set (d := fun _ => {}) h.queues a1 a2 }) rfl rfl rfl
theorem State.setStep_keep (a0 : State) (a1 : Nat) (a2 : Option Step) (h0 : Kept s₀ a0) : Kept s₀ (State.setStep a0 a1 a2) := by
  unfold State.setStep
  repeat' (with_reducible first | assumption | refine State.setQueue_keep _ _ _ ?_)

theorem State.modStep_keep (a0 : State) (a1 : Nat) (a2 : Step → Step) (h0 : Kept s₀ a0) : Kept s₀ (State.modStep a0 a1 a2) := by
  unfold State.modStep
  repeat' (with_reducible first | assumption | refine State.setStep_keep _ _ _ ?_)

theorem State.setHitch_keep (a0 : State) (a1 : Nat) (a2 : Hitch) (h0 : Kept s₀ a0) : Kept s₀ (State.setHitch a0 a1 a2) :=
  Kept.of_inv h0 (fun h => { h with hitches := Tbl.canon_set (d := fun _ => {}) h.hitches a1 a2 }) rfl rfl rfl
theorem State.setCtxSt_keep (a0 : State) (a1 : Nat) (a2 : CtxSt) (h0 : Kept s₀ a0) : Kept s₀ (State.setCtxSt a0 a1 a2) :=
  Kept.of_inv h0 (fun h => { h with ctxs := Tbl.canon_set (d := fun _ => {}) h.ctxs a1 a2 }) rfl rfl rfl
theorem State.setCtxState_keep (a0 : State) (a1 : Nat) (a2 : Nat) (h0 : Kept s₀ a0) : Kept s₀ (State.setCtxState a0 a1 a2) := by
  unfold State.setCtxState
  repeat' (with_reducible first
    | assumption | refine State.countEntry_keep _ _ _ _ ?_ | refine State.setEntry_keep _ _ _ _ ?_ | refine ite_keep ?_ ?_)

theorem State.countCtx_keep (a0 : State) (a1 : Nat) (a2 : Nat) (a3 : Nat) (h0 : Kept s₀ a0) : Kept s₀ (State.countCtx a0 a1 a2 a3) := by
  unfold State.countCtx
  repeat' (with_reducible first | assumption | refine State.countEntry_keep _ _ _ _ ?_)

theorem State.charge_keep (a0 : State) (a1 : Nat) (a2 : Nat) (h0 : Kept s₀ a0) : Kept s₀ (State.charge a0 a1 a2) := by
  unfold State.charge
  repeat' (with_reducible first
    | assumption | refine State.setEntry_keep _ _ _ _ ?_ | refine State.setCtxSt_keep _ _ _ ?_ | exact id | split | extract_lets
    | refine Kept.of_parts ?_ rfl rfl rfl rfl rfl rfl rfl rfl rfl rfl rfl rfl rfl rfl ?_ ?_ ?_ ?_)

theorem State.raiseVt_keep (a0 : State) (a1 : Nat) (h0 : Kept s₀ a0) : Kept s₀ (State.raiseVt a0 a1) := by
  unfold State.raiseVt
  repeat' (with_reducible first | assumption | refine State.setEntry_keep _ _ _ _ ?_ | refine ite_keep ?_ ?_)

theorem State.grantIbex_keep (a0 : State) (a1 : Nat) (a2 : Nat) (h0 : Kept s₀ a0) : Kept s₀ (State.grantIbex a0 a1 a2).1 := by
  unfold State.grantIbex
  split
  · exact h0
  · extract_lets gone i k su au
    split
    · exact h0
    · extract_lets r s
      have hi : a0.Inv → i.ok := fun h => foldl_all (P := Ibex.ok) (h.ib _) (fun _ _ h => Ibex.evict_ok h)
      have h : Kept s₀ s := State.setIb_keep _ _ _ h0 (fun h => ⟨Tbl.ok_clear (hi h).spm, Tbl.ok_clear (hi h).spmSyn,
        Tbl.ok_clear (hi h).acc, Tbl.ok_clear (hi h).accSyn, Tbl.ok_set (hi h).slots, (hi h).regions⟩)
      exact State.flipAcc_keep _ _ _ _ _ _ (State.flipSpm_keep _ _ _ _ h)
theorem State.place_keep (a0 : State) (a1 : Nat) (a2 : Step) (a3 : List Nat) (h0 : Kept s₀ a0) : Kept s₀ (State.place a0 a1 a2 a3) := by
  unfold State.place
  repeat' (with_reducible first
    | assumption | refine State.grantIbex_keep _ _ _ ?_ | refine State.countEntry_keep _ _ _ _ ?_
    | refine State.modIb_keep _ _ _ ?_ ?_ | refine State.setQueue_keep _ _ _ ?_ | refine foldl_keep ?_ (fun _ _ _ => ?_)
    | refine ite_keep ?_ ?_ | extract_lets | intro _ | refine Ibex.begin_ok ?_ | refine Ibex.ok_mk ?_ ?_ ?_ ?_ ?_ ?_
    | refine Ibex.ok.spm ?_ | refine Ibex.ok.spmSyn ?_ | refine Ibex.ok.acc ?_ | refine Ibex.ok.accSyn ?_
    | refine Ibex.ok.slots ?_ | refine Ibex.ok.regions ?_)

theorem State.reserveFor_keep (a0 : State) (a1 : Nat) (a2 : Step) (h0 : Kept s₀ a0) : Kept s₀ (State.reserveFor a0 a1 a2) := by
  unfold State.reserveFor
  repeat' (with_reducible first
    | assumption | refine State.modIb_keep _ _ _ ?_ ?_ | refine foldl_keep ?_ (fun _ _ _ => ?_) | refine ite_keep ?_ ?_
    | extract_lets | intro _ | refine Ibex.ok_mk ?_ ?_ ?_ ?_ ?_ ?_ | refine Ibex.ok.spm ?_ | refine Ibex.ok.spmSyn ?_
    | refine Ibex.ok.acc ?_ | refine Ibex.ok.accSyn ?_ | refine Ibex.ok.slots ?_ | refine Ibex.ok.regions ?_)

theorem State.unblock_keep (a0 : State) (a1 : Nat) (a2 : Step) (h0 : Kept s₀ a0) : Kept s₀ (State.unblock a0 a1 a2) := by
  unfold State.unblock
  repeat' (with_reducible first
    | assumption | refine State.setStep_keep _ _ _ ?_ | refine ite_keep ?_ ?_ | split | extract_lets
    | (refine (@id (Kept s₀ ‹State› → _) (fun _ => ?_)) ?_; focus (clear_value *; split)))

theorem State.preemptFor_keep (a0 : State) (a1 : Nat) (a2 : Step) (h0 : Kept s₀ a0) : Kept s₀ (State.preemptFor a0 a1 a2) := by
  unfold State.preemptFor
  repeat' (with_reducible first
    | assumption | refine State.setStep_keep _ _ _ ?_ | refine ite_keep ?_ ?_ | extract_lets
    | (refine (@id (Kept s₀ ‹State› → _) (fun _ => ?_)) ?_; focus (clear_value *; split)))

theorem State.tryPlace_keep (a0 : State) (a1 : Nat) (h0 : Kept s₀ a0) : Kept s₀ (State.tryPlace a0 a1) := by
  unfold State.tryPlace
  repeat' (with_reducible first
    | assumption | refine State.preemptFor_keep _ _ _ ?_ | refine State.unblock_keep _ _ _ ?_
    | refine State.place_keep _ _ _ _ ?_ | refine ite_keep ?_ ?_ | split)

theorem State.schedule_keep (a0 : State) (h0 : Kept s₀ a0) : Kept s₀ (State.schedule a0) := by
  unfold State.schedule
  repeat' (with_reducible first
    | assumption | refine State.reserveFor_keep _ _ _ ?_ | refine State.tryPlace_keep _ _ ?_
    | refine foldl_keep ?_ (fun _ _ _ => ?_) | refine ite_keep ?_ ?_ | split)

theorem State.leaveIdle_keep (a0 : State) (h0 : Kept s₀ a0) : Kept s₀ (State.leaveIdle a0) := by
  unfold State.leaveIdle
  repeat' (with_reducible first
    | assumption | refine State.modIb_keep _ _ _ ?_ ?_ | refine State.setEntry_keep _ _ _ _ ?_
    | refine foldl_keep ?_ (fun _ _ _ => ?_) | refine ite_keep ?_ ?_ | extract_lets | intro _
    | refine Ibex.ok_mk ?_ ?_ ?_ ?_ ?_ ?_ | refine Ibex.ok.spm ?_ | refine Ibex.ok.spmSyn ?_ | refine Ibex.ok.acc ?_
    | refine Ibex.ok.accSyn ?_ | refine Ibex.ok.slots ?_ | refine Ibex.ok.regions ?_)

theorem State.becomeReady_keep (a0 : State) (a1 : Nat) (h0 : Kept s₀ a0) : Kept s₀ (State.becomeReady a0 a1) := by
  unfold State.becomeReady
  repeat' (with_reducible first
    | assumption | refine State.schedule_keep _ ?_ | refine State.leaveIdle_keep _ ?_ | refine State.setStep_keep _ _ _ ?_
    | refine State.raiseVt_keep _ _ ?_ | split)

theorem State.hitchDone_keep (a0 : State) (a1 : List Rank) (a2 : Bool) (h0 : Kept s₀ a0) : Kept s₀ (State.hitchDone a0 a1 a2) := by
  unfold State.hitchDone
  repeat' (with_reducible first
    | assumption | refine State.count_keep _ _ _ ?_ | refine State.modIb_keep _ _ _ ?_ ?_
    | refine foldl_keep ?_ (fun _ _ _ => ?_) | refine ite_keep ?_ ?_ | extract_lets | intro _
    | refine Ibex.ok_mk ?_ ?_ ?_ ?_ ?_ ?_ | refine Ibex.ok.spm ?_ | refine Ibex.ok.spmSyn ?_ | refine Ibex.ok.acc ?_
    | refine Ibex.ok.accSyn ?_ | refine Ibex.ok.slots ?_ | refine Ibex.ok.regions ?_)

theorem State.serveLoop_keep (a0 : State) (a1 : Nat) (a2 : Nat) (h0 : Kept s₀ a0) : Kept s₀ (State.serveLoop a0 a1 a2) := by
  induction a2 generalizing a0 with
  | zero => exact h0
  | succ n ih =>
  unfold State.serveLoop
  repeat' (with_reducible first
    | assumption | refine ih _ ?_ | refine State.raiseVt_keep _ _ ?_ | refine State.leaveIdle_keep _ ?_
    | refine State.setHitch_keep _ _ _ ?_ | refine State.hitchDone_keep _ _ _ ?_ | refine State.setStep_keep _ _ _ ?_
    | refine ite_keep ?_ ?_ | split | extract_lets)

theorem State.serveHitch_keep (a0 : State) (a1 : Nat) (h0 : Kept s₀ a0) : Kept s₀ (State.serveHitch a0 a1) := by
  unfold State.serveHitch
  repeat' (with_reducible first | assumption | refine State.serveLoop_keep _ _ _ ?_)

theorem State.endLoans_keep (a0 : State) (a1 : Loan → Bool) (h0 : Kept s₀ a0) : Kept s₀ (State.endLoans a0 a1) := by
  unfold State.endLoans
  repeat' (with_reducible first
    | assumption | refine State.setCtxSt_keep _ _ _ ?_ | refine foldl_keep ?_ (fun _ _ _ => ?_) | refine ite_keep ?_ ?_)

theorem State.releaseHitch_keep (a0 : State) (a1 : Nat) (h0 : Kept s₀ a0) : Kept s₀ (State.releaseHitch a0 a1) := by
  unfold State.releaseHitch
  repeat' (with_reducible first
    | assumption | refine State.endLoans_keep _ _ ?_ | refine State.setStep_keep _ _ _ ?_ | refine State.serveHitch_keep _ _ ?_
    | refine State.setHitch_keep _ _ _ ?_ | refine foldl_keep ?_ (fun _ _ _ => ?_) | refine ite_keep ?_ ?_)

theorem State.withdrawWait_keep (a0 : State) (a1 : Nat) (a2 : Step) (h0 : Kept s₀ a0) : Kept s₀ (State.withdrawWait a0 a1 a2) := by
  unfold State.withdrawWait
  repeat' (with_reducible first
    | assumption | refine State.setHitch_keep _ _ _ ?_ | refine State.endLoans_keep _ _ ?_ | refine ite_keep ?_ ?_ | split)

theorem State.forceHitches_keep (a0 : State) (a1 : Step) (h0 : Kept s₀ a0) : Kept s₀ (State.forceHitches a0 a1) := by
  unfold State.forceHitches
  repeat' (with_reducible first
    | assumption | refine State.serveHitch_keep _ _ ?_ | refine State.countCtx_keep _ _ _ _ ?_
    | refine State.countEntry_keep _ _ _ _ ?_ | refine State.releaseHitch_keep _ _ ?_ | refine foldl_keep ?_ (fun _ _ _ => ?_)
    | refine ite_keep ?_ ?_ | split)

theorem State.sweepFrames_keep (a0 : State) (a1 : Nat) (h0 : Kept s₀ a0) : Kept s₀ (State.sweepFrames a0 a1) := by
  unfold State.sweepFrames
  repeat' (with_reducible first
    | assumption | refine State.modStream_keep _ _ _ ?_ | refine State.freeBuf_keep _ _ _ ?_
    | refine foldl_keep ?_ (fun _ _ _ => ?_))

theorem State.unhold_keep (a0 : State) (a1 : PicRec) (h0 : Kept s₀ a0) : Kept s₀ (State.unhold a0 a1) := by
  unfold State.unhold
  repeat' (with_reducible first | assumption | refine State.sweepFrames_keep _ _ ?_ | refine State.modStream_keep _ _ _ ?_)

theorem State.unholdAll_keep (a0 : State) (a1 : Step) (h0 : Kept s₀ a0) : Kept s₀ (State.unholdAll a0 a1) := by
  unfold State.unholdAll
  repeat' (with_reducible first | assumption | refine State.unhold_keep _ _ ?_ | refine foldl_keep ?_ (fun _ _ _ => ?_) | split)

theorem State.preBusy_keep (a0 : State) (a1 : Nat) (a2 : Nat) (a3 : Nat) (h0 : Kept s₀ a0) : Kept s₀ (State.preBusy a0 a1 a2 a3) := by
  unfold State.preBusy
  repeat' (with_reducible first | assumption | refine State.setCtxSt_keep _ _ _ ?_ | refine State.count_keep _ _ _ ?_)

theorem State.stopPre_keep (a0 : State) (a1 : Nat) (a2 : Nat) (h0 : Kept s₀ a0) : Kept s₀ (State.stopPre a0 a1 a2) := by
  unfold State.stopPre
  repeat' (with_reducible first
    | assumption | refine pair_snd (State.freshWord_keep _ ?_) ‹_ = _› | refine State.preBusy_keep _ _ _ _ ?_ | exact id | split
    | extract_lets | intro _ | refine Kept.of_parts ?_ rfl rfl rfl rfl rfl rfl rfl rfl rfl rfl rfl rfl rfl rfl ?_ ?_ ?_ ?_
    | (with_unfolding_all assumption) | refine Video.ok_mk ?_ ?_ ?_ | refine Video.ok.ee ?_ | refine Video.ok.pe ?_
    | refine Video.ok.pre ?_ | refine Tbl.ok_set ?_)

theorem State.abandonItems_keep (a0 : State) (a1 : Nat) (a2 : Step) (a3 : Nat → Bool) (h0 : Kept s₀ a0) : Kept s₀ (State.abandonItems a0 a1 a2 a3) := by
  unfold State.abandonItems
  repeat' (with_reducible first
    | assumption | refine State.count_keep _ _ _ ?_ | refine State.stopPre_keep _ _ _ ?_
    | refine foldl_keep ?_ (fun _ _ _ => ?_))

theorem State.dummies_keep (a0 : State) (a1 : Nat) (h0 : Kept s₀ a0) : Kept s₀ (State.dummies a0 a1) := by
  unfold State.dummies
  repeat' (with_reducible first
    | assumption | refine State.countFree_keep _ _ ?_ | refine pair_snd (State.freshWord_keep _ ?_) ‹_ = _›
    | refine State.count_keep _ _ _ ?_ | refine State.setCtxSt_keep _ _ _ ?_ | split | extract_lets)

theorem State.gapEnds_keep (a0 : State) (a1 : Nat) (h0 : Kept s₀ a0) : Kept s₀ (State.gapEnds a0 a1) := by
  unfold State.gapEnds
  repeat' (with_reducible first
    | assumption | refine State.modIb_keep _ _ _ ?_ ?_ | refine State.dummies_keep _ _ ?_ | refine ite_keep ?_ ?_ | extract_lets
    | intro _ | refine Ibex.ok_mk ?_ ?_ ?_ ?_ ?_ ?_ | refine Ibex.ok.spm ?_ | refine Ibex.ok.spmSyn ?_ | refine Ibex.ok.acc ?_
    | refine Ibex.ok.accSyn ?_ | refine Ibex.ok.slots ?_ | refine Ibex.ok.regions ?_)

theorem State.leaveIbexes_keep (a0 : State) (a1 : Step) (a2 : Option Nat) (h0 : Kept s₀ a0) : Kept s₀ (State.leaveIbexes a0 a1 a2) := by
  unfold State.leaveIbexes
  repeat' (with_reducible first
    | assumption | refine State.freshWord_keep _ ?_ | refine State.modIb_keep _ _ _ ?_ ?_ | refine State.gapEnds_keep _ _ ?_
    | refine State.charge_keep _ _ _ ?_ | refine foldl_keep ?_ (fun _ _ _ => ?_) | refine ite_keep ?_ ?_ | split | extract_lets
    | intro _ | refine Ibex.stop_ok ?_)

theorem State.addWait_keep (a0 : State) (a1 : Nat) (h0 : Kept s₀ a0) : Kept s₀ (State.addWait a0 a1) := by
  unfold State.addWait
  repeat' (with_reducible first | assumption | refine State.freshWord_keep _ ?_ | refine State.countCtx_keep _ _ _ _ ?_)

theorem State.tally_keep (a0 : State) (a1 : Step) (h0 : Kept s₀ a0) : Kept s₀ (State.tally a0 a1) := by
  unfold State.tally
  repeat' (with_reducible first
    | assumption | refine State.countCtx_keep _ _ _ _ ?_ | refine State.addWait_keep _ _ ?_ | refine ite_keep ?_ ?_)

theorem State.unshed_keep (a0 : State) (a1 : Nat) (h0 : Kept s₀ a0) : Kept s₀ (State.unshed a0 a1) := by
  unfold State.unshed
  repeat' (with_reducible first
    | assumption | exact id | extract_lets
    | refine Kept.of_parts ?_ rfl rfl rfl rfl rfl rfl rfl rfl rfl rfl rfl rfl rfl rfl ?_ ?_ ?_ ?_)

theorem State.takeStep_keep (a0 : State) (a1 : Nat) (a2 : Step) (a3 : Option Nat) (h0 : Kept s₀ a0) : Kept s₀ (State.takeStep a0 a1 a2 a3) := by
  unfold State.takeStep
  repeat' (with_reducible first
    | assumption | refine State.tally_keep _ _ ?_ | refine State.setStep_keep _ _ _ ?_ | refine State.leaveIbexes_keep _ _ _ ?_
    | refine State.modIb_keep _ _ _ ?_ ?_ | refine State.unholdAll_keep _ _ ?_ | refine State.endLoans_keep _ _ ?_
    | refine State.withdrawWait_keep _ _ _ ?_ | refine State.abandonItems_keep _ _ _ _ ?_
    | refine foldl_keep ?_ (fun _ _ _ => ?_) | refine ite_keep ?_ ?_ | extract_lets | intro _
    | refine Ibex.ok_mk ?_ ?_ ?_ ?_ ?_ ?_ | refine Ibex.ok.spm ?_ | refine Ibex.ok.spmSyn ?_ | refine Ibex.ok.acc ?_
    | refine Ibex.ok.accSyn ?_ | refine Ibex.ok.slots ?_ | refine Ibex.ok.regions ?_)

theorem State.removeStep_keep (a0 : State) (a1 : Nat) (a2 : Step) (a3 : Option Nat) (h0 : Kept s₀ a0) : Kept s₀ (State.removeStep a0 a1 a2 a3) := by
  unfold State.removeStep
  repeat' (with_reducible first | assumption | refine State.forceHitches_keep _ _ ?_ | refine State.takeStep_keep _ _ _ _ ?_)

theorem State.abandonAll_keep (a0 : State) (a1 : List (Prod Nat Step)) (a2 : Nat → Option W16) (h0 : Kept s₀ a0) : Kept s₀ (State.abandonAll a0 a1 a2) := by
  unfold State.abandonAll
  repeat' (with_reducible first
    | assumption | refine State.takeStep_keep _ _ _ _ ?_ | refine State.forceHitches_keep _ _ ?_
    | refine State.closeAll_keep _ _ _ _ _ _ ?_ | refine foldl_keep ?_ (fun _ _ _ => ?_) | split)

theorem State.releaseParts_keep (a0 : State) (a1 : Nat) (h0 : Kept s₀ a0) : Kept s₀ (State.releaseParts a0 a1) := by
  unfold State.releaseParts
  repeat' (with_reducible first
    | assumption | refine State.modIb_keep _ _ _ ?_ ?_ | refine foldl_keep ?_ (fun _ _ _ => ?_) | refine ite_keep ?_ ?_
    | extract_lets | intro _ | refine Ibex.evict_ok ?_)

theorem State.faultOnly_keep (a0 : State) (a1 : Nat) (a2 : List Nat) (a3 : W16) (h0 : Kept s₀ a0) : Kept s₀ (State.faultOnly a0 a1 a2 a3) := by
  unfold State.faultOnly
  repeat' (with_reducible first
    | assumption | refine State.unshed_keep _ _ ?_ | refine State.setCtxState_keep _ _ _ ?_
    | refine State.abandonAll_keep _ _ _ ?_ | refine State.setEntry_keep _ _ _ _ ?_ | refine State.releaseParts_keep _ _ ?_
    | refine State.fnErr_keep _ _ _ ?_ | refine State.countCtx_keep _ _ _ _ ?_ | refine ite_keep ?_ ?_)

theorem State.faultSteps_keep (a0 : State) (a1 : Nat) (a2 : List Nat) (a3 : W16) (h0 : Kept s₀ a0) : Kept s₀ (State.faultSteps a0 a1 a2 a3) := by
  unfold State.faultSteps
  repeat' (with_reducible first
    | assumption | refine State.schedule_keep _ ?_ | refine State.faultOnly_keep _ _ _ _ ?_ | refine ite_keep ?_ ?_)

theorem State.faultCtx_keep (a0 : State) (a1 : Nat) (a2 : Nat) (a3 : W16) (h0 : Kept s₀ a0) : Kept s₀ (State.faultCtx a0 a1 a2 a3) := by
  unfold State.faultCtx
  repeat' (with_reducible first | assumption | refine State.faultSteps_keep _ _ _ _ ?_)

theorem State.lateDrop_keep (a0 : State) (a1 : Nat) (a2 : Step) (h0 : Kept s₀ a0) : Kept s₀ (State.lateDrop a0 a1 a2) := by
  unfold State.lateDrop
  repeat' (with_reducible first
    | assumption | refine State.closeAll_keep _ _ _ _ _ _ ?_ | refine State.removeStep_keep _ _ _ _ ?_
    | refine State.setQueue_keep _ _ _ ?_ | refine State.countEntry_keep _ _ _ _ ?_ | refine State.countCtx_keep _ _ _ _ ?_
    | refine State.schedule_keep _ ?_ | refine ite_keep ?_ ?_)

theorem State.stopOnly_keep (a0 : State) (a1 : Nat) (a2 : Option W16) (h0 : Kept s₀ a0) : Kept s₀ (State.stopOnly a0 a1 a2) := by
  unfold State.stopOnly
  repeat' (with_reducible first
    | assumption | refine State.abandonAll_keep _ _ _ ?_ | refine State.setEntry_keep _ _ _ _ ?_
    | refine State.releaseParts_keep _ _ ?_ | split)

theorem State.stopCtx_keep (a0 : State) (a1 : Nat) (a2 : Option W16) (h0 : Kept s₀ a0) : Kept s₀ (State.stopCtx a0 a1 a2) := by
  unfold State.stopCtx
  repeat' (with_reducible first | assumption | refine State.schedule_keep _ ?_ | refine State.stopOnly_keep _ _ _ ?_)

theorem State.herdAlloc_keep (a0 : State) (a1 : Nat) (a2 : Nat) (a3 : Nat) (a4 : Bool) (h0 : Kept s₀ a0) : OptAll (Kept s₀) (State.herdAlloc a0 a1 a2 a3 a4) := by
  unfold State.herdAlloc
  repeat' (with_reducible first
    | assumption | refine OptAll.map (Q := fun _ => True) OptAll.any (fun _ _ => ?_) | exact id | extract_lets
    | refine Kept.of_parts ?_ rfl rfl rfl rfl rfl rfl rfl rfl rfl rfl rfl rfl rfl rfl ?_ ?_ ?_ ?_)

theorem State.freeHerd_keep (a0 : State) (a1 : Nat) (h0 : Kept s₀ a0) : Kept s₀ (State.freeHerd a0 a1) := by
  unfold State.freeHerd
  repeat' (with_reducible first
    | assumption | exact id | extract_lets
    | refine Kept.of_parts ?_ rfl rfl rfl rfl rfl rfl rfl rfl rfl rfl rfl rfl rfl rfl ?_ ?_ ?_ ?_)

/-! ### Tensor -/

theorem State.mendSpm_keep (a0 : State) (a1 : Nat) (a2 : List (Prod Nat Nat)) (h0 : Kept s₀ a0) : Kept s₀ (State.mendSpm a0 a1 a2) := by
  unfold State.mendSpm
  repeat' (with_reducible first
    | assumption | refine State.modIb_keep _ _ _ ?_ ?_ | refine State.countEntry_keep _ _ _ _ ?_
    | refine foldl_keep ?_ (fun _ _ _ => ?_) | split | extract_lets | intro _ | refine Ibex.ok_mk ?_ ?_ ?_ ?_ ?_ ?_
    | refine Ibex.ok.spm ?_ | refine Ibex.ok.spmSyn ?_ | refine Ibex.ok.acc ?_ | refine Ibex.ok.accSyn ?_
    | refine Ibex.ok.slots ?_ | refine Ibex.ok.regions ?_ | refine Tbl.ok_set ?_ | refine Tbl.ok_setList ?_)

theorem State.lostSpm_keep (a0 : State) (a1 : Nat) (a2 : List (Prod Nat Nat)) (h0 : Kept s₀ a0) : Kept s₀ (State.lostSpm a0 a1 a2) := by
  unfold State.lostSpm
  repeat' (with_reducible first | assumption | refine State.sramLost_keep _ _ _ _ ?_ | split)

theorem State.spmWrite_keep (a0 : State) (a1 : Nat) (a2 : Nat) (a3 : List Byte) (h0 : Kept s₀ a0) : Kept s₀ (State.spmWrite a0 a1 a2 a3) := by
  unfold State.spmWrite
  repeat' (with_reducible first
    | assumption | refine State.mendSpm_keep _ _ _ ?_ | refine State.countEntry_keep _ _ _ _ ?_
    | refine State.flipSpm_keep _ _ _ _ ?_ | refine State.modIb_keep _ _ _ ?_ ?_ | refine foldl_keep ?_ (fun _ _ _ => ?_)
    | refine ite_keep ?_ ?_ | split | extract_lets | intro _ | refine Ibex.ok_mk ?_ ?_ ?_ ?_ ?_ ?_ | refine Ibex.ok.spm ?_
    | refine Ibex.ok.spmSyn ?_ | refine Ibex.ok.acc ?_ | refine Ibex.ok.accSyn ?_ | refine Ibex.ok.slots ?_
    | refine Ibex.ok.regions ?_ | refine Tbl.ok_set ?_ | refine Tbl.ok_setList ?_ | refine Tbl.ok_clear ?_
    | refine Tbl.ok_foldl ?_ (fun _ _ _ => ?_))

theorem State.markUsed_keep (a0 : State) (a1 : Acc1) (a2 : Nat) (a3 : Nat) (h0 : Kept s₀ a0) : Kept s₀ (State.markUsed a0 a1 a2 a3) := by
  unfold State.markUsed
  refine State.modIb_keep _ _ _ h0 (fun i hi => ⟨hi.spm, hi.spmSyn, hi.acc, hi.accSyn, ?_, hi.regions⟩)
  refine Tbl.canon_map (d := fun _ => none) hi.slots _ (fun e => ?_) (fun e he => ?_)
  all_goals
    obtain ⟨k, _ | r⟩ := e
    · first | rfl | exact he
    · dsimp only
      split
      · split
        · first | rfl | exact fun h => nomatch h
        · first | rfl | exact he
      · first | rfl | exact he
theorem State.tWrite_keep (a0 : State) (a1 : Acc1) (a2 : Bool) (a3 : Nat) (a4 : List Byte) (h0 : Kept s₀ a0) : OptAll (Kept s₀) (State.tWrite a0 a1 a2 a3 a4) := by
  unfold State.tWrite
  repeat' (with_reducible first
    | assumption | refine State.markUsed_keep _ _ _ _ ?_ | refine State.spmWrite_keep _ _ _ _ ?_
    | refine State.memWrite_keep _ _ _ ?_ | refine OptAll.some ?_ | split)

theorem State.putCodes_keep (a0 : State) (a1 : Acc1) (a2 : Desc) (a3 : Nat) (a4 : Nat) (a5 : List Nat) (h0 : Kept s₀ a0) : OptAll (Kept s₀) (State.putCodes a0 a1 a2 a3 a4 a5) := by
  unfold State.putCodes
  repeat' (with_reducible first
    | assumption | refine State.tWrite_keep _ _ _ _ _ ?_ | refine OptAll.some ?_
    | refine OptAll.bind (Q := fun _ => True) OptAll.any (fun _ _ => ?_) | split | extract_lets)

theorem State.putVals_keep (a0 : State) (a1 : Acc1) (a2 : Desc) (a3 : Nat) (a4 : Nat) (a5 : List Val) (h0 : Kept s₀ a0) : OptAll (fun p => Kept s₀ p.1) (State.putVals a0 a1 a2 a3 a4 a5) := by
  unfold State.putVals
  repeat' (with_reducible first
    | assumption | refine State.putCodes_keep _ _ _ _ _ _ ?_ | refine State.tWrite_keep _ _ _ _ _ ?_
    | refine OptAll.map (Q := Kept s₀) ?_ (fun _ _ => ?_) | refine OptAll.bind (Q := Kept s₀) ?_ (fun _ _ => ?_) | split)

theorem State.putVoid_keep (a0 : State) (a1 : Acc1) (a2 : Desc) (a3 : Nat) (a4 : Nat) (h0 : Kept s₀ a0) : OptAll (Kept s₀) (State.putVoid a0 a1 a2 a3 a4) := by
  unfold State.putVoid
  repeat' (with_reducible first
    | assumption | refine State.putCodes_keep _ _ _ _ _ _ ?_ | refine State.tWrite_keep _ _ _ _ _ ?_ | refine OptAll.some ?_
    | refine OptAll.bind (Q := Kept s₀) ?_ (fun _ _ => ?_) | split)

theorem State.tagFault_keep (a0 : State) (a1 : Nat) (h0 : Kept s₀ a0) : Kept s₀ (State.tagFault a0 a1) := by
  unfold State.tagFault
  repeat' (with_reducible first
    | assumption | refine State.faultOnly_keep _ _ _ _ ?_ | refine State.unshed_keep _ _ ?_
    | refine State.setCtxState_keep _ _ _ ?_ | refine State.fnErr_keep _ _ _ ?_ | refine State.countCtx_keep _ _ _ _ ?_
    | refine State.setEntry_keep _ _ _ _ ?_ | refine ite_keep ?_ ?_)

theorem State.tagFaults_keep (a0 : State) (a1 : Nat → Bool) (h0 : Kept s₀ a0) : Kept s₀ (State.tagFaults a0 a1) := by
  unfold State.tagFaults
  repeat' (with_reducible first
    | assumption | refine State.schedule_keep _ ?_ | refine State.tagFault_keep _ _ ?_ | refine foldl_keep ?_ (fun _ _ _ => ?_))

theorem State.tagUe_keep (a0 : State) (a1 : SramSite) (h0 : Kept s₀ a0) : Kept s₀ (State.tagUe a0 a1) := by
  unfold State.tagUe
  repeat' (with_reducible first
    | assumption | refine State.tagFaults_keep _ _ ?_ | refine State.intErr_keep _ _ _ _ ?_
    | refine State.countEntry_keep _ _ _ _ ?_ | refine ite_keep ?_ ?_ | exact id | split | extract_lets | intro _
    | refine Kept.of_parts ?_ rfl rfl rfl rfl rfl rfl rfl rfl rfl rfl rfl rfl rfl rfl ?_ ?_ ?_ ?_
    | refine Memory.wf_mk ?_ ?_ ?_ ?_ ?_ ?_ ?_ ?_ ?_ | refine Memory.wf_hbm ?_ | refine Memory.wf_syn ?_
    | refine Memory.wf_chk ?_ | refine Memory.wf_lines ?_ | refine Memory.wf_lineSyn ?_ | refine Memory.wf_splSyn ?_
    | refine Memory.wf_power ?_ | refine Memory.wf_retries ?_ | refine Memory.wf_rows ?_ | refine Tbl.ok_set ?_
    | refine Tbl.ok_clear ?_)

theorem execMemTagUe_keep (a0 : SramSite) (a1 : State) (h0 : Kept s₀ a1) : OutAll (Kept s₀) (execMemTagUe a0 a1) := by
  unfold execMemTagUe
  repeat' (with_reducible first | assumption | refine OutAll.go ?_ | refine State.tagUe_keep _ _ ?_)

/-! ### Preproc -/

theorem State.preErr_keep (a0 : State) (a1 : W16) (a2 : Nat) (a3 : Nat) (h0 : Kept s₀ a0) : Kept s₀ (State.preErr a0 a1 a2 a3) := by
  unfold State.preErr
  repeat' (with_reducible first | assumption | refine State.errReg_keep _ _ _ ?_)

theorem State.modSlot_keep (a0 : State) (a1 : Nat) (a2 : Nat) (a3 : Slot → Slot) (h0 : Kept s₀ a0) : Kept s₀ (State.modSlot a0 a1 a2 a3) := by
  unfold State.modSlot
  repeat' (with_reducible first | assumption | refine State.modStep_keep _ _ _ ?_)

theorem State.checkReady_keep (a0 : State) (a1 : Nat) (h0 : Kept s₀ a0) : Kept s₀ (State.checkReady a0 a1) := by
  unfold State.checkReady
  repeat' (with_reducible first | assumption | refine State.becomeReady_keep _ _ ?_ | refine ite_keep ?_ ?_ | split)

theorem State.fillSlot_keep (a0 : State) (a1 : Nat) (a2 : Nat) (a3 : Slot) (h0 : Kept s₀ a0) : Kept s₀ (State.fillSlot a0 a1 a2 a3) := by
  unfold State.fillSlot
  repeat' (with_reducible first
    | assumption | refine State.unhold_keep _ _ ?_ | refine State.countEntry_keep _ _ _ _ ?_
    | refine State.checkReady_keep _ _ ?_ | refine State.modSlot_keep _ _ _ _ ?_ | split)

theorem State.voidSlot_keep (a0 : State) (a1 : Nat) (a2 : Nat) (a3 : W16) (h0 : Kept s₀ a0) : Kept s₀ (State.voidSlot a0 a1 a2 a3) := by
  unfold State.voidSlot
  repeat' (with_reducible first
    | assumption | refine State.abandonItems_keep _ _ _ _ ?_ | refine State.countEntry_keep _ _ _ _ ?_
    | refine State.count_keep _ _ _ ?_ | refine State.preErr_keep _ _ _ _ ?_ | refine State.setEntry_keep _ _ _ _ ?_
    | refine State.unhold_keep _ _ ?_ | refine State.checkReady_keep _ _ ?_ | refine State.modSlot_keep _ _ _ _ ?_
    | refine ite_keep ?_ ?_ | split)

theorem State.startSlot_keep (a0 : State) (a1 : Nat) (a2 : Nat) (h0 : Kept s₀ a0) : Kept s₀ (State.startSlot a0 a1 a2) := by
  unfold State.startSlot
  repeat' (with_reducible first
    | assumption | refine State.modSlot_keep _ _ _ _ ?_ | refine State.fillSlot_keep _ _ _ _ ?_ | refine ite_keep ?_ ?_ | split)

theorem State.takeQueued_keep (a0 : State) (a1 : Nat) (a2 : Nat) (a3 : Bool) (h0 : Kept s₀ a0) : Kept s₀ (State.takeQueued a0 a1 a2 a3) := by
  unfold State.takeQueued
  repeat' (with_reducible first
    | assumption | refine State.countEntry_keep _ _ _ _ ?_ | refine State.sweepFrames_keep _ _ ?_
    | refine State.modStream_keep _ _ _ ?_)

theorem execSlotTakePicture_keep (a0 : QueueId) (a1 : Fin 64) (a2 : State) (h0 : Kept s₀ a2) : OutAll (Kept s₀) (execSlotTakePicture a0 a1 a2) := by
  unfold execSlotTakePicture
  repeat' (with_reducible first
    | assumption | refine OutAll.go ?_ | refine State.countEntry_keep _ _ _ _ ?_ | refine State.takeQueued_keep _ _ _ _ ?_
    | refine State.modStream_keep _ _ _ ?_ | refine State.modSlot_keep _ _ _ _ ?_ | refine State.voidSlot_keep _ _ _ _ ?_
    | refine State.startSlot_keep _ _ _ ?_ | refine foldl_keep ?_ (fun _ _ _ => ?_) | refine ite_out ?_ ?_ | split)

theorem State.closeFill_keep (a0 : State) (a1 : Nat) (h0 : Kept s₀ a0) : Kept s₀ (State.closeFill a0 a1) := by
  unfold State.closeFill
  repeat' (with_reducible first
    | assumption | refine State.setQueue_keep _ _ _ ?_ | refine State.voidSlot_keep _ _ _ _ ?_
    | refine foldl_keep ?_ (fun _ _ _ => ?_) | refine ite_keep ?_ ?_ | split | extract_lets)

theorem execFillClose_keep (a0 : QueueId) (a1 : State) (h0 : Kept s₀ a1) : OutAll (Kept s₀) (execFillClose a0 a1) := by
  unfold execFillClose
  repeat' (with_reducible first | assumption | refine OutAll.go ?_ | refine State.closeFill_keep _ _ ?_ | refine ite_out ?_ ?_)

theorem State.voidJob_keep (a0 : State) (a1 : Acc1) (a2 : List Byte) (a3 : List (Option Desc)) (a4 : Nat) (h0 : Kept s₀ a0) :
    Kept s₀ (State.voidJob a0 a1 a2 a3 a4).1 := by
  unfold State.voidJob
  extract_lets put x
  have hput : ∀ x f, Kept s₀ x.1 → (∀ s, Kept s₀ s → OptAll (Kept s₀) (f s)) → Kept s₀ (put x f).1 := by
    intro x f h hf
    simp only [put]
    split
    · exact OptAll.elim (hf _ h) ‹_ = some _›
    · exact h
  clear_value put
  have hx : Kept s₀ x.1 := by
    simp only [x]
    split
    · exact h0
    · refine foldl_fst h0 (fun x r h => ?_)
      split
      · exact foldl_fst h (fun x k h => hput _ _ h (fun s h => State.putVoid_keep _ _ _ _ _ h))
      · exact foldl_fst h (fun x k h => hput _ _ h (fun s h => State.putVoid_keep _ _ _ _ _ h))
  split
  · split
    · exact foldl_fst hx (fun x r h => hput _ _ h (fun s h => State.putCodes_keep _ _ _ _ _ _ h))
    · exact hx
  · exact hx
theorem execSlotVoid_keep (a0 : QueueId) (a1 : Fin 64) (a2 : State) (h0 : Kept s₀ a2) : OutAll (Kept s₀) (execSlotVoid a0 a1 a2) := by
  unfold execSlotVoid
  repeat' (with_reducible first
    | assumption | refine OutAll.go ?_ | refine State.unhold_keep _ _ ?_ | refine State.voidJob_keep _ _ _ _ _ ?_
    | refine State.checkReady_keep _ _ ?_ | refine State.modSlot_keep _ _ _ _ ?_ | refine foldl_keep ?_ (fun _ _ _ => ?_)
    | refine ite_out ?_ ?_ | split)

theorem State.writeItem_keep (a0 : State) (a1 : Acc1) (a2 : Source) (a3 : List Byte) (a4 : Mapping) (a5 : Desc) (a6 : Nat) (h0 : Kept s₀ a0) : OptAll (fun p => Kept s₀ p.1) (State.writeItem a0 a1 a2 a3 a4 a5 a6) := by
  unfold State.writeItem
  repeat' (with_reducible first
    | assumption | refine State.putVals_keep _ _ _ _ _ _ ?_ | refine OptAll.some ?_ | refine foldl_opt ?_ (fun _ _ _ => ?_)
    | refine OptAll.map (Q := fun p : State × _ => Kept s₀ p.1) ?_ (fun _ _ => ?_)
    | refine OptAll.bind (Q := fun p : State × _ => Kept s₀ p.1) ?_ (fun _ _ => ?_)
    | refine OptAll.bind (Q := fun _ => True) OptAll.any (fun _ _ => ?_) | split)

theorem execWorkItemStart_keep (a0 : Fin 4) (a1 : State) (h0 : Kept s₀ a1) : OutAll (Kept s₀) (execWorkItemStart a0 a1) := by
  unfold execWorkItemStart
  repeat' (with_reducible first
    | assumption | refine OutAll.go ?_ | refine State.voidSlot_keep _ _ _ _ ?_ | refine State.modSlot_keep _ _ _ _ ?_
    | refine ite_out ?_ ?_ | exact id | split | extract_lets | intro _
    | (refine (@id (Kept s₀ ‹State› → _) (fun _ => ?_)) ?_; focus (clear_value *; split))
    | refine Kept.of_parts ?_ rfl rfl rfl rfl rfl rfl rfl rfl rfl rfl rfl rfl rfl rfl ?_ ?_ ?_ ?_ | refine Video.ok_mk ?_ ?_ ?_
    | refine Video.ok.ee ?_ | refine Video.ok.pe ?_ | refine Video.ok.pre ?_ | refine Tbl.ok_set ?_)

theorem State.putRegionRow_keep (a0 : State) (a1 : Acc1) (a2 : List (Option Desc)) (a3 : Nat) (a4 : List Nat) (h0 : Kept s₀ a0) : OptAll (Kept s₀) (State.putRegionRow a0 a1 a2 a3 a4) := by
  unfold State.putRegionRow
  repeat' (with_reducible first | assumption | refine State.putCodes_keep _ _ _ _ _ _ ?_ | refine OptAll.some ?_ | split)

theorem State.voidTensor_keep (a0 : State) (a1 : Acc1) (a2 : Desc) (a3 : Nat) (h0 : Kept s₀ a0) : OptAll (Kept s₀) (State.voidTensor a0 a1 a2 a3) := by
  unfold State.voidTensor
  repeat' (with_reducible first
    | assumption | refine State.putVoid_keep _ _ _ _ _ ?_ | refine OptAll.some ?_ | refine foldl_opt ?_ (fun _ _ _ => ?_)
    | refine OptAll.bind (Q := Kept s₀) ?_ (fun _ _ => ?_) | split)

theorem State.runItem_keep (a0 : State) (a1 : Step) (a2 : Slot) (a3 : Item) (h0 : Kept s₀ a0) : OptAll (fun p => Kept s₀ p.1) (State.runItem a0 a1 a2 a3) := by
  unfold State.runItem
  repeat' (with_reducible first
    | assumption | refine State.voidJob_keep _ _ _ _ _ ?_ | refine State.writeItem_keep _ _ _ _ _ _ _ ?_
    | refine State.countEntry_keep _ _ _ _ ?_ | refine State.voidTensor_keep _ _ _ _ ?_
    | refine State.putRegionRow_keep _ _ _ _ _ ?_ | refine OptAll.some ?_ | exact OptAll.none
    | refine OptAll.map (Q := Kept s₀) ?_ (fun _ _ => ?_)
    | refine OptAll.map (Q := fun p : State × _ => Kept s₀ p.1) ?_ (fun _ _ => ?_)
    | refine OptAll.bind (Q := Kept s₀) ?_ (fun _ _ => ?_)
    | refine OptAll.bind (Q := fun p : State × _ => Kept s₀ p.1) ?_ (fun _ _ => ?_) | refine pair_fst ?_ ‹_ = (_, _)› | split
    | extract_lets)

theorem execWorkItemDone_keep (a0 : Fin 4) (a1 : Nat) (a2 : State) (h0 : Kept s₀ a2) : OutAll (Kept s₀) (execWorkItemDone a0 a1 a2) := by
  unfold execWorkItemDone
  repeat' (with_reducible first
    | assumption | refine OutAll.go ?_ | refine State.count_keep _ _ _ ?_ | refine State.preBusy_keep _ _ _ _ ?_
    | refine OptAll.elim2 (State.runItem_keep _ _ _ _ ?_) ‹_ = some _› | refine State.voidSlot_keep _ _ _ _ ?_
    | refine State.countEntry_keep _ _ _ _ ?_ | refine State.modSlot_keep _ _ _ _ ?_ | refine State.fillSlot_keep _ _ _ _ ?_
    | exact id | split | extract_lets | intro _
    | refine Kept.of_parts ?_ rfl rfl rfl rfl rfl rfl rfl rfl rfl rfl rfl rfl rfl rfl ?_ ?_ ?_ ?_ | refine Video.ok_mk ?_ ?_ ?_
    | refine Video.ok.ee ?_ | refine Video.ok.pe ?_ | refine Video.ok.pre ?_ | refine Tbl.ok_set ?_)

/-! ### Contexts -/

theorem State.startUnshed_keep (a0 : State) (a1 : Nat) (h0 : Kept s₀ a0) : Kept s₀ (State.startUnshed a0 a1) := by
  unfold State.startUnshed
  repeat' (with_reducible first
    | assumption | refine State.setQueue_keep _ _ _ ?_ | refine State.unshed_keep _ _ ?_
    | refine foldl_keep ?_ (fun _ _ _ => ?_))

theorem State.ctxEnable_keep (a0 : State) (a1 : Nat) (h0 : Kept s₀ a0) : ExAll (Kept s₀) (State.ctxEnable a0 a1) := by
  unfold State.ctxEnable
  repeat' (with_reducible first
    | assumption | refine State.herdAlloc_keep _ _ _ _ _ ?_ | refine State.wakeSteady_keep _ ?_
    | refine State.setCtxState_keep _ _ _ ?_ | refine State.startUnshed_keep _ _ ?_
    | refine OptAll.elim (P := Kept s₀) ?_ ‹_ = some _› | refine ExAll.ok ?_ | exact ExAll.error
    | refine OptAll.bind (Q := Kept s₀) ?_ (fun _ _ => ?_) | refine ite_ex ?_ ?_ | split)

theorem execContextEnable_keep (a0 : Origin) (a1 : CtxId) (a2 : State) (h0 : Kept s₀ a2) : OutAll (Kept s₀) (execContextEnable a0 a1 a2) := by
  unfold execContextEnable
  repeat' (with_reducible first
    | assumption | refine State.dictCmd_keep _ _ _ _ _ _ ?_ ?_ | refine State.ctxEnable_keep _ _ ?_ | extract_lets | intro _)

theorem execContextReady_keep (a0 : CtxId) (a1 : State) (h0 : Kept s₀ a1) : OutAll (Kept s₀) (execContextReady a0 a1) := by
  unfold execContextReady
  repeat' (with_reducible first
    | assumption | refine OutAll.go ?_ | refine State.zeroRange_keep _ _ _ ?_ | refine State.setEntry_keep _ _ _ _ ?_
    | refine State.setCtxState_keep _ _ _ ?_ | refine foldl_keep ?_ (fun _ _ _ => ?_) | refine ite_out ?_ ?_)

theorem State.ctxLeave_keep (a0 : State) (a1 : Nat) (h0 : Kept s₀ a0) : Kept s₀ (State.ctxLeave a0 a1) := by
  unfold State.ctxLeave
  repeat' (with_reducible first
    | assumption | refine State.unshed_keep _ _ ?_ | refine State.setEntry_keep _ _ _ _ ?_
    | refine State.setCtxState_keep _ _ _ ?_)

theorem State.ctxDisable_keep (a0 : State) (a1 : Nat) (h0 : Kept s₀ a0) : ExAll (Kept s₀) (State.ctxDisable a0 a1) := by
  unfold State.ctxDisable
  repeat' (with_reducible first
    | assumption | refine State.stopCtx_keep _ _ _ ?_ | refine State.ctxLeave_keep _ _ ?_ | refine ExAll.ok ?_
    | exact ExAll.error | refine ite_ex ?_ ?_)

theorem execContextDisable_keep (a0 : Origin) (a1 : CtxId) (a2 : State) (h0 : Kept s₀ a2) : OutAll (Kept s₀) (execContextDisable a0 a1 a2) := by
  unfold execContextDisable
  repeat' (with_reducible first
    | assumption | refine State.dictCmd_keep _ _ _ _ _ _ ?_ ?_ | refine State.ctxDisable_keep _ _ ?_ | extract_lets | intro _)

theorem State.ctxGone_keep (a0 : State) (a1 : Nat) (h0 : Kept s₀ a0) : Kept s₀ (State.ctxGone a0 a1) := by
  unfold State.ctxGone
  repeat' (with_reducible first
    | assumption | refine State.setCtxState_keep _ _ _ ?_ | refine State.releaseOwner_keep _ _ _ ?_
    | refine State.freeHerd_keep _ _ ?_)

theorem execContextDisabled_keep (a0 : CtxId) (a1 : State) (h0 : Kept s₀ a1) : OutAll (Kept s₀) (execContextDisabled a0 a1) := by
  unfold execContextDisabled
  repeat' (with_reducible first | assumption | refine OutAll.go ?_ | refine State.ctxGone_keep _ _ ?_ | refine ite_out ?_ ?_)

theorem State.ctxClear_keep (a0 : State) (a1 : Nat) (h0 : Kept s₀ a0) : ExAll (Kept s₀) (State.ctxClear a0 a1) := by
  unfold State.ctxClear
  repeat' (with_reducible first
    | assumption | refine State.setCtxState_keep _ _ _ ?_ | refine State.startUnshed_keep _ _ ?_ | refine ExAll.ok ?_
    | exact ExAll.error | refine ite_ex ?_ ?_)

theorem execClearFault_keep (a0 : Origin) (a1 : CtxId) (a2 : State) (h0 : Kept s₀ a2) : OutAll (Kept s₀) (execClearFault a0 a1 a2) := by
  unfold execClearFault
  repeat' (with_reducible first
    | assumption | refine State.dictCmd_keep _ _ _ _ _ _ ?_ ?_ | refine State.ctxClear_keep _ _ ?_ | extract_lets | intro _)

theorem State.ctxQuiet_keep (a0 : State) (a1 : Nat) (h0 : Kept s₀ a0) : Kept s₀ (State.ctxQuiet a0 a1) := by
  unfold State.ctxQuiet
  repeat' (with_reducible first
    | assumption | refine State.ctxGone_keep _ _ ?_ | refine State.stopOnly_keep _ _ _ ?_ | refine State.ctxLeave_keep _ _ ?_
    | refine ite_keep ?_ ?_)

theorem State.hitchRefuse_keep (a0 : State) (a1 : W16) (a2 : Nat) (a3 : Nat) (a4 : Nat) (h0 : Kept s₀ a0) : Kept s₀ (State.hitchRefuse a0 a1 a2 a3 a4) := by
  unfold State.hitchRefuse
  repeat' (with_reducible first | assumption | refine State.famErr_keep _ _ _ ?_ | refine State.rejectV_keep _ _ _ _ _ _ ?_)

theorem State.hostSignal_keep (a0 : State) (a1 : Nat) (a2 : Nat) (h0 : Kept s₀ a0) : Kept s₀ (State.hostSignal a0 a1 a2) := by
  unfold State.hostSignal
  repeat' (with_reducible first
    | assumption | refine State.hitchRefuse_keep _ _ _ _ _ ?_ | refine State.schedule_keep _ ?_
    | refine State.serveHitch_keep _ _ ?_ | refine State.setHitch_keep _ _ _ ?_ | refine ite_keep ?_ ?_)

theorem execSchHsigWrite_keep (a0 : Fn) (a1 : W32) (a2 : State) (h0 : Kept s₀ a2) : OutAll (Kept s₀) (execSchHsigWrite a0 a1 a2) := by
  unfold execSchHsigWrite
  repeat' (with_reducible first
    | assumption | refine State.hostAct_keep _ _ _ _ ?_ ?_ | refine State.hostSignal_keep _ _ _ ?_ | extract_lets | intro _)

theorem State.hostHitch_keep (a0 : State) (a1 : Nat) (a2 : Nat) (a3 : Nat) (h0 : Kept s₀ a0) : Kept s₀ (State.hostHitch a0 a1 a2 a3) := by
  unfold State.hostHitch
  repeat' (with_reducible first
    | assumption | refine State.hitchRefuse_keep _ _ _ _ _ ?_ | refine State.schedule_keep _ ?_
    | refine State.serveHitch_keep _ _ ?_ | refine State.setHitch_keep _ _ _ ?_ | refine ite_keep ?_ ?_)

theorem execSchHitchWrite_keep (a0 : Fn) (a1 : HitchId) (a2 : W64) (a3 : State) (h0 : Kept s₀ a3) : OutAll (Kept s₀) (execSchHitchWrite a0 a1 a2 a3) := by
  unfold execSchHitchWrite
  repeat' (with_reducible first
    | assumption | refine State.hostAct_keep _ _ _ _ ?_ ?_ | refine State.hostHitch_keep _ _ _ _ ?_ | exact id | split | intro _)

theorem execHitchTimeout_keep (a0 : QueueId) (a1 : State) (h0 : Kept s₀ a1) : OutAll (Kept s₀) (execHitchTimeout a0 a1) := by
  unfold execHitchTimeout
  repeat' (with_reducible first
    | assumption | refine OutAll.go ?_ | refine State.faultCtx_keep _ _ _ _ ?_ | refine ite_out ?_ ?_ | split)

theorem execPassLimitExpiry_keep (a0 : QueueId) (a1 : State) (h0 : Kept s₀ a1) : OutAll (Kept s₀) (execPassLimitExpiry a0 a1) := by
  unfold execPassLimitExpiry
  repeat' (with_reducible first
    | assumption | refine OutAll.go ?_ | refine State.schedule_keep _ ?_ | refine State.setStep_keep _ _ _ ?_
    | refine ite_out ?_ ?_ | split)

/-! ### Generator -/

theorem State.genFill_keep (a0 : State) (a1 : Nat) (a2 : Step) (a3 : Desc) (a4 : List Byte) (h0 : Kept s₀ a0) : Kept s₀ (State.genFill a0 a1 a2 a3 a4).1 := by
  unfold State.genFill
  repeat' (with_reducible first
    | assumption | refine OptAll.elim (State.putCodes_keep _ _ _ _ _ _ ?_) ‹_ = some _› | refine foldl_fst ?_ (fun _ _ _ => ?_)
    | split)

theorem execGenFillDone_keep (a0 : QueueId) (a1 : State) (h0 : Kept s₀ a1) : OutAll (Kept s₀) (execGenFillDone a0 a1) := by
  unfold execGenFillDone
  repeat' (with_reducible first
    | assumption | refine OutAll.go ?_ | refine State.genFill_keep _ _ _ _ _ ?_ | refine State.faultCtx_keep _ _ _ _ ?_
    | refine State.countEntry_keep _ _ _ _ ?_ | refine State.checkReady_keep _ _ ?_ | refine State.setStep_keep _ _ _ ?_
    | refine pair_fst ?_ ‹_ = (_, _)› | refine ite_out ?_ ?_ | split)

theorem State.genWrite_keep (a0 : State) (a1 : Nat) (a2 : Nat) (h0 : Kept s₀ a0) : Kept s₀ (State.genWrite a0 a1 a2) := by
  unfold State.genWrite
  repeat' (with_reducible first
    | assumption | refine State.rejectV_keep _ _ _ _ _ _ ?_ | refine State.setReg_keep _ _ _ ?_ | refine ite_keep ?_ ?_)

theorem execDetGenWrite_keep (a0 : Fn) (a1 : Nat) (a2 : W64) (a3 : State) (h0 : Kept s₀ a3) : OutAll (Kept s₀) (execDetGenWrite a0 a1 a2 a3) := by
  unfold execDetGenWrite
  repeat' (with_reducible first
    | assumption | refine State.hostAct_keep _ _ _ _ ?_ ?_ | refine State.genWrite_keep _ _ _ ?_ | exact id | split | intro _)

/-! ### Loader -/

theorem State.modRank_keep (a0 : State) (a1 : Nat) (a2 : Nat) (a3 : Rank → Rank) (h0 : Kept s₀ a0) : Kept s₀ (State.modRank a0 a1 a2 a3) := by
  unfold State.modRank
  repeat' (with_reducible first | assumption | refine State.modStep_keep _ _ _ ?_)

theorem State.loadErr_keep (a0 : State) (a1 : Nat) (a2 : W16) (a3 : Nat) (a4 : Nat) (a5 : Nat) (h0 : Kept s₀ a0) : Kept s₀ (State.loadErr a0 a1 a2 a3 a4 a5) := by
  unfold State.loadErr
  repeat' (with_reducible first | assumption | refine State.errReg_keep _ _ _ ?_)

theorem State.freshBytes_keep (a0 : State) (a1 : Nat) (h0 : Kept s₀ a0) : Kept s₀ (State.freshBytes a0 a1).2 :=
  ⟨fun h => { h0.inv h with }, h0.pending, h0.out, Nat.le_add_right_of_le h0.fresh⟩
theorem State.layerStats_keep (a0 : State) (a1 : List Byte) (a2 : Nat) (a3 : Nat) (a4 : Nat) (a5 : Nat) (a6 : Nat) (a7 : Option (Prod Bool Nat)) (a8 : Nat) (h0 : Kept s₀ a0) : OptAll (Kept s₀) (State.layerStats a0 a1 a2 a3 a4 a5 a6 a7 a8) := by
  unfold State.layerStats
  repeat' (with_reducible first
    | assumption | refine State.count_keep _ _ _ ?_ | refine State.memWrite_keep _ _ _ ?_ | refine OptAll.some ?_
    | refine OptAll.bind (Q := fun _ => True) OptAll.any (fun _ _ => ?_) | split | extract_lets)

end Sys2Proof.Machine
end

