-- ==== Sys2Proof/Laws/KeepIbex.lean ====
section
/-! SUPPORT. `Kept` holds of every function of the Ibex clusters. -/

namespace Sys2Proof.Machine

variable {s₀ : State}

/-! ### Tiles -/

variable {s₀ : State}

/-! ### Windows -/

theorem State.reducePos_keep (a0 : State) (a1 : Acc1) (a2 : List Byte) (a3 : Win) (a4 : Nat) (a5 : Nat) (a6 : Nat) (a7 : Nat) (a8 : Nat) (h0 : Kept s₀ a0) : OptAll (Kept s₀) (State.reducePos a0 a1 a2 a3 a4 a5 a6 a7 a8) := by
  unfold State.reducePos
  repeat' (with_reducible first
    | assumption | refine State.count_keep _ _ _ ?_ | refine State.putCodes_keep _ _ _ _ _ _ ?_
    | refine OptAll.map (Q := Kept s₀) ?_ (fun _ _ => ?_) | refine OptAll.bind (Q := fun _ => True) OptAll.any (fun _ _ => ?_)
    | refine ite_keep ?_ ?_)

theorem State.reduceRow_keep (a0 : State) (a1 : Acc1) (a2 : List Byte) (a3 : Win) (a4 : Nat) (a5 : Nat) (a6 : Nat) (a7 : Nat) (h0 : Kept s₀ a0) : OptAll (Kept s₀) (State.reduceRow a0 a1 a2 a3 a4 a5 a6 a7) := by
  unfold State.reduceRow
  repeat' (with_reducible first
    | assumption | refine State.reducePos_keep _ _ _ _ _ _ _ _ _ ?_ | refine OptAll.some ?_
    | refine foldl_opt ?_ (fun _ _ _ => ?_) | refine OptAll.bind (Q := Kept s₀) ?_ (fun _ _ => ?_))

theorem runPieces_keep (a0 : Type) (a1 : State) (a2 : State → a0 → Option State) (a3 : List a0) (h0 : Kept s₀ a1)
    (h1 : ∀ x0 x1, Kept s₀ x0 → OptAll (Kept s₀) (a2 x0 x1)) : Kept s₀ (runPieces a1 a2 a3).1 := by
  induction a3 generalizing a1 with
  | nil => exact h0
  | cons x xs ih =>
    unfold runPieces
    split
    · exact ih _ (OptAll.elim (h1 _ _ h0) ‹_ = some _›)
    · exact h0
theorem State.reduce_keep (a0 : State) (a1 : Acc1) (a2 : List Byte) (a3 : Win) (a4 : Nat) (a5 : Nat) (a6 : Nat) (a7 : Option Nat) (h0 : Kept s₀ a0) : Kept s₀ (State.reduce a0 a1 a2 a3 a4 a5 a6 a7).1 := by
  unfold State.reduce
  repeat' (with_reducible first
    | assumption | refine runPieces_keep _ _ _ _ ?_ ?_ | refine State.reduceRow_keep _ _ _ _ _ _ _ _ ?_ | extract_lets | intro _)

/-! ### Matrix -/

theorem State.pipeRun_keep (a0 : State) (a1 : Acc1) (a2 : Mat) (a3 : Nat) (a4 : Nat) (a5 : List W32) (h0 : Kept s₀ a0) : OptAll (fun p => Kept s₀ p.1) (State.pipeRun a0 a1 a2 a3 a4 a5) := by
  unfold State.pipeRun
  repeat' (with_reducible first
    | assumption | refine State.putCodes_keep _ _ _ _ _ _ ?_ | refine State.putVals_keep _ _ _ _ _ _ ?_
    | refine OptAll.map (Q := Kept s₀) ?_ (fun _ _ => ?_)
    | refine OptAll.map (Q := fun p : State × _ => Kept s₀ p.1) ?_ (fun _ _ => ?_)
    | refine OptAll.bind (Q := fun _ => True) OptAll.any (fun _ _ => ?_) | split | extract_lets)

/-! ### Braid -/

theorem State.accWrite_keep (a0 : State) (a1 : Nat) (a2 : Nat) (a3 : Nat) (a4 : List W32) (h0 : Kept s₀ a0) : Kept s₀ (State.accWrite a0 a1 a2 a3 a4) := by
  unfold State.accWrite
  repeat' (with_reducible first
    | assumption | refine State.flipAcc_keep _ _ _ _ _ _ ?_ | refine State.modIb_keep _ _ _ ?_ ?_ | extract_lets | intro _
    | refine Ibex.ok_mk ?_ ?_ ?_ ?_ ?_ ?_ | refine Ibex.ok.spm ?_ | refine Ibex.ok.spmSyn ?_ | refine Ibex.ok.acc ?_
    | refine Ibex.ok.accSyn ?_ | refine Ibex.ok.slots ?_ | refine Ibex.ok.regions ?_ | refine Tbl.ok_setList ?_
    | refine Tbl.ok_clear ?_)

theorem State.accSat_keep (a0 : State) (a1 : Nat) (a2 : Nat) (a3 : List Bool) (h0 : Kept s₀ a0) : Kept s₀ (State.accSat a0 a1 a2 a3) := by
  unfold State.accSat
  repeat' (with_reducible first
    | assumption | refine State.setField_keep _ _ _ _ _ ?_ | refine State.count_keep _ _ _ ?_
    | refine foldl_keep ?_ (fun _ _ _ => ?_) | refine ite_keep ?_ ?_)

theorem State.modRegion_keep (a0 : State) (a1 : Nat) (a2 : Nat) (a3 : Region → Region) (h0 : Kept s₀ a0) : Kept s₀ (State.modRegion a0 a1 a2 a3) := by
  unfold State.modRegion
  repeat' (with_reducible first
    | assumption | refine State.modIb_keep _ _ _ ?_ ?_ | extract_lets | intro _ | refine Ibex.ok_mk ?_ ?_ ?_ ?_ ?_ ?_
    | refine Ibex.ok.spm ?_ | refine Ibex.ok.spmSyn ?_ | refine Ibex.ok.acc ?_ | refine Ibex.ok.accSyn ?_
    | refine Ibex.ok.slots ?_ | refine Ibex.ok.regions ?_ | refine Tbl.ok_modify ?_)

theorem State.instrDone_keep (a0 : State) (a1 : Nat) (h0 : Kept s₀ a0) : Kept s₀ (State.instrDone a0 a1) := by
  unfold State.instrDone
  repeat' (with_reducible first | assumption | refine State.count_keep _ _ _ ?_)

theorem State.mendReads_keep (a0 : State) (a1 : Nat) (a2 : Loaded) (a3 : List Span) (h0 : Kept s₀ a0) : Kept s₀ (State.mendReads a0 a1 a2 a3) := by
  unfold State.mendReads
  repeat' (with_reducible first | assumption | refine State.mendSpm_keep _ _ _ ?_)

theorem State.lostRead_keep (a0 : State) (a1 : Nat) (a2 : Loaded) (a3 : List Span) (a4 : W16) (h0 : Kept s₀ a0) : Kept s₀ (State.lostRead a0 a1 a2 a3 a4) := by
  unfold State.lostRead
  repeat' (with_reducible first | assumption | refine State.lostSpm_keep _ _ _ ?_ | refine ite_keep ?_ ?_)

theorem State.jobCheck_keep (a0 : State) (a1 : Nat) (a2 : Nat) (h0 : Kept s₀ a0) : Kept s₀ (State.jobCheck a0 a1 a2) := by
  unfold State.jobCheck
  repeat' (with_reducible first
    | assumption | refine State.instrDone_keep _ _ ?_ | refine State.mendReads_keep _ _ _ _ ?_
    | refine State.modRegion_keep _ _ _ _ ?_ | refine ite_keep ?_ ?_ | split | extract_lets)

theorem State.regionStop_keep (a0 : State) (a1 : Nat) (a2 : Nat) (a3 : Bool) (a4 : Stop) (h0 : Kept s₀ a0) : Kept s₀ (State.regionStop a0 a1 a2 a3 a4) := by
  unfold State.regionStop
  repeat' (with_reducible first
    | assumption | refine State.errReg_keep _ _ _ ?_ | refine State.modIb_keep _ _ _ ?_ ?_
    | refine State.loadErr_keep _ _ _ _ _ _ ?_ | refine State.lostRead_keep _ _ _ _ _ ?_
    | refine foldl_keep ?_ (fun _ _ _ => ?_) | split | extract_lets | intro _ | refine Ibex.ok_mk ?_ ?_ ?_ ?_ ?_ ?_
    | refine Ibex.ok.spm ?_ | refine Ibex.ok.spmSyn ?_ | refine Ibex.ok.acc ?_ | refine Ibex.ok.accSyn ?_
    | refine Ibex.ok.slots ?_ | refine Ibex.ok.regions ?_ | refine Tbl.ok_set ?_)

theorem State.countStaged_keep (a0 : State) (a1 : Nat) (a2 : Desc) (h0 : Kept s₀ a0) : Kept s₀ (State.countStaged a0 a1 a2) := by
  unfold State.countStaged
  repeat' (with_reducible first | assumption | refine State.countFree_keep _ _ ?_ | refine ite_keep ?_ ?_)

theorem State.rampUp_keep (a0 : State) (a1 : Nat) (h0 : Kept s₀ a0) : Kept s₀ (State.rampUp a0 a1) := by
  unfold State.rampUp
  repeat' (with_reducible first
    | assumption | refine State.modIb_keep _ _ _ ?_ ?_ | refine ite_keep ?_ ?_ | extract_lets | intro _
    | refine Ibex.ok_mk ?_ ?_ ?_ ?_ ?_ ?_ | refine Ibex.ok.spm ?_ | refine Ibex.ok.spmSyn ?_ | refine Ibex.ok.acc ?_
    | refine Ibex.ok.accSyn ?_ | refine Ibex.ok.slots ?_ | refine Ibex.ok.regions ?_)

theorem State.shadowOf_keep (a0 : State) (a1 : Nat) (a2 : Nat) (a3 : Loaded) (a4 : Mat) (a5 : Pass) (h0 : Kept s₀ a0) : Kept s₀ (State.shadowOf a0 a1 a2 a3 a4 a5).1 := by
  unfold State.shadowOf
  repeat' (with_reducible first
    | assumption | refine State.countStaged_keep _ _ _ ?_ | refine State.rampUp_keep _ _ ?_
    | refine State.modRegion_keep _ _ _ _ ?_ | refine ite_keep ?_ ?_ | split)

theorem State.winCount_keep (a0 : State) (a1 : Nat) (a2 : Mat) (a3 : Pass) (a4 : Nat) (h0 : Kept s₀ a0) : Kept s₀ (State.winCount a0 a1 a2 a3 a4) := by
  unfold State.winCount
  repeat' (with_reducible first | assumption | refine State.count_keep _ _ _ ?_ | split)

theorem State.issueRow_keep (a0 : State) (a1 : Nat) (a2 : Region) (a3 : Loaded) (a4 : Mat) (a5 : Pass) (a6 : Nat) (h0 : Kept s₀ a0) : Kept s₀ (State.issueRow a0 a1 a2 a3 a4 a5 a6).1 := by
  unfold State.issueRow
  repeat' (with_reducible first
    | assumption | refine State.accWrite_keep _ _ _ _ _ ?_ | refine State.count_keep _ _ _ ?_
    | refine State.winCount_keep _ _ _ _ _ ?_ | refine State.accSat_keep _ _ _ _ ?_ | split | extract_lets)

theorem State.knotOf_keep (a0 : State) (a1 : Nat) (a2 : Nat) (a3 : Loaded) (a4 : Mat) (a5 : Pass) (h0 : Kept s₀ a0) : Kept s₀ (State.knotOf a0 a1 a2 a3 a4 a5).1 := by
  unfold State.knotOf
  repeat' (with_reducible first
    | assumption | refine State.countFree_keep _ _ ?_ | refine State.count_keep _ _ _ ?_
    | refine State.modRegion_keep _ _ _ _ ?_ | refine State.addWork_keep _ _ _ ?_ | refine State.countStaged_keep _ _ _ ?_
    | refine State.issueRow_keep _ _ _ _ _ _ _ ?_ | refine State.modIb_keep _ _ _ ?_ ?_ | refine foldl_fst ?_ (fun _ _ _ => ?_)
    | refine pair_fst ?_ ‹_ = (_, _)› | refine ite_keep ?_ ?_ | split | extract_lets | intro _
    | refine Ibex.ok_mk ?_ ?_ ?_ ?_ ?_ ?_ | refine Ibex.ok.spm ?_ | refine Ibex.ok.spmSyn ?_ | refine Ibex.ok.acc ?_
    | refine Ibex.ok.accSyn ?_ | refine Ibex.ok.slots ?_ | refine Ibex.ok.regions ?_)

theorem State.pipeCounts_keep (a0 : State) (a1 : Nat) (a2 : Loaded) (a3 : Nat) (a4 : Nat) (a5 : Nat) (a6 : Nat) (h0 : Kept s₀ a0) : Kept s₀ (State.pipeCounts a0 a1 a2 a3 a4 a5 a6) := by
  unfold State.pipeCounts
  repeat' (with_reducible first
    | assumption | refine State.count_keep _ _ _ ?_ | refine State.modRank_keep _ _ _ _ ?_ | refine State.setReg_keep _ _ _ ?_
    | refine ite_keep ?_ ?_ | split | extract_lets)

theorem State.pipeOut_keep (a0 : State) (a1 : Nat) (a2 : Loaded) (a3 : Mat) (a4 : Nat) (a5 : Nat) (a6 : List W32) (h0 : Kept s₀ a0) : Kept s₀ (State.pipeOut a0 a1 a2 a3 a4 a5 a6).1 := by
  unfold State.pipeOut
  repeat' (with_reducible first
    | assumption | refine OptAll.elim2 (State.pipeRun_keep _ _ _ _ _ _ ?_) ‹_ = some _›
    | refine State.pipeCounts_keep _ _ _ _ _ _ _ ?_ | split)

theorem State.tileRun_keep (a0 : State) (a1 : Nat) (a2 : Loaded) (a3 : Mat) (a4 : Nat) (a5 : Nat) (a6 : List W32) (h0 : Kept s₀ a0) : Kept s₀ (State.tileRun a0 a1 a2 a3 a4 a5 a6).1 := by
  unfold State.tileRun
  repeat' (with_reducible first
    | assumption | refine State.pipeOut_keep _ _ _ _ _ _ _ ?_
    | refine OptAll.elim (State.putCodes_keep _ _ _ _ _ _ ?_) ‹_ = some _› | refine State.count_keep _ _ _ ?_ | split)

theorem State.tileRow_keep (a0 : State) (a1 : Nat) (a2 : Loaded) (a3 : Mat) (a4 : Pass) (a5 : Nat) (h0 : Kept s₀ a0) : Kept s₀ (State.tileRow a0 a1 a2 a3 a4 a5).1 := by
  unfold State.tileRow
  repeat' (with_reducible first
    | assumption | refine State.tileRun_keep _ _ _ _ _ _ _ ?_ | refine State.count_keep _ _ _ ?_
    | refine foldl_fst ?_ (fun _ _ _ => ?_) | split | extract_lets)

theorem State.sumRun_keep (a0 : State) (a1 : Nat) (a2 : Loaded) (a3 : Mat) (a4 : Desc) (a5 : List Nat) (a6 : Prod Nat (Prod Nat (Prod Nat Nat))) (h0 : Kept s₀ a0) : Kept s₀ (State.sumRun a0 a1 a2 a3 a4 a5 a6).1 := by
  unfold State.sumRun
  repeat' (with_reducible first | assumption | refine State.pipeOut_keep _ _ _ _ _ _ _ ?_ | split)

theorem State.tileDone_keep (a0 : State) (a1 : Nat) (a2 : Loaded) (a3 : Mat) (a4 : Pass) (h0 : Kept s₀ a0) : Kept s₀ (State.tileDone a0 a1 a2 a3 a4).1 := by
  unfold State.tileDone
  repeat' (with_reducible first
    | assumption | refine State.modStep_keep _ _ _ ?_ | refine State.sumRun_keep _ _ _ _ _ _ _ ?_
    | refine foldl_fst ?_ (fun _ _ _ => ?_) | split | extract_lets)

theorem State.outputOf_keep (a0 : State) (a1 : Nat) (a2 : Nat) (a3 : Loaded) (a4 : Mat) (a5 : Pass) (h0 : Kept s₀ a0) : Kept s₀ (State.outputOf a0 a1 a2 a3 a4 a5).1 := by
  unfold State.outputOf
  repeat' (with_reducible first
    | assumption | refine State.tileRow_keep _ _ _ _ _ _ ?_ | refine State.tileDone_keep _ _ _ _ _ ?_
    | refine State.modIb_keep _ _ _ ?_ ?_ | refine State.jobCheck_keep _ _ _ ?_ | refine State.modRegion_keep _ _ _ _ ?_
    | refine foldl_fst ?_ (fun _ _ _ => ?_) | refine pair_fst ?_ ‹_ = (_, _)› | split | extract_lets | intro _
    | refine Ibex.ok_mk ?_ ?_ ?_ ?_ ?_ ?_ | refine Ibex.ok.spm ?_ | refine Ibex.ok.spmSyn ?_ | refine Ibex.ok.acc ?_
    | refine Ibex.ok.accSyn ?_ | refine Ibex.ok.slots ?_ | refine Ibex.ok.regions ?_)

theorem State.endGap_keep (a0 : State) (a1 : Nat) (a2 : Nat) (h0 : Kept s₀ a0) : Kept s₀ (State.endGap a0 a1 a2) := by
  unfold State.endGap
  repeat' (with_reducible first
    | assumption | refine State.modIb_keep _ _ _ ?_ ?_ | refine State.dummies_keep _ _ ?_ | refine ite_keep ?_ ?_ | extract_lets
    | intro _ | refine Ibex.ok_mk ?_ ?_ ?_ ?_ ?_ ?_ | refine Ibex.ok.spm ?_ | refine Ibex.ok.spmSyn ?_ | refine Ibex.ok.acc ?_
    | refine Ibex.ok.accSyn ?_ | refine Ibex.ok.slots ?_ | refine Ibex.ok.regions ?_)

theorem State.endRamp_keep (a0 : State) (a1 : Nat) (h0 : Kept s₀ a0) : Kept s₀ (State.endRamp a0 a1) := by
  unfold State.endRamp
  repeat' (with_reducible first
    | assumption | refine State.modIb_keep _ _ _ ?_ ?_ | refine State.dummies_keep _ _ ?_ | refine ite_keep ?_ ?_ | extract_lets
    | intro _ | refine Ibex.ok_mk ?_ ?_ ?_ ?_ ?_ ?_ | refine Ibex.ok.spm ?_ | refine Ibex.ok.spmSyn ?_ | refine Ibex.ok.acc ?_
    | refine Ibex.ok.accSyn ?_ | refine Ibex.ok.slots ?_ | refine Ibex.ok.regions ?_)

theorem State.finishRegion_keep (a0 : State) (a1 : Nat) (a2 : Nat) (a3 : Nat) (h0 : Kept s₀ a0) : Kept s₀ (State.finishRegion a0 a1 a2 a3) := by
  induction a3 generalizing a0 with
  | zero => exact h0
  | succ n ih =>
  unfold State.finishRegion
  repeat' (with_reducible first
    | assumption | refine ih _ ?_ | refine State.knotOf_keep _ _ _ _ _ _ ?_ | refine State.shadowOf_keep _ _ _ _ _ _ ?_
    | refine State.endRamp_keep _ _ ?_ | refine State.outputOf_keep _ _ _ _ _ _ ?_ | refine State.endGap_keep _ _ _ ?_
    | refine State.countFree_keep _ _ ?_ | refine State.regionStop_keep _ _ _ _ _ ?_ | refine pair_fst ?_ ‹_ = (_, _)› | split
    | extract_lets)

theorem State.finishJobs_keep (a0 : State) (a1 : Nat) (h0 : Kept s₀ a0) : Kept s₀ (State.finishJobs a0 a1) := by
  unfold State.finishJobs
  repeat' (with_reducible first
    | assumption | refine State.finishRegion_keep _ _ _ _ ?_ | refine foldl_keep ?_ (fun _ _ _ => ?_))

theorem State.regionFaults_keep (a0 : State) (a1 : Nat) (a2 : List (Prod Nat (Prod Bool Stop))) (h0 : Kept s₀ a0) : Kept s₀ (State.regionFaults a0 a1 a2) := by
  unfold State.regionFaults
  repeat' (with_reducible first
    | assumption | refine State.finishJobs_keep _ _ ?_ | refine State.regionStop_keep _ _ _ _ _ ?_
    | refine State.faultCtx_keep _ _ _ _ ?_ | refine foldl_keep ?_ (fun _ _ _ => ?_))

theorem State.regionFault_keep (a0 : State) (a1 : Nat) (a2 : Nat) (a3 : Bool) (a4 : Stop) (h0 : Kept s₀ a0) : Kept s₀ (State.regionFault a0 a1 a2 a3 a4) := by
  unfold State.regionFault
  repeat' (with_reducible first | assumption | refine State.regionFaults_keep _ _ _ ?_)

theorem State.orFault_keep (a0 : Ran) (a1 : Nat) (a2 : Nat) (a3 : Bool) (h0 : Kept s₀ a0.1) : Kept s₀ (State.orFault a0 a1 a2 a3) := by
  unfold State.orFault
  repeat' (with_reducible first | assumption | refine State.regionFault_keep _ _ _ _ _ ?_ | split)

theorem State.drainOut_keep (a0 : State) (a1 : Nat) (h0 : Kept s₀ a0) : Kept s₀ (State.drainOut a0 a1) := by
  unfold State.drainOut
  repeat' (with_reducible first
    | assumption | refine State.outputOf_keep _ _ _ _ _ _ ?_ | refine State.regionFault_keep _ _ _ _ _ ?_
    | refine foldl_keep ?_ (fun _ _ _ => ?_) | refine pair_fst ?_ ‹_ = (_, _)› | split)

theorem execShadowLoad_keep (a0 : IbexId) (a1 : Quarter) (a2 : State) (h0 : Kept s₀ a2) : OutAll (Kept s₀) (execShadowLoad a0 a1 a2) := by
  unfold execShadowLoad
  repeat' (with_reducible first
    | assumption | refine OutAll.go ?_ | refine State.orFault_keep _ _ _ _ ?_ | refine State.shadowOf_keep _ _ _ _ _ _ ?_
    | refine ite_out ?_ ?_ | split)

theorem State.holdFault_keep (a0 : State) (a1 : Nat) (a2 : Nat) (h0 : Kept s₀ a0) : Kept s₀ (State.holdFault a0 a1 a2) := by
  unfold State.holdFault
  repeat' (with_reducible first | assumption | refine State.regionFault_keep _ _ _ _ _ ?_ | refine State.count_keep _ _ _ ?_)

theorem execKnotIssue_keep (a0 : IbexId) (a1 : Quarter) (a2 : Nat) (a3 : State) (h0 : Kept s₀ a3) : OutAll (Kept s₀) (execKnotIssue a0 a1 a2 a3) := by
  unfold execKnotIssue
  repeat' (with_reducible first
    | assumption | refine OutAll.go ?_ | refine State.holdFault_keep _ _ _ ?_ | refine State.count_keep _ _ _ ?_
    | refine State.orFault_keep _ _ _ _ ?_ | refine State.knotOf_keep _ _ _ _ _ _ ?_ | refine State.endGap_keep _ _ _ ?_
    | refine ite_out ?_ ?_ | split)

theorem execBrdKnotHold_keep (a0 : IbexId) (a1 : Quarter) (a2 : State) (h0 : Kept s₀ a2) : OutAll (Kept s₀) (execBrdKnotHold a0 a1 a2) := by
  unfold execBrdKnotHold
  repeat' (with_reducible first
    | assumption | refine OutAll.go ?_ | refine State.holdFault_keep _ _ _ ?_ | refine ite_out ?_ ?_ | split)

theorem execRegionFault_keep (a0 : IbexId) (a1 : RegionHit) (a2 : List RegionHit) (a3 : State) (h0 : Kept s₀ a3) : OutAll (Kept s₀) (execRegionFault a0 a1 a2 a3) := by
  unfold execRegionFault
  repeat' (with_reducible first | assumption | refine OutAll.go ?_ | refine State.regionFaults_keep _ _ _ ?_)

theorem execOutputTile_keep (a0 : IbexId) (a1 : State) (h0 : Kept s₀ a1) : OutAll (Kept s₀) (execOutputTile a0 a1) := by
  unfold execOutputTile
  repeat' (with_reducible first
    | assumption | refine OutAll.go ?_ | refine State.orFault_keep _ _ _ _ ?_ | refine State.outputOf_keep _ _ _ _ _ _ ?_
    | split)

theorem execRampDown_keep (a0 : IbexId) (a1 : State) (h0 : Kept s₀ a1) : OutAll (Kept s₀) (execRampDown a0 a1) := by
  unfold execRampDown
  repeat' (with_reducible first
    | assumption | refine OutAll.go ?_ | refine State.modIb_keep _ _ _ ?_ ?_ | refine ite_out ?_ ?_ | extract_lets | intro _
    | refine Ibex.ok_mk ?_ ?_ ?_ ?_ ?_ ?_ | refine Ibex.ok.spm ?_ | refine Ibex.ok.spmSyn ?_ | refine Ibex.ok.acc ?_
    | refine Ibex.ok.accSyn ?_ | refine Ibex.ok.slots ?_ | refine Ibex.ok.regions ?_)

theorem execRampGroupStep_keep (a0 : IbexId) (a1 : State) (h0 : Kept s₀ a1) : OutAll (Kept s₀) (execRampGroupStep a0 a1) := by
  unfold execRampGroupStep
  repeat' (with_reducible first
    | assumption | refine OutAll.go ?_ | refine State.dummies_keep _ _ ?_ | refine State.modIb_keep _ _ _ ?_ ?_
    | refine ite_out ?_ ?_ | split | extract_lets | intro _ | refine Ibex.ok_mk ?_ ?_ ?_ ?_ ?_ ?_ | refine Ibex.ok.spm ?_
    | refine Ibex.ok.spmSyn ?_ | refine Ibex.ok.acc ?_ | refine Ibex.ok.accSyn ?_ | refine Ibex.ok.slots ?_
    | refine Ibex.ok.regions ?_)

theorem State.resetRegions_keep (a0 : State) (a1 : Nat) (a2 : List Nat) (h0 : Kept s₀ a0) : Kept s₀ (State.resetRegions a0 a1 a2) := by
  unfold State.resetRegions
  repeat' (with_reducible first
    | assumption | refine State.errReg_keep _ _ _ ?_ | refine State.loadErr_keep _ _ _ _ _ _ ?_
    | refine foldl_keep ?_ (fun _ _ _ => ?_) | refine ite_keep ?_ ?_)

theorem execClusterReset_keep (a0 : IbexId) (a1 : List Quarter) (a2 : State) (h0 : Kept s₀ a2) : OutAll (Kept s₀) (execClusterReset a0 a1 a2) := by
  unfold execClusterReset
  repeat' (with_reducible first
    | assumption | refine State.gapEnds_keep _ _ ?_ | refine State.resetRegions_keep _ _ _ ?_
    | refine State.modIb_keep _ _ _ ?_ ?_ | refine State.dropRegs_keep _ _ ?_ | refine OutAll.go ?_
    | refine State.schedule_keep _ ?_ | refine State.faultOnly_keep _ _ _ _ ?_ | refine foldl_keep ?_ (fun _ _ _ => ?_)
    | extract_lets | intro _ | refine Ibex.ok_mk ?_ ?_ ?_ ?_ ?_ ?_ | refine Ibex.ok.spm ?_ | refine Ibex.ok.spmSyn ?_
    | exact Tbl.ok_nil)

theorem State.brdCfg_keep (a0 : State) (a1 : Nat) (a2 : Nat) (h0 : Kept s₀ a0) : Kept s₀ (State.brdCfg a0 a1 a2) := by
  unfold State.brdCfg
  repeat' (with_reducible first
    | assumption | refine State.logErr_keep _ _ _ _ _ _ _ ?_ | refine State.setReg_keep _ _ _ ?_
    | refine State.modIb_keep _ _ _ ?_ ?_ | refine ite_keep ?_ ?_ | split | extract_lets | intro _
    | refine Ibex.ok_mk ?_ ?_ ?_ ?_ ?_ ?_ | refine Ibex.ok.spm ?_ | refine Ibex.ok.spmSyn ?_ | refine Ibex.ok.acc ?_
    | refine Ibex.ok.accSyn ?_ | refine Ibex.ok.slots ?_ | refine Ibex.ok.regions ?_)

theorem execBrdCfgWrite_keep (a0 : Fn) (a1 : IbexId) (a2 : W32) (a3 : State) (h0 : Kept s₀ a3) : OutAll (Kept s₀) (execBrdCfgWrite a0 a1 a2 a3) := by
  unfold execBrdCfgWrite
  repeat' (with_reducible first
    | assumption | refine State.hostAct_keep _ _ _ _ ?_ ?_ | refine State.brdCfg_keep _ _ _ ?_ | exact id | split | intro _)

/-! ### Units -/

theorem State.syncShow_keep (a0 : State) (a1 : Nat) (a2 : Loaded) (h0 : Kept s₀ a0) : Kept s₀ (State.syncShow a0 a1 a2) := by
  unfold State.syncShow
  repeat' (with_reducible first | assumption | refine State.modRegion_keep _ _ _ _ ?_ | refine foldl_keep ?_ (fun _ _ _ => ?_))

theorem State.passCur_keep (a0 : State) (a1 : Nat) (a2 : Loaded) (h0 : Kept s₀ a0) : Kept s₀ (State.passCur a0 a1 a2) := by
  unfold State.passCur
  repeat' (with_reducible first
    | assumption | refine State.syncShow_keep _ _ _ ?_ | refine State.modRank_keep _ _ _ _ ?_
    | refine State.modIb_keep _ _ _ ?_ ?_ | refine ite_keep ?_ ?_ | extract_lets | intro _ | refine Ibex.ok_mk ?_ ?_ ?_ ?_ ?_ ?_
    | refine Ibex.ok.spm ?_ | refine Ibex.ok.spmSyn ?_ | refine Ibex.ok.acc ?_ | refine Ibex.ok.accSyn ?_
    | refine Ibex.ok.slots ?_ | refine Ibex.ok.regions ?_)

theorem State.unitFault_keep (a0 : State) (a1 : Nat) (a2 : Loaded) (a3 : List Span) (a4 : W16) (h0 : Kept s₀ a0) : Kept s₀ (State.unitFault a0 a1 a2 a3 a4) := by
  unfold State.unitFault
  repeat' (with_reducible first
    | assumption | refine State.faultCtx_keep _ _ _ _ ?_ | refine State.finishJobs_keep _ _ ?_
    | refine State.modIb_keep _ _ _ ?_ ?_ | refine State.loadErr_keep _ _ _ _ _ _ ?_ | refine State.lostRead_keep _ _ _ _ _ ?_
    | extract_lets | intro _ | refine Ibex.ok_mk ?_ ?_ ?_ ?_ ?_ ?_ | refine Ibex.ok.spm ?_ | refine Ibex.ok.spmSyn ?_
    | refine Ibex.ok.acc ?_ | refine Ibex.ok.accSyn ?_ | refine Ibex.ok.slots ?_ | refine Ibex.ok.regions ?_)

theorem State.laneWork_keep (a0 : State) (a1 : State) (a2 : Nat) (a3 : Loaded) (h0 : Kept s₀ a0) (h1 : Kept s₀ a1) : Kept s₀ (State.laneWork a0 a1 a2 a3) := by
  unfold State.laneWork
  repeat' (with_reducible first | assumption | refine State.addWork_keep _ _ _ ?_ | refine ite_keep ?_ ?_)

theorem State.runUnit_keep (a0 : State) (a1 : Nat) (a2 : Nat) (a3 : Option Nat) (a4 : State → Loaded → List Span) (a5 : Loaded → Rank → State → Prod State (Option W16)) (h0 : Kept s₀ a0) (h1 : ∀ x0 x1 x2, Kept s₀ (x2) → Kept s₀ (a5 x0 x1 x2).1) : OutAll (Kept s₀) (State.runUnit a0 a1 a2 a3 a4 a5) := by
  unfold State.runUnit
  repeat' (with_reducible first
    | assumption | refine OutAll.go ?_ | refine State.unitFault_keep _ _ _ _ _ ?_ | refine State.laneWork_keep _ _ _ _ ?_ ?_
    | refine State.instrDone_keep _ _ ?_ | refine State.passCur_keep _ _ _ ?_ | refine State.mendReads_keep _ _ _ _ ?_
    | refine State.modRank_keep _ _ _ _ ?_ | refine pair_fst (h1 _ _ _ ?_) ‹_ = _› | refine ite_out ?_ ?_ | split)

theorem orUe_keep (a0 : State) (a1 : Option State) (h0 : Kept s₀ a0) (h1 : OptAll (Kept s₀) (a1)) : Kept s₀ (orUe a0 a1).1 := by
  unfold orUe
  repeat' (with_reducible first | assumption | refine OptAll.elim h1 rfl | split)

/-! ### Sorter -/

theorem State.setSorting_keep (a0 : State) (a1 : Loaded) (a2 : Sorting) (h0 : Kept s₀ a0) : Kept s₀ (State.setSorting a0 a1 a2) := by
  unfold State.setSorting
  repeat' (with_reducible first | assumption | refine State.modRank_keep _ _ _ _ ?_)

theorem State.sortKeys_keep (a0 : State) (a1 : Acc1) (a2 : Loaded) (a3 : Desc) (h0 : Kept s₀ a0) : OptAll (Kept s₀) (State.sortKeys a0 a1 a2 a3) := by
  unfold State.sortKeys
  repeat' (with_reducible first
    | assumption | refine State.freshBytes_keep _ _ ?_ | refine State.setSorting_keep _ _ _ ?_
    | refine State.count_keep _ _ _ ?_ | refine State.tWrite_keep _ _ _ _ _ ?_
    | refine OptAll.map (Q := Kept s₀) ?_ (fun _ _ => ?_) | refine OptAll.bind (Q := fun _ => True) OptAll.any (fun _ _ => ?_))

theorem State.sortCand_keep (a0 : State) (a1 : Acc1) (a2 : Loaded) (a3 : Option Desc) (a4 : Option Desc) (a5 : Nat) (h0 : Kept s₀ a0) : OptAll (Kept s₀) (State.sortCand a0 a1 a2 a3 a4 a5) := by
  unfold State.sortCand
  repeat' (with_reducible first
    | assumption | refine State.count_keep _ _ _ ?_ | refine State.setSorting_keep _ _ _ ?_ | refine OptAll.some ?_
    | refine OptAll.map (Q := fun _ => True) OptAll.any (fun _ _ => ?_)
    | refine OptAll.bind (Q := fun _ => True) OptAll.any (fun _ _ => ?_) | refine ite_keep ?_ ?_ | split | extract_lets)

theorem State.sortOut_keep (a0 : State) (a1 : Acc1) (a2 : Loaded) (a3 : Desc) (a4 : Desc) (h0 : Kept s₀ a0) : OptAll (Kept s₀) (State.sortOut a0 a1 a2 a3 a4) := by
  unfold State.sortOut
  repeat' (with_reducible first
    | assumption | refine State.putCodes_keep _ _ _ _ _ _ ?_ | refine State.count_keep _ _ _ ?_ | refine OptAll.some ?_
    | refine foldl_opt ?_ (fun _ _ _ => ?_) | refine OptAll.map (Q := Kept s₀) ?_ (fun _ _ => ?_)
    | refine OptAll.bind (Q := Kept s₀) ?_ (fun _ _ => ?_))

theorem State.sort_keep (a0 : State) (a1 : Acc1) (a2 : Loaded) (a3 : Nat) (a4 : Option Nat) (h0 : Kept s₀ a0) : Kept s₀ (State.sort a0 a1 a2 a3 a4).1 := by
  unfold State.sort
  repeat' (with_reducible first
    | assumption | refine pair_fst (runPieces_keep _ _ _ _ ?_ ?_) ‹_ = _› | refine State.sortKeys_keep _ _ _ _ ?_
    | refine State.sortCand_keep _ _ _ _ _ _ ?_ | refine orUe_keep _ _ ?_ ?_ | refine State.sortOut_keep _ _ _ _ _ ?_
    | refine OptAll.some ?_ | split | extract_lets | intro _)

theorem execSsort_keep (a0 : IbexId) (a1 : Option Nat) (a2 : State) (h0 : Kept s₀ a2) : OutAll (Kept s₀) (execSsort a0 a1 a2) := by
  unfold execSsort
  repeat' (with_reducible first
    | assumption | refine State.runUnit_keep _ _ _ _ _ _ ?_ ?_ | refine State.sort_keep _ _ _ _ _ ?_ | exact id | split
    | extract_lets | intro _)

/-! ### Hist -/

theorem State.hist_keep (a0 : State) (a1 : Acc1) (a2 : List Byte) (a3 : List (Option Desc)) (h0 : Kept s₀ a0) : OptAll (Kept s₀) (State.hist a0 a1 a2 a3) := by
  unfold State.hist
  repeat' (with_reducible first
    | assumption | refine State.count_keep _ _ _ ?_ | refine State.putCodes_keep _ _ _ _ _ _ ?_ | refine OptAll.some ?_
    | refine foldl_opt ?_ (fun _ _ _ => ?_) | refine OptAll.map (Q := Kept s₀) ?_ (fun _ _ => ?_)
    | refine OptAll.bind (Q := Kept s₀) ?_ (fun _ _ => ?_) | refine OptAll.bind (Q := fun _ => True) OptAll.any (fun _ _ => ?_)
    | split)

theorem execHist_keep (a0 : IbexId) (a1 : State) (h0 : Kept s₀ a1) : OutAll (Kept s₀) (execHist a0 a1) := by
  unfold execHist
  repeat' (with_reducible first
    | assumption | refine State.runUnit_keep _ _ _ _ _ _ ?_ ?_ | refine orUe_keep _ _ ?_ ?_ | refine State.hist_keep _ _ _ _ ?_
    | exact id | split | extract_lets | intro _)

/-! ### Arith -/

variable {s₀ : State}

/-! ### Vector -/

theorem State.vstore_keep (a0 : State) (a1 : Acc1) (a2 : Desc) (a3 : Nat) (a4 : Nat) (a5 : List Val) (a6 : Nat) (h0 : Kept s₀ a0) : OptAll (Kept s₀) (State.vstore a0 a1 a2 a3 a4 a5 a6) := by
  unfold State.vstore
  repeat' (with_reducible first
    | assumption | refine State.count_keep _ _ _ ?_ | refine State.putVals_keep _ _ _ _ _ _ ?_
    | refine OptAll.map (Q := fun p : State × _ => Kept s₀ p.1) ?_ (fun _ _ => ?_))

theorem State.vseqGroup_keep (a0 : State) (a1 : Acc1) (a2 : List Byte) (a3 : Desc) (a4 : Option Desc) (a5 : Option Desc) (a6 : Desc) (a7 : Fmt) (a8 : List Val) (a9 : List Piece) (h0 : Kept s₀ a0) : OptAll (Kept s₀) (State.vseqGroup a0 a1 a2 a3 a4 a5 a6 a7 a8 a9) := by
  unfold State.vseqGroup
  repeat' (with_reducible first
    | assumption | refine State.vstore_keep _ _ _ _ _ _ _ ?_ | refine OptAll.some ?_ | refine foldl_opt ?_ (fun _ _ _ => ?_)
    | refine OptAll.bind (Q := Kept s₀) ?_ (fun _ _ => ?_) | refine OptAll.bind (Q := fun _ => True) OptAll.any (fun _ _ => ?_))

theorem State.vseq_keep (a0 : State) (a1 : Acc1) (a2 : Loaded) (a3 : Nat) (a4 : Option Nat) (h0 : Kept s₀ a0) : Kept s₀ (State.vseq a0 a1 a2 a3 a4).1 := by
  unfold State.vseq
  repeat' (with_reducible first
    | assumption | refine State.count_keep _ _ _ ?_ | refine runPieces_keep _ _ _ _ ?_ ?_
    | refine State.vseqGroup_keep _ _ _ _ _ _ _ _ _ _ ?_ | split | extract_lets | intro _)

theorem execVseq_keep (a0 : IbexId) (a1 : Option Nat) (a2 : State) (h0 : Kept s₀ a2) : OutAll (Kept s₀) (execVseq a0 a1 a2) := by
  unfold execVseq
  repeat' (with_reducible first
    | assumption | refine State.runUnit_keep _ _ _ _ _ _ ?_ ?_ | refine State.vseq_keep _ _ _ _ _ ?_ | extract_lets | intro _)

theorem State.vred_keep (a0 : State) (a1 : Acc1) (a2 : Loaded) (a3 : Nat) (a4 : Option Nat) (h0 : Kept s₀ a0) : Kept s₀ (State.vred a0 a1 a2 a3 a4).1 := by
  unfold State.vred
  repeat' (with_reducible first
    | assumption | refine State.count_keep _ _ _ ?_ | refine runPieces_keep _ _ _ _ ?_ ?_
    | refine State.vstore_keep _ _ _ _ _ _ _ ?_ | refine OptAll.bind (Q := fun _ => True) OptAll.any (fun _ _ => ?_)
    | refine ite_keep ?_ ?_ | split | extract_lets | intro _)

theorem execVred_keep (a0 : IbexId) (a1 : Option Nat) (a2 : State) (h0 : Kept s₀ a2) : OutAll (Kept s₀) (execVred a0 a1 a2) := by
  unfold execVred
  repeat' (with_reducible first
    | assumption | refine State.runUnit_keep _ _ _ _ _ _ ?_ ?_ | refine State.vred_keep _ _ _ _ _ ?_ | extract_lets | intro _)

theorem State.putRow_keep (a0 : State) (a1 : Acc1) (a2 : Desc) (a3 : Nat) (a4 : List (Prod Nat Nat)) (h0 : Kept s₀ a0) : OptAll (Kept s₀) (State.putRow a0 a1 a2 a3 a4) := by
  unfold State.putRow
  repeat' (with_reducible first
    | assumption | refine State.putCodes_keep _ _ _ _ _ _ ?_ | refine State.tWrite_keep _ _ _ _ _ ?_ | refine OptAll.some ?_
    | refine OptAll.bind (Q := Kept s₀) ?_ (fun _ _ => ?_) | split)

theorem State.vmoveRow_keep (a0 : State) (a1 : Acc1) (a2 : Loaded) (a3 : Desc) (a4 : Desc) (a5 : Desc) (a6 : Nat) (a7 : Nat) (a8 : Nat) (h0 : Kept s₀ a0) : OptAll (Kept s₀) (State.vmoveRow a0 a1 a2 a3 a4 a5 a6 a7 a8) := by
  unfold State.vmoveRow
  repeat' (with_reducible first
    | assumption | refine State.count_keep _ _ _ ?_ | refine State.putRow_keep _ _ _ _ _ ?_ | refine OptAll.some ?_
    | refine OptAll.map (Q := Kept s₀) ?_ (fun _ _ => ?_) | refine OptAll.bind (Q := fun _ => True) OptAll.any (fun _ _ => ?_)
    | refine ite_keep ?_ ?_ | split | extract_lets)

theorem State.vmove_keep (a0 : State) (a1 : Acc1) (a2 : Loaded) (a3 : Nat) (a4 : Option Nat) (h0 : Kept s₀ a0) : Kept s₀ (State.vmove a0 a1 a2 a3 a4).1 := by
  unfold State.vmove
  repeat' (with_reducible first
    | assumption | refine State.count_keep _ _ _ ?_ | refine runPieces_keep _ _ _ _ ?_ ?_
    | refine State.vmoveRow_keep _ _ _ _ _ _ _ _ _ ?_ | split | extract_lets | intro _)

theorem execVmove_keep (a0 : IbexId) (a1 : Option Nat) (a2 : State) (h0 : Kept s₀ a2) : OutAll (Kept s₀) (execVmove a0 a1 a2) := by
  unfold execVmove
  repeat' (with_reducible first
    | assumption | refine State.runUnit_keep _ _ _ _ _ _ ?_ ?_ | refine State.vmove_keep _ _ _ _ _ ?_ | extract_lets | intro _)

theorem State.voptBlock_keep (a0 : State) (a1 : Acc1) (a2 : List Byte) (a3 : Desc) (a4 : Desc) (a5 : Desc) (a6 : Desc) (a7 : Prod Nat Nat) (h0 : Kept s₀ a0) : OptAll (Kept s₀) (State.voptBlock a0 a1 a2 a3 a4 a5 a6 a7) := by
  unfold State.voptBlock
  repeat' (with_reducible first
    | assumption | refine State.vstore_keep _ _ _ _ _ _ _ ?_ | refine OptAll.bind (Q := Kept s₀) ?_ (fun _ _ => ?_)
    | refine OptAll.bind (Q := fun _ => True) OptAll.any (fun _ _ => ?_))

theorem State.vopt_keep (a0 : State) (a1 : Acc1) (a2 : Loaded) (a3 : Nat) (a4 : Option Nat) (h0 : Kept s₀ a0) : Kept s₀ (State.vopt a0 a1 a2 a3 a4).1 := by
  unfold State.vopt
  repeat' (with_reducible first
    | assumption | refine State.count_keep _ _ _ ?_ | refine runPieces_keep _ _ _ _ ?_ ?_
    | refine State.voptBlock_keep _ _ _ _ _ _ _ _ ?_ | refine ite_keep ?_ ?_ | split | extract_lets | intro _)

theorem execVopt_keep (a0 : IbexId) (a1 : Option Nat) (a2 : State) (h0 : Kept s₀ a2) : OutAll (Kept s₀) (execVopt a0 a1 a2) := by
  unfold execVopt
  repeat' (with_reducible first
    | assumption | refine State.runUnit_keep _ _ _ _ _ _ ?_ ?_ | refine State.vopt_keep _ _ _ _ _ ?_ | extract_lets | intro _)

/-! ### Scalar -/

theorem State.track_keep (a0 : State) (a1 : Acc1) (a2 : Loaded) (h0 : Kept s₀ a0) : Kept s₀ (State.track a0 a1 a2).1 := by
  unfold State.track
  repeat' (with_reducible first
    | assumption | refine orUe_keep _ _ ?_ ?_ | refine State.count_keep _ _ _ ?_ | refine State.modSlot_keep _ _ _ _ ?_
    | refine State.tWrite_keep _ _ _ _ _ ?_ | refine State.memWrite_keep _ _ _ ?_
    | refine OptAll.map (Q := Kept s₀) ?_ (fun _ _ => ?_) | refine OptAll.bind (Q := Kept s₀) ?_ (fun _ _ => ?_) | split)

theorem execTrack_keep (a0 : IbexId) (a1 : State) (h0 : Kept s₀ a1) : OutAll (Kept s₀) (execTrack a0 a1) := by
  unfold execTrack
  repeat' (with_reducible first
    | assumption | refine State.runUnit_keep _ _ _ _ _ _ ?_ ?_ | refine State.track_keep _ _ _ ?_ | exact id | split
    | extract_lets | intro _)

theorem State.emitRecord_keep (a0 : State) (a1 : Nat) (a2 : Nat) (a3 : Nat) (a4 : List Byte) (h0 : Kept s₀ a0) : Kept s₀ (State.emitRecord a0 a1 a2 a3 a4) := by
  unfold State.emitRecord
  repeat' (with_reducible first
    | assumption | refine State.putRecord_keep _ _ _ ?_ | refine State.count_keep _ _ _ ?_
    | refine State.modSlot_keep _ _ _ _ ?_ | exact OptAll.none | refine OptAll.elim (P := Kept s₀) ?_ ‹_ = some _› | split)

theorem State.emitClose_keep (a0 : State) (a1 : Nat) (a2 : Nat) (a3 : Nat) (a4 : Nat) (a5 : W16) (a6 : Nat) (h0 : Kept s₀ a0) : Kept s₀ (State.emitClose a0 a1 a2 a3 a4 a5 a6) := by
  unfold State.emitClose
  repeat' (with_reducible first
    | assumption | refine State.closeSlot_keep _ _ _ _ _ _ _ _ ?_ | refine State.count_keep _ _ _ ?_
    | refine State.modSlot_keep _ _ _ _ ?_ | refine ite_keep ?_ ?_ | split)

theorem State.emit_keep (a0 : State) (a1 : Acc1) (a2 : Loaded) (h0 : Kept s₀ a0) : Kept s₀ (State.emit a0 a1 a2).1 := by
  unfold State.emit
  repeat' (with_reducible first
    | assumption | refine State.emitClose_keep _ _ _ _ _ _ _ ?_ | refine State.emitRecord_keep _ _ _ _ _ ?_
    | refine State.memPut_keep _ _ _ ?_ | refine State.modSlot_keep _ _ _ _ ?_ | refine State.modStream_keep _ _ _ ?_
    | refine foldl_keep ?_ (fun _ _ _ => ?_) | split)

theorem execEmit_keep (a0 : IbexId) (a1 : State) (h0 : Kept s₀ a1) : OutAll (Kept s₀) (execEmit a0 a1) := by
  unfold execEmit
  repeat' (with_reducible first
    | assumption | refine State.runUnit_keep _ _ _ _ _ _ ?_ ?_ | refine State.emit_keep _ _ _ ?_ | exact id | split
    | extract_lets | intro _)

theorem execSclWatchdog_keep (a0 : IbexId) (a1 : State) (h0 : Kept s₀ a1) : OutAll (Kept s₀) (execSclWatchdog a0 a1) := by
  unfold execSclWatchdog
  repeat' (with_reducible first
    | assumption | refine OutAll.go ?_ | refine State.unitFault_keep _ _ _ _ _ ?_ | refine ite_out ?_ ?_ | split)

/-! ### Walker -/

theorem State.walkFault_keep (a0 : State) (a1 : Nat) (a2 : Nat) (a3 : Nat) (a4 : Nat) (a5 : W16) (h0 : Kept s₀ a0) : Kept s₀ (State.walkFault a0 a1 a2 a3 a4 a5) := by
  unfold State.walkFault
  repeat' (with_reducible first
    | assumption | refine State.faultCtx_keep _ _ _ _ ?_ | refine State.finishJobs_keep _ _ ?_
    | refine State.modIb_keep _ _ _ ?_ ?_ | refine State.loadErr_keep _ _ _ _ _ _ ?_ | extract_lets | intro _
    | refine Ibex.ok_mk ?_ ?_ ?_ ?_ ?_ ?_ | refine Ibex.ok.spm ?_ | refine Ibex.ok.spmSyn ?_ | refine Ibex.ok.acc ?_
    | refine Ibex.ok.accSyn ?_ | refine Ibex.ok.slots ?_ | refine Ibex.ok.regions ?_)

theorem State.noEnd_keep (a0 : State) (a1 : Nat) (a2 : Nat) (a3 : Nat) (a4 : Nat) (h0 : Kept s₀ a0) : Kept s₀ (State.noEnd a0 a1 a2 a3 a4) := by
  unfold State.noEnd
  repeat' (with_reducible first
    | assumption | refine State.modIb_keep _ _ _ ?_ ?_ | refine State.loadErr_keep _ _ _ _ _ _ ?_
    | refine State.regionStop_keep _ _ _ _ _ ?_ | refine State.modRegion_keep _ _ _ _ ?_ | refine State.faultCtx_keep _ _ _ _ ?_
    | refine foldl_keep ?_ (fun _ _ _ => ?_) | extract_lets | intro _ | refine Ibex.ok_mk ?_ ?_ ?_ ?_ ?_ ?_
    | refine Ibex.ok.spm ?_ | refine Ibex.ok.spmSyn ?_ | refine Ibex.ok.acc ?_ | refine Ibex.ok.accSyn ?_
    | refine Ibex.ok.slots ?_ | refine Ibex.ok.regions ?_)

theorem State.loadReject_keep (a0 : State) (a1 : Nat) (a2 : Nat) (a3 : Step) (a4 : Nat) (a5 : Fail) (h0 : Kept s₀ a0) : Kept s₀ (State.loadReject a0 a1 a2 a3 a4 a5) := by
  unfold State.loadReject
  repeat' (with_reducible first
    | assumption | refine State.count_keep _ _ _ ?_ | refine State.loadErr_keep _ _ _ _ _ _ ?_
    | refine State.faultCtx_keep _ _ _ _ ?_ | refine State.finishJobs_keep _ _ ?_ | refine foldl_keep ?_ (fun _ _ _ => ?_))

theorem State.loadChecked_keep (a0 : State) (a1 : Nat) (a2 : Nat) (a3 : Step) (a4 : Nat) (a5 : Nat) (a6 : Nat) (a7 : Bool) (a8 : List Byte) (h0 : Kept s₀ a0) : Kept s₀ (State.loadChecked a0 a1 a2 a3 a4 a5 a6 a7 a8) := by
  unfold State.loadChecked
  repeat' (with_reducible first
    | assumption | refine State.loadReject_keep _ _ _ _ _ _ ?_ | refine State.modIb_keep _ _ _ ?_ ?_ | split | extract_lets
    | intro _ | refine Ibex.ok_mk ?_ ?_ ?_ ?_ ?_ ?_ | refine Ibex.ok.spm ?_ | refine Ibex.ok.spmSyn ?_ | refine Ibex.ok.acc ?_
    | refine Ibex.ok.accSyn ?_ | refine Ibex.ok.slots ?_ | refine Ibex.ok.regions ?_)

theorem State.wideDone_keep (a0 : State) (a1 : Nat) (a2 : Nat) (a3 : Rank) (h0 : Kept s₀ a0) : OptAll (Kept s₀) (State.wideDone a0 a1 a2 a3) := by
  unfold State.wideDone
  repeat' (with_reducible first
    | assumption | refine State.modRank_keep _ _ _ _ ?_ | refine State.layerStats_keep _ _ _ _ _ _ _ _ _ ?_
    | refine OptAll.map (Q := Kept s₀) ?_ (fun _ _ => ?_))

theorem State.loadAt_keep (a0 : State) (a1 : Nat) (h0 : Kept s₀ a0) : Kept s₀ (State.loadAt a0 a1) := by
  unfold State.loadAt
  repeat' (with_reducible first
    | assumption | refine State.noEnd_keep _ _ _ _ _ ?_ | refine State.walkFault_keep _ _ _ _ _ _ ?_
    | refine State.loadChecked_keep _ _ _ _ _ _ _ _ _ ?_
    | refine OptAll.elim (State.layerStats_keep _ _ _ _ _ _ _ _ _ ?_) ‹_ = some _› | refine State.modRank_keep _ _ _ _ ?_
    | refine ite_keep ?_ ?_ | split | extract_lets)

theorem State.loadNext_keep (a0 : State) (a1 : Nat) (a2 : Nat) (h0 : Kept s₀ a0) : Kept s₀ (State.loadNext a0 a1 a2) := by
  unfold State.loadNext
  repeat' (with_reducible first
    | assumption | refine State.modRank_keep _ _ _ _ ?_ | refine OptAll.elim (State.wideDone_keep _ _ _ _ ?_) ‹_ = some _›
    | refine State.walkFault_keep _ _ _ _ _ _ ?_ | refine State.loadAt_keep _ _ ?_ | refine ite_keep ?_ ?_ | split)

theorem execInstructionLoad_keep (a0 : IbexId) (a1 : Nat) (a2 : State) (h0 : Kept s₀ a2) : OutAll (Kept s₀) (execInstructionLoad a0 a1 a2) := by
  unfold execInstructionLoad
  repeat' (with_reducible first | assumption | refine OutAll.go ?_ | refine State.loadNext_keep _ _ _ ?_)

theorem execNop_keep (a0 : IbexId) (a1 : State) (h0 : Kept s₀ a1) : OutAll (Kept s₀) (execNop a0 a1) := by
  unfold execNop
  repeat' (with_reducible first | assumption | refine State.runUnit_keep _ _ _ _ _ _ ?_ ?_ | exact id | extract_lets | intro _)

theorem State.stage2_keep (a0 : State) (a1 : Acc1) (a2 : List Byte) (h0 : Kept s₀ a0) : Kept s₀ (State.stage2 a0 a1 a2) := by
  unfold State.stage2
  repeat' (with_reducible first
    | assumption | refine State.freshBytes_keep _ _ ?_ | refine State.tWrite_keep _ _ _ _ _ ?_ | refine OptAll.getD ?_ ?_
    | refine ite_keep ?_ ?_)

theorem Ibex.unshow_ok {i : Ibex} {qs : List Nat} (h : i.ok) : (i.unshow qs).ok := ⟨h.spm, h.spmSyn, h.acc, h.accSyn, h.slots,
  Tbl.ok_foldl h.regions (fun _ _ h => Tbl.ok_ite (Tbl.ok_set h) h)⟩

theorem State.takeJob_keep (a0 : State) (a1 : Nat) (a2 : Loaded) (a3 : Mat) (a4 : List Pass) (h0 : Kept s₀ a0) : Kept s₀ (State.takeJob a0 a1 a2 a3 a4) := by
  unfold State.takeJob
  repeat' (with_reducible first
    | assumption | refine State.modRegion_keep _ _ _ _ ?_ | refine State.modIb_keep _ _ _ ?_ ?_
    | refine State.stage2_keep _ _ _ ?_ | extract_lets | intro _ | refine Ibex.unshow_ok ?_)

theorem State.runMatrix_keep (a0 : State) (a1 : Nat) (a2 : Nat) (h0 : Kept s₀ a0) : Kept s₀ (State.runMatrix a0 a1 a2) := by
  unfold State.runMatrix
  repeat' (with_reducible first
    | assumption | refine State.modRank_keep _ _ _ _ ?_ | refine State.modIb_keep _ _ _ ?_ ?_
    | refine State.takeJob_keep _ _ _ _ _ ?_ | refine State.instrDone_keep _ _ ?_ | refine State.passCur_keep _ _ _ ?_
    | refine ite_keep ?_ ?_ | split | extract_lets | intro _ | refine Ibex.ok_mk ?_ ?_ ?_ ?_ ?_ ?_ | refine Ibex.ok.spm ?_
    | refine Ibex.ok.spmSyn ?_ | refine Ibex.ok.acc ?_ | refine Ibex.ok.accSyn ?_ | refine Ibex.ok.slots ?_
    | refine Ibex.ok.regions ?_)

theorem execMm_keep (a0 : IbexId) (a1 : State) (h0 : Kept s₀ a1) : OutAll (Kept s₀) (execMm a0 a1) := by
  unfold execMm
  repeat' (with_reducible first | assumption | refine OutAll.go ?_ | refine State.runMatrix_keep _ _ _ ?_)

theorem execWconv_keep (a0 : IbexId) (a1 : State) (h0 : Kept s₀ a1) : OutAll (Kept s₀) (execWconv a0 a1) := by
  unfold execWconv
  repeat' (with_reducible first | assumption | refine OutAll.go ?_ | refine State.runMatrix_keep _ _ _ ?_)

theorem State.runReducer_keep (a0 : State) (a1 : Nat) (a2 : Loaded) (a3 : Nat) (a4 : Option Nat) (h0 : Kept s₀ a0) : Kept s₀ (State.runReducer a0 a1 a2 a3 a4).1 := by
  unfold State.runReducer
  repeat' (with_reducible first
    | assumption | refine State.countFree_keep _ _ ?_ | refine State.stage2_keep _ _ _ ?_
    | refine State.reduce_keep _ _ _ _ _ _ _ _ ?_ | split | extract_lets)

theorem execWpool_keep (a0 : IbexId) (a1 : Option Nat) (a2 : State) (h0 : Kept s₀ a2) : OutAll (Kept s₀) (execWpool a0 a1 a2) := by
  unfold execWpool
  repeat' (with_reducible first
    | assumption | refine State.runUnit_keep _ _ _ _ _ _ ?_ ?_ | refine State.runReducer_keep _ _ _ _ _ ?_ | extract_lets
    | intro _)

theorem execWresample_keep (a0 : IbexId) (a1 : Option Nat) (a2 : State) (h0 : Kept s₀ a2) : OutAll (Kept s₀) (execWresample a0 a1 a2) := by
  unfold execWresample
  repeat' (with_reducible first
    | assumption | refine State.runUnit_keep _ _ _ _ _ _ ?_ ?_ | refine State.runReducer_keep _ _ _ _ _ ?_ | extract_lets
    | intro _)

theorem execWregroup_keep (a0 : IbexId) (a1 : Option Nat) (a2 : State) (h0 : Kept s₀ a2) : OutAll (Kept s₀) (execWregroup a0 a1 a2) := by
  unfold execWregroup
  repeat' (with_reducible first
    | assumption | refine State.runUnit_keep _ _ _ _ _ _ ?_ ?_ | refine State.runReducer_keep _ _ _ _ _ ?_ | extract_lets
    | intro _)

theorem execLayer_keep (a0 : IbexId) (a1 : State) (h0 : Kept s₀ a1) : OutAll (Kept s₀) (execLayer a0 a1) := by
  unfold execLayer
  repeat' (with_reducible first
    | assumption | refine OutAll.go ?_ | refine State.modRank_keep _ _ _ _ ?_ | refine State.passCur_keep _ _ _ ?_
    | refine State.instrDone_keep _ _ ?_ | refine State.setReg_keep _ _ _ ?_ | refine ite_keep ?_ ?_ | refine ite_out ?_ ?_
    | split)

theorem State.countRanks_keep (a0 : State) (a1 : Step) (a2 : Nat) (a3 : Nat) (h0 : Kept s₀ a0) : Kept s₀ (State.countRanks a0 a1 a2 a3) := by
  unfold State.countRanks
  repeat' (with_reducible first | assumption | refine State.count_keep _ _ _ ?_ | refine foldl_keep ?_ (fun _ _ _ => ?_))

theorem State.atDecision_keep (a0 : State) (a1 : Nat) (a2 : Step) (a3 : Rank) (h0 : Kept s₀ a0) : Kept s₀ (State.atDecision a0 a1 a2 a3) := by
  unfold State.atDecision
  repeat' (with_reducible first
    | assumption | refine OptAll.elim (State.layerStats_keep _ _ _ _ _ _ _ _ _ ?_) ‹_ = some _›
    | refine State.walkFault_keep _ _ _ _ _ _ ?_ | refine State.countRanks_keep _ _ _ _ ?_ | refine State.modStep_keep _ _ _ ?_
    | split | extract_lets)

theorem execLayerDecision_keep (a0 : QueueId) (a1 : State) (h0 : Kept s₀ a1) : OutAll (Kept s₀) (execLayerDecision a0 a1) := by
  unfold execLayerDecision
  repeat' (with_reducible first
    | assumption | refine OutAll.go ?_ | refine State.atDecision_keep _ _ _ _ ?_ | refine ite_out ?_ ?_ | split)

theorem Ibex.meet_ok {i : Ibex} (h : i.ok) : i.meet.ok := ⟨h.spm, h.spmSyn, h.acc, h.accSyn, h.slots,
  Tbl.ok_foldl h.regions (fun _ _ h => Tbl.ok_ite (Tbl.ok_set h) h)⟩

theorem execSyncRelease_keep (a0 : QueueId) (a1 : State) (h0 : Kept s₀ a1) : OutAll (Kept s₀) (execSyncRelease a0 a1) := by
  unfold execSyncRelease
  split
  · exact OutAll.go h0
  · split
    · exact OutAll.go h0
    · exact OutAll.go (State.modStep_keep _ _ _ (foldl_keep h0 fun _ _ h => State.countFree_keep _ _ (State.modIb_keep _ _ _ h fun _ h =>
        Ibex.meet_ok h)))
theorem State.closeEnded_keep (a0 : State) (a1 : Nat) (a2 : Step) (h0 : Kept s₀ a0) : Kept s₀ (State.closeEnded a0 a1 a2) := by
  unfold State.closeEnded
  repeat' (with_reducible first | assumption | refine State.closeAll_keep _ _ _ _ _ _ ?_)

theorem State.swapLists_keep (a0 : State) (a1 : Step) (h0 : Kept s₀ a0) : Kept s₀ (State.swapLists a0 a1) := by
  unfold State.swapLists
  repeat' (with_reducible first
    | assumption | refine State.modStream_keep _ _ _ ?_ | refine foldl_keep ?_ (fun _ _ _ => ?_) | refine ite_keep ?_ ?_)

theorem State.stepEnds_keep (a0 : State) (a1 : Nat) (a2 : Nat) (a3 : Step) (h0 : Kept s₀ a0) : Kept s₀ (State.stepEnds a0 a1 a2 a3) := by
  unfold State.stepEnds
  repeat' (with_reducible first
    | assumption | refine State.closeEnded_keep _ _ _ ?_ | refine State.swapLists_keep _ _ ?_
    | refine State.countCtx_keep _ _ _ _ ?_ | refine State.countEntry_keep _ _ _ _ ?_ | refine State.schedule_keep _ ?_
    | refine State.removeStep_keep _ _ _ _ ?_ | refine ite_keep ?_ ?_)

theorem execEndStep_keep (a0 : IbexId) (a1 : Nat) (a2 : State) (h0 : Kept s₀ a2) : OutAll (Kept s₀) (execEndStep a0 a1 a2) := by
  unfold execEndStep
  repeat' (with_reducible first
    | assumption | refine OutAll.go ?_ | refine State.modRank_keep _ _ _ _ ?_ | refine State.passCur_keep _ _ _ ?_
    | refine State.instrDone_keep _ _ ?_ | refine State.stepEnds_keep _ _ _ _ ?_ | refine ite_out ?_ ?_ | split | extract_lets)

theorem State.lendChain_keep (a0 : State) (a1 : Nat) (a2 : Nat) (a3 : Nat) (a4 : Nat) (h0 : Kept s₀ a0) : Kept s₀ (State.lendChain a0 a1 a2 a3 a4) := by
  induction a4 generalizing a0 a1 a2 a3 with
  | zero => exact h0
  | succ n ih =>
  unfold State.lendChain
  repeat' (with_reducible first
    | assumption | refine ih _ _ _ _ ?_ | refine State.setCtxSt_keep _ _ _ ?_ | refine ite_keep ?_ ?_ | split | extract_lets)

theorem State.parkCheck_keep (a0 : State) (a1 : Nat) (a2 : Nat) (h0 : Kept s₀ a0) : Kept s₀ (State.parkCheck a0 a1 a2) := by
  unfold State.parkCheck
  repeat' (with_reducible first
    | assumption | refine State.leaveIbexes_keep _ _ _ ?_ | refine State.setStep_keep _ _ _ ?_ | refine State.schedule_keep _ ?_
    | refine State.lendChain_keep _ _ _ _ _ ?_ | refine ite_keep ?_ ?_ | exact id | split | extract_lets
    | refine Kept.of_parts ?_ rfl rfl rfl rfl rfl rfl rfl rfl rfl rfl rfl rfl rfl rfl ?_ ?_ ?_ ?_)

theorem State.waitHitch_keep (a0 : State) (a1 : Nat) (a2 : Loaded) (h0 : Kept s₀ a0) : Kept s₀ (State.waitHitch a0 a1 a2) := by
  unfold State.waitHitch
  repeat' (with_reducible first | assumption | refine State.parkCheck_keep _ _ _ ?_ | refine State.modRank_keep _ _ _ _ ?_)

theorem State.passAll_keep (a0 : State) (a1 : Nat) (a2 : Loaded) (h0 : Kept s₀ a0) : Kept s₀ (State.passAll a0 a1 a2) := by
  unfold State.passAll
  repeat' (with_reducible first
    | assumption | refine State.modStep_keep _ _ _ ?_ | refine State.hitchDone_keep _ _ _ ?_
    | refine State.instrDone_keep _ _ ?_ | refine State.modRank_keep _ _ _ _ ?_ | refine State.passCur_keep _ _ _ ?_)

theorem State.joinHitch_keep (a0 : State) (a1 : Nat) (a2 : Loaded) (a3 : Nat) (a4 : Nat) (h0 : Kept s₀ a0) : Kept s₀ (State.joinHitch a0 a1 a2 a3 a4) := by
  unfold State.joinHitch
  repeat' (with_reducible first
    | assumption | refine State.setHitch_keep _ _ _ ?_ | refine State.waitHitch_keep _ _ _ ?_
    | refine State.modStep_keep _ _ _ ?_)

theorem State.runHitch_keep (a0 : State) (a1 : Nat) (a2 : Nat) (a3 : Nat) (a4 : Loaded → State → Except W16 State) (h0 : Kept s₀ a0) (h1 : ∀ x0 x1, Kept s₀ (x1) → ExAll (Kept s₀) (a4 x0 x1)) : Kept s₀ (State.runHitch a0 a1 a2 a3 a4) := by
  unfold State.runHitch
  repeat' (with_reducible first
    | assumption | refine State.modRank_keep _ _ _ _ ?_ | refine State.unitFault_keep _ _ _ _ _ ?_
    | refine State.instrDone_keep _ _ ?_ | refine State.passCur_keep _ _ _ ?_ | refine State.waitHitch_keep _ _ _ ?_
    | refine ExAll.elim (h1 _ _ ?_) ‹_ = Except.ok _› | refine ite_keep ?_ ?_ | split)

theorem State.hwait_keep (a0 : State) (a1 : Nat) (a2 : Loaded) (h0 : Kept s₀ a0) : ExAll (Kept s₀) (State.hwait a0 a1 a2) := by
  unfold State.hwait
  repeat' (with_reducible first
    | assumption | refine State.passAll_keep _ _ _ ?_ | refine State.setHitch_keep _ _ _ ?_
    | refine State.joinHitch_keep _ _ _ _ _ ?_ | refine ExAll.ok ?_ | exact ExAll.error | refine ite_ex ?_ ?_)

theorem State.hacquire_keep (a0 : State) (a1 : Nat) (a2 : Loaded) (h0 : Kept s₀ a0) : ExAll (Kept s₀) (State.hacquire a0 a1 a2) := by
  unfold State.hacquire
  repeat' (with_reducible first
    | assumption | refine State.setHitch_keep _ _ _ ?_ | refine State.passAll_keep _ _ _ ?_ | refine State.modStep_keep _ _ _ ?_
    | refine State.joinHitch_keep _ _ _ _ _ ?_ | refine ExAll.ok ?_ | exact ExAll.error | refine ite_ex ?_ ?_)

theorem State.hsignal_keep (a0 : State) (a1 : Nat) (a2 : Loaded) (h0 : Kept s₀ a0) : ExAll (Kept s₀) (State.hsignal a0 a1 a2) := by
  unfold State.hsignal
  repeat' (with_reducible first
    | assumption | refine State.schedule_keep _ ?_ | refine State.serveHitch_keep _ _ ?_ | refine State.passAll_keep _ _ _ ?_
    | refine State.setHitch_keep _ _ _ ?_ | refine ExAll.ok ?_ | exact ExAll.error | refine ite_ex ?_ ?_)

theorem State.hrelease_keep (a0 : State) (a1 : Nat) (a2 : Loaded) (h0 : Kept s₀ a0) : ExAll (Kept s₀) (State.hrelease a0 a1 a2) := by
  unfold State.hrelease
  repeat' (with_reducible first
    | assumption | refine State.schedule_keep _ ?_ | refine State.releaseHitch_keep _ _ ?_ | refine State.passAll_keep _ _ _ ?_
    | refine ExAll.ok ?_ | exact ExAll.error | refine ite_ex ?_ ?_)

theorem execHwait_keep (a0 : IbexId) (a1 : Nat) (a2 : State) (h0 : Kept s₀ a2) : OutAll (Kept s₀) (execHwait a0 a1 a2) := by
  unfold execHwait
  repeat' (with_reducible first
    | assumption | refine OutAll.go ?_ | refine State.runHitch_keep _ _ _ _ _ ?_ ?_ | refine State.hwait_keep _ _ _ ?_
    | extract_lets | intro _)

theorem execHsignal_keep (a0 : IbexId) (a1 : State) (h0 : Kept s₀ a1) : OutAll (Kept s₀) (execHsignal a0 a1) := by
  unfold execHsignal
  repeat' (with_reducible first
    | assumption | refine OutAll.go ?_ | refine State.runHitch_keep _ _ _ _ _ ?_ ?_ | refine State.hsignal_keep _ _ _ ?_
    | extract_lets | intro _)

theorem execHacquire_keep (a0 : IbexId) (a1 : Nat) (a2 : State) (h0 : Kept s₀ a2) : OutAll (Kept s₀) (execHacquire a0 a1 a2) := by
  unfold execHacquire
  repeat' (with_reducible first
    | assumption | refine OutAll.go ?_ | refine State.runHitch_keep _ _ _ _ _ ?_ ?_ | refine State.hacquire_keep _ _ _ ?_
    | extract_lets | intro _)

theorem execHrelease_keep (a0 : IbexId) (a1 : State) (h0 : Kept s₀ a1) : OutAll (Kept s₀) (execHrelease a0 a1) := by
  unfold execHrelease
  repeat' (with_reducible first
    | assumption | refine OutAll.go ?_ | refine State.runHitch_keep _ _ _ _ _ ?_ ?_ | refine State.hrelease_keep _ _ _ ?_
    | extract_lets | intro _)

theorem State.stopRank_keep (a0 : State) (a1 : Nat) (a2 : Nat) (a3 : Nat) (a4 : Nat) (h0 : Kept s₀ a0) : Kept s₀ (State.stopRank a0 a1 a2 a3 a4) := by
  unfold State.stopRank
  repeat' (with_reducible first
    | assumption | refine State.modIb_keep _ _ _ ?_ ?_ | refine State.modRank_keep _ _ _ _ ?_
    | refine State.modStep_keep _ _ _ ?_ | extract_lets | intro _ | refine Ibex.ok_mk ?_ ?_ ?_ ?_ ?_ ?_ | refine Ibex.ok.spm ?_
    | refine Ibex.ok.spmSyn ?_ | refine Ibex.ok.acc ?_ | refine Ibex.ok.accSyn ?_ | refine Ibex.ok.slots ?_
    | refine Ibex.ok.regions ?_ | refine Tbl.ok_set ?_ | refine Tbl.ok_foldl ?_ (fun _ _ _ => ?_))

theorem execWalkerPreempt_keep (a0 : IbexId) (a1 : Nat) (a2 : State) (h0 : Kept s₀ a2) : OutAll (Kept s₀) (execWalkerPreempt a0 a1 a2) := by
  unfold execWalkerPreempt
  repeat' (with_reducible first
    | assumption | refine OutAll.go ?_ | refine State.stopRank_keep _ _ _ _ _ ?_ | refine ite_out ?_ ?_ | split)

theorem State.fetchFault_keep (a0 : State) (a1 : Nat) (a2 : Option Nat) (a3 : W16) (h0 : Kept s₀ a0) : Kept s₀ (State.fetchFault a0 a1 a2 a3) := by
  unfold State.fetchFault
  repeat' (with_reducible first
    | assumption | refine State.regionFault_keep _ _ _ _ _ ?_ | refine State.unitFault_keep _ _ _ _ _ ?_ | refine ite_keep ?_ ?_
    | split)

theorem execWalkFetchTo_keep (a0 : IbexId) (a1 : Option Quarter) (a2 : State) (h0 : Kept s₀ a2) : OutAll (Kept s₀) (execWalkFetchTo a0 a1 a2) := by
  unfold execWalkFetchTo
  repeat' (with_reducible first | assumption | refine OutAll.go ?_ | refine State.fetchFault_keep _ _ _ _ ?_)

theorem execWalkMemUe_keep (a0 : IbexId) (a1 : Option Quarter) (a2 : State) (h0 : Kept s₀ a2) : OutAll (Kept s₀) (execWalkMemUe a0 a1 a2) := by
  unfold execWalkMemUe
  repeat' (with_reducible first | assumption | refine OutAll.go ?_ | refine State.fetchFault_keep _ _ _ _ ?_)

theorem State.wlkCfg_keep (a0 : State) (a1 : Nat) (a2 : Nat) (h0 : Kept s₀ a0) : Kept s₀ (State.wlkCfg a0 a1 a2) := by
  unfold State.wlkCfg
  repeat' (with_reducible first
    | assumption | refine State.logErr_keep _ _ _ _ _ _ _ ?_ | refine State.setReg_keep _ _ _ ?_ | refine ite_keep ?_ ?_)

theorem execWlkCfgWrite_keep (a0 : Fn) (a1 : IbexId) (a2 : W32) (a3 : State) (h0 : Kept s₀ a3) : OutAll (Kept s₀) (execWlkCfgWrite a0 a1 a2 a3) := by
  unfold execWlkCfgWrite
  repeat' (with_reducible first
    | assumption | refine State.hostAct_keep _ _ _ _ ?_ ?_ | refine State.wlkCfg_keep _ _ _ ?_ | exact id | split | intro _)

end Sys2Proof.Machine
end

