-- ==== Sys2Proof/Laws/KeepVideo.lean ====
section
/-! SUPPORT. `Kept` holds of every function of the queues and Gazelle. -/

namespace Sys2Proof.Machine

variable {s₀ : State}

/-! ### Queues -/

theorem State.qResult_keep (a0 : State) (a1 : Nat) (a2 : Nat) (a3 : W16) (h0 : Kept s₀ a0) : Kept s₀ (State.qResult a0 a1 a2 a3) := by
  unfold State.qResult
  repeat' (with_reducible first
    | assumption | refine State.setReg_keep _ _ _ ?_ | refine State.famErr_keep _ _ _ ?_
    | refine State.rejectV_keep _ _ _ _ _ _ ?_ | refine ite_keep ?_ ?_)

theorem State.queueOpening_keep (a0 : State) (a1 : Nat) (h0 : Kept s₀ a0) : Kept s₀ (State.queueOpening a0 a1) := by
  unfold State.queueOpening
  repeat' (with_reducible first
    | assumption | refine State.drainOut_keep _ _ ?_ | refine State.lateDrop_keep _ _ _ ?_ | refine State.setQueue_keep _ _ _ ?_
    | refine foldl_keep ?_ (fun _ _ _ => ?_) | split | extract_lets)

theorem State.qBind_keep (a0 : State) (a1 : Nat) (a2 : Nat) (h0 : Kept s₀ a0) : Kept s₀ (State.qBind a0 a1 a2) := by
  unfold State.qBind
  repeat' (with_reducible first
    | assumption | refine State.qResult_keep _ _ _ _ ?_ | refine State.setQueue_keep _ _ _ ?_
    | refine State.queueOpening_keep _ _ ?_ | refine ite_keep ?_ ?_ | split | extract_lets)

theorem State.qUnbind_keep (a0 : State) (a1 : Nat) (a2 : Nat) (h0 : Kept s₀ a0) : Kept s₀ (State.qUnbind a0 a1 a2) := by
  unfold State.qUnbind
  repeat' (with_reducible first
    | assumption | refine State.qResult_keep _ _ _ _ ?_ | refine State.setQueue_keep _ _ _ ?_ | refine ite_keep ?_ ?_)

theorem State.qRead_keep (a0 : State) (a1 : Nat) (a2 : Nat) (h0 : Kept s₀ a0) : Kept s₀ (State.qRead a0 a1 a2) := by
  unfold State.qRead
  repeat' (with_reducible first
    | assumption | refine State.qResult_keep _ _ _ _ ?_ | refine State.setReg_keep _ _ _ ?_
    | refine foldl_keep ?_ (fun _ _ _ => ?_) | refine ite_keep ?_ ?_)

theorem State.timeIs_keep (a0 : State) (a1 : Nat) (h0 : Kept s₀ a0) : Kept s₀ (State.timeIs a0 a1) := by
  unfold State.timeIs
  repeat' (with_reducible first
    | assumption | exact id | extract_lets
    | refine Kept.of_parts ?_ rfl rfl rfl rfl rfl rfl rfl rfl rfl rfl rfl rfl rfl rfl ?_ ?_ ?_ ?_)

theorem execBind_keep (a0 : Fn) (a1 : QueueId) (a2 : Nat) (a3 : State) (h0 : Kept s₀ a3) : OutAll (Kept s₀) (execBind a0 a1 a2 a3) := by
  unfold execBind
  repeat' (with_reducible first
    | assumption | refine State.hostAct_keep _ _ _ _ ?_ ?_ | refine State.qBind_keep _ _ _ ?_ | refine State.timeIs_keep _ _ ?_
    | extract_lets | intro _)

theorem execUnbind_keep (a0 : Fn) (a1 : QueueId) (a2 : State) (h0 : Kept s₀ a2) : OutAll (Kept s₀) (execUnbind a0 a1 a2) := by
  unfold execUnbind
  repeat' (with_reducible first
    | assumption | refine State.hostAct_keep _ _ _ _ ?_ ?_ | refine State.qUnbind_keep _ _ _ ?_ | extract_lets | intro _)

theorem execQueueRead_keep (a0 : Fn) (a1 : QueueId) (a2 : State) (h0 : Kept s₀ a2) : OutAll (Kept s₀) (execQueueRead a0 a1 a2) := by
  unfold execQueueRead
  repeat' (with_reducible first
    | assumption | refine State.hostAct_keep _ _ _ _ ?_ ?_ | refine State.qRead_keep _ _ _ ?_ | extract_lets | intro _)

theorem State.doorbell_keep (a0 : State) (a1 : Nat) (a2 : Nat) (a3 : W32) (h0 : Kept s₀ a0) : Kept s₀ (State.doorbell a0 a1 a2 a3) := by
  unfold State.doorbell
  repeat' (with_reducible first
    | assumption | refine State.famErr_keep _ _ _ ?_ | refine State.rejectV_keep _ _ _ _ _ _ ?_
    | refine State.countEntry_keep _ _ _ _ ?_ | refine State.setQueue_keep _ _ _ ?_ | split | extract_lets)

theorem execDoorbellWrite_keep (a0 : Fn) (a1 : QueueId) (a2 : W32) (a3 : State) (h0 : Kept s₀ a3) : OutAll (Kept s₀) (execDoorbellWrite a0 a1 a2 a3) := by
  unfold execDoorbellWrite
  repeat' (with_reducible first
    | assumption | refine State.hostAct_keep _ _ _ _ ?_ ?_ | refine State.doorbell_keep _ _ _ _ ?_ | extract_lets | intro _)

theorem execDescFetch_keep (a0 : QueueId) (a1 : State) (h0 : Kept s₀ a1) : OutAll (Kept s₀) (execDescFetch a0 a1) := by
  unfold execDescFetch
  repeat' (with_reducible first
    | assumption | refine OutAll.go ?_ | refine State.wakeUp_keep _ ?_ | refine State.issue_keep _ _ _ ?_
    | refine State.setQueue_keep _ _ _ ?_ | refine State.hostWrite_keep _ _ _ _ _ ?_ | refine ite_keep ?_ ?_
    | refine ite_out ?_ ?_)

theorem State.descReject_keep (a0 : State) (a1 : Nat) (a2 : W16) (h0 : Kept s₀ a0) : Kept s₀ (State.descReject a0 a1 a2) := by
  unfold State.descReject
  repeat' (with_reducible first
    | assumption | refine State.setEntry_keep _ _ _ _ ?_ | refine State.setQueue_keep _ _ _ ?_
    | refine State.rejectV_keep _ _ _ _ _ _ ?_ | refine State.countEntry_keep _ _ _ _ ?_)

theorem State.shedStep_keep (a0 : State) (a1 : Nat) (a2 : Step) (h0 : Kept s₀ a0) : Kept s₀ (State.shedStep a0 a1 a2) := by
  unfold State.shedStep
  repeat' (with_reducible first
    | assumption | refine State.countEntry_keep _ _ _ _ ?_ | refine State.takeQueued_keep _ _ _ _ ?_
    | refine State.modStream_keep _ _ _ ?_ | refine State.closeAll_keep _ _ _ _ _ _ ?_ | refine foldl_keep ?_ (fun _ _ _ => ?_)
    | refine foldl_fst ?_ (fun _ _ _ => ?_) | split | extract_lets)

theorem State.startHosts_keep (a0 : State) (a1 : Nat) (a2 : Step) (h0 : Kept s₀ a0) : Kept s₀ (State.startHosts a0 a1 a2) := by
  unfold State.startHosts
  repeat' (with_reducible first
    | assumption | refine State.startSlot_keep _ _ _ ?_ | refine State.voidSlot_keep _ _ _ _ ?_
    | refine foldl_keep ?_ (fun _ _ _ => ?_) | refine ite_keep ?_ ?_)

theorem State.openStep_keep (a0 : State) (a1 : Nat) (a2 : List Byte) (a3 : List (Prod Nat Nat)) (h0 : Kept s₀ a0) : Kept s₀ (State.openStep a0 a1 a2 a3) := by
  unfold State.openStep
  repeat' (with_reducible first
    | assumption | refine State.setQueue_keep _ _ _ ?_ | refine State.modStream_keep _ _ _ ?_
    | refine State.countCtx_keep _ _ _ _ ?_ | refine State.shedStep_keep _ _ _ ?_ | refine State.faultCtx_keep _ _ _ _ ?_
    | refine State.logDev_keep _ _ _ _ ?_ | refine State.preErr_keep _ _ _ _ ?_ | refine State.setStep_keep _ _ _ ?_
    | refine State.startHosts_keep _ _ _ ?_ | refine State.closeFill_keep _ _ ?_ | refine ite_keep ?_ ?_ | exact id | split
    | extract_lets | refine Kept.of_parts ?_ rfl rfl rfl rfl rfl rfl rfl rfl rfl rfl rfl rfl rfl rfl ?_ ?_ ?_ ?_)

theorem State.endFetch_keep (a0 : State) (a1 : Nat) (h0 : Kept s₀ a0) : Kept s₀ (State.endFetch a0 a1).1 := by
  unfold State.endFetch
  repeat' (with_reducible first
    | assumption | refine State.countEntry_keep _ _ _ _ ?_ | refine State.setQueue_keep _ _ _ ?_ | split | extract_lets)

theorem execDescArrival_keep (a0 : QueueId) (a1 : Fetched) (a2 : Nat) (a3 : State) (h0 : Kept s₀ a3) : OutAll (Kept s₀) (execDescArrival a0 a1 a2 a3) := by
  unfold execDescArrival
  repeat' (with_reducible first
    | assumption | refine OutAll.go ?_ | refine State.timeIs_keep _ _ ?_ | refine State.endFetch_keep _ _ ?_
    | refine State.received_keep _ _ ?_ | refine State.land_keep _ _ ?_ | refine State.descReject_keep _ _ _ ?_
    | refine State.openStep_keep _ _ _ _ ?_ | refine pair_fst ?_ ‹_ = (_, _)› | refine ite_out ?_ ?_ | split)

theorem State.streamPeriod_keep (a0 : State) (a1 : Nat) (a2 : Option (Prod W64 Bool)) (h0 : Kept s₀ a0) : Kept s₀ (State.streamPeriod a0 a1 a2) := by
  unfold State.streamPeriod
  repeat' (with_reducible first
    | assumption | refine State.countEntry_keep _ _ _ _ ?_ | refine State.setEntry_keep _ _ _ _ ?_
    | refine State.modStream_keep _ _ _ ?_ | refine State.queueOpening_keep _ _ ?_ | refine foldl_keep ?_ (fun _ _ _ => ?_)
    | refine ite_keep ?_ ?_)

theorem State.pictureCalls_keep (a0 : State) (a1 : Nat) (a2 : W64) (h0 : Kept s₀ a0) : Kept s₀ (State.pictureCalls a0 a1 a2) := by
  unfold State.pictureCalls
  repeat' (with_reducible first | assumption | refine State.modStream_keep _ _ _ ?_ | refine ite_keep ?_ ?_)

theorem execPeriodOpen_keep (a0 : PeriodSource) (a1 : Nat) (a2 : State) (h0 : Kept s₀ a2) : OutAll (Kept s₀) (execPeriodOpen a0 a1 a2) := by
  unfold execPeriodOpen
  repeat' (with_reducible first
    | assumption | refine State.timeIs_keep _ _ ?_ | refine OutAll.go ?_ | refine State.streamPeriod_keep _ _ _ ?_
    | refine State.modStream_keep _ _ _ ?_ | refine State.queueOpening_keep _ _ ?_ | refine State.setQueue_keep _ _ _ ?_
    | refine ite_out ?_ ?_ | split | extract_lets)

theorem State.putAccImage_keep (a0 : State) (a1 : Nat) (a2 : Resident) (a3 : List W32) (h0 : Kept s₀ a0) : Kept s₀ (State.putAccImage a0 a1 a2 a3) := by
  unfold State.putAccImage
  repeat' (with_reducible first | assumption | refine State.accWrite_keep _ _ _ _ _ ?_ | refine foldl_keep ?_ (fun _ _ _ => ?_))

theorem State.saveRank_keep (a0 : State) (a1 : Nat) (a2 : Nat) (a3 : Rank) (h0 : Kept s₀ a0) : OptAll (Kept s₀) (State.saveRank a0 a1 a2 a3) := by
  unfold State.saveRank
  repeat' (with_reducible first
    | assumption | refine State.freshBytes_keep _ _ ?_ | refine State.mendSpm_keep _ _ _ ?_
    | refine State.memWrite_keep _ _ _ ?_ | refine State.modIb_keep _ _ _ ?_ ?_ | refine State.count_keep _ _ _ ?_
    | refine OptAll.some ?_ | refine OptAll.map (Q := Kept s₀) ?_ (fun _ _ => ?_)
    | refine OptAll.bind (Q := Kept s₀) ?_ (fun _ _ => ?_) | refine OptAll.bind (Q := fun _ => True) OptAll.any (fun _ _ => ?_)
    | split | extract_lets | intro _ | refine Ibex.evict_ok ?_)

theorem State.saveLost_keep (a0 : State) (a1 : Nat) (a2 : List Rank) (h0 : Kept s₀ a0) : Kept s₀ (State.saveLost a0 a1 a2) := by
  unfold State.saveLost
  repeat' (with_reducible first
    | assumption | refine State.lostSpm_keep _ _ _ ?_ | refine OptAll.getD ?_ ?_
    | refine OptAll.map (Q := fun _ => True) OptAll.any (fun _ _ => ?_) | split)

theorem State.restoreRank_keep (a0 : State) (a1 a2 a3 : Nat) (a4 : Rank) (h0 : Kept s₀ a0) : OptAll (Kept s₀) (State.restoreRank a0 a1 a2 a3 a4) := by
  unfold State.restoreRank
  split
  · exact OptAll.some h0
  · refine OptAll.bind OptAll.any (fun sp _ => OptAll.map OptAll.any (fun ac _ => ?_))
    refine State.modIb_keep _ _ _ (State.putAccImage_keep _ _ _ _ (State.spmWrite_keep _ _ _ _ h0)) (fun i hi => ⟨hi.spm, hi.spmSyn, hi.acc,
      hi.accSyn, Tbl.canon_map (d := fun _ => none) hi.slots _ (fun _ => rfl) (fun e he => ?_), hi.regions⟩)
    obtain ⟨k, _ | r⟩ := e
    · exact he
    · exact fun h => nomatch h
theorem execSaveDone_keep (a0 : QueueId) (a1 : Bool) (a2 : State) (h0 : Kept s₀ a2) : OutAll (Kept s₀) (execSaveDone a0 a1 a2) := by
  unfold execSaveDone
  repeat' (with_reducible first
    | assumption | refine OutAll.go ?_ | refine State.saveRank_keep _ _ _ _ ?_ | refine State.faultCtx_keep _ _ _ _ ?_
    | refine State.saveLost_keep _ _ _ ?_ | refine State.addWait_keep _ _ ?_ | refine State.leaveIbexes_keep _ _ _ ?_
    | refine State.countCtx_keep _ _ _ _ ?_ | refine State.countEntry_keep _ _ _ _ ?_ | refine State.schedule_keep _ ?_
    | refine State.setStep_keep _ _ _ ?_ | refine OptAll.elim (P := Kept s₀) ?_ ‹_ = some _› | refine OptAll.some ?_
    | exact OptAll.none | refine foldl_opt ?_ (fun _ _ _ => ?_) | refine OptAll.bind (Q := Kept s₀) ?_ (fun _ _ => ?_)
    | refine ite_keep ?_ ?_ | refine ite_out ?_ ?_ | split)

theorem execRestoreDone_keep (a0 : QueueId) (a1 : Bool) (a2 : State) (h0 : Kept s₀ a2) : OutAll (Kept s₀) (execRestoreDone a0 a1 a2) := by
  unfold execRestoreDone
  repeat' (with_reducible first
    | assumption | refine OutAll.go ?_ | refine State.restoreRank_keep _ _ _ _ _ ?_ | refine State.faultCtx_keep _ _ _ _ ?_
    | refine State.freshWord_keep _ ?_ | refine State.setStep_keep _ _ _ ?_ | refine OptAll.elim (P := Kept s₀) ?_ ‹_ = some _›
    | refine OptAll.some ?_ | exact OptAll.none | refine foldl_opt ?_ (fun _ _ _ => ?_)
    | refine OptAll.bind (Q := Kept s₀) ?_ (fun _ _ => ?_) | refine ite_out ?_ ?_ | split)

/-! ### Gazelle -/

theorem State.openReserve_keep (a0 : State) (a1 : Nat) (h0 : Kept s₀ a0) : OptAll (fun p => Kept s₀ p.1) (State.openReserve a0 a1) := by
  unfold State.openReserve
  repeat' (with_reducible first
    | assumption | refine State.setResv_keep _ _ _ _ ?_ | refine State.coilGrantNow_keep _ _ _ ?_ | exact OptAll.none
    | refine foldl_keep ?_ (fun _ _ _ => ?_) | refine OptAll.map (Q := fun p : State × _ => Kept s₀ p.1) ?_ (fun _ _ => ?_)
    | refine OptAll.bind (Q := fun p : State × _ => Kept s₀ p.1) ?_ (fun _ _ => ?_) | split | extract_lets)

theorem State.clearTracks_keep (a0 : State) (a1 : Nat) (h0 : Kept s₀ a0) : Kept s₀ (State.clearTracks a0 a1) := by
  unfold State.clearTracks
  repeat' (with_reducible first | assumption | refine State.memPut_keep _ _ _ ?_ | split)

theorem State.zeroSubs_keep (a0 : State) (a1 : Nat) (a2 : Nat) (a3 : Nat) (h0 : Kept s₀ a0) : Kept s₀ (State.zeroSubs a0 a1 a2 a3) := by
  unfold State.zeroSubs
  repeat' (with_reducible first | assumption | refine State.setEntry_keep _ _ _ _ ?_ | refine foldl_keep ?_ (fun _ _ _ => ?_))

theorem State.setStrState_keep (a0 : State) (a1 : Nat) (a2 : Nat) (h0 : Kept s₀ a0) : Kept s₀ (State.setStrState a0 a1 a2) := by
  unfold State.setStrState
  repeat' (with_reducible first | assumption | refine State.setEntry_keep _ _ _ _ ?_)

theorem State.opened_keep (a0 : State) (a1 : Nat) (a2 : Prod Nat Nat) (a3 : Prod Nat Nat) (a4 : Prod Nat Nat) (h0 : Kept s₀ a0) : Kept s₀ (State.opened a0 a1 a2 a3 a4) := by
  unfold State.opened
  repeat' (with_reducible first
    | assumption | refine State.setStream_keep _ _ _ ?_ | refine State.clearTracks_keep _ _ ?_
    | refine State.zeroSubs_keep _ _ _ _ ?_ | refine State.setReg_keep _ _ _ ?_ | refine State.setStrState_keep _ _ _ ?_
    | refine State.streamPeriod_keep _ _ _ ?_ | refine ite_keep ?_ ?_)

theorem State.streamOpen_keep (a0 : State) (a1 : Nat) (h0 : Kept s₀ a0) : ExAll (Kept s₀) (State.streamOpen a0 a1) := by
  unfold State.streamOpen
  repeat' (with_reducible first
    | assumption | refine OptAll.elim2 (State.openReserve_keep _ _ ?_) ‹_ = some _› | refine State.opened_keep _ _ _ _ _ ?_
    | refine ExAll.ok ?_ | exact ExAll.error | split)

theorem execStreamOpen_keep (a0 : Origin) (a1 : StreamId) (a2 : State) (h0 : Kept s₀ a2) : OutAll (Kept s₀) (execStreamOpen a0 a1 a2) := by
  unfold execStreamOpen
  repeat' (with_reducible first
    | assumption | refine State.dictCmd_keep _ _ _ _ _ _ ?_ ?_ | refine State.streamOpen_keep _ _ ?_ | extract_lets | intro _)

theorem State.voidWaiting_keep (a0 : State) (a1 : Nat) (h0 : Kept s₀ a0) : Kept s₀ (State.voidWaiting a0 a1) := by
  unfold State.voidWaiting
  repeat' (with_reducible first
    | assumption | refine State.modStream_keep _ _ _ ?_ | refine State.voidSlot_keep _ _ _ _ ?_
    | refine foldl_keep ?_ (fun _ _ _ => ?_) | refine ite_keep ?_ ?_)

theorem State.dropUnread_keep (a0 : State) (a1 : Nat) (h0 : Kept s₀ a0) : Kept s₀ (State.dropUnread a0 a1) := by
  unfold State.dropUnread
  repeat' (with_reducible first | assumption | refine State.sweepFrames_keep _ _ ?_ | refine State.modStream_keep _ _ _ ?_)

theorem State.leaveReads_keep (a0 : State) (a1 : Nat) (h0 : Kept s₀ a0) : Kept s₀ (State.leaveReads a0 a1) := by
  unfold State.leaveReads
  repeat' (with_reducible first
    | assumption | exact id | extract_lets
    | refine Kept.of_parts ?_ rfl rfl rfl rfl rfl rfl rfl rfl rfl rfl rfl rfl rfl rfl ?_ ?_ ?_ ?_)

theorem State.abandonStream_keep (a0 : State) (a1 : Nat) (h0 : Kept s₀ a0) : Kept s₀ (State.abandonStream a0 a1) := by
  unfold State.abandonStream
  repeat' (with_reducible first
    | assumption | refine State.countFree_keep _ _ ?_ | refine State.modStream_keep _ _ _ ?_
    | refine State.zeroSubs_keep _ _ _ _ ?_ | refine State.sweepFrames_keep _ _ ?_ | refine State.modStep_keep _ _ _ ?_
    | refine State.leaveReads_keep _ _ ?_ | refine State.clearTracks_keep _ _ ?_ | refine State.setReg_keep _ _ _ ?_
    | refine foldl_keep ?_ (fun _ _ _ => ?_) | refine ite_keep ?_ ?_ | exact id | split | extract_lets | intro _
    | refine Kept.of_parts ?_ rfl rfl rfl rfl rfl rfl rfl rfl rfl rfl rfl rfl rfl rfl ?_ ?_ ?_ ?_ | refine Video.ok_mk ?_ ?_ ?_
    | refine Video.ok.ee ?_ | refine Video.ok.pe ?_ | refine Video.ok.pre ?_ | refine Tbl.ok_set ?_
    | refine Tbl.ok_foldl ?_ (fun _ _ _ => ?_))

theorem State.streamReset_keep (a0 : State) (a1 : Nat) (h0 : Kept s₀ a0) : ExAll (Kept s₀) (State.streamReset a0 a1) := by
  unfold State.streamReset
  repeat' (with_reducible first
    | assumption | refine State.setStrState_keep _ _ _ ?_ | refine State.abandonStream_keep _ _ ?_
    | refine State.voidWaiting_keep _ _ ?_ | refine ExAll.ok ?_ | exact ExAll.error | refine ite_ex ?_ ?_)

theorem execStreamReset_keep (a0 : Origin) (a1 : StreamId) (a2 : State) (h0 : Kept s₀ a2) : OutAll (Kept s₀) (execStreamReset a0 a1 a2) := by
  unfold execStreamReset
  repeat' (with_reducible first
    | assumption | refine State.dictCmd_keep _ _ _ _ _ _ ?_ ?_ | refine State.streamReset_keep _ _ ?_ | extract_lets | intro _)

theorem execStreamResetDone_keep (a0 : StreamId) (a1 : State) (h0 : Kept s₀ a1) : OutAll (Kept s₀) (execStreamResetDone a0 a1) := by
  unfold execStreamResetDone
  repeat' (with_reducible first
    | assumption | refine OutAll.go ?_ | refine State.setStrState_keep _ _ _ ?_ | refine State.dropUnread_keep _ _ ?_
    | refine ite_out ?_ ?_)

theorem State.streamClose_keep (a0 : State) (a1 : Nat) (h0 : Kept s₀ a0) : ExAll (Kept s₀) (State.streamClose a0 a1) := by
  unfold State.streamClose
  repeat' (with_reducible first
    | assumption | refine State.setStrState_keep _ _ _ ?_ | refine State.abandonStream_keep _ _ ?_
    | refine State.voidWaiting_keep _ _ ?_ | refine ExAll.ok ?_ | exact ExAll.error | refine ite_ex ?_ ?_)

theorem execStreamClose_keep (a0 : Origin) (a1 : StreamId) (a2 : State) (h0 : Kept s₀ a2) : OutAll (Kept s₀) (execStreamClose a0 a1 a2) := by
  unfold execStreamClose
  repeat' (with_reducible first
    | assumption | refine State.dictCmd_keep _ _ _ _ _ _ ?_ ?_ | refine State.streamClose_keep _ _ ?_ | extract_lets | intro _)

theorem State.closeStream_keep (a0 : State) (a1 : Nat) (h0 : Kept s₀ a0) : Kept s₀ (State.closeStream a0 a1) := by
  unfold State.closeStream
  repeat' (with_reducible first
    | assumption | refine State.dropUnread_keep _ _ ?_ | refine State.setStrState_keep _ _ _ ?_
    | refine State.modStream_keep _ _ _ ?_ | refine State.releaseOwner_keep _ _ _ ?_)

theorem execStreamCloseDone_keep (a0 : StreamId) (a1 : State) (h0 : Kept s₀ a1) : OutAll (Kept s₀) (execStreamCloseDone a0 a1) := by
  unfold execStreamCloseDone
  repeat' (with_reducible first
    | assumption | refine OutAll.go ?_ | refine State.closeStream_keep _ _ ?_ | refine ite_out ?_ ?_)

theorem State.streamQuiet_keep (a0 : State) (a1 : Nat) (h0 : Kept s₀ a0) : Kept s₀ (State.streamQuiet a0 a1) := by
  unfold State.streamQuiet
  repeat' (with_reducible first
    | assumption | refine State.closeStream_keep _ _ ?_ | refine State.abandonStream_keep _ _ ?_
    | refine State.modStream_keep _ _ _ ?_ | refine ite_keep ?_ ?_)

theorem State.inTail_keep (a0 : State) (a1 : Nat) (a2 : Nat) (a3 : W32) (h0 : Kept s₀ a0) : Kept s₀ (State.inTail a0 a1 a2 a3) := by
  unfold State.inTail
  repeat' (with_reducible first
    | assumption | refine State.famErr_keep _ _ _ ?_ | refine State.rejectV_keep _ _ _ _ _ _ ?_
    | refine State.strCode_keep _ _ _ ?_ | refine State.setReg_keep _ _ _ ?_ | refine ite_keep ?_ ?_)

theorem execGzInTailWrite_keep (a0 : Fn) (a1 : StreamId) (a2 : W32) (a3 : State) (h0 : Kept s₀ a3) : OutAll (Kept s₀) (execGzInTailWrite a0 a1 a2 a3) := by
  unfold execGzInTailWrite
  repeat' (with_reducible first
    | assumption | refine State.hostAct_keep _ _ _ _ ?_ ?_ | refine State.inTail_keep _ _ _ _ ?_ | extract_lets | intro _)

theorem State.gzCfg_keep (a0 : State) (a1 : Nat) (h0 : Kept s₀ a0) : Kept s₀ (State.gzCfg a0 a1) := by
  unfold State.gzCfg
  repeat' (with_reducible first
    | assumption | refine State.rejectV_keep _ _ _ _ _ _ ?_ | refine State.setReg_keep _ _ _ ?_ | refine ite_keep ?_ ?_)

theorem execGzCfgWrite_keep (a0 : Fn) (a1 : W32) (a2 : State) (h0 : Kept s₀ a2) : OutAll (Kept s₀) (execGzCfgWrite a0 a1 a2) := by
  unfold execGzCfgWrite
  repeat' (with_reducible first
    | assumption | refine State.hostAct_keep _ _ _ _ ?_ ?_ | refine State.gzCfg_keep _ _ ?_ | exact id | split | intro _)

theorem State.askBytes_keep (a0 : State) (a1 : StreamId) (a2 : List Byte) (h0 : Kept s₀ a0) : Kept s₀ (State.askBytes a0 a1 a2) := by
  unfold State.askBytes
  repeat' (with_reducible first
    | assumption | refine State.modStream_keep _ _ _ ?_ | refine State.issue_keep _ _ _ ?_ | refine ite_keep ?_ ?_)

theorem execChunkFetch_keep (a0 : StreamId) (a1 : State) (h0 : Kept s₀ a1) : OutAll (Kept s₀) (execChunkFetch a0 a1) := by
  unfold execChunkFetch
  repeat' (with_reducible first
    | assumption | refine OutAll.go ?_ | refine State.modStream_keep _ _ _ ?_ | refine State.issue_keep _ _ _ ?_
    | refine State.askBytes_keep _ _ _ ?_ | refine ite_out ?_ ?_ | split)

theorem State.headWb_keep (a0 : State) (a1 : Nat) (h0 : Kept s₀ a0) : Kept s₀ (State.headWb a0 a1) := by
  unfold State.headWb
  repeat' (with_reducible first
    | assumption | refine State.hostWrite_keep _ _ _ _ _ ?_ | refine State.modFn_keep _ _ _ ?_ | refine ite_keep ?_ ?_)

theorem State.passChunk_keep (a0 : State) (a1 : Nat) (h0 : Kept s₀ a0) : Kept s₀ (State.passChunk a0 a1) := by
  unfold State.passChunk
  repeat' (with_reducible first
    | assumption | refine State.headWb_keep _ _ ?_ | refine State.modStream_keep _ _ _ ?_ | refine State.setReg_keep _ _ _ ?_)

theorem State.badChunk_keep (a0 : State) (a1 : Nat) (a2 : W16) (h0 : Kept s₀ a0) : Kept s₀ (State.badChunk a0 a1 a2) := by
  unfold State.badChunk
  repeat' (with_reducible first
    | assumption | refine State.modStream_keep _ _ _ ?_ | refine State.countEntry_keep _ _ _ _ ?_
    | refine State.strCode_keep _ _ _ ?_ | refine State.passChunk_keep _ _ ?_)

theorem State.auComplete_keep (a0 : State) (a1 : Nat) (a2 : W16) (h0 : Kept s₀ a0) : Kept s₀ (State.auComplete a0 a1 a2) := by
  unfold State.auComplete
  repeat' (with_reducible first
    | assumption | refine State.modStream_keep _ _ _ ?_ | refine State.countEntry_keep _ _ _ _ ?_ | refine ite_keep ?_ ?_
    | exact id | split | extract_lets | intro _
    | refine Kept.of_parts ?_ rfl rfl rfl rfl rfl rfl rfl rfl rfl rfl rfl rfl rfl rfl ?_ ?_ ?_ ?_ | refine Video.ok_mk ?_ ?_ ?_
    | refine Video.ok.ee ?_ | refine Video.ok.pe ?_ | refine Video.ok.pre ?_)

theorem State.auAdd_keep (a0 : State) (a1 : Nat) (a2 : List (Prod Byte (Option W64))) (h0 : Kept s₀ a0) : Kept s₀ (State.auAdd a0 a1 a2) := by
  unfold State.auAdd
  repeat' (with_reducible first | assumption | refine State.modStream_keep _ _ _ ?_ | refine ite_keep ?_ ?_)

theorem State.skipOldest_keep (a0 : State) (a1 : Nat) (h0 : Kept s₀ a0) : Kept s₀ (State.skipOldest a0 a1) := by
  unfold State.skipOldest
  repeat' (with_reducible first
    | assumption | refine State.modStream_keep _ _ _ ?_ | refine State.sweepFrames_keep _ _ ?_
    | refine State.countEntry_keep _ _ _ _ ?_ | refine ite_keep ?_ ?_ | split | extract_lets)

theorem State.deliver_keep (a0 : State) (a1 : Nat) (a2 : PicRec) (h0 : Kept s₀ a0) : Kept s₀ (State.deliver a0 a1 a2) := by
  unfold State.deliver
  repeat' (with_reducible first
    | assumption | refine State.skipOldest_keep _ _ ?_ | refine State.modStream_keep _ _ _ ?_
    | refine State.pictureCalls_keep _ _ _ ?_)

theorem State.bump_keep (a0 : State) (a1 : Nat) (a2 : Nat) (a3 : Nat) (a4 : Bool) (a5 : Nat) (h0 : Kept s₀ a0) : Kept s₀ (State.bump a0 a1 a2 a3 a4 a5) := by
  induction a5 generalizing a0 with
  | zero => exact h0
  | succ n ih =>
  unfold State.bump
  repeat' (with_reducible first
    | assumption | refine ih _ ?_ | refine State.deliver_keep _ _ _ ?_ | refine ite_keep ?_ ?_ | split)

theorem State.flushOut_keep (a0 : State) (a1 : Nat) (h0 : Kept s₀ a0) : Kept s₀ (State.flushOut a0 a1) := by
  unfold State.flushOut
  repeat' (with_reducible first | assumption | refine State.bump_keep _ _ _ _ _ _ ?_)

theorem State.showExisting_keep (a0 : State) (a1 : Nat) (a2 : Nat) (a3 : W64) (a4 : Bool) (h0 : Kept s₀ a0) : Kept s₀ (State.showExisting a0 a1 a2 a3 a4) := by
  unfold State.showExisting
  repeat' (with_reducible first
    | assumption | refine State.sweepFrames_keep _ _ ?_ | refine State.modStream_keep _ _ _ ?_
    | refine State.countEntry_keep _ _ _ _ ?_ | refine State.deliver_keep _ _ _ ?_ | refine ite_keep ?_ ?_ | split)

theorem State.endOfStream_keep (a0 : State) (a1 : Nat) (h0 : Kept s₀ a0) : Kept s₀ (State.endOfStream a0 a1) := by
  unfold State.endOfStream
  repeat' (with_reducible first
    | assumption | refine State.setStrState_keep _ _ _ ?_ | refine State.flushOut_keep _ _ ?_
    | refine State.modStream_keep _ _ _ ?_ | split | extract_lets)

theorem State.eosChunk_keep (a0 : State) (a1 : Nat) (h0 : Kept s₀ a0) : Kept s₀ (State.eosChunk a0 a1) := by
  unfold State.eosChunk
  repeat' (with_reducible first
    | assumption | refine State.modStream_keep _ _ _ ?_ | refine State.endOfStream_keep _ _ ?_ | exact id | split | extract_lets
    | intro _ | refine Kept.of_parts ?_ rfl rfl rfl rfl rfl rfl rfl rfl rfl rfl rfl rfl rfl rfl ?_ ?_ ?_ ?_
    | refine Video.ok_mk ?_ ?_ ?_ | refine Video.ok.ee ?_ | refine Video.ok.pe ?_ | refine Video.ok.pre ?_
    | refine Tbl.ok_modify ?_)

theorem State.copyChunk_keep (a0 : State) (a1 : Nat) (a2 : List Byte) (h0 : Kept s₀ a0) : Kept s₀ (State.copyChunk a0 a1 a2) := by
  unfold State.copyChunk
  repeat' (with_reducible first | assumption | refine State.memPut_keep _ _ _ ?_ | refine State.modStream_keep _ _ _ ?_ | split)

theorem State.auEnd_keep (a0 : State) (a1 : Nat) (a2 : W16) (h0 : Kept s₀ a0) : Kept s₀ (State.auEnd a0 a1 a2) := by
  unfold State.auEnd
  repeat' (with_reducible first
    | assumption | refine State.auAdd_keep _ _ _ ?_ | refine State.auComplete_keep _ _ _ ?_
    | refine State.modStream_keep _ _ _ ?_)

theorem State.auSplit_keep (a0 : State) (a1 : Nat) (a2 : List (Prod Byte (Option W64))) (h0 : Kept s₀ a0) : Kept s₀ (State.auSplit a0 a1 a2) := by
  unfold State.auSplit
  repeat' (with_reducible first
    | assumption | refine State.auAdd_keep _ _ _ ?_ | refine State.auComplete_keep _ _ _ ?_
    | refine State.modStream_keep _ _ _ ?_ | refine foldl_keep ?_ (fun _ _ _ => ?_))

theorem State.feed_keep (a0 : State) (a1 : Nat) (a2 : List Byte) (a3 : List Byte) (h0 : Kept s₀ a0) : Kept s₀ (State.feed a0 a1 a2 a3) := by
  unfold State.feed
  repeat' (with_reducible first
    | assumption | refine State.auEnd_keep _ _ _ ?_ | refine State.countEntry_keep _ _ _ _ ?_
    | refine State.modStream_keep _ _ _ ?_ | refine State.auSplit_keep _ _ _ ?_ | refine State.eosChunk_keep _ _ ?_
    | refine ite_keep ?_ ?_ | split)

theorem execChunkArrival_keep (a0 : StreamId) (a1 : Fetched) (a2 : State) (h0 : Kept s₀ a2) : OutAll (Kept s₀) (execChunkArrival a0 a1 a2) := by
  unfold execChunkArrival
  repeat' (with_reducible first
    | assumption | refine OutAll.go ?_ | refine State.received_keep _ _ ?_ | refine State.land_keep _ _ ?_
    | refine State.badChunk_keep _ _ _ ?_ | refine State.askBytes_keep _ _ _ ?_ | refine State.passChunk_keep _ _ ?_
    | refine State.feed_keep _ _ _ _ ?_ | refine State.copyChunk_keep _ _ _ ?_ | refine ite_keep ?_ ?_ | refine ite_out ?_ ?_
    | split)

theorem execAuTimeout_keep (a0 : StreamId) (a1 : State) (h0 : Kept s₀ a1) : OutAll (Kept s₀) (execAuTimeout a0 a1) := by
  unfold execAuTimeout
  repeat' (with_reducible first
    | assumption | refine OutAll.go ?_ | refine State.strCode_keep _ _ _ ?_ | refine State.auEnd_keep _ _ _ ?_
    | refine ite_out ?_ ?_)

theorem State.nextRap_keep (a0 : State) (a1 : Nat) (h0 : Kept s₀ a0) : Kept s₀ (State.nextRap a0 a1) := by
  unfold State.nextRap
  repeat' (with_reducible first | assumption | refine State.setStrState_keep _ _ _ ?_ | refine ite_keep ?_ ?_)

theorem State.takeSet_keep (a0 : State) (a1 : Nat) (a2 : ParamSet) (h0 : Kept s₀ a0) : Kept s₀ (State.takeSet a0 a1 a2) := by
  unfold State.takeSet
  repeat' (with_reducible first
    | assumption | refine State.nextRap_keep _ _ ?_ | refine State.strCode_keep _ _ _ ?_
    | refine State.countEntry_keep _ _ _ _ ?_ | refine State.modStream_keep _ _ _ ?_ | split)

theorem State.dropPic_keep (a0 : State) (a1 : Nat) (a2 : W16) (a3 : Bool) (h0 : Kept s₀ a0) : Kept s₀ (State.dropPic a0 a1 a2 a3) := by
  unfold State.dropPic
  repeat' (with_reducible first
    | assumption | refine State.strCode_keep _ _ _ ?_ | refine State.countEntry_keep _ _ _ _ ?_
    | refine State.nextRap_keep _ _ ?_ | refine ite_keep ?_ ?_)

theorem State.setEe_keep (a0 : State) (a1 : Nat) (a2 : Option EeJob) (h0 : Kept s₀ a0) : Kept s₀ (State.setEe a0 a1 a2) := by
  unfold State.setEe
  repeat' (with_reducible first
    | assumption | exact id | extract_lets | intro _
    | refine Kept.of_parts ?_ rfl rfl rfl rfl rfl rfl rfl rfl rfl rfl rfl rfl rfl rfl ?_ ?_ ?_ ?_ | refine Video.ok_mk ?_ ?_ ?_
    | refine Video.ok.ee ?_ | refine Video.ok.pe ?_ | refine Video.ok.pre ?_ | refine Tbl.ok_set ?_)

theorem State.promoteSets_keep (a0 : State) (a1 : Nat) (h0 : Kept s₀ a0) : Kept s₀ (State.promoteSets a0 a1) := by
  unfold State.promoteSets
  repeat' (with_reducible first | assumption | refine State.modStream_keep _ _ _ ?_)

theorem State.startPic_keep (a0 : State) (a1 : Nat) (a2 : Nat) (a3 : EeJob) (a4 : PicSyntax) (a5 : List PicSyntax) (a6 : ParamSet) (h0 : Kept s₀ a0) : Kept s₀ (State.startPic a0 a1 a2 a3 a4 a5 a6) := by
  unfold State.startPic
  repeat' (with_reducible first
    | assumption | refine State.modStream_keep _ _ _ ?_ | refine State.setStrState_keep _ _ _ ?_
    | refine State.setEntry_keep _ _ _ _ ?_ | refine State.countEntry_keep _ _ _ _ ?_ | refine State.setEe_keep _ _ _ ?_
    | refine State.dropPic_keep _ _ _ _ ?_ | refine State.countFree_keep _ _ ?_ | refine ite_keep ?_ ?_)

theorem State.eeFinish_keep (a0 : State) (a1 : Nat) (a2 : Nat) (a3 : EeJob) (h0 : Kept s₀ a0) : Kept s₀ (State.eeFinish a0 a1 a2 a3) := by
  unfold State.eeFinish
  repeat' (with_reducible first
    | assumption | refine State.setEe_keep _ _ _ ?_ | refine State.showExisting_keep _ _ _ _ _ ?_
    | refine State.modStream_keep _ _ _ ?_ | refine State.endOfStream_keep _ _ ?_ | refine ite_keep ?_ ?_ | split)

theorem State.eeNext_keep (a0 : State) (a1 : Nat) (a2 : Nat) (h0 : Kept s₀ a0) : Kept s₀ (State.eeNext a0 a1 a2) := by
  induction a2 generalizing a0 with
  | zero => exact h0
  | succ n ih =>
  unfold State.eeNext
  repeat' (with_reducible first
    | assumption | refine ih _ ?_ | refine State.eeFinish_keep _ _ _ _ ?_ | refine State.dropPic_keep _ _ _ _ ?_
    | refine State.promoteSets_keep _ _ ?_ | refine State.setEe_keep _ _ _ ?_ | refine State.startPic_keep _ _ _ _ _ _ _ ?_
    | refine ite_keep ?_ ?_ | split | extract_lets)

theorem State.eeRun_keep (a0 : State) (a1 : Nat) (h0 : Kept s₀ a0) : Kept s₀ (State.eeRun a0 a1) := by
  unfold State.eeRun
  repeat' (with_reducible first | assumption | refine State.eeNext_keep _ _ _ ?_ | split)

theorem execEntropySelect_keep (a0 : Fin 4) (a1 : List (Prod StreamId AuSyntax)) (a2 : State) (h0 : Kept s₀ a2) : OutAll (Kept s₀) (execEntropySelect a0 a1 a2) := by
  unfold execEntropySelect
  repeat' (with_reducible first
    | assumption | refine OutAll.go ?_ | refine State.countEntry_keep _ _ _ _ ?_ | refine State.count_keep _ _ _ ?_
    | refine State.modStream_keep _ _ _ ?_ | refine State.setEe_keep _ _ _ ?_ | refine State.nextRap_keep _ _ ?_
    | refine State.strCode_keep _ _ _ ?_ | refine State.takeSet_keep _ _ _ ?_ | refine State.eeRun_keep _ _ ?_
    | refine foldl_keep ?_ (fun _ _ _ => ?_) | refine ite_keep ?_ ?_ | refine ite_out ?_ ?_ | split | extract_lets
    | (refine (@id (Kept s₀ ‹State› → _) (fun _ => ?_)) ?_; focus (clear_value *; split)))

theorem execCreditTick_keep (a0 : StreamId) (a1 : State) (h0 : Kept s₀ a1) : OutAll (Kept s₀) (execCreditTick a0 a1) := by
  unfold execCreditTick
  repeat' (with_reducible first
    | assumption | refine OutAll.go ?_ | refine State.modStream_keep _ _ _ ?_ | refine State.eeRun_keep _ _ ?_
    | refine ite_out ?_ ?_ | split | extract_lets)

theorem execSyntaxStallResume_keep (a0 : Fin 4) (a1 : State) (h0 : Kept s₀ a1) : OutAll (Kept s₀) (execSyntaxStallResume a0 a1) := by
  unfold execSyntaxStallResume
  repeat' (with_reducible first
    | assumption | refine OutAll.go ?_ | refine State.setEe_keep _ _ _ ?_ | refine State.countFree_keep _ _ ?_
    | refine ite_out ?_ ?_ | split)

theorem State.syntaxErrors_keep (a0 : State) (a1 : Nat) (a2 : PicJob) (h0 : Kept s₀ a0) : Kept s₀ (State.syntaxErrors a0 a1 a2).1 := by
  unfold State.syntaxErrors
  repeat' (with_reducible first
    | assumption | refine State.strCode_keep _ _ _ ?_ | refine State.countEntry_keep _ _ _ _ ?_
    | refine pair_fst ?_ ‹_ = (_, _)› | split | extract_lets)

theorem State.syntaxDone_keep (a0 : State) (a1 : Nat) (a2 : EeJob) (h0 : Kept s₀ a0) : Kept s₀ (State.syntaxDone a0 a1 a2) := by
  unfold State.syntaxDone
  repeat' (with_reducible first
    | assumption | refine State.syntaxErrors_keep _ _ _ ?_ | refine State.modStream_keep _ _ _ ?_
    | refine State.eeRun_keep _ _ ?_ | refine State.setEe_keep _ _ _ ?_ | refine State.count_keep _ _ _ ?_ | exact id | split
    | extract_lets | intro _ | refine Kept.of_parts ?_ rfl rfl rfl rfl rfl rfl rfl rfl rfl rfl rfl rfl rfl rfl ?_ ?_ ?_ ?_
    | refine Video.ok_mk ?_ ?_ ?_ | refine Video.ok.ee ?_ | refine Video.ok.pe ?_ | refine Video.ok.pre ?_)

theorem execSyntaxComplete_keep (a0 : Fin 4) (a1 : State) (h0 : Kept s₀ a1) : OutAll (Kept s₀) (execSyntaxComplete a0 a1) := by
  unfold execSyntaxComplete
  repeat' (with_reducible first
    | assumption | refine OutAll.go ?_ | refine State.syntaxDone_keep _ _ _ ?_ | refine ite_out ?_ ?_ | split)

theorem State.concealBlock_keep (a0 : State) (a1 : ParamSet) (a2 : Nat) (a3 : Option Nat) (a4 : Nat) (h0 : Kept s₀ a0) : Kept s₀ (State.concealBlock a0 a1 a2 a3 a4) := by
  unfold State.concealBlock
  repeat' (with_reducible first | assumption | refine State.memPut_keep _ _ _ ?_ | refine foldl_keep ?_ (fun _ _ _ => ?_))

theorem State.monoFill_keep (a0 : State) (a1 : Nat) (a2 : ParamSet) (a3 : Nat) (h0 : Kept s₀ a0) : Kept s₀ (State.monoFill a0 a1 a2 a3) := by
  unfold State.monoFill
  repeat' (with_reducible first
    | assumption | refine State.memPut_keep _ _ _ ?_ | refine foldl_keep ?_ (fun _ _ _ => ?_) | refine ite_keep ?_ ?_)

theorem State.concealBad_keep (a0 : State) (a1 : Nat) (a2 : PicJob) (a3 : Nat) (h0 : Kept s₀ a0) : Kept s₀ (State.concealBad a0 a1 a2 a3) := by
  unfold State.concealBad
  repeat' (with_reducible first
    | assumption | refine State.concealBlock_keep _ _ _ _ _ ?_ | refine State.sweepFrames_keep _ _ ?_
    | refine State.modStream_keep _ _ _ ?_ | refine foldl_keep ?_ (fun _ _ _ => ?_))

theorem State.countPicture_keep (a0 : State) (a1 : Nat) (a2 : Nat) (a3 : Nat) (a4 : Nat) (h0 : Kept s₀ a0) : Kept s₀ (State.countPicture a0 a1 a2 a3 a4) := by
  unfold State.countPicture
  repeat' (with_reducible first | assumption | refine State.countEntry_keep _ _ _ _ ?_)

theorem State.outputReady_keep (a0 : State) (a1 : Nat) (a2 : PicJob) (a3 : PicRec) (h0 : Kept s₀ a0) : Kept s₀ (State.outputReady a0 a1 a2 a3) := by
  unfold State.outputReady
  repeat' (with_reducible first
    | assumption | refine State.deliver_keep _ _ _ ?_ | refine State.bump_keep _ _ _ _ _ _ ?_
    | refine State.showExisting_keep _ _ _ _ _ ?_ | refine State.flushOut_keep _ _ ?_ | refine foldl_keep ?_ (fun _ _ _ => ?_)
    | refine ite_keep ?_ ?_)

theorem State.makeReady_keep (a0 : State) (a1 : Nat) (a2 : PicJob) (a3 : Nat) (a4 : Nat) (h0 : Kept s₀ a0) : Kept s₀ (State.makeReady a0 a1 a2 a3 a4) := by
  unfold State.makeReady
  repeat' (with_reducible first
    | assumption | refine State.concealBad_keep _ _ _ _ ?_ | refine State.monoFill_keep _ _ _ _ ?_
    | refine State.countPicture_keep _ _ _ _ _ ?_ | refine State.sweepFrames_keep _ _ ?_ | refine State.modStream_keep _ _ _ ?_
    | refine State.strCode_keep _ _ _ ?_ | refine State.flushOut_keep _ _ ?_ | refine State.outputReady_keep _ _ _ _ ?_
    | refine ite_keep ?_ ?_)

theorem State.readyLoop_keep (a0 : State) (a1 : Nat) (a2 : Nat) (h0 : Kept s₀ a0) : Kept s₀ (State.readyLoop a0 a1 a2) := by
  induction a2 generalizing a0 with
  | zero => exact h0
  | succ n ih =>
  unfold State.readyLoop
  repeat' (with_reducible first
    | assumption | refine ih _ ?_ | refine State.makeReady_keep _ _ _ _ _ ?_ | refine ite_keep ?_ ?_ | split)

theorem State.settle_keep (a0 : State) (a1 : Nat) (h0 : Kept s₀ a0) : Kept s₀ (State.settle a0 a1) := by
  unfold State.settle
  repeat' (with_reducible first | assumption | refine State.readyLoop_keep _ _ _ ?_)

theorem State.askBuf_keep (a0 : State) (a1 : Nat) (h0 : Kept s₀ a0) : Kept s₀ (State.askBuf a0 a1) := by
  unfold State.askBuf
  repeat' (with_reducible first
    | assumption | refine OptAll.elim2 (State.coilGrant_keep _ _ _ ?_) ‹_ = some _› | refine ite_keep ?_ ?_ | exact id | split
    | extract_lets | intro _ | refine Kept.of_parts ?_ rfl rfl rfl rfl rfl rfl rfl rfl rfl rfl rfl rfl rfl rfl ?_ ?_ ?_ ?_
    | refine Coil.ok_mk ?_ ?_ ?_ ?_ | refine Coil.ok.buffers ?_ | refine Coil.ok.bases ?_ | refine Coil.ok.bufs ?_
    | refine Coil.ok.resv ?_)

theorem State.modJob_keep (a0 : State) (a1 : Nat) (a2 : Option Nat) (a3 : PicJob → PicJob) (h0 : Kept s₀ a0) : Kept s₀ (State.modJob a0 a1 a2 a3) := by
  unfold State.modJob
  repeat' (with_reducible first | assumption | refine State.modStream_keep _ _ _ ?_)

theorem State.beginPic_keep (a0 : State) (a1 : Nat) (a2 : PicJob) (a3 : Prod Nat Nat) (h0 : Kept s₀ a0) : Kept s₀ (State.beginPic a0 a1 a2 a3).1 := by
  unfold State.beginPic
  repeat' (with_reducible first | assumption | refine State.strCode_keep _ _ _ ?_ | split | extract_lets)

theorem State.takeUnit_keep (a0 : State) (a1 : Nat) (a2 : Nat) (a3 : PicJob) (h0 : Kept s₀ a0) : Kept s₀ (State.takeUnit a0 a1 a2 a3) := by
  unfold State.takeUnit
  repeat' (with_reducible first
    | assumption | refine State.modJob_keep _ _ _ _ ?_ | exact id | extract_lets | intro _
    | refine Kept.of_parts ?_ rfl rfl rfl rfl rfl rfl rfl rfl rfl rfl rfl rfl rfl rfl ?_ ?_ ?_ ?_ | refine Video.ok_mk ?_ ?_ ?_
    | refine Video.ok.ee ?_ | refine Video.ok.pe ?_ | refine Video.ok.pre ?_ | refine Tbl.ok_set ?_)

theorem execPixelUnitStart_keep (a0 : Fin 16) (a1 : State) (h0 : Kept s₀ a1) : OutAll (Kept s₀) (execPixelUnitStart a0 a1) := by
  unfold execPixelUnitStart
  repeat' (with_reducible first
    | assumption | refine OutAll.go ?_ | refine State.askBuf_keep _ _ ?_ | refine State.takeUnit_keep _ _ _ _ ?_
    | refine State.beginPic_keep _ _ _ _ ?_ | refine ite_out ?_ ?_ | split | extract_lets)

theorem State.writeSamples_keep (a0 : State) (a1 : PicJob) (a2 : Nat) (a3 : Nat) (h0 : Kept s₀ a0) : Kept s₀ (State.writeSamples a0 a1 a2 a3) := by
  unfold State.writeSamples
  repeat' (with_reducible first
    | assumption | refine State.memPut_keep _ _ _ ?_ | refine foldl_keep ?_ (fun _ _ _ => ?_) | split)

theorem execPixelUnitDone_keep (a0 : Fin 16) (a1 : UnitResult) (a2 : State) (h0 : Kept s₀ a2) : OutAll (Kept s₀) (execPixelUnitDone a0 a1 a2) := by
  unfold execPixelUnitDone
  repeat' (with_reducible first
    | assumption | refine OutAll.go ?_ | refine State.count_keep _ _ _ ?_ | refine State.writeSamples_keep _ _ _ _ ?_
    | refine State.strCode_keep _ _ _ ?_ | refine State.modJob_keep _ _ _ _ ?_ | refine State.settle_keep _ _ ?_
    | refine ite_keep ?_ ?_ | refine ite_out ?_ ?_ | exact id | split | extract_lets | intro _
    | refine Kept.of_parts ?_ rfl rfl rfl rfl rfl rfl rfl rfl rfl rfl rfl rfl rfl rfl ?_ ?_ ?_ ?_ | refine Video.ok_mk ?_ ?_ ?_
    | refine Video.ok.ee ?_ | refine Video.ok.pe ?_ | refine Video.ok.pre ?_ | refine Tbl.ok_set ?_)

theorem State.handOn_keep (a0 : State) (a1 : Nat) (a2 : PicJob) (h0 : Kept s₀ a0) : Kept s₀ (State.handOn a0 a1 a2) := by
  unfold State.handOn
  repeat' (with_reducible first
    | assumption | refine State.modStream_keep _ _ _ ?_ | refine State.showExisting_keep _ _ _ _ _ ?_
    | refine State.flushOut_keep _ _ ?_ | refine foldl_keep ?_ (fun _ _ _ => ?_) | refine ite_keep ?_ ?_ | split)

theorem State.removeJob_keep (a0 : State) (a1 : Nat) (a2 : PicJob) (a3 : W16) (h0 : Kept s₀ a0) : Kept s₀ (State.removeJob a0 a1 a2 a3) := by
  unfold State.removeJob
  repeat' (with_reducible first
    | assumption | refine State.countFree_keep _ _ ?_ | refine State.handOn_keep _ _ _ ?_ | refine State.modStream_keep _ _ _ ?_
    | refine State.freeBuf_keep _ _ _ ?_ | refine State.dropPic_keep _ _ _ _ ?_ | refine foldl_keep ?_ (fun _ _ _ => ?_)
    | refine ite_keep ?_ ?_ | exact id | split | extract_lets | intro _
    | refine Kept.of_parts ?_ rfl rfl rfl rfl rfl rfl rfl rfl rfl rfl rfl rfl rfl rfl ?_ ?_ ?_ ?_ | refine Video.ok_mk ?_ ?_ ?_
    | refine Video.ok.ee ?_ | refine Video.ok.pe ?_ | refine Video.ok.pre ?_ | refine Tbl.ok_set ?_
    | refine Tbl.ok_foldl ?_ (fun _ _ _ => ?_))

theorem State.parseOn_keep (a0 : State) (a1 : Nat) (a2 : Nat) (a3 : Bool) (a4 : W16) (h0 : Kept s₀ a0) : Kept s₀ (State.parseOn a0 a1 a2 a3 a4) := by
  unfold State.parseOn
  repeat' (with_reducible first
    | assumption | refine State.countFree_keep _ _ ?_ | refine State.strCode_keep _ _ _ ?_
    | refine State.countEntry_keep _ _ _ _ ?_ | refine State.eeRun_keep _ _ ?_ | refine State.setEe_keep _ _ _ ?_
    | refine ite_keep ?_ ?_ | split)

theorem State.dropJob_keep (a0 : State) (a1 : Nat) (a2 : PicJob) (a3 : W16) (a4 : Bool) (a5 : Bool) (h0 : Kept s₀ a0) : Kept s₀ (State.dropJob a0 a1 a2 a3 a4 a5) := by
  unfold State.dropJob
  repeat' (with_reducible first
    | assumption | refine State.removeJob_keep _ _ _ _ ?_ | refine State.nextRap_keep _ _ ?_ | refine State.settle_keep _ _ ?_
    | refine State.parseOn_keep _ _ _ _ _ ?_ | refine foldl_keep ?_ (fun _ _ _ => ?_) | refine ite_keep ?_ ?_)

theorem execVidEngineTo_keep (a0 : VidEngine) (a1 : State) (h0 : Kept s₀ a1) : OutAll (Kept s₀) (execVidEngineTo a0 a1) := by
  unfold execVidEngineTo
  repeat' (with_reducible first
    | assumption | refine OutAll.go ?_ | refine State.dropJob_keep _ _ _ _ _ _ ?_ | refine ite_out ?_ ?_ | split)

theorem execCoilTimeout_keep (a0 : BitVec 12) (a1 : State) (h0 : Kept s₀ a1) : OutAll (Kept s₀) (execCoilTimeout a0 a1) := by
  unfold execCoilTimeout
  repeat' (with_reducible first
    | assumption | refine OutAll.go ?_ | refine State.countEntry_keep _ _ _ _ ?_ | refine State.dropJob_keep _ _ _ _ _ _ ?_
    | refine ite_out ?_ ?_ | exact id | split | extract_lets | intro _
    | refine Kept.of_parts ?_ rfl rfl rfl rfl rfl rfl rfl rfl rfl rfl rfl rfl rfl rfl ?_ ?_ ?_ ?_
    | refine Coil.ok_mk ?_ ?_ ?_ ?_ | refine Coil.ok.buffers ?_ | refine Coil.ok.bases ?_ | refine Coil.ok.bufs ?_
    | refine Coil.ok.resv ?_)

end Sys2Proof.Machine
end

