-- ==== Sys2Proof/Laws/KeepDevice.lean ====
section
/-! SUPPORT. `Kept` holds of every function of resets, Tether, the CAN node, start and the host port. -/

namespace Sys2Proof.Machine

variable {s₀ : State}

/-! ### Survive -/

theorem State.survive_keep (a0 : State) (a1 : Nat) (h0 : Kept s₀ a0) : Kept s₀ (State.survive a0 a1) := by
  refine Kept.of_inv h0 (fun h => { h with regs := ?_, dict := ?_ }) rfl rfl rfl
  · exact Tbl.canon_keep h.regs (fun k _ => regSurv k / a1 % 2 == 1)
  · exact Tbl.canon_keep h.dict (fun k _ => entrySurv k / a1 % 2 == 1)
theorem State.dieReset_keep (a0 : State) (a1 : Bool) (h0 : Kept s₀ a0) : Kept s₀ (State.dieReset a0 a1) := by
  refine Kept.of_inv h0 (fun h => ⟨h.regs, h.dict, h.log, ?_, rfl, rfl, (fun _ h => nomatch h), rfl, rfl, rfl, rfl, rfl, rfl, Coil.ok_empty,
    Video.ok_empty, h.start⟩) rfl rfl rfl
  cases a1
  · exact Memory.wf_empty
  · exact ⟨h.mem.1, h.mem.2.1, h.mem.2.2.1, rfl, rfl, rfl, rfl, rfl, rfl⟩

/-! ### Power -/

theorem State.pwrLog_keep (a0 : State) (a1 : W16) (a2 : Nat) (h0 : Kept s₀ a0) : Kept s₀ (State.pwrLog a0 a1 a2) := by
  unfold State.pwrLog
  repeat' (with_reducible first | assumption | refine State.famErr_keep _ _ _ ?_ | refine State.logErr_keep _ _ _ _ _ _ _ ?_)

theorem State.modTth_keep (a0 : State) (a1 : Tether → Tether) (h0 : Kept s₀ a0) : Kept s₀ (State.modTth a0 a1) := by
  unfold State.modTth
  repeat' (with_reducible first
    | assumption | exact id | refine Kept.of_parts ?_ rfl rfl rfl rfl rfl rfl rfl rfl rfl rfl rfl rfl rfl rfl ?_ ?_ ?_ ?_)

theorem State.moveOp_keep (a0 : State) (a1 : Nat) (h0 : Kept s₀ a0) : Kept s₀ (State.moveOp a0 a1) := by
  unfold State.moveOp
  repeat' (with_reducible first | assumption | refine State.modTth_keep _ _ ?_ | refine State.setEntry_keep _ _ _ _ ?_)

theorem State.markOverride_keep (a0 : State) (h0 : Kept s₀ a0) : Kept s₀ (State.markOverride a0) := by
  unfold State.markOverride
  repeat' (with_reducible first
    | assumption | refine State.setStep_keep _ _ _ ?_ | refine State.countEntry_keep _ _ _ _ ?_
    | refine foldl_keep ?_ (fun _ _ _ => ?_) | refine ite_keep ?_ ?_)

theorem State.override_keep (a0 : State) (h0 : Kept s₀ a0) : Kept s₀ (State.override a0) := by
  unfold State.override
  repeat' (with_reducible first
    | assumption | refine State.pwrLog_keep _ _ _ ?_ | refine State.markOverride_keep _ ?_ | refine State.modTth_keep _ _ ?_
    | refine State.countEntry_keep _ _ _ _ ?_ | refine ite_keep ?_ ?_)

theorem State.stepDown_keep (a0 : State) (h0 : Kept s₀ a0) : Kept s₀ (State.stepDown a0) := by
  unfold State.stepDown
  repeat' (with_reducible first
    | assumption | refine State.countEntry_keep _ _ _ _ ?_ | refine State.moveOp_keep _ _ ?_ | refine State.override_keep _ ?_
    | refine ite_keep ?_ ?_)

theorem State.stepUp_keep (a0 : State) (h0 : Kept s₀ a0) : Kept s₀ (State.stepUp a0) := by
  unfold State.stepUp
  repeat' (with_reducible first | assumption | refine State.modTth_keep _ _ ?_ | refine ite_keep ?_ ?_)

theorem execVoltageSlewDone_keep (a0 : State) (h0 : Kept s₀ a0) : OutAll (Kept s₀) (execVoltageSlewDone a0) := by
  unfold execVoltageSlewDone
  repeat' (with_reducible first
    | assumption | refine OutAll.go ?_ | refine State.modTth_keep _ _ ?_ | refine State.countEntry_keep _ _ _ _ ?_
    | refine State.setEntry_keep _ _ _ _ ?_ | refine ite_out ?_ ?_ | split)

theorem State.showCap_keep (a0 : State) (h0 : Kept s₀ a0) : Kept s₀ (State.showCap a0) := by
  unfold State.showCap
  repeat' (with_reducible first | assumption | refine State.setEntry_keep _ _ _ _ ?_)

theorem execPowerSample_keep (a0 : PowerReading) (a1 : State) (h0 : Kept s₀ a1) : OutAll (Kept s₀) (execPowerSample a0 a1) := by
  unfold execPowerSample
  repeat' (with_reducible first
    | assumption | refine State.modTth_keep _ _ ?_ | refine State.countEntry_keep _ _ _ _ ?_
    | refine State.setEntry_keep _ _ _ _ ?_ | refine State.showCap_keep _ ?_ | refine OutAll.go ?_
    | refine State.stepDown_keep _ ?_ | refine ite_out ?_ ?_)

theorem execDroopFire_keep (a0 : IbexId) (a1 : State) (h0 : Kept s₀ a1) : OutAll (Kept s₀) (execDroopFire a0 a1) := by
  unfold execDroopFire
  repeat' (with_reducible first
    | assumption | refine OutAll.go ?_ | refine State.modTth_keep _ _ ?_ | refine State.countEntry_keep _ _ _ _ ?_
    | refine State.override_keep _ ?_ | refine State.stepDown_keep _ ?_ | refine ite_out ?_ ?_)

theorem execDroopHoldEnd_keep (a0 : State) (h0 : Kept s₀ a0) : OutAll (Kept s₀) (execDroopHoldEnd a0) := by
  unfold execDroopHoldEnd
  repeat' (with_reducible first | assumption | refine OutAll.go ?_ | refine State.modTth_keep _ _ ?_ | refine ite_out ?_ ?_)

theorem State.shedNext_keep (a0 : State) (h0 : Kept s₀ a0) : Kept s₀ (State.shedNext a0) := by
  unfold State.shedNext
  repeat' (with_reducible first
    | assumption | exact id | split | extract_lets
    | refine Kept.of_parts ?_ rfl rfl rfl rfl rfl rfl rfl rfl rfl rfl rfl rfl rfl rfl ?_ ?_ ?_ ?_)

theorem State.unshedLast_keep (a0 : State) (h0 : Kept s₀ a0) : Kept s₀ (State.unshedLast a0) := by
  unfold State.unshedLast
  repeat' (with_reducible first
    | assumption | exact id | extract_lets
    | refine Kept.of_parts ?_ rfl rfl rfl rfl rfl rfl rfl rfl rfl rfl rfl rfl rfl rfl ?_ ?_ ?_ ?_)

theorem State.throttleTick_keep (a0 : State) (h0 : Kept s₀ a0) : Kept s₀ (State.throttleTick a0) := by
  unfold State.throttleTick
  repeat' (with_reducible first
    | assumption | refine State.countEntry_keep _ _ _ _ ?_ | refine State.pwrLog_keep _ _ _ ?_ | refine State.modTth_keep _ _ ?_
    | refine ite_keep ?_ ?_)

theorem State.mend_keep (a0 : State) (h0 : Kept s₀ a0) : Kept s₀ (State.mend a0) := by
  unfold State.mend
  repeat' (with_reducible first | assumption | refine State.modTth_keep _ _ ?_ | refine ite_keep ?_ ?_)

theorem State.slowLoop_keep (a0 : State) (a1 : Nat) (h0 : Kept s₀ a0) : Kept s₀ (State.slowLoop a0 a1) := by
  unfold State.slowLoop
  repeat' (with_reducible first
    | assumption | refine State.modTth_keep _ _ ?_ | refine State.stepDown_keep _ ?_ | refine State.override_keep _ ?_
    | refine State.shedNext_keep _ ?_ | refine State.stepUp_keep _ ?_ | refine State.unshedLast_keep _ ?_
    | refine ite_keep ?_ ?_)

theorem execSlowLoopTick_keep (a0 : State) (h0 : Kept s₀ a0) : OutAll (Kept s₀) (execSlowLoopTick a0) := by
  unfold execSlowLoopTick
  repeat' (with_reducible first
    | assumption | refine State.showCap_keep _ ?_ | refine State.modTth_keep _ _ ?_ | refine OutAll.go ?_
    | refine State.freshWord_keep _ ?_ | refine State.throttleTick_keep _ ?_ | refine State.mend_keep _ ?_
    | refine State.slowLoop_keep _ _ ?_ | refine ite_out ?_ ?_ | split)

theorem execEnergyTick_keep (a0 : Activity) (a1 : State) (h0 : Kept s₀ a1) : OutAll (Kept s₀) (execEnergyTick a0 a1) := by
  unfold execEnergyTick
  have hf : Kept s₀ (if a1.pw 0x49 = 0 then a1.freshWord else (BitVec.ofNat 64 0, a1)).2 := by
    split
    · exact State.freshWord_keep _ h0
    · exact h0
  revert hf
  generalize (if a1.pw 0x49 = 0 then a1.freshWord else (BitVec.ofNat 64 0, a1)) = x
  exact fun hf => OutAll.go (State.modTth_keep _ _ (State.countEntry_keep _ _ _ _ (Kept.setActs hf id)))
theorem execLedgerTick_keep (a0 : CtxId) (a1 : CtxActivity) (a2 : State) (h0 : Kept s₀ a2) : OutAll (Kept s₀) (execLedgerTick a0 a1 a2) := by
  unfold execLedgerTick
  have hf : Kept s₀ (if a2.pw 0x49 = 0 then a2.freshWord else (0, a2)).2 := by
    split
    · exact State.freshWord_keep _ h0
    · exact h0
  revert hf
  generalize (if a2.pw 0x49 = 0 then a2.freshWord else (0, a2)) = x
  exact fun hf => OutAll.go (State.countCtx_keep _ _ _ _ (State.countCtx_keep _ _ _ _ (State.countCtx_keep _ _ _ _ (State.countCtx_keep _ _ _ _
    (State.setCtxSt_keep _ _ _ (Kept.setActs hf fun h => Tbl.ok_set h))))))
theorem State.showTemps_keep (a0 : State) (a1 : List Int) (h0 : Kept s₀ a0) : Kept s₀ (State.showTemps a0 a1) := by
  unfold State.showTemps
  repeat' (with_reducible first
    | assumption | refine State.setReg_keep _ _ _ ?_ | refine State.setEntry_keep _ _ _ _ ?_ | refine State.modTth_keep _ _ ?_
    | refine foldl_keep ?_ (fun _ _ _ => ?_))

theorem State.downTo9_keep (a0 : State) (a1 : Nat) (h0 : Kept s₀ a0) : Kept s₀ (State.downTo9 a0 a1) := by
  induction a1 generalizing a0 with
  | zero => exact h0
  | succ n ih =>
  unfold State.downTo9
  repeat' (with_reducible first | assumption | refine ih _ ?_ | refine State.stepDown_keep _ ?_ | refine ite_keep ?_ ?_)

theorem execTempSample_keep (a0 : List Int) (a1 : State) (h0 : Kept s₀ a1) : OutAll (Kept s₀) (execTempSample a0 a1) := by
  unfold execTempSample
  repeat' (with_reducible first
    | assumption | refine OutAll.go ?_ | refine State.showTemps_keep _ _ ?_ | refine State.modTth_keep _ _ ?_
    | refine State.pwrLog_keep _ _ _ ?_ | refine State.setEntry_keep _ _ _ _ ?_ | refine State.downTo9_keep _ _ ?_
    | refine ite_keep ?_ ?_ | refine ite_out ?_ ?_)

theorem State.enterStandby_keep (a0 : State) (a1 : Bool) (h0 : Kept s₀ a0) : Kept s₀ (State.enterStandby a0 a1) := by
  unfold State.enterStandby
  repeat' (with_reducible first
    | assumption | refine State.dieReset_keep _ _ ?_ | refine State.survive_keep _ _ ?_ | refine State.flushCodes_keep _ ?_
    | refine State.setEntry_keep _ _ _ _ ?_ | refine State.modTth_keep _ _ ?_ | exact id | extract_lets | intro _
    | refine Kept.of_parts ?_ rfl rfl rfl rfl rfl rfl rfl rfl rfl rfl rfl rfl rfl rfl ?_ ?_ ?_ ?_
    | refine Start.ok_mk ?_ ?_ ?_ ?_ ?_ | refine Start.ok.slots ?_ | refine Start.ok.kept ?_ | refine Start.ok.changed ?_
    | exact Tbl.ok_nil)

theorem execThermalTrip_keep (a0 : State) (h0 : Kept s₀ a0) : OutAll (Kept s₀) (execThermalTrip a0) := by
  unfold execThermalTrip
  repeat' (with_reducible first
    | assumption | refine OutAll.go ?_ | refine State.pwrLog_keep _ _ _ ?_ | refine State.countEntry_keep _ _ _ _ ?_
    | refine State.send_keep _ _ ?_ | refine State.modTth_keep _ _ ?_ | refine State.enterStandby_keep _ _ ?_
    | refine ite_out ?_ ?_)

theorem execThermtripRelease_keep (a0 : List Int) (a1 : State) (h0 : Kept s₀ a1) : OutAll (Kept s₀) (execThermtripRelease a0 a1) := by
  unfold execThermtripRelease
  repeat' (with_reducible first
    | assumption | refine OutAll.go ?_ | refine State.send_keep _ _ ?_ | refine State.modTth_keep _ _ ?_ | refine ite_out ?_ ?_)

theorem State.rampOff_keep (a0 : State) (a1 : Nat) (h0 : Kept s₀ a0) : Kept s₀ (State.rampOff a0 a1) := by
  unfold State.rampOff
  repeat' (with_reducible first
    | assumption | refine State.modIb_keep _ _ _ ?_ ?_ | refine State.dummies_keep _ _ ?_ | refine ite_keep ?_ ?_ | extract_lets
    | intro _ | refine Ibex.ok_mk ?_ ?_ ?_ ?_ ?_ ?_ | refine Ibex.ok.spm ?_ | refine Ibex.ok.spmSyn ?_ | refine Ibex.ok.acc ?_
    | refine Ibex.ok.accSyn ?_ | refine Ibex.ok.slots ?_ | refine Ibex.ok.regions ?_)

theorem execIdleEntry_keep (a0 : State) (h0 : Kept s₀ a0) : OutAll (Kept s₀) (execIdleEntry a0) := by
  unfold execIdleEntry
  repeat' (with_reducible first
    | assumption | refine OutAll.go ?_ | refine State.modIb_keep _ _ _ ?_ ?_ | refine State.rampOff_keep _ _ ?_
    | refine State.setEntry_keep _ _ _ _ ?_ | refine foldl_keep ?_ (fun _ _ _ => ?_) | refine ite_out ?_ ?_ | extract_lets
    | intro _ | refine Ibex.ok_mk ?_ ?_ ?_ ?_ ?_ ?_ | refine Ibex.ok.spm ?_ | refine Ibex.ok.spmSyn ?_ | refine Ibex.ok.acc ?_
    | refine Ibex.ok.accSyn ?_ | refine Ibex.ok.slots ?_ | refine Ibex.ok.regions ?_)

theorem State.napStart_keep (a0 : State) (h0 : Kept s₀ a0) : Kept s₀ (State.napStart a0) := by
  unfold State.napStart
  repeat' (with_reducible first
    | assumption | refine State.modTth_keep _ _ ?_ | exact id | extract_lets | intro _
    | refine Kept.of_parts ?_ rfl rfl rfl rfl rfl rfl rfl rfl rfl rfl rfl rfl rfl rfl ?_ ?_ ?_ ?_
    | (with_unfolding_all assumption) | refine Video.ok_mk ?_ ?_ ?_ | refine Video.ok.ee ?_ | refine Video.ok.pe ?_
    | refine Video.ok.pre ?_)

theorem execNapEntry_keep (a0 : State) (h0 : Kept s₀ a0) : OutAll (Kept s₀) (execNapEntry a0) := by
  unfold execNapEntry
  repeat' (with_reducible first | assumption | refine OutAll.go ?_ | refine State.napStart_keep _ ?_ | refine ite_out ?_ ?_)

theorem State.backToIdle_keep (a0 : State) (h0 : Kept s₀ a0) : Kept s₀ (State.backToIdle a0) := by
  unfold State.backToIdle
  repeat' (with_reducible first
    | assumption | refine State.modTth_keep _ _ ?_ | refine State.schedule_keep _ ?_ | refine State.leaveIdle_keep _ ?_
    | refine ite_keep ?_ ?_ | exact id | extract_lets | intro _
    | refine Kept.of_parts ?_ rfl rfl rfl rfl rfl rfl rfl rfl rfl rfl rfl rfl rfl rfl ?_ ?_ ?_ ?_
    | (with_unfolding_all assumption) | refine Video.ok_mk ?_ ?_ ?_ | refine Video.ok.ee ?_ | refine Video.ok.pe ?_
    | refine Video.ok.pre ?_)

theorem State.napSuspend_keep (a0 : State) (h0 : Kept s₀ a0) : Kept s₀ (State.napSuspend a0) := by
  unfold State.napSuspend
  repeat' (with_reducible first
    | assumption | refine State.setStep_keep _ _ _ ?_ | refine State.modIb_keep _ _ _ ?_ ?_
    | refine foldl_keep ?_ (fun _ _ _ => ?_) | refine ite_keep ?_ ?_ | extract_lets | intro _ | refine Ibex.evict_ok ?_)

theorem State.napPower_keep (a0 : State) (h0 : Kept s₀ a0) : Kept s₀ (State.napPower a0) :=
  Kept.of_inv h0 (fun h => { h with
    ibex := rfl, ibexes := (fun _ h => nomatch h), vid := ⟨h.vid.ee, h.vid.pe, h.vid.pre⟩,
    mem := ⟨h.mem.1, h.mem.2.1, h.mem.2.2.1, rfl, rfl, rfl,
      Tbl.ok_foldl (Memory.wf_power h.mem) (fun _ _ h => Tbl.ok_ite h (Tbl.ok_set h)), rfl, rfl⟩ }) rfl rfl rfl
theorem State.napGate_keep (a0 : State) (h0 : Kept s₀ a0) : Kept s₀ (State.napGate a0) := by
  unfold State.napGate
  repeat' (with_reducible first
    | assumption | refine State.napPower_keep _ ?_ | refine State.survive_keep _ _ ?_ | refine State.modTth_keep _ _ ?_
    | refine State.setEntry_keep _ _ _ _ ?_)

theorem State.napEnter_keep (a0 : State) (h0 : Kept s₀ a0) : Kept s₀ (State.napEnter a0) := by
  unfold State.napEnter
  repeat' (with_reducible first
    | assumption | refine State.countEntry_keep _ _ _ _ ?_ | refine State.setEntry_keep _ _ _ _ ?_
    | refine State.napGate_keep _ ?_)

theorem State.napExit_keep (a0 : State) (h0 : Kept s₀ a0) : Kept s₀ (State.napExit a0) := by
  unfold State.napExit
  repeat' (with_reducible first
    | assumption | refine State.setEntry_keep _ _ _ _ ?_ | refine State.modIb_keep _ _ _ ?_ ?_
    | refine State.modStream_keep _ _ _ ?_ | refine State.backToIdle_keep _ ?_ | refine State.eeRun_keep _ _ ?_
    | refine foldl_keep ?_ (fun _ _ _ => ?_) | refine ite_keep ?_ ?_ | exact id | extract_lets | intro _
    | refine Kept.of_parts ?_ rfl rfl rfl rfl rfl rfl rfl rfl rfl rfl rfl rfl rfl rfl ?_ ?_ ?_ ?_
    | refine Memory.wf_mk ?_ ?_ ?_ ?_ ?_ ?_ ?_ ?_ ?_ | refine Memory.wf_hbm ?_ | refine Memory.wf_syn ?_
    | refine Memory.wf_chk ?_ | refine Memory.wf_lines ?_ | refine Memory.wf_lineSyn ?_ | refine Memory.wf_splSyn ?_
    | refine Memory.wf_power ?_ | refine Memory.wf_retries ?_ | refine Memory.wf_rows ?_ | refine Ibex.ok_mk ?_ ?_ ?_ ?_ ?_ ?_
    | refine Ibex.ok.spm ?_ | refine Ibex.ok.spmSyn ?_ | refine Ibex.ok.acc ?_ | refine Ibex.ok.accSyn ?_
    | refine Ibex.ok.slots ?_ | refine Ibex.ok.regions ?_ | refine Tbl.ok_filter ?_)

theorem execNapStageDone_keep (a0 : State) (h0 : Kept s₀ a0) : OutAll (Kept s₀) (execNapStageDone a0) := by
  unfold execNapStageDone
  repeat' (with_reducible first
    | assumption | refine OutAll.go ?_ | refine State.backToIdle_keep _ ?_ | refine State.napSuspend_keep _ ?_
    | refine State.modTth_keep _ _ ?_ | refine State.flushAll_keep _ ?_ | refine State.writeBackAll_keep _ ?_
    | refine State.serveQueues_keep _ ?_ | refine State.napExit_keep _ ?_ | refine State.napGate_keep _ ?_
    | refine State.napEnter_keep _ ?_ | refine ite_out ?_ ?_ | exact id | split | extract_lets | intro _
    | refine Kept.of_parts ?_ rfl rfl rfl rfl rfl rfl rfl rfl rfl rfl rfl rfl rfl rfl ?_ ?_ ?_ ?_ | refine Video.ok_mk ?_ ?_ ?_
    | refine Video.ok.ee ?_ | refine Video.ok.pe ?_ | refine Video.ok.pre ?_)

theorem execWakeEvent_keep (a0 : State) (h0 : Kept s₀ a0) : OutAll (Kept s₀) (execWakeEvent a0) := by
  unfold execWakeEvent
  repeat' (with_reducible first | assumption | refine OutAll.go ?_ | refine State.wakeUp_keep _ ?_)

theorem execLinkL1Exit_keep (a0 : State) (h0 : Kept s₀ a0) : OutAll (Kept s₀) (execLinkL1Exit a0) := by
  unfold execLinkL1Exit
  repeat' (with_reducible first | assumption | refine OutAll.go ?_ | refine State.wakeUp_keep _ ?_)

theorem State.pwrCommand_keep (a0 : State) (a1 : Nat) (h0 : Kept s₀ a0) : ExAll (Kept s₀) (State.pwrCommand a0 a1) := by
  unfold State.pwrCommand
  repeat' (with_reducible first
    | assumption | refine State.send_keep _ _ ?_ | refine State.modTth_keep _ _ ?_ | refine State.wakeUp_keep _ ?_
    | refine State.napStart_keep _ ?_ | refine State.enterStandby_keep _ _ ?_ | refine ExAll.ok ?_ | exact ExAll.error
    | refine ite_ex ?_ ?_)

theorem execRun_keep (a0 : Origin) (a1 : State) (h0 : Kept s₀ a1) : OutAll (Kept s₀) (execRun a0 a1) := by
  unfold execRun
  repeat' (with_reducible first
    | assumption | refine State.dictCmd_keep _ _ _ _ _ _ ?_ ?_ | refine State.pwrCommand_keep _ _ ?_ | extract_lets | intro _)

theorem execNap_keep (a0 : Origin) (a1 : State) (h0 : Kept s₀ a1) : OutAll (Kept s₀) (execNap a0 a1) := by
  unfold execNap
  repeat' (with_reducible first
    | assumption | refine State.dictCmd_keep _ _ _ _ _ _ ?_ ?_ | refine State.pwrCommand_keep _ _ ?_ | extract_lets | intro _)

theorem execStandby_keep (a0 : Origin) (a1 : State) (h0 : Kept s₀ a1) : OutAll (Kept s₀) (execStandby a0 a1) := by
  unfold execStandby
  repeat' (with_reducible first
    | assumption | refine State.dictCmd_keep _ _ _ _ _ _ ?_ ?_ | refine State.pwrCommand_keep _ _ ?_ | extract_lets | intro _)

theorem execWake_keep (a0 : Origin) (a1 : State) (h0 : Kept s₀ a1) : OutAll (Kept s₀) (execWake a0 a1) := by
  unfold execWake
  repeat' (with_reducible first
    | assumption | refine State.dictCmd_keep _ _ _ _ _ _ ?_ ?_ | refine State.pwrCommand_keep _ _ ?_ | extract_lets | intro _)

theorem State.volts_keep (a0 : State) (a1 : Nat) (h0 : Kept s₀ a0) : Kept s₀ (State.volts a0 a1) := by
  unfold State.volts
  repeat' (with_reducible first | assumption | refine State.modTth_keep _ _ ?_ | refine State.setEntry_keep _ _ _ _ ?_)

theorem execVin12OutOfRange_keep (a0 : Nat) (a1 : State) (h0 : Kept s₀ a1) : OutAll (Kept s₀) (execVin12OutOfRange a0 a1) := by
  unfold execVin12OutOfRange
  repeat' (with_reducible first
    | assumption | refine OutAll.go ?_ | refine State.enterStandby_keep _ _ ?_ | refine State.volts_keep _ _ ?_
    | refine ite_keep ?_ ?_ | refine ite_out ?_ ?_ | exact id | extract_lets
    | refine Kept.of_parts ?_ rfl rfl rfl rfl rfl rfl rfl rfl rfl rfl rfl rfl rfl rfl ?_ ?_ ?_ ?_)

theorem execVin12Overcurrent_keep (a0 : State) (h0 : Kept s₀ a0) : OutAll (Kept s₀) (execVin12Overcurrent a0) := by
  unfold execVin12Overcurrent
  repeat' (with_reducible first
    | assumption | refine OutAll.go ?_ | refine State.enterStandby_keep _ _ ?_ | refine ite_out ?_ ?_)

theorem execAuxSwitch_keep (a0 : Bool) (a1 : State) (h0 : Kept s₀ a1) : OutAll (Kept s₀) (execAuxSwitch a0 a1) := by
  unfold execAuxSwitch
  repeat' (with_reducible first
    | assumption | refine OutAll.go ?_ | exact id | extract_lets
    | refine Kept.of_parts ?_ rfl rfl rfl rfl rfl rfl rfl rfl rfl rfl rfl rfl rfl rfl ?_ ?_ ?_ ?_)

/-! ### Net -/

theorem State.modNode_keep (a0 : State) (a1 : Node → Node) (h0 : Kept s₀ a0) : Kept s₀ (State.modNode a0 a1) := by
  unfold State.modNode
  repeat' (with_reducible first
    | assumption | exact id | refine Kept.of_parts ?_ rfl rfl rfl rfl rfl rfl rfl rfl rfl rfl rfl rfl rfl rfl ?_ ?_ ?_ ?_)

theorem State.canSend_keep (a0 : State) (a1 : Nat) (a2 : List Byte) (h0 : Kept s₀ a0) : Kept s₀ (State.canSend a0 a1 a2) := by
  unfold State.canSend
  repeat' (with_reducible first | assumption | refine State.countEntry_keep _ _ _ _ ?_ | refine State.send_keep _ _ ?_)

theorem State.netEvent_keep (a0 : State) (a1 : Nat) (a2 : Nat) (a3 : Nat) (h0 : Kept s₀ a0) : Kept s₀ (State.netEvent a0 a1 a2 a3) := by
  unfold State.netEvent
  repeat' (with_reducible first | assumption | refine State.canSend_keep _ _ _ ?_)

theorem State.showNode_keep (a0 : State) (h0 : Kept s₀ a0) : Kept s₀ (State.showNode a0) := by
  unfold State.showNode
  repeat' (with_reducible first | assumption | refine State.setEntry_keep _ _ _ _ ?_)

theorem State.claim_keep (a0 : State) (h0 : Kept s₀ a0) : Kept s₀ (State.claim a0) := by
  unfold State.claim
  repeat' (with_reducible first
    | assumption | refine State.modNode_keep _ _ ?_ | refine State.showNode_keep _ ?_ | refine State.netEvent_keep _ _ _ _ ?_
    | refine ite_keep ?_ ?_)

theorem State.nodeStart_keep (a0 : State) (h0 : Kept s₀ a0) : Kept s₀ (State.nodeStart a0) := by
  unfold State.nodeStart
  repeat' (with_reducible first
    | assumption | refine State.setEntry_keep _ _ _ _ ?_ | refine State.modNode_keep _ _ ?_ | refine State.showNode_keep _ ?_
    | refine State.claim_keep _ ?_ | refine ite_keep ?_ ?_)

theorem execClaimListenEnd_keep (a0 : State) (h0 : Kept s₀ a0) : OutAll (Kept s₀) (execClaimListenEnd a0) := by
  unfold execClaimListenEnd
  repeat' (with_reducible first | assumption | refine OutAll.go ?_ | refine State.modNode_keep _ _ ?_)

theorem execHeartbeat_keep (a0 : State) (h0 : Kept s₀ a0) : OutAll (Kept s₀) (execHeartbeat a0) := by
  unfold execHeartbeat
  repeat' (with_reducible first
    | assumption | refine OutAll.go ?_ | refine State.netEvent_keep _ _ _ _ ?_ | refine State.modNode_keep _ _ ?_
    | refine ite_out ?_ ?_)

theorem execErrorEvent_keep (a0 : State) (h0 : Kept s₀ a0) : OutAll (Kept s₀) (execErrorEvent a0) := by
  unfold execErrorEvent
  repeat' (with_reducible first
    | assumption | refine OutAll.go ?_ | refine State.netEvent_keep _ _ _ _ ?_ | refine State.modNode_keep _ _ ?_
    | refine ite_out ?_ ?_ | split)

theorem State.netLog_keep (a0 : State) (a1 : W16) (h0 : Kept s₀ a0) : Kept s₀ (State.netLog a0 a1) := by
  unfold State.netLog
  repeat' (with_reducible first | assumption | refine State.logDev_keep _ _ _ _ ?_)

theorem execKdpDupId_keep (a0 : State) (h0 : Kept s₀ a0) : OutAll (Kept s₀) (execKdpDupId a0) := by
  unfold execKdpDupId
  repeat' (with_reducible first
    | assumption | refine OutAll.go ?_ | refine State.netLog_keep _ _ ?_ | refine State.showNode_keep _ ?_
    | refine State.modNode_keep _ _ ?_ | refine ite_out ?_ ?_)

theorem execCanBusError_keep (a0 : W16) (a1 : W16) (a2 : State) (h0 : Kept s₀ a2) : OutAll (Kept s₀) (execCanBusError a0 a1 a2) := by
  unfold execCanBusError
  repeat' (with_reducible first
    | assumption | refine OutAll.go ?_ | refine State.showNode_keep _ ?_ | refine State.setEntry_keep _ _ _ _ ?_
    | refine ite_out ?_ ?_)

theorem execBusOff_keep (a0 : State) (h0 : Kept s₀ a0) : OutAll (Kept s₀) (execBusOff a0) := by
  unfold execBusOff
  repeat' (with_reducible first
    | assumption | refine OutAll.go ?_ | refine State.modNode_keep _ _ ?_ | refine State.netLog_keep _ _ ?_
    | refine State.showNode_keep _ ?_ | refine State.countEntry_keep _ _ _ _ ?_ | refine ite_out ?_ ?_)

theorem execBusOffRecovery_keep (a0 : State) (h0 : Kept s₀ a0) : OutAll (Kept s₀) (execBusOffRecovery a0) := by
  unfold execBusOffRecovery
  repeat' (with_reducible first
    | assumption | refine OutAll.go ?_ | refine State.claim_keep _ ?_ | refine State.setEntry_keep _ _ _ _ ?_
    | refine ite_out ?_ ?_)

theorem execBadFrame_keep (a0 : State) (h0 : Kept s₀ a0) : OutAll (Kept s₀) (execBadFrame a0) := by
  unfold execBadFrame
  repeat' (with_reducible first
    | assumption | refine OutAll.go ?_ | refine State.countEntry_keep _ _ _ _ ?_ | refine ite_out ?_ ?_)

theorem execCanTermChange_keep (a0 : Bool) (a1 : State) (h0 : Kept s₀ a1) : OutAll (Kept s₀) (execCanTermChange a0 a1) := by
  unfold execCanTermChange
  repeat' (with_reducible first
    | assumption | refine OutAll.go ?_ | exact id | extract_lets
    | refine Kept.of_parts ?_ rfl rfl rfl rfl rfl rfl rfl rfl rfl rfl rfl rfl rfl rfl ?_ ?_ ?_ ?_)

/-! ### Start -/

theorem State.setSt_keep (a0 : State) (a1 : Nat) (a2 : Nat) (h0 : Kept s₀ a0) : Kept s₀ (State.setSt a0 a1 a2) := by
  unfold State.setSt
  repeat' (with_reducible first | assumption | refine State.setEntry_keep _ _ _ _ ?_)

theorem State.extendMr_keep (a0 : State) (a1 : Nat) (a2 : List Byte) (h0 : Kept s₀ a0) : Kept s₀ (State.extendMr a0 a1 a2) := by
  unfold State.extendMr
  repeat' (with_reducible first
    | assumption | refine State.modStart_keep _ _ ?_ ?_ | extract_lets | intro _ | refine Start.ok_mk ?_ ?_ ?_ ?_ ?_
    | refine Start.ok.slots ?_ | refine Start.ok.kept ?_ | refine Start.ok.changed ?_ | refine Start.ok.mrs ?_
    | refine Start.ok.slotState ?_ | refine Tbl.ok_set ?_)

theorem State.setSlotState_keep (a0 : State) (a1 : Nat) (a2 : Nat) (h0 : Kept s₀ a0) : Kept s₀ (State.setSlotState a0 a1 a2) := by
  unfold State.setSlotState
  repeat' (with_reducible first
    | assumption | refine State.modStart_keep _ _ ?_ ?_ | extract_lets | intro _ | refine Start.ok_mk ?_ ?_ ?_ ?_ ?_
    | refine Start.ok.slots ?_ | refine Start.ok.kept ?_ | refine Start.ok.changed ?_ | refine Start.ok.mrs ?_
    | refine Start.ok.slotState ?_ | refine Tbl.ok_set ?_)

theorem State.showRecord_keep (a0 : State) (h0 : Kept s₀ a0) : Kept s₀ (State.showRecord a0) := by
  unfold State.showRecord
  repeat' (with_reducible first | assumption | refine State.setSt_keep _ _ _ ?_)

theorem State.setRecord_keep (a0 : State) (a1 : StartRec) (h0 : Kept s₀ a0) : Kept s₀ (State.setRecord a0 a1) := by
  unfold State.setRecord
  repeat' (with_reducible first
    | assumption | refine State.showRecord_keep _ ?_ | refine State.modStart_keep _ _ ?_ ?_ | extract_lets | intro _
    | refine Start.ok_mk ?_ ?_ ?_ ?_ ?_ | refine Start.ok.slots ?_ | refine Start.ok.kept ?_ | refine Start.ok.changed ?_
    | refine Start.ok.mrs ?_ | refine Start.ok.slotState ?_)

theorem State.enterRecovery_keep (a0 : State) (a1 : Nat) (a2 : Nat) (h0 : Kept s₀ a0) : Kept s₀ (State.enterRecovery a0 a1 a2) := by
  unfold State.enterRecovery
  repeat' (with_reducible first
    | assumption | refine State.setSt_keep _ _ _ ?_ | refine State.romLog_keep _ _ _ ?_ | refine State.extendMr_keep _ _ _ ?_
    | refine State.nodeStart_keep _ ?_ | refine State.flushCodes_keep _ ?_)

theorem State.choosePair_keep (a0 : State) (a1 : Nat) (h0 : Kept s₀ a0) : Kept s₀ (State.choosePair a0 a1) := by
  unfold State.choosePair
  repeat' (with_reducible first
    | assumption | refine State.enterRecovery_keep _ _ _ ?_ | refine State.romLog_keep _ _ _ ?_
    | refine State.setSt_keep _ _ _ ?_ | refine State.modStart_keep _ _ ?_ ?_ | refine State.setRecord_keep _ _ ?_
    | refine ite_keep ?_ ?_ | split | extract_lets | intro _ | refine Start.ok_mk ?_ ?_ ?_ ?_ ?_ | refine Start.ok.slots ?_
    | refine Start.ok.kept ?_ | refine Start.ok.changed ?_ | refine Start.ok.mrs ?_ | refine Start.ok.slotState ?_)

theorem State.nextCandidate_keep (a0 : State) (a1 : W16) (a2 : Nat) (h0 : Kept s₀ a0) : Kept s₀ (State.nextCandidate a0 a1 a2) := by
  unfold State.nextCandidate
  repeat' (with_reducible first
    | assumption | refine State.choosePair_keep _ _ ?_ | refine State.setRecord_keep _ _ ?_ | refine State.romLog_keep _ _ _ ?_)

theorem State.blow_keep (a0 : State) (a1 : Nat) (a2 : Nat) (h0 : Kept s₀ a0) : Kept s₀ (State.blow a0 a1 a2) := by
  unfold State.blow
  repeat' (with_reducible first
    | assumption | refine State.freshWord_keep _ ?_ | refine State.setSt_keep _ _ _ ?_ | refine State.startLog_keep _ _ _ ?_
    | refine ite_keep ?_ ?_)

theorem State.advance_keep (a0 : State) (h0 : Kept s₀ a0) : Kept s₀ (State.advance a0) := by
  unfold State.advance
  repeat' (with_reducible first | assumption | refine State.blow_keep _ _ _ ?_)

theorem State.confirmPair_keep (a0 : State) (h0 : Kept s₀ a0) : Kept s₀ (State.confirmPair a0) := by
  unfold State.confirmPair
  repeat' (with_reducible first
    | assumption | refine State.setRecord_keep _ _ ?_ | refine State.advance_keep _ ?_ | refine ite_keep ?_ ?_)

theorem State.loadImage_keep (a0 : State) (a1 : Nat) (a2 : Nat) (h0 : Kept s₀ a0) : ExAll (Kept s₀) (State.loadImage a0 a1 a2) := by
  unfold State.loadImage
  repeat' (with_reducible first
    | assumption | refine State.modStart_keep _ _ ?_ ?_ | refine State.extendMr_keep _ _ _ ?_
    | refine State.setSlotState_keep _ _ _ ?_ | refine ExAll.ok ?_ | exact ExAll.error | split | extract_lets | intro _
    | refine Start.ok_mk ?_ ?_ ?_ ?_ ?_ | refine Start.ok.slots ?_ | refine Start.ok.kept ?_ | refine Start.ok.changed ?_
    | refine Start.ok.mrs ?_ | refine Start.ok.slotState ?_ | refine Tbl.ok_set ?_)

theorem State.imageStage_keep (a0 : State) (a1 : Nat) (a2 : Nat) (a3 : Nat) (h0 : Kept s₀ a0) : Kept s₀ (State.imageStage a0 a1 a2 a3) := by
  unfold State.imageStage
  repeat' (with_reducible first
    | assumption | refine ExAll.elim (State.loadImage_keep _ _ _ ?_) ‹_ = Except.ok _›
    | refine State.nextCandidate_keep _ _ _ ?_ | refine State.setSlotState_keep _ _ _ ?_ | refine State.setSt_keep _ _ _ ?_
    | refine State.setEntry_keep _ _ _ _ ?_ | refine ite_keep ?_ ?_ | split)

theorem State.paramStage_keep (a0 : State) (a1 : Bool) (h0 : Kept s₀ a0) : Kept s₀ (State.paramStage a0 a1) := by
  unfold State.paramStage
  repeat' (with_reducible first
    | assumption | refine State.setField_keep _ _ _ _ _ ?_ | refine State.modStart_keep _ _ ?_ ?_
    | refine State.setReg_keep _ _ _ ?_ | refine State.extendMr_keep _ _ _ ?_ | refine State.setEntry_keep _ _ _ _ ?_
    | refine State.romLog_keep _ _ _ ?_ | refine State.dropRegs_keep _ _ ?_ | refine foldl_keep ?_ (fun _ _ _ => ?_)
    | refine ite_keep ?_ ?_ | extract_lets | intro _ | refine Start.ok_mk ?_ ?_ ?_ ?_ ?_ | refine Start.ok.slots ?_
    | refine Start.ok.kept ?_ | refine Start.ok.changed ?_ | refine Start.ok.mrs ?_ | refine Start.ok.slotState ?_
    | refine Tbl.ok_set ?_)

theorem State.railStage_keep (a0 : State) (h0 : Kept s₀ a0) : Kept s₀ (State.railStage a0) := by
  unfold State.railStage
  repeat' (with_reducible first
    | assumption | refine State.setEntry_keep _ _ _ _ ?_ | refine State.modTth_keep _ _ ?_ | refine State.romLog_keep _ _ _ ?_
    | refine ite_keep ?_ ?_)

theorem State.mendStore_keep (a0 : State) (h0 : Kept s₀ a0) : Kept s₀ (State.mendStore a0) := by
  unfold State.mendStore
  repeat' (with_reducible first
    | assumption | refine State.setEntry_keep _ _ _ _ ?_ | refine State.freshWord_keep _ ?_
    | refine State.modStart_keep _ _ ?_ ?_ | refine foldl_keep ?_ (fun _ _ _ => ?_) | refine ite_keep ?_ ?_ | split
    | extract_lets | intro _ | refine Start.ok_mk ?_ ?_ ?_ ?_ ?_ | refine Start.ok.slots ?_ | refine Start.ok.kept ?_
    | refine Start.ok.changed ?_ | refine Start.ok.mrs ?_ | refine Start.ok.slotState ?_)

theorem State.becomeStarted_keep (a0 : State) (a1 : Nat) (h0 : Kept s₀ a0) : Kept s₀ (State.becomeStarted a0 a1) := by
  unfold State.becomeStarted
  repeat' (with_reducible first
    | assumption | refine State.flushCodes_keep _ ?_ | refine State.setSt_keep _ _ _ ?_ | refine State.nodeStart_keep _ ?_
    | refine State.confirmPair_keep _ ?_ | refine ite_keep ?_ ?_)

theorem State.configStage_keep (a0 : State) (a1 : Bool) (a2 : Nat) (h0 : Kept s₀ a0) : Kept s₀ (State.configStage a0 a1 a2) := by
  unfold State.configStage
  repeat' (with_reducible first
    | assumption | refine State.mendStore_keep _ ?_ | refine State.setEntry_keep _ _ _ _ ?_
    | refine State.modStart_keep _ _ ?_ ?_ | refine State.dropEntries_keep _ _ ?_ | refine State.layoutCoil_keep _ _ ?_
    | refine State.becomeStarted_keep _ _ ?_ | refine State.extendMr_keep _ _ _ ?_ | exact id | split | extract_lets | intro _
    | refine Kept.of_parts ?_ rfl rfl rfl rfl rfl rfl rfl rfl rfl rfl rfl rfl rfl rfl ?_ ?_ ?_ ?_
    | refine Start.ok_mk ?_ ?_ ?_ ?_ ?_ | refine Start.ok.slots ?_ | refine Start.ok.kept ?_ | refine Start.ok.changed ?_
    | refine Start.ok.mrs ?_ | refine Start.ok.slotState ?_)

theorem State.recordStage_keep (a0 : State) (a1 : Bool) (a2 : Nat) (h0 : Kept s₀ a0) : Kept s₀ (State.recordStage a0 a1 a2) := by
  unfold State.recordStage
  repeat' (with_reducible first
    | assumption | refine State.enterRecovery_keep _ _ _ ?_ | refine State.showRecord_keep _ ?_
    | refine State.countEntry_keep _ _ _ _ ?_ | refine State.choosePair_keep _ _ ?_ | refine ite_keep ?_ ?_)

theorem execStartStageDone_keep (a0 : StageResult) (a1 : State) (h0 : Kept s₀ a1) : OutAll (Kept s₀) (execStartStageDone a0 a1) := by
  unfold execStartStageDone
  repeat' (with_reducible first
    | assumption | refine OutAll.go ?_ | refine State.modStart_keep _ _ ?_ ?_ | refine State.setSt_keep _ _ _ ?_
    | refine State.extendMr_keep _ _ _ ?_ | refine State.setEntry_keep _ _ _ _ ?_ | refine State.recordStage_keep _ _ _ ?_
    | refine State.imageStage_keep _ _ _ _ ?_ | refine State.nextCandidate_keep _ _ _ ?_ | refine State.paramStage_keep _ _ ?_
    | refine State.railStage_keep _ ?_ | refine State.enterRecovery_keep _ _ _ ?_ | refine State.romLog_keep _ _ _ ?_
    | refine State.configStage_keep _ _ _ ?_ | refine ite_out ?_ ?_ | exact id | split | extract_lets | intro _
    | refine Kept.of_parts ?_ rfl rfl rfl rfl rfl rfl rfl rfl rfl rfl rfl rfl rfl rfl ?_ ?_ ?_ ?_ | exact Memory.wf_empty
    | refine Memory.wf_mk ?_ ?_ ?_ ?_ ?_ ?_ ?_ ?_ ?_ | refine Memory.wf_hbm ?_ | refine Memory.wf_syn ?_
    | refine Memory.wf_chk ?_ | refine Memory.wf_lines ?_ | refine Memory.wf_lineSyn ?_ | refine Memory.wf_splSyn ?_
    | refine Memory.wf_retries ?_ | refine Memory.wf_rows ?_ | refine Start.ok_mk ?_ ?_ ?_ ?_ ?_ | refine Start.ok.slots ?_
    | refine Start.ok.kept ?_ | refine Start.ok.changed ?_ | refine Start.ok.mrs ?_ | refine Start.ok.slotState ?_
    | exact Tbl.ok_nil)

theorem State.beginCold_keep (a0 : State) (a1 : Nat) (h0 : Kept s₀ a0) : Kept s₀ (State.beginCold a0 a1) := by
  unfold State.beginCold
  repeat' (with_reducible first
    | assumption | refine State.dieReset_keep _ _ ?_ | refine State.setSt_keep _ _ _ ?_ | refine State.setEntry_keep _ _ _ _ ?_
    | exact id | extract_lets | intro _
    | refine Kept.of_parts ?_ rfl rfl rfl rfl rfl rfl rfl rfl rfl rfl rfl rfl rfl rfl ?_ ?_ ?_ ?_
    | (with_unfolding_all assumption) | refine Start.fresh_ok ?_)

theorem State.tearCommit_keep (a0 : State) (h0 : Kept s₀ a0) : Kept s₀ (State.tearCommit a0) := by
  unfold State.tearCommit
  repeat' (with_reducible first
    | assumption | refine State.modStart_keep _ _ ?_ ?_ | exact id | split | extract_lets | intro _
    | refine Kept.of_parts ?_ rfl rfl rfl rfl rfl rfl rfl rfl rfl rfl rfl rfl rfl rfl ?_ ?_ ?_ ?_
    | refine Start.ok_mk ?_ ?_ ?_ ?_ ?_ | refine Start.ok.slots ?_ | refine Start.ok.kept ?_ | refine Start.ok.changed ?_
    | refine Start.ok.mrs ?_ | refine Start.ok.slotState ?_)

theorem State.warmStart_keep (a0 : State) (a1 : Nat) (h0 : Kept s₀ a0) : Kept s₀ (State.warmStart a0 a1) := by
  unfold State.warmStart
  extract_lets s1 s2 pcs src1 src2 s3
  have h1 : Kept s₀ s1 := State.flushAll_keep _ (State.writeBackAll_keep _ (State.serveQueues_keep _ (State.tearCommit_keep _ h0)))
  have h2 : Kept s₀ s2 := State.dieReset_keep _ _ (State.survive_keep _ _ h1)
  have hp : Tbl.ok .active pcs := Tbl.ok_foldl Tbl.ok_nil (fun _ _ h => Tbl.ok_set h)
  clear_value s2 pcs
  exact State.setSt_keep _ _ _ (Kept.of_parts h2 rfl rfl rfl rfl rfl rfl rfl rfl rfl rfl rfl rfl rfl rfl (fun hm => Memory.wf_mk (Memory.wf_hbm hm)
    (Memory.wf_syn hm) (Memory.wf_chk hm) (Memory.wf_lines hm) (Memory.wf_lineSyn hm) (Memory.wf_splSyn hm) hp (Memory.wf_retries hm)
    (Memory.wf_rows hm)) id id (fun h => Start.fresh_ok h))
theorem execColdStart_keep (a0 : State) (h0 : Kept s₀ a0) : OutAll (Kept s₀) (execColdStart a0) := by
  unfold execColdStart
  repeat' (with_reducible first
    | assumption | refine OutAll.go ?_ | refine State.beginCold_keep _ _ ?_ | refine ite_out ?_ ?_ | exact id | extract_lets
    | refine Kept.of_parts ?_ rfl rfl rfl rfl rfl rfl rfl rfl rfl rfl rfl rfl rfl rfl ?_ ?_ ?_ ?_)

theorem execVin12Return_keep (a0 : Nat) (a1 : State) (h0 : Kept s₀ a1) : OutAll (Kept s₀) (execVin12Return a0 a1) := by
  unfold execVin12Return
  repeat' (with_reducible first
    | assumption | refine OutAll.go ?_ | refine State.volts_keep _ _ ?_ | refine State.beginCold_keep _ _ ?_
    | refine ite_out ?_ ?_ | exact id | extract_lets
    | refine Kept.of_parts ?_ rfl rfl rfl rfl rfl rfl rfl rfl rfl rfl rfl rfl rfl rfl ?_ ?_ ?_ ?_)

theorem execStartTimeout_keep (a0 : State) (h0 : Kept s₀ a0) : OutAll (Kept s₀) (execStartTimeout a0) := by
  unfold execStartTimeout
  repeat' (with_reducible first
    | assumption | refine OutAll.go ?_ | refine State.warmStart_keep _ _ ?_ | refine State.flushCodes_keep _ ?_
    | refine State.romLog_keep _ _ _ ?_ | refine ite_out ?_ ?_)

theorem execOryxWatchdog_keep (a0 : State) (h0 : Kept s₀ a0) : OutAll (Kept s₀) (execOryxWatchdog a0) := by
  unfold execOryxWatchdog
  repeat' (with_reducible first
    | assumption | refine OutAll.go ?_ | refine State.warmStart_keep _ _ ?_ | refine State.startLog_keep _ _ _ ?_
    | refine State.flushCodes_keep _ ?_ | refine ite_out ?_ ?_)

theorem execOryxUe_keep (a0 : State) (h0 : Kept s₀ a0) : OutAll (Kept s₀) (execOryxUe a0) := by
  unfold execOryxUe
  repeat' (with_reducible first
    | assumption | refine OutAll.go ?_ | refine State.warmStart_keep _ _ ?_ | refine State.startLog_keep _ _ _ ?_
    | refine State.flushCodes_keep _ ?_ | refine ite_out ?_ ?_)

theorem execPowerLoss_keep (a0 : State) (h0 : Kept s₀ a0) : OutAll (Kept s₀) (execPowerLoss a0) := by
  unfold execPowerLoss
  extract_lets s x s'
  have h := State.tearCommit_keep _ h0
  exact OutAll.go ⟨fun i => ⟨rfl, ((State.survive_keep _ _ h).inv i).dict, Nat.zero_le _, Memory.wf_empty, rfl, rfl, (fun _ h => nomatch h),
    rfl, rfl, rfl, rfl, rfl, rfl, Coil.ok_empty, Video.ok_empty, Start.ok_mk (h.inv i).start.slots rfl rfl rfl rfl⟩, h.pending,
    h.out.trans (List.prefix_append _ _), h.fresh⟩
theorem State.startCommand_keep (a0 : State) (a1 : Nat) (h0 : Kept s₀ a0) : ExAll (Kept s₀) (State.startCommand a0 a1) := by
  unfold State.startCommand
  repeat' (with_reducible first
    | assumption | refine State.modStart_keep _ _ ?_ ?_ | refine State.warmStart_keep _ _ ?_
    | refine State.confirmPair_keep _ ?_ | refine State.advance_keep _ ?_ | refine ExAll.ok ?_ | exact ExAll.error
    | refine ite_ex ?_ ?_ | extract_lets | intro _ | refine Start.ok_mk ?_ ?_ ?_ ?_ ?_ | refine Start.ok.slots ?_
    | refine Start.ok.kept ?_ | refine Start.ok.changed ?_ | refine Start.ok.mrs ?_ | refine Start.ok.slotState ?_)

theorem execWarm_keep (a0 : Origin) (a1 : State) (h0 : Kept s₀ a1) : OutAll (Kept s₀) (execWarm a0 a1) := by
  unfold execWarm
  repeat' (with_reducible first
    | assumption | refine State.dictCmd_keep _ _ _ _ _ _ ?_ ?_ | refine State.startCommand_keep _ _ ?_ | extract_lets | intro _)

theorem execConfirm_keep (a0 : Origin) (a1 : State) (h0 : Kept s₀ a1) : OutAll (Kept s₀) (execConfirm a0 a1) := by
  unfold execConfirm
  repeat' (with_reducible first
    | assumption | refine State.dictCmd_keep _ _ _ _ _ _ ?_ ?_ | refine State.startCommand_keep _ _ ?_ | extract_lets | intro _)

theorem execAdvance_keep (a0 : Origin) (a1 : State) (h0 : Kept s₀ a1) : OutAll (Kept s₀) (execAdvance a0 a1) := by
  unfold execAdvance
  repeat' (with_reducible first
    | assumption | refine State.dictCmd_keep _ _ _ _ _ _ ?_ ?_ | refine State.startCommand_keep _ _ ?_ | extract_lets | intro _)

theorem execConfirmTimer_keep (a0 : State) (h0 : Kept s₀ a0) : OutAll (Kept s₀) (execConfirmTimer a0) := by
  unfold execConfirmTimer
  repeat' (with_reducible first | assumption | refine OutAll.go ?_ | refine State.confirmPair_keep _ ?_ | refine ite_out ?_ ?_)

theorem State.freeStaging_keep (a0 : State) (h0 : Kept s₀ a0) : Kept s₀ (State.freeStaging a0) := by
  unfold State.freeStaging
  repeat' (with_reducible first | assumption | refine State.freeBuf_keep _ _ _ ?_ | split)

theorem State.program_keep (a0 : State) (a1 : Nat) (a2 : List Byte) (h0 : Kept s₀ a0) : Kept s₀ (State.program a0 a1 a2) := by
  unfold State.program
  repeat' (with_reducible first
    | assumption | refine State.modStart_keep _ _ ?_ ?_ | extract_lets | intro _ | refine Start.ok_mk ?_ ?_ ?_ ?_ ?_
    | refine Start.ok.slots ?_ | refine Start.ok.kept ?_ | refine Start.ok.changed ?_ | refine Start.ok.mrs ?_
    | refine Start.ok.slotState ?_ | refine Tbl.ok_set ?_)

theorem State.updFail_keep (a0 : State) (a1 : W16) (h0 : Kept s₀ a0) : Kept s₀ (State.updFail a0 a1) := by
  unfold State.updFail
  repeat' (with_reducible first
    | assumption | refine State.freeStaging_keep _ ?_ | refine State.startLog_keep _ _ _ ?_ | refine State.setSt_keep _ _ _ ?_)

theorem State.updBegin_keep (a0 : State) (a1 : List Byte) (h0 : Kept s₀ a0) : ExAll (Kept s₀) (State.updBegin a0 a1) := by
  unfold State.updBegin
  repeat' (with_reducible first
    | assumption | refine State.setSt_keep _ _ _ ?_ | refine State.modStart_keep _ _ ?_ ?_
    | refine State.coilGrantNow_keep _ _ _ ?_ | refine ExAll.ok ?_ | exact ExAll.error | refine OptAll.getD ?_ ?_
    | refine OptAll.map (Q := fun p : State × _ => Kept s₀ p.1) ?_ (fun _ _ => ?_) | refine ite_ex ?_ ?_ | extract_lets
    | intro _ | refine Start.ok_mk ?_ ?_ ?_ ?_ ?_ | refine Start.ok.slots ?_ | refine Start.ok.kept ?_
    | refine Start.ok.changed ?_ | refine Start.ok.mrs ?_ | refine Start.ok.slotState ?_)

theorem State.updChunk_keep (a0 : State) (a1 : List Byte) (h0 : Kept s₀ a0) : ExAll (Kept s₀) (State.updChunk a0 a1) := by
  unfold State.updChunk
  repeat' (with_reducible first
    | assumption | refine State.modStart_keep _ _ ?_ ?_ | refine State.setSt_keep _ _ _ ?_
    | refine State.setSlotState_keep _ _ _ ?_ | refine State.program_keep _ _ _ ?_ | refine State.memPut_keep _ _ _ ?_
    | refine ExAll.ok ?_ | exact ExAll.error | refine ite_ex ?_ ?_ | split | extract_lets | intro _
    | refine Start.ok_mk ?_ ?_ ?_ ?_ ?_ | refine Start.ok.slots ?_ | refine Start.ok.kept ?_ | refine Start.ok.changed ?_
    | refine Start.ok.mrs ?_ | refine Start.ok.slotState ?_)

theorem State.updEnd_keep (a0 : State) (a1 : Nat) (h0 : Kept s₀ a0) : ExAll (Kept s₀) (State.updEnd a0 a1) := by
  unfold State.updEnd
  repeat' (with_reducible first
    | assumption | refine State.updFail_keep _ _ ?_ | refine State.extendMr_keep _ _ _ ?_ | refine State.setSt_keep _ _ _ ?_
    | refine State.setSlotState_keep _ _ _ ?_ | refine State.program_keep _ _ _ ?_ | refine ExAll.ok ?_ | exact ExAll.error
    | refine ite_ex ?_ ?_ | split | extract_lets)

theorem execUpdProgramDone_keep (a0 : Bool) (a1 : State) (h0 : Kept s₀ a1) : OutAll (Kept s₀) (execUpdProgramDone a0 a1) := by
  unfold execUpdProgramDone
  repeat' (with_reducible first
    | assumption | refine OutAll.go ?_ | refine State.freeStaging_keep _ ?_ | refine State.setSt_keep _ _ _ ?_
    | refine State.setSlotState_keep _ _ _ ?_ | refine State.program_keep _ _ _ ?_ | refine State.updFail_keep _ _ ?_
    | refine State.warmStart_keep _ _ ?_ | refine ite_keep ?_ ?_ | refine ite_out ?_ ?_)

theorem State.updActivate_keep (a0 : State) (a1 : Nat) (h0 : Kept s₀ a0) : ExAll (Kept s₀) (State.updActivate a0 a1) := by
  unfold State.updActivate
  repeat' (with_reducible first
    | assumption | refine State.setRecord_keep _ _ ?_ | refine State.extendMr_keep _ _ _ ?_ | refine ExAll.ok ?_
    | exact ExAll.error | refine ite_ex ?_ ?_)

theorem State.updAbort_keep (a0 : State) (a1 : Nat) (h0 : Kept s₀ a0) : ExAll (Kept s₀) (State.updAbort a0 a1) := by
  unfold State.updAbort
  repeat' (with_reducible first
    | assumption | refine State.freeStaging_keep _ ?_ | refine State.setSt_keep _ _ _ ?_ | refine ExAll.ok ?_
    | exact ExAll.error | refine ite_ex ?_ ?_)

theorem execUpdBegin_keep (a0 : Origin) (a1 : List Byte) (a2 : State) (h0 : Kept s₀ a2) : OutAll (Kept s₀) (execUpdBegin a0 a1 a2) := by
  unfold execUpdBegin
  repeat' (with_reducible first
    | assumption | refine State.dictCmd_keep _ _ _ _ _ _ ?_ ?_ | refine State.updBegin_keep _ _ ?_ | extract_lets | intro _)

theorem execUpdChunk_keep (a0 : Origin) (a1 : List Byte) (a2 : State) (h0 : Kept s₀ a2) : OutAll (Kept s₀) (execUpdChunk a0 a1 a2) := by
  unfold execUpdChunk
  repeat' (with_reducible first
    | assumption | refine State.dictCmd_keep _ _ _ _ _ _ ?_ ?_ | refine State.updChunk_keep _ _ ?_ | extract_lets | intro _)

theorem execUpdEnd_keep (a0 : Origin) (a1 : Byte) (a2 : State) (h0 : Kept s₀ a2) : OutAll (Kept s₀) (execUpdEnd a0 a1 a2) := by
  unfold execUpdEnd
  repeat' (with_reducible first
    | assumption | refine State.dictCmd_keep _ _ _ _ _ _ ?_ ?_ | refine State.updEnd_keep _ _ ?_ | extract_lets | intro _)

theorem execUpdActivate_keep (a0 : Origin) (a1 : Byte) (a2 : State) (h0 : Kept s₀ a2) : OutAll (Kept s₀) (execUpdActivate a0 a1 a2) := by
  unfold execUpdActivate
  repeat' (with_reducible first
    | assumption | refine State.dictCmd_keep _ _ _ _ _ _ ?_ ?_ | refine State.updActivate_keep _ _ ?_ | extract_lets | intro _)

theorem execUpdAbort_keep (a0 : Origin) (a1 : Byte) (a2 : State) (h0 : Kept s₀ a2) : OutAll (Kept s₀) (execUpdAbort a0 a1 a2) := by
  unfold execUpdAbort
  repeat' (with_reducible first
    | assumption | refine State.dictCmd_keep _ _ _ _ _ _ ?_ ?_ | refine State.updAbort_keep _ _ ?_ | extract_lets | intro _)

theorem State.extendCmd_keep (a0 : State) (a1 : List Byte) (h0 : Kept s₀ a0) : ExAll (Kept s₀) (State.extendCmd a0 a1) := by
  unfold State.extendCmd
  repeat' (with_reducible first
    | assumption | refine State.extendMr_keep _ _ _ ?_ | refine ExAll.ok ?_ | exact ExAll.error | refine ite_ex ?_ ?_)

theorem execExtend_keep (a0 : Origin) (a1 : List Byte) (a2 : State) (h0 : Kept s₀ a2) : OutAll (Kept s₀) (execExtend a0 a1 a2) := by
  unfold execExtend
  repeat' (with_reducible first
    | assumption | refine State.dictCmd_keep _ _ _ _ _ _ ?_ ?_ | refine State.extendCmd_keep _ _ ?_ | extract_lets | intro _)

theorem State.attReq_keep (a0 : State) (a1 : Nat) (h0 : Kept s₀ a0) : ExAll (Kept s₀) (State.attReq a0 a1) := by
  unfold State.attReq
  repeat' (with_reducible first
    | assumption | refine State.setSt_keep _ _ _ ?_ | refine State.modStart_keep _ _ ?_ ?_ | refine ExAll.ok ?_
    | exact ExAll.error | refine ite_ex ?_ ?_ | extract_lets | intro _ | refine Start.ok_mk ?_ ?_ ?_ ?_ ?_
    | refine Start.ok.slots ?_ | refine Start.ok.kept ?_ | refine Start.ok.changed ?_ | refine Start.ok.mrs ?_
    | refine Start.ok.slotState ?_)

theorem execAttReq_keep (a0 : Origin) (a1 : Byte) (a2 : State) (h0 : Kept s₀ a2) : OutAll (Kept s₀) (execAttReq a0 a1 a2) := by
  unfold execAttReq
  repeat' (with_reducible first
    | assumption | refine State.dictCmd_keep _ _ _ _ _ _ ?_ ?_ | refine State.attReq_keep _ _ ?_ | extract_lets | intro _)

theorem execAttSignDone_keep (a0 : State) (h0 : Kept s₀ a0) : OutAll (Kept s₀) (execAttSignDone a0) := by
  unfold execAttSignDone
  repeat' (with_reducible first
    | assumption | refine OutAll.go ?_ | refine State.setSt_keep _ _ _ ?_ | refine State.modStart_keep _ _ ?_ ?_
    | refine ite_out ?_ ?_ | extract_lets | intro _ | refine Start.ok_mk ?_ ?_ ?_ ?_ ?_ | refine Start.ok.slots ?_
    | refine Start.ok.kept ?_ | refine Start.ok.changed ?_ | refine Start.ok.mrs ?_ | refine Start.ok.slotState ?_)

theorem execDevicePkDerived_keep (a0 : State) (h0 : Kept s₀ a0) : OutAll (Kept s₀) (execDevicePkDerived a0) := by
  unfold execDevicePkDerived
  repeat' (with_reducible first
    | assumption | refine OutAll.go ?_ | refine State.modStart_keep _ _ ?_ ?_ | refine ite_out ?_ ?_ | extract_lets | intro _
    | refine Start.ok_mk ?_ ?_ ?_ ?_ ?_ | refine Start.ok.slots ?_ | refine Start.ok.kept ?_ | refine Start.ok.changed ?_
    | refine Start.ok.mrs ?_ | refine Start.ok.slotState ?_)

/-! ### HostPort -/

theorem State.hpLog_keep (a0 : State) (a1 : W16) (a2 : Nat) (a3 : Nat) (a4 : Nat) (a5 : Nat) (h0 : Kept s₀ a0) : Kept s₀ (State.hpLog a0 a1 a2 a3 a4 a5) := by
  unfold State.hpLog
  repeat' (with_reducible first | assumption | refine State.famErr_keep _ _ _ ?_ | refine State.rejectV_keep _ _ _ _ _ _ ?_)

theorem State.hpDev_keep (a0 : State) (a1 : W16) (a2 : Nat) (a3 : Nat) (h0 : Kept s₀ a0) : Kept s₀ (State.hpDev a0 a1 a2 a3) := by
  unfold State.hpDev
  repeat' (with_reducible first | assumption | refine State.famErr_keep _ _ _ ?_ | refine State.logErr_keep _ _ _ _ _ _ _ ?_)

theorem State.dpWrite_keep (a0 : State) (a1 : Nat) (a2 : Nat) (a3 : List Byte) (h0 : Kept s₀ a0) : OptAll (Kept s₀) (State.dpWrite a0 a1 a2 a3) := by
  unfold State.dpWrite
  repeat' (with_reducible first
    | assumption | refine State.memPut_keep _ _ _ ?_ | refine OptAll.some ?_ | exact OptAll.none | split)

theorem State.aerNote_keep (a0 : State) (a1 : Nat) (a2 : Aer → Aer) (h0 : Kept s₀ a0) : Kept s₀ (State.aerNote a0 a1 a2) := by
  unfold State.aerNote
  repeat' (with_reducible first | assumption | refine State.modFn_keep _ _ _ ?_)

theorem State.poisonRx_keep (a0 : State) (a1 : Nat) (h0 : Kept s₀ a0) : Kept s₀ (State.poisonRx a0 a1) := by
  unfold State.poisonRx
  repeat' (with_reducible first
    | assumption | refine State.hpLog_keep _ _ _ _ _ _ ?_ | refine State.aerNote_keep _ _ _ ?_
    | refine State.count_keep _ _ _ ?_)

theorem execDpWindowWrite_keep (a0 : Fn) (a1 : Nat) (a2 : List Byte) (a3 : Bool) (a4 : State) (h0 : Kept s₀ a4) : OutAll (Kept s₀) (execDpWindowWrite a0 a1 a2 a3 a4) := by
  unfold execDpWindowWrite
  repeat' (with_reducible first
    | assumption | refine State.hostAct_keep _ _ _ _ ?_ ?_ | refine State.poisonRx_keep _ _ ?_
    | refine State.dpWrite_keep _ _ _ _ ?_ | refine State.hpLog_keep _ _ _ _ _ _ ?_ | refine OptAll.getD ?_ ?_ | exact id
    | split | extract_lets | intro _)

theorem State.hostRead_keep (a0 : State) (a1 : Nat) (a2 : Nat) (a3 : State → State) (h0 : Kept s₀ a0) (h1 : ∀ x0, Kept s₀ (x0) → Kept s₀ (a3 x0)) : OutAll (Kept s₀) (State.hostRead a0 a1 a2 a3) := by
  unfold State.hostRead
  repeat' (with_reducible first
    | assumption | refine OutAll.go ?_ | refine State.send_keep _ _ ?_ | refine State.hostAct_keep _ _ _ _ ?_ ?_
    | refine ite_out ?_ ?_)

theorem State.splitRead_keep (a0 : State) (a1 : Nat) (a2 : Nat) (a3 : Nat) (h0 : Kept s₀ a0) : Kept s₀ (State.splitRead a0 a1 a2 a3) := by
  unfold State.splitRead
  repeat' (with_reducible first
    | assumption | refine State.send_keep _ _ ?_ | refine foldl_keep ?_ (fun _ _ _ => ?_) | split | extract_lets)

theorem State.dpRead_keep (a0 : State) (a1 : Nat) (a2 : Nat) (a3 : Nat) (h0 : Kept s₀ a0) : OptAll (Kept s₀) (State.dpRead a0 a1 a2 a3) := by
  unfold State.dpRead
  repeat' (with_reducible first
    | assumption | refine State.send_keep _ _ ?_ | refine State.splitRead_keep _ _ _ _ ?_ | refine OptAll.some ?_
    | exact OptAll.none | split)

theorem State.dpAbort_keep (a0 : State) (a1 : W16) (a2 : Nat) (a3 : Nat) (h0 : Kept s₀ a0) : Kept s₀ (State.dpAbort a0 a1 a2 a3) := by
  unfold State.dpAbort
  repeat' (with_reducible first
    | assumption | refine State.send_keep _ _ ?_ | refine State.aerNote_keep _ _ _ ?_ | refine State.hpLog_keep _ _ _ _ _ _ ?_)

theorem execDpWindowRead_keep (a0 : Fn) (a1 : Nat) (a2 : Nat) (a3 : State) (h0 : Kept s₀ a3) : OutAll (Kept s₀) (execDpWindowRead a0 a1 a2 a3) := by
  unfold execDpWindowRead
  repeat' (with_reducible first
    | assumption | refine State.hostRead_keep _ _ _ _ ?_ ?_ | refine State.dpRead_keep _ _ _ _ ?_
    | refine State.dpAbort_keep _ _ _ _ ?_ | refine OptAll.getD ?_ ?_ | exact id | split | extract_lets | intro _)

theorem State.advancePtr_keep (a0 : State) (a1 : Nat) (a2 : Nat) (h0 : Kept s₀ a0) : Kept s₀ (State.advancePtr a0 a1 a2) := by
  unfold State.advancePtr
  repeat' (with_reducible first | assumption | refine State.setReg_keep _ _ _ ?_)

theorem execDpStreamWrite_keep (a0 : Fn) (a1 : List Byte) (a2 : Bool) (a3 : Bool) (a4 : State) (h0 : Kept s₀ a4) : OutAll (Kept s₀) (execDpStreamWrite a0 a1 a2 a3 a4) := by
  unfold execDpStreamWrite
  repeat' (with_reducible first
    | assumption | refine State.hostAct_keep _ _ _ _ ?_ ?_ | refine State.poisonRx_keep _ _ ?_
    | refine State.hpLog_keep _ _ _ _ _ _ ?_ | refine OptAll.elim (State.dpWrite_keep _ _ _ _ ?_) ‹_ = some _›
    | refine State.advancePtr_keep _ _ _ ?_ | split | extract_lets | intro _)

theorem execDpStreamRead_keep (a0 : Fn) (a1 : Nat) (a2 : Bool) (a3 : State) (h0 : Kept s₀ a3) : OutAll (Kept s₀) (execDpStreamRead a0 a1 a2 a3) := by
  unfold execDpStreamRead
  repeat' (with_reducible first
    | assumption | refine State.hostRead_keep _ _ _ _ ?_ ?_ | refine State.dpAbort_keep _ _ _ _ ?_
    | refine OptAll.elim (State.dpRead_keep _ _ _ _ ?_) ‹_ = some _› | refine State.advancePtr_keep _ _ _ ?_ | split
    | extract_lets | intro _)

theorem State.crConfig_keep (a0 : State) (a1 : Nat) (a2 : Nat) (a3 : Nat) (a4 : Nat) (h0 : Kept s₀ a0) : Kept s₀ (State.crConfig a0 a1 a2 a3 a4) := by
  unfold State.crConfig
  repeat' (with_reducible first
    | assumption | refine State.hpLog_keep _ _ _ _ _ _ ?_ | refine State.setReg_keep _ _ _ ?_
    | refine State.modStream_keep _ _ _ ?_ | refine State.drainHold_keep _ _ _ ?_ | refine ite_keep ?_ ?_)

theorem execCrConfigWrite_keep (a0 : Fn) (a1 : StreamId) (a2 : Fin 3) (a3 : W64) (a4 : State) (h0 : Kept s₀ a4) : OutAll (Kept s₀) (execCrConfigWrite a0 a1 a2 a3 a4) := by
  unfold execCrConfigWrite
  repeat' (with_reducible first
    | assumption | refine State.hostAct_keep _ _ _ _ ?_ ?_ | refine State.crConfig_keep _ _ _ _ _ ?_ | extract_lets | intro _)

theorem State.crHead_keep (a0 : State) (a1 : Nat) (a2 : Nat) (a3 : Nat) (h0 : Kept s₀ a0) : Kept s₀ (State.crHead a0 a1 a2 a3) := by
  unfold State.crHead
  repeat' (with_reducible first
    | assumption | refine State.hpLog_keep _ _ _ _ _ _ ?_ | refine State.drainHold_keep _ _ _ ?_
    | refine State.setReg_keep _ _ _ ?_ | refine ite_keep ?_ ?_)

theorem execCrHeadWrite_keep (a0 : Fn) (a1 : StreamId) (a2 : W32) (a3 : State) (h0 : Kept s₀ a3) : OutAll (Kept s₀) (execCrHeadWrite a0 a1 a2 a3) := by
  unfold execCrHeadWrite
  repeat' (with_reducible first
    | assumption | refine State.hostAct_keep _ _ _ _ ?_ ?_ | refine State.crHead_keep _ _ _ _ ?_ | extract_lets | intro _)

theorem execCoalTimer_keep (a0 : StreamId) (a1 : State) (h0 : Kept s₀ a1) : OutAll (Kept s₀) (execCoalTimer a0 a1) := by
  unfold execCoalTimer
  repeat' (with_reducible first
    | assumption | refine OutAll.go ?_ | refine State.modStream_keep _ _ _ ?_ | refine State.msix_keep _ _ _ ?_
    | refine ite_out ?_ ?_)

theorem execMsixUnmask_keep (a0 : Fn) (a1 : Fin 32) (a2 : State) (h0 : Kept s₀ a2) : OutAll (Kept s₀) (execMsixUnmask a0 a1 a2) := by
  unfold execMsixUnmask
  repeat' (with_reducible first
    | assumption | refine OutAll.go ?_ | refine State.modFn_keep _ _ _ ?_ | refine State.received_keep _ _ ?_
    | refine State.wakeUp_keep _ ?_ | refine State.sendPended_keep _ _ ?_ | refine ite_keep ?_ ?_ | refine ite_out ?_ ?_)

theorem State.fnWrite_keep (a0 : State) (a1 : Nat) (a2 : Nat) (a3 : Nat) (h0 : Kept s₀ a0) : Kept s₀ (State.fnWrite a0 a1 a2 a3) := by
  unfold State.fnWrite
  repeat' (with_reducible first
    | assumption | refine State.hpLog_keep _ _ _ _ _ _ ?_ | refine State.setReg_keep _ _ _ ?_ | refine ite_keep ?_ ?_)

theorem execHpFnWrite_keep (a0 : Fn) (a1 : Fn) (a2 : W64) (a3 : Bool) (a4 : State) (h0 : Kept s₀ a4) : OutAll (Kept s₀) (execHpFnWrite a0 a1 a2 a3 a4) := by
  unfold execHpFnWrite
  repeat' (with_reducible first
    | assumption | refine State.hostAct_keep _ _ _ _ ?_ ?_ | refine State.fnWrite_keep _ _ _ _ ?_
    | refine State.modFn_keep _ _ _ ?_ | split | intro _)

theorem State.failRead_keep (a0 : State) (a1 : DevRead) (h0 : Kept s₀ a0) : Kept s₀ (State.failRead a0 a1) := by
  unfold State.failRead
  repeat' (with_reducible first
    | assumption | refine State.badChunk_keep _ _ _ ?_ | refine State.endFetch_keep _ _ ?_
    | refine State.descReject_keep _ _ _ ?_ | refine pair_fst ?_ ‹_ = (_, _)› | refine ite_keep ?_ ?_ | split)

theorem State.failXlate_keep (a0 : State) (a1 : Nat) (a2 : Out) (h0 : Kept s₀ a0) : Kept s₀ (State.failXlate a0 a1 a2) := by
  unfold State.failXlate
  repeat' (with_reducible first
    | assumption | refine State.failRead_keep _ _ ?_ | refine State.setQueue_keep _ _ _ ?_ | refine State.count_keep _ _ _ ?_
    | refine State.hpDev_keep _ _ _ _ ?_ | refine ite_keep ?_ ?_ | split)

theorem execAtsTranslation_keep (a0 : Fn) (a1 : Xlate) (a2 : State) (h0 : Kept s₀ a2) : OutAll (Kept s₀) (execAtsTranslation a0 a1 a2) := by
  unfold execAtsTranslation
  repeat' (with_reducible first
    | assumption | refine OutAll.go ?_ | refine State.modFn_keep _ _ _ ?_ | refine State.serve_keep _ ?_
    | refine State.failXlate_keep _ _ _ ?_ | refine ite_out ?_ ?_ | exact id | split | extract_lets
    | refine Kept.of_parts ?_ rfl rfl rfl rfl rfl rfl rfl rfl rfl rfl rfl rfl rfl rfl ?_ ?_ ?_ ?_)

theorem execAtsInvalidate_keep (a0 : Fn) (a1 : W64) (a2 : Nat) (a3 : State) (h0 : Kept s₀ a3) : OutAll (Kept s₀) (execAtsInvalidate a0 a1 a2 a3) := by
  unfold execAtsInvalidate
  repeat' (with_reducible first
    | assumption | refine OutAll.go ?_ | refine State.sendInvals_keep _ ?_ | refine State.count_keep _ _ _ ?_
    | refine ite_out ?_ ?_ | exact id | extract_lets
    | refine Kept.of_parts ?_ rfl rfl rfl rfl rfl rfl rfl rfl rfl rfl rfl rfl rfl rfl ?_ ?_ ?_ ?_)

theorem execAtsEnableClear_keep (a0 : Fn) (a1 : State) (h0 : Kept s₀ a1) : OutAll (Kept s₀) (execAtsEnableClear a0 a1) := by
  unfold execAtsEnableClear
  repeat' (with_reducible first
    | assumption | refine OutAll.go ?_ | refine State.setField_keep _ _ _ _ _ ?_ | refine State.modFn_keep _ _ _ ?_
    | refine State.serve_keep _ ?_ | refine ite_out ?_ ?_ | exact id | extract_lets
    | refine Kept.of_parts ?_ rfl rfl rfl rfl rfl rfl rfl rfl rfl rfl rfl rfl rfl rfl ?_ ?_ ?_ ?_)

theorem execCplTimeout_keep (a0 : DevRead) (a1 : State) (h0 : Kept s₀ a1) : OutAll (Kept s₀) (execCplTimeout a0 a1) := by
  unfold execCplTimeout
  repeat' (with_reducible first
    | assumption | refine OutAll.go ?_ | refine State.count_keep _ _ _ ?_ | refine State.aerNote_keep _ _ _ ?_
    | refine State.land_keep _ _ ?_ | refine State.hpDev_keep _ _ _ _ ?_ | refine State.failRead_keep _ _ ?_
    | refine ite_keep ?_ ?_ | split)

theorem State.withdrawRead_keep (a0 : State) (a1 : Nat) (a2 : DevRead) (h0 : Kept s₀ a0) : Kept s₀ (State.withdrawRead a0 a1 a2) := by
  unfold State.withdrawRead
  repeat' (with_reducible first
    | assumption | refine State.modStream_keep _ _ _ ?_ | refine State.setQueue_keep _ _ _ ?_ | refine ite_keep ?_ ?_ | split)

theorem State.withdraw_keep (a0 : State) (a1 : Nat) (h0 : Kept s₀ a0) : Kept s₀ (State.withdraw a0 a1) := by
  unfold State.withdraw
  repeat' (with_reducible first
    | assumption | refine State.modFn_keep _ _ _ ?_ | refine State.serve_keep _ ?_ | refine State.withdrawRead_keep _ _ _ ?_
    | refine foldl_keep ?_ (fun _ _ _ => ?_) | refine ite_keep ?_ ?_ | exact id | extract_lets
    | refine Kept.of_parts ?_ rfl rfl rfl rfl rfl rfl rfl rfl rfl rfl rfl rfl rfl rfl ?_ ?_ ?_ ?_)

theorem State.queueWb_keep (a0 : State) (a1 : Nat) (a2 : Nat) (h0 : Kept s₀ a0) : Kept s₀ (State.queueWb a0 a1 a2) := by
  unfold State.queueWb
  repeat' (with_reducible first | assumption | refine State.hostWrite_keep _ _ _ _ _ ?_ | refine ite_keep ?_ ?_)

theorem State.resume_keep (a0 : State) (a1 : Nat) (h0 : Kept s₀ a0) : Kept s₀ (State.resume a0 a1) := by
  unfold State.resume
  repeat' (with_reducible first
    | assumption | refine State.serve_keep _ ?_ | refine State.drainHold_keep _ _ _ ?_ | refine State.sendPended_keep _ _ ?_
    | refine State.queueWb_keep _ _ _ ?_ | refine State.modFn_keep _ _ _ ?_ | refine State.headWb_keep _ _ ?_
    | refine foldl_keep ?_ (fun _ _ _ => ?_) | refine ite_keep ?_ ?_)

theorem execBmeClear_keep (a0 : Fn) (a1 : State) (h0 : Kept s₀ a1) : OutAll (Kept s₀) (execBmeClear a0 a1) := by
  unfold execBmeClear
  repeat' (with_reducible first
    | assumption | refine OutAll.go ?_ | refine State.withdraw_keep _ _ ?_ | refine State.modFn_keep _ _ _ ?_
    | refine ite_out ?_ ?_)

theorem execBmeSet_keep (a0 : Fn) (a1 : State) (h0 : Kept s₀ a1) : OutAll (Kept s₀) (execBmeSet a0 a1) := by
  unfold execBmeSet
  repeat' (with_reducible first
    | assumption | refine OutAll.go ?_ | refine State.resume_keep _ _ ?_ | refine State.modFn_keep _ _ _ ?_
    | refine ite_out ?_ ?_)

theorem execD3hotEntry_keep (a0 : Fn) (a1 : State) (h0 : Kept s₀ a1) : OutAll (Kept s₀) (execD3hotEntry a0 a1) := by
  unfold execD3hotEntry
  repeat' (with_reducible first
    | assumption | refine OutAll.go ?_ | refine State.withdraw_keep _ _ ?_ | refine State.modFn_keep _ _ _ ?_
    | refine ite_out ?_ ?_)

theorem execD0Return_keep (a0 : Fn) (a1 : State) (h0 : Kept s₀ a1) : OutAll (Kept s₀) (execD0Return a0 a1) := by
  unfold execD0Return
  repeat' (with_reducible first
    | assumption | refine OutAll.go ?_ | refine State.resume_keep _ _ ?_ | refine State.modFn_keep _ _ _ ?_
    | refine ite_out ?_ ?_)

theorem State.freezePort_keep (a0 : State) (a1 : Nat) (h0 : Kept s₀ a0) : Kept s₀ (State.freezePort a0 a1) := by
  unfold State.freezePort
  repeat' (with_reducible first
    | assumption | refine State.count_keep _ _ _ ?_ | refine State.setField_keep _ _ _ _ _ ?_
    | refine State.hpLog_keep _ _ _ _ _ _ ?_ | refine State.hpDev_keep _ _ _ _ ?_ | refine State.withdraw_keep _ _ ?_
    | refine State.failRead_keep _ _ ?_ | refine foldl_keep ?_ (fun _ _ _ => ?_) | refine ite_keep ?_ ?_ | exact id | split
    | extract_lets | refine Kept.of_parts ?_ rfl rfl rfl rfl rfl rfl rfl rfl rfl rfl rfl rfl rfl rfl ?_ ?_ ?_ ?_)

theorem State.loseLink_keep (a0 : State) (h0 : Kept s₀ a0) : Kept s₀ (State.loseLink a0) := by
  unfold State.loseLink
  repeat' (with_reducible first
    | assumption | refine State.freezePort_keep _ _ ?_ | refine State.setField_keep _ _ _ _ _ ?_ | refine ite_keep ?_ ?_)

theorem execLinkDown_keep (a0 : State) (h0 : Kept s₀ a0) : OutAll (Kept s₀) (execLinkDown a0) := by
  unfold execLinkDown
  repeat' (with_reducible first | assumption | refine OutAll.go ?_ | refine State.loseLink_keep _ ?_)

theorem execLinkUp_keep (a0 : BitVec 3) (a1 : BitVec 5) (a2 : State) (h0 : Kept s₀ a2) : OutAll (Kept s₀) (execLinkUp a0 a1 a2) := by
  unfold execLinkUp
  repeat' (with_reducible first
    | assumption | refine OutAll.go ?_ | refine State.setField_keep _ _ _ _ _ ?_ | refine ite_out ?_ ?_)

theorem State.aerAll_keep (a0 : State) (a1 : Aer → Aer) (h0 : Kept s₀ a0) : Kept s₀ (State.aerAll a0 a1) := by
  unfold State.aerAll
  repeat' (with_reducible first | assumption | refine State.aerNote_keep _ _ _ ?_ | refine foldl_keep ?_ (fun _ _ _ => ?_))

theorem execHpInternalError_keep (a0 : State) (h0 : Kept s₀ a0) : OutAll (Kept s₀) (execHpInternalError a0) := by
  unfold execHpInternalError
  repeat' (with_reducible first
    | assumption | refine OutAll.go ?_ | refine State.freezePort_keep _ _ ?_ | refine State.aerAll_keep _ _ ?_
    | refine ite_out ?_ ?_)

theorem execFatalTlp_keep (a0 : State) (h0 : Kept s₀ a0) : OutAll (Kept s₀) (execFatalTlp a0) := by
  unfold execFatalTlp
  repeat' (with_reducible first
    | assumption | refine OutAll.go ?_ | refine State.freezePort_keep _ _ ?_ | refine State.aerAll_keep _ _ ?_
    | refine ite_out ?_ ?_)

theorem execFreeze_keep (a0 : Fn) (a1 : State) (h0 : Kept s₀ a1) : OutAll (Kept s₀) (execFreeze a0 a1) := by
  unfold execFreeze
  repeat' (with_reducible first
    | assumption | refine State.hostAct_keep _ _ _ _ ?_ ?_ | refine State.freezePort_keep _ _ ?_ | exact id | split | intro _)

theorem State.releasePort_keep (a0 : State) (h0 : Kept s₀ a0) : ExAll (Kept s₀) (State.releasePort a0) := by
  unfold State.releasePort
  repeat' (with_reducible first
    | assumption | refine State.setField_keep _ _ _ _ _ ?_ | refine State.modFn_keep _ _ _ ?_
    | refine State.errReg_keep _ _ _ ?_ | refine State.resume_keep _ _ ?_ | refine State.sendInvals_keep _ ?_
    | refine ExAll.ok ?_ | exact ExAll.error | refine foldl_keep ?_ (fun _ _ _ => ?_) | refine ite_ex ?_ ?_)

theorem execRelease_keep (a0 : Origin) (a1 : State) (h0 : Kept s₀ a1) : OutAll (Kept s₀) (execRelease a0 a1) := by
  unfold execRelease
  repeat' (with_reducible first
    | assumption | refine State.dictCmd_keep _ _ _ _ _ _ ?_ ?_ | refine State.releasePort_keep _ ?_
    | refine ExAll.elim (State.releasePort_keep _ ?_) ‹_ = Except.ok _› | refine OutAll.go ?_
    | refine State.received_keep _ _ ?_ | refine State.hpLog_keep _ _ _ _ _ _ ?_ | refine ite_out ?_ ?_ | split | extract_lets
    | intro _)

theorem State.orphanCommits_keep (a0 : State) (a1 : Nat) (h0 : Kept s₀ a0) : Kept s₀ (State.orphanCommits a0 a1) := by
  unfold State.orphanCommits
  repeat' (with_reducible first
    | assumption | exact id | extract_lets
    | refine Kept.of_parts ?_ rfl rfl rfl rfl rfl rfl rfl rfl rfl rfl rfl rfl rfl rfl ?_ ?_ ?_ ?_)

theorem State.dropQueues_keep (a0 : State) (a1 : Nat) (h0 : Kept s₀ a0) : Kept s₀ (State.dropQueues a0 a1) :=
  Kept.of_inv h0 (fun h => { h with queues := Tbl.canon_keep (d := fun _ => {}) h.queues (fun _ (x : Queue) => x.fn != a1) }) rfl rfl rfl
theorem State.dropFn_keep (a0 : State) (a1 : Nat) (h0 : Kept s₀ a0) : Kept s₀ (State.dropFn a0 a1) := by
  refine Kept.of_inv h0 (fun h => { h with fns := ?_, dm := ?_ }) rfl rfl rfl
  · exact Tbl.canon_keep (d := fun _ => 0) h.dm (fun o _ => o / 65536 != a1)
  · exact Tbl.canon_set (d := fun _ => {}) h.fns a1 ({ vf := (a0.fn a1).vf, flrBusy := true, aer := (a0.fn a1).aer, cplTime := (a0.fn a1).cplTime } : FnSt)
theorem State.flrFn_keep (a0 : State) (a1 : Nat) (h0 : Kept s₀ a0) : Kept s₀ (State.flrFn a0 a1) := by
  unfold State.flrFn
  repeat' (with_reducible first
    | assumption | refine State.streamQuiet_keep _ _ ?_ | refine State.ctxQuiet_keep _ _ ?_
    | refine State.dropEntries_keep _ _ ?_ | refine State.dropRegs_keep _ _ ?_ | refine State.orphanCommits_keep _ _ ?_
    | refine State.dropQueues_keep _ _ ?_ | refine State.serve_keep _ ?_ | refine State.dropFn_keep _ _ ?_
    | refine foldl_keep ?_ (fun _ _ _ => ?_))

theorem State.setVfs_keep (a0 : State) (a1 : Nat) (h0 : Kept s₀ a0) : Kept s₀ (State.setVfs a0 a1) := by
  unfold State.setVfs
  repeat' (with_reducible first
    | assumption | refine State.modFn_keep _ _ _ ?_ | refine State.flrFn_keep _ _ ?_ | refine State.schedule_keep _ ?_
    | refine foldl_keep ?_ (fun _ _ _ => ?_) | refine ite_keep ?_ ?_)

theorem State.dropHost_keep (a0 : State) (h0 : Kept s₀ a0) : Kept s₀ (State.dropHost a0) :=
  Kept.of_inv h0 (fun h => { h with queues := rfl, hitches := rfl, ctxs := rfl, fns := rfl, dm := rfl }) rfl rfl rfl
theorem State.keepPoint_keep (a0 : State) (a1 : State) (h0 : Kept s₀ a0) (h1 : Kept s₀ a1) : Kept s₀ (State.keepPoint a0 a1) := by
  unfold State.keepPoint
  repeat' (with_reducible first | assumption | refine State.setEntry_keep _ _ _ _ ?_ | refine foldl_keep ?_ (fun _ _ _ => ?_))

theorem Ibex.ok_ramp {i : Ibex} {r : Ramp} (h : i.ok) : Ibex.ok { i with ramp := r } := ⟨h.spm, h.spmSyn, h.acc, h.accSyn, h.slots, h.regions⟩

theorem State.resetAll_keep (a0 : State) (a1 : Nat) (a2 : Bool) (h0 : Kept s₀ a0) : Kept s₀ (State.resetAll a0 a1 a2) := by
  unfold State.resetAll
  extract_lets s1 st s2 s3 src1 src2 s4
  have h1 : Kept s₀ s1 := foldl_keep h0 (fun _ _ h => State.flrFn_keep _ _ h)
  clear_value s1
  have h2 : Kept s₀ s2 := State.keepPoint_keep _ _ (State.survive_keep _ _ (State.survive_keep _ _ h1)) h1
  clear_value s2
  have h3 : Kept s₀ s3 := foldl_keep h2 (fun _ _ h => State.modIb_keep _ _ _ h (fun _ h => Ibex.ok_ramp h))
  have h4 : Kept s₀ s4 := Kept.setMem (State.dropHost_keep _ h3) id
  exact ite_keep h4 (State.setReg_keep _ _ _ h4)
theorem State.resetPort_keep (a0 : State) (h0 : Kept s₀ a0) : Kept s₀ (State.resetPort a0) :=
  Kept.of_inv (State.dropRegs_keep a0 (fun k => decide (hpBase ≤ k ∧ k < hpBase + 0x100000)) h0)
    (fun h => { h with fns := rfl, dm := rfl }) rfl rfl rfl
theorem execFlr_keep (a0 : Fn) (a1 : State) (h0 : Kept s₀ a1) : OutAll (Kept s₀) (execFlr a0 a1) := by
  unfold execFlr
  repeat' (with_reducible first
    | assumption | refine OutAll.go ?_ | refine State.modFn_keep _ _ _ ?_ | refine State.resetAll_keep _ _ _ ?_
    | refine State.schedule_keep _ ?_ | refine State.flrFn_keep _ _ ?_ | refine ite_out ?_ ?_)

theorem execFlrDone_keep (a0 : Fn) (a1 : State) (h0 : Kept s₀ a1) : OutAll (Kept s₀) (execFlrDone a0 a1) := by
  unfold execFlrDone
  repeat' (with_reducible first | assumption | refine OutAll.go ?_ | refine State.modFn_keep _ _ _ ?_)

theorem execVfEnableChange_keep (a0 : Bool) (a1 : Nat) (a2 : State) (h0 : Kept s₀ a2) : OutAll (Kept s₀) (execVfEnableChange a0 a1 a2) := by
  unfold execVfEnableChange
  repeat' (with_reducible first | assumption | refine OutAll.go ?_ | refine State.setVfs_keep _ _ ?_ | refine ite_out ?_ ?_)

theorem execPerst_keep (a0 : State) (h0 : Kept s₀ a0) : OutAll (Kept s₀) (execPerst a0) := by
  unfold execPerst
  repeat' (with_reducible first
    | assumption | refine OutAll.go ?_ | refine State.modTth_keep _ _ ?_ | refine State.resetAll_keep _ _ _ ?_
    | refine State.resetPort_keep _ ?_ | refine ite_out ?_ ?_ | exact id | extract_lets
    | refine Kept.of_parts ?_ rfl rfl rfl rfl rfl rfl rfl rfl rfl rfl rfl rfl rfl rfl ?_ ?_ ?_ ?_)

theorem execHotReset_keep (a0 : State) (h0 : Kept s₀ a0) : OutAll (Kept s₀) (execHotReset a0) := by
  unfold execHotReset
  repeat' (with_reducible first
    | assumption | refine OutAll.go ?_ | refine State.resetAll_keep _ _ _ ?_ | refine State.resetPort_keep _ ?_
    | refine ite_out ?_ ?_)

theorem execPerstDeassert_keep (a0 : State) (h0 : Kept s₀ a0) : OutAll (Kept s₀) (execPerstDeassert a0) := by
  unfold execPerstDeassert
  repeat' (with_reducible first
    | assumption | refine State.send_keep _ _ ?_ | refine State.modTth_keep _ _ ?_ | refine OutAll.go ?_
    | refine State.beginCold_keep _ _ ?_ | refine ite_keep ?_ ?_ | refine ite_out ?_ ?_ | exact id | extract_lets
    | refine Kept.of_parts ?_ rfl rfl rfl rfl rfl rfl rfl rfl rfl rfl rfl rfl rfl rfl ?_ ?_ ?_ ?_)

theorem execTapInstruction_keep (a0 : TapInstr) (a1 : State) (h0 : Kept s₀ a1) : OutAll (Kept s₀) (execTapInstruction a0 a1) := by
  unfold execTapInstruction
  repeat' (with_reducible first
    | assumption | refine OutAll.go ?_ | refine State.loseLink_keep _ ?_ | refine ite_out ?_ ?_ | exact id | extract_lets
    | refine Kept.of_parts ?_ rfl rfl rfl rfl rfl rfl rfl rfl rfl rfl rfl rfl rfl rfl ?_ ?_ ?_ ?_)

theorem execTestLogicReset_keep (a0 : State) (h0 : Kept s₀ a0) : OutAll (Kept s₀) (execTestLogicReset a0) := by
  unfold execTestLogicReset
  repeat' (with_reducible first
    | assumption | refine OutAll.go ?_ | exact id | extract_lets
    | refine Kept.of_parts ?_ rfl rfl rfl rfl rfl rfl rfl rfl rfl rfl rfl rfl rfl rfl ?_ ?_ ?_ ?_)

end Sys2Proof.Machine
end

