-- ==== Sys2Proof/Laws/KeepHost.lean ====
section
/-! SUPPORT. `Kept` holds of every function of the dictionary, KDP, register writes, the scrubber and reads. -/

namespace Sys2Proof.Machine

variable {s₀ : State}

/-! ### Dictionary -/

theorem State.blobValue_keep (a0 : State) (a1 : Nat) (a2 : Nat) (a3 : Nat) (h0 : Kept s₀ a0) : Kept s₀ (State.blobValue a0 a1 a2 a3).2 := by
  unfold State.blobValue
  repeat' (with_reducible first | assumption | refine State.freshBytes_keep _ _ ?_ | split)

theorem State.dictValue_keep (a0 : State) (a1 : Nat) (a2 : Nat) (a3 : DRow) (h0 : Kept s₀ a0) : Kept s₀ (State.dictValue a0 a1 a2 a3).2 := by
  unfold State.dictValue
  repeat' (with_reducible first | assumption | refine State.blobValue_keep _ _ _ _ ?_ | split)

theorem State.dictGet_keep (a0 : State) (a1 : Origin) (a2 : Nat) (a3 : Nat) (h0 : Kept s₀ a0) : Kept s₀ (State.dictGet a0 a1 a2 a3).1 := by
  unfold State.dictGet
  repeat' (with_reducible first
    | assumption | refine State.wakeUp_keep _ ?_ | refine State.rejectEntry_keep _ _ _ _ _ _ ?_
    | refine State.dictValue_keep _ _ _ _ ?_ | split | extract_lets)

theorem State.mailGet_keep (a0 : State) (a1 : Fin 64) (a2 : Nat) (a3 : Nat) (h0 : Kept s₀ a0) : Kept s₀ (State.mailGet a0 a1 a2 a3) := by
  unfold State.mailGet
  repeat' (with_reducible first
    | assumption | refine State.napAccess_keep _ _ _ _ _ _ ?_ | refine State.dictGet_keep _ _ _ _ ?_
    | refine State.dmResult_keep _ _ _ _ ?_ | refine State.setReg_keep _ _ _ ?_ | refine State.dmPut_keep _ _ _ _ ?_
    | refine pair_fst ?_ ‹_ = (_, _)› | refine ite_keep ?_ ?_ | split)

theorem execDictRead_keep (a0 : Origin) (a1 : BitVec 16) (a2 : BitVec 8) (a3 : State) (h0 : Kept s₀ a3) : OutAll (Kept s₀) (execDictRead a0 a1 a2 a3) := by
  unfold execDictRead
  repeat' (with_reducible first
    | assumption | refine OutAll.go ?_ | refine State.napAccess_keep _ _ _ _ _ _ ?_ | refine State.dictGet_keep _ _ _ _ ?_
    | refine State.hostDict_keep _ _ _ _ ?_ ?_ | refine State.rejectEntry_keep _ _ _ _ _ _ ?_
    | refine State.mailGet_keep _ _ _ _ ?_ | refine State.dmRequest_keep _ _ _ _ _ _ ?_ | refine ite_keep ?_ ?_ | split
    | extract_lets | intro _)

theorem State.setRanged_keep (a0 : State) (a1 : Nat) (a2 : Nat) (a3 : Nat) (a4 : DRow) (a5 : W16) (h0 : Kept s₀ a0) : ExAll (Kept s₀) (State.setRanged a0 a1 a2 a3 a4 a5) := by
  unfold State.setRanged
  repeat' (with_reducible first
    | assumption | refine State.setEntry_keep _ _ _ _ ?_ | refine ExAll.ok ?_ | exact ExAll.error | refine ite_ex ?_ ?_)

theorem State.writeStream_keep (a0 : State) (a1 : Nat) (a2 : Nat) (a3 : Nat) (a4 : DRow) (h0 : Kept s₀ a0) : ExAll (Kept s₀) (State.writeStream a0 a1 a2 a3 a4) := by
  unfold State.writeStream
  repeat' (with_reducible first
    | assumption | refine State.streamOpen_keep _ _ ?_ | refine State.streamClose_keep _ _ ?_
    | refine State.streamReset_keep _ _ ?_ | refine State.setRanged_keep _ _ _ _ _ _ ?_ | exact ExAll.error
    | refine ite_ex ?_ ?_)

theorem State.writeCtx_keep (a0 : State) (a1 : Nat) (a2 : Nat) (a3 : Nat) (a4 : DRow) (h0 : Kept s₀ a0) : ExAll (Kept s₀) (State.writeCtx a0 a1 a2 a3 a4) := by
  unfold State.writeCtx
  repeat' (with_reducible first
    | assumption | refine State.ctxEnable_keep _ _ ?_ | refine State.ctxDisable_keep _ _ ?_ | refine State.ctxClear_keep _ _ ?_
    | refine State.setRanged_keep _ _ _ _ _ _ ?_ | exact ExAll.error | refine ite_ex ?_ ?_)

theorem State.writeHerd_keep (a0 : State) (a1 : Nat) (a2 : Nat) (h0 : Kept s₀ a0) : ExAll (Kept s₀) (State.writeHerd a0 a1 a2) := by
  unfold State.writeHerd
  repeat' (with_reducible first
    | assumption | refine State.wakeSteady_keep _ ?_ | refine State.setEntry_keep _ _ _ _ ?_ | refine ExAll.ok ?_
    | exact ExAll.error | refine ite_ex ?_ ?_)

theorem State.writePower_keep (a0 : State) (a1 : Nat) (a2 : Nat) (a3 : DRow) (h0 : Kept s₀ a0) : ExAll (Kept s₀) (State.writePower a0 a1 a2 a3) := by
  unfold State.writePower
  repeat' (with_reducible first
    | assumption | refine State.pwrCommand_keep _ _ ?_ | refine State.modTth_keep _ _ ?_
    | refine State.setRanged_keep _ _ _ _ _ _ ?_ | exact ExAll.error | refine ExAll.map (Q := Kept s₀) ?_ (fun _ _ => ?_)
    | refine ite_keep ?_ ?_ | refine ite_ex ?_ ?_)

theorem State.writeStart_keep (a0 : State) (a1 : Nat) (a2 : List Byte) (h0 : Kept s₀ a0) : ExAll (Kept s₀) (State.writeStart a0 a1 a2) := by
  unfold State.writeStart
  repeat' (with_reducible first
    | assumption | refine State.startCommand_keep _ _ ?_ | refine State.updBegin_keep _ _ ?_ | refine State.updChunk_keep _ _ ?_
    | refine State.updEnd_keep _ _ ?_ | refine State.updActivate_keep _ _ ?_ | refine State.updAbort_keep _ _ ?_
    | refine State.extendCmd_keep _ _ ?_ | refine State.modStart_keep _ _ ?_ ?_ | refine State.attReq_keep _ _ ?_
    | refine ExAll.ok ?_ | exact ExAll.error | refine ite_ex ?_ ?_ | extract_lets | intro _ | refine Start.ok_mk ?_ ?_ ?_ ?_ ?_
    | refine Start.ok.slots ?_ | refine Start.ok.kept ?_ | refine Start.ok.changed ?_ | refine Start.ok.mrs ?_
    | refine Start.ok.slotState ?_)

theorem State.applyCmd_keep (a0 : State) (a1 : Nat) (h0 : Kept s₀ a0) : ExAll (Kept s₀) (State.applyCmd a0 a1) := by
  unfold State.applyCmd
  repeat' (with_reducible first
    | assumption | refine State.nodeStart_keep _ ?_ | refine ExAll.ok ?_ | exact ExAll.error | refine ite_ex ?_ ?_)

theorem State.clearCmd_keep (a0 : State) (a1 : Nat) (h0 : Kept s₀ a0) : ExAll (Kept s₀) (State.clearCmd a0 a1) := by
  unfold State.clearCmd
  split
  · exact ExAll.ok (Kept.of_inv h0 (fun h => { h with log := Nat.zero_le _ }) rfl rfl rfl)
  · exact ExAll.error
theorem State.snapCmd_keep (a0 : State) (a1 : Nat) (h0 : Kept s₀ a0) : ExAll (Kept s₀) (State.snapCmd a0 a1) := by
  unfold State.snapCmd
  repeat' (with_reducible first
    | assumption | refine ExAll.ok ?_ | exact ExAll.error | refine ite_ex ?_ ?_ | exact id | extract_lets
    | refine Kept.of_parts ?_ rfl rfl rfl rfl rfl rfl rfl rfl rfl rfl rfl rfl rfl rfl ?_ ?_ ?_ ?_)

theorem State.releaseCmd_keep (a0 : State) (a1 : Nat) (h0 : Kept s₀ a0) : ExAll (Kept s₀) (State.releaseCmd a0 a1) := by
  unfold State.releaseCmd
  repeat' (with_reducible first | assumption | refine State.releasePort_keep _ ?_ | exact ExAll.error | refine ite_ex ?_ ?_)

theorem State.queueCommit_keep (a0 : State) (a1 : Origin) (a2 : Nat) (a3 : List (Prod Nat W64)) (h0 : Kept s₀ a0) : Kept s₀ (State.queueCommit a0 a1 a2 a3) := by
  unfold State.queueCommit
  repeat' (with_reducible first
    | assumption | exact id | extract_lets
    | refine Kept.of_parts ?_ rfl rfl rfl rfl rfl rfl rfl rfl rfl rfl rfl rfl rfl rfl ?_ ?_ ?_ ?_)

theorem State.restoreCmd_keep (a0 : State) (a1 : Origin) (a2 : Nat) (h0 : Kept s₀ a0) : ExAll (Kept s₀) (State.restoreCmd a0 a1 a2) := by
  unfold State.restoreCmd
  repeat' (with_reducible first
    | assumption | refine State.queueCommit_keep _ _ _ _ ?_ | refine ExAll.ok ?_ | exact ExAll.error | refine ite_ex ?_ ?_)

theorem State.writeRwp_keep (a0 : State) (a1 : Origin) (a2 : Nat) (a3 : Nat) (a4 : Nat) (a5 : DRow) (h0 : Kept s₀ a0) : ExAll (Kept s₀) (State.writeRwp a0 a1 a2 a3 a4 a5) := by
  unfold State.writeRwp
  repeat' (with_reducible first
    | assumption | refine State.queueCommit_keep _ _ _ _ ?_ | refine ExAll.ok ?_ | exact ExAll.error | refine ite_ex ?_ ?_)

theorem effect_keep (a0 : Bool) (a1 : Except W16 State) (h0 : ExAll (Kept s₀) (a1)) : ExAll (fun p => Kept s₀ p.1) (effect a0 a1) := by
  unfold effect
  repeat' (with_reducible first | assumption | refine ExAll.map (Q := Kept s₀) ?_ (fun _ _ => ?_))

theorem State.dictEffect_keep (a0 : State) (a1 : Origin) (a2 : Nat) (a3 : Nat) (a4 : List Byte) (a5 : DRow) (h0 : Kept s₀ a0) : ExAll (fun p => Kept s₀ p.1) (State.dictEffect a0 a1 a2 a3 a4 a5) := by
  unfold State.dictEffect
  repeat' (with_reducible first
    | assumption | refine effect_keep _ _ ?_ | refine State.writeRwp_keep _ _ _ _ _ _ ?_ | refine State.restoreCmd_keep _ _ _ ?_
    | refine State.writeStream_keep _ _ _ _ _ ?_ | refine State.writeCtx_keep _ _ _ _ _ ?_ | refine State.applyCmd_keep _ _ ?_
    | refine State.modNode_keep _ _ ?_ | refine State.setRanged_keep _ _ _ _ _ _ ?_ | refine State.releaseCmd_keep _ _ ?_
    | refine State.writeStart_keep _ _ _ ?_ | refine State.writePower_keep _ _ _ _ ?_ | refine State.wakeSteady_keep _ ?_
    | refine State.writeHerd_keep _ _ _ ?_ | refine State.snapCmd_keep _ _ ?_ | refine State.clearCmd_keep _ _ ?_
    | exact ExAll.error | refine ExAll.map (Q := Kept s₀) ?_ (fun _ _ => ?_) | refine ite_keep ?_ ?_ | refine ite_ex ?_ ?_)

theorem State.dictPut_keep (a0 : State) (a1 : Origin) (a2 : Nat) (a3 : Nat) (a4 : List Byte) (h0 : Kept s₀ a0) : Kept s₀ (State.dictPut a0 a1 a2 a3 a4).1 := by
  unfold State.dictPut
  repeat' (with_reducible first
    | assumption | refine State.wakeUp_keep _ ?_ | refine State.rejectEntry_keep _ _ _ _ _ _ ?_
    | refine ExAll.elim2 (State.dictEffect_keep _ _ _ _ _ _ ?_) ‹_ = Except.ok _› | split | extract_lets)

theorem State.mailPut_keep (a0 : State) (a1 : Fin 64) (a2 : Nat) (a3 : Nat) (a4 : List Byte) (h0 : Kept s₀ a0) : Kept s₀ (State.mailPut a0 a1 a2 a3 a4) := by
  unfold State.mailPut
  repeat' (with_reducible first
    | assumption | refine State.napAccess_keep _ _ _ _ _ _ ?_ | refine State.dictPut_keep _ _ _ _ _ ?_
    | refine State.dmResult_keep _ _ _ _ ?_ | refine pair_fst ?_ ‹_ = (_, _)› | refine ite_keep ?_ ?_ | split)

theorem State.putVia_keep (a0 : State) (a1 : Origin) (a2 : Nat) (a3 : Nat) (a4 : List Byte) (h0 : Kept s₀ a0) : OutAll (Kept s₀) (State.putVia a0 a1 a2 a3 a4) := by
  unfold State.putVia
  repeat' (with_reducible first
    | assumption | refine OutAll.go ?_ | refine State.napAccess_keep _ _ _ _ _ _ ?_ | refine State.dictPut_keep _ _ _ _ _ ?_
    | refine State.hostDict_keep _ _ _ _ ?_ ?_ | refine State.rejectEntry_keep _ _ _ _ _ _ ?_
    | refine State.mailPut_keep _ _ _ _ _ ?_ | refine State.dmRequest_keep _ _ _ _ _ _ ?_ | refine ite_keep ?_ ?_ | split
    | extract_lets | intro _)

theorem execDictWrite_keep (a0 : Origin) (a1 : BitVec 16) (a2 : BitVec 8) (a3 : List Byte) (a4 : State) (h0 : Kept s₀ a4) : OutAll (Kept s₀) (execDictWrite a0 a1 a2 a3 a4) := by
  unfold execDictWrite
  repeat' (with_reducible first | assumption | refine State.putVia_keep _ _ _ _ _ ?_)

theorem execRestore_keep (a0 : Origin) (a1 : W16) (a2 : State) (h0 : Kept s₀ a2) : OutAll (Kept s₀) (execRestore a0 a1 a2) := by
  unfold execRestore
  repeat' (with_reducible first | assumption | refine State.putVia_keep _ _ _ _ _ ?_)

theorem execClear_keep (a0 : Origin) (a1 : Byte) (a2 : State) (h0 : Kept s₀ a2) : OutAll (Kept s₀) (execClear a0 a1 a2) := by
  unfold execClear
  repeat' (with_reducible first | assumption | refine State.putVia_keep _ _ _ _ _ ?_)

theorem execSnap_keep (a0 : Origin) (a1 : Byte) (a2 : State) (h0 : Kept s₀ a2) : OutAll (Kept s₀) (execSnap a0 a1 a2) := by
  unfold execSnap
  repeat' (with_reducible first | assumption | refine State.putVia_keep _ _ _ _ _ ?_)

theorem execApply_keep (a0 : Origin) (a1 : Byte) (a2 : State) (h0 : Kept s₀ a2) : OutAll (Kept s₀) (execApply a0 a1 a2) := by
  unfold execApply
  repeat' (with_reducible first | assumption | refine State.putVia_keep _ _ _ _ _ ?_)

theorem execSnapDone_keep (a0 : State) (h0 : Kept s₀ a0) : OutAll (Kept s₀) (execSnapDone a0) := by
  unfold execSnapDone
  repeat' (with_reducible first
    | assumption | refine OutAll.go ?_ | refine State.setEntry_keep _ _ _ _ ?_ | refine State.countEntry_keep _ _ _ _ ?_
    | refine foldl_keep ?_ (fun _ _ _ => ?_) | refine ite_out ?_ ?_ | exact id | extract_lets
    | refine Kept.of_parts ?_ rfl rfl rfl rfl rfl rfl rfl rfl rfl rfl rfl rfl rfl rfl ?_ ?_ ?_ ?_)

theorem State.finalResp_keep (a0 : State) (a1 : List Byte) (h0 : Kept s₀ a0) : Kept s₀ (State.finalResp a0 a1) := by
  unfold State.finalResp
  repeat' (with_reducible first
    | assumption | refine State.modNode_keep _ _ ?_ | refine State.canSend_keep _ _ _ ?_ | refine ite_keep ?_ ?_)

theorem State.lateResponse_keep (a0 : State) (a1 : W16) (h0 : Kept s₀ a0) : Kept s₀ (State.lateResponse a0 a1) := by
  unfold State.lateResponse
  repeat' (with_reducible first | assumption | refine State.finalResp_keep _ _ ?_ | refine State.modNode_keep _ _ ?_ | split)

theorem execCommitDone_keep (a0 : Bool) (a1 : State) (h0 : Kept s₀ a1) : OutAll (Kept s₀) (execCommitDone a0 a1) := by
  unfold execCommitDone
  repeat' (with_reducible first
    | assumption | refine OutAll.go ?_ | refine State.countEntry_keep _ _ _ _ ?_ | refine State.setEntry_keep _ _ _ _ ?_
    | refine State.rejectEntry_keep _ _ _ _ _ _ ?_ | refine State.logDev_keep _ _ _ _ ?_ | refine State.dmResult_keep _ _ _ _ ?_
    | refine State.lateResponse_keep _ _ ?_ | refine foldl_keep ?_ (fun _ _ _ => ?_) | exact id | split | extract_lets
    | refine Kept.of_parts ?_ rfl rfl rfl rfl rfl rfl rfl rfl rfl rfl rfl rfl rfl rfl ?_ ?_ ?_ ?_)

/-! ### Kdp -/

theorem State.respond_keep (a0 : State) (a1 : List Byte) (h0 : Kept s₀ a0) : Kept s₀ (State.respond a0 a1) := by
  unfold State.respond
  repeat' (with_reducible first | assumption | refine State.canSend_keep _ _ _ ?_)

theorem State.kdpReject_keep (a0 : State) (a1 : KdpFrame) (a2 : W16) (h0 : Kept s₀ a0) : Kept s₀ (State.kdpReject a0 a1 a2) := by
  unfold State.kdpReject
  repeat' (with_reducible first | assumption | refine State.respond_keep _ _ ?_ | refine State.rejectEntry_keep _ _ _ _ _ _ ?_)

theorem State.kdpClose_keep (a0 : State) (a1 : Nat) (a2 : Nat) (a3 : Bool) (a4 : W16) (h0 : Kept s₀ a0) : Kept s₀ (State.kdpClose a0 a1 a2 a3 a4) := by
  unfold State.kdpClose
  repeat' (with_reducible first
    | assumption | refine State.respond_keep _ _ ?_ | refine State.rejectEntry_keep _ _ _ _ _ _ ?_
    | refine State.modNode_keep _ _ ?_)

theorem State.kdpServe_keep (a0 : State) (a1 : Nat) (a2 : KdpFrame) (a3 : State → State) (h0 : Kept s₀ a0) (h1 : ∀ x0, Kept s₀ (x0) → Kept s₀ (a3 x0)) : OutAll (Kept s₀) (State.kdpServe a0 a1 a2 a3) := by
  unfold State.kdpServe
  repeat' (with_reducible first
    | assumption | refine h1 _ ?_ | refine OutAll.go ?_ | refine State.countEntry_keep _ _ _ _ ?_
    | refine State.modNode_keep _ _ ?_ | refine State.kdpReject_keep _ _ _ ?_ | refine ite_keep ?_ ?_ | refine ite_out ?_ ?_)

theorem State.kdpGet_keep (a0 : State) (a1 : Nat) (a2 : Nat) (h0 : Kept s₀ a0) : Kept s₀ (State.kdpGet a0 a1 a2) := by
  unfold State.kdpGet
  repeat' (with_reducible first
    | assumption | refine State.dictGet_keep _ _ _ _ ?_ | refine State.respond_keep _ _ ?_ | refine State.modNode_keep _ _ ?_
    | refine pair_fst ?_ ‹_ = (_, _)› | refine ite_keep ?_ ?_ | split)

theorem execKdpRead_keep (a0 : KdpFrame) (a1 : State) (h0 : Kept s₀ a1) : OutAll (Kept s₀) (execKdpRead a0 a1) := by
  unfold execKdpRead
  repeat' (with_reducible first
    | assumption | refine State.kdpServe_keep _ _ _ _ ?_ ?_ | refine State.kdpReject_keep _ _ _ ?_
    | refine State.modNode_keep _ _ ?_ | refine State.napAccess_keep _ _ _ _ _ _ ?_ | refine State.kdpGet_keep _ _ _ ?_ | split
    | extract_lets | intro _)

theorem State.segment_keep (a0 : State) (a1 : KdpFrame) (a2 : Bool) (a3 : Xfer → State) (h0 : Kept s₀ a0) (h1 : ∀ x0, Kept s₀ (a3 x0)) : Kept s₀ (State.segment a0 a1 a2 a3) := by
  unfold State.segment
  repeat' (with_reducible first
    | assumption | refine h1 _ | refine State.kdpClose_keep _ _ _ _ _ ?_ | refine State.respond_keep _ _ ?_
    | refine ite_keep ?_ ?_ | split)

theorem execReadSeg_keep (a0 : KdpFrame) (a1 : State) (h0 : Kept s₀ a1) : OutAll (Kept s₀) (execReadSeg a0 a1) := by
  unfold execReadSeg
  repeat' (with_reducible first
    | assumption | refine State.kdpServe_keep _ _ _ _ ?_ ?_ | refine State.segment_keep _ _ _ _ ?_ ?_
    | refine State.respond_keep _ _ ?_ | refine State.modNode_keep _ _ ?_ | extract_lets | intro _)

theorem State.kdpPut_keep (a0 : State) (a1 : Nat) (a2 : Nat) (a3 : List Byte) (a4 : List Byte) (h0 : Kept s₀ a0) : Kept s₀ (State.kdpPut a0 a1 a2 a3 a4) := by
  unfold State.kdpPut
  repeat' (with_reducible first
    | assumption | refine State.modNode_keep _ _ ?_ | refine State.napAccess_keep _ _ _ _ _ _ ?_
    | refine State.dictPut_keep _ _ _ _ _ ?_ | refine State.finalResp_keep _ _ ?_ | refine pair_fst ?_ ‹_ = (_, _)›
    | refine ite_keep ?_ ?_ | split)

theorem execKdpWrite_keep (a0 : KdpFrame) (a1 : State) (h0 : Kept s₀ a1) : OutAll (Kept s₀) (execKdpWrite a0 a1) := by
  unfold execKdpWrite
  repeat' (with_reducible first
    | assumption | refine State.kdpServe_keep _ _ _ _ ?_ ?_ | refine State.kdpReject_keep _ _ _ ?_
    | refine State.kdpPut_keep _ _ _ _ _ ?_ | refine State.modNode_keep _ _ ?_ | refine State.respond_keep _ _ ?_ | split
    | extract_lets | intro _)

theorem execWriteSeg_keep (a0 : KdpFrame) (a1 : State) (h0 : Kept s₀ a1) : OutAll (Kept s₀) (execWriteSeg a0 a1) := by
  unfold execWriteSeg
  repeat' (with_reducible first
    | assumption | refine State.kdpServe_keep _ _ _ _ ?_ ?_ | refine State.segment_keep _ _ _ _ ?_ ?_
    | refine State.kdpReject_keep _ _ _ ?_ | refine State.kdpPut_keep _ _ _ _ _ ?_ | refine State.modNode_keep _ _ ?_
    | refine State.respond_keep _ _ ?_ | refine ite_keep ?_ ?_ | extract_lets | intro _)

theorem execAbort_keep (a0 : KdpFrame) (a1 : State) (h0 : Kept s₀ a1) : OutAll (Kept s₀) (execAbort a0 a1) := by
  unfold execAbort
  repeat' (with_reducible first
    | assumption | refine State.kdpServe_keep _ _ _ _ ?_ ?_ | refine State.logErr_keep _ _ _ _ _ _ _ ?_
    | refine State.modNode_keep _ _ ?_ | exact id | split | extract_lets | intro _)

theorem execDiscover_keep (a0 : KdpFrame) (a1 : State) (h0 : Kept s₀ a1) : OutAll (Kept s₀) (execDiscover a0 a1) := by
  unfold execDiscover
  repeat' (with_reducible first
    | assumption | refine State.kdpServe_keep _ _ _ _ ?_ ?_ | refine State.respond_keep _ _ ?_ | extract_lets | intro _)

theorem execKdpTimeout_keep (a0 : State) (h0 : Kept s₀ a0) : OutAll (Kept s₀) (execKdpTimeout a0) := by
  unfold execKdpTimeout
  repeat' (with_reducible first
    | assumption | refine OutAll.go ?_ | refine State.countEntry_keep _ _ _ _ ?_ | refine State.kdpClose_keep _ _ _ _ _ ?_
    | refine State.netLog_keep _ _ ?_ | refine State.modNode_keep _ _ ?_ | refine ite_out ?_ ?_ | split)

theorem State.wakeAccess_keep (a0 : State) (a1 : Access) (h0 : Kept s₀ a0) : Kept s₀ (State.wakeAccess a0 a1) := by
  unfold State.wakeAccess
  repeat' (with_reducible first
    | assumption | refine State.mailPut_keep _ _ _ _ _ ?_ | refine State.mailGet_keep _ _ _ _ ?_
    | refine State.dictPut_keep _ _ _ _ _ ?_ | refine State.modNode_keep _ _ ?_ | refine State.kdpPut_keep _ _ _ _ _ ?_
    | refine State.kdpGet_keep _ _ _ ?_ | refine ite_keep ?_ ?_ | split)

theorem execNapExitDone_keep (a0 : State) (h0 : Kept s₀ a0) : OutAll (Kept s₀) (execNapExitDone a0) := by
  unfold execNapExitDone
  repeat' (with_reducible first
    | assumption | refine State.napExit_keep _ ?_ | refine OutAll.go ?_ | refine State.wakeAccess_keep _ _ ?_
    | refine foldl_keep ?_ (fun _ _ _ => ?_) | refine ite_out ?_ ?_ | exact id | extract_lets
    | refine Kept.of_parts ?_ rfl rfl rfl rfl rfl rfl rfl rfl rfl rfl rfl rfl rfl rfl ?_ ?_ ?_ ?_)

/-! ### RegWrite -/

theorem State.clearErr_keep (a0 : State) (a1 : Nat) (a2 : RegVal) (h0 : Kept s₀ a0) : Kept s₀ (State.clearErr a0 a1 a2) := by
  unfold State.clearErr
  repeat' (with_reducible first | assumption | refine State.setReg_keep _ _ _ ?_ | refine ite_keep ?_ ?_)

theorem State.ibexWrite_keep (a0 : State) (a1 : Nat) (a2 : Nat) (a3 : RegVal) (h0 : Kept s₀ a0) : Kept s₀ (State.ibexWrite a0 a1 a2 a3) := by
  unfold State.ibexWrite
  repeat' (with_reducible first
    | assumption | refine State.brdCfg_keep _ _ _ ?_ | refine State.setField_keep _ _ _ _ _ ?_
    | refine State.clearErr_keep _ _ _ ?_ | refine State.wlkCfg_keep _ _ _ ?_ | refine ite_keep ?_ ?_)

theorem State.schWrite_keep (a0 : State) (a1 : Nat) (a2 : Nat) (a3 : RegVal) (h0 : Kept s₀ a0) : Kept s₀ (State.schWrite a0 a1 a2 a3) := by
  unfold State.schWrite
  repeat' (with_reducible first
    | assumption | refine State.setReg_keep _ _ _ ?_ | refine State.qBind_keep _ _ _ ?_ | refine State.qUnbind_keep _ _ _ ?_
    | refine State.qRead_keep _ _ _ ?_ | refine State.hostSignal_keep _ _ _ ?_ | refine State.clearErr_keep _ _ _ ?_
    | refine State.hostHitch_keep _ _ _ _ ?_ | refine ite_keep ?_ ?_ | split)

theorem State.coilWrite_keep (a0 : State) (a1 : Nat) (a2 : Nat) (a3 : RegVal) (h0 : Kept s₀ a0) : Kept s₀ (State.coilWrite a0 a1 a2 a3) := by
  unfold State.coilWrite
  repeat' (with_reducible first
    | assumption | refine State.coilAlloc_keep _ _ _ ?_ | refine State.coilFree_keep _ _ _ ?_
    | refine State.coilReserve_keep _ _ _ ?_ | refine State.coilQuery_keep _ _ _ ?_ | refine State.coilBad_keep _ _ _ ?_
    | refine State.setReg_keep _ _ _ ?_ | refine State.clearErr_keep _ _ _ ?_ | refine ite_keep ?_ ?_ | split)

theorem State.intWrite_keep (a0 : State) (a1 : Nat) (a2 : RegVal) (h0 : Kept s₀ a0) : Kept s₀ (State.intWrite a0 a1 a2) := by
  unfold State.intWrite
  repeat' (with_reducible first
    | assumption | refine State.setReg_keep _ _ _ ?_ | refine State.flipWrite_keep _ _ ?_ | refine ite_keep ?_ ?_)

theorem State.containWrite_keep (a0 : State) (a1 : Nat) (h0 : Kept s₀ a0) : Kept s₀ (State.containWrite a0 a1) := by
  unfold State.containWrite
  repeat' (with_reducible first
    | assumption | refine ExAll.elim (State.releasePort_keep _ ?_) ‹_ = Except.ok _› | refine State.hpLog_keep _ _ _ _ _ _ ?_
    | refine State.freezePort_keep _ _ ?_ | refine ite_keep ?_ ?_ | split)

theorem State.dpSet_keep (a0 : State) (a1 : Nat) (a2 : Nat) (a3 : Nat) (a4 : Nat) (a5 : RegVal) (h0 : Kept s₀ a0) : Kept s₀ (State.dpSet a0 a1 a2 a3 a4 a5) := by
  unfold State.dpSet
  repeat' (with_reducible first
    | assumption | refine State.hpLog_keep _ _ _ _ _ _ ?_ | refine State.setReg_keep _ _ _ ?_ | refine ite_keep ?_ ?_)

theorem State.msixTable_keep (a0 : State) (a1 : Nat) (a2 : Nat) (a3 : RegVal) (h0 : Kept s₀ a0) : Kept s₀ (State.msixTable a0 a1 a2 a3) := by
  unfold State.msixTable
  repeat' (with_reducible first
    | assumption | refine State.setReg_keep _ _ _ ?_ | refine State.modFn_keep _ _ _ ?_ | refine State.sendPended_keep _ _ ?_
    | refine ite_keep ?_ ?_)

theorem State.hpWrite_keep (a0 : State) (a1 : Nat) (a2 : Nat) (a3 : RegVal) (h0 : Kept s₀ a0) : Kept s₀ (State.hpWrite a0 a1 a2 a3) := by
  unfold State.hpWrite
  repeat' (with_reducible first
    | assumption | refine State.containWrite_keep _ _ ?_ | refine State.clearErr_keep _ _ _ ?_
    | refine State.fnWrite_keep _ _ _ _ ?_ | refine State.dpSet_keep _ _ _ _ _ _ ?_ | refine State.hpLog_keep _ _ _ _ _ _ ?_
    | refine State.crConfig_keep _ _ _ _ _ ?_ | refine State.crHead_keep _ _ _ _ ?_ | refine State.msixTable_keep _ _ _ _ ?_
    | refine ite_keep ?_ ?_)

theorem State.dmWrite_keep (a0 : State) (a1 : Nat) (a2 : Nat) (a3 : List Byte) (a4 : RegVal) (h0 : Kept s₀ a0) : Kept s₀ (State.dmWrite a0 a1 a2 a3 a4) := by
  unfold State.dmWrite
  repeat' (with_reducible first
    | assumption | refine State.logErr_keep _ _ _ _ _ _ _ ?_ | refine State.dmResult_keep _ _ _ _ ?_
    | refine State.setReg_keep _ _ _ ?_ | refine State.mailGet_keep _ _ _ _ ?_ | refine State.mailPut_keep _ _ _ _ _ ?_
    | refine State.dmPut_keep _ _ _ _ ?_ | refine ite_keep ?_ ?_ | split)

theorem State.mapWrite_keep (a0 : State) (a1 : Nat) (a2 : Nat) (a3 : Nat) (a4 : W64) (h0 : Kept s₀ a0) : Kept s₀ (State.mapWrite a0 a1 a2 a3 a4) := by
  unfold State.mapWrite
  repeat' (with_reducible first
    | assumption | refine State.genWrite_keep _ _ _ ?_ | refine State.dmWrite_keep _ _ _ _ _ ?_
    | refine State.ibexWrite_keep _ _ _ _ ?_ | refine State.gzCfg_keep _ _ ?_ | refine State.inTail_keep _ _ _ _ ?_
    | refine State.hpLog_keep _ _ _ _ _ _ ?_ | refine State.clearErr_keep _ _ _ ?_ | refine State.schWrite_keep _ _ _ _ ?_
    | refine State.intWrite_keep _ _ _ ?_ | refine State.coilWrite_keep _ _ _ _ ?_ | refine State.hpWrite_keep _ _ _ _ ?_
    | refine ite_keep ?_ ?_)

theorem execRegisterWrite_keep (a0 : Fn) (a1 : Nat) (a2 : Nat) (a3 : W64) (a4 : Nat) (a5 : State) (h0 : Kept s₀ a5) : OutAll (Kept s₀) (execRegisterWrite a0 a1 a2 a3 a4 a5) := by
  unfold execRegisterWrite
  repeat' (with_reducible first
    | assumption | refine State.hpLog_keep _ _ _ _ _ _ ?_ | refine State.mapWrite_keep _ _ _ _ _ ?_
    | refine State.timeIs_keep _ _ ?_ | refine OutAll.go ?_ | refine State.received_keep _ _ ?_
    | refine State.hostDict_keep _ _ _ _ ?_ ?_ | refine State.hostAct_keep _ _ _ _ ?_ ?_ | refine ite_keep ?_ ?_
    | refine ite_out ?_ ?_ | exact id | split | intro _)

/-! ### Scrub -/

theorem State.maskLost_keep (a0 : State) (a1 : Splice) (a2 : Nat) (h0 : Kept s₀ a0) : Kept s₀ (State.maskLost a0 a1 a2) := by
  unfold State.maskLost
  repeat' (with_reducible first
    | assumption | refine State.freshWord_keep _ ?_ | refine State.flushFull_keep _ _ ?_ | refine foldl_fst ?_ (fun _ _ _ => ?_)
    | exact id | split | extract_lets
    | refine Kept.of_parts ?_ rfl rfl rfl rfl rfl rfl rfl rfl rfl rfl rfl rfl rfl rfl ?_ ?_ ?_ ?_)

theorem execSramScrub_keep (a0 : SramSite) (a1 : W64) (a2 : Byte) (a3 : State) (h0 : Kept s₀ a3) : OutAll (Kept s₀) (execSramScrub a0 a1 a2 a3) := by
  unfold execSramScrub
  repeat' (with_reducible first
    | assumption | refine State.countEntry_keep _ _ _ _ ?_ | refine State.intErr_keep _ _ _ _ ?_ | refine OutAll.go ?_
    | refine State.modIb_keep _ _ _ ?_ ?_ | refine State.count_keep _ _ _ ?_ | refine State.setLine_keep _ _ _ _ _ ?_
    | refine State.evictLine_keep _ _ ?_ | refine State.dropLine_keep _ _ ?_ | refine State.tagUe_keep _ _ ?_
    | refine State.maskLost_keep _ _ _ ?_ | refine execOryxUe_keep _ ?_ | refine ite_keep ?_ ?_ | refine ite_out ?_ ?_
    | exact id | split | extract_lets | intro _
    | refine Kept.of_parts ?_ rfl rfl rfl rfl rfl rfl rfl rfl rfl rfl rfl rfl rfl rfl ?_ ?_ ?_ ?_
    | refine Memory.wf_mk ?_ ?_ ?_ ?_ ?_ ?_ ?_ ?_ ?_ | refine Memory.wf_hbm ?_ | refine Memory.wf_syn ?_
    | refine Memory.wf_chk ?_ | refine Memory.wf_lines ?_ | refine Memory.wf_lineSyn ?_ | refine Memory.wf_splSyn ?_
    | refine Memory.wf_power ?_ | refine Memory.wf_retries ?_ | refine Memory.wf_rows ?_ | refine Ibex.ok_mk ?_ ?_ ?_ ?_ ?_ ?_
    | refine Ibex.ok.spm ?_ | refine Ibex.ok.spmSyn ?_ | refine Ibex.ok.acc ?_ | refine Ibex.ok.accSyn ?_
    | refine Ibex.ok.slots ?_ | refine Ibex.ok.regions ?_ | refine Tbl.ok_set ?_ | refine Tbl.ok_setList ?_)

/-! ### Views -/

variable {s₀ : State}

end Sys2Proof.Machine
end

