-- ==== Sys2Proof/WellFormed.lean ====
section
/-! DEFINITION. The operands that a command can carry, where their Lean types say less than the rules of spec/ do. The
meanings are total: an ill-formed command is one that no host, engine or pin sends. -/

namespace Sys2Proof

/-- A write of BAR0 carries 1 to 8 bytes of its value; one of another size or alignment than R492 allows is a command like any
other, which the device logs. -/
def carries (size : Nat) : Bool := decide (1 ≤ size) && decide (size ≤ 8)

/-- Bytes that lie in one 128-byte line (R401). -/
def inLine (addr len : Nat) : Bool := decide (0 < len) && decide (addr % 128 + len ≤ 128)

/-- Lengths of a data-port write: up to the largest max payload size (R495, Table 15.1). -/
def carriesWrite (len : Nat) : Bool := decide (0 < len) && decide (len ≤ 512)

/-- Lengths of a data-port read (R495). -/
def carriesRead (len : Nat) : Bool := decide (0 < len) && decide (len ≤ 4096)

/-- A command whose operands satisfy the rules. -/
def WellFormed : Instr → Bool
  | .registerWrite _ _ size _ _ => carries size
  | .cacheRead _ addr len => inLine addr len
  | .cacheWrite _ addr bs => inLine addr bs.length
  | .spliceWrite addr bs => inLine addr bs.length
  | .cacheAtomic addr _ => addr % 8 == 0
  | .dpWindowWrite _ _ bs _ | .dpStreamWrite _ bs _ _ => carriesWrite bs.length
  | .dpWindowRead _ _ len | .dpStreamRead _ len _ => carriesRead len
  | _ => true

end Sys2Proof
end

