-- ==== Sys2Proof/Laws/PerInstr.lean ====
section
/-! SUPPORT. Statements made constructor by constructor, about commands as syntax. -/

namespace Sys2Proof.Laws.IllFormed

/-- Commands whose operands can break a rule that their types do not state. -/
def checked : Instr → Bool
  | .registerWrite .. => true
  | .cacheRead .. => true
  | .cacheWrite .. => true
  | .spliceWrite .. => true
  | .cacheAtomic .. => true
  | .dpWindowWrite .. => true
  | .dpWindowRead .. => true
  | .dpStreamWrite .. => true
  | .dpStreamRead .. => true
  | _ => false

/-- A command is well-formed, or one of those that WellFormed checks. -/
def Statement (i : Instr) : Prop := WellFormed i = true ∨ checked i = true

theorem registerWrite (fn : Fn) (off : Nat) (size : Nat) (v : W64) (nowUs : Nat) : Statement (.registerWrite fn off size v nowUs) := Or.inr rfl
theorem brdCfgWrite (fn : Fn) (n : IbexId) (v : W32) : Statement (.brdCfgWrite fn n v) := Or.inl rfl
theorem wlkCfgWrite (fn : Fn) (n : IbexId) (v : W32) : Statement (.wlkCfgWrite fn n v) := Or.inl rfl
theorem gzCfgWrite (fn : Fn) (v : W32) : Statement (.gzCfgWrite fn v) := Or.inl rfl
theorem instructionLoad (n : IbexId) (cycles : Nat) : Statement (.instructionLoad n cycles) := Or.inl rfl
theorem nop (n : IbexId) : Statement (.nop n) := Or.inl rfl
theorem endStep (n : IbexId) (cycles : Nat) : Statement (.endStep n cycles) := Or.inl rfl
theorem layer (n : IbexId) : Statement (.layer n) := Or.inl rfl
theorem mm (n : IbexId) : Statement (.mm n) := Or.inl rfl
theorem shadowLoad (n : IbexId) (q : Quarter) : Statement (.shadowLoad n q) := Or.inl rfl
theorem knotIssue (n : IbexId) (q : Quarter) (held : Nat) : Statement (.knotIssue n q held) := Or.inl rfl
theorem brdKnotHold (n : IbexId) (q : Quarter) : Statement (.brdKnotHold n q) := Or.inl rfl
theorem regionFault (n : IbexId) (hit : RegionHit) (also : List RegionHit) : Statement (.regionFault n hit also) := Or.inl rfl
theorem outputTile (n : IbexId) : Statement (.outputTile n) := Or.inl rfl
theorem rampDown (n : IbexId) : Statement (.rampDown n) := Or.inl rfl
theorem rampGroupStep (n : IbexId) : Statement (.rampGroupStep n) := Or.inl rfl
theorem clusterReset (n : IbexId) (inFlight : List Quarter) : Statement (.clusterReset n inFlight) := Or.inl rfl
theorem syncRelease (q : QueueId) : Statement (.syncRelease q) := Or.inl rfl
theorem walkerPreempt (n : IbexId) (cycles : Nat) : Statement (.walkerPreempt n cycles) := Or.inl rfl
theorem walkFetchTo (n : IbexId) (q : Option Quarter) : Statement (.walkFetchTo n q) := Or.inl rfl
theorem walkMemUe (n : IbexId) (q : Option Quarter) : Statement (.walkMemUe n q) := Or.inl rfl
theorem wconv (n : IbexId) : Statement (.wconv n) := Or.inl rfl
theorem wpool (n : IbexId) (stop : Option Nat) : Statement (.wpool n stop) := Or.inl rfl
theorem wresample (n : IbexId) (stop : Option Nat) : Statement (.wresample n stop) := Or.inl rfl
theorem wregroup (n : IbexId) (stop : Option Nat) : Statement (.wregroup n stop) := Or.inl rfl
theorem ssort (n : IbexId) (stop : Option Nat) : Statement (.ssort n stop) := Or.inl rfl
theorem hist (n : IbexId) : Statement (.hist n) := Or.inl rfl
theorem layerDecision (q : QueueId) : Statement (.layerDecision q) := Or.inl rfl
theorem vseq (n : IbexId) (stop : Option Nat) : Statement (.vseq n stop) := Or.inl rfl
theorem vred (n : IbexId) (stop : Option Nat) : Statement (.vred n stop) := Or.inl rfl
theorem vmove (n : IbexId) (stop : Option Nat) : Statement (.vmove n stop) := Or.inl rfl
theorem vopt (n : IbexId) (stop : Option Nat) : Statement (.vopt n stop) := Or.inl rfl
theorem track (n : IbexId) : Statement (.track n) := Or.inl rfl
theorem emit (n : IbexId) : Statement (.emit n) := Or.inl rfl
theorem sclWatchdog (n : IbexId) : Statement (.sclWatchdog n) := Or.inl rfl
theorem hwait (n : IbexId) (cycles : Nat) : Statement (.hwait n cycles) := Or.inl rfl
theorem hsignal (n : IbexId) : Statement (.hsignal n) := Or.inl rfl
theorem hacquire (n : IbexId) (cycles : Nat) : Statement (.hacquire n cycles) := Or.inl rfl
theorem hrelease (n : IbexId) : Statement (.hrelease n) := Or.inl rfl
theorem hitchTimeout (q : QueueId) : Statement (.hitchTimeout q) := Or.inl rfl
theorem schHsigWrite (fn : Fn) (v : W32) : Statement (.schHsigWrite fn v) := Or.inl rfl
theorem schHitchWrite (fn : Fn) (k : HitchId) (v : W64) : Statement (.schHitchWrite fn k v) := Or.inl rfl
theorem gzInTailWrite (fn : Fn) (n : StreamId) (v : W32) : Statement (.gzInTailWrite fn n v) := Or.inl rfl
theorem chunkFetch (n : StreamId) : Statement (.chunkFetch n) := Or.inl rfl
theorem chunkArrival (n : StreamId) (got : Fetched) : Statement (.chunkArrival n got) := Or.inl rfl
theorem auTimeout (n : StreamId) : Statement (.auTimeout n) := Or.inl rfl
theorem creditTick (n : StreamId) : Statement (.creditTick n) := Or.inl rfl
theorem entropySelect (e : Fin 4) (aus : List (StreamId × AuSyntax)) : Statement (.entropySelect e aus) := Or.inl rfl
theorem syntaxStallResume (e : Fin 4) : Statement (.syntaxStallResume e) := Or.inl rfl
theorem syntaxComplete (e : Fin 4) : Statement (.syntaxComplete e) := Or.inl rfl
theorem pixelUnitStart (p : Fin 16) : Statement (.pixelUnitStart p) := Or.inl rfl
theorem pixelUnitDone (p : Fin 16) (r : UnitResult) : Statement (.pixelUnitDone p r) := Or.inl rfl
theorem vidEngineTo (e : VidEngine) : Statement (.vidEngineTo e) := Or.inl rfl
theorem streamOpen (o : Origin) (n : StreamId) : Statement (.streamOpen o n) := Or.inl rfl
theorem streamClose (o : Origin) (n : StreamId) : Statement (.streamClose o n) := Or.inl rfl
theorem streamReset (o : Origin) (n : StreamId) : Statement (.streamReset o n) := Or.inl rfl
theorem dictWrite (o : Origin) (index : BitVec 16) (sub : BitVec 8) (value : List Byte) : Statement (.dictWrite o index sub value) := Or.inl rfl
theorem dictRead (o : Origin) (index : BitVec 16) (sub : BitVec 8) : Statement (.dictRead o index sub) := Or.inl rfl
theorem commitDone (ok : Bool) : Statement (.commitDone ok) := Or.inl rfl
theorem restore (o : Origin) (v : W16) : Statement (.restore o v) := Or.inl rfl
theorem clear (o : Origin) (v : Byte) : Statement (.clear o v) := Or.inl rfl
theorem snap (o : Origin) (v : Byte) : Statement (.snap o v) := Or.inl rfl
theorem snapDone : Statement (.snapDone) := Or.inl rfl
theorem apply (o : Origin) (v : Byte) : Statement (.apply o v) := Or.inl rfl
theorem slotTakePicture (q : QueueId) (slot : Fin 64) : Statement (.slotTakePicture q slot) := Or.inl rfl
theorem workItemStart (e : Fin 4) : Statement (.workItemStart e) := Or.inl rfl
theorem workItemDone (e : Fin 4) (cycles : Nat) : Statement (.workItemDone e cycles) := Or.inl rfl
theorem slotVoid (q : QueueId) (slot : Fin 64) : Statement (.slotVoid q slot) := Or.inl rfl
theorem fillClose (q : QueueId) : Statement (.fillClose q) := Or.inl rfl
theorem periodOpen (src : PeriodSource) (nowUs : Nat) : Statement (.periodOpen src nowUs) := Or.inl rfl
theorem passLimitExpiry (q : QueueId) : Statement (.passLimitExpiry q) := Or.inl rfl
theorem contextEnable (o : Origin) (c : CtxId) : Statement (.contextEnable o c) := Or.inl rfl
theorem contextReady (c : CtxId) : Statement (.contextReady c) := Or.inl rfl
theorem contextDisable (o : Origin) (c : CtxId) : Statement (.contextDisable o c) := Or.inl rfl
theorem contextDisabled (c : CtxId) : Statement (.contextDisabled c) := Or.inl rfl
theorem clearFault (o : Origin) (c : CtxId) : Statement (.clearFault o c) := Or.inl rfl
theorem bind (fn : Fn) (q : QueueId) (nowUs : Nat) : Statement (.bind fn q nowUs) := Or.inl rfl
theorem unbind (fn : Fn) (q : QueueId) : Statement (.unbind fn q) := Or.inl rfl
theorem queueRead (fn : Fn) (q : QueueId) : Statement (.queueRead fn q) := Or.inl rfl
theorem doorbellWrite (fn : Fn) (q : QueueId) (tail : W32) : Statement (.doorbellWrite fn q tail) := Or.inl rfl
theorem descFetch (q : QueueId) : Statement (.descFetch q) := Or.inl rfl
theorem descArrival (q : QueueId) (d : Fetched) (nowUs : Nat) : Statement (.descArrival q d nowUs) := Or.inl rfl
theorem saveDone (q : QueueId) (ok : Bool) : Statement (.saveDone q ok) := Or.inl rfl
theorem restoreDone (q : QueueId) (ok : Bool) : Statement (.restoreDone q ok) := Or.inl rfl
theorem ledgerTick (c : CtxId) (a : CtxActivity) : Statement (.ledgerTick c a) := Or.inl rfl
theorem genFillDone (q : QueueId) : Statement (.genFillDone q) := Or.inl rfl
theorem detGenWrite (fn : Fn) (off : Nat) (v : W64) : Statement (.detGenWrite fn off v) := Or.inl rfl
theorem cacheRead (r : Requester) (addr : Nat) (len : Nat) : Statement (.cacheRead r addr len) := Or.inr rfl
theorem cacheWrite (r : Requester) (addr : Nat) (bs : List Byte) : Statement (.cacheWrite r addr bs) := Or.inr rfl
theorem cacheAtomic (addr : Nat) (add : W64) : Statement (.cacheAtomic addr add) := Or.inr rfl
theorem cacheFill (p : PcId) (waited : Nat) : Statement (.cacheFill p waited) := Or.inl rfl
theorem refresh (p : PcId) : Statement (.refresh p) := Or.inl rfl
theorem selfRefreshEntry (p : PcId) : Statement (.selfRefreshEntry p) := Or.inl rfl
theorem powerDownEntry (p : PcId) : Statement (.powerDownEntry p) := Or.inl rfl
theorem stackTempRead (celsius : Int) : Statement (.stackTempRead celsius) := Or.inl rfl
theorem cmdParityError (p : PcId) : Statement (.cmdParityError p) := Or.inl rfl
theorem pageRebuild (addr : Nat) : Statement (.pageRebuild addr) := Or.inl rfl
theorem spliceWrite (addr : Nat) (bs : List Byte) : Statement (.spliceWrite addr bs) := Or.inr rfl
theorem spliceHoldExpiry (page : Nat) : Statement (.spliceHoldExpiry page) := Or.inl rfl
theorem scrubPage : Statement (.scrubPage) := Or.inl rfl
theorem sramScrub (site : SramSite) (dataFlip : W64) (checkFlip : Byte) : Statement (.sramScrub site dataFlip checkFlip) := Or.inl rfl
theorem memTagUe (site : SramSite) : Statement (.memTagUe site) := Or.inl rfl
theorem flipArm (fn : Fn) (v : W32) : Statement (.flipArm fn v) := Or.inl rfl
theorem coilRequest (owner : BitVec 12) (bytes : Nat) (waitUs : Nat) : Statement (.coilRequest owner bytes waitUs) := Or.inl rfl
theorem coilZeroDone (pool : PoolId) (k : Nat) : Statement (.coilZeroDone pool k) := Or.inl rfl
theorem coilTimeout (owner : BitVec 12) : Statement (.coilTimeout owner) := Or.inl rfl
theorem bufferRelease (pool : PoolId) (k : Nat) : Statement (.bufferRelease pool k) := Or.inl rfl
theorem alloc (fn : Fn) (cmd : W32) : Statement (.alloc fn cmd) := Or.inl rfl
theorem free (fn : Fn) (cmd : W32) : Statement (.free fn cmd) := Or.inl rfl
theorem reserve (fn : Fn) (cmd : W32) : Statement (.reserve fn cmd) := Or.inl rfl
theorem query (fn : Fn) (cmd : W32) : Statement (.query fn cmd) := Or.inl rfl
theorem powerSample (r : PowerReading) : Statement (.powerSample r) := Or.inl rfl
theorem slowLoopTick : Statement (.slowLoopTick) := Or.inl rfl
theorem energyTick (a : Activity) : Statement (.energyTick a) := Or.inl rfl
theorem droopFire (n : IbexId) : Statement (.droopFire n) := Or.inl rfl
theorem droopHoldEnd : Statement (.droopHoldEnd) := Or.inl rfl
theorem tempSample (t : List Int) : Statement (.tempSample t) := Or.inl rfl
theorem thermalTrip : Statement (.thermalTrip) := Or.inl rfl
theorem thermtripRelease (t : List Int) : Statement (.thermtripRelease t) := Or.inl rfl
theorem idleEntry : Statement (.idleEntry) := Or.inl rfl
theorem napEntry : Statement (.napEntry) := Or.inl rfl
theorem run (o : Origin) : Statement (.run o) := Or.inl rfl
theorem nap (o : Origin) : Statement (.nap o) := Or.inl rfl
theorem standby (o : Origin) : Statement (.standby o) := Or.inl rfl
theorem wake (o : Origin) : Statement (.wake o) := Or.inl rfl
theorem wakeEvent : Statement (.wakeEvent) := Or.inl rfl
theorem napExitDone : Statement (.napExitDone) := Or.inl rfl
theorem vin12OutOfRange (mv : Nat) : Statement (.vin12OutOfRange mv) := Or.inl rfl
theorem vin12Overcurrent : Statement (.vin12Overcurrent) := Or.inl rfl
theorem vin12Return (mv : Nat) : Statement (.vin12Return mv) := Or.inl rfl
theorem auxSwitch (inRange : Bool) : Statement (.auxSwitch inRange) := Or.inl rfl
theorem coldStart : Statement (.coldStart) := Or.inl rfl
theorem startStageDone (r : StageResult) : Statement (.startStageDone r) := Or.inl rfl
theorem startTimeout : Statement (.startTimeout) := Or.inl rfl
theorem oryxWatchdog : Statement (.oryxWatchdog) := Or.inl rfl
theorem oryxUe : Statement (.oryxUe) := Or.inl rfl
theorem warm (o : Origin) : Statement (.warm o) := Or.inl rfl
theorem confirm (o : Origin) : Statement (.confirm o) := Or.inl rfl
theorem confirmTimer : Statement (.confirmTimer) := Or.inl rfl
theorem advance (o : Origin) : Statement (.advance o) := Or.inl rfl
theorem updBegin (o : Origin) (value : List Byte) : Statement (.updBegin o value) := Or.inl rfl
theorem updChunk (o : Origin) (value : List Byte) : Statement (.updChunk o value) := Or.inl rfl
theorem updEnd (o : Origin) (v : Byte) : Statement (.updEnd o v) := Or.inl rfl
theorem updProgramDone (flashOk : Bool) : Statement (.updProgramDone flashOk) := Or.inl rfl
theorem updActivate (o : Origin) (v : Byte) : Statement (.updActivate o v) := Or.inl rfl
theorem updAbort (o : Origin) (v : Byte) : Statement (.updAbort o v) := Or.inl rfl
theorem extend (o : Origin) (value : List Byte) : Statement (.extend o value) := Or.inl rfl
theorem attReq (o : Origin) (v : Byte) : Statement (.attReq o v) := Or.inl rfl
theorem attSignDone : Statement (.attSignDone) := Or.inl rfl
theorem devicePkDerived : Statement (.devicePkDerived) := Or.inl rfl
theorem dpWindowWrite (fn : Fn) (off : Nat) (bs : List Byte) (poisoned : Bool) : Statement (.dpWindowWrite fn off bs poisoned) := Or.inr rfl
theorem dpWindowRead (fn : Fn) (off : Nat) (len : Nat) : Statement (.dpWindowRead fn off len) := Or.inr rfl
theorem dpStreamWrite (fn : Fn) (bs : List Byte) (allEnables poisoned : Bool) : Statement (.dpStreamWrite fn bs allEnables poisoned) := Or.inr rfl
theorem dpStreamRead (fn : Fn) (len : Nat) (allEnables : Bool) : Statement (.dpStreamRead fn len allEnables) := Or.inr rfl
theorem crConfigWrite (fn : Fn) (n : StreamId) (reg : Fin 3) (v : W64) : Statement (.crConfigWrite fn n reg v) := Or.inl rfl
theorem crHeadWrite (fn : Fn) (n : StreamId) (v : W32) : Statement (.crHeadWrite fn n v) := Or.inl rfl
theorem coalTimer (n : StreamId) : Statement (.coalTimer n) := Or.inl rfl
theorem hpFnWrite (fn : Fn) (k : Fn) (v : W64) (atsEnable : Bool) : Statement (.hpFnWrite fn k v atsEnable) := Or.inl rfl
theorem atsTranslation (fn : Fn) (x : Xlate) : Statement (.atsTranslation fn x) := Or.inl rfl
theorem atsInvalidate (fn : Fn) (page : W64) (log2 : Nat) : Statement (.atsInvalidate fn page log2) := Or.inl rfl
theorem cplTimeout (r : DevRead) : Statement (.cplTimeout r) := Or.inl rfl
theorem bmeClear (fn : Fn) : Statement (.bmeClear fn) := Or.inl rfl
theorem bmeSet (fn : Fn) : Statement (.bmeSet fn) := Or.inl rfl
theorem d3hotEntry (fn : Fn) : Statement (.d3hotEntry fn) := Or.inl rfl
theorem d0Return (fn : Fn) : Statement (.d0Return fn) := Or.inl rfl
theorem vfEnableChange (enable : Bool) (num : Nat) : Statement (.vfEnableChange enable num) := Or.inl rfl
theorem linkDown : Statement (.linkDown) := Or.inl rfl
theorem linkUp (speed : BitVec 3) (width : BitVec 5) : Statement (.linkUp speed width) := Or.inl rfl
theorem hpInternalError : Statement (.hpInternalError) := Or.inl rfl
theorem fatalTlp : Statement (.fatalTlp) := Or.inl rfl
theorem freeze (fn : Fn) : Statement (.freeze fn) := Or.inl rfl
theorem release (o : Origin) : Statement (.release o) := Or.inl rfl
theorem flr (fn : Fn) : Statement (.flr fn) := Or.inl rfl
theorem flrDone (fn : Fn) : Statement (.flrDone fn) := Or.inl rfl
theorem perst : Statement (.perst) := Or.inl rfl
theorem perstDeassert : Statement (.perstDeassert) := Or.inl rfl
theorem hotReset : Statement (.hotReset) := Or.inl rfl
theorem linkL1Exit : Statement (.linkL1Exit) := Or.inl rfl
theorem kdpRead (f : KdpFrame) : Statement (.kdpRead f) := Or.inl rfl
theorem readSeg (f : KdpFrame) : Statement (.readSeg f) := Or.inl rfl
theorem kdpWrite (f : KdpFrame) : Statement (.kdpWrite f) := Or.inl rfl
theorem writeSeg (f : KdpFrame) : Statement (.writeSeg f) := Or.inl rfl
theorem abort (f : KdpFrame) : Statement (.abort f) := Or.inl rfl
theorem discover (f : KdpFrame) : Statement (.discover f) := Or.inl rfl
theorem badFrame : Statement (.badFrame) := Or.inl rfl
theorem kdpDupId : Statement (.kdpDupId) := Or.inl rfl
theorem kdpTimeout : Statement (.kdpTimeout) := Or.inl rfl
theorem claimListenEnd : Statement (.claimListenEnd) := Or.inl rfl
theorem heartbeat : Statement (.heartbeat) := Or.inl rfl
theorem errorEvent : Statement (.errorEvent) := Or.inl rfl
theorem busOff : Statement (.busOff) := Or.inl rfl
theorem busOffRecovery : Statement (.busOffRecovery) := Or.inl rfl
theorem canTermChange (high : Bool) : Statement (.canTermChange high) := Or.inl rfl
theorem tapInstruction (t : TapInstr) : Statement (.tapInstruction t) := Or.inl rfl
theorem testLogicReset : Statement (.testLogicReset) := Or.inl rfl
theorem streamResetDone (n : StreamId) : Statement (.streamResetDone n) := Or.inl rfl
theorem streamCloseDone (n : StreamId) : Statement (.streamCloseDone n) := Or.inl rfl
theorem napStageDone : Statement (.napStageDone) := Or.inl rfl
theorem powerLoss : Statement (.powerLoss) := Or.inl rfl
theorem canBusError (tec rec' : W16) : Statement (.canBusError tec rec') := Or.inl rfl
theorem msixUnmask (fn : Fn) (vec : Fin 32) : Statement (.msixUnmask fn vec) := Or.inl rfl
theorem atsEnableClear (fn : Fn) : Statement (.atsEnableClear fn) := Or.inl rfl
theorem voltageSlewDone : Statement (.voltageSlewDone) := Or.inl rfl

end Sys2Proof.Laws.IllFormed
end

