-- ==== Sys2Proof/Laws/Read.lean ====
section
/-! SUPPORT. Reads of memories that hold no stored error: a byte, and a range of bytes, of HBM through the coherent view and of a
scratchpad, always answer. -/

namespace Sys2Proof.Machine

variable {s : State}

theorem Tbl.get_none {α : Type} (d : α) (k : Nat) : Tbl.get d [] k = d := rfl

@[simp] theorem decodeWord_clean (w : Nat) : decodeWord w 0 = .clean w := by
  simp [decodeWord]

/-- A word of HBM without a stored error reads as it was written. -/
theorem Mem.value_of_clean {m : Mem} (h : m.syn = []) (w : Nat) : m.value w = some (m.word w) := by
  simp [Mem.value, Mem.readWord, h, Tbl.get_none]

/-- A byte of a scratchpad without a stored error reads as it was written. -/
theorem State.spmByte_of_clean {n : Nat} (h : (s.ib n).spmSyn = []) (a : Nat) : s.spmByte n a = some (Tbl.get 0 (s.ib n).spm a) := by
  simp [State.spmByte, h, Tbl.get_none]

theorem State.spmRead_isSome {n : Nat} (h : (s.ib n).spmSyn = []) (a k : Nat) : (s.spmRead n a k).isSome = true := by
  induction k generalizing a with
  | zero => rfl
  | succ k ih => simp [State.spmRead, State.spmByte_of_clean h, ih]

/-- A byte of an existing HBM address answers where nothing stored carries an error and no pseudo-channel has failed. -/
theorem State.byteAt_isSome (hs : s.mem.syn = []) (hl : s.mem.lineSyn = []) (hp : s.mem.splSyn = [])
    (hf : ∀ p, s.pcFailed p = false) {a : Nat} (ha : s.addrOk a = true) : (s.byteAt a).isSome = true := by
  unfold State.byteAt
  cases hc : s.mem.cached a with
  | some b => simp [ha, Mem.lineByte, hl, Tbl.get_none]
  | none =>
    simp only [ha, hf, Mem.value_of_clean hs, Option.map_none, hp, Tbl.get_none]
    simp only [Bool.not_true, Bool.false_eq_true, if_false, if_true, Option.map_some]
    split <;> rfl

/-- So does a range of bytes. -/
theorem State.memRead_isSome (hs : s.mem.syn = []) (hl : s.mem.lineSyn = []) (hp : s.mem.splSyn = [])
    (hf : ∀ p, s.pcFailed p = false) (a n : Nat) (ha : ∀ i, i < n → s.addrOk (a + i) = true) : (s.memRead a n).isSome = true := by
  induction n generalizing a with
  | zero => rfl
  | succ n ih =>
    have h0 := State.byteAt_isSome hs hl hp hf (ha 0 (Nat.succ_pos n))
    obtain ⟨b, hb⟩ := Option.isSome_iff_exists.mp h0
    have h1 := ih (a + 1) (fun i hi => by have := ha (i + 1) (by omega); rwa [show a + 1 + i = a + (i + 1) by omega])
    rw [Nat.add_zero] at hb
    simp [State.memRead, hb, h1]

end Sys2Proof.Machine
end

