-- ==== Sys2Proof/Laws/State.lean ====
section
/-! SUPPORT. What each named update of the state leaves alone: one lemma for each part of the state. -/

namespace Sys2Proof.Machine

variable (s : State)

/-! ### setReg -/

@[simp] theorem State.setReg_pending (k : Nat) (v : W64) : (s.setReg k v).pending = s.pending := rfl
@[simp] theorem State.setReg_fresh (k : Nat) (v : W64) : (s.setReg k v).fresh = s.fresh := rfl
@[simp] theorem State.setReg_out (k : Nat) (v : W64) : (s.setReg k v).out = s.out := rfl
@[simp] theorem State.setReg_dict (k : Nat) (v : W64) : (s.setReg k v).dict = s.dict := rfl
@[simp] theorem State.setReg_dm (k : Nat) (v : W64) : (s.setReg k v).dm = s.dm := rfl
@[simp] theorem State.setReg_log (k : Nat) (v : W64) : (s.setReg k v).log = s.log := rfl
@[simp] theorem State.setReg_mem (k : Nat) (v : W64) : (s.setReg k v).mem = s.mem := rfl
@[simp] theorem State.setReg_coil (k : Nat) (v : W64) : (s.setReg k v).coil = s.coil := rfl
@[simp] theorem State.setReg_ibex (k : Nat) (v : W64) : (s.setReg k v).ibex = s.ibex := rfl
@[simp] theorem State.setReg_hp (k : Nat) (v : W64) : (s.setReg k v).hp = s.hp := rfl
@[simp] theorem State.setReg_sch (k : Nat) (v : W64) : (s.setReg k v).sch = s.sch := rfl
@[simp] theorem State.setReg_streams (k : Nat) (v : W64) : (s.setReg k v).streams = s.streams := rfl
@[simp] theorem State.setReg_vid (k : Nat) (v : W64) : (s.setReg k v).vid = s.vid := rfl
@[simp] theorem State.setReg_wake (k : Nat) (v : W64) : (s.setReg k v).wake = s.wake := rfl
@[simp] theorem State.setReg_tth (k : Nat) (v : W64) : (s.setReg k v).tth = s.tth := rfl
@[simp] theorem State.setReg_start (k : Nat) (v : W64) : (s.setReg k v).start = s.start := rfl
@[simp] theorem State.setReg_node (k : Nat) (v : W64) : (s.setReg k v).node = s.node := rfl
@[simp] theorem State.setReg_store (k : Nat) (v : W64) : (s.setReg k v).store = s.store := rfl
@[simp] theorem State.setReg_pins (k : Nat) (v : W64) : (s.setReg k v).pins = s.pins := rfl
@[simp] theorem State.setReg_acts (k : Nat) (v : W64) : (s.setReg k v).acts = s.acts := rfl

/-! ### setField -/

@[simp] theorem State.setField_pending (k lo w x : Nat) : (s.setField k lo w x).pending = s.pending := rfl
@[simp] theorem State.setField_fresh (k lo w x : Nat) : (s.setField k lo w x).fresh = s.fresh := rfl
@[simp] theorem State.setField_out (k lo w x : Nat) : (s.setField k lo w x).out = s.out := rfl
@[simp] theorem State.setField_dict (k lo w x : Nat) : (s.setField k lo w x).dict = s.dict := rfl
@[simp] theorem State.setField_dm (k lo w x : Nat) : (s.setField k lo w x).dm = s.dm := rfl
@[simp] theorem State.setField_log (k lo w x : Nat) : (s.setField k lo w x).log = s.log := rfl
@[simp] theorem State.setField_mem (k lo w x : Nat) : (s.setField k lo w x).mem = s.mem := rfl
@[simp] theorem State.setField_coil (k lo w x : Nat) : (s.setField k lo w x).coil = s.coil := rfl
@[simp] theorem State.setField_ibex (k lo w x : Nat) : (s.setField k lo w x).ibex = s.ibex := rfl
@[simp] theorem State.setField_hp (k lo w x : Nat) : (s.setField k lo w x).hp = s.hp := rfl
@[simp] theorem State.setField_sch (k lo w x : Nat) : (s.setField k lo w x).sch = s.sch := rfl
@[simp] theorem State.setField_streams (k lo w x : Nat) : (s.setField k lo w x).streams = s.streams := rfl
@[simp] theorem State.setField_vid (k lo w x : Nat) : (s.setField k lo w x).vid = s.vid := rfl
@[simp] theorem State.setField_wake (k lo w x : Nat) : (s.setField k lo w x).wake = s.wake := rfl
@[simp] theorem State.setField_tth (k lo w x : Nat) : (s.setField k lo w x).tth = s.tth := rfl
@[simp] theorem State.setField_start (k lo w x : Nat) : (s.setField k lo w x).start = s.start := rfl
@[simp] theorem State.setField_node (k lo w x : Nat) : (s.setField k lo w x).node = s.node := rfl
@[simp] theorem State.setField_store (k lo w x : Nat) : (s.setField k lo w x).store = s.store := rfl
@[simp] theorem State.setField_pins (k lo w x : Nat) : (s.setField k lo w x).pins = s.pins := rfl
@[simp] theorem State.setField_acts (k lo w x : Nat) : (s.setField k lo w x).acts = s.acts := rfl

/-! ### count -/

@[simp] theorem State.count_pending (k n : Nat) : (s.count k n).pending = s.pending := rfl
@[simp] theorem State.count_fresh (k n : Nat) : (s.count k n).fresh = s.fresh := rfl
@[simp] theorem State.count_out (k n : Nat) : (s.count k n).out = s.out := rfl
@[simp] theorem State.count_dict (k n : Nat) : (s.count k n).dict = s.dict := rfl
@[simp] theorem State.count_dm (k n : Nat) : (s.count k n).dm = s.dm := rfl
@[simp] theorem State.count_log (k n : Nat) : (s.count k n).log = s.log := rfl
@[simp] theorem State.count_mem (k n : Nat) : (s.count k n).mem = s.mem := rfl
@[simp] theorem State.count_coil (k n : Nat) : (s.count k n).coil = s.coil := rfl
@[simp] theorem State.count_ibex (k n : Nat) : (s.count k n).ibex = s.ibex := rfl
@[simp] theorem State.count_hp (k n : Nat) : (s.count k n).hp = s.hp := rfl
@[simp] theorem State.count_sch (k n : Nat) : (s.count k n).sch = s.sch := rfl
@[simp] theorem State.count_streams (k n : Nat) : (s.count k n).streams = s.streams := rfl
@[simp] theorem State.count_vid (k n : Nat) : (s.count k n).vid = s.vid := rfl
@[simp] theorem State.count_wake (k n : Nat) : (s.count k n).wake = s.wake := rfl
@[simp] theorem State.count_tth (k n : Nat) : (s.count k n).tth = s.tth := rfl
@[simp] theorem State.count_start (k n : Nat) : (s.count k n).start = s.start := rfl
@[simp] theorem State.count_node (k n : Nat) : (s.count k n).node = s.node := rfl
@[simp] theorem State.count_store (k n : Nat) : (s.count k n).store = s.store := rfl
@[simp] theorem State.count_pins (k n : Nat) : (s.count k n).pins = s.pins := rfl
@[simp] theorem State.count_acts (k n : Nat) : (s.count k n).acts = s.acts := rfl

/-! ### dropRegs -/

@[simp] theorem State.dropRegs_pending (d : Nat → Bool) : (s.dropRegs d).pending = s.pending := rfl
@[simp] theorem State.dropRegs_fresh (d : Nat → Bool) : (s.dropRegs d).fresh = s.fresh := rfl
@[simp] theorem State.dropRegs_out (d : Nat → Bool) : (s.dropRegs d).out = s.out := rfl
@[simp] theorem State.dropRegs_dict (d : Nat → Bool) : (s.dropRegs d).dict = s.dict := rfl
@[simp] theorem State.dropRegs_dm (d : Nat → Bool) : (s.dropRegs d).dm = s.dm := rfl
@[simp] theorem State.dropRegs_log (d : Nat → Bool) : (s.dropRegs d).log = s.log := rfl
@[simp] theorem State.dropRegs_mem (d : Nat → Bool) : (s.dropRegs d).mem = s.mem := rfl
@[simp] theorem State.dropRegs_coil (d : Nat → Bool) : (s.dropRegs d).coil = s.coil := rfl
@[simp] theorem State.dropRegs_ibex (d : Nat → Bool) : (s.dropRegs d).ibex = s.ibex := rfl
@[simp] theorem State.dropRegs_hp (d : Nat → Bool) : (s.dropRegs d).hp = s.hp := rfl
@[simp] theorem State.dropRegs_sch (d : Nat → Bool) : (s.dropRegs d).sch = s.sch := rfl
@[simp] theorem State.dropRegs_streams (d : Nat → Bool) : (s.dropRegs d).streams = s.streams := rfl
@[simp] theorem State.dropRegs_vid (d : Nat → Bool) : (s.dropRegs d).vid = s.vid := rfl
@[simp] theorem State.dropRegs_wake (d : Nat → Bool) : (s.dropRegs d).wake = s.wake := rfl
@[simp] theorem State.dropRegs_tth (d : Nat → Bool) : (s.dropRegs d).tth = s.tth := rfl
@[simp] theorem State.dropRegs_start (d : Nat → Bool) : (s.dropRegs d).start = s.start := rfl
@[simp] theorem State.dropRegs_node (d : Nat → Bool) : (s.dropRegs d).node = s.node := rfl
@[simp] theorem State.dropRegs_store (d : Nat → Bool) : (s.dropRegs d).store = s.store := rfl
@[simp] theorem State.dropRegs_pins (d : Nat → Bool) : (s.dropRegs d).pins = s.pins := rfl
@[simp] theorem State.dropRegs_acts (d : Nat → Bool) : (s.dropRegs d).acts = s.acts := rfl

/-! ### setEntry -/

@[simp] theorem State.setEntry_pending (i j v : Nat) : (s.setEntry i j v).pending = s.pending := rfl
@[simp] theorem State.setEntry_fresh (i j v : Nat) : (s.setEntry i j v).fresh = s.fresh := rfl
@[simp] theorem State.setEntry_out (i j v : Nat) : (s.setEntry i j v).out = s.out := rfl
@[simp] theorem State.setEntry_dm (i j v : Nat) : (s.setEntry i j v).dm = s.dm := rfl
@[simp] theorem State.setEntry_regs (i j v : Nat) : (s.setEntry i j v).regs = s.regs := rfl
@[simp] theorem State.setEntry_log (i j v : Nat) : (s.setEntry i j v).log = s.log := rfl
@[simp] theorem State.setEntry_mem (i j v : Nat) : (s.setEntry i j v).mem = s.mem := rfl
@[simp] theorem State.setEntry_coil (i j v : Nat) : (s.setEntry i j v).coil = s.coil := rfl
@[simp] theorem State.setEntry_ibex (i j v : Nat) : (s.setEntry i j v).ibex = s.ibex := rfl
@[simp] theorem State.setEntry_hp (i j v : Nat) : (s.setEntry i j v).hp = s.hp := rfl
@[simp] theorem State.setEntry_sch (i j v : Nat) : (s.setEntry i j v).sch = s.sch := rfl
@[simp] theorem State.setEntry_streams (i j v : Nat) : (s.setEntry i j v).streams = s.streams := rfl
@[simp] theorem State.setEntry_vid (i j v : Nat) : (s.setEntry i j v).vid = s.vid := rfl
@[simp] theorem State.setEntry_wake (i j v : Nat) : (s.setEntry i j v).wake = s.wake := rfl
@[simp] theorem State.setEntry_tth (i j v : Nat) : (s.setEntry i j v).tth = s.tth := rfl
@[simp] theorem State.setEntry_start (i j v : Nat) : (s.setEntry i j v).start = s.start := rfl
@[simp] theorem State.setEntry_node (i j v : Nat) : (s.setEntry i j v).node = s.node := rfl
@[simp] theorem State.setEntry_store (i j v : Nat) : (s.setEntry i j v).store = s.store := rfl
@[simp] theorem State.setEntry_pins (i j v : Nat) : (s.setEntry i j v).pins = s.pins := rfl
@[simp] theorem State.setEntry_acts (i j v : Nat) : (s.setEntry i j v).acts = s.acts := rfl

/-! ### countEntry -/

@[simp] theorem State.countEntry_pending (i j n : Nat) : (s.countEntry i j n).pending = s.pending := rfl
@[simp] theorem State.countEntry_fresh (i j n : Nat) : (s.countEntry i j n).fresh = s.fresh := rfl
@[simp] theorem State.countEntry_out (i j n : Nat) : (s.countEntry i j n).out = s.out := rfl
@[simp] theorem State.countEntry_dm (i j n : Nat) : (s.countEntry i j n).dm = s.dm := rfl
@[simp] theorem State.countEntry_regs (i j n : Nat) : (s.countEntry i j n).regs = s.regs := rfl
@[simp] theorem State.countEntry_log (i j n : Nat) : (s.countEntry i j n).log = s.log := rfl
@[simp] theorem State.countEntry_mem (i j n : Nat) : (s.countEntry i j n).mem = s.mem := rfl
@[simp] theorem State.countEntry_coil (i j n : Nat) : (s.countEntry i j n).coil = s.coil := rfl
@[simp] theorem State.countEntry_ibex (i j n : Nat) : (s.countEntry i j n).ibex = s.ibex := rfl
@[simp] theorem State.countEntry_hp (i j n : Nat) : (s.countEntry i j n).hp = s.hp := rfl
@[simp] theorem State.countEntry_sch (i j n : Nat) : (s.countEntry i j n).sch = s.sch := rfl
@[simp] theorem State.countEntry_streams (i j n : Nat) : (s.countEntry i j n).streams = s.streams := rfl
@[simp] theorem State.countEntry_vid (i j n : Nat) : (s.countEntry i j n).vid = s.vid := rfl
@[simp] theorem State.countEntry_wake (i j n : Nat) : (s.countEntry i j n).wake = s.wake := rfl
@[simp] theorem State.countEntry_tth (i j n : Nat) : (s.countEntry i j n).tth = s.tth := rfl
@[simp] theorem State.countEntry_start (i j n : Nat) : (s.countEntry i j n).start = s.start := rfl
@[simp] theorem State.countEntry_node (i j n : Nat) : (s.countEntry i j n).node = s.node := rfl
@[simp] theorem State.countEntry_store (i j n : Nat) : (s.countEntry i j n).store = s.store := rfl
@[simp] theorem State.countEntry_pins (i j n : Nat) : (s.countEntry i j n).pins = s.pins := rfl
@[simp] theorem State.countEntry_acts (i j n : Nat) : (s.countEntry i j n).acts = s.acts := rfl

/-! ### dropEntries -/

@[simp] theorem State.dropEntries_pending (d : Nat → Bool) : (s.dropEntries d).pending = s.pending := rfl
@[simp] theorem State.dropEntries_fresh (d : Nat → Bool) : (s.dropEntries d).fresh = s.fresh := rfl
@[simp] theorem State.dropEntries_out (d : Nat → Bool) : (s.dropEntries d).out = s.out := rfl
@[simp] theorem State.dropEntries_dm (d : Nat → Bool) : (s.dropEntries d).dm = s.dm := rfl
@[simp] theorem State.dropEntries_regs (d : Nat → Bool) : (s.dropEntries d).regs = s.regs := rfl
@[simp] theorem State.dropEntries_log (d : Nat → Bool) : (s.dropEntries d).log = s.log := rfl
@[simp] theorem State.dropEntries_mem (d : Nat → Bool) : (s.dropEntries d).mem = s.mem := rfl
@[simp] theorem State.dropEntries_coil (d : Nat → Bool) : (s.dropEntries d).coil = s.coil := rfl
@[simp] theorem State.dropEntries_ibex (d : Nat → Bool) : (s.dropEntries d).ibex = s.ibex := rfl
@[simp] theorem State.dropEntries_hp (d : Nat → Bool) : (s.dropEntries d).hp = s.hp := rfl
@[simp] theorem State.dropEntries_sch (d : Nat → Bool) : (s.dropEntries d).sch = s.sch := rfl
@[simp] theorem State.dropEntries_streams (d : Nat → Bool) : (s.dropEntries d).streams = s.streams := rfl
@[simp] theorem State.dropEntries_vid (d : Nat → Bool) : (s.dropEntries d).vid = s.vid := rfl
@[simp] theorem State.dropEntries_wake (d : Nat → Bool) : (s.dropEntries d).wake = s.wake := rfl
@[simp] theorem State.dropEntries_tth (d : Nat → Bool) : (s.dropEntries d).tth = s.tth := rfl
@[simp] theorem State.dropEntries_start (d : Nat → Bool) : (s.dropEntries d).start = s.start := rfl
@[simp] theorem State.dropEntries_node (d : Nat → Bool) : (s.dropEntries d).node = s.node := rfl
@[simp] theorem State.dropEntries_store (d : Nat → Bool) : (s.dropEntries d).store = s.store := rfl
@[simp] theorem State.dropEntries_pins (d : Nat → Bool) : (s.dropEntries d).pins = s.pins := rfl
@[simp] theorem State.dropEntries_acts (d : Nat → Bool) : (s.dropEntries d).acts = s.acts := rfl

/-! ### dmPut -/

@[simp] theorem State.dmPut_pending (k o : Nat) (bs : List Byte) : (s.dmPut k o bs).pending = s.pending := rfl
@[simp] theorem State.dmPut_fresh (k o : Nat) (bs : List Byte) : (s.dmPut k o bs).fresh = s.fresh := rfl
@[simp] theorem State.dmPut_out (k o : Nat) (bs : List Byte) : (s.dmPut k o bs).out = s.out := rfl
@[simp] theorem State.dmPut_dict (k o : Nat) (bs : List Byte) : (s.dmPut k o bs).dict = s.dict := rfl
@[simp] theorem State.dmPut_regs (k o : Nat) (bs : List Byte) : (s.dmPut k o bs).regs = s.regs := rfl
@[simp] theorem State.dmPut_log (k o : Nat) (bs : List Byte) : (s.dmPut k o bs).log = s.log := rfl
@[simp] theorem State.dmPut_mem (k o : Nat) (bs : List Byte) : (s.dmPut k o bs).mem = s.mem := rfl
@[simp] theorem State.dmPut_coil (k o : Nat) (bs : List Byte) : (s.dmPut k o bs).coil = s.coil := rfl
@[simp] theorem State.dmPut_ibex (k o : Nat) (bs : List Byte) : (s.dmPut k o bs).ibex = s.ibex := rfl
@[simp] theorem State.dmPut_hp (k o : Nat) (bs : List Byte) : (s.dmPut k o bs).hp = s.hp := rfl
@[simp] theorem State.dmPut_sch (k o : Nat) (bs : List Byte) : (s.dmPut k o bs).sch = s.sch := rfl
@[simp] theorem State.dmPut_streams (k o : Nat) (bs : List Byte) : (s.dmPut k o bs).streams = s.streams := rfl
@[simp] theorem State.dmPut_vid (k o : Nat) (bs : List Byte) : (s.dmPut k o bs).vid = s.vid := rfl
@[simp] theorem State.dmPut_wake (k o : Nat) (bs : List Byte) : (s.dmPut k o bs).wake = s.wake := rfl
@[simp] theorem State.dmPut_tth (k o : Nat) (bs : List Byte) : (s.dmPut k o bs).tth = s.tth := rfl
@[simp] theorem State.dmPut_start (k o : Nat) (bs : List Byte) : (s.dmPut k o bs).start = s.start := rfl
@[simp] theorem State.dmPut_node (k o : Nat) (bs : List Byte) : (s.dmPut k o bs).node = s.node := rfl
@[simp] theorem State.dmPut_store (k o : Nat) (bs : List Byte) : (s.dmPut k o bs).store = s.store := rfl
@[simp] theorem State.dmPut_pins (k o : Nat) (bs : List Byte) : (s.dmPut k o bs).pins = s.pins := rfl
@[simp] theorem State.dmPut_acts (k o : Nat) (bs : List Byte) : (s.dmPut k o bs).acts = s.acts := rfl

/-! ### dmResult -/

@[simp] theorem State.dmResult_pending (k : Nat) (c : W16) (d : Bool) : (s.dmResult k c d).pending = s.pending := rfl
@[simp] theorem State.dmResult_fresh (k : Nat) (c : W16) (d : Bool) : (s.dmResult k c d).fresh = s.fresh := rfl
@[simp] theorem State.dmResult_out (k : Nat) (c : W16) (d : Bool) : (s.dmResult k c d).out = s.out := rfl
@[simp] theorem State.dmResult_dict (k : Nat) (c : W16) (d : Bool) : (s.dmResult k c d).dict = s.dict := rfl
@[simp] theorem State.dmResult_dm (k : Nat) (c : W16) (d : Bool) : (s.dmResult k c d).dm = s.dm := rfl
@[simp] theorem State.dmResult_log (k : Nat) (c : W16) (d : Bool) : (s.dmResult k c d).log = s.log := rfl
@[simp] theorem State.dmResult_mem (k : Nat) (c : W16) (d : Bool) : (s.dmResult k c d).mem = s.mem := rfl
@[simp] theorem State.dmResult_coil (k : Nat) (c : W16) (d : Bool) : (s.dmResult k c d).coil = s.coil := rfl
@[simp] theorem State.dmResult_ibex (k : Nat) (c : W16) (d : Bool) : (s.dmResult k c d).ibex = s.ibex := rfl
@[simp] theorem State.dmResult_hp (k : Nat) (c : W16) (d : Bool) : (s.dmResult k c d).hp = s.hp := rfl
@[simp] theorem State.dmResult_sch (k : Nat) (c : W16) (d : Bool) : (s.dmResult k c d).sch = s.sch := rfl
@[simp] theorem State.dmResult_streams (k : Nat) (c : W16) (d : Bool) : (s.dmResult k c d).streams = s.streams := rfl
@[simp] theorem State.dmResult_vid (k : Nat) (c : W16) (d : Bool) : (s.dmResult k c d).vid = s.vid := rfl
@[simp] theorem State.dmResult_wake (k : Nat) (c : W16) (d : Bool) : (s.dmResult k c d).wake = s.wake := rfl
@[simp] theorem State.dmResult_tth (k : Nat) (c : W16) (d : Bool) : (s.dmResult k c d).tth = s.tth := rfl
@[simp] theorem State.dmResult_start (k : Nat) (c : W16) (d : Bool) : (s.dmResult k c d).start = s.start := rfl
@[simp] theorem State.dmResult_node (k : Nat) (c : W16) (d : Bool) : (s.dmResult k c d).node = s.node := rfl
@[simp] theorem State.dmResult_store (k : Nat) (c : W16) (d : Bool) : (s.dmResult k c d).store = s.store := rfl
@[simp] theorem State.dmResult_pins (k : Nat) (c : W16) (d : Bool) : (s.dmResult k c d).pins = s.pins := rfl
@[simp] theorem State.dmResult_acts (k : Nat) (c : W16) (d : Bool) : (s.dmResult k c d).acts = s.acts := rfl

/-! ### send -/

@[simp] theorem State.send_pending (o : Out) : (s.send o).pending = s.pending := rfl
@[simp] theorem State.send_fresh (o : Out) : (s.send o).fresh = s.fresh := rfl
@[simp] theorem State.send_dict (o : Out) : (s.send o).dict = s.dict := rfl
@[simp] theorem State.send_dm (o : Out) : (s.send o).dm = s.dm := rfl
@[simp] theorem State.send_regs (o : Out) : (s.send o).regs = s.regs := rfl
@[simp] theorem State.send_log (o : Out) : (s.send o).log = s.log := rfl
@[simp] theorem State.send_mem (o : Out) : (s.send o).mem = s.mem := rfl
@[simp] theorem State.send_coil (o : Out) : (s.send o).coil = s.coil := rfl
@[simp] theorem State.send_ibex (o : Out) : (s.send o).ibex = s.ibex := rfl
@[simp] theorem State.send_hp (o : Out) : (s.send o).hp = s.hp := rfl
@[simp] theorem State.send_sch (o : Out) : (s.send o).sch = s.sch := rfl
@[simp] theorem State.send_streams (o : Out) : (s.send o).streams = s.streams := rfl
@[simp] theorem State.send_vid (o : Out) : (s.send o).vid = s.vid := rfl
@[simp] theorem State.send_wake (o : Out) : (s.send o).wake = s.wake := rfl
@[simp] theorem State.send_tth (o : Out) : (s.send o).tth = s.tth := rfl
@[simp] theorem State.send_start (o : Out) : (s.send o).start = s.start := rfl
@[simp] theorem State.send_node (o : Out) : (s.send o).node = s.node := rfl
@[simp] theorem State.send_store (o : Out) : (s.send o).store = s.store := rfl
@[simp] theorem State.send_pins (o : Out) : (s.send o).pins = s.pins := rfl
@[simp] theorem State.send_acts (o : Out) : (s.send o).acts = s.acts := rfl

/-! ### modFn -/

@[simp] theorem State.modFn_pending (k : Nat) (f : FnSt → FnSt) : (s.modFn k f).pending = s.pending := rfl
@[simp] theorem State.modFn_fresh (k : Nat) (f : FnSt → FnSt) : (s.modFn k f).fresh = s.fresh := rfl
@[simp] theorem State.modFn_out (k : Nat) (f : FnSt → FnSt) : (s.modFn k f).out = s.out := rfl
@[simp] theorem State.modFn_dict (k : Nat) (f : FnSt → FnSt) : (s.modFn k f).dict = s.dict := rfl
@[simp] theorem State.modFn_dm (k : Nat) (f : FnSt → FnSt) : (s.modFn k f).dm = s.dm := rfl
@[simp] theorem State.modFn_regs (k : Nat) (f : FnSt → FnSt) : (s.modFn k f).regs = s.regs := rfl
@[simp] theorem State.modFn_log (k : Nat) (f : FnSt → FnSt) : (s.modFn k f).log = s.log := rfl
@[simp] theorem State.modFn_mem (k : Nat) (f : FnSt → FnSt) : (s.modFn k f).mem = s.mem := rfl
@[simp] theorem State.modFn_coil (k : Nat) (f : FnSt → FnSt) : (s.modFn k f).coil = s.coil := rfl
@[simp] theorem State.modFn_ibex (k : Nat) (f : FnSt → FnSt) : (s.modFn k f).ibex = s.ibex := rfl
@[simp] theorem State.modFn_sch (k : Nat) (f : FnSt → FnSt) : (s.modFn k f).sch = s.sch := rfl
@[simp] theorem State.modFn_streams (k : Nat) (f : FnSt → FnSt) : (s.modFn k f).streams = s.streams := rfl
@[simp] theorem State.modFn_vid (k : Nat) (f : FnSt → FnSt) : (s.modFn k f).vid = s.vid := rfl
@[simp] theorem State.modFn_wake (k : Nat) (f : FnSt → FnSt) : (s.modFn k f).wake = s.wake := rfl
@[simp] theorem State.modFn_tth (k : Nat) (f : FnSt → FnSt) : (s.modFn k f).tth = s.tth := rfl
@[simp] theorem State.modFn_start (k : Nat) (f : FnSt → FnSt) : (s.modFn k f).start = s.start := rfl
@[simp] theorem State.modFn_node (k : Nat) (f : FnSt → FnSt) : (s.modFn k f).node = s.node := rfl
@[simp] theorem State.modFn_store (k : Nat) (f : FnSt → FnSt) : (s.modFn k f).store = s.store := rfl
@[simp] theorem State.modFn_pins (k : Nat) (f : FnSt → FnSt) : (s.modFn k f).pins = s.pins := rfl
@[simp] theorem State.modFn_acts (k : Nat) (f : FnSt → FnSt) : (s.modFn k f).acts = s.acts := rfl

/-! ### setIb -/

@[simp] theorem State.setIb_pending (n : Nat) (i : Ibex) : (s.setIb n i).pending = s.pending := rfl
@[simp] theorem State.setIb_fresh (n : Nat) (i : Ibex) : (s.setIb n i).fresh = s.fresh := rfl
@[simp] theorem State.setIb_out (n : Nat) (i : Ibex) : (s.setIb n i).out = s.out := rfl
@[simp] theorem State.setIb_dict (n : Nat) (i : Ibex) : (s.setIb n i).dict = s.dict := rfl
@[simp] theorem State.setIb_dm (n : Nat) (i : Ibex) : (s.setIb n i).dm = s.dm := rfl
@[simp] theorem State.setIb_regs (n : Nat) (i : Ibex) : (s.setIb n i).regs = s.regs := rfl
@[simp] theorem State.setIb_log (n : Nat) (i : Ibex) : (s.setIb n i).log = s.log := rfl
@[simp] theorem State.setIb_mem (n : Nat) (i : Ibex) : (s.setIb n i).mem = s.mem := rfl
@[simp] theorem State.setIb_coil (n : Nat) (i : Ibex) : (s.setIb n i).coil = s.coil := rfl
@[simp] theorem State.setIb_hp (n : Nat) (i : Ibex) : (s.setIb n i).hp = s.hp := rfl
@[simp] theorem State.setIb_sch (n : Nat) (i : Ibex) : (s.setIb n i).sch = s.sch := rfl
@[simp] theorem State.setIb_streams (n : Nat) (i : Ibex) : (s.setIb n i).streams = s.streams := rfl
@[simp] theorem State.setIb_vid (n : Nat) (i : Ibex) : (s.setIb n i).vid = s.vid := rfl
@[simp] theorem State.setIb_wake (n : Nat) (i : Ibex) : (s.setIb n i).wake = s.wake := rfl
@[simp] theorem State.setIb_tth (n : Nat) (i : Ibex) : (s.setIb n i).tth = s.tth := rfl
@[simp] theorem State.setIb_start (n : Nat) (i : Ibex) : (s.setIb n i).start = s.start := rfl
@[simp] theorem State.setIb_node (n : Nat) (i : Ibex) : (s.setIb n i).node = s.node := rfl
@[simp] theorem State.setIb_store (n : Nat) (i : Ibex) : (s.setIb n i).store = s.store := rfl
@[simp] theorem State.setIb_pins (n : Nat) (i : Ibex) : (s.setIb n i).pins = s.pins := rfl
@[simp] theorem State.setIb_acts (n : Nat) (i : Ibex) : (s.setIb n i).acts = s.acts := rfl

/-! ### modIb -/

@[simp] theorem State.modIb_pending (n : Nat) (f : Ibex → Ibex) : (s.modIb n f).pending = s.pending := rfl
@[simp] theorem State.modIb_fresh (n : Nat) (f : Ibex → Ibex) : (s.modIb n f).fresh = s.fresh := rfl
@[simp] theorem State.modIb_out (n : Nat) (f : Ibex → Ibex) : (s.modIb n f).out = s.out := rfl
@[simp] theorem State.modIb_dict (n : Nat) (f : Ibex → Ibex) : (s.modIb n f).dict = s.dict := rfl
@[simp] theorem State.modIb_dm (n : Nat) (f : Ibex → Ibex) : (s.modIb n f).dm = s.dm := rfl
@[simp] theorem State.modIb_regs (n : Nat) (f : Ibex → Ibex) : (s.modIb n f).regs = s.regs := rfl
@[simp] theorem State.modIb_log (n : Nat) (f : Ibex → Ibex) : (s.modIb n f).log = s.log := rfl
@[simp] theorem State.modIb_mem (n : Nat) (f : Ibex → Ibex) : (s.modIb n f).mem = s.mem := rfl
@[simp] theorem State.modIb_coil (n : Nat) (f : Ibex → Ibex) : (s.modIb n f).coil = s.coil := rfl
@[simp] theorem State.modIb_hp (n : Nat) (f : Ibex → Ibex) : (s.modIb n f).hp = s.hp := rfl
@[simp] theorem State.modIb_sch (n : Nat) (f : Ibex → Ibex) : (s.modIb n f).sch = s.sch := rfl
@[simp] theorem State.modIb_streams (n : Nat) (f : Ibex → Ibex) : (s.modIb n f).streams = s.streams := rfl
@[simp] theorem State.modIb_vid (n : Nat) (f : Ibex → Ibex) : (s.modIb n f).vid = s.vid := rfl
@[simp] theorem State.modIb_wake (n : Nat) (f : Ibex → Ibex) : (s.modIb n f).wake = s.wake := rfl
@[simp] theorem State.modIb_tth (n : Nat) (f : Ibex → Ibex) : (s.modIb n f).tth = s.tth := rfl
@[simp] theorem State.modIb_start (n : Nat) (f : Ibex → Ibex) : (s.modIb n f).start = s.start := rfl
@[simp] theorem State.modIb_node (n : Nat) (f : Ibex → Ibex) : (s.modIb n f).node = s.node := rfl
@[simp] theorem State.modIb_store (n : Nat) (f : Ibex → Ibex) : (s.modIb n f).store = s.store := rfl
@[simp] theorem State.modIb_pins (n : Nat) (f : Ibex → Ibex) : (s.modIb n f).pins = s.pins := rfl
@[simp] theorem State.modIb_acts (n : Nat) (f : Ibex → Ibex) : (s.modIb n f).acts = s.acts := rfl

/-! ### setStream -/

@[simp] theorem State.setStream_pending (n : Nat) (x : Stream) : (s.setStream n x).pending = s.pending := rfl
@[simp] theorem State.setStream_fresh (n : Nat) (x : Stream) : (s.setStream n x).fresh = s.fresh := rfl
@[simp] theorem State.setStream_out (n : Nat) (x : Stream) : (s.setStream n x).out = s.out := rfl
@[simp] theorem State.setStream_dict (n : Nat) (x : Stream) : (s.setStream n x).dict = s.dict := rfl
@[simp] theorem State.setStream_dm (n : Nat) (x : Stream) : (s.setStream n x).dm = s.dm := rfl
@[simp] theorem State.setStream_regs (n : Nat) (x : Stream) : (s.setStream n x).regs = s.regs := rfl
@[simp] theorem State.setStream_log (n : Nat) (x : Stream) : (s.setStream n x).log = s.log := rfl
@[simp] theorem State.setStream_mem (n : Nat) (x : Stream) : (s.setStream n x).mem = s.mem := rfl
@[simp] theorem State.setStream_coil (n : Nat) (x : Stream) : (s.setStream n x).coil = s.coil := rfl
@[simp] theorem State.setStream_ibex (n : Nat) (x : Stream) : (s.setStream n x).ibex = s.ibex := rfl
@[simp] theorem State.setStream_hp (n : Nat) (x : Stream) : (s.setStream n x).hp = s.hp := rfl
@[simp] theorem State.setStream_sch (n : Nat) (x : Stream) : (s.setStream n x).sch = s.sch := rfl
@[simp] theorem State.setStream_vid (n : Nat) (x : Stream) : (s.setStream n x).vid = s.vid := rfl
@[simp] theorem State.setStream_wake (n : Nat) (x : Stream) : (s.setStream n x).wake = s.wake := rfl
@[simp] theorem State.setStream_tth (n : Nat) (x : Stream) : (s.setStream n x).tth = s.tth := rfl
@[simp] theorem State.setStream_start (n : Nat) (x : Stream) : (s.setStream n x).start = s.start := rfl
@[simp] theorem State.setStream_node (n : Nat) (x : Stream) : (s.setStream n x).node = s.node := rfl
@[simp] theorem State.setStream_store (n : Nat) (x : Stream) : (s.setStream n x).store = s.store := rfl
@[simp] theorem State.setStream_pins (n : Nat) (x : Stream) : (s.setStream n x).pins = s.pins := rfl
@[simp] theorem State.setStream_acts (n : Nat) (x : Stream) : (s.setStream n x).acts = s.acts := rfl

/-! ### modStream -/

@[simp] theorem State.modStream_pending (n : Nat) (f : Stream → Stream) : (s.modStream n f).pending = s.pending := rfl
@[simp] theorem State.modStream_fresh (n : Nat) (f : Stream → Stream) : (s.modStream n f).fresh = s.fresh := rfl
@[simp] theorem State.modStream_out (n : Nat) (f : Stream → Stream) : (s.modStream n f).out = s.out := rfl
@[simp] theorem State.modStream_dict (n : Nat) (f : Stream → Stream) : (s.modStream n f).dict = s.dict := rfl
@[simp] theorem State.modStream_dm (n : Nat) (f : Stream → Stream) : (s.modStream n f).dm = s.dm := rfl
@[simp] theorem State.modStream_regs (n : Nat) (f : Stream → Stream) : (s.modStream n f).regs = s.regs := rfl
@[simp] theorem State.modStream_log (n : Nat) (f : Stream → Stream) : (s.modStream n f).log = s.log := rfl
@[simp] theorem State.modStream_mem (n : Nat) (f : Stream → Stream) : (s.modStream n f).mem = s.mem := rfl
@[simp] theorem State.modStream_coil (n : Nat) (f : Stream → Stream) : (s.modStream n f).coil = s.coil := rfl
@[simp] theorem State.modStream_ibex (n : Nat) (f : Stream → Stream) : (s.modStream n f).ibex = s.ibex := rfl
@[simp] theorem State.modStream_hp (n : Nat) (f : Stream → Stream) : (s.modStream n f).hp = s.hp := rfl
@[simp] theorem State.modStream_sch (n : Nat) (f : Stream → Stream) : (s.modStream n f).sch = s.sch := rfl
@[simp] theorem State.modStream_vid (n : Nat) (f : Stream → Stream) : (s.modStream n f).vid = s.vid := rfl
@[simp] theorem State.modStream_wake (n : Nat) (f : Stream → Stream) : (s.modStream n f).wake = s.wake := rfl
@[simp] theorem State.modStream_tth (n : Nat) (f : Stream → Stream) : (s.modStream n f).tth = s.tth := rfl
@[simp] theorem State.modStream_start (n : Nat) (f : Stream → Stream) : (s.modStream n f).start = s.start := rfl
@[simp] theorem State.modStream_node (n : Nat) (f : Stream → Stream) : (s.modStream n f).node = s.node := rfl
@[simp] theorem State.modStream_store (n : Nat) (f : Stream → Stream) : (s.modStream n f).store = s.store := rfl
@[simp] theorem State.modStream_pins (n : Nat) (f : Stream → Stream) : (s.modStream n f).pins = s.pins := rfl
@[simp] theorem State.modStream_acts (n : Nat) (f : Stream → Stream) : (s.modStream n f).acts = s.acts := rfl

/-! ### setQueue -/

@[simp] theorem State.setQueue_pending (q : Nat) (x : Queue) : (s.setQueue q x).pending = s.pending := rfl
@[simp] theorem State.setQueue_fresh (q : Nat) (x : Queue) : (s.setQueue q x).fresh = s.fresh := rfl
@[simp] theorem State.setQueue_out (q : Nat) (x : Queue) : (s.setQueue q x).out = s.out := rfl
@[simp] theorem State.setQueue_dict (q : Nat) (x : Queue) : (s.setQueue q x).dict = s.dict := rfl
@[simp] theorem State.setQueue_dm (q : Nat) (x : Queue) : (s.setQueue q x).dm = s.dm := rfl
@[simp] theorem State.setQueue_regs (q : Nat) (x : Queue) : (s.setQueue q x).regs = s.regs := rfl
@[simp] theorem State.setQueue_log (q : Nat) (x : Queue) : (s.setQueue q x).log = s.log := rfl
@[simp] theorem State.setQueue_mem (q : Nat) (x : Queue) : (s.setQueue q x).mem = s.mem := rfl
@[simp] theorem State.setQueue_coil (q : Nat) (x : Queue) : (s.setQueue q x).coil = s.coil := rfl
@[simp] theorem State.setQueue_ibex (q : Nat) (x : Queue) : (s.setQueue q x).ibex = s.ibex := rfl
@[simp] theorem State.setQueue_hp (q : Nat) (x : Queue) : (s.setQueue q x).hp = s.hp := rfl
@[simp] theorem State.setQueue_streams (q : Nat) (x : Queue) : (s.setQueue q x).streams = s.streams := rfl
@[simp] theorem State.setQueue_vid (q : Nat) (x : Queue) : (s.setQueue q x).vid = s.vid := rfl
@[simp] theorem State.setQueue_wake (q : Nat) (x : Queue) : (s.setQueue q x).wake = s.wake := rfl
@[simp] theorem State.setQueue_tth (q : Nat) (x : Queue) : (s.setQueue q x).tth = s.tth := rfl
@[simp] theorem State.setQueue_start (q : Nat) (x : Queue) : (s.setQueue q x).start = s.start := rfl
@[simp] theorem State.setQueue_node (q : Nat) (x : Queue) : (s.setQueue q x).node = s.node := rfl
@[simp] theorem State.setQueue_store (q : Nat) (x : Queue) : (s.setQueue q x).store = s.store := rfl
@[simp] theorem State.setQueue_pins (q : Nat) (x : Queue) : (s.setQueue q x).pins = s.pins := rfl
@[simp] theorem State.setQueue_acts (q : Nat) (x : Queue) : (s.setQueue q x).acts = s.acts := rfl

/-! ### setStep -/

@[simp] theorem State.setStep_pending (q : Nat) (x : Option Step) : (s.setStep q x).pending = s.pending := rfl
@[simp] theorem State.setStep_fresh (q : Nat) (x : Option Step) : (s.setStep q x).fresh = s.fresh := rfl
@[simp] theorem State.setStep_out (q : Nat) (x : Option Step) : (s.setStep q x).out = s.out := rfl
@[simp] theorem State.setStep_dict (q : Nat) (x : Option Step) : (s.setStep q x).dict = s.dict := rfl
@[simp] theorem State.setStep_dm (q : Nat) (x : Option Step) : (s.setStep q x).dm = s.dm := rfl
@[simp] theorem State.setStep_regs (q : Nat) (x : Option Step) : (s.setStep q x).regs = s.regs := rfl
@[simp] theorem State.setStep_log (q : Nat) (x : Option Step) : (s.setStep q x).log = s.log := rfl
@[simp] theorem State.setStep_mem (q : Nat) (x : Option Step) : (s.setStep q x).mem = s.mem := rfl
@[simp] theorem State.setStep_coil (q : Nat) (x : Option Step) : (s.setStep q x).coil = s.coil := rfl
@[simp] theorem State.setStep_ibex (q : Nat) (x : Option Step) : (s.setStep q x).ibex = s.ibex := rfl
@[simp] theorem State.setStep_hp (q : Nat) (x : Option Step) : (s.setStep q x).hp = s.hp := rfl
@[simp] theorem State.setStep_streams (q : Nat) (x : Option Step) : (s.setStep q x).streams = s.streams := rfl
@[simp] theorem State.setStep_vid (q : Nat) (x : Option Step) : (s.setStep q x).vid = s.vid := rfl
@[simp] theorem State.setStep_wake (q : Nat) (x : Option Step) : (s.setStep q x).wake = s.wake := rfl
@[simp] theorem State.setStep_tth (q : Nat) (x : Option Step) : (s.setStep q x).tth = s.tth := rfl
@[simp] theorem State.setStep_start (q : Nat) (x : Option Step) : (s.setStep q x).start = s.start := rfl
@[simp] theorem State.setStep_node (q : Nat) (x : Option Step) : (s.setStep q x).node = s.node := rfl
@[simp] theorem State.setStep_store (q : Nat) (x : Option Step) : (s.setStep q x).store = s.store := rfl
@[simp] theorem State.setStep_pins (q : Nat) (x : Option Step) : (s.setStep q x).pins = s.pins := rfl
@[simp] theorem State.setStep_acts (q : Nat) (x : Option Step) : (s.setStep q x).acts = s.acts := rfl

/-! ### modStep -/

@[simp] theorem State.modStep_pending (q : Nat) (f : Step → Step) : (s.modStep q f).pending = s.pending := rfl
@[simp] theorem State.modStep_fresh (q : Nat) (f : Step → Step) : (s.modStep q f).fresh = s.fresh := rfl
@[simp] theorem State.modStep_out (q : Nat) (f : Step → Step) : (s.modStep q f).out = s.out := rfl
@[simp] theorem State.modStep_dict (q : Nat) (f : Step → Step) : (s.modStep q f).dict = s.dict := rfl
@[simp] theorem State.modStep_dm (q : Nat) (f : Step → Step) : (s.modStep q f).dm = s.dm := rfl
@[simp] theorem State.modStep_regs (q : Nat) (f : Step → Step) : (s.modStep q f).regs = s.regs := rfl
@[simp] theorem State.modStep_log (q : Nat) (f : Step → Step) : (s.modStep q f).log = s.log := rfl
@[simp] theorem State.modStep_mem (q : Nat) (f : Step → Step) : (s.modStep q f).mem = s.mem := rfl
@[simp] theorem State.modStep_coil (q : Nat) (f : Step → Step) : (s.modStep q f).coil = s.coil := rfl
@[simp] theorem State.modStep_ibex (q : Nat) (f : Step → Step) : (s.modStep q f).ibex = s.ibex := rfl
@[simp] theorem State.modStep_hp (q : Nat) (f : Step → Step) : (s.modStep q f).hp = s.hp := rfl
@[simp] theorem State.modStep_streams (q : Nat) (f : Step → Step) : (s.modStep q f).streams = s.streams := rfl
@[simp] theorem State.modStep_vid (q : Nat) (f : Step → Step) : (s.modStep q f).vid = s.vid := rfl
@[simp] theorem State.modStep_wake (q : Nat) (f : Step → Step) : (s.modStep q f).wake = s.wake := rfl
@[simp] theorem State.modStep_tth (q : Nat) (f : Step → Step) : (s.modStep q f).tth = s.tth := rfl
@[simp] theorem State.modStep_start (q : Nat) (f : Step → Step) : (s.modStep q f).start = s.start := rfl
@[simp] theorem State.modStep_node (q : Nat) (f : Step → Step) : (s.modStep q f).node = s.node := rfl
@[simp] theorem State.modStep_store (q : Nat) (f : Step → Step) : (s.modStep q f).store = s.store := rfl
@[simp] theorem State.modStep_pins (q : Nat) (f : Step → Step) : (s.modStep q f).pins = s.pins := rfl
@[simp] theorem State.modStep_acts (q : Nat) (f : Step → Step) : (s.modStep q f).acts = s.acts := rfl

/-! ### setHitch -/

@[simp] theorem State.setHitch_pending (k : Nat) (h : Hitch) : (s.setHitch k h).pending = s.pending := rfl
@[simp] theorem State.setHitch_fresh (k : Nat) (h : Hitch) : (s.setHitch k h).fresh = s.fresh := rfl
@[simp] theorem State.setHitch_out (k : Nat) (h : Hitch) : (s.setHitch k h).out = s.out := rfl
@[simp] theorem State.setHitch_dict (k : Nat) (h : Hitch) : (s.setHitch k h).dict = s.dict := rfl
@[simp] theorem State.setHitch_dm (k : Nat) (h : Hitch) : (s.setHitch k h).dm = s.dm := rfl
@[simp] theorem State.setHitch_regs (k : Nat) (h : Hitch) : (s.setHitch k h).regs = s.regs := rfl
@[simp] theorem State.setHitch_log (k : Nat) (h : Hitch) : (s.setHitch k h).log = s.log := rfl
@[simp] theorem State.setHitch_mem (k : Nat) (h : Hitch) : (s.setHitch k h).mem = s.mem := rfl
@[simp] theorem State.setHitch_coil (k : Nat) (h : Hitch) : (s.setHitch k h).coil = s.coil := rfl
@[simp] theorem State.setHitch_ibex (k : Nat) (h : Hitch) : (s.setHitch k h).ibex = s.ibex := rfl
@[simp] theorem State.setHitch_hp (k : Nat) (h : Hitch) : (s.setHitch k h).hp = s.hp := rfl
@[simp] theorem State.setHitch_streams (k : Nat) (h : Hitch) : (s.setHitch k h).streams = s.streams := rfl
@[simp] theorem State.setHitch_vid (k : Nat) (h : Hitch) : (s.setHitch k h).vid = s.vid := rfl
@[simp] theorem State.setHitch_wake (k : Nat) (h : Hitch) : (s.setHitch k h).wake = s.wake := rfl
@[simp] theorem State.setHitch_tth (k : Nat) (h : Hitch) : (s.setHitch k h).tth = s.tth := rfl
@[simp] theorem State.setHitch_start (k : Nat) (h : Hitch) : (s.setHitch k h).start = s.start := rfl
@[simp] theorem State.setHitch_node (k : Nat) (h : Hitch) : (s.setHitch k h).node = s.node := rfl
@[simp] theorem State.setHitch_store (k : Nat) (h : Hitch) : (s.setHitch k h).store = s.store := rfl
@[simp] theorem State.setHitch_pins (k : Nat) (h : Hitch) : (s.setHitch k h).pins = s.pins := rfl
@[simp] theorem State.setHitch_acts (k : Nat) (h : Hitch) : (s.setHitch k h).acts = s.acts := rfl

/-! ### setCtxSt -/

@[simp] theorem State.setCtxSt_pending (c : Nat) (x : CtxSt) : (s.setCtxSt c x).pending = s.pending := rfl
@[simp] theorem State.setCtxSt_fresh (c : Nat) (x : CtxSt) : (s.setCtxSt c x).fresh = s.fresh := rfl
@[simp] theorem State.setCtxSt_out (c : Nat) (x : CtxSt) : (s.setCtxSt c x).out = s.out := rfl
@[simp] theorem State.setCtxSt_dict (c : Nat) (x : CtxSt) : (s.setCtxSt c x).dict = s.dict := rfl
@[simp] theorem State.setCtxSt_dm (c : Nat) (x : CtxSt) : (s.setCtxSt c x).dm = s.dm := rfl
@[simp] theorem State.setCtxSt_regs (c : Nat) (x : CtxSt) : (s.setCtxSt c x).regs = s.regs := rfl
@[simp] theorem State.setCtxSt_log (c : Nat) (x : CtxSt) : (s.setCtxSt c x).log = s.log := rfl
@[simp] theorem State.setCtxSt_mem (c : Nat) (x : CtxSt) : (s.setCtxSt c x).mem = s.mem := rfl
@[simp] theorem State.setCtxSt_coil (c : Nat) (x : CtxSt) : (s.setCtxSt c x).coil = s.coil := rfl
@[simp] theorem State.setCtxSt_ibex (c : Nat) (x : CtxSt) : (s.setCtxSt c x).ibex = s.ibex := rfl
@[simp] theorem State.setCtxSt_hp (c : Nat) (x : CtxSt) : (s.setCtxSt c x).hp = s.hp := rfl
@[simp] theorem State.setCtxSt_streams (c : Nat) (x : CtxSt) : (s.setCtxSt c x).streams = s.streams := rfl
@[simp] theorem State.setCtxSt_vid (c : Nat) (x : CtxSt) : (s.setCtxSt c x).vid = s.vid := rfl
@[simp] theorem State.setCtxSt_wake (c : Nat) (x : CtxSt) : (s.setCtxSt c x).wake = s.wake := rfl
@[simp] theorem State.setCtxSt_tth (c : Nat) (x : CtxSt) : (s.setCtxSt c x).tth = s.tth := rfl
@[simp] theorem State.setCtxSt_start (c : Nat) (x : CtxSt) : (s.setCtxSt c x).start = s.start := rfl
@[simp] theorem State.setCtxSt_node (c : Nat) (x : CtxSt) : (s.setCtxSt c x).node = s.node := rfl
@[simp] theorem State.setCtxSt_store (c : Nat) (x : CtxSt) : (s.setCtxSt c x).store = s.store := rfl
@[simp] theorem State.setCtxSt_pins (c : Nat) (x : CtxSt) : (s.setCtxSt c x).pins = s.pins := rfl
@[simp] theorem State.setCtxSt_acts (c : Nat) (x : CtxSt) : (s.setCtxSt c x).acts = s.acts := rfl

/-! ### timeIs -/

@[simp] theorem State.timeIs_pending (t : Nat) : (s.timeIs t).pending = s.pending := rfl
@[simp] theorem State.timeIs_fresh (t : Nat) : (s.timeIs t).fresh = s.fresh := rfl
@[simp] theorem State.timeIs_out (t : Nat) : (s.timeIs t).out = s.out := rfl
@[simp] theorem State.timeIs_dict (t : Nat) : (s.timeIs t).dict = s.dict := rfl
@[simp] theorem State.timeIs_dm (t : Nat) : (s.timeIs t).dm = s.dm := rfl
@[simp] theorem State.timeIs_regs (t : Nat) : (s.timeIs t).regs = s.regs := rfl
@[simp] theorem State.timeIs_log (t : Nat) : (s.timeIs t).log = s.log := rfl
@[simp] theorem State.timeIs_mem (t : Nat) : (s.timeIs t).mem = s.mem := rfl
@[simp] theorem State.timeIs_coil (t : Nat) : (s.timeIs t).coil = s.coil := rfl
@[simp] theorem State.timeIs_ibex (t : Nat) : (s.timeIs t).ibex = s.ibex := rfl
@[simp] theorem State.timeIs_hp (t : Nat) : (s.timeIs t).hp = s.hp := rfl
@[simp] theorem State.timeIs_streams (t : Nat) : (s.timeIs t).streams = s.streams := rfl
@[simp] theorem State.timeIs_vid (t : Nat) : (s.timeIs t).vid = s.vid := rfl
@[simp] theorem State.timeIs_wake (t : Nat) : (s.timeIs t).wake = s.wake := rfl
@[simp] theorem State.timeIs_tth (t : Nat) : (s.timeIs t).tth = s.tth := rfl
@[simp] theorem State.timeIs_start (t : Nat) : (s.timeIs t).start = s.start := rfl
@[simp] theorem State.timeIs_node (t : Nat) : (s.timeIs t).node = s.node := rfl
@[simp] theorem State.timeIs_store (t : Nat) : (s.timeIs t).store = s.store := rfl
@[simp] theorem State.timeIs_pins (t : Nat) : (s.timeIs t).pins = s.pins := rfl
@[simp] theorem State.timeIs_acts (t : Nat) : (s.timeIs t).acts = s.acts := rfl

/-! ### setBuf -/

@[simp] theorem State.setBuf_pending (n k : Nat) (b : Buf) : (s.setBuf n k b).pending = s.pending := rfl
@[simp] theorem State.setBuf_fresh (n k : Nat) (b : Buf) : (s.setBuf n k b).fresh = s.fresh := rfl
@[simp] theorem State.setBuf_out (n k : Nat) (b : Buf) : (s.setBuf n k b).out = s.out := rfl
@[simp] theorem State.setBuf_dict (n k : Nat) (b : Buf) : (s.setBuf n k b).dict = s.dict := rfl
@[simp] theorem State.setBuf_dm (n k : Nat) (b : Buf) : (s.setBuf n k b).dm = s.dm := rfl
@[simp] theorem State.setBuf_regs (n k : Nat) (b : Buf) : (s.setBuf n k b).regs = s.regs := rfl
@[simp] theorem State.setBuf_log (n k : Nat) (b : Buf) : (s.setBuf n k b).log = s.log := rfl
@[simp] theorem State.setBuf_mem (n k : Nat) (b : Buf) : (s.setBuf n k b).mem = s.mem := rfl
@[simp] theorem State.setBuf_ibex (n k : Nat) (b : Buf) : (s.setBuf n k b).ibex = s.ibex := rfl
@[simp] theorem State.setBuf_hp (n k : Nat) (b : Buf) : (s.setBuf n k b).hp = s.hp := rfl
@[simp] theorem State.setBuf_sch (n k : Nat) (b : Buf) : (s.setBuf n k b).sch = s.sch := rfl
@[simp] theorem State.setBuf_streams (n k : Nat) (b : Buf) : (s.setBuf n k b).streams = s.streams := rfl
@[simp] theorem State.setBuf_vid (n k : Nat) (b : Buf) : (s.setBuf n k b).vid = s.vid := rfl
@[simp] theorem State.setBuf_wake (n k : Nat) (b : Buf) : (s.setBuf n k b).wake = s.wake := rfl
@[simp] theorem State.setBuf_tth (n k : Nat) (b : Buf) : (s.setBuf n k b).tth = s.tth := rfl
@[simp] theorem State.setBuf_start (n k : Nat) (b : Buf) : (s.setBuf n k b).start = s.start := rfl
@[simp] theorem State.setBuf_node (n k : Nat) (b : Buf) : (s.setBuf n k b).node = s.node := rfl
@[simp] theorem State.setBuf_store (n k : Nat) (b : Buf) : (s.setBuf n k b).store = s.store := rfl
@[simp] theorem State.setBuf_pins (n k : Nat) (b : Buf) : (s.setBuf n k b).pins = s.pins := rfl
@[simp] theorem State.setBuf_acts (n k : Nat) (b : Buf) : (s.setBuf n k b).acts = s.acts := rfl

/-! ### setResv -/

@[simp] theorem State.setResv_pending (o n v : Nat) : (s.setResv o n v).pending = s.pending := rfl
@[simp] theorem State.setResv_fresh (o n v : Nat) : (s.setResv o n v).fresh = s.fresh := rfl
@[simp] theorem State.setResv_out (o n v : Nat) : (s.setResv o n v).out = s.out := rfl
@[simp] theorem State.setResv_dict (o n v : Nat) : (s.setResv o n v).dict = s.dict := rfl
@[simp] theorem State.setResv_dm (o n v : Nat) : (s.setResv o n v).dm = s.dm := rfl
@[simp] theorem State.setResv_regs (o n v : Nat) : (s.setResv o n v).regs = s.regs := rfl
@[simp] theorem State.setResv_log (o n v : Nat) : (s.setResv o n v).log = s.log := rfl
@[simp] theorem State.setResv_mem (o n v : Nat) : (s.setResv o n v).mem = s.mem := rfl
@[simp] theorem State.setResv_ibex (o n v : Nat) : (s.setResv o n v).ibex = s.ibex := rfl
@[simp] theorem State.setResv_hp (o n v : Nat) : (s.setResv o n v).hp = s.hp := rfl
@[simp] theorem State.setResv_sch (o n v : Nat) : (s.setResv o n v).sch = s.sch := rfl
@[simp] theorem State.setResv_streams (o n v : Nat) : (s.setResv o n v).streams = s.streams := rfl
@[simp] theorem State.setResv_vid (o n v : Nat) : (s.setResv o n v).vid = s.vid := rfl
@[simp] theorem State.setResv_wake (o n v : Nat) : (s.setResv o n v).wake = s.wake := rfl
@[simp] theorem State.setResv_tth (o n v : Nat) : (s.setResv o n v).tth = s.tth := rfl
@[simp] theorem State.setResv_start (o n v : Nat) : (s.setResv o n v).start = s.start := rfl
@[simp] theorem State.setResv_node (o n v : Nat) : (s.setResv o n v).node = s.node := rfl
@[simp] theorem State.setResv_store (o n v : Nat) : (s.setResv o n v).store = s.store := rfl
@[simp] theorem State.setResv_pins (o n v : Nat) : (s.setResv o n v).pins = s.pins := rfl
@[simp] theorem State.setResv_acts (o n v : Nat) : (s.setResv o n v).acts = s.acts := rfl

/-! ### setEe -/

@[simp] theorem State.setEe_pending (e : Nat) (j : Option EeJob) : (s.setEe e j).pending = s.pending := rfl
@[simp] theorem State.setEe_fresh (e : Nat) (j : Option EeJob) : (s.setEe e j).fresh = s.fresh := rfl
@[simp] theorem State.setEe_out (e : Nat) (j : Option EeJob) : (s.setEe e j).out = s.out := rfl
@[simp] theorem State.setEe_dict (e : Nat) (j : Option EeJob) : (s.setEe e j).dict = s.dict := rfl
@[simp] theorem State.setEe_dm (e : Nat) (j : Option EeJob) : (s.setEe e j).dm = s.dm := rfl
@[simp] theorem State.setEe_regs (e : Nat) (j : Option EeJob) : (s.setEe e j).regs = s.regs := rfl
@[simp] theorem State.setEe_log (e : Nat) (j : Option EeJob) : (s.setEe e j).log = s.log := rfl
@[simp] theorem State.setEe_mem (e : Nat) (j : Option EeJob) : (s.setEe e j).mem = s.mem := rfl
@[simp] theorem State.setEe_coil (e : Nat) (j : Option EeJob) : (s.setEe e j).coil = s.coil := rfl
@[simp] theorem State.setEe_ibex (e : Nat) (j : Option EeJob) : (s.setEe e j).ibex = s.ibex := rfl
@[simp] theorem State.setEe_hp (e : Nat) (j : Option EeJob) : (s.setEe e j).hp = s.hp := rfl
@[simp] theorem State.setEe_sch (e : Nat) (j : Option EeJob) : (s.setEe e j).sch = s.sch := rfl
@[simp] theorem State.setEe_streams (e : Nat) (j : Option EeJob) : (s.setEe e j).streams = s.streams := rfl
@[simp] theorem State.setEe_wake (e : Nat) (j : Option EeJob) : (s.setEe e j).wake = s.wake := rfl
@[simp] theorem State.setEe_tth (e : Nat) (j : Option EeJob) : (s.setEe e j).tth = s.tth := rfl
@[simp] theorem State.setEe_start (e : Nat) (j : Option EeJob) : (s.setEe e j).start = s.start := rfl
@[simp] theorem State.setEe_node (e : Nat) (j : Option EeJob) : (s.setEe e j).node = s.node := rfl
@[simp] theorem State.setEe_store (e : Nat) (j : Option EeJob) : (s.setEe e j).store = s.store := rfl
@[simp] theorem State.setEe_pins (e : Nat) (j : Option EeJob) : (s.setEe e j).pins = s.pins := rfl
@[simp] theorem State.setEe_acts (e : Nat) (j : Option EeJob) : (s.setEe e j).acts = s.acts := rfl

/-! ### modNode -/

@[simp] theorem State.modNode_pending (f : Node → Node) : (s.modNode f).pending = s.pending := rfl
@[simp] theorem State.modNode_fresh (f : Node → Node) : (s.modNode f).fresh = s.fresh := rfl
@[simp] theorem State.modNode_out (f : Node → Node) : (s.modNode f).out = s.out := rfl
@[simp] theorem State.modNode_dict (f : Node → Node) : (s.modNode f).dict = s.dict := rfl
@[simp] theorem State.modNode_dm (f : Node → Node) : (s.modNode f).dm = s.dm := rfl
@[simp] theorem State.modNode_regs (f : Node → Node) : (s.modNode f).regs = s.regs := rfl
@[simp] theorem State.modNode_log (f : Node → Node) : (s.modNode f).log = s.log := rfl
@[simp] theorem State.modNode_mem (f : Node → Node) : (s.modNode f).mem = s.mem := rfl
@[simp] theorem State.modNode_coil (f : Node → Node) : (s.modNode f).coil = s.coil := rfl
@[simp] theorem State.modNode_ibex (f : Node → Node) : (s.modNode f).ibex = s.ibex := rfl
@[simp] theorem State.modNode_hp (f : Node → Node) : (s.modNode f).hp = s.hp := rfl
@[simp] theorem State.modNode_sch (f : Node → Node) : (s.modNode f).sch = s.sch := rfl
@[simp] theorem State.modNode_streams (f : Node → Node) : (s.modNode f).streams = s.streams := rfl
@[simp] theorem State.modNode_vid (f : Node → Node) : (s.modNode f).vid = s.vid := rfl
@[simp] theorem State.modNode_wake (f : Node → Node) : (s.modNode f).wake = s.wake := rfl
@[simp] theorem State.modNode_tth (f : Node → Node) : (s.modNode f).tth = s.tth := rfl
@[simp] theorem State.modNode_start (f : Node → Node) : (s.modNode f).start = s.start := rfl
@[simp] theorem State.modNode_store (f : Node → Node) : (s.modNode f).store = s.store := rfl
@[simp] theorem State.modNode_pins (f : Node → Node) : (s.modNode f).pins = s.pins := rfl
@[simp] theorem State.modNode_acts (f : Node → Node) : (s.modNode f).acts = s.acts := rfl

/-! ### modTth -/

@[simp] theorem State.modTth_pending (f : Tether → Tether) : (s.modTth f).pending = s.pending := rfl
@[simp] theorem State.modTth_fresh (f : Tether → Tether) : (s.modTth f).fresh = s.fresh := rfl
@[simp] theorem State.modTth_out (f : Tether → Tether) : (s.modTth f).out = s.out := rfl
@[simp] theorem State.modTth_dict (f : Tether → Tether) : (s.modTth f).dict = s.dict := rfl
@[simp] theorem State.modTth_dm (f : Tether → Tether) : (s.modTth f).dm = s.dm := rfl
@[simp] theorem State.modTth_regs (f : Tether → Tether) : (s.modTth f).regs = s.regs := rfl
@[simp] theorem State.modTth_log (f : Tether → Tether) : (s.modTth f).log = s.log := rfl
@[simp] theorem State.modTth_mem (f : Tether → Tether) : (s.modTth f).mem = s.mem := rfl
@[simp] theorem State.modTth_coil (f : Tether → Tether) : (s.modTth f).coil = s.coil := rfl
@[simp] theorem State.modTth_ibex (f : Tether → Tether) : (s.modTth f).ibex = s.ibex := rfl
@[simp] theorem State.modTth_hp (f : Tether → Tether) : (s.modTth f).hp = s.hp := rfl
@[simp] theorem State.modTth_sch (f : Tether → Tether) : (s.modTth f).sch = s.sch := rfl
@[simp] theorem State.modTth_streams (f : Tether → Tether) : (s.modTth f).streams = s.streams := rfl
@[simp] theorem State.modTth_vid (f : Tether → Tether) : (s.modTth f).vid = s.vid := rfl
@[simp] theorem State.modTth_wake (f : Tether → Tether) : (s.modTth f).wake = s.wake := rfl
@[simp] theorem State.modTth_start (f : Tether → Tether) : (s.modTth f).start = s.start := rfl
@[simp] theorem State.modTth_node (f : Tether → Tether) : (s.modTth f).node = s.node := rfl
@[simp] theorem State.modTth_store (f : Tether → Tether) : (s.modTth f).store = s.store := rfl
@[simp] theorem State.modTth_pins (f : Tether → Tether) : (s.modTth f).pins = s.pins := rfl
@[simp] theorem State.modTth_acts (f : Tether → Tether) : (s.modTth f).acts = s.acts := rfl

/-! ### modStart -/

@[simp] theorem State.modStart_pending (f : Start → Start) : (s.modStart f).pending = s.pending := rfl
@[simp] theorem State.modStart_fresh (f : Start → Start) : (s.modStart f).fresh = s.fresh := rfl
@[simp] theorem State.modStart_out (f : Start → Start) : (s.modStart f).out = s.out := rfl
@[simp] theorem State.modStart_dict (f : Start → Start) : (s.modStart f).dict = s.dict := rfl
@[simp] theorem State.modStart_dm (f : Start → Start) : (s.modStart f).dm = s.dm := rfl
@[simp] theorem State.modStart_regs (f : Start → Start) : (s.modStart f).regs = s.regs := rfl
@[simp] theorem State.modStart_log (f : Start → Start) : (s.modStart f).log = s.log := rfl
@[simp] theorem State.modStart_mem (f : Start → Start) : (s.modStart f).mem = s.mem := rfl
@[simp] theorem State.modStart_coil (f : Start → Start) : (s.modStart f).coil = s.coil := rfl
@[simp] theorem State.modStart_ibex (f : Start → Start) : (s.modStart f).ibex = s.ibex := rfl
@[simp] theorem State.modStart_hp (f : Start → Start) : (s.modStart f).hp = s.hp := rfl
@[simp] theorem State.modStart_sch (f : Start → Start) : (s.modStart f).sch = s.sch := rfl
@[simp] theorem State.modStart_streams (f : Start → Start) : (s.modStart f).streams = s.streams := rfl
@[simp] theorem State.modStart_vid (f : Start → Start) : (s.modStart f).vid = s.vid := rfl
@[simp] theorem State.modStart_wake (f : Start → Start) : (s.modStart f).wake = s.wake := rfl
@[simp] theorem State.modStart_tth (f : Start → Start) : (s.modStart f).tth = s.tth := rfl
@[simp] theorem State.modStart_node (f : Start → Start) : (s.modStart f).node = s.node := rfl
@[simp] theorem State.modStart_store (f : Start → Start) : (s.modStart f).store = s.store := rfl
@[simp] theorem State.modStart_pins (f : Start → Start) : (s.modStart f).pins = s.pins := rfl
@[simp] theorem State.modStart_acts (f : Start → Start) : (s.modStart f).acts = s.acts := rfl

/-! ### What is read through an accessor -/

@[simp] theorem State.entry_setReg (k' : Nat) (v' : W64) (i j : Nat) : (s.setReg k' v').entry i j = s.entry i j := rfl
@[simp] theorem State.str_setReg (k' : Nat) (v' : W64) (n i : Nat) : (s.setReg k' v').str n i = s.str n i := rfl
@[simp] theorem State.ctx_setReg (k' : Nat) (v' : W64) (c i : Nat) : (s.setReg k' v').ctx c i = s.ctx c i := rfl
@[simp] theorem State.stage_setReg (k' : Nat) (v' : W64)  : (s.setReg k' v').stage  = s.stage  := rfl
@[simp] theorem State.power_setReg (k' : Nat) (v' : W64)  : (s.setReg k' v').power  = s.power  := rfl
@[simp] theorem State.fn_setReg (k' : Nat) (v' : W64) (k : Nat) : (s.setReg k' v').fn k = s.fn k := rfl
@[simp] theorem State.ib_setReg (k' : Nat) (v' : W64) (n : Nat) : (s.setReg k' v').ib n = s.ib n := rfl
@[simp] theorem State.stream_setReg (k' : Nat) (v' : W64) (n : Nat) : (s.setReg k' v').stream n = s.stream n := rfl
@[simp] theorem State.queue_setReg (k' : Nat) (v' : W64) (q : Nat) : (s.setReg k' v').queue q = s.queue q := rfl
@[simp] theorem State.hitch_setReg (k' : Nat) (v' : W64) (k : Nat) : (s.setReg k' v').hitch k = s.hitch k := rfl
@[simp] theorem State.ctxSt_setReg (k' : Nat) (v' : W64) (c : Nat) : (s.setReg k' v').ctxSt c = s.ctxSt c := rfl
@[simp] theorem State.buf_setReg (k' : Nat) (v' : W64) (n k : Nat) : (s.setReg k' v').buf n k = s.buf n k := rfl

@[simp] theorem State.entry_setField (k' lo' w' x' : Nat) (i j : Nat) : (s.setField k' lo' w' x').entry i j = s.entry i j := rfl
@[simp] theorem State.str_setField (k' lo' w' x' : Nat) (n i : Nat) : (s.setField k' lo' w' x').str n i = s.str n i := rfl
@[simp] theorem State.ctx_setField (k' lo' w' x' : Nat) (c i : Nat) : (s.setField k' lo' w' x').ctx c i = s.ctx c i := rfl
@[simp] theorem State.stage_setField (k' lo' w' x' : Nat)  : (s.setField k' lo' w' x').stage  = s.stage  := rfl
@[simp] theorem State.power_setField (k' lo' w' x' : Nat)  : (s.setField k' lo' w' x').power  = s.power  := rfl
@[simp] theorem State.fn_setField (k' lo' w' x' : Nat) (k : Nat) : (s.setField k' lo' w' x').fn k = s.fn k := rfl
@[simp] theorem State.ib_setField (k' lo' w' x' : Nat) (n : Nat) : (s.setField k' lo' w' x').ib n = s.ib n := rfl
@[simp] theorem State.stream_setField (k' lo' w' x' : Nat) (n : Nat) : (s.setField k' lo' w' x').stream n = s.stream n := rfl
@[simp] theorem State.queue_setField (k' lo' w' x' : Nat) (q : Nat) : (s.setField k' lo' w' x').queue q = s.queue q := rfl
@[simp] theorem State.hitch_setField (k' lo' w' x' : Nat) (k : Nat) : (s.setField k' lo' w' x').hitch k = s.hitch k := rfl
@[simp] theorem State.ctxSt_setField (k' lo' w' x' : Nat) (c : Nat) : (s.setField k' lo' w' x').ctxSt c = s.ctxSt c := rfl
@[simp] theorem State.buf_setField (k' lo' w' x' : Nat) (n k : Nat) : (s.setField k' lo' w' x').buf n k = s.buf n k := rfl

@[simp] theorem State.entry_count (k' n' : Nat) (i j : Nat) : (s.count k' n').entry i j = s.entry i j := rfl
@[simp] theorem State.str_count (k' n' : Nat) (n i : Nat) : (s.count k' n').str n i = s.str n i := rfl
@[simp] theorem State.ctx_count (k' n' : Nat) (c i : Nat) : (s.count k' n').ctx c i = s.ctx c i := rfl
@[simp] theorem State.stage_count (k' n' : Nat)  : (s.count k' n').stage  = s.stage  := rfl
@[simp] theorem State.power_count (k' n' : Nat)  : (s.count k' n').power  = s.power  := rfl
@[simp] theorem State.fn_count (k' n' : Nat) (k : Nat) : (s.count k' n').fn k = s.fn k := rfl
@[simp] theorem State.ib_count (k' n' : Nat) (n : Nat) : (s.count k' n').ib n = s.ib n := rfl
@[simp] theorem State.stream_count (k' n' : Nat) (n : Nat) : (s.count k' n').stream n = s.stream n := rfl
@[simp] theorem State.queue_count (k' n' : Nat) (q : Nat) : (s.count k' n').queue q = s.queue q := rfl
@[simp] theorem State.hitch_count (k' n' : Nat) (k : Nat) : (s.count k' n').hitch k = s.hitch k := rfl
@[simp] theorem State.ctxSt_count (k' n' : Nat) (c : Nat) : (s.count k' n').ctxSt c = s.ctxSt c := rfl
@[simp] theorem State.buf_count (k' n' : Nat) (n k : Nat) : (s.count k' n').buf n k = s.buf n k := rfl

@[simp] theorem State.entry_dropRegs (d' : Nat → Bool) (i j : Nat) : (s.dropRegs d').entry i j = s.entry i j := rfl
@[simp] theorem State.str_dropRegs (d' : Nat → Bool) (n i : Nat) : (s.dropRegs d').str n i = s.str n i := rfl
@[simp] theorem State.ctx_dropRegs (d' : Nat → Bool) (c i : Nat) : (s.dropRegs d').ctx c i = s.ctx c i := rfl
@[simp] theorem State.stage_dropRegs (d' : Nat → Bool)  : (s.dropRegs d').stage  = s.stage  := rfl
@[simp] theorem State.power_dropRegs (d' : Nat → Bool)  : (s.dropRegs d').power  = s.power  := rfl
@[simp] theorem State.fn_dropRegs (d' : Nat → Bool) (k : Nat) : (s.dropRegs d').fn k = s.fn k := rfl
@[simp] theorem State.ib_dropRegs (d' : Nat → Bool) (n : Nat) : (s.dropRegs d').ib n = s.ib n := rfl
@[simp] theorem State.stream_dropRegs (d' : Nat → Bool) (n : Nat) : (s.dropRegs d').stream n = s.stream n := rfl
@[simp] theorem State.queue_dropRegs (d' : Nat → Bool) (q : Nat) : (s.dropRegs d').queue q = s.queue q := rfl
@[simp] theorem State.hitch_dropRegs (d' : Nat → Bool) (k : Nat) : (s.dropRegs d').hitch k = s.hitch k := rfl
@[simp] theorem State.ctxSt_dropRegs (d' : Nat → Bool) (c : Nat) : (s.dropRegs d').ctxSt c = s.ctxSt c := rfl
@[simp] theorem State.buf_dropRegs (d' : Nat → Bool) (n k : Nat) : (s.dropRegs d').buf n k = s.buf n k := rfl

@[simp] theorem State.reg_setEntry (i' j' v' : Nat) (j : Nat) : (s.setEntry i' j' v').reg j = s.reg j := rfl
@[simp] theorem State.regField_setEntry (i' j' v' : Nat) (j lo w : Nat) : (s.setEntry i' j' v').regField j lo w = s.regField j lo w := rfl
@[simp] theorem State.frozen_setEntry (i' j' v' : Nat)  : (s.setEntry i' j' v').frozen  = s.frozen  := rfl
@[simp] theorem State.fn_setEntry (i' j' v' : Nat) (k : Nat) : (s.setEntry i' j' v').fn k = s.fn k := rfl
@[simp] theorem State.ib_setEntry (i' j' v' : Nat) (n : Nat) : (s.setEntry i' j' v').ib n = s.ib n := rfl
@[simp] theorem State.stream_setEntry (i' j' v' : Nat) (n : Nat) : (s.setEntry i' j' v').stream n = s.stream n := rfl
@[simp] theorem State.queue_setEntry (i' j' v' : Nat) (q : Nat) : (s.setEntry i' j' v').queue q = s.queue q := rfl
@[simp] theorem State.hitch_setEntry (i' j' v' : Nat) (k : Nat) : (s.setEntry i' j' v').hitch k = s.hitch k := rfl
@[simp] theorem State.ctxSt_setEntry (i' j' v' : Nat) (c : Nat) : (s.setEntry i' j' v').ctxSt c = s.ctxSt c := rfl
@[simp] theorem State.buf_setEntry (i' j' v' : Nat) (n k : Nat) : (s.setEntry i' j' v').buf n k = s.buf n k := rfl

@[simp] theorem State.reg_countEntry (i' j' n' : Nat) (j : Nat) : (s.countEntry i' j' n').reg j = s.reg j := rfl
@[simp] theorem State.regField_countEntry (i' j' n' : Nat) (j lo w : Nat) : (s.countEntry i' j' n').regField j lo w = s.regField j lo w := rfl
@[simp] theorem State.frozen_countEntry (i' j' n' : Nat)  : (s.countEntry i' j' n').frozen  = s.frozen  := rfl
@[simp] theorem State.fn_countEntry (i' j' n' : Nat) (k : Nat) : (s.countEntry i' j' n').fn k = s.fn k := rfl
@[simp] theorem State.ib_countEntry (i' j' n' : Nat) (n : Nat) : (s.countEntry i' j' n').ib n = s.ib n := rfl
@[simp] theorem State.stream_countEntry (i' j' n' : Nat) (n : Nat) : (s.countEntry i' j' n').stream n = s.stream n := rfl
@[simp] theorem State.queue_countEntry (i' j' n' : Nat) (q : Nat) : (s.countEntry i' j' n').queue q = s.queue q := rfl
@[simp] theorem State.hitch_countEntry (i' j' n' : Nat) (k : Nat) : (s.countEntry i' j' n').hitch k = s.hitch k := rfl
@[simp] theorem State.ctxSt_countEntry (i' j' n' : Nat) (c : Nat) : (s.countEntry i' j' n').ctxSt c = s.ctxSt c := rfl
@[simp] theorem State.buf_countEntry (i' j' n' : Nat) (n k : Nat) : (s.countEntry i' j' n').buf n k = s.buf n k := rfl

@[simp] theorem State.reg_dropEntries (d' : Nat → Bool) (j : Nat) : (s.dropEntries d').reg j = s.reg j := rfl
@[simp] theorem State.regField_dropEntries (d' : Nat → Bool) (j lo w : Nat) : (s.dropEntries d').regField j lo w = s.regField j lo w := rfl
@[simp] theorem State.frozen_dropEntries (d' : Nat → Bool)  : (s.dropEntries d').frozen  = s.frozen  := rfl
@[simp] theorem State.fn_dropEntries (d' : Nat → Bool) (k : Nat) : (s.dropEntries d').fn k = s.fn k := rfl
@[simp] theorem State.ib_dropEntries (d' : Nat → Bool) (n : Nat) : (s.dropEntries d').ib n = s.ib n := rfl
@[simp] theorem State.stream_dropEntries (d' : Nat → Bool) (n : Nat) : (s.dropEntries d').stream n = s.stream n := rfl
@[simp] theorem State.queue_dropEntries (d' : Nat → Bool) (q : Nat) : (s.dropEntries d').queue q = s.queue q := rfl
@[simp] theorem State.hitch_dropEntries (d' : Nat → Bool) (k : Nat) : (s.dropEntries d').hitch k = s.hitch k := rfl
@[simp] theorem State.ctxSt_dropEntries (d' : Nat → Bool) (c : Nat) : (s.dropEntries d').ctxSt c = s.ctxSt c := rfl
@[simp] theorem State.buf_dropEntries (d' : Nat → Bool) (n k : Nat) : (s.dropEntries d').buf n k = s.buf n k := rfl

@[simp] theorem State.reg_dmPut (k' o' : Nat) (bs' : List Byte) (j : Nat) : (s.dmPut k' o' bs').reg j = s.reg j := rfl
@[simp] theorem State.regField_dmPut (k' o' : Nat) (bs' : List Byte) (j lo w : Nat) : (s.dmPut k' o' bs').regField j lo w = s.regField j lo w := rfl
@[simp] theorem State.entry_dmPut (k' o' : Nat) (bs' : List Byte) (i j : Nat) : (s.dmPut k' o' bs').entry i j = s.entry i j := rfl
@[simp] theorem State.str_dmPut (k' o' : Nat) (bs' : List Byte) (n i : Nat) : (s.dmPut k' o' bs').str n i = s.str n i := rfl
@[simp] theorem State.ctx_dmPut (k' o' : Nat) (bs' : List Byte) (c i : Nat) : (s.dmPut k' o' bs').ctx c i = s.ctx c i := rfl
@[simp] theorem State.stage_dmPut (k' o' : Nat) (bs' : List Byte)  : (s.dmPut k' o' bs').stage  = s.stage  := rfl
@[simp] theorem State.power_dmPut (k' o' : Nat) (bs' : List Byte)  : (s.dmPut k' o' bs').power  = s.power  := rfl
@[simp] theorem State.frozen_dmPut (k' o' : Nat) (bs' : List Byte)  : (s.dmPut k' o' bs').frozen  = s.frozen  := rfl
@[simp] theorem State.fn_dmPut (k' o' : Nat) (bs' : List Byte) (k : Nat) : (s.dmPut k' o' bs').fn k = s.fn k := rfl
@[simp] theorem State.ib_dmPut (k' o' : Nat) (bs' : List Byte) (n : Nat) : (s.dmPut k' o' bs').ib n = s.ib n := rfl
@[simp] theorem State.stream_dmPut (k' o' : Nat) (bs' : List Byte) (n : Nat) : (s.dmPut k' o' bs').stream n = s.stream n := rfl
@[simp] theorem State.queue_dmPut (k' o' : Nat) (bs' : List Byte) (q : Nat) : (s.dmPut k' o' bs').queue q = s.queue q := rfl
@[simp] theorem State.hitch_dmPut (k' o' : Nat) (bs' : List Byte) (k : Nat) : (s.dmPut k' o' bs').hitch k = s.hitch k := rfl
@[simp] theorem State.ctxSt_dmPut (k' o' : Nat) (bs' : List Byte) (c : Nat) : (s.dmPut k' o' bs').ctxSt c = s.ctxSt c := rfl
@[simp] theorem State.buf_dmPut (k' o' : Nat) (bs' : List Byte) (n k : Nat) : (s.dmPut k' o' bs').buf n k = s.buf n k := rfl

@[simp] theorem State.entry_dmResult (k' : Nat) (c' : W16) (d' : Bool) (i j : Nat) : (s.dmResult k' c' d').entry i j = s.entry i j := rfl
@[simp] theorem State.str_dmResult (k' : Nat) (c' : W16) (d' : Bool) (n i : Nat) : (s.dmResult k' c' d').str n i = s.str n i := rfl
@[simp] theorem State.ctx_dmResult (k' : Nat) (c' : W16) (d' : Bool) (c i : Nat) : (s.dmResult k' c' d').ctx c i = s.ctx c i := rfl
@[simp] theorem State.stage_dmResult (k' : Nat) (c' : W16) (d' : Bool)  : (s.dmResult k' c' d').stage  = s.stage  := rfl
@[simp] theorem State.power_dmResult (k' : Nat) (c' : W16) (d' : Bool)  : (s.dmResult k' c' d').power  = s.power  := rfl
@[simp] theorem State.fn_dmResult (k' : Nat) (c' : W16) (d' : Bool) (k : Nat) : (s.dmResult k' c' d').fn k = s.fn k := rfl
@[simp] theorem State.ib_dmResult (k' : Nat) (c' : W16) (d' : Bool) (n : Nat) : (s.dmResult k' c' d').ib n = s.ib n := rfl
@[simp] theorem State.stream_dmResult (k' : Nat) (c' : W16) (d' : Bool) (n : Nat) : (s.dmResult k' c' d').stream n = s.stream n := rfl
@[simp] theorem State.queue_dmResult (k' : Nat) (c' : W16) (d' : Bool) (q : Nat) : (s.dmResult k' c' d').queue q = s.queue q := rfl
@[simp] theorem State.hitch_dmResult (k' : Nat) (c' : W16) (d' : Bool) (k : Nat) : (s.dmResult k' c' d').hitch k = s.hitch k := rfl
@[simp] theorem State.ctxSt_dmResult (k' : Nat) (c' : W16) (d' : Bool) (c : Nat) : (s.dmResult k' c' d').ctxSt c = s.ctxSt c := rfl
@[simp] theorem State.buf_dmResult (k' : Nat) (c' : W16) (d' : Bool) (n k : Nat) : (s.dmResult k' c' d').buf n k = s.buf n k := rfl

@[simp] theorem State.reg_send (o' : Out) (j : Nat) : (s.send o').reg j = s.reg j := rfl
@[simp] theorem State.regField_send (o' : Out) (j lo w : Nat) : (s.send o').regField j lo w = s.regField j lo w := rfl
@[simp] theorem State.entry_send (o' : Out) (i j : Nat) : (s.send o').entry i j = s.entry i j := rfl
@[simp] theorem State.str_send (o' : Out) (n i : Nat) : (s.send o').str n i = s.str n i := rfl
@[simp] theorem State.ctx_send (o' : Out) (c i : Nat) : (s.send o').ctx c i = s.ctx c i := rfl
@[simp] theorem State.stage_send (o' : Out)  : (s.send o').stage  = s.stage  := rfl
@[simp] theorem State.power_send (o' : Out)  : (s.send o').power  = s.power  := rfl
@[simp] theorem State.frozen_send (o' : Out)  : (s.send o').frozen  = s.frozen  := rfl
@[simp] theorem State.fn_send (o' : Out) (k : Nat) : (s.send o').fn k = s.fn k := rfl
@[simp] theorem State.ib_send (o' : Out) (n : Nat) : (s.send o').ib n = s.ib n := rfl
@[simp] theorem State.stream_send (o' : Out) (n : Nat) : (s.send o').stream n = s.stream n := rfl
@[simp] theorem State.queue_send (o' : Out) (q : Nat) : (s.send o').queue q = s.queue q := rfl
@[simp] theorem State.hitch_send (o' : Out) (k : Nat) : (s.send o').hitch k = s.hitch k := rfl
@[simp] theorem State.ctxSt_send (o' : Out) (c : Nat) : (s.send o').ctxSt c = s.ctxSt c := rfl
@[simp] theorem State.buf_send (o' : Out) (n k : Nat) : (s.send o').buf n k = s.buf n k := rfl

@[simp] theorem State.reg_modFn (k' : Nat) (f' : FnSt → FnSt) (j : Nat) : (s.modFn k' f').reg j = s.reg j := rfl
@[simp] theorem State.regField_modFn (k' : Nat) (f' : FnSt → FnSt) (j lo w : Nat) : (s.modFn k' f').regField j lo w = s.regField j lo w := rfl
@[simp] theorem State.entry_modFn (k' : Nat) (f' : FnSt → FnSt) (i j : Nat) : (s.modFn k' f').entry i j = s.entry i j := rfl
@[simp] theorem State.str_modFn (k' : Nat) (f' : FnSt → FnSt) (n i : Nat) : (s.modFn k' f').str n i = s.str n i := rfl
@[simp] theorem State.ctx_modFn (k' : Nat) (f' : FnSt → FnSt) (c i : Nat) : (s.modFn k' f').ctx c i = s.ctx c i := rfl
@[simp] theorem State.stage_modFn (k' : Nat) (f' : FnSt → FnSt)  : (s.modFn k' f').stage  = s.stage  := rfl
@[simp] theorem State.power_modFn (k' : Nat) (f' : FnSt → FnSt)  : (s.modFn k' f').power  = s.power  := rfl
@[simp] theorem State.frozen_modFn (k' : Nat) (f' : FnSt → FnSt)  : (s.modFn k' f').frozen  = s.frozen  := rfl
@[simp] theorem State.ib_modFn (k' : Nat) (f' : FnSt → FnSt) (n : Nat) : (s.modFn k' f').ib n = s.ib n := rfl
@[simp] theorem State.stream_modFn (k' : Nat) (f' : FnSt → FnSt) (n : Nat) : (s.modFn k' f').stream n = s.stream n := rfl
@[simp] theorem State.queue_modFn (k' : Nat) (f' : FnSt → FnSt) (q : Nat) : (s.modFn k' f').queue q = s.queue q := rfl
@[simp] theorem State.hitch_modFn (k' : Nat) (f' : FnSt → FnSt) (k : Nat) : (s.modFn k' f').hitch k = s.hitch k := rfl
@[simp] theorem State.ctxSt_modFn (k' : Nat) (f' : FnSt → FnSt) (c : Nat) : (s.modFn k' f').ctxSt c = s.ctxSt c := rfl
@[simp] theorem State.buf_modFn (k' : Nat) (f' : FnSt → FnSt) (n k : Nat) : (s.modFn k' f').buf n k = s.buf n k := rfl

@[simp] theorem State.reg_setIb (n' : Nat) (i' : Ibex) (j : Nat) : (s.setIb n' i').reg j = s.reg j := rfl
@[simp] theorem State.regField_setIb (n' : Nat) (i' : Ibex) (j lo w : Nat) : (s.setIb n' i').regField j lo w = s.regField j lo w := rfl
@[simp] theorem State.entry_setIb (n' : Nat) (i' : Ibex) (i j : Nat) : (s.setIb n' i').entry i j = s.entry i j := rfl
@[simp] theorem State.str_setIb (n' : Nat) (i' : Ibex) (n i : Nat) : (s.setIb n' i').str n i = s.str n i := rfl
@[simp] theorem State.ctx_setIb (n' : Nat) (i' : Ibex) (c i : Nat) : (s.setIb n' i').ctx c i = s.ctx c i := rfl
@[simp] theorem State.stage_setIb (n' : Nat) (i' : Ibex)  : (s.setIb n' i').stage  = s.stage  := rfl
@[simp] theorem State.power_setIb (n' : Nat) (i' : Ibex)  : (s.setIb n' i').power  = s.power  := rfl
@[simp] theorem State.frozen_setIb (n' : Nat) (i' : Ibex)  : (s.setIb n' i').frozen  = s.frozen  := rfl
@[simp] theorem State.fn_setIb (n' : Nat) (i' : Ibex) (k : Nat) : (s.setIb n' i').fn k = s.fn k := rfl
@[simp] theorem State.stream_setIb (n' : Nat) (i' : Ibex) (n : Nat) : (s.setIb n' i').stream n = s.stream n := rfl
@[simp] theorem State.queue_setIb (n' : Nat) (i' : Ibex) (q : Nat) : (s.setIb n' i').queue q = s.queue q := rfl
@[simp] theorem State.hitch_setIb (n' : Nat) (i' : Ibex) (k : Nat) : (s.setIb n' i').hitch k = s.hitch k := rfl
@[simp] theorem State.ctxSt_setIb (n' : Nat) (i' : Ibex) (c : Nat) : (s.setIb n' i').ctxSt c = s.ctxSt c := rfl
@[simp] theorem State.buf_setIb (n' : Nat) (i' : Ibex) (n k : Nat) : (s.setIb n' i').buf n k = s.buf n k := rfl

@[simp] theorem State.reg_modIb (n' : Nat) (f' : Ibex → Ibex) (j : Nat) : (s.modIb n' f').reg j = s.reg j := rfl
@[simp] theorem State.regField_modIb (n' : Nat) (f' : Ibex → Ibex) (j lo w : Nat) : (s.modIb n' f').regField j lo w = s.regField j lo w := rfl
@[simp] theorem State.entry_modIb (n' : Nat) (f' : Ibex → Ibex) (i j : Nat) : (s.modIb n' f').entry i j = s.entry i j := rfl
@[simp] theorem State.str_modIb (n' : Nat) (f' : Ibex → Ibex) (n i : Nat) : (s.modIb n' f').str n i = s.str n i := rfl
@[simp] theorem State.ctx_modIb (n' : Nat) (f' : Ibex → Ibex) (c i : Nat) : (s.modIb n' f').ctx c i = s.ctx c i := rfl
@[simp] theorem State.stage_modIb (n' : Nat) (f' : Ibex → Ibex)  : (s.modIb n' f').stage  = s.stage  := rfl
@[simp] theorem State.power_modIb (n' : Nat) (f' : Ibex → Ibex)  : (s.modIb n' f').power  = s.power  := rfl
@[simp] theorem State.frozen_modIb (n' : Nat) (f' : Ibex → Ibex)  : (s.modIb n' f').frozen  = s.frozen  := rfl
@[simp] theorem State.fn_modIb (n' : Nat) (f' : Ibex → Ibex) (k : Nat) : (s.modIb n' f').fn k = s.fn k := rfl
@[simp] theorem State.stream_modIb (n' : Nat) (f' : Ibex → Ibex) (n : Nat) : (s.modIb n' f').stream n = s.stream n := rfl
@[simp] theorem State.queue_modIb (n' : Nat) (f' : Ibex → Ibex) (q : Nat) : (s.modIb n' f').queue q = s.queue q := rfl
@[simp] theorem State.hitch_modIb (n' : Nat) (f' : Ibex → Ibex) (k : Nat) : (s.modIb n' f').hitch k = s.hitch k := rfl
@[simp] theorem State.ctxSt_modIb (n' : Nat) (f' : Ibex → Ibex) (c : Nat) : (s.modIb n' f').ctxSt c = s.ctxSt c := rfl
@[simp] theorem State.buf_modIb (n' : Nat) (f' : Ibex → Ibex) (n k : Nat) : (s.modIb n' f').buf n k = s.buf n k := rfl

@[simp] theorem State.reg_setStream (n' : Nat) (x' : Stream) (j : Nat) : (s.setStream n' x').reg j = s.reg j := rfl
@[simp] theorem State.regField_setStream (n' : Nat) (x' : Stream) (j lo w : Nat) : (s.setStream n' x').regField j lo w = s.regField j lo w := rfl
@[simp] theorem State.entry_setStream (n' : Nat) (x' : Stream) (i j : Nat) : (s.setStream n' x').entry i j = s.entry i j := rfl
@[simp] theorem State.str_setStream (n' : Nat) (x' : Stream) (n i : Nat) : (s.setStream n' x').str n i = s.str n i := rfl
@[simp] theorem State.ctx_setStream (n' : Nat) (x' : Stream) (c i : Nat) : (s.setStream n' x').ctx c i = s.ctx c i := rfl
@[simp] theorem State.stage_setStream (n' : Nat) (x' : Stream)  : (s.setStream n' x').stage  = s.stage  := rfl
@[simp] theorem State.power_setStream (n' : Nat) (x' : Stream)  : (s.setStream n' x').power  = s.power  := rfl
@[simp] theorem State.frozen_setStream (n' : Nat) (x' : Stream)  : (s.setStream n' x').frozen  = s.frozen  := rfl
@[simp] theorem State.fn_setStream (n' : Nat) (x' : Stream) (k : Nat) : (s.setStream n' x').fn k = s.fn k := rfl
@[simp] theorem State.ib_setStream (n' : Nat) (x' : Stream) (n : Nat) : (s.setStream n' x').ib n = s.ib n := rfl
@[simp] theorem State.queue_setStream (n' : Nat) (x' : Stream) (q : Nat) : (s.setStream n' x').queue q = s.queue q := rfl
@[simp] theorem State.hitch_setStream (n' : Nat) (x' : Stream) (k : Nat) : (s.setStream n' x').hitch k = s.hitch k := rfl
@[simp] theorem State.ctxSt_setStream (n' : Nat) (x' : Stream) (c : Nat) : (s.setStream n' x').ctxSt c = s.ctxSt c := rfl
@[simp] theorem State.buf_setStream (n' : Nat) (x' : Stream) (n k : Nat) : (s.setStream n' x').buf n k = s.buf n k := rfl

@[simp] theorem State.reg_modStream (n' : Nat) (f' : Stream → Stream) (j : Nat) : (s.modStream n' f').reg j = s.reg j := rfl
@[simp] theorem State.regField_modStream (n' : Nat) (f' : Stream → Stream) (j lo w : Nat) : (s.modStream n' f').regField j lo w = s.regField j lo w := rfl
@[simp] theorem State.entry_modStream (n' : Nat) (f' : Stream → Stream) (i j : Nat) : (s.modStream n' f').entry i j = s.entry i j := rfl
@[simp] theorem State.str_modStream (n' : Nat) (f' : Stream → Stream) (n i : Nat) : (s.modStream n' f').str n i = s.str n i := rfl
@[simp] theorem State.ctx_modStream (n' : Nat) (f' : Stream → Stream) (c i : Nat) : (s.modStream n' f').ctx c i = s.ctx c i := rfl
@[simp] theorem State.stage_modStream (n' : Nat) (f' : Stream → Stream)  : (s.modStream n' f').stage  = s.stage  := rfl
@[simp] theorem State.power_modStream (n' : Nat) (f' : Stream → Stream)  : (s.modStream n' f').power  = s.power  := rfl
@[simp] theorem State.frozen_modStream (n' : Nat) (f' : Stream → Stream)  : (s.modStream n' f').frozen  = s.frozen  := rfl
@[simp] theorem State.fn_modStream (n' : Nat) (f' : Stream → Stream) (k : Nat) : (s.modStream n' f').fn k = s.fn k := rfl
@[simp] theorem State.ib_modStream (n' : Nat) (f' : Stream → Stream) (n : Nat) : (s.modStream n' f').ib n = s.ib n := rfl
@[simp] theorem State.queue_modStream (n' : Nat) (f' : Stream → Stream) (q : Nat) : (s.modStream n' f').queue q = s.queue q := rfl
@[simp] theorem State.hitch_modStream (n' : Nat) (f' : Stream → Stream) (k : Nat) : (s.modStream n' f').hitch k = s.hitch k := rfl
@[simp] theorem State.ctxSt_modStream (n' : Nat) (f' : Stream → Stream) (c : Nat) : (s.modStream n' f').ctxSt c = s.ctxSt c := rfl
@[simp] theorem State.buf_modStream (n' : Nat) (f' : Stream → Stream) (n k : Nat) : (s.modStream n' f').buf n k = s.buf n k := rfl

@[simp] theorem State.reg_setQueue (q' : Nat) (x' : Queue) (j : Nat) : (s.setQueue q' x').reg j = s.reg j := rfl
@[simp] theorem State.regField_setQueue (q' : Nat) (x' : Queue) (j lo w : Nat) : (s.setQueue q' x').regField j lo w = s.regField j lo w := rfl
@[simp] theorem State.entry_setQueue (q' : Nat) (x' : Queue) (i j : Nat) : (s.setQueue q' x').entry i j = s.entry i j := rfl
@[simp] theorem State.str_setQueue (q' : Nat) (x' : Queue) (n i : Nat) : (s.setQueue q' x').str n i = s.str n i := rfl
@[simp] theorem State.ctx_setQueue (q' : Nat) (x' : Queue) (c i : Nat) : (s.setQueue q' x').ctx c i = s.ctx c i := rfl
@[simp] theorem State.stage_setQueue (q' : Nat) (x' : Queue)  : (s.setQueue q' x').stage  = s.stage  := rfl
@[simp] theorem State.power_setQueue (q' : Nat) (x' : Queue)  : (s.setQueue q' x').power  = s.power  := rfl
@[simp] theorem State.frozen_setQueue (q' : Nat) (x' : Queue)  : (s.setQueue q' x').frozen  = s.frozen  := rfl
@[simp] theorem State.fn_setQueue (q' : Nat) (x' : Queue) (k : Nat) : (s.setQueue q' x').fn k = s.fn k := rfl
@[simp] theorem State.ib_setQueue (q' : Nat) (x' : Queue) (n : Nat) : (s.setQueue q' x').ib n = s.ib n := rfl
@[simp] theorem State.stream_setQueue (q' : Nat) (x' : Queue) (n : Nat) : (s.setQueue q' x').stream n = s.stream n := rfl
@[simp] theorem State.buf_setQueue (q' : Nat) (x' : Queue) (n k : Nat) : (s.setQueue q' x').buf n k = s.buf n k := rfl

@[simp] theorem State.reg_setStep (q' : Nat) (x' : Option Step) (j : Nat) : (s.setStep q' x').reg j = s.reg j := rfl
@[simp] theorem State.regField_setStep (q' : Nat) (x' : Option Step) (j lo w : Nat) : (s.setStep q' x').regField j lo w = s.regField j lo w := rfl
@[simp] theorem State.entry_setStep (q' : Nat) (x' : Option Step) (i j : Nat) : (s.setStep q' x').entry i j = s.entry i j := rfl
@[simp] theorem State.str_setStep (q' : Nat) (x' : Option Step) (n i : Nat) : (s.setStep q' x').str n i = s.str n i := rfl
@[simp] theorem State.ctx_setStep (q' : Nat) (x' : Option Step) (c i : Nat) : (s.setStep q' x').ctx c i = s.ctx c i := rfl
@[simp] theorem State.stage_setStep (q' : Nat) (x' : Option Step)  : (s.setStep q' x').stage  = s.stage  := rfl
@[simp] theorem State.power_setStep (q' : Nat) (x' : Option Step)  : (s.setStep q' x').power  = s.power  := rfl
@[simp] theorem State.frozen_setStep (q' : Nat) (x' : Option Step)  : (s.setStep q' x').frozen  = s.frozen  := rfl
@[simp] theorem State.fn_setStep (q' : Nat) (x' : Option Step) (k : Nat) : (s.setStep q' x').fn k = s.fn k := rfl
@[simp] theorem State.ib_setStep (q' : Nat) (x' : Option Step) (n : Nat) : (s.setStep q' x').ib n = s.ib n := rfl
@[simp] theorem State.stream_setStep (q' : Nat) (x' : Option Step) (n : Nat) : (s.setStep q' x').stream n = s.stream n := rfl
@[simp] theorem State.buf_setStep (q' : Nat) (x' : Option Step) (n k : Nat) : (s.setStep q' x').buf n k = s.buf n k := rfl

@[simp] theorem State.reg_modStep (q' : Nat) (f' : Step → Step) (j : Nat) : (s.modStep q' f').reg j = s.reg j := rfl
@[simp] theorem State.regField_modStep (q' : Nat) (f' : Step → Step) (j lo w : Nat) : (s.modStep q' f').regField j lo w = s.regField j lo w := rfl
@[simp] theorem State.entry_modStep (q' : Nat) (f' : Step → Step) (i j : Nat) : (s.modStep q' f').entry i j = s.entry i j := rfl
@[simp] theorem State.str_modStep (q' : Nat) (f' : Step → Step) (n i : Nat) : (s.modStep q' f').str n i = s.str n i := rfl
@[simp] theorem State.ctx_modStep (q' : Nat) (f' : Step → Step) (c i : Nat) : (s.modStep q' f').ctx c i = s.ctx c i := rfl
@[simp] theorem State.stage_modStep (q' : Nat) (f' : Step → Step)  : (s.modStep q' f').stage  = s.stage  := rfl
@[simp] theorem State.power_modStep (q' : Nat) (f' : Step → Step)  : (s.modStep q' f').power  = s.power  := rfl
@[simp] theorem State.frozen_modStep (q' : Nat) (f' : Step → Step)  : (s.modStep q' f').frozen  = s.frozen  := rfl
@[simp] theorem State.fn_modStep (q' : Nat) (f' : Step → Step) (k : Nat) : (s.modStep q' f').fn k = s.fn k := rfl
@[simp] theorem State.ib_modStep (q' : Nat) (f' : Step → Step) (n : Nat) : (s.modStep q' f').ib n = s.ib n := rfl
@[simp] theorem State.stream_modStep (q' : Nat) (f' : Step → Step) (n : Nat) : (s.modStep q' f').stream n = s.stream n := rfl
@[simp] theorem State.buf_modStep (q' : Nat) (f' : Step → Step) (n k : Nat) : (s.modStep q' f').buf n k = s.buf n k := rfl

@[simp] theorem State.reg_setHitch (k' : Nat) (h' : Hitch) (j : Nat) : (s.setHitch k' h').reg j = s.reg j := rfl
@[simp] theorem State.regField_setHitch (k' : Nat) (h' : Hitch) (j lo w : Nat) : (s.setHitch k' h').regField j lo w = s.regField j lo w := rfl
@[simp] theorem State.entry_setHitch (k' : Nat) (h' : Hitch) (i j : Nat) : (s.setHitch k' h').entry i j = s.entry i j := rfl
@[simp] theorem State.str_setHitch (k' : Nat) (h' : Hitch) (n i : Nat) : (s.setHitch k' h').str n i = s.str n i := rfl
@[simp] theorem State.ctx_setHitch (k' : Nat) (h' : Hitch) (c i : Nat) : (s.setHitch k' h').ctx c i = s.ctx c i := rfl
@[simp] theorem State.stage_setHitch (k' : Nat) (h' : Hitch)  : (s.setHitch k' h').stage  = s.stage  := rfl
@[simp] theorem State.power_setHitch (k' : Nat) (h' : Hitch)  : (s.setHitch k' h').power  = s.power  := rfl
@[simp] theorem State.frozen_setHitch (k' : Nat) (h' : Hitch)  : (s.setHitch k' h').frozen  = s.frozen  := rfl
@[simp] theorem State.fn_setHitch (k' : Nat) (h' : Hitch) (k : Nat) : (s.setHitch k' h').fn k = s.fn k := rfl
@[simp] theorem State.ib_setHitch (k' : Nat) (h' : Hitch) (n : Nat) : (s.setHitch k' h').ib n = s.ib n := rfl
@[simp] theorem State.stream_setHitch (k' : Nat) (h' : Hitch) (n : Nat) : (s.setHitch k' h').stream n = s.stream n := rfl
@[simp] theorem State.buf_setHitch (k' : Nat) (h' : Hitch) (n k : Nat) : (s.setHitch k' h').buf n k = s.buf n k := rfl

@[simp] theorem State.reg_setCtxSt (c' : Nat) (x' : CtxSt) (j : Nat) : (s.setCtxSt c' x').reg j = s.reg j := rfl
@[simp] theorem State.regField_setCtxSt (c' : Nat) (x' : CtxSt) (j lo w : Nat) : (s.setCtxSt c' x').regField j lo w = s.regField j lo w := rfl
@[simp] theorem State.entry_setCtxSt (c' : Nat) (x' : CtxSt) (i j : Nat) : (s.setCtxSt c' x').entry i j = s.entry i j := rfl
@[simp] theorem State.str_setCtxSt (c' : Nat) (x' : CtxSt) (n i : Nat) : (s.setCtxSt c' x').str n i = s.str n i := rfl
@[simp] theorem State.ctx_setCtxSt (c' : Nat) (x' : CtxSt) (c i : Nat) : (s.setCtxSt c' x').ctx c i = s.ctx c i := rfl
@[simp] theorem State.stage_setCtxSt (c' : Nat) (x' : CtxSt)  : (s.setCtxSt c' x').stage  = s.stage  := rfl
@[simp] theorem State.power_setCtxSt (c' : Nat) (x' : CtxSt)  : (s.setCtxSt c' x').power  = s.power  := rfl
@[simp] theorem State.frozen_setCtxSt (c' : Nat) (x' : CtxSt)  : (s.setCtxSt c' x').frozen  = s.frozen  := rfl
@[simp] theorem State.fn_setCtxSt (c' : Nat) (x' : CtxSt) (k : Nat) : (s.setCtxSt c' x').fn k = s.fn k := rfl
@[simp] theorem State.ib_setCtxSt (c' : Nat) (x' : CtxSt) (n : Nat) : (s.setCtxSt c' x').ib n = s.ib n := rfl
@[simp] theorem State.stream_setCtxSt (c' : Nat) (x' : CtxSt) (n : Nat) : (s.setCtxSt c' x').stream n = s.stream n := rfl
@[simp] theorem State.buf_setCtxSt (c' : Nat) (x' : CtxSt) (n k : Nat) : (s.setCtxSt c' x').buf n k = s.buf n k := rfl

@[simp] theorem State.reg_timeIs (t' : Nat) (j : Nat) : (s.timeIs t').reg j = s.reg j := rfl
@[simp] theorem State.regField_timeIs (t' : Nat) (j lo w : Nat) : (s.timeIs t').regField j lo w = s.regField j lo w := rfl
@[simp] theorem State.entry_timeIs (t' : Nat) (i j : Nat) : (s.timeIs t').entry i j = s.entry i j := rfl
@[simp] theorem State.str_timeIs (t' : Nat) (n i : Nat) : (s.timeIs t').str n i = s.str n i := rfl
@[simp] theorem State.ctx_timeIs (t' : Nat) (c i : Nat) : (s.timeIs t').ctx c i = s.ctx c i := rfl
@[simp] theorem State.stage_timeIs (t' : Nat)  : (s.timeIs t').stage  = s.stage  := rfl
@[simp] theorem State.power_timeIs (t' : Nat)  : (s.timeIs t').power  = s.power  := rfl
@[simp] theorem State.frozen_timeIs (t' : Nat)  : (s.timeIs t').frozen  = s.frozen  := rfl
@[simp] theorem State.fn_timeIs (t' : Nat) (k : Nat) : (s.timeIs t').fn k = s.fn k := rfl
@[simp] theorem State.ib_timeIs (t' : Nat) (n : Nat) : (s.timeIs t').ib n = s.ib n := rfl
@[simp] theorem State.stream_timeIs (t' : Nat) (n : Nat) : (s.timeIs t').stream n = s.stream n := rfl
@[simp] theorem State.buf_timeIs (t' : Nat) (n k : Nat) : (s.timeIs t').buf n k = s.buf n k := rfl

@[simp] theorem State.reg_setBuf (n' k' : Nat) (b' : Buf) (j : Nat) : (s.setBuf n' k' b').reg j = s.reg j := rfl
@[simp] theorem State.regField_setBuf (n' k' : Nat) (b' : Buf) (j lo w : Nat) : (s.setBuf n' k' b').regField j lo w = s.regField j lo w := rfl
@[simp] theorem State.entry_setBuf (n' k' : Nat) (b' : Buf) (i j : Nat) : (s.setBuf n' k' b').entry i j = s.entry i j := rfl
@[simp] theorem State.str_setBuf (n' k' : Nat) (b' : Buf) (n i : Nat) : (s.setBuf n' k' b').str n i = s.str n i := rfl
@[simp] theorem State.ctx_setBuf (n' k' : Nat) (b' : Buf) (c i : Nat) : (s.setBuf n' k' b').ctx c i = s.ctx c i := rfl
@[simp] theorem State.stage_setBuf (n' k' : Nat) (b' : Buf)  : (s.setBuf n' k' b').stage  = s.stage  := rfl
@[simp] theorem State.power_setBuf (n' k' : Nat) (b' : Buf)  : (s.setBuf n' k' b').power  = s.power  := rfl
@[simp] theorem State.frozen_setBuf (n' k' : Nat) (b' : Buf)  : (s.setBuf n' k' b').frozen  = s.frozen  := rfl
@[simp] theorem State.fn_setBuf (n' k' : Nat) (b' : Buf) (k : Nat) : (s.setBuf n' k' b').fn k = s.fn k := rfl
@[simp] theorem State.ib_setBuf (n' k' : Nat) (b' : Buf) (n : Nat) : (s.setBuf n' k' b').ib n = s.ib n := rfl
@[simp] theorem State.stream_setBuf (n' k' : Nat) (b' : Buf) (n : Nat) : (s.setBuf n' k' b').stream n = s.stream n := rfl
@[simp] theorem State.queue_setBuf (n' k' : Nat) (b' : Buf) (q : Nat) : (s.setBuf n' k' b').queue q = s.queue q := rfl
@[simp] theorem State.hitch_setBuf (n' k' : Nat) (b' : Buf) (k : Nat) : (s.setBuf n' k' b').hitch k = s.hitch k := rfl
@[simp] theorem State.ctxSt_setBuf (n' k' : Nat) (b' : Buf) (c : Nat) : (s.setBuf n' k' b').ctxSt c = s.ctxSt c := rfl

@[simp] theorem State.reg_setResv (o' n' v' : Nat) (j : Nat) : (s.setResv o' n' v').reg j = s.reg j := rfl
@[simp] theorem State.regField_setResv (o' n' v' : Nat) (j lo w : Nat) : (s.setResv o' n' v').regField j lo w = s.regField j lo w := rfl
@[simp] theorem State.entry_setResv (o' n' v' : Nat) (i j : Nat) : (s.setResv o' n' v').entry i j = s.entry i j := rfl
@[simp] theorem State.str_setResv (o' n' v' : Nat) (n i : Nat) : (s.setResv o' n' v').str n i = s.str n i := rfl
@[simp] theorem State.ctx_setResv (o' n' v' : Nat) (c i : Nat) : (s.setResv o' n' v').ctx c i = s.ctx c i := rfl
@[simp] theorem State.stage_setResv (o' n' v' : Nat)  : (s.setResv o' n' v').stage  = s.stage  := rfl
@[simp] theorem State.power_setResv (o' n' v' : Nat)  : (s.setResv o' n' v').power  = s.power  := rfl
@[simp] theorem State.frozen_setResv (o' n' v' : Nat)  : (s.setResv o' n' v').frozen  = s.frozen  := rfl
@[simp] theorem State.fn_setResv (o' n' v' : Nat) (k : Nat) : (s.setResv o' n' v').fn k = s.fn k := rfl
@[simp] theorem State.ib_setResv (o' n' v' : Nat) (n : Nat) : (s.setResv o' n' v').ib n = s.ib n := rfl
@[simp] theorem State.stream_setResv (o' n' v' : Nat) (n : Nat) : (s.setResv o' n' v').stream n = s.stream n := rfl
@[simp] theorem State.queue_setResv (o' n' v' : Nat) (q : Nat) : (s.setResv o' n' v').queue q = s.queue q := rfl
@[simp] theorem State.hitch_setResv (o' n' v' : Nat) (k : Nat) : (s.setResv o' n' v').hitch k = s.hitch k := rfl
@[simp] theorem State.ctxSt_setResv (o' n' v' : Nat) (c : Nat) : (s.setResv o' n' v').ctxSt c = s.ctxSt c := rfl

@[simp] theorem State.reg_setEe (e' : Nat) (j' : Option EeJob) (j : Nat) : (s.setEe e' j').reg j = s.reg j := rfl
@[simp] theorem State.regField_setEe (e' : Nat) (j' : Option EeJob) (j lo w : Nat) : (s.setEe e' j').regField j lo w = s.regField j lo w := rfl
@[simp] theorem State.entry_setEe (e' : Nat) (j' : Option EeJob) (i j : Nat) : (s.setEe e' j').entry i j = s.entry i j := rfl
@[simp] theorem State.str_setEe (e' : Nat) (j' : Option EeJob) (n i : Nat) : (s.setEe e' j').str n i = s.str n i := rfl
@[simp] theorem State.ctx_setEe (e' : Nat) (j' : Option EeJob) (c i : Nat) : (s.setEe e' j').ctx c i = s.ctx c i := rfl
@[simp] theorem State.stage_setEe (e' : Nat) (j' : Option EeJob)  : (s.setEe e' j').stage  = s.stage  := rfl
@[simp] theorem State.power_setEe (e' : Nat) (j' : Option EeJob)  : (s.setEe e' j').power  = s.power  := rfl
@[simp] theorem State.frozen_setEe (e' : Nat) (j' : Option EeJob)  : (s.setEe e' j').frozen  = s.frozen  := rfl
@[simp] theorem State.fn_setEe (e' : Nat) (j' : Option EeJob) (k : Nat) : (s.setEe e' j').fn k = s.fn k := rfl
@[simp] theorem State.ib_setEe (e' : Nat) (j' : Option EeJob) (n : Nat) : (s.setEe e' j').ib n = s.ib n := rfl
@[simp] theorem State.stream_setEe (e' : Nat) (j' : Option EeJob) (n : Nat) : (s.setEe e' j').stream n = s.stream n := rfl
@[simp] theorem State.queue_setEe (e' : Nat) (j' : Option EeJob) (q : Nat) : (s.setEe e' j').queue q = s.queue q := rfl
@[simp] theorem State.hitch_setEe (e' : Nat) (j' : Option EeJob) (k : Nat) : (s.setEe e' j').hitch k = s.hitch k := rfl
@[simp] theorem State.ctxSt_setEe (e' : Nat) (j' : Option EeJob) (c : Nat) : (s.setEe e' j').ctxSt c = s.ctxSt c := rfl
@[simp] theorem State.buf_setEe (e' : Nat) (j' : Option EeJob) (n k : Nat) : (s.setEe e' j').buf n k = s.buf n k := rfl

@[simp] theorem State.reg_modNode (f' : Node → Node) (j : Nat) : (s.modNode f').reg j = s.reg j := rfl
@[simp] theorem State.regField_modNode (f' : Node → Node) (j lo w : Nat) : (s.modNode f').regField j lo w = s.regField j lo w := rfl
@[simp] theorem State.entry_modNode (f' : Node → Node) (i j : Nat) : (s.modNode f').entry i j = s.entry i j := rfl
@[simp] theorem State.str_modNode (f' : Node → Node) (n i : Nat) : (s.modNode f').str n i = s.str n i := rfl
@[simp] theorem State.ctx_modNode (f' : Node → Node) (c i : Nat) : (s.modNode f').ctx c i = s.ctx c i := rfl
@[simp] theorem State.stage_modNode (f' : Node → Node)  : (s.modNode f').stage  = s.stage  := rfl
@[simp] theorem State.power_modNode (f' : Node → Node)  : (s.modNode f').power  = s.power  := rfl
@[simp] theorem State.frozen_modNode (f' : Node → Node)  : (s.modNode f').frozen  = s.frozen  := rfl
@[simp] theorem State.fn_modNode (f' : Node → Node) (k : Nat) : (s.modNode f').fn k = s.fn k := rfl
@[simp] theorem State.ib_modNode (f' : Node → Node) (n : Nat) : (s.modNode f').ib n = s.ib n := rfl
@[simp] theorem State.stream_modNode (f' : Node → Node) (n : Nat) : (s.modNode f').stream n = s.stream n := rfl
@[simp] theorem State.queue_modNode (f' : Node → Node) (q : Nat) : (s.modNode f').queue q = s.queue q := rfl
@[simp] theorem State.hitch_modNode (f' : Node → Node) (k : Nat) : (s.modNode f').hitch k = s.hitch k := rfl
@[simp] theorem State.ctxSt_modNode (f' : Node → Node) (c : Nat) : (s.modNode f').ctxSt c = s.ctxSt c := rfl
@[simp] theorem State.buf_modNode (f' : Node → Node) (n k : Nat) : (s.modNode f').buf n k = s.buf n k := rfl

@[simp] theorem State.reg_modTth (f' : Tether → Tether) (j : Nat) : (s.modTth f').reg j = s.reg j := rfl
@[simp] theorem State.regField_modTth (f' : Tether → Tether) (j lo w : Nat) : (s.modTth f').regField j lo w = s.regField j lo w := rfl
@[simp] theorem State.entry_modTth (f' : Tether → Tether) (i j : Nat) : (s.modTth f').entry i j = s.entry i j := rfl
@[simp] theorem State.str_modTth (f' : Tether → Tether) (n i : Nat) : (s.modTth f').str n i = s.str n i := rfl
@[simp] theorem State.ctx_modTth (f' : Tether → Tether) (c i : Nat) : (s.modTth f').ctx c i = s.ctx c i := rfl
@[simp] theorem State.stage_modTth (f' : Tether → Tether)  : (s.modTth f').stage  = s.stage  := rfl
@[simp] theorem State.power_modTth (f' : Tether → Tether)  : (s.modTth f').power  = s.power  := rfl
@[simp] theorem State.frozen_modTth (f' : Tether → Tether)  : (s.modTth f').frozen  = s.frozen  := rfl
@[simp] theorem State.fn_modTth (f' : Tether → Tether) (k : Nat) : (s.modTth f').fn k = s.fn k := rfl
@[simp] theorem State.ib_modTth (f' : Tether → Tether) (n : Nat) : (s.modTth f').ib n = s.ib n := rfl
@[simp] theorem State.stream_modTth (f' : Tether → Tether) (n : Nat) : (s.modTth f').stream n = s.stream n := rfl
@[simp] theorem State.queue_modTth (f' : Tether → Tether) (q : Nat) : (s.modTth f').queue q = s.queue q := rfl
@[simp] theorem State.hitch_modTth (f' : Tether → Tether) (k : Nat) : (s.modTth f').hitch k = s.hitch k := rfl
@[simp] theorem State.ctxSt_modTth (f' : Tether → Tether) (c : Nat) : (s.modTth f').ctxSt c = s.ctxSt c := rfl
@[simp] theorem State.buf_modTth (f' : Tether → Tether) (n k : Nat) : (s.modTth f').buf n k = s.buf n k := rfl

@[simp] theorem State.reg_modStart (f' : Start → Start) (j : Nat) : (s.modStart f').reg j = s.reg j := rfl
@[simp] theorem State.regField_modStart (f' : Start → Start) (j lo w : Nat) : (s.modStart f').regField j lo w = s.regField j lo w := rfl
@[simp] theorem State.entry_modStart (f' : Start → Start) (i j : Nat) : (s.modStart f').entry i j = s.entry i j := rfl
@[simp] theorem State.str_modStart (f' : Start → Start) (n i : Nat) : (s.modStart f').str n i = s.str n i := rfl
@[simp] theorem State.ctx_modStart (f' : Start → Start) (c i : Nat) : (s.modStart f').ctx c i = s.ctx c i := rfl
@[simp] theorem State.stage_modStart (f' : Start → Start)  : (s.modStart f').stage  = s.stage  := rfl
@[simp] theorem State.power_modStart (f' : Start → Start)  : (s.modStart f').power  = s.power  := rfl
@[simp] theorem State.frozen_modStart (f' : Start → Start)  : (s.modStart f').frozen  = s.frozen  := rfl
@[simp] theorem State.fn_modStart (f' : Start → Start) (k : Nat) : (s.modStart f').fn k = s.fn k := rfl
@[simp] theorem State.ib_modStart (f' : Start → Start) (n : Nat) : (s.modStart f').ib n = s.ib n := rfl
@[simp] theorem State.stream_modStart (f' : Start → Start) (n : Nat) : (s.modStart f').stream n = s.stream n := rfl
@[simp] theorem State.queue_modStart (f' : Start → Start) (q : Nat) : (s.modStart f').queue q = s.queue q := rfl
@[simp] theorem State.hitch_modStart (f' : Start → Start) (k : Nat) : (s.modStart f').hitch k = s.hitch k := rfl
@[simp] theorem State.ctxSt_modStart (f' : Start → Start) (c : Nat) : (s.modStart f').ctxSt c = s.ctxSt c := rfl
@[simp] theorem State.buf_modStart (f' : Start → Start) (n k : Nat) : (s.modStart f').buf n k = s.buf n k := rfl

end Sys2Proof.Machine
end

