-- ==== Sys2Proof/Laws/Regs.lean ====
section
/-! SUPPORT. Reads after writes of registers, dictionary entries and the records of the device's units, on states that satisfy the
invariant; each named update keeps it. -/

namespace Sys2Proof.Machine

variable {s : State}

/-- A table with one default: a read after a write. -/
theorem Tbl.get_set {α : Type} [DecidableEq α] {d : α} {t : Tbl α} (h : Tbl.ok d t) (i j : Nat) (v : α) :
    Tbl.get d (Tbl.set d t i v) j = if j = i then v else Tbl.get d t j := by
  split
  · next e => subst e; exact Tbl.get_set_self (d := fun _ => d) h _ v
  · next e => exact Tbl.get_set_ne e v (Tbl.canon_pairwise h)

/-! ### Each named update keeps the invariant -/

@[simp] theorem State.setReg_inv (h : s.Inv) (k : Nat) (v : W64) : (s.setReg k v).Inv := (State.setReg_keep s k v (Kept.refl s)).inv h
@[simp] theorem State.setField_inv (h : s.Inv) (k lo w x : Nat) : (s.setField k lo w x).Inv := (State.setField_keep s k lo w x (Kept.refl s)).inv h
@[simp] theorem State.count_inv (h : s.Inv) (k n : Nat) : (s.count k n).Inv := (State.count_keep s k n (Kept.refl s)).inv h
@[simp] theorem State.dropRegs_inv (h : s.Inv) (d : Nat → Bool) : (s.dropRegs d).Inv := (State.dropRegs_keep s d (Kept.refl s)).inv h
@[simp] theorem State.setEntry_inv (h : s.Inv) (i j v : Nat) : (s.setEntry i j v).Inv := (State.setEntry_keep s i j v (Kept.refl s)).inv h
@[simp] theorem State.countEntry_inv (h : s.Inv) (i j n : Nat) : (s.countEntry i j n).Inv := (State.countEntry_keep s i j n (Kept.refl s)).inv h
@[simp] theorem State.dmPut_inv (h : s.Inv) (k o : Nat) (bs : List Byte) : (s.dmPut k o bs).Inv := (State.dmPut_keep s k o bs (Kept.refl s)).inv h
@[simp] theorem State.dmResult_inv (h : s.Inv) (k : Nat) (c : W16) (d : Bool) : (s.dmResult k c d).Inv :=
  (State.dmResult_keep s k c d (Kept.refl s)).inv h
@[simp] theorem State.dmRequest_inv (h : s.Inv) (k i j : Nat) (w : Bool) (v : List Byte) : (s.dmRequest k i j w v).Inv :=
  (State.dmRequest_keep s k i j w v (Kept.refl s)).inv h
@[simp] theorem State.send_inv (h : s.Inv) (o : Out) : (s.send o).Inv := (State.send_keep s o (Kept.refl s)).inv h
@[simp] theorem State.modFn_inv (h : s.Inv) (k : Nat) (f : FnSt → FnSt) : (s.modFn k f).Inv := (State.modFn_keep s k f (Kept.refl s)).inv h
theorem State.setIb_inv (h : s.Inv) (n : Nat) {i : Ibex} (hi : i.ok) : (s.setIb n i).Inv := (State.setIb_keep s n i (Kept.refl s) (fun _ => hi)).inv h
theorem State.modIb_inv (h : s.Inv) (n : Nat) {f : Ibex → Ibex} (hf : ∀ i, i.ok → (f i).ok) : (s.modIb n f).Inv :=
  (State.modIb_keep s n f (Kept.refl s) hf).inv h
@[simp] theorem State.setStream_inv (h : s.Inv) (n : Nat) (x : Stream) : (s.setStream n x).Inv := (State.setStream_keep s n x (Kept.refl s)).inv h
@[simp] theorem State.modStream_inv (h : s.Inv) (n : Nat) (f : Stream → Stream) : (s.modStream n f).Inv :=
  (State.modStream_keep s n f (Kept.refl s)).inv h
@[simp] theorem State.setQueue_inv (h : s.Inv) (q : Nat) (x : Queue) : (s.setQueue q x).Inv := (State.setQueue_keep s q x (Kept.refl s)).inv h
@[simp] theorem State.setStep_inv (h : s.Inv) (q : Nat) (x : Option Step) : (s.setStep q x).Inv := (State.setStep_keep s q x (Kept.refl s)).inv h
@[simp] theorem State.modStep_inv (h : s.Inv) (q : Nat) (f : Step → Step) : (s.modStep q f).Inv := (State.modStep_keep s q f (Kept.refl s)).inv h
@[simp] theorem State.setHitch_inv (h : s.Inv) (k : Nat) (x : Hitch) : (s.setHitch k x).Inv := (State.setHitch_keep s k x (Kept.refl s)).inv h
@[simp] theorem State.setCtxSt_inv (h : s.Inv) (c : Nat) (x : CtxSt) : (s.setCtxSt c x).Inv := (State.setCtxSt_keep s c x (Kept.refl s)).inv h
@[simp] theorem State.setBuf_inv (h : s.Inv) (n k : Nat) (b : Buf) : (s.setBuf n k b).Inv := (State.setBuf_keep s n k b (Kept.refl s)).inv h
@[simp] theorem State.timeIs_inv (h : s.Inv) (t : Nat) : (s.timeIs t).Inv := (State.timeIs_keep s t (Kept.refl s)).inv h
@[simp] theorem State.modNode_inv (h : s.Inv) (f : Node → Node) : (s.modNode f).Inv := (State.modNode_keep s f (Kept.refl s)).inv h
@[simp] theorem State.modTth_inv (h : s.Inv) (f : Tether → Tether) : (s.modTth f).Inv := (State.modTth_keep s f (Kept.refl s)).inv h
theorem State.modStart_inv (h : s.Inv) {f : Start → Start} (hf : ∀ x, x.ok → (f x).ok) : (s.modStart f).Inv :=
  (State.modStart_keep s f (Kept.refl s) hf).inv h
@[simp] theorem State.setEe_inv (h : s.Inv) (e : Nat) (j : Option EeJob) : (s.setEe e j).Inv := (State.setEe_keep s e j (Kept.refl s)).inv h

/-! ### Registers -/

theorem State.reg_setReg (h : s.Inv) (k j : Nat) (v : W64) : (s.setReg k v).reg j = if j = k then v else s.reg j := by
  unfold State.setReg State.reg
  split
  · next e => subst e; exact Tbl.get_set_self h.regs _ v
  · next e => exact Tbl.get_set_ne e v (Tbl.canon_pairwise h.regs)

theorem State.reg_setReg_self (h : s.Inv) (k : Nat) (v : W64) : (s.setReg k v).reg k = v := by rw [State.reg_setReg h, if_pos rfl]

theorem State.reg_setReg_ne (h : s.Inv) {k j : Nat} (e : j ≠ k) (v : W64) : (s.setReg k v).reg j = s.reg j := by
  rw [State.reg_setReg h, if_neg e]

theorem State.reg_count (h : s.Inv) (k n j : Nat) : (s.count k n).reg j = if j = k then s.reg k + BitVec.ofNat 64 n else s.reg j :=
  State.reg_setReg h k j _

theorem State.reg_setField (h : s.Inv) (k lo w x j : Nat) :
    (s.setField k lo w x).reg j = if j = k then BitVec.ofNat 64 (putField (s.reg k).toNat lo w x) else s.reg j := State.reg_setReg h k j _

theorem State.regField_setField (h : s.Inv) (k : Nat) {lo w : Nat} (hw : lo + w ≤ 64) (x : Nat) :
    (s.setField k lo w x).regField k lo w = x % 2 ^ w := by
  unfold State.regField
  rw [State.reg_setField h, if_pos rfl, BitVec.toNat_ofNat, Nat.mod_eq_of_lt (putField_lt (s.reg k).isLt hw), field_putField]

theorem State.regField_setField_apart (h : s.Inv) {k j lo w lo' w' : Nat} (hw : lo + w ≤ 64) (x : Nat)
    (e : j ≠ k ∨ lo + w ≤ lo' ∨ lo' + w' ≤ lo) : (s.setField k lo w x).regField j lo' w' = s.regField j lo' w' := by
  unfold State.regField
  rw [State.reg_setField h]
  split
  · next e' =>
    subst e'
    rw [BitVec.toNat_ofNat, Nat.mod_eq_of_lt (putField_lt (s.reg _).isLt hw)]
    rcases e with e | e | e
    · exact absurd rfl e
    · exact field_putField_above _ _ _ _ _ _ e
    · exact field_putField_below _ _ _ _ _ _ e
  · rfl

theorem State.reg_dmResult (h : s.Inv) (k : Nat) (c : W16) (d : Bool) (j : Nat) :
    (s.dmResult k c d).reg j = if j = dmReg k 0x10 then BitVec.ofNat 64 (c.toNat + if d then 0x10000 else 0) else s.reg j :=
  State.reg_setReg h _ j _

/-! ### Dictionary entries -/

theorem State.entry_setEntry (h : s.Inv) (i j v a b : Nat) :
    (s.setEntry i j v).entry a b = if dkey a b = dkey i j then v % 2 ^ 64 else s.entry a b := by
  unfold State.setEntry State.entry
  split
  · next e =>
    simp only [e]
    rw [Tbl.get_set_self h.dict, BitVec.toNat_ofNat]
  · next e => simp only; rw [Tbl.get_set_ne e _ (Tbl.canon_pairwise h.dict)]

theorem State.entry_countEntry (h : s.Inv) (i j n a b : Nat) :
    (s.countEntry i j n).entry a b = if dkey a b = dkey i j then (s.entry i j + n) % 2 ^ 64 else s.entry a b :=
  State.entry_setEntry h i j _ a b

/-! ### Records -/

theorem State.ib_setIb (h : s.Inv) (n m : Nat) (i : Ibex) : (s.setIb n i).ib m = if m = n then i else s.ib m := Tbl.get_set h.ibex n m i
theorem State.region_modRegion (h : s.Inv) (n key m j : Nat) (f : Region → Region) :
    (s.modRegion n key f).region m j = if m = n ∧ j = key then f (s.region n key) else s.region m j := by
  unfold State.modRegion State.region State.modIb State.setIb State.ib
  rw [Tbl.get_set h.ibex]
  split
  · next e =>
    subst e
    exact (Tbl.get_set (h.ib m).regions key j _).trans (by simp [State.ib])
  · next e => rw [if_neg (fun x => e x.1)]
theorem State.ib_modIb (h : s.Inv) (n m : Nat) (f : Ibex → Ibex) : (s.modIb n f).ib m = if m = n then f (s.ib n) else s.ib m :=
  Tbl.get_set h.ibex n m _
theorem State.stream_setStream (h : s.Inv) (n m : Nat) (x : Stream) : (s.setStream n x).stream m = if m = n then x else s.stream m :=
  Tbl.get_set h.streams n m x
theorem State.stream_modStream (h : s.Inv) (n m : Nat) (f : Stream → Stream) :
    (s.modStream n f).stream m = if m = n then f (s.stream n) else s.stream m := Tbl.get_set h.streams n m _
theorem State.queue_setQueue (h : s.Inv) (q p : Nat) (x : Queue) : (s.setQueue q x).queue p = if p = q then x else s.queue p :=
  Tbl.get_set h.queues q p x
theorem State.queue_setStep (h : s.Inv) (q p : Nat) (x : Option Step) :
    (s.setStep q x).queue p = if p = q then { s.queue q with held := x } else s.queue p := Tbl.get_set h.queues q p _
theorem State.queue_modStep (h : s.Inv) (q p : Nat) (f : Step → Step) :
    (s.modStep q f).queue p = if p = q then { s.queue q with held := (s.queue q).held.map f } else s.queue p := Tbl.get_set h.queues q p _
theorem State.hitch_setHitch (h : s.Inv) (k j : Nat) (x : Hitch) : (s.setHitch k x).hitch j = if j = k then x else s.hitch j :=
  Tbl.get_set h.hitches k j x
theorem State.ctxSt_setCtxSt (h : s.Inv) (c e : Nat) (x : CtxSt) : (s.setCtxSt c x).ctxSt e = if e = c then x else s.ctxSt e :=
  Tbl.get_set h.ctxs c e x
theorem State.fn_modFn (h : s.Inv) (k j : Nat) (f : FnSt → FnSt) : (s.modFn k f).fn j = if j = k then f (s.fn k) else s.fn j :=
  Tbl.get_set h.fns k j _
theorem State.buf_setBuf (h : s.Inv) (n k m j : Nat) (b : Buf) :
    (s.setBuf n k b).buf m j = if bufKey m j = bufKey n k then b else s.buf m j := Tbl.get_set h.coil.bufs _ _ b

end Sys2Proof.Machine
end

