-- ==== Sys2Proof/Laws/Shared.lean ====
section
/-! SUPPORT. What each shared operation of the host's paths does, said once: register accesses, dictionary accesses, and units. -/

namespace Sys2Proof.Machine

variable {s : State}

@[simp] theorem State.wakeUp_of_awake (hp : s.power = 0) (hn : s.tth.nap = 0) : s.wakeUp = s := by
  unfold State.wakeUp; simp [hp, hn]

/-- A host access of a serving device takes its effect. -/
theorem State.hostAct_serving {k : Nat} (h : s.Serving k) (n : Nat) (f : State → State) : s.hostAct k n f = .next (f (s.received n)) := by
  unfold State.hostAct
  simp [h.ready, h.live, h.run, h.fn, State.wakeUp_of_awake h.run h.noNap]

/-- A mailbox access of a serving device takes its effect. -/
theorem State.hostDict_serving {k : Nat} (h : s.Serving k) (n : Nat) (f : State → State) : s.hostDict k n f = .next (f (s.received n)) := by
  unfold State.hostDict
  rw [if_neg (by simp [h.ready]), State.hostAct_serving h]

/-- Before READY, in recovery, in Standby, on a frozen port and of a function that does not exist a host access changes nothing (R490, R578,
R516, R33). -/
theorem State.hostAct_discards {k : Nat} (h : s.stage ≠ 11 ∨ s.frozen = true ∨ s.power = 3 ∨ s.enabled k = false) (n : Nat) (f : State → State) :
    s.hostAct k n f = .next s := by
  unfold State.hostAct
  rw [if_pos]
  rcases h with h | h | h | h <;> simp [h]

/-! ### What counting a payload leaves alone -/

section received
variable (n : Nat)
@[simp] theorem State.received_reg (k : Nat) : (s.received n).reg k = s.reg k := rfl
@[simp] theorem State.received_entry (i j : Nat) : (s.received n).entry i j = s.entry i j := rfl
@[simp] theorem State.received_dict : (s.received n).dict = s.dict := rfl
@[simp] theorem State.received_tth : (s.received n).tth = s.tth := rfl
@[simp] theorem State.received_mem : (s.received n).mem = s.mem := rfl
@[simp] theorem State.received_out : (s.received n).out = s.out := rfl
@[simp] theorem State.received_fn (k : Nat) : (s.received n).fn k = s.fn k := rfl
@[simp] theorem State.received_enabled (k : Nat) : (s.received n).enabled k = s.enabled k := rfl
@[simp] theorem State.received_dmDone (k : Nat) : (s.received n).dmDone k = s.dmDone k := rfl
@[simp] theorem State.received_power : (s.received n).power = s.power := rfl
@[simp] theorem State.received_stage : (s.received n).stage = s.stage := rfl
@[simp] theorem State.received_frozen : (s.received n).frozen = s.frozen := rfl
end received

theorem State.dictTry_ok {o : Origin} {idx sub : Nat} {v : List Byte} {f : State → Except W16 State} {t : State}
    (hp : s.power = 0) (hn : s.tth.nap = 0) (hg : s.dictGate o idx sub true v = none) (hf : f s = .ok t) :
    s.dictTry o idx sub v f = (t, 0) := by
  unfold State.dictTry
  rw [State.wakeUp_of_awake hp hn]
  simp [hg, hf]

/-- The gate of an access reads entries alone, which a mailbox request leaves. -/
theorem State.dictGate_congr {t : State} (h : t.dict = s.dict) (o : Origin) (idx sub : Nat) (w : Bool) (v : List Byte) :
    t.dictGate o idx sub w v = s.dictGate o idx sub w v := by
  have he : ∀ a b, t.entry a b = s.entry a b := fun a b => by unfold State.entry; rw [h]
  unfold State.dictGate State.right State.power State.stage
  simp only [he]

@[simp] theorem State.dmRequest_dict (k idx sub : Nat) (w : Bool) (v : List Byte) : (s.dmRequest k idx sub w v).dict = s.dict := by
  unfold State.dmRequest; split <;> rfl
@[simp] theorem State.dmRequest_tth (k idx sub : Nat) (w : Bool) (v : List Byte) : (s.dmRequest k idx sub w v).tth = s.tth := by
  unfold State.dmRequest; split <;> rfl
theorem State.asked_dict (o : Origin) (idx sub : Nat) (v : List Byte) : (s.asked o idx sub v).dict = s.dict := by
  cases o <;> simp [State.asked]

/-- No access waits for a wake outside Nap (R536). -/
theorem State.mustWake_of_run {idx : Nat} (h : s.power = 0) : s.mustWake idx = false := by simp [State.mustWake, h]

/-- A command entry written by an origin whose access reaches the store and passes the checks: the owner's effect, then the
answer. -/
theorem State.dictCmd_ok {o : Origin} {idx sub : Nat} {v : List Byte} {f : State → Except W16 State} {t : State}
    (hr : s.Reaches o) (hg : s.dictGate o idx sub true v = none) (hf : f (s.asked o idx sub v) = .ok t) :
    s.dictCmd o idx sub v f = .next (t.answered o 0) := by
  have hg' : (s.asked o idx sub v).dictGate o idx sub true v = none := by
    rw [State.dictGate_congr (State.asked_dict o idx sub v)]; exact hg
  unfold State.dictCmd State.viaPath
  cases o with
  | kdp =>
    obtain ⟨_, hp, hn⟩ := hr
    simp only [State.asked, State.answered, State.mustWake_of_run hp, Bool.false_eq_true, if_false] at *
    rw [State.dictTry_ok hp hn hg' hf]
  | fn k =>
    obtain ⟨hs, hd⟩ := hr
    simp only
    rw [State.hostDict_serving hs]
    have hp : ((s.received (8 + v.length)).dmRequest k.val idx sub true v).power = 0 := by
      have := State.dmRequest_dict (s := s.received (8 + v.length)) k.val idx sub true v
      unfold State.power State.entry; rw [this]; exact hs.run
    simp only [State.received_dmDone, hd, Bool.not_true, Bool.false_eq_true, if_false, if_true, State.asked, State.answered,
      State.mustWake_of_run hp] at *
    rw [State.dictTry_ok hp ?_ hg' hf]
    rw [State.dmRequest_tth]; exact hs.noNap

end Sys2Proof.Machine
end

