-- ==== Sys2Proof/Machine/Views.lean ====
section
/-! DEFINITION. What a read of BAR0 returns (R7, R9, R11): stored registers, the read-only registers that show other state, and 0
for write-only and unassigned offsets. No command reads a register; the statements and the host read through this. -/

namespace Sys2Proof.Machine

/-- Fields placed at their bits. -/
def placed (fs : List (Nat × Nat)) : Nat := (fs.map fun f => f.2 * 2 ^ f.1).sum

/-- A condition as a bit. -/
abbrev bitIf (b : Bool) : Nat := if b then 1 else 0

/-- The instruction that Ibex n has loaded outside the Braid, when its opcode is one of `ops`. -/
def State.unitJob (s : State) (n : Nat) (ops : List Nat) : Option Loaded := (s.ib n).cur.bind fun l => if ops.contains (opcode l.raw) then some l else none

/-- The region of quarter q is in a knot hold (R90, Table 3.8). -/
def State.quarterHeld (s : State) (n q : Nat) : Bool :=
  match s.nextPass n q with
  | some (key, _, t, p) => s.knotHeld n key t p
  | none => false

/-- BRD_STATUS of Ibex n (Table 3.8). When a product has left the tree is time: BUSY stands from a knot until the output pipe takes
the pass's tile or the next knot (log entry 14). -/
def State.brdStatus (s : State) (n : Nat) : Nat :=
  let shape := (((s.jobs n).head?).bind fun j => j.2.mat.map (·.shape)).getD 0
  let held := (List.range 4).map fun q => (4 + q, bitIf (s.quarterHeld n q))
  let fault := (List.range 4).map fun q => (8 + q, s.regField (ibexReg n 1 (0x10 + 8 * q)) 63 1)
  placed ([(0, shape), (3, bitIf ((s.ib n).regions.any (·.2.flight))), (12, s.regField (ibexReg n 1 8) 12 4),
    (16, (s.ib n).ramp.level), (20, bitIf (s.ib n).ramp.ramping)] ++ held ++ fault)

/-- Resident slot k of Ibex n. -/
def State.residentAt (s : State) (n k : Nat) : Option Resident := Tbl.get none (s.ib n).slots k

/-- BRD_ACC_PARTk. -/
def State.accPart (s : State) (n k : Nat) : Nat :=
  match s.residentAt n k with
  | some r => placed [(0, r.accBase), (8, r.accSize), (16, r.ctx), (31, 1)]
  | none => 0

/-- What quarter q shows beside a state. -/
def Shown.fields (x : Shown) (state : Nat) : Nat × Nat :=
  (placed [(0, state), (8, x.opcode), (16, x.ctx), (32, x.idx), (48, x.slice % 4096)], x.ordinal % 2 ^ 32)

/-- A loaded instruction that has not started shows as one in check (R147): a matrix instruction on its own quarters. -/
def Loaded.verify (l : Loaded) (q : Nat) : Option Shown :=
  if l.mat.isNone || l.quarters.contains q then
    some { opcode := opcode l.raw, ctx := l.ctx, idx := l.idx, slice := 0, ordinal := 0, quarters := l.quarters } else none

/-- What the region records of quarter q show, where no job covers it. -/
def State.shownAt (s : State) (n q : Nat) : Option (Nat × Shown) :=
  (s.ib n).regions.findSome? fun e => e.2.shown.bind fun x =>
    if e.2.job.isNone && x.quarters.contains q then some (e.2.state, x) else none

/-- The step and the rank that the walker of Ibex n works for: they run, or their run has been stopped and is being saved. -/
def State.walkerOf (s : State) (n : Nat) : Option (Step × Rank) :=
  (s.openSteps.find? fun x => (x.2.state == .running || (x.2.state == .suspending && !x.2.parkedSave)) && x.2.ranks.any fun r => r.ibex == n).bind
    fun x => (x.2.ranks.find? fun r => r.ibex == n).map fun r => (x.2, r)

/-- What a rank shows of the instruction that its walker stands at (R153). -/
def Rank.shows (r : Rank) (ctx : Nat) : Shown :=
  { opcode := r.stands.1, ctx := ctx, idx := r.stands.2, slice := 0, ordinal := 0, quarters := [] }

/-- WLK_STATUSq and WLK_TILEq (R147, Table 4.6): the job that covers quarter q, what its region keeps of one that is over, or the walker
itself: preempted, waiting at a meeting, or with an instruction loaded, which runs once a piece of it has run. -/
def State.wlkStatus (s : State) (n q : Nat) : Nat × Nat :=
  match s.jobAt n q, s.shownAt n q, s.walkerOf n with
  | some (key, l), _, _ => ((s.region n key).show l).fields 2
  | none, some (st, x), _ => x.fields st
  | none, none, none => (0, 0)
  | none, none, some (st, r) =>
    if r.stopped then (r.shows st.ctx).fields 4
    else if r.wait == .sync then (r.shows st.ctx).fields 3
    else match (s.ib n).cur.bind fun l => l.verify q with
      | some x => x.fields (if r.done = 0 then 1 else 2)
      | none => (0, 0)

/-- SRT_STATUS (Table 5.10): the sorter of rank 0 once it has begun; PHASE by the piece that comes next (R189). -/
def State.srtStatus (s : State) (n : Nat) : Nat :=
  match s.unitJob n [0x90], s.rankOf n with
  | some l, some (_, _, _, r) =>
    if l.rank ≠ 0 || r.done = 0 then 0
    else
      let keys := match l.descs with | some sc :: _ => sc.elems | _ => 0
      let m := 1 + srtPasses l.raw keys
      let x := r.sorting
      let cands := srtNms l.raw && decide (r.done - m < x.order.length) && decide (x.kept.length < srtOutK l.raw)
      placed [(0, if r.done < m then 1 else if cands then 2 else 3), (16, l.ctx)]
  | _, _ => 0

/-- The layer in force on Ibex n: its number and the rank's count (Table 6.4). -/
def State.layerOf (s : State) (n : Nat) : Nat × Nat :=
  match s.rankOf n with
  | some (_, _, _, r) => (r.layerNo, r.sat)
  | none => (0, 0)

/-- QNT_STATUS (Table 6.4). -/
def State.qntStatus (s : State) (n : Nat) : Nat :=
  match s.rankOf n with
  | none => 0
  | some (_, st, _, r) =>
    let hist := (s.unitJob n [0x80]).any fun l => l.rank == 0
    let phase := if hist then 3 else if r.wait == .layer then 2 else if r.wideEnd ≠ 0 then 1 else 0
    placed [(0, bitIf (hist || !(s.ib n).outq.isEmpty)), (1, phase), (16, st.ctx), (32, r.layerNo)]

/-- The instruction outside the Braid that Ibex n runs, its opcode being one of `ops`: a loaded one that may start, on a cluster that has
a share of it. That it runs from the moment it may start is time: DESIGN CHOICE, log entry 69. -/
def State.runningJob (s : State) (n : Nat) (ops : List Nat) : Option Loaded :=
  (s.unitJob n ops).bind fun l => (s.curOf n (opcode l.raw)).bind fun _ => if s.conflicts n l then none else some l

/-- The vector instruction that Ibex n runs: its cluster has rows of it (R230). -/
def State.vectorJob (s : State) (n : Nat) : Option Loaded :=
  (s.runningJob n [0x40, 0x41, 0x42, 0x43]).bind fun l => if vecSplit l.raw || l.rank == 0 then some l else none

/-- SCL_STATUSk (Table 7.13): core 0 controls the schedule, at END, at a hitch instruction and at the meeting of a layer; core
1 + (s mod 3) of rank 0 runs TRACK or EMIT of slot s (R208, R248, R349, R365). -/
def State.sclStatus (s : State) (n k : Nat) : Nat :=
  if k = 0 then
    match s.unitJob n [0x01, 0x04, 0x05, 0x06, 0x07], s.walkerOf n with
    | some l, _ => placed [(0, 1), (16, l.ctx)]
    | none, some (st, r) => if r.wait == .layer then placed [(0, 1), (16, st.ctx)] else 0
    | none, none => 0
  else match s.runningJob n [0x60, 0x61] with
    | some l =>
      if l.rank = 0 ∧ 1 + sclSlot l.raw % 3 = k then placed [(0, if opcode l.raw = 0x60 then 2 else 3), (2, sclSlot l.raw), (16, l.ctx)]
      else 0
    | none => 0

/-- Registers of Ibex n that show other state; `o` is the offset in the Ibex's block. -/
def State.ibexRead (s : State) (n o : Nat) : Option Nat :=
  if o = 0x10008 then some (s.brdStatus n)
  else if 0x10080 ≤ o ∧ o < 0x100A0 then some (s.accPart n ((o - 0x10080) / 8))
  else if 0x20008 ≤ o ∧ o < 0x20028 then some (s.wlkStatus n ((o - 0x20008) / 8)).1
  else if 0x20028 ≤ o ∧ o < 0x20048 then some (s.wlkStatus n ((o - 0x20028) / 8)).2
  else if 0x20088 ≤ o ∧ o < 0x200A8 then
    some (match s.residentAt n ((o - 0x20088) / 8) with | some r => placed [(0, r.used), (16, r.ctx)] | none => 0)
  else if o = 0x30068 then some (s.srtStatus n)
  else if o = 0x40000 then some (s.qntStatus n)
  else if o = 0x40008 then some (s.layerOf n).2
  else if o = 0x50000 then
    some (match s.vectorJob n with | some l => placed [(0, 1), (16, l.ctx)] | none => 0)
  else if 0x50040 ≤ o ∧ o < 0x50060 then some (s.sclStatus n ((o - 0x50040) / 8))
  else if o = 0x50078 then some (s.entry 0x1000 0x08)
  else none

/-- The job of entropy engine e while it parses; one that waits for credit does not (R277). -/
def State.parsing (s : State) (e : Nat) : Option EeJob := (Tbl.get none s.vid.ee e).filter (·.parsing)

/-- GZ_STATUS and GZ_EEk (Table 8.9). -/
def State.gzRead (s : State) (o : Nat) : Option Nat :=
  if o = 0x08 then
    some (placed ((List.range 4).map (fun e => (e, bitIf (s.parsing e).isSome)) ++
      (List.range 16).map (fun p => (4 + p, bitIf (Tbl.get none s.vid.pe p).isSome)) ++ [(20, s.vid.power)]))
  else if 0x10 ≤ o ∧ o < 0x30 then
    some (match s.parsing ((o - 0x10) / 8) with | some j => placed [(0, j.stream), (6, 1)] | none => 0)
  else if o = 0x60 then some (s.entry 0x1000 0x07)
  else none

/-- PRE_STATUSk (Table 9.7). -/
def State.preStatus (s : State) (k : Nat) : Nat :=
  match Tbl.get none s.vid.pre k with
  | none => 0
  | some i =>
    match s.slotOf i.queue i.slot with
    | some (st, sl) => placed [(0, 1), (1, i.slot), (8, i.job), (16, st.ctx), (32, sl.stream)]
    | none => placed [(0, 1), (1, i.slot), (8, i.job)]

/-- SCH_IBEXn and SCH_HITCHk (Table 10.12); SCH_QCMD and SCH_HSIG read 0. -/
def State.schRead (s : State) (o : Nat) : Option Nat :=
  if o = 0x20 ∨ o = 0x30 then some 0
  else if 0x40 ≤ o ∧ o < 0x80 then
    let n := (o - 0x40) / 8
    let part := fun k => match s.residentAt n k with | some r => [(10 * k, r.ctx), (40 + k, 1)] | none => []
    some (placed ((List.range 4).flatMap part ++ [(44, (s.ib n).running), (47, bitIf (s.ib n).reserved.isSome)]))
  else if 0x10000 ≤ o ∧ o < 0x18000 then
    let h := s.hitch ((o - 0x10000) / 8)
    some (placed [(0, h.count), (16, h.holder), (26, bitIf h.held), (27, bitIf h.lock), (28, h.herds), (36, h.waiters.length % 2048)])
  else none

/-- PC_STATUS of pseudo-channel p (Table 11.10). -/
def State.pcStatus (s : State) (p : Nat) : Nat :=
  let pw := match Tbl.get .active s.mem.power p with | .active => 0 | .powerDown => 1 | .selfRefresh => 2 | .failed => 3
  placed [(0, pw), (2, bitIf (s.dozing p)), (8, (s.pcHerd p).getD 0), (11, bitIf (s.pcHerd p).isSome)]

/-- TTH_STATUS (Table 14.8). -/
def State.tthStatus (s : State) : Nat :=
  placed [(0, s.power), (2, s.op), (6, bitIf s.fixed), (7, bitIf s.tth.throttling), (8, bitIf !s.sch.shed.isEmpty),
    (9, bitIf s.tth.hold), (10, bitIf s.tth.tripOut)]

/-- HP_FNk (Table 15.7). -/
def State.hpFn (s : State) (k : Nat) : Nat :=
  placed [(0, s.atsMode k), (8, s.regField (fnCtl k) 8 5), (16, bitIf (s.enabled k)), (17, bitIf (s.fn k).bme),
    (18, bitIf (s.fn k).flrBusy), (19, bitIf (s.fn k).atsEn)]

/-- GLB_START and GLB_STRAPS (Table 17.11). -/
def State.glbRead (s : State) (o : Nat) : Nat :=
  if o = 0 then
    placed [(0, s.stage), (4, s.entry 0x1300 0x03), (8, field s.start.runs 0 0), (9, field s.start.runs 1 1),
      (10, field (s.entry 0x1300 0x05) 7 7), (16, s.entry 0x1300 0x0C)]
  else placed [(0, s.entry 0x1100 0x03), (7, bitIf s.start.bootSel)]

/-- The 8 bytes at an aligned offset of the register map, as function k reads them. -/
def State.readReg (s : State) (k o : Nat) : Nat :=
  let stored := (s.reg o).toNat
  if o = 0 ∨ o = 8 then s.glbRead o
  else if dmBase ≤ o ∧ o < dmBase + 0x10000 then (if o < dmBase + 0x18 then (s.reg (fnReg k o)).toNat else 0)
  else if dmBase + 0x10000 ≤ o ∧ o < dmBase + 0x20000 then natLE (Tbl.getList 0 s.dm (k * 65536 + (o - dmBase - 0x10000)) 8)
  else if 0x01000000 ≤ o ∧ o < 0x02000000 then (s.ibexRead ((o - 0x01000000) / 0x200000) (o % 0x200000)).getD stored
  else if gzBase ≤ o ∧ o < gzBase + 0x68 then (s.gzRead (o - gzBase)).getD stored
  else if preBase ≤ o ∧ o < preBase + 0x20 then s.preStatus ((o - preBase) / 8)
  else if schBase ≤ o ∧ o < schBase + 0x38 then (s.schRead (o - schBase)).getD (s.reg (fnReg k o)).toNat
  else if schBase ≤ o ∧ o < schBase + 0x18000 then (s.schRead (o - schBase)).getD stored
  else if memBase + 0x1000 ≤ o ∧ o < memBase + 0x2000 ∧ o % 0x80 = 0 then s.pcStatus ((o - memBase - 0x1000) / 0x80)
  else if o = intBase + 0x50 then s.mem.splice.length
  else if o = intBase + 0x58 then s.mem.scrubAt
  else if o = coilBase then 0
  else if coilBase ≤ o ∧ o < coilBase + 0x28 then (s.reg (fnReg k o)).toNat
  else if o = tthBase then s.tthStatus
  else if tthBase + 0x100 ≤ o ∧ o < tthBase + 0x180 then
    ((List.range 64).map fun j => bitIf (s.sch.shed.contains ((o - tthBase - 0x100) / 8 * 64 + j)) * 2 ^ j).sum
  else if o = hpBase + 8 then 0
  else if o = hpBase + 0x20 then s.hp.rx % 2 ^ 64
  else if o = hpBase + 0x28 then (sentBytes s.out - s.hp.txBase) % 2 ^ 64
  else if hpBase + 0x100 ≤ o ∧ o < hpBase + 0x300 then s.hpFn ((o - hpBase - 0x100) / 8)
  else if hpBase + 0x10000 ≤ o ∧ o < hpBase + 0x10200 then
    (let v := (s.reg (fnReg k o)).toNat
     if o % 16 = 8 then v % 2 ^ 32 + bitIf ((s.fn k).masked.getLsbD ((o - hpBase - 0x10000) / 16)) * 2 ^ 32 else v)
  else if o = hpBase + 0x11000 then (s.fn k).pend.toNat
  else stored

/-- The on-package CAN termination is on: CAN_TERM reads high and the always-on domain has power (R622). -/
def State.terminated (s : State) : Bool := s.pins.term && (s.pins.vin || s.pins.aux)

/-- What the TAP shifts out after a capture: IDCODE (version 1, part 0x9064) or the bit of BYPASS (R623). The boundary cells are the
board's. -/
def State.tapRead (s : State) : Option Nat :=
  match s.pins.tap with
  | .idcode => some 0x19064D67
  | .bypass => some 0
  | _ => none

/-- The stream of a per-stream register of a VF's map (Table 15.3). -/
def vfStream (o : Nat) : Option Nat :=
  if 0x1000 ≤ o ∧ o < 0x1400 then some ((o - 0x1000) / 16)
  else if 0x2000 ≤ o ∧ o < 0x3000 then some ((o - 0x2000) / 0x40)
  else none

/-- A read of function k at an offset of its BAR0 (R494). The registers of a stream are reached through its owner alone (R302): through
another VF they read 0 (DEDUCED, log entry 64). -/
def State.barRead (s : State) (k off : Nat) : Nat :=
  if k = 0 then s.readReg 0 off
  else if (vfStream off).any fun n => s.strFn n != k then 0
  else ((vfOffset k off).map (s.readReg k)).getD 0

/-- The host-port block of PF0's BAR0, which a frozen port reads normally (R516). -/
def hpBlock (k off : Nat) : Bool := k == 0 && decide (hpBase ≤ off) && decide (off < hpBase + 0x100000)

/-- What a read of `size` bytes of function k's BAR0 returns, and what it leaves (R490, R492, R516, R567, R578): a read of a wrong size or
alignment returns zero and is logged, a frozen port answers 0xFF outside its own block, in recovery PF0's mailbox and the global
registers alone are served (R591), and before READY nothing is. None: the device does not answer. A read completes with `size` bytes of payload. -/
def State.readBar (s : State) (k off size : Nat) : Option (Nat × State) :=
  let answer := fun (s : State) (v : Nat) => some (v, s.send (.cpl k .ok (bytesLE size v)))
  if s.power = 3 || !s.enabled k then none
  else if s.frozen && !hpBlock k off then answer s (2 ^ (8 * size) - 1)
  else if s.stage = 14 then answer s (if k = 0 ∧ (off < 0x10 ∨ dmBase ≤ off ∧ off < dmBase + 0x20000) then s.barRead 0 (off / 8 * 8) / 2 ^ (8 * (off % 8)) % 2 ^ (8 * size) else 0)
  else if s.stage ≠ 11 then none
  else
    let s := s.wakeUp
    if badAccess off size then answer (s.hpLog Code.HP_ACCESS k 9 k off) 0
    else answer s (s.barRead k (off / 8 * 8) / 2 ^ (8 * (off % 8)) % 2 ^ (8 * size))

/-! ### What configuration space reads, where it is fixed (Table 15.1) -/

/-- Class code: processing accelerator. -/
def classCode : Nat := 0x120000
/-- TotalVFs and InitialVFs. -/
def totalVfs : Nat := 63
/-- Function number of VF k (R490), by First VF Offset 1 and VF Stride 1. -/
def vfNumber (k : Nat) : Nat := 1 + (k - 1) * 1
/-- Invalidate Queue Depth of ATS. -/
def invalidateDepth : Nat := 32

end Sys2Proof.Machine
end

