-- ==== Sys2Proof/Tests/Slice0.lean ====
section
/-! SUPPORT. Tests of the model: well-formedness, one step on small states, and for every statement of
Certificates/Slice0/Obligations.lean that has hypotheses a state and operands that meet them. -/

namespace Sys2Proof.Tests

set_option Elab.async false

open Sys2Proof.Machine

/-- The invariant as a Bool, for states written out below. -/
def invB (s : State) : Bool :=
  Tbl.canon regReset s.regs && Tbl.canon dictReset s.dict && decide (s.log.length ≤ 64) && decide (Memory.wf s.mem) &&
    decide (Tbl.ok 0 s.dm) && decide (Tbl.ok {} s.ibex) &&
    (s.ibex.all fun e => decide (Tbl.ok 0 e.2.spm) && decide (Tbl.ok 0 e.2.spmSyn) && decide (Tbl.ok 0 e.2.acc) && decide (Tbl.ok 0 e.2.accSyn) &&
      decide (Tbl.ok none e.2.slots) && decide (Tbl.ok {} e.2.regions)) &&
    decide (Tbl.ok {} s.streams) && decide (Tbl.ok {} s.sch.queues) && decide (Tbl.ok {} s.sch.hitches) && decide (Tbl.ok {} s.sch.ctxs) &&
    decide (Tbl.ok {} s.hp.fns) && decide (Tbl.ok {} s.acts.ctxs) &&
    (decide (Tbl.ok 0 s.coil.buffers) && decide (Tbl.ok 0 s.coil.bases) && decide (Tbl.ok {} s.coil.bufs) && decide (Tbl.ok 0 s.coil.resv)) &&
    (decide (Tbl.ok none s.vid.ee) && decide (Tbl.ok none s.vid.pe) && decide (Tbl.ok none s.vid.pre)) &&
    (decide (Tbl.ok none s.start.slots) && decide (Tbl.ok none s.start.kept) && decide (Tbl.ok false s.start.changed) &&
      decide (Tbl.ok (List.replicate 64 0) s.start.mrs) && decide (Tbl.ok 0 s.start.slotState))

theorem inv_of {s : State} (h : invB s = true) : s.Inv := by
  simp only [invB, Bool.and_eq_true, decide_eq_true_eq, List.all_eq_true] at h
  obtain ⟨⟨⟨⟨⟨⟨⟨⟨⟨⟨⟨⟨⟨⟨⟨h1, h2⟩, h3⟩, h4⟩, h5⟩, h6⟩, h7⟩, h8⟩, h9⟩, h10⟩, h11⟩, h12⟩, h0⟩, h13⟩, h14⟩, h15⟩ := h
  exact ⟨h1, h2, h3, h4, h5, h6, fun e he => ⟨(h7 e he).1.1.1.1.1, (h7 e he).1.1.1.1.2, (h7 e he).1.1.1.2, (h7 e he).1.1.2, (h7 e he).1.2, (h7 e he).2⟩,
    h8, h9, h10, h11, h12, h0, ⟨h13.1.1.1, h13.1.1.2, h13.1.2, h13.2⟩, ⟨h14.1.1, h14.1.2, h14.2⟩,
    ⟨h15.1.1.1.1, h15.1.1.1.2, h15.1.1.2, h15.1.2, h15.2⟩⟩

/-- The device serves a physical function, as a Bool: its number, and the rest. -/
def servesB (s : State) (k : Nat := 0) : Bool := s.enabled k && s.stage == 11 && s.power == 0 && s.tth.nap == 0 && !s.frozen

theorem serving_of {s : State} {k : Nat} (h : servesB s k = true) : s.Serving k := by
  simp only [servesB, Bool.and_eq_true, beq_iff_eq, Bool.not_eq_true'] at h
  exact ⟨h.1.1.1.1, h.1.1.1.2, h.1.1.2, h.1.2, h.2⟩

/-- A device that is READY, with nothing in progress. -/
def ready : State := State.reset.setEntry 0x1300 2 11

theorem ready_inv : ready.Inv := inv_of (by decide +kernel)
theorem ready_serves : ready.Serving 0 := serving_of (by decide +kernel)
theorem ready_reaches (o : Origin) (h : o = .kdp ∨ o = .fn 0 := by decide) : ready.Reaches o := by
  rcases h with rfl | rfl
  · refine ⟨?_, ?_, ?_⟩ <;> decide +kernel
  · exact ⟨ready_serves, by decide +kernel⟩

/-- A rank on Ibex 0 that waits for nothing. -/
def rank0 : Rank := {
  ibex := 0, pc := 0, resume := [], layer := [], layerNo := 0, sat := 0, wait := .none, hpassed := 0, wideEnd := 0,
  resumeTo := 0, wideSat := 0, stopped := false, cycles := 0, ended := false, saved := 0, layers := 0, done := 0, sorting := {},
  stands := (0, 0) }

/-- A step of context 0 that runs on one cluster. -/
def step0 : Step := {
  ctx := 0, fn := 0, period := 0, state := .running, serial := 0, parkedAt := 0, stop := false, forQueue := none,
  preproc := false, aug := false, augOff := 0, seed := 0, stepNo := 0, variants := [(0, 1)], plan := [], planDescs := [], closeAt := 0,
  slots := [], fills := [], g := 1, ranks := [rank0], holds := [], waits := none, passed := false, parkedSave := false, kdone := [], widened := false,
  skipped := false, overridden := false }

/-- An instruction of 64 bytes that begin as given, loaded on Ibex 0. -/
def ins (bs : List Byte) (descs : List (Option Desc) := []) : Loaded := {
  queue := 0, rank := 0, g := 1, ctx := 0, idx := 0, raw := bs ++ List.replicate (64 - bs.length) 0, descs := descs, opset := [],
  stripe := [], reads := [], writes := [] }

/-- A READY device whose queue 0 holds a step, with an instruction loaded on Ibex 0, where context 0 is resident. -/
def busy (st : Step) (cur : Option Loaded) : State :=
  { ready with
    ibex := [(0, { cur := cur, running := 0, slots := [(0, some ⟨0, 0, 1, 0, 1, 0⟩)] })]
    sch := { queues := [(0, { bound := true, held := some st })] } }

/-- A slot of stream 0 that waits for a picture. -/
def slot0 : Slot := {
  stream := 0, host := false, openPts := 0, openDerived := false, pick := 0, dmgVoid := 255, taintVoid := 0, state := .waiting, pic := none,
  status := 0, closed := false, records := 0, dropped := false, matched := [], listDone := false, latched := none, aug := none, items := [],
  running := 0, voidDue := false, holding := false }
/-- A ready picture of stream 0. -/
def frame0 : Frame := {
  name := 1, order := 0, codedW := 16, codedH := 16, short := false, long := false, output := true, held := false, key := false, reorder := false, later := 0,
  pic := {
    stream := 0, pool := 3, buf := 0, addr := 0, pts := 0, width := 16, height := 16, pitch := 256, depth := 8, taint := false, rap := true,
    ptsDerived := false, damage := 0, status := 0, decodeIdx := 7, cropLeft := 0, cropTop := 0, chroma := 1, matrix := 0, fullRange := false } }

/-- The state with function 1 as a VF that exists. -/
def withVf (s : State) (x : FnSt := {}) : State := { s with hp := { s.hp with fns := Tbl.set {} s.hp.fns 1 { x with vf := true } } }

/-! ### Witnesses: formats, registers of the clusters, passes -/

theorem witness_StepRunsFrontCommand : ready.pending = [] := rfl
theorem witness_InvariantKept : ready.Inv ∧ step ready = .next ready := ⟨ready_inv, rfl⟩
theorem witness_SentStands : exec (.wakeEvent) ready = .next ready := rfl
theorem witness_FiniteConvertsFinite : Fmt.e4m3.isInt = false ∧ Fmt.e4m3.isBlock = false ∧ Fmt.s8.isBlock = false ∧
    Fmt.e4m3.maxVal.le (.fin false 448 0) = true := by decide +kernel
theorem witness_FloatConversionRule : Fmt.e2m1.isInt = false ∧ Fmt.e2m1.isBlock = false ∧ Fmt.e2m1.maxVal.lt (.fin false 7 0) = true ∧
    Fmt.e2m1.maxVal.lt (.fin false 6 0) = false := by decide +kernel
theorem witness_IntegerConversionRule : Fmt.s8.isInt = true ∧ Val.lt (.fin true 129 0) (Val.ofInt Fmt.s8.intRange.1) = true ∧
    (Val.ofInt Fmt.s8.intRange.2).lt (.fin false 255 (-1)) = true ∧ Val.lt (.fin true 128 0) (Val.ofInt Fmt.s8.intRange.1) = false ∧
    (Val.ofInt Fmt.s8.intRange.2).lt (.fin true 128 0) = false := by decide +kernel
theorem witness_SumOrderFree : ([Val.fin false 1 0, .fin true 1 0] : List Val).Perm [.fin true 1 0, .fin false 1 0] ∧
    ([Val.fin true 0 0] : List Val).all (fun v => !v.isSpecial) = true ∧ (finSum [Val.fin true 0 0]).1 = 0 := ⟨.swap _ _ _, by decide, by decide⟩
theorem witness_NumberFormatCodes : Fmt.s4 ∈ [Fmt.s4, .s8, .s16, .s32] ∧ 15 < 2 ^ Fmt.s4.bits ∧ Fmt.u8.isInt = true ∧ 255 < 2 ^ Fmt.u8.bits ∧
    254 < 0xFF ∧ Fmt.bq4.isBlock = true ∧ Fmt.bq8.isBlock = true := by decide
theorem witness_IntegerSumSaturates : (-2147483648 : Int) ≤ 2147483647 ∧ (2147483647 : Int) < 2147483648 ∧ (-2147483649 : Int) < -2147483648 := by
  decide

/-- The least and greatest values that BRD_CFG takes, and the values beside them. -/
theorem witness_ClusterConfigWrites : ready.Inv ∧ ready.Serving 0 ∧ (1 : Fn).val ≠ 0 ∧
    (∀ v ∈ [0x00010400, 0xFFFF2001], 4 ≤ field v 13 8 ∧ field v 13 8 ≤ 32 ∧ field v 31 16 ≠ 0) ∧
    field 0x00010300 13 8 < 4 ∧ 32 < field 0x00012100 13 8 ∧ field 0x00000400 31 16 = 0 ∧ 1 % 65536 ≠ 0 ∧ 0x10000 % 65536 = 0 :=
  ⟨ready_inv, ready_serves, by decide +kernel⟩

/-- Ibex 0 with a ramp. -/
def ramped (r : Ramp) : State := (ready.setField (ibexReg 0 1 0) 0 1 1).modIb 0 fun i => { i with ramp := r }

theorem witness_RampsOfDummyIssue : (ramped { level := 8 }).Inv ∧ (ramped { level := 1, ramping := true }).Inv ∧
    (ramped { level := 8 }).regField (ibexReg 0 1 0) 0 1 = 1 ∧ ((ramped { level := 8 }).ib 0).ramp.ramping = false ∧
    ((ramped { level := 8 }).ib 0).ramp.level ≠ 0 ∧ (ramped { level := 8 }).noShadow 0 = true ∧
    ((ramped { level := 1, ramping := true }).ib 0).ramp.ramping = true :=
  ⟨inv_of (by decide +kernel), inv_of (by decide +kernel), by decide +kernel⟩

/-- A one-element S8 tensor. -/
def one : Desc := {
  base := 0x200000, ext := [1, 1, 1, 1], stride := [1, 1, 1, 1], fmtCode := 1, ndim := 1, spm := false, layout := 0, zpEn := false,
  scaleEn := false, rsvd := false, zpByte := 0, scaleBase := 0 }

/-- An MM of one-element tensors with its one pass. -/
def prod : Loaded := ins [0x10, 0, 0, 0, 1, 0, 1, 0] [some one, some one, some one, none]
/-- Its product and its pass. -/
def prodMat : Mat := mmMat prod.raw one one one none []
/-- Its pass. -/
def pass1 : Pass := ⟨0, 0, 0, 0, 0, true, true, false⟩

/-- The same in the scratchpad, parameter vectors too. -/
def sone : Desc := { one with base := 0, spm := true }
/-- The same in the scratchpad, parameter vectors too. -/
def sprod : Loaded := { prod with descs := [some sone, some sone, some sone, none], opset := [0x40] }

/-- Cleanness of the memories of Ibex 0 of a device whose injection is not armed. -/
theorem clean_of {s : State} (h : ((s.ib 0).spmSyn.isEmpty && (s.ib 0).accSyn.isEmpty && (s.reg intBase == 0)) = true) : s.Clean 0 := by
  simp only [Bool.and_eq_true, List.isEmpty_iff, beq_iff_eq] at h
  refine ⟨h.1.1, h.1.2, fun d => ?_⟩
  simp [State.flipArmed, State.regField, h.2]

/-- Ibex 0 with that product in its whole-array region. -/
def inRegion (r : Region) (outq : List (Nat × Pass)) : State :=
  (busy step0 none).modIb 0 fun i => { i with regions := [(0, r)], outq := outq }

/-- The region before its shadow load, with its shadow loaded, and with its tile in the output pipe. -/
def region1 : State := inRegion { state := 2, job := some prod, passes := [pass1] } []
/-- With its shadow loaded. -/
def region2 : State := inRegion { state := 2, job := some prod, passes := [pass1], shadow := some pass1 } []
/-- With its tile in the output pipe. -/
def region3 : State := inRegion { state := 2, job := some sprod } [(0, pass1)]

theorem witness_PassesOfRegion : region1.Inv ∧ region2.Inv ∧ region3.Inv ∧ region1.nextPass 0 0 = some (0, prod, prodMat, pass1) ∧
    (region1.region 0 0).shadow = none ∧ (region1.loadTile (prod.acc1 0) prodMat pass1).isSome = true ∧
    (region1.fetchRows (prod.acc1 0) prodMat pass1).isSome = true ∧
    region2.nextPass 0 0 = some (0, prod, prodMat, pass1) ∧ (region2.region 0 0).shadow.isSome = true ∧ region2.unread 0 0 prodMat pass1 = false ∧
    ((region2.ib 0).ramp.ramping && (region2.ib 0).ramp.up) = false ∧ 256 ≤ 256 * region2.regField (ibexReg 0 1 0) 16 16 ∧
    (prodMat.rowsOf pass1 = 1 ∧ (region2.vectorOf ((region2.region 0 0).knot {} pass1) (prod.acc1 0) prodMat pass1 0).isSome = true) ∧
    (region3.ib 0).outq = [(0, pass1)] ∧ (region3.region 0 0).job = some sprod ∧ sprod.mat = some (mmMat sprod.raw sone sone sone none [0x40]) :=
  ⟨inv_of (by decide +kernel), inv_of (by decide +kernel), inv_of (by decide +kernel), by decide +kernel⟩

/-- Its memories are clean, and its product lies in the scratchpad. -/
theorem witness_PassesOfRegion_clean : region1.Clean 0 ∧ region2.Clean 0 ∧ region3.Clean 0 ∧ sprod.InSpm :=
  ⟨clean_of (by decide +kernel), clean_of (by decide +kernel), clean_of (by decide +kernel), ⟨fun d h => by simp [sprod, sone] at h; simp [h], by decide +kernel⟩⟩

theorem witness_VectorAccumulates : region2.Inv ∧ region2.flipArmed 3 = false ∧
    region2.vectorOf {} (prod.acc1 0) prodMat pass1 0 = some [.fin false 0 0] ∧
    region2.accRead 0 (region2.accBase (prod.acc1 0) + prodMat.entryOf pass1 + 0) (64 * regionKey prodMat.shape prodMat.region)
      (shapeStrands prodMat.shape) = Except.ok (List.replicate (shapeStrands prodMat.shape) 0, 0) ∧ pass1.first = true := ⟨inv_of (by decide +kernel), by decide +kernel⟩

theorem witness_RegionFaultsAndClusterReset : region1.Inv ∧ region1.jobAt 0 0 = some (0, prod) ∧ region1.jobAt 0 3 = some (0, prod) ∧
    region1.nextPass 0 3 = some (0, prod, prodMat, pass1) ∧ (region1.region 0 0).shadow = none ∧
    region2.nextPass 0 3 = some (0, prod, prodMat, pass1) ∧ (region2.region 0 0).shadow ≠ none ∧ region2.unread 0 0 prodMat pass1 = false ∧
    ((region2.ib 0).ramp.ramping && (region2.ib 0).ramp.up) = false ∧ 256 * region2.regField (ibexReg 0 1 0) 16 16 < 65537 ∧ (region1.region 0 0).job = some prod ∧
    prod.quarters.Nodup ∧ Code.BRD_KNOT_HOLD.toNat / 256 = 9 ∧ 3 ∈ prod.quarters ∧
    (region1.reg (ibexReg 0 1 (0x10 + 8 * 3))).getLsbD 63 = false := ⟨inv_of (by decide +kernel), by decide +kernel⟩

theorem witness_EveryPassRunsOnce : prodMat.split ≤ 2 ∧ (prodMat.split = 1 → prodMat.win = none) ∧ 0 < prodMat.trows ∧ 0 < prodMat.tcols ∧
    0 < prodMat.slices ∧ (∀ p ∈ prodMat.passes 0 1, p = pass1) ∧ prodMat.passes 0 1 = [pass1] := by decide +kernel

/-! ### Witnesses: the walker, its units and hitches -/

/-- A tensor without elements, in the scratchpad. -/
def none0 : Desc := { sone with ext := [0, 1, 1, 1] }
/-- An instruction of an opcode whose operands have no elements. -/
def unit (op : Byte) : Loaded := { ins [op] (List.replicate 6 (some none0)) with opset := [0x40] }
/-- Ibex 0 with that instruction loaded. -/
def unitState (op : Byte) : State := busy step0 (some (unit op))
/-- A step whose rank 1 runs on Ibex 0. -/
def step1 : Step := { step0 with g := 2, ranks := [{ rank0 with ibex := 1 }, rank0] }
/-- Ibex 0 with that instruction loaded for rank 1. -/
def rank1State (op : Byte) : State := busy step1 (some { unit op with rank := 1 })

theorem witness_UnitInstructionsPass :
    (∀ op ∈ [0x00, 0x21, 0x22, 0x23, 0x40, 0x41, 0x42, 0x43, 0x60, 0x61, 0x80, 0x90], (unitState op).conflicts 0 (unit op) = false ∧
      (unitState op).curOf 0 op.toNat = some (unit op, step0, rank0) ∧ (unit op).rank = 0) ∧
    (∀ op ∈ [0x60, 0x61, 0x80, 0x90], (rank1State op).curOf 0 op.toNat = some ({ unit op with rank := 1 }, step1, rank0)) ∧
    (unitState 0x00).Inv ∧ (unitState 0x00).Clean 0 ∧ (∀ op : Byte, (unit op).InSpm) ∧ (unitState 0x00).jobAt 0 3 = none ∧
    syncBit (ins [0x21, 0x40]).raw = true ∧ (ins [0x21, 0x40]).mat = none := by
  refine ⟨?_, ?_, inv_of ?_, clean_of ?_, fun op => ⟨fun d h => ?_, show opsBit [0x40] 6 = true by decide⟩, ?_, ?_, ?_⟩ <;> first | decide +kernel | skip
  simp [unit, ins, none0, sone] at h; simp [h]

/-- TRACK and EMIT of a void slot of stream 0. -/
def trk : Loaded := { unit 0x60 with descs := [some none0, some none0, some none0, none] }
/-- The step of that slot. -/
def voidStep : Step := { step0 with slots := [{ slot0 with state := .void }] }
/-- Ibex 0 with TRACK loaded, its stream with a state and a track table at 0. -/
def trkState (st : Nat) (track : Option (Nat × Nat)) : State :=
  { (busy voidStep (some trk)).setEntry 0x2000 2 st with streams := Tbl.set {} [] 0 { track := track } }

theorem witness_UnitInstructionsPass_slot : (trkState 0 none).sclSlotOf trk = some (voidStep, { slot0 with state := .void }) ∧
    (trkState 0 none).curOf 0 0x60 = some (trk, voidStep, rank0) ∧ (trkState 0 none).Inv ∧ (trkState 0 none).strOpen 0 = false ∧
    (trkState 2 (some (0, 0))).strOpen 0 = true ∧ (trkState 2 (some (0, 0))).trackAddr 0 = some 0 ∧
    ((busy voidStep (some (unit 0x61))).curOf 0 0x61).isSome = true ∧ ((busy voidStep (some (unit 0x61))).sclSlotOf (unit 0x61)).isSome = true := by
  refine ⟨?_, ?_, inv_of ?_, ?_, ?_, ?_, ?_, ?_⟩ <;> decide +kernel

theorem trk_bytes_length {t : Trk} (h : t.box.length = 4 ∧ t.vel.length = 4) : t.bytes.length = 64 := by
  obtain ⟨h1, h2⟩ := h
  match hb : t.box, hv : t.vel, h1, h2 with
  | [_, _, _, _], [_, _, _, _], _, _ => simp [Trk.bytes, hb, hv, bytesF32, bytesLE]

/-- A table in memory without an error can be read, and the table that TRACK makes of it without a detection can be written. -/
theorem witness_UnitInstructionsPass_table (raw : List Byte) (pts : Nat) : ∃ next ts, (trkState 2 (some (0, 0))).loadTracks 0 = some (next, ts) ∧
    let run := trackRun raw pts next ts []
    (trkState 2 (some (0, 0))).rangeOk 0 (tableBytes run.nextId run.ts).length = true := by
  have hf : ∀ p, (trkState 2 (some (0, 0))).pcFailed p = false := fun p => rfl
  have ha : ∀ i, i < 16448 → (trkState 2 (some (0, 0))).addrOk (0 + i) = true := by
    intro i hi
    have h : (trkState 2 (some (0, 0))).apertureMib 0 = 6144 := by decide +kernel
    simp only [State.addrOk, Nat.zero_add, Nat.mod_eq_of_lt (show i < 2 ^ 35 by omega), Nat.div_eq_of_lt (show i < 2 ^ 35 by omega), h]
    simp; omega
  obtain ⟨r, hr⟩ := Option.isSome_iff_exists.mp (State.memRead_isSome (s := trkState 2 (some (0, 0))) rfl rfl rfl hf 0 16448 ha)
  refine ⟨_, _, by rw [State.loadTracks, hr]; rfl, ?_⟩
  intro run
  have hl : (tableBytes run.nextId run.ts).length = 16448 := by
    have h64 : ∀ t ∈ run.ts, t.bytes.length = 64 := by
      intro t ht
      apply trk_bytes_length
      simp only [run, trackRun, List.zipIdx_nil, List.filter_nil, List.foldl_nil, List.map_map, List.mem_map] at ht
      obtain ⟨u, hu, rfl⟩ := ht
      obtain ⟨i, -, hi⟩ := List.mem_map.mp (List.fst_mem_of_mem_zipIdx hu)
      have hu1 : u.1.box.length = 4 ∧ u.1.vel.length = 4 := by
        rw [← hi]
        simp only [Function.comp]
        split <;> simp [Trk.predict, parseTrk]
      have hm : (u.1.missed raw).box.length = 4 ∧ (u.1.missed raw).vel.length = 4 := by
        unfold Trk.missed
        split
        · exact hu1
        · split
          · exact ⟨rfl, rfl⟩
          · exact hu1
      simpa using hm
    have hn : run.ts.length = 256 := by simp [run, trackRun]
    have hs : (run.ts.map fun t => t.bytes.length) = List.replicate 256 64 := by
      rw [← hn]
      exact List.map_eq_replicate_iff.mpr h64
    have h4 : ∀ x, (bytesLE 4 x).length = 4 := fun x => rfl
    simp only [tableBytes, List.length_append, List.length_flatMap, hs, h4, List.length_replicate, List.sum_replicate, smul_eq_mul]
  rw [hl]
  decide +kernel

/-- Checks that have passed. -/
def fineC (r : Except Fail Checked) : Bool :=
  match r with
  | .ok _ => true
  | .error _ => false

/-- A step on Ibex 0 that has nothing loaded; its schedule is one NOP. -/
def idleIbex : State := busy step0 none

theorem witness_WalkerLoadsAndStarts : idleIbex.rankOf 0 = some (0, step0, 0, rank0) ∧ (idleIbex.ib 0).cur = none ∧
    rank0.pc < (step0.variants.getD (Nat.log2 step0.ranks.length) (0, 0)).2 ∧
    (idleIbex.modRank 0 0 fun r => { r with cycles := r.cycles + 5 }).rankOf 0 = some (0, { step0 with ranks := [{ rank0 with cycles := 5 }] }, 0,
      { rank0 with cycles := 5 }) ∧
    (idleIbex.modRank 0 0 fun r => { r with cycles := r.cycles + 5 }).memRead (idleIbex.ctx 0 0x07 + 0 + 64 * 0) 64 = some (List.replicate 64 0) ∧
    fineC (idleIbex.checkIns ⟨0, 0⟩ step0 0 0 1 false (List.replicate 64 0)) = true ∧
    (busy step0 (some prod)).Inv ∧ (busy step0 (some prod)).matrixOf 0 0x10 = some (prod, rank0, prodMat) ∧ prodMat.passes 0 1 ≠ [] ∧
    ((busy step0 (some { unit 0x20 with descs := [some none0, some none0, some none0, none] })).matrixOf 0 0x20).isSome = true := by
  refine ⟨?_, ?_, ?_, ?_, ?_, ?_, inv_of ?_, ?_, ?_, ?_⟩ <;> decide +kernel

/-- A step whose rank waits so. -/
def waits (w : RankWait) : Step := { step0 with ranks := [{ rank0 with wait := w }] }

theorem witness_RanksOfStep : (unitState 0x01).Inv ∧ (unitState 0x02).Inv ∧ (unitState 0x01).jobs 0 = [] ∧
    (unitState 0x02).curOf 0 0x02 = some (unit 0x02, step0, rank0) ∧ (unitState 0x01).curOf 0 0x01 = some (unit 0x01, step0, rank0) ∧
    (busy (waits .sync) none).Inv ∧ ((busy (waits .layer) none).queue 0).held = some (waits .layer) ∧
    ((busy (waits .sync) none).queue 0).held = some (waits .sync) ∧ (busy (waits .sync) none).jobs 0 = [] ∧
    (busy { step0 with stop := true } none).Inv ∧
    (busy { step0 with stop := true } none).rankOf 0 = some (0, { step0 with stop := true }, 0, rank0) ∧
    ((busy { step0 with stop := true } none).ib 0).outq = [] ∧ step0.state = .running ∧ rank0.stopped = false ∧ rank0.resume = [] ∧
    recField rank0.layer 0x10 8 = 0 ∧ (busy (waits .layer) none).rangeOk 0x40 32 = true ∧ ((busy (waits .layer) none).memRead 0x40 32).isSome = true ∧
    ((unitState 0x01).queue 0).held = some step0 ∧ step0.ctx < 1024 := by
  refine ⟨inv_of ?_, inv_of ?_, ?_, ?_, ?_, inv_of ?_, ?_, ?_, ?_, inv_of ?_, ?_, ?_, ?_, ?_, ?_, ?_, ?_, ?_, ?_, ?_⟩ <;> decide +kernel

/-- A hitch instruction on hitch 1 with N 1. -/
def hop (op : Byte) : Loaded := ins [op, 0, 0, 0, 1, 0, 1, 0]
/-- Ibex 0 with that instruction loaded and hitch 1 as given. -/
def hitched (op : Byte) (h : Hitch) : State :=
  let s := busy step0 (some (hop op))
  { s with sch := { s.sch with hitches := Tbl.set {} [] 1 h } }
/-- The device serving, with hitch 1 as given. -/
def hostHitched (h : Hitch) : State := { ready with sch := { hitches := Tbl.set {} [] 1 h } }

theorem witness_HitchesServeInOrder :
    (hitched 4 { count := 1 }).Inv ∧ (hitched 4 { count := 1 }).curOf 0 4 = some (hop 4, step0, rank0) ∧
    (hitched 4 { count := 1 }).jobs 0 = [] ∧ hitchNo (hop 4).raw = 1 ∧ hitchN (hop 4).raw = 1 ∧
    (hitched 6 { count := 1, lock := true }).curOf 0 6 = some (hop 6, step0, rank0) ∧
    (hitched 5 { count := 65534 }).curOf 0 5 = some (hop 5, step0, rank0) ∧ (hitched 5 { count := 65535 }).curOf 0 5 = some (hop 5, step0, rank0) ∧
    (hitched 7 { lock := true, held := true }).curOf 0 7 = some (hop 7, step0, rank0) ∧ (hop 7).ctx = 0 ∧
    (hostHitched { count := 65535 }).Inv ∧ (hostHitched { count := 65535 }).Serving 0 ∧ (hostHitched {}).Serving 0 ∧
    field 0x00010001 31 16 = 1 ∧ ((hostHitched { count := 65535 }).hitch 1).count = 65535 ∧ field 0x00000001 31 16 = 0 ∧
    (hostHitched { count := 1, lock := true }).Serving 0 ∧ (withVf (hostHitched {})).Inv ∧ (withVf (hostHitched {})).Serving 1 ∧ bitOf 0x08000001 27 = true ∧
    ((busy { waits (.hitch false) with waits := some (1, 1, 100) } none).queue 0).held.map (·.waits) = some (some (1, 1, 100)) := by
  refine ⟨inv_of ?_, ?_, ?_, ?_, ?_, ?_, ?_, ?_, ?_, ?_, inv_of ?_, serving_of ?_, serving_of ?_, ?_, ?_, ?_, serving_of ?_, inv_of ?_, serving_of ?_, ?_, ?_⟩ <;>
    decide +kernel

theorem witness_WalkerFaultsContext : ((unitState 0x00).ib 0).cur = some (unit 0x00) ∧
    (unitState 0x00).rankOf 0 = some (0, step0, 0, rank0) ∧ (region1.ib 0).cur = none ∧ region1.jobs 0 = [(0, prod)] ∧
    (unitState 0x60).curOf 0 0x60 = some (unit 0x60, step0, rank0) ∧ (unitState 0x61).curOf 0 0x61 = some (unit 0x61, step0, rank0) ∧
    (unitState 0x00).Inv ∧ ((unitState 0x00).reg (ibexReg 0 2 0x48)).getLsbD 63 = false ∧ (unit 0x00).mat = none ∧ (unit 0x60).rank = 0 ∧
    ((unitState 0x00).ib 0).spmSyn = [] ∧ region1.jobAt 0 2 = some (0, prod) := by
  refine ⟨?_, ?_, ?_, ?_, ?_, ?_, inv_of ?_, ?_, ?_, ?_, ?_, ?_⟩ <;> decide +kernel

/-! ### Witnesses: Gazelle -/

/-- Stream 0 in a state, with its record, where PF0 may issue. -/
def str0 (st : Nat) (x : Stream) : State :=
  { ready.setEntry 0x2000 2 st with streams := Tbl.set {} [] 0 x, hp := { fns := [(0, { bme := true })] } }

theorem witness_GazelleRegisterWrites : ready.Inv ∧ ready.Serving 0 ∧ (withVf ready).Inv ∧ (withVf ready).Serving 1 ∧ (1 : Fn).val ≠ 0 ∧ 0x00010001 % 65536 ≠ 0 ∧ 0x00010001 / 65536 ≠ 0 ∧
    0x00010000 % 65536 = 0 ∧ 0x0000FFFF / 65536 = 0 ∧ (withVf ready).strFn 0 ≠ (1 : Fn).val ∧ ready.strFn 0 = (0 : Fn).val ∧
    ((0x100 : W32) - BitVec.ofNat 32 (ready.reg (gzHead 0)).toNat).toNat ≤ ready.str 0 0x0E ∧
    ((0x100 : W32) - BitVec.ofNat 32 (ready.reg (gzTail 0)).toNat).toNat ≤ ready.str 0 0x0E ∧
    ready.str 0 0x0E < ((0x101 : W32) - BitVec.ofNat 32 (ready.reg (gzHead 0)).toNat).toNat :=
  ⟨ready_inv, ready_serves, inv_of (by decide +kernel), serving_of (by decide +kernel), by decide +kernel⟩

/-- A chunk record of one byte, and one of none. -/
def chunk (len : Byte) : List Byte := List.replicate 8 0 ++ len :: List.replicate 23 0
/-- Stream 0 decoding, with a read of its ring in flight. -/
def flown (live : Bool) (x : Stream) : State :=
  { str0 2 x with hp := { fns := [(0, { bme := true })], flying := [{ fn := 0, read := .chunk 0, live := live }] } }
/-- An access unit of 1 byte. -/
def au (done : Bool) : AU := { bytes := 1, coded := [7], pts := none, complete := done, code := 0, big := false, arrival := 0, eos := false }

theorem witness_ChunksFeedStream : ((str0 2 {}).setReg (gzTail 0) 1).Inv ∧ ((str0 2 {}).setReg (gzTail 0) 1).decodes 0 = true ∧
    ((str0 2 {}).setReg (gzTail 0) 1).reg (gzHead 0) ≠ ((str0 2 {}).setReg (gzTail 0) 1).reg (gzTail 0) ∧ (str0 2 {}).canIssue 0 = true ∧
    (str0 2 {}).vid.power = 0 ∧ (str0 2 {}).power < 2 ∧ (str0 2 {}).hp.waits = [] ∧ (str0 2 {}).hp.flying.length < 512 ∧
    (str0 2 {}).atsMode 0 = 0 ∧ (str0 2 {}).flight (.chunk 0) = none ∧ (flown true {}).flight (.chunk 0) = some { fn := 0, read := .chunk 0 } ∧
    (flown false {}).flight (.chunk 0) = some { fn := 0, read := .chunk 0, live := false } ∧
    ((flown true {}).land (.chunk 0)).hp.waits = [] ∧ ((flown true {}).land (.chunk 0)).hp.flying.length < 512 ∧
    (flown true { chunk := .body (chunk 1), bitBuf := some (0, 0) }).Inv ∧ (flown true { chunk := .record }).Inv ∧
    (str0 2 { chunk := .record }).Inv ∧ ((str0 2 { chunk := .record }).stream 0).chunk = .record ∧ chunkBad (chunk 0) = true ∧
    chunkBad (chunk 1) = false ∧ (str0 2 { chunk := .record }).noRoom 0 1 = false ∧ (str0 0 { chunk := .record }).decodes 0 = false ∧
    (str0 2 { chunk := .record, aus := [{ au true with bytes := 16777216 }] }).noRoom 0 1 = true ∧
    (str0 2 { chunk := .held (chunk 1) }).Inv ∧ ((str0 2 { chunk := .held (chunk 1) }).stream 0).chunk = .held (chunk 1) ∧
    (str0 2 { chunk := .held (chunk 1) }).noRoom 0 (recField (chunk 1) 8 4) = false ∧
    (str0 2 { chunk := .body (chunk 1), bitBuf := some (0, 0) }).Inv ∧
    ((str0 2 { chunk := .body (chunk 1), bitBuf := some (0, 0) }).stream 0).chunk = .body (chunk 1) ∧ bitOf (recField (chunk 1) 0x0C 2) 3 = false ∧
    (if bitOf (recField (chunk 1) 0x0C 2) 2 || false then firstUnit 1 0 [1] else some 0) = some 0 ∧
    (((str0 2 { aus := [au false] }).auAdd 0 []).stream 0).aus.getLast? = some (au false) ∧ ((str0 2 { aus := [au false] }).stream 0).scan.tail = [] ∧
    (str0 2 { aus := [au false] }).decodes 0 = true := by
  refine ⟨inv_of ?_, ?_, ?_, ?_, ?_, ?_, ?_, ?_, ?_, ?_, ?_, ?_, ?_, ?_, inv_of ?_, inv_of ?_, inv_of ?_, ?_, ?_, ?_, ?_, ?_, ?_, inv_of ?_, ?_, ?_, inv_of ?_, ?_, ?_, ?_, ?_, ?_, ?_⟩ <;>
    decide +kernel

/-- A picture of one block, and its parameter set. -/
def pic : PicSyntax := {
  name := 1, layer := 0, ps := 0, kind := .h264 false false none, rasl := none, refs := [], refMark := 0, unmark := [], toLong := [], order := 0, flush := false,
  slices := [⟨0, [0], []⟩], synBytes := 100, tiles := 1, edges := [], grain := false, shown := true, bins := 10 }
/-- Its parameter set. -/
def ps0 : ParamSet := {
  ident := 0, layer := 0, needs := [], sizes := true, coded := [], parses := true, framesOnly := true, groups := 0, chroma := 1, extension := false,
  largeScale := false, profile := 100, level := 30, limitsOk := true, block := 16, width := 16, height := 16, depth := 8,
  refs := 1, reorder := 0, latency := 0, cropLeft := 0, cropTop := 0, outWidth := 16, outHeight := 16, matrix := 0, fullRange := false }
/-- A picture in decoding. -/
def job : PicJob := {
  syn := pic, ps := ps0, au := 0, coded := [], sets := [], refBufs := [], pts := 0, derived := false, status := 0, buf := none, serial := none, started := true, source := none, taint := false,
  next := 0, done := [], nextEdge := 0, doneEdges := [], bad := [], subst := [], shows := [], eos := false }
/-- Entropy engine 0 with a job of stream 0. -/
def ee0 (parsing stalled : Bool) (rest : List PicSyntax) : EeJob := {
  stream := 0, au := 0, coded := [], rest := rest, shows := none, pts := none, derived := false, eos := false, code := 0, parsing := parsing, stalled := stalled }
/-- Stream 0 with that engine. -/
def withEe (j : EeJob) (x : Stream) : State := { str0 2 x with vid := { ee := [(0, some j)] } }
/-- A stream with room for syntax. -/
def parsed (jobs : List PicJob) : Stream := { credit := 4, sets := [ps0], synBuf := some (6, 0), jobs := jobs }

theorem witness_EntropyEngines :
    (str0 2 { credit := 1, aus := [au true] }).Inv ∧ (str0 2 { credit := 1, aus := [au true] }).eeAt 0 = none ∧
    (str0 2 { credit := 1, aus := [au true] }).parsable 0 = true ∧ (∀ m : Fin 64, m ≠ 0 → (str0 2 { credit := 1, aus := [au true] }).parsable m.val = false) ∧
    ((str0 2 { aus := [au true] }).stream 0).credit = 0 ∧ (str0 2 { aus := [au true] }).parsable 0 = true ∧
    (str0 2 { aus := [au true] }).headOnly 0 ⟨[ps0], [pic], none⟩ = false ∧ (str0 1 { aus := [au true] }).headOnly 0 ⟨[ps0], [pic], none⟩ = true ∧
    (str0 2 { aus := [au true] }).headOnly 0 ⟨[], [], none⟩ = true ∧ baseUnit 1 ⟨[ps0], [pic], none⟩ = ⟨[ps0], [pic], none⟩ ∧ (parsed []).active pic.ps = some ps0 ∧ pic.rap = false ∧
    (withEe (ee0 false false [pic]) (parsed [])).Inv ∧ (withEe (ee0 false false [pic]) (parsed [])).eeAt 0 = some (ee0 false false [pic]) ∧
    (withEe (ee0 false false [pic]) (parsed [])).judge 0 pic = none ∧ (withEe (ee0 false false [pic]) (parsed [])).decodes 0 = true ∧
    synSize pic ps0 ≤ (withEe (ee0 false false [pic]) (parsed [])).synCap 0 ∧ (str0 2 {}).strOpen 0 = true ∧
    (withEe (ee0 true true []) (parsed [job])).Inv ∧
    (withEe (ee0 true true []) (parsed [job])).synUsed 0 ≤ (withEe (ee0 true true []) (parsed [job])).synCap 0 ∧
    (withEe (ee0 true false []) (parsed [job])).eeAt 0 = some (ee0 true false []) ∧ (parsed [job]).jobs.getLast? = some job := by
  refine ⟨inv_of ?_, ?_, ?_, ?_, ?_, ?_, ?_, ?_, ?_, ?_, ?_, ?_, inv_of ?_, ?_, ?_, ?_, ?_, ?_, inv_of ?_, ?_, ?_, ?_⟩ <;> decide +kernel

/-- A picture whose syntax is complete and whose buffer is granted. -/
def work : PicJob := { job with serial := some 0, buf := some (3, 0) }
/-- Stream 0 with such a picture, and pixel engine 0 on its unit. -/
def pixels (j : PicJob) (e : Option PeJob) : State :=
  { str0 2 (parsed [j]) with vid := { pe := match e with | some k => [(0, some k)] | none => [] } }

/-- The same of two rows. -/
def tall : PicJob := { work with ps := { ps0 with height := 32 } }
/-- The same without its buffer, which the Coil has granted its stream. -/
def bare : State :=
  { pixels work none with
    streams := Tbl.set {} [] 0 { parsed [{ work with buf := none }] with fbPool := 3 }
    coil := { buffers := [(3, 1)], bufs := [(bufKey 3 0, { owner := some 0 })] } }

theorem witness_PixelEngines : (pixels work none).Inv ∧ Tbl.get none (pixels work none).vid.pe 0 = none ∧ (pixels work none).vid.power ≠ 2 ∧
    (pixels work none).workable = [(0, work)] ∧ work.buf ≠ none ∧ (str0 2 {}).workable = [] ∧
    (pixels work (some ⟨0, 0, 0⟩)).Inv ∧ Tbl.get none (pixels work (some ⟨0, 0, 0⟩)).vid.pe 0 = some ⟨0, 0, 0⟩ ∧
    ((pixels work (some ⟨0, 0, 0⟩)).stream 0).jobs.find? (fun j => j.serial == some 0) = some work ∧
    work.units = 1 ∧ work.rowOk 0 = true ∧ tall.units = 2 ∧ tall.rowOk 1 = false ∧ (pixels tall (some ⟨0, 0, 1⟩)).Inv ∧
    Tbl.get none (pixels tall (some ⟨0, 0, 1⟩)).vid.pe 0 = some ⟨0, 0, 1⟩ ∧ bare.Inv ∧ bare.workable = [(0, { work with buf := none })] ∧
    bare.freshBuf 0 = some (3, 0) ∧ (bare.askBuf 0).freshBuf 0 = some (3, 0) ∧
    (syntaxFirst ((bare.askBuf 0).workable.filter fun x => x.2.buf.isSome || ((bare.askBuf 0).freshBuf x.1).isSome)).map (·.1) = some 0 ∧
    ((pixels job (some ⟨0, 0, 0⟩)).stream 0).jobs.find? (fun j => j.serial == some 0) = none ∧ job.serial = none ∧
    ((pixels job none).stream 0).jobs = [job] ∧ job.complete = false ∧ ({ work with done := [0] } : PicJob).complete = true ∧
    (withEe (ee0 true false []) (parsed [job])).eeAt 0 = some (ee0 true false []) ∧ (parsed [job]).jobs.getLast? = some job := by
  refine ⟨inv_of ?_, ?_, ?_, ?_, ?_, ?_, inv_of ?_, ?_, ?_, ?_, ?_, ?_, ?_, inv_of ?_, ?_, inv_of ?_, ?_, ?_, ?_, ?_, ?_, ?_, ?_, ?_, ?_, ?_, ?_⟩ <;> decide +kernel

/-- READY with the Coil laid out. -/
def laid : State := ready.layoutCoil true

theorem witness_StreamsOpenResetClose : laid.Inv ∧ laid.Reaches .kdp ∧ laid.dictGate .kdp 0x2000 1 true [1] = none ∧
    laid.openCode 0 = none ∧ (laid.openReserve 0).isSome = true ∧ ready.openCode 0 = none ∧ ready.openReserve 0 = none ∧ ready.Reaches .kdp ∧
    ready.dictGate (.fn 1) 0x2000 1 true [1] = some Code.DICT_NOT_OWNER ∧
    (str0 5 {}).Inv ∧ (str0 5 {}).Reaches .kdp ∧ (str0 5 {}).dictGate .kdp 0x2000 1 true [2] = none ∧ (str0 5 {}).str 0 2 = 5 ∧
    (str0 5 {}).openCode 0 = some Code.VID_STATE ∧ (str0 3 {}).Inv ∧ (str0 3 {}).str 0 2 = 3 ∧ (str0 4 {}).str 0 2 = 4 := by
  refine ⟨inv_of ?_, ⟨?_, ?_, ?_⟩, ?_, ?_, ?_, ?_, ?_, ready_reaches .kdp, ?_, inv_of ?_, ⟨?_, ?_, ?_⟩, ?_, ?_, ?_, inv_of ?_, ?_, ?_⟩ <;>
    decide +kernel

/-! ### Witnesses: error log, dictionary, preprocessing -/

theorem witness_ErrorRecords : ready.Inv ∧ ready.canIssue 0 = false ∧ (str0 0 {}).Inv ∧ (str0 0 {}).canIssue 0 = true ∧
    (({ ready with hp := { fns := [(0, { bme := true, msixEn := true, masked := 0 })] } } : State).fn 0).msixEn = true ∧
    (({ ready with hp := { fns := [(0, { bme := true, msixEn := true, masked := 0 })] } } : State).fn 0).masked.getLsbD 0 = false ∧
    ({ ready with hp := { fns := [(0, { bme := true, msixEn := true, masked := 0 })] } } : State).hp.waits = [] :=
  ⟨ready_inv, by decide +kernel, inv_of (by decide +kernel), by decide +kernel⟩

/-- The row of a dictionary entry. -/
def rowOf (idx sub : Nat) : DRow := (dictRow idx sub).getD { sub := 0, n := 0, ty := .u8, acc := .ro, dflt := [], surv := 0, rng := .any, code := 0 }

/-- Of a context's DISABLED setting (0x04) and a stream's setting while it is closed (0x03): least and greatest value in range, and one
out of range. -/
theorem witness_DictionaryWrites : ready.Inv ∧ ready.Reaches (.fn 0) ∧ ready.dictGate (.fn 0) 0x2000 0x03 true [1] = none ∧
    dictRow 0x2000 0x03 = some (rowOf 0x2000 0x03) ∧ (rowOf 0x2000 0x03).acc ≠ .rwp ∧ (rowOf 0x2000 0x03).ty.numeric = true ∧
    isStreamIdx 0x2000 = true ∧ ready.strOpen 0 = false ∧ (rowOf 0x2000 0x03).rng.ok 1 = true ∧ (rowOf 0x2000 0x03).rng.ok 0 = false ∧
    ready.dictGate (.fn 0) 0x2000 0x03 true [1, 0] = some Code.DICT_LENGTH ∧
    (str0 2 {}).Inv ∧ (str0 2 {}).Reaches (.fn 0) ∧ (str0 2 {}).strOpen 0 = true ∧ (str0 2 {}).dictGate (.fn 0) 0x2000 0x03 true [1] = none ∧
    isCtxIdx 0x3000 = true ∧ ready.ctxState 0 = 0 ∧ (ready.setEntry 0x3000 2 2).ctxState 0 = 2 ∧ Code.DICT_RANGE ≠ 0 := by
  refine ⟨ready_inv, ready_reaches _, ?_, ?_, ?_, ?_, ?_, ?_, ?_, ?_, ?_, inv_of ?_, ⟨serving_of ?_, ?_⟩, ?_, ?_, ?_, ?_, ?_, ?_⟩ <;> decide +kernel

theorem witness_DictionaryReads : ready.Inv ∧ ready.Serving 0 ∧ ready.Reaches .kdp ∧ (ready.setReg (dmReg 0 0x10) 0).Inv ∧
    (ready.setReg (dmReg 0 0x10) 0).Serving 0 ∧ (ready.setReg (dmReg 0 0x10) 0).dmDone 0 = false ∧ (withVf ready).Inv ∧ (withVf ready).Serving 1 ∧
    (withVf ready).dmDone 1 = true ∧ (withVf ready).dictGate (.fn 1) 0x1300 2 false [] = some Code.DICT_NOT_OWNER ∧ ready.dmDone 0 = true ∧
    ready.dictGate (.fn 0) 0x1300 2 false [] = none ∧ dictRow 0x1300 2 = some (rowOf 0x1300 2) ∧ (rowOf 0x1300 2).ty.numeric = true ∧
    ready.derived 0x1300 2 = none ∧ ((rowOf 0x1300 2).acc == .wo) = false ∧ ((rowOf 0x1300 1).acc == .wo) = true ∧
    ready.dictGate (.fn 0) 0x1300 1 false [] = none ∧
    ready.dictGate .kdp 0x1300 2 false [] = none ∧ ready.dictGate .kdp 0x0FFF 0 false [] = some Code.DICT_NO_INDEX := by
  refine ⟨ready_inv, ready_serves, ready_reaches _, inv_of ?_, serving_of ?_, ?_, inv_of ?_, serving_of ?_, ?_, ?_, ?_, ?_, ?_, ?_, ?_, ?_, ?_, ?_, ?_, ?_⟩ <;> decide +kernel

/-- A commit in progress. -/
def committing : State := { ready with store := { commits := [⟨some (.fn 0), dkey 0x1300 0x0A, [(dkey 0x1300 0x0A, 1)]⟩] } }

theorem witness_CommitsAndRestore : ready.Inv ∧ ready.Reaches (.fn 0) ∧ ready.dictGate (.fn 0) 0x1300 0x0A true [1] = none ∧
    dictRow 0x1300 0x0A = some (rowOf 0x1300 0x0A) ∧ (rowOf 0x1300 0x0A).acc = .rwp ∧ (rowOf 0x1300 0x0A).rng.ok 1 = true ∧
    ready.dictGate (.fn 0) 0x1000 0x22 true (bytesLE 2 0x5AA5) = none ∧ ready.dictGate (.fn 0) 0x1000 0x22 true (bytesLE 2 0x5AA4) = none ∧
    ready.store.commits = [] ∧ committing.Inv ∧ committing.store.commits = [⟨some (.fn 0), dkey 0x1300 0x0A, [(dkey 0x1300 0x0A, 1)]⟩] ∧
    ([dkey 0x1300 0x0A] : List Nat).Nodup ∧ dkey 0x1000 0x20 ∉ [dkey 0x1300 0x0A] := by
  refine ⟨ready_inv, ready_reaches _, ?_, ?_, ?_, ?_, ?_, ?_, ?_, inv_of ?_, ?_, ?_, ?_⟩ <;> decide +kernel

theorem witness_LogSnapshotApply : ready.Inv ∧ ready.Reaches (.fn 0) ∧ ready.dictGate (.fn 0) 0x6000 0x04 true [1] = none ∧
    ready.dictGate (.fn 0) 0x5000 0x01 true [1] = none ∧ ready.store.snapBusy = false ∧
    ({ ready with store := { snapBusy := true } } : State).Inv ∧ ({ ready with store := { snapBusy := true } } : State).Reaches (.fn 0) ∧
    ({ ready with store := { snapBusy := true } } : State).dictGate (.fn 0) 0x5000 0x01 true [1] = none ∧
    ready.dictGate (.fn 0) 0x1100 0x0C true [1] = none := by
  refine ⟨ready_inv, ready_reaches _, ?_, ?_, ?_, inv_of ?_, ⟨serving_of ?_, ?_⟩, ?_, ?_⟩ <;> decide +kernel

/-- A step that fills one slot under a plan of one empty job. -/
def filling (sl : Slot) : Step := { step0 with state := .filling, slots := [sl], plan := [List.replicate 64 0], planDescs := [[none, none, none]], ranks := [] }
/-- A queue with its own periods that holds a step. -/
def queued (st : Step) : Queue := { bound := true, record := List.replicate 0x12 0 ++ [4, 0xFF, 100, 0, 0, 0, 100, 0, 0, 0, 0, 0, 0, 0], mayOpen := true, held := some st }
/-- READY with queue 0 and stream 0 as given. -/
def stepState (st : Step) (x : Stream) (v : Video) : State :=
  { ready with sch := { queues := [(0, queued st)] }, streams := Tbl.set {} [] 0 x, vid := v }

theorem witness_SlotsTakeAndVoid : (stepState (filling slot0) { queue := [7], frames := [frame0] } {}).Inv ∧
    (stepState (filling slot0) { queue := [7], frames := [frame0] } {}).slotOf 0 0 = some (filling slot0, slot0) ∧
    ([frame0].find? fun f => f.pic.decodeIdx == 7 && f.output) = some frame0 ∧ slot0.pick ≠ 1 ∧ (filling slot0).state = .filling ∧
    (stepState (filling { slot0 with pick := 1 }) { queue := [6, 7], frames := [frame0] } {}).Inv ∧
    (stepState (filling { slot0 with pick := 1 }) { queue := [6, 7], frames := [frame0] } {}).slotOf 0 0 =
      some (filling { slot0 with pick := 1 }, { slot0 with pick := 1 }) ∧ ([6, 7] : List Nat).getLast? = some 7 ∧ slot0.voidDue = false ∧
    (stepState (filling { slot0 with state := .void, voidDue := true }) {} { power := 2 }).vid.power = 2 ∧ ready.vid.power ≠ 2 ∧ ready.power < 2 ∧
    ((stepState (filling slot0) {} {}).queue 0).held = some (filling slot0) ∧ (ready.queue 0).held.isNone = true ∧
    (filling slot0).plan ≠ [] ∧ ((stepState (filling slot0) {} {}).stream 0).queue = [] ∧
    (stepState (filling { slot0 with state := .void, voidDue := true }) {} {}).Inv ∧
    ((stepState (filling { slot0 with state := .void, voidDue := true }) {} {}).slotOf 0 0).map (·.2.voidDue) = some true ∧
    (queued (filling slot0)).hasPeriods = true ∧ (idleIbex.queue 0).hasPeriods = true ∧ (ready.queue 0).hasPeriods = true ∧
    (({ queued (filling slot0) with record := List.replicate 0x12 0 ++ [4, 0xFF] ++ List.replicate 12 0 } : Queue)).hasPeriods = false := by
  refine ⟨inv_of ?_, ?_, ?_, ?_, ?_, inv_of ?_, ?_, ?_, ?_, ?_, ?_, ?_, ?_, ?_, ?_, ?_, inv_of ?_, ?_, ?_, ?_, ?_, ?_⟩ <;> decide +kernel

/-- A slot with one work item. -/
def slotW : Slot := { slot0 with state := .taken, pic := some frame0.pic, items := [(0, 0)] }
/-- A step of that slot whose one job is a FRAME job; it asks for augmentation where `aug` says so. -/
def augStep (aug : Bool) : Step := { filling slotW with plan := [[1, if aug then 1 else 0] ++ List.replicate 62 0], aug := aug }

theorem witness_WorkItemsRun : (stepState (augStep false) {} {}).Inv ∧ (stepState (augStep false) {} {}).bestItem = some ⟨0, 0, 0, 0⟩ ∧
    (stepState (augStep false) {} {}).slotOf 0 0 = some (augStep false, slotW) ∧ ready.bestItem = none ∧
    Tbl.get none ready.vid.pre 0 = none ∧ (ready.entry 0x2100 0x01).testBit 3 = true ∧ ready.vid.power = 0 ∧
    (stepState (augStep false) {} { pre := [(0, some ⟨0, 0, 0, 0⟩)] }).Inv ∧
    (stepState (augStep false) {} { pre := [(0, some ⟨0, 9, 0, 0⟩)] }).slotOf 0 9 = none ∧
    ((stepState (augStep false) {} {}).runItem (augStep false) slotW ⟨0, 0, 0, 0⟩).isSome = true ∧
    jobAug ((augStep true).plan.getD 0 []) = true ∧ slotW.host = false ∧ (stepState (augStep true) {} {}).bestItem = some ⟨0, 0, 0, 0⟩ ∧
    augOk augIdentity 1 = true ∧ augOk (List.replicate 32 0) 1 = false ∧
    ((stepState (augStep true) {} {}).memRead ((stepState (augStep true) {} {}).ctx 0 7 + 0 + 32 * 0) 32).isSome = true ∧
    (stepState (augStep false) { track := some (3, 0), current := some 0 } {}).regionBytes 0 ≠ none ∧
    (stepState (augStep false) { track := some (3, 2 ^ 20), current := some 0 } {}).regionBytes 0 = none := by
  refine ⟨inv_of ?_, ?_, ?_, ?_, ?_, ?_, ?_, inv_of ?_, ?_, ?_, ?_, ?_, ?_, ?_, ?_, ?_, ?_, ?_⟩ <;> decide +kernel

/-! ### Witnesses: the scheduler -/

/-- READY with context 0 in a state. -/
def inCtx (n : Nat) : State := ready.setEntry 0x3000 2 n
/-- Context 0 ENABLING, with window and save area of one unit each. -/
def enabling : State := { inCtx 1 with mem := { ready.mem with allocs := [⟨0, 0, 1, 0, false⟩, ⟨0, 1, 1, 0, true⟩] } }
/-- READY with apertures of 64 MiB, some of which is another context's; context 0 asks for 8 MiB and a save area of 6. -/
def small (n u : Nat) : State := { (ready.setEntry 0x3000 6 0x800000).setEntry 0x3000 0x16 1 with mem := { ready.mem with common := 760, allocs := [⟨0, n, u, 1, false⟩] } }

/-- Context 0 in a state with an open step. -/
def moved (n : Nat) : State := { inCtx n with sch := { queues := [(0, { bound := true, held := some step0 })] } }

theorem witness_ContextsLiveAndEnd : (small 4 1).Inv ∧ (small 4 1).Reaches .kdp ∧
    (∀ v ∈ [(1 : Byte), 2, 3], (small 4 1).dictGate .kdp 0x3000 0x01 true [v] = none) ∧ (small 4 1).ctxState 0 = 0 ∧ (small 4 1).enableOk 0 = true ∧ (small 4 1).saveSize 0 = 3 * 0x200000 ∧
    (small 4 1).freeRun 0 4 = some 0 ∧
    ({ small 4 1 with mem := { ready.mem with common := 760, allocs := [⟨0, 4, 1, 1, false⟩, ⟨0, 0, 4, 0, false⟩] } } : State).freeRun 0 3 = some 5 ∧
    (small 4 28).Inv ∧ (small 4 28).enableOk 0 = true ∧ (small 4 28).freeRun 0 4 = some 0 ∧
    ({ small 4 28 with mem := { ready.mem with common := 760, allocs := [⟨0, 4, 28, 1, false⟩, ⟨0, 0, 4, 0, false⟩] } } : State).freeRun 0 3 = none ∧
    (small 3 29).freeRun 0 4 = none ∧ ((small 4 1).setEntry 0x3000 0x19 1).enableOk 0 = false ∧
    (inCtx 2).Inv ∧ (inCtx 2).ctxState 0 = 2 ∧ (inCtx 3).Inv ∧ (inCtx 3).ctxState 0 = 3 ∧ (inCtx 2).dictGate .kdp 0x3000 1 true [2] = none ∧
    (inCtx 3).dictGate .kdp 0x3000 1 true [3] = none ∧
    enabling.Inv ∧ enabling.ctxState 0 = 1 ∧ (enabling.mem.allocs.filter fun a => a.ctx == 0) = [⟨0, 0, 1, 0, false⟩, ⟨0, 1, 1, 0, true⟩] ∧
    (inCtx 4).Inv ∧ (inCtx 4).ctxState 0 = 4 ∧ ((moved 2).stepsOf 0).map (·.1) = [0] ∧ (∀ x ∈ (moved 2).stepsOf 0, ∀ sl ∈ x.2.slots, sl.stream < 64) ∧
    (moved 2).ctxState 0 = 2 := by
  refine ⟨inv_of ?_, ⟨?_, ?_, ?_⟩, ?_, ?_, ?_, ?_, ?_, ?_, inv_of ?_, ?_, ?_, ?_, ?_, ?_, inv_of ?_, ?_, inv_of ?_, ?_, ?_, ?_, inv_of ?_, ?_, ?_,
    inv_of ?_, ?_, ?_, ?_, ?_⟩ <;> decide +kernel

/-- Context 0 READY, and a record of SCH_QREC0 to 3 of PF0: ring of 16, the lead stream, period and limit. -/
def binding (lead period limit : Nat) : State :=
  ((inCtx 2).setReg (schReg 0 0x10) (BitVec.ofNat 64 (4 * 2 ^ 16 + lead * 2 ^ 24 + period * 2 ^ 32))).setReg (schReg 0 0x18) (BitVec.ofNat 64 limit)

/-- Own periods of 100 us and 10^7 us, no periods, a lead stream; a record out of range each way; a doorbell at its limits. -/
theorem witness_QueueCommands : (binding 0xFF 100 1).Inv ∧ (binding 0xFF 100 1).Serving 0 ∧ ((binding 0xFF 100 1).queue 0).bound = false ∧
    (∀ x ∈ [(0xFF, 100, 1), (0xFF, 10000000, 10000000), (0xFF, 0, 0), (0, 0, 1), (63, 0, 10000000)],
      (binding x.1 x.2.1 x.2.2).bindCode 0 ((binding x.1 x.2.1 x.2.2).qRec 0) = none) ∧
    (∀ x ∈ [(0xFF, 99, 1), (0xFF, 10000001, 1), (0, 100, 1), (64, 0, 1), (0, 0, 0), (0xFF, 100, 10000001)],
      (binding x.1 x.2.1 x.2.2).bindCode 0 ((binding x.1 x.2.1 x.2.2).qRec 0) = some Code.SCH_Q_RANGE) ∧
    (stepState step0 {} {}).Inv ∧ (stepState step0 {} {}).Serving 0 ∧ (withVf (stepState step0 {} {})).Inv ∧ (withVf (stepState step0 {} {})).Serving 1 ∧ ((stepState step0 {} {}).queue 0).bound = true ∧
    ((stepState step0 {} {}).queue 0).held.isSome = true ∧ (withVf (stepState step0 {} {})).qMine 1 0 = false ∧ (stepState step0 {} {}).qMine 0 0 = true ∧
    (ready.queue 0).held.isNone = true ∧ ready.qMine 0 0 = true ∧
    ((stepState step0 {} {}).queue 0).doorCode 0 16 = none ∧ ((stepState step0 {} {}).queue 0).doorCode 0 0 = none ∧
    ((stepState step0 {} {}).queue 0).doorCode 0 17 = some Code.SCH_DB_RANGE ∧ ((stepState step0 {} {}).queue 0).doorCode 1 16 = some Code.SCH_DB_OWNER ∧
    (ready.queue 0).doorCode 0 0 = some Code.SCH_DB_UNBOUND ∧
    ({ binding 0xFF 100 1 with sch := { queues := [(0, { fetching := true })] } } : State).Inv ∧
    ({ binding 0xFF 100 1 with sch := { queues := [(0, { fetching := true })] } } : State).bindCode 0 ((binding 0xFF 100 1).qRec 0) = none := by
  refine ⟨inv_of ?_, serving_of ?_, ?_, ?_, ?_, inv_of ?_, serving_of ?_, inv_of ?_, serving_of ?_, ?_, ?_, ?_, ?_, ?_, ?_, ?_, ?_, ?_, ?_, ?_, inv_of ?_, ?_⟩ <;> decide +kernel

/-- A queue without periods whose context 0 is READY and whose read is out where `f` says so. -/
def fetching (f : Bool) (pw : Nat) : State :=
  { (inCtx 2).setEntry 0x1400 2 pw with
    hp := { fns := [(0, { bme := true })], flying := if f then [{ fn := 0, read := .desc 0 }] else [] }
    sch := { queues := [(0, { bound := true, record := List.replicate 0x12 0 ++ [4, 0xFF] ++ List.replicate 12 0, tail := 1, fetching := f })] } }
/-- The same with one entry record in the window: a schedule of one instruction for one cluster. -/
def entered : State :=
  { (fetching true 0).setEntry 0x3000 0x13 1 with mem := { ready.mem with hbm := [(1, 1), (8, 1)], chk := [(0, ⟨0x101, 1, 0, 0⟩)] } }
/-- A descriptor of one slot, which the host fills. -/
def hostDesc : List Byte := [1] ++ List.replicate 31 0 ++ [0x40] ++ List.replicate 95 0

/-- A queue with a read of a binding that is gone. -/
def staleRead : State := { inCtx 2 with hp := { flying := [{ fn := 0, read := .desc 0 }] }, sch := { queues := [(0, { bound := true, stale := 1 })] } }
/-- A queue that was unbound while its read is out. -/
def unboundRead : State := { inCtx 2 with hp := { flying := [{ fn := 0, read := .desc 0 }] }, sch := { queues := [(0, { fetching := true })] } }
/-- A read in flight that no queue waits for. -/
def goneRead : State := { inCtx 2 with hp := { flying := [{ fn := 0, read := .desc 0 }] } }

theorem witness_DescriptorsOpenSteps : (fetching false 0).Inv ∧ (fetching false 0).mayFetch 0 = true ∧ (fetching false 0).power < 2 ∧
    (fetching false 0).hp.waits = [] ∧ (fetching false 0).hp.flying.length < 512 ∧ (fetching false 0).atsMode 0 = 0 ∧ (fetching false 2).Inv ∧ (fetching false 2).mayFetch 0 = true ∧
    2 ≤ (fetching false 2).power ∧ ready.mayFetch 0 = false ∧
    entered.Inv ∧ entered.awaits (.desc 0) = true ∧ staleRead.awaits (.desc 0) = true ∧ unboundRead.awaits (.desc 0) = true ∧
    goneRead.awaits (.desc 0) = true ∧ (goneRead.queue 0).stale = 0 ∧ (goneRead.queue 0).fetching = false ∧ ready.awaits (.desc 0) = false ∧
    ({ queued step0 with shedAt := true } : Queue).hasPeriods = true ∧ (entered.queue 0).fetching = true ∧ (entered.queue 0).bound = true ∧ entered.ctxState 0 = 2 ∧
    entered.descCheck (entered.queue 0) hostDesc = .ok [(256, 1), (0, 0), (0, 0), (0, 0)] ∧
    entered.descCheck (entered.queue 0) (List.replicate 128 0) = .error Code.SCH_DESC_SLOTS ∧
    entered.descCheck (entered.queue 0) (0 :: 4 :: List.replicate 126 0) = .error Code.SCH_DESC_RSVD ∧
    entered.sch.shed.contains (entered.queue 0).ctx = false ∧ (entered.queue 0).hasPeriods = false ∧
    entered.openChecks (entered.newStep 0 hostDesc [(256, 1), (0, 0), (0, 0), (0, 0)]) = .ok ([], [], []) ∧
    entered.openChecks (entered.newStep 0 (1 :: 1 :: List.replicate 126 0) []) ≠ .ok ([], [], []) ∧
    (∀ sl ∈ (entered.newStep 0 ([1] ++ List.replicate 127 0) []).slots, sl.host = false) ∧
    (entered.stream 0).voided = false ∧ ({ entered with sch := { entered.sch with shed := [0] } } : State).sch.shed.contains (entered.queue 0).ctx = true ∧
    (entered.queue 0).stale = 0 ∧ staleRead.Inv ∧ (staleRead.queue 0).stale = 1 ∧ unboundRead.Inv ∧ (unboundRead.queue 0).bound = false ∧
    (unboundRead.queue 0).fetching = true ∧ (unboundRead.queue 0).stale = 0 ∧ ready.Inv ∧ (ready.queue 0).fetching = false ∧
    ({ fetching false 0 with tth := { nap := 1 } } : State).Inv ∧ ({ fetching false 0 with tth := { nap := 1 } } : State).mayFetch 0 = true := by
  refine ⟨inv_of ?_, ?_, ?_, ?_, ?_, ?_, inv_of ?_, ?_, ?_, ?_, inv_of ?_, ?_, ?_, ?_, ?_, ?_, ?_, ?_, ?_, ?_, ?_, ?_, ?_, ?_, ?_, ?_, ?_, ?_, ?_, ?_, ?_, ?_, ?_, inv_of ?_, ?_, inv_of ?_, ?_,
    ?_, ?_, ready_inv, ?_, inv_of ?_, ?_⟩ <;> decide +kernel

theorem witness_PeriodsOpen : ready.Inv ∧ ready.str 0 2 = 0 ∧ (str0 4 {}).str 0 2 = 4 ∧ (str0 2 {}).Inv ∧ (str0 2 {}).str 0 2 = 2 ∧
    ((str0 2 {}).stream 0).mode = 0 ∧ (str0 2 { mode := 1, opened := true, fresh := false, periodMax := 1 }).Inv ∧
    ((str0 2 { mode := 1, opened := true, fresh := false, periodMax := 1 }).stream 0).periodMax ≠ 0 ∧
    ((str0 2 { mode := 1, opened := true, fresh := false, periodMax := 1 }).stream 0).fresh = false ∧
    (str0 2 { mode := 1, opens := [5] }).Inv ∧ ((str0 2 { mode := 1, opens := [5] }).stream 0).opens = [5] ∧
    (∀ e ∈ (str0 2 {}).sch.queues, e.2.bound = true → e.2.lead ≠ 0) ∧
    ({ inCtx 2 with sch := { queues := [(0, { queued step0 with held := none })] } } : State).Inv ∧ ({ queued step0 with held := none } : Queue).lead = 0xFF ∧
    ({ queued step0 with held := none } : Queue).f 0x14 4 ≠ 0 ∧ (stepState step0 {} {}).Inv ∧ ((stepState step0 {} {}).queue 0).held = some step0 ∧
    step0.waiting = false ∧ ({ step0 with state := .ready } : Step).waiting = true := by
  refine ⟨ready_inv, ?_, ?_, inv_of ?_, ?_, ?_, inv_of ?_, ?_, ?_, inv_of ?_, ?_, ?_, inv_of ?_, ?_, ?_, inv_of ?_, ?_⟩ <;> decide +kernel

/-- Context 0's step in a state, with its rank resident on Ibex 0. -/
def moving (x : StepState) : State := { busy { step0 with state := x } none with ibex := [(0, { slots := [(0, some ⟨0, 0, 1, 0, 0, 0⟩)] })] }
/-- The bytes of the image's control state. -/
theorem freshBytes_length (s : State) (n : Nat) : (s.freshBytes n).1.length = n / 8 * 8 := by
  have hb : ∀ n v, (bytesLE n v).length = n := by
    intro n
    induction n with
    | zero => intro v; rfl
    | succ k ih => intro v; simp [bytesLE, ih]
  simp only [State.freshBytes, List.length_flatMap, hb]
  induction (n / 8) with
  | zero => rfl
  | succ k ih => simp [List.range_succ]; omega

/-- A save area of one image is written whatever the free bytes are. -/
theorem moving_saves : ((moving .suspending).saveRank 0 0 rank0).isSome = true := by
  have hp : ((moving .suspending).ib 0).resident 0 = some ⟨0, 0, 1, 0, 0, 0⟩ := by decide +kernel
  have hs : (moving .suspending).spmRead 0 0 ((moving .suspending).savedBytes 0 0) = some [] := by decide +kernel
  have h2 : (((moving .suspending).mendSpm 0 [(moving .suspending).saveRange 0 ⟨0, 0, 1, 0, 0, 0⟩]).freshBytes 4096).2.rangeOk 0 4096 = true :=
    (show ((moving .suspending).mendSpm 0 [(moving .suspending).saveRange 0 ⟨0, 0, 1, 0, 0, 0⟩]).rangeOk 0 4096 = true by decide +kernel)
  have h3 : (moving .suspending).ctx 0 0x1B = 0 := by decide +kernel
  have h4 : ∀ (s : State) n, s.rangeOk n 0 = true := fun _ _ => rfl
  simp [State.saveRank, rank0, hp, hs, State.memWrite, freshBytes_length, h2, h3, h4, State.accImage]
/-- A save area that is not there is not written. -/
theorem moving_unsaved : ((moving .suspending).setEntry 0x3000 0x1B (9 * 2 ^ 35)).saveRank 0 0 rank0 = none := by
  have h : ∀ (s : State) (p : Resident) (a : Nat), (s.ib 0).resident 0 = some p → s.spmRead 0 (p.spmBase * 262144) (s.savedBytes 0 p.used) = some [] →
      s.ctx 0 0x1B = a →
      ((s.mendSpm 0 [s.saveRange 0 p]).freshBytes 4096).2.rangeOk a 4096 = false → s.saveRank 0 0 rank0 = none := fun s p a hp hs hc hr => by
    simp [State.saveRank, rank0, hp, hs, State.memWrite, freshBytes_length, hr, hc]
  exact h _ ⟨0, 0, 1, 0, 0, 0⟩ (9 * 2 ^ 35) (by decide +kernel) (by decide +kernel) (by decide +kernel)
    (show (((moving .suspending).setEntry 0x3000 0x1B (9 * 2 ^ 35)).mendSpm 0
      [((moving .suspending).setEntry 0x3000 0x1B (9 * 2 ^ 35)).saveRange 0 ⟨0, 0, 1, 0, 0, 0⟩]).rangeOk (9 * 2 ^ 35) 4096 = false by decide +kernel)

/-- A save area that is not there is not read. -/
theorem moving_lost : (((moving .restoring).setEntry 0x3000 0x1B (9 * 2 ^ 35)).restoreRank 0 0 1 rank0) = none := by
  have hp : (((moving .restoring).setEntry 0x3000 0x1B (9 * 2 ^ 35)).ib 0).resident 0 = some ⟨0, 0, 1, 0, 0, 0⟩ := by decide +kernel
  have h3 : ((moving .restoring).setEntry 0x3000 0x1B (9 * 2 ^ 35)).ctx 0 0x1B = 9 * 2 ^ 35 := by decide +kernel
  have hb : ((moving .restoring).setEntry 0x3000 0x1B (9 * 2 ^ 35)).byteAt (9 * 2 ^ 35) = none := by decide +kernel
  have h : ∀ (s : State) a n, s.byteAt a = none → s.memRead a (n + 1) = none := fun s a n h => by simp [State.memRead, h]
  have hr : ∀ k, ((moving .restoring).setEntry 0x3000 0x1B (9 * 2 ^ 35)).memRead (9 * 2 ^ 35) (4096 + k) = none := fun k => by
    rw [show 4096 + k = 4095 + k + 1 by omega]
    exact h _ _ _ hb
  simp only [State.restoreRank, rank0, hp, h3, Nat.zero_mul, Nat.add_zero, hr, Option.bind_none]

/-- An image without an error is read. -/
theorem moving_restores : ((moving .restoring).restoreRank 0 0 0 rank0).isSome = true := by
  have hp : ((moving .restoring).ib 0).resident 0 = some ⟨0, 0, 1, 0, 0, 0⟩ := by decide +kernel
  have h3 : (moving .restoring).ctx 0 0x1B = 0 := by decide +kernel
  have hu : (moving .restoring).savedBytes 0 0 = 0 := by decide +kernel
  have hr : ((moving .restoring).memRead 0 4096).isSome = true := by
    refine State.memRead_isSome rfl rfl rfl (fun p => rfl) 0 4096 fun i hi => ?_
    have h : (moving .restoring).apertureMib 0 = 6144 := by decide +kernel
    simp only [State.addrOk, Nat.zero_add, Nat.mod_eq_of_lt (show i < 2 ^ 35 by omega), Nat.div_eq_of_lt (show i < 2 ^ 35 by omega), h]
    simp; omega
  obtain ⟨im, him⟩ := Option.isSome_iff_exists.mp hr
  simp [State.restoreRank, rank0, hp, h3, hu, him, State.memRead]

/-- A tensor of one row of two elements of S32. -/
def tensor (base : Nat) : Desc := {
  base := base, ext := [2], stride := [], fmtCode := 4, ndim := 1, spm := false, layout := 0, zpEn := false, scaleEn := false,
  rsvd := false, zpByte := 0, scaleBase := 0 }
/-- Context 0's step of queue 0 with a fill. -/
def fillStep (d : Desc) : Step := { step0 with state := .filling, fills := [(d, List.replicate 16 0)] }

/-- The rail's nominal voltage as a start has stored it. -/
theorem metered : (ready.setEntry 0x1400 0x49 1).pw 0x49 ≠ 0 := by
  have h : (ready.setEntry 0x1400 0x49 1).entry 0x1400 0x49 = 1 := by rw [State.entry_setEntry ready_inv]; rfl
  show (ready.setEntry 0x1400 0x49 1).entry 0x1400 0x49 ≠ 0
  rw [h]
  decide

theorem witness_SaveRestoreFillLedger : (moving .suspending).Inv ∧
    ((moving .suspending).queue 0).held = some { step0 with state := .suspending } ∧ ((moving .suspending).saveRank 0 0 rank0).isSome = true ∧
    ((moving .suspending).setEntry 0x3000 0x1B (9 * 2 ^ 35)).Inv ∧
    ((moving .suspending).setEntry 0x3000 0x1B (9 * 2 ^ 35)).saveRank 0 0 rank0 = none ∧ (moving .restoring).Inv ∧ ((moving .restoring).restoreRank 0 0 0 rank0).isSome = true ∧ (moving .restoring).savedBytes 0 0 = 0 ∧
    (((moving .restoring).setEntry 0x3000 0x1B (9 * 2 ^ 35)).restoreRank 0 0 1 rank0) = none ∧
    (busy (fillStep (tensor 0)) none).Inv ∧ (busy (fillStep (tensor 0)) none).genNext = some 0 ∧
    ((busy (fillStep (tensor 0)) none).genFill 0 (fillStep (tensor 0)) (tensor 0) (List.replicate 16 0)).2 = true ∧
    ((busy (fillStep (tensor (9 * 2 ^ 35))) none).genFill 0 (fillStep (tensor (9 * 2 ^ 35))) (tensor (9 * 2 ^ 35)) (List.replicate 16 0)).2 = false ∧
    ready.genNext ≠ some 0 ∧ ready.Inv ∧ ready.Serving 0 ∧ ready.ctxState 0 = 0 ∧ ready.ctxState 1023 = 0 ∧ (0x3FF8 : Nat) % 16 = 8 ∧ (64 : Nat) % 128 ≤ 64 ∧
    (inCtx 1).Inv ∧ (inCtx 1).Serving 0 ∧ (withVf ready).Inv ∧ (withVf ready).Serving 1 ∧ (inCtx 1).ctxState 0 ≠ 0 ∧ (ready.setEntry 0x1400 0x49 1).Inv ∧ (ready.setEntry 0x1400 0x49 1).pw 0x49 ≠ 0 := by
  refine ⟨inv_of ?_, ?_, moving_saves, inv_of ?_, moving_unsaved, inv_of ?_, moving_restores, ?_, moving_lost, inv_of ?_, ?_, ?_, ?_, ?_, ready_inv, ready_serves, ?_, ?_, ?_, ?_,
    inv_of ?_, serving_of ?_, inv_of ?_, serving_of ?_, ?_, State.setEntry_inv ready_inv _ _ _, metered⟩ <;> decide +kernel

/-! ### Witnesses: memory -/

/-- READY with HBM, cache and splice buffer as given. -/
def holding (m : Mem) : State := { ready with mem := m }
/-- A page whose words all read 0, but for those at the given positions, which read uncorrectable. -/
def page0 (bad : List Nat) (chk : PageChk) : Mem := { syn := bad.map fun i => (i, 0x0F), chk := if chk = {} then [] else [(0, chk)] }

theorem page0_reads : ∀ bad ∈ [[3], [0], [3, 255]], erased ((page0 bad {}).pageWords 0) = bad ∧
    ((List.range 256).all fun i => bad.contains i || ((page0 bad {}).readWord (256 * 0 + i)).value == some 0) = true := by decide +kernel

theorem witness_PageCodeRebuilds : (∀ i, i < 256 → (fun _ => 0 : Nat → Nat) i < 2 ^ 64) ∧
    (∀ bad ∈ [[3], [0], [3, 255]], erased ((page0 bad {}).pageWords 0) = bad ∧
      ∀ i, i < 256 → i ∉ bad → ((page0 bad {}).readWord (256 * 0 + i)).value = some 0) ∧
    pageSyms ((List.range 256).map fun i => (i, 0)) = (0, 0) ∧ ((page0 [3] {}).checkWords 0).1.value = some 0 ∧
    ((page0 [3] {}).checkWords 0).2.value = some 0 ∧ ((page0 [3] { pSyn := 0x0F }).checkWords 0).1.value = none ∧
    ((page0 [3] { pSyn := 0x0F }).checkWords 0).2.value = some 0 := by
  refine ⟨fun _ _ => by norm_num, fun bad hb => ⟨(page0_reads bad hb).1, fun i hi hn => ?_⟩, ?_, ?_, ?_, ?_, ?_⟩
  · have h := List.all_eq_true.1 (page0_reads bad hb).2 i (List.mem_range.2 hi)
    simpa [hn] using h
  all_goals decide +kernel

/-- Addresses in the common aperture and in two herds' at their ends; a herd that has half of the pseudo-channels. -/
theorem witness_AddressMapInjective : let s := (ready.setEntry 0x3500 0x10 0xFFFF).setEntry 0x3500 0x11 0xFFFF0000
    s.commonMib ≤ 762 ∧ (∀ g, g < 8 → ∀ h, h < 8 → g ≠ h → s.pcMask g &&& s.pcMask h = 0) ∧ s.addrOk 0 = true ∧
    s.addrOk (2 ^ 35) = true ∧ s.addrOk (2 ^ 36 + 16 * 570 * 2 ^ 20 - 1) = true ∧ s.addrOk (2 ^ 36 + 16 * 570 * 2 ^ 20) = false ∧
    ({ ready with mem := { common := 762 } } : State).commonMib ≤ 762 := by decide +kernel

theorem witness_WordWrittenReadsBack : ready.Inv ∧ (∀ d, ready.flipArmed d = false) ∧ (ready.memWrite 8 [1, 2, 3, 4, 5, 6, 7, 8]).isSome = true ∧
    Tbl.get 0 ready.mem.splSyn (physKey (ready.mapAddr 8) / 8) = 0 ∧ ready.rangeOk 8 8 = true ∧ ready.memNat 8 8 = some 0 ∧
    (holding { lines := [(0, some ⟨0, true, true, [(8, some 1)]⟩)], splice := [⟨0, [(9, some 1)]⟩] }).Inv := by
  refine ⟨ready_inv, fun d => ?_, ?_, ?_, ?_, ?_, inv_of ?_⟩
  · have h : ready.regField intBase 6 1 = 0 := by decide +kernel
    simp [State.flipArmed, h]
  all_goals decide +kernel

/-- A line of address 0 that holds one byte. -/
def line0 (d : Bool) : Mem := { lines := [(0, some ⟨0, true, d, [(127, some 1)]⟩)] }

theorem witness_CacheLines : (holding (line0 false)).Inv ∧ (holding (line0 false)).addrOk 127 = true ∧
    Tbl.get none (holding (line0 false)).mem.lines (127 / 128) = some ⟨0, true, false, [(127, some 1)]⟩ ∧
    (Tbl.get none [((127 : Nat), some (1 : Byte))] (127 % 128 + 0)).isSome = true ∧ Tbl.get none [((127 : Nat), some (1 : Byte))] (126 % 128 + 0) = none ∧
    ready.Inv ∧ (∀ l, Tbl.get none ready.mem.lines 0 = some l → ∃ i, i < 1 ∧ Tbl.get none l.data (0 + i) = none) ∧
    ready.pcFailed (ready.mapAddr 0).1 = false ∧ (∀ i, i < 16 → ready.mem.readWord (physKey (ready.mapAddr 0) / 8 + i) = .clean 0) ∧
    (ready.memRead 0 128).isSome = true ∧ ready.victim 0 (ready.fillMask .around) = none ∧ (ready.victim 0 (ready.fillMask (.herd 0))).isSome = true ∧
    ready.flipArmed 4 = false ∧ ready.addrOk (0 + 128 - 1) = true ∧ Tbl.get none ready.mem.lines (0 / 128) = none := by
  refine ⟨inv_of ?_, ?_, ?_, ?_, ?_, ready_inv, fun l h => ?_, ?_, ?_, ?_, ?_, ?_, ?_, ?_, ?_⟩
  case refine_6 => exact nomatch (show (none : Option Line) = some l from h)
  all_goals decide +kernel

/-- A queued read of the line at address 0. -/
def read0 : PcReq := { write := false, pc := (ready.mapAddr 0).1, line := 0, words := ready.lineWords 0, who := .around }
/-- The same with the first of its words uncorrectable where `bad` says so. -/
def reading (bad : Bool) : State := holding { queue := [read0], syn := if bad then [(physKey (ready.mapAddr 0) / 8, 0x0F)] else [] }

/-- A read to queue, one that the splice buffer answers, one of a failed pseudo-channel; a queued read of clean words and of an
uncorrectable one, chosen by the open row or by its age; no queued read. -/
theorem witness_CacheLines_queue : (ready.lineWords 0).all ready.mem.spliceHas = false ∧
    (holding { splice := [⟨0, (List.range 128).map fun i => (i, some 1)⟩] }).Inv ∧
    ((holding { splice := [⟨0, (List.range 128).map fun i => (i, some 1)⟩] }).lineWords 0).all
      (holding { splice := [⟨0, (List.range 128).map fun i => (i, some 1)⟩] }).mem.spliceHas = true ∧
    (holding { power := [(0, .failed)] }).Inv ∧ (holding { power := [(0, .failed)] }).pcFailed ((holding { power := [(0, .failed)] }).mapAddr (0 * 128)).1 = true ∧
    (reading false).Inv ∧ (reading false).mem.reads 0 = [read0] ∧ (reading false).entry 0x1500 0x09 * 64 < 100000 ∧
    (reading false).choose ((reading false).mem.reads 0) = some read0 ∧ (reading false).mem.holds read0 = false ∧
    (∀ w ∈ read0.words, (reading false).mem.readWord w = .clean 0) ∧ (∀ w ∈ read0.words, Tbl.get 0 (reading false).mem.splSyn w = 0) ∧
    (reading true).Inv ∧ (∃ w ∈ read0.words, (reading true).mem.readWord w = .ue ∧ (reading true).mem.spliceHas w = false) ∧
    ready.choose (ready.mem.reads 0) = none ∧
    (holding { lines := [(0, some ⟨0, true, false, (List.range 128).map fun i => (i, some 1)⟩)] }).Inv ∧
    ({ way := 0, nru := true, dirty := false, data := (List.range 128).map fun i => (i, some 1) } : Line).whole = true ∧
    (line0 false).lines.head?.bind (fun e => e.2.map Line.whole) = some false := by
  refine ⟨?_, inv_of ?_, ?_, inv_of ?_, ?_, inv_of ?_, ?_, ?_, ?_, ?_, ?_, ?_, inv_of ?_, ?_, ?_, inv_of ?_, ?_, ?_⟩ <;> decide +kernel

/-- READY with pseudo-channel 0 in a power state, that may doze, and its commands in retry. -/
def channel (x : PcPower) (n : Nat) : State :=
  { ready.setEntry 0x1500 6 1 with mem := { power := if x = .active then [] else [(0, x)], retries := if n = 0 then [] else [(0, n)] } }
/-- Flips enabled, and the flip's address. -/
def flips (a : Nat) : State := (ready.setEntry 0x1500 0x44 1).setReg (intBase + 8) (BitVec.ofNat 64 a)

theorem witness_PseudoChannelStates :
    (∀ x ∈ [PcPower.active, .powerDown, .selfRefresh, .failed], invB (channel x 0) = true ∧ Tbl.get .active (channel x 0).mem.power 0 = x) ∧
    (channel .active 0).dozing 0 = true ∧ (ready.setEntry 0x1500 6 0).dozing 0 = false ∧ invB (channel .active 2) = true ∧ Tbl.get 0 (channel .active 2).mem.retries 0 < 3 ∧
    invB (channel .active 3) = true ∧ Tbl.get 0 (channel .active 3).mem.retries 0 = 3 ∧ ((channel .active 0).mem.queue.any fun r => r.pc == 0) = false ∧
    ((reading false).mem.queue.any fun r => r.pc == 0) = true ∧ ready.regField memBase 16 1 = 0 ∧
    (ready.setReg memBase (1 <<< 16)).regField memBase 16 1 = 1 ∧ ready.Inv ∧ ready.Serving 0 ∧ (withVf ready).Inv ∧ (withVf ready).Serving 1 ∧ bitOf (0x3F : W32).toNat 6 = false ∧
    bitOf (0x40 : W32).toNat 6 = true ∧ (flips 8).Inv ∧ (flips 8).Serving 0 ∧ (flips 8).entry 0x1500 0x44 = 1 ∧ (0x40 : W32).toNat % 8 = 0 ∧ (flips 8).flipAddr % 8 = 0 ∧
    (flips 8).addrOk (flips 8).flipAddr = true ∧ ready.entry 0x1500 0x44 ≠ 1 ∧ 5 < (0x46 : W32).toNat % 8 := by
  refine ⟨?_, ?_, ?_, ?_, ?_, ?_, ?_, ?_, ?_, ?_, ?_, ready_inv, ready_serves, inv_of ?_, serving_of ?_, ?_, ?_, inv_of ?_, serving_of ?_, ?_⟩ <;> decide +kernel

/-- READY with a splice entry of page 0 of one byte. -/
def spliced : State := holding { splice := [⟨0, [(2047, some 1)]⟩] }
/-- Its next page to scrub. -/
def scrubbing (n : Nat) (m : Mem) : State := holding { m with scrubAt := n }

theorem spliced_reads : ((List.range 256).all fun i => spliced.mem.readWord (256 * 0 + i) == .clean 0) = true := by decide +kernel

theorem witness_SpliceScrubRepair : spliced.Inv ∧ spliced.flipArmed 5 = false ∧ 127 % 128 + 1 ≤ 128 ∧ spliced.addrOk 127 = true ∧
    spliced.pcFailed (spliced.mapAddr 127).1 = false ∧ (spliced.mem.entry (physKey (spliced.mapAddr 127) / 2048)).isSome = true ∧
    ready.mem.splice.length < 64 ∧ (({ page := 0, data := [] } : Splice).put 0 [1]).full = false ∧ (⟨0, [(2047, some 1)]⟩ : Splice).full = false ∧
    Tbl.get 0 (ready.ib 0).accSyn (2047 * 128 + 127) = 0 ∧ Tbl.get none (holding (line0 true)).mem.lines (0 / 128) = some ⟨0, true, true, [(127, some 1)]⟩ ∧
    spliced.mem.entry (physKey (spliced.mapAddr 0) / 2048) = some ⟨0, [(2047, some 1)]⟩ ∧ ready.mem.entry 0 = none ∧
    spliced.mem.entry 0 = some ⟨0, [(2047, some 1)]⟩ ∧ (∀ d, spliced.flipArmed d = false) ∧ (∀ i, i < 256 → Tbl.get 0 spliced.mem.splSyn (256 * 0 + i) = 0) ∧
    (∀ i, i < 256 → spliced.mem.readWord (256 * 0 + i) = .clean 0) ∧
    spliced.mem.checkWords 0 = (let z := pageSyms ((List.range 256).map fun i => (i, 0)); (.clean z.1, .clean z.2)) ∧
    (∀ bad ∈ [[], [3], [1, 2, 3]], invB (holding (page0 bad {})) = true ∧ erased ((page0 bad {}).pageWords 0) = bad ∧
      (holding (page0 bad {})).addrOk 0 = true ∧ (holding (page0 bad {})).pcFailed ((holding (page0 bad {})).mapAddr 0).1 = false) ∧
    physKey ((holding (page0 [3] {})).mapAddr 0) / 2048 = 0 ∧ (page0 [3] {}).rebuild 0 = some [(3, 0)] ∧ (page0 [1, 2, 3] {}).rebuild 0 = none ∧
    (∀ d, (holding (page0 [3] {})).flipArmed d = false) ∧ (∀ q ∈ (page0 [3] {}).mends, q.words.headD 0 / 256 ≠ 0) ∧
    (scrubbing 32 {}).Inv ∧ (scrubbing 32 {}).entry 0x1500 0x40 ≠ 0 ∧ (scrubbing 0 spliced.mem).entry 0x1500 0x40 ≠ 0 ∧
    (ready.setEntry 0x1500 0x40 0).entry 0x1500 0x40 = 0 ∧ (scrubbing 32 {}).mem.scrubAt + 1 < 32 * pagesPerPc ∧ ((scrubbing 32 {}).mem.entry (0 * 2 ^ 19 + 32 / 32)).isSome = false ∧
    ((scrubbing 0 spliced.mem).mem.entry 0).isSome = true ∧ Tbl.get 0 (ready.ib 0).spmSyn 32767 = 0 ∧
    (holding (line0 false)).Inv ∧ (holding (line0 true)).Inv := by
  refine ⟨inv_of ?_, ?_, ?_, ?_, ?_, ?_, ?_, ?_, ?_, ?_, ?_, ?_, ?_, ?_, fun d => ?_, fun _ _ => rfl, fun i hi => ?_, ?_, ?_, ?_, ?_, ?_, fun d => ?_, ?_, inv_of ?_, ?_, ?_, ?_, ?_, ?_, ?_, ?_, inv_of ?_, inv_of ?_⟩
  case refine_22 =>
    have h : (holding (page0 [3] {})).regField intBase 6 1 = 0 := by decide +kernel
    simp only [State.flipArmed, h]; rfl
  case refine_15 =>
    have h : spliced.regField intBase 6 1 = 0 := by decide +kernel
    simp [State.flipArmed, h]
  case refine_16 => simpa using List.all_eq_true.1 spliced_reads i (List.mem_range.2 hi)
  all_goals decide +kernel

/-! ### Witnesses: the Coil -/

/-- The Coil laid out with buffer 0 of pool 0 owned by context 0 and under zeroing where `z` says so, and waiters. -/
def coil (z : Bool) (ws : List Waiter) : State :=
  { laid.setEntry 0x3000 2 2 with coil := { laid.coil with bufs := [(0, ⟨some 0x100, none, z⟩)], waiters := ws } }
/-- A command word: OP, pool and owner. -/
def coilWord (op n o : Nat) : W32 := BitVec.ofNat 32 (op + 8 * n + 256 * o)
/-- COIL_ARG of PF0. -/
def withArg (s : State) (a : Nat) : State := s.setReg (fnReg 0 (coilBase + 8)) (BitVec.ofNat 64 a)

/-- The Coil with buffer 0 of pool 0 owned by stream 3, which is not open, so that nothing uses the buffer. -/
def coilLeft : State := { laid with coil := { laid.coil with bufs := [(0, ⟨some 3, none, false⟩)] } }

theorem witness_CoilGrantsAndReleases : laid.Inv ∧ (ownerOk 0x3F && (4096 : Nat) != 0 && decide (4096 ≤ 67108864)) = true ∧
    (∀ x ∈ [(0x40, 1), (0x7FF, 1), (0, 0), (0, 67108865)], (ownerOk x.1 && x.2 != 0 && decide (x.2 ≤ 67108864)) = false) ∧
    firstPool 4096 = 0 ∧ firstPool 4097 = 1 ∧ firstPool 67108864 = 7 ∧ laid.poolBuffers 0 ≤ 2 ^ 20 ∧
    coilLeft.Inv ∧ (coilLeft.buf 0 0).owner ≠ none ∧ coilLeft.bufUsed 0 0 = false ∧ (coil false []).bufUsed 0 0 = true ∧
    (laid.str 3 2 = 0 ∧ (laid.coilGrant 3 4096).isSome = true ∧ ready.coilGrant 3 4096 = none ∧ ¬(0x100 < 64)) ∧
    laid.resvUnused 0 - (laid.resv 0 0 - laid.held 0 0) < laid.poolFree 0 ∧ ready.coilGrant 0 4096 = none ∧
    (coil true []).Inv ∧ ((coil true []).buf 0 0).zeroing = true ∧ (coil false []).Inv ∧ ((coil false []).buf 0 0).zeroing = false ∧
    ((coil false []).buf 0 0).owner ≠ none ∧ ((coil false []).buf 0 1).owner = none ∧ (coil false []).coil.waiters = [] ∧
    (coil false [⟨0x100, 1, 0, 5⟩, ⟨0, 1, 0, 5⟩]).Inv ∧
    (coil false [⟨0x100, 1, 0, 5⟩, ⟨0, 1, 0, 5⟩]).coil.waiters = [⟨0x100, 1, 0, 5⟩] ++ ⟨0, 1, 0, 5⟩ :: [] ∧
    (pixels { job with serial := some 0 } none).Inv ∧
    ((pixels { job with serial := some 0 } none).stream 0).jobs.find? (fun j => j.serial.isSome && j.buf.isNone) = some { job with serial := some 0 } ∧
    (decide ((0x100 : Nat) < 64) && !([1, 2, 5] : List Nat).contains (laid.str 0x100 0x02)) = false ∧
    (decide ((3 : Nat) < 64) && !([1, 2, 5] : List Nat).contains (laid.str 3 0x02)) = true ∧
    laid.resvUnused 0 - (laid.resv 0x100 0 - laid.held 0x100 0) < laid.poolFree 0 ∧ (64 : Nat) ≤ 0x100 ∧
    (∀ j ∈ ((pixels work none).stream 0).jobs, j.serial.isSome = true → j.buf.isSome = true) := by
  refine ⟨inv_of ?_, ?_, ?_, ?_, ?_, ?_, ?_, inv_of ?_, ?_, ?_, ?_, ?_, ?_, ?_, inv_of ?_, ?_, inv_of ?_, ?_, ?_, ?_, ?_, inv_of ?_, ?_, inv_of ?_, ?_, ?_⟩ <;> decide +kernel

/-- Commands of owner 0x100, context 0, which is enabled; an owner and an OP that do not exist; ARG at its limits. -/
theorem witness_CoilCommands : (coil false []).Inv ∧ (coil false []).Serving 0 ∧
    (∀ op ∈ [1, 2, 3, 4], (coil false []).coilCheck 0 (putField (coilWord 0 7 0x100).toNat 0 3 op) op = none) ∧
    (coil false []).coilCheck 0 (putField (coilWord 0 0 0xFF).toNat 0 3 1) 1 = some Code.COIL_OWNER ∧
    (coil false []).coilArg 0 = 0 ∧ (withArg (coil false []) 67108864).coilArg 0 = 67108864 ∧ (withArg (coil false []) 67108865).coilArg 0 = 67108865 ∧
    ((withArg (coil false []) 1).coilGrant 0x100 1).isSome = true ∧ ready.coilGrant 0x100 1 = none ∧
    (inCtx 2).Inv ∧ (inCtx 2).coilCheck 0 (putField (coilWord 0 0 0x100).toNat 0 3 1) 1 = none ∧
    (coil false []).bufOfAddr ((coil false []).bufAddr 0 0) = some (0, 0) ∧ ((coil false []).buf 0 0).owner = some 0x100 ∧
    (coil false []).bufOfAddr ((coil false []).bufAddr 0 0 + 1) = none ∧
    (coil false []).poolBuffers 0 < (coil false []).poolBuffers 0 + 1 ∧
    ((coil false []).setResv 0x100 0 ((coil false []).poolBuffers 0)).resvUnused 0 ≤ ((coil false []).setResv 0x100 0 ((coil false []).poolBuffers 0)).poolFree 0 ∧
    (((coil false []).setResv 0x101 0 1).setResv 0x100 0 ((coil false []).poolBuffers 0)).poolFree 0 <
      (((coil false []).setResv 0x101 0 1).setResv 0x100 0 ((coil false []).poolBuffers 0)).resvUnused 0 := by
  refine ⟨inv_of ?_, serving_of ?_, ?_, ?_, ?_, ?_, ?_, ?_, ?_, inv_of ?_, ?_⟩ <;> decide +kernel

/-! ### Witnesses: power -/

/-- READY in a power state, with Tether's state as given. -/
def tether (pw : Nat) (t : Tether) : State := { ready.setEntry 0x1400 2 pw with tth := t }

theorem witness_PowerFastLoop : ready.Inv ∧ (12000 : Nat) < 2 ^ 64 ∧ ready.power < 2 ∧ (tether 2 {}).Inv ∧ 2 ≤ (tether 2 {}).power ∧
    ready.fixed = false ∧ (ready.setEntry 0x1400 4 1).Inv ∧ (ready.setEntry 0x1400 4 1).fixed = true ∧ (ready.setEntry 0x1400 4 1).tth.broken = false ∧
    (ready.setEntry 0x1400 4 1).op ≤ 9 ∧ (ready.setEntry 0x1400 0x20 0).op = 0 ∧ ready.tth.hold = false ∧ ready.tth.rising = none ∧
    (tether 0 { hold := true, rising := some 10 }).Inv ∧ (tether 0 { hold := true, rising := some 10 }).tth.hold = true ∧
    (tether 0 { hold := true, rising := some 10 }).tth.rising = some 10 ∧ ((tether 0 { rising := some 10 }).setEntry 0x1400 4 1).Inv ∧
    ((tether 0 { rising := some 10 }).setEntry 0x1400 4 1).fixed = true ∧ ((tether 0 { rising := some 10 }).setEntry 0x1400 4 1).tth.rising = some 10 := by
  refine ⟨ready_inv, ?_, ?_, inv_of ?_, ?_, ?_, inv_of ?_, ?_, ?_, ?_, ?_, ?_, ?_, inv_of ?_, ?_, ?_, inv_of ?_, ?_, ?_⟩ <;> decide +kernel

/-- A tick above the temperature limit, one whose average exceeds the cap at OP12, one with a context to shed. -/
theorem witness_SlowLoopSingleSteps : (tether 0 { temps := [127] }).Inv ∧
    (((tether 0 { temps := [127] }).setEntry 0x1400 0x24 127).modTth fun t => { t with cap := (tether 0 {}).pw 0x03 }).showCap.hot = true ∧
    ((tether 0 { samples := [10 ^ 9] }).setEntry 0x1400 0x20 12).Inv ∧
    (let s := (tether 0 { samples := [10 ^ 9] }).setEntry 0x1400 0x20 12
     let u := (s.modTth fun t => { t with cap := s.pw 0x03 }).showCap
     u.hot = false ∧ u.capEff < u.pAvg ∧ min (if s.pw 0x04 = 1 ∨ 0 < s.entry 0x4000 0x02 then 9 else 0) (s.pw 0x21) < s.op) ∧
    2 ≤ (tether 2 {}).power ∧ ({ inCtx 2 with sch := { queues := [(0, { bound := true })] } } : State).sheddable = [0] := by
  refine ⟨inv_of ?_, ?_, inv_of ?_, ?_⟩ <;> decide +kernel

theorem witness_EnergyTemperatureIdle : ready.Inv ∧ (ready.setEntry 0x1400 0x49 900).Inv ∧ (ready.setEntry 0x1400 0x49 900).pw 0x49 ≠ 0 ∧ ([-128, 127] ++ List.replicate 10 0 : List Int).length = 12 ∧
    (∀ x ∈ ([-128, 127] ++ List.replicate 10 0 : List Int), -128 ≤ x ∧ x ≤ 127) ∧ (tether 0 { tripOut := true }).Inv ∧
    (tether 0 { tripOut := true }).tth.tripOut = true ∧ ready.tth.tripOut = false ∧ ready.start.halted = false ∧ ({ ready with start := { halted := true } } : State).start.halted = true ∧ (∀ x ∈ ([94] : List Int), x < 95) ∧ (∃ x ∈ ([95] : List Int), 95 ≤ x) ∧
    ready.stage = 11 ∧ ready.power = 0 ∧ ready.quiet = true ∧ (busy step0 none).quiet = false ∧ State.reset.stage ≠ 11 := by
  refine ⟨ready_inv, State.setEntry_inv ready_inv _ _ _, ?_, ?_, ?_, inv_of ?_, ?_⟩
  case refine_1 => rw [State.pw, State.entry_setEntry ready_inv]; decide
  all_goals decide +kernel

/-- Idle with Nap enabled, and a Nap entry at a stage. -/
def napping (pw nap : Nat) (w : Bool) : State := { (tether pw { nap := nap }).setEntry 0x1400 0x11 1 with wake := w }
/-- The same with a step of context 0 in a state. -/
def napStep (x : StepState) : State := { napping 1 2 false with sch := { queues := [(0, { bound := true, held := some { step0 with state := x } })] } }

theorem witness_NapEntersAndWakes : (napping 1 0 false).Inv ∧ (napping 1 0 false).napOk = true ∧ ready.napOk = false ∧ (napping 2 0 true).Inv ∧
    (napping 2 0 true).power = 2 ∧ (napping 2 0 true).wake = true ∧ (napping 2 0 true).waitList = [] ∧ (∀ e, e < 4 → (napping 2 0 true).eeAt e = none) ∧
    (∀ n ∈ [1, 2, 3, 4], invB (napping 1 n false) = true ∧ (napping 1 n false).tth.nap = n ∧ (napping 1 n false).drained = true ∧
      (∀ x ∈ (napping 1 n false).openSteps, x.2.state ≠ .suspending) ∧ invB (napping 1 n true) = true ∧ (napping 1 n true).drained = true) ∧
    ({ napping 1 1 false with vid := { ee := [(3, some (ee0 false false []))] } } : State).drained = false ∧
    (napStep .suspending).Inv ∧ (∃ x ∈ (napStep .suspending).openSteps, x.2.state = .suspending) ∧ ready.Inv ∧
    (∀ v ∈ [(1 : Byte), 2], ready.dictGate .kdp 0x1400 0x01 true [v] = none) ∧ (napping 1 0 false).enabled 0 = true ∧ (napping 2 0 true).store.napped = [] ∧
    ({ napping 2 0 true with store := { napped := [⟨.kdp, 0x2000, 1, false, []⟩] } } : State).wake = true ∧ (napping 1 0 false).frozen = false ∧ (napping 1 0 false).dmDone 0 = true ∧
    (napping 1 0 false).dictGate (.fn 0) 0x1400 0x01 true [2] = none ∧ ready.Reaches .kdp := by
  refine ⟨inv_of ?_, ?_, ?_, inv_of ?_, ?_, ?_, ?_, ?_, ?_, ?_, inv_of ?_, ?_, ready_inv, ?_, ?_, ?_, ?_, ?_, ?_, ?_, ready_reaches .kdp⟩ <;> decide +kernel

/-- READY after a start, and in Standby. -/
def started (pw : Nat) (t : Tether) : State := { tether pw t with start := { ready.start with running := true } }

theorem witness_StandbyAndSupplies : (started 0 {}).Inv ∧ (started 0 {}).power ≠ 3 ∧ (started 0 {}).start.running = true ∧ (started 3 {}).Inv ∧
    (started 3 {}).power = 3 ∧ ({ started 0 {} with pins := { ready.pins with vin := true } } : State).Inv ∧
    ({ started 0 {} with pins := { ready.pins with vin := false } } : State).pins.vin = false ∧
    (started 3 { byRange := true }).Inv ∧ (started 3 { byRange := true }).tth.byRange = true ∧ (started 3 { byRange := true }).tth.tripOut = false ∧
    (started 3 { byRange := true, tripOut := true }).tth.tripOut = true ∧ ready.Inv ∧ ready.Reaches .kdp ∧
    (∀ v ∈ [(3 : Byte), 4], ready.dictGate .kdp 0x1400 0x01 true [v] = none) ∧ (started 3 {}).dictGate .kdp 0x1400 0x01 true [4] = none := by
  refine ⟨inv_of ?_, ?_, ?_, inv_of ?_, ?_, inv_of ?_, ?_, inv_of ?_, ?_, ?_, ?_, ready_inv, ready_reaches .kdp, ?_⟩ <;> decide +kernel

/-! ### Witnesses: starts, updates, attestation -/

/-- The first 128 bytes of an image of a kind with a body of one byte, for every interface version of the other kind of R541. -/
def imageHead (kind : Nat) : List Byte :=
  bytesLE 4 0x4D56494D ++ bytesLE 4 kind ++ bytesLE 4 (ifaceOf kind) ++ bytesLE 4 (ifaceOf kind) ++ bytesLE 4 0 ++ bytesLE 4 1 ++ [1] ++
    List.replicate 7 0 ++ bytesLE 4 (ifaceOf (3 - kind)) ++ List.replicate 92 0
/-- The image, up to its body: the vendor's key and zeros. -/
def image (kind : Nat) : List Byte := imageHead kind ++ (vendorKey ++ List.replicate 3904 0)

theorem imageHead_length (kind : Nat) : (imageHead kind).length = 128 := by simp [imageHead, bytesLE]

theorem flashBytes_head (kind o n : Nat) (h : o + n ≤ 128) : flashBytes (image kind) o n = ((imageHead kind).drop o).take n := by
  have hl := imageHead_length kind
  simp only [flashBytes, image]
  rw [List.drop_append_of_le_length (by omega), List.take_append_of_le_length (by simp; omega)]
  simp [hl]; omega

theorem flashBytes_mid (a b c : List Byte) : flashBytes (a ++ (b ++ c)) a.length b.length = b := by simp [flashBytes]

theorem flashBytes_end (a b c : List Byte) : flashBytes (a ++ (b ++ c)) (a.length + b.length) c.length = c := by
  simp [flashBytes, List.drop_append, List.drop_eq_nil_of_le]

theorem vendorKey_length : vendorKey.length = 64 := by rw [vendorKey, List.length_map, List.length_range]

theorem flashBytes_key (kind : Nat) : flashBytes (image kind) 0x80 64 = vendorKey := by
  have h := flashBytes_mid (imageHead kind) vendorKey (List.replicate 3904 0)
  rwa [imageHead_length, vendorKey_length] at h

theorem flashBytes_zero (kind : Nat) : flashBytes (image kind) 0xC0 3904 = List.replicate 3904 0 := by
  have h := flashBytes_end (imageHead kind) vendorKey (List.replicate 3904 0)
  rwa [imageHead_length, vendorKey_length, List.length_replicate] at h

theorem image_headerOk (kind : Nat) (hk : kind = 1 ∨ kind = 2) : headerOk kind (image kind) = true := by
  have h : ((flashBytes (image kind) 0xC0 (0x1000 - 0xC0)).all (· == 0)) = true := by
    rw [show 0x1000 - 0xC0 = 3904 from rfl, flashBytes_zero, List.all_replicate]; rfl
  simp only [headerOk, imgF, h, flashBytes_head, Nat.reduceAdd, Nat.reduceSub, Nat.reduceLeDiff]
  rcases hk with rfl | rfl <;> decide +kernel

theorem image_code (s : State) (kind : Nat) (hk : kind = 1 ∨ kind = 2) (h : s.st (0x17 + kind) = 0) : s.imageCode kind (image kind) false = none := by
  simp [State.imageCode, image_headerOk kind hk, flashBytes_key, vendorHash, h]

theorem image_code_full (s : State) (kind : Nat) (hk : kind = 1 ∨ kind = 2) (h : s.st (0x17 + kind) = 0)
    (hv : Config.slhVerify vendorKey (imgMessage (image kind)) (flashBytes (image kind) (4096 + imgF (image kind) 0x14 4) 29792) = true) :
    s.imageCode kind (image kind) true = none := by
  simp [State.imageCode, image_headerOk kind hk, flashBytes_key, vendorHash, h, hv]

/-- A start at a stage, with two images and their digests kept. -/
def starting (n : Nat) (cold : Bool) (r : StartRec) : State :=
  { State.reset.setEntry 0x1300 2 n with
    start := { running := true, cold := cold, record := r, slots := [(0, some (image 1)), (2, some (image 2))],
               kept := [(0, some (digest (image 1))), (2, some (digest (image 2)))] } }
/-- The same with rollback counters of 0. -/
def unfused (s : State) : State := (s.setEntry 0x1300 0x18 0).setEntry 0x1300 0x19 0
/-- The same with an empty second image. -/
def unsound (n : Nat) : State := { starting n false {} with start := { (starting n false {}).start with slots := [(0, some (image 1)), (2, some [])] } }
/-- READY with a record and what UPD_STATE shows. -/
def upd (st : Nat) (r : StartRec) : State := { ready.setEntry 0x1300 0x23 st with start := { ready.start with record := r } }

theorem unfused_entry (s : State) (hs : s.Inv) (i j : Nat) (h : dkey i j ≠ dkey 0x1300 0x18) (h' : dkey i j ≠ dkey 0x1300 0x19) :
    (unfused s).entry i j = s.entry i j := by
  rw [unfused, State.entry_setEntry (State.setEntry_inv hs _ _ _), if_neg h', State.entry_setEntry hs, if_neg h]

theorem unfused_zero (s : State) (hs : s.Inv) (kind : Nat) (hk : kind = 1 ∨ kind = 2) : (unfused s).st (0x17 + kind) = 0 := by
  rw [unfused, State.st, State.entry_setEntry (State.setEntry_inv hs _ _ _), State.entry_setEntry hs]
  rcases hk with rfl | rfl <;> simp [dkey]

theorem starting_inv : ∀ n ∈ List.range 12, (starting n false {}).Inv ∧ (starting n true {}).Inv := by
  intro n hn
  have h : ((List.range 12).all fun n => invB (starting n false {}) && invB (starting n true {})) = true := by decide +kernel
  have h' := List.all_eq_true.1 h n hn
  simp only [Bool.and_eq_true] at h'
  exact ⟨inv_of h'.1, inv_of h'.2⟩

/-- Each stage of a start; images that pass and one that fails, on warm starts with the digest kept; pairs tested together and not. -/
theorem witness_StartsRun : State.reset.Inv ∧ State.reset.start.running = false ∧ State.reset.power ≠ 3 ∧
    (∀ n ∈ List.range 11, (starting n false {}).Inv ∧ (starting n true {}).Inv ∧ (starting n false {}).stage = n ∧ (starting n true {}).stage = n ∧
      (starting n false {}).start.running = true ∧ (starting n false {}).start.halted = false ∧ (starting n false {}).power ≠ 3) ∧
    (∀ kind, kind = 1 ∨ kind = 2 → (unfused (starting (kind + 2) false {})).Inv ∧ (unfused (starting (kind + 2) false {})).stage = kind + 2 ∧
      let s := unfused (starting (kind + 2) false {})
      let slot := if kind = 1 then (pairSlots s.start.record.active).1 else (pairSlots s.start.record.active).2
      s.imageCode kind (s.slotBytes slot)
        (s.start.cold || Tbl.get false s.start.changed slot || Tbl.get none s.start.kept slot != some (digest (s.slotBytes slot))) = none) ∧
    (unsound 4).Inv ∧ (unsound 4).stage = 4 ∧ (unsound 4).imageCode 2 ((unsound 4).slotBytes 2) true ≠ none ∧
    (unsound 5).Inv ∧ (unsound 5).tested 0 = false ∧ (starting 5 false {}).tested 0 = true ∧
    (∀ r ∈ [({ fails := 3, switches := 2 } : StartRec), { fails := 3, lkg := 1 }, { fails := 3, lkgValid := false }], invB (starting 2 false r) = true) ∧
    (starting 10 false {}).mem.lines = [] ∧ (starting 10 false {}).mem.splice = [] ∧ (starting 11 false {}).Inv ∧ (starting 11 false {}).oryxRuns = true ∧
    (starting 6 false {}).oryxRuns = true ∧ (starting 5 false {}).oryxRuns = false ∧
    ready.Inv ∧ ready.Reaches .kdp ∧ (∀ v ∈ [(1 : Byte), 2, 3], ready.dictGate .kdp 0x1300 1 true [v] = none) ∧ ready.start.record.trial = false ∧
    ready.st 0x23 ≠ 3 ∧ (upd 3 {}).Inv ∧ (upd 3 {}).Reaches .kdp ∧ (upd 3 {}).st 0x23 = 3 ∧ (upd 3 {}).dictGate .kdp 0x1300 1 true [1] = none ∧
    (upd 0 { trial := true }).Inv ∧ (upd 0 { trial := true }).Reaches .kdp ∧ (upd 0 { trial := true }).start.record.trial = true ∧
    (upd 0 { trial := true }).stage = 11 ∧ (upd 0 { trial := true }).power ≠ 3 ∧ (upd 0 { trial := true }).st 9 ≠ 0 ∧
    (ready.setEntry 0x1300 2 14).Inv ∧ (ready.setEntry 0x1300 2 14).stage = 14 ∧ (ready.setEntry 0x1300 2 14).frozen = false ∧
    (ready.setEntry 0x1300 2 14).dmDone 0 = true ∧ (ready.setEntry 0x1300 2 14).dictGate (.fn 0) 0x1300 1 true [1] = none := by
  refine ⟨inv_of ?_, ?_, ?_, fun n hn => ⟨(starting_inv n ?_).1, (starting_inv n ?_).2, ?_⟩, fun kind hk => ⟨?_, ?_, ?_⟩, inv_of ?_, ?_, ?_, inv_of ?_, ?_, ?_, ?_, ?_, ?_,
    (starting_inv 11 ?_).1, ?_, ?_, ?_, ready_inv, ready_reaches .kdp, ?_, ?_, ?_, inv_of ?_, ⟨?_, ?_, ?_⟩, ?_, ?_, inv_of ?_, ⟨?_, ?_, ?_⟩, ?_, ?_, ?_, ?_,
    inv_of ?_, ?_⟩
  case refine_4 => simp at hn ⊢; omega
  case refine_5 => simp at hn ⊢; omega
  case refine_6 => revert n; decide +kernel
  case refine_7 => exact State.setEntry_inv (State.setEntry_inv (starting_inv _ (by rcases hk with rfl | rfl <;> decide)).1 _ _ _) _ _ _
  case refine_8 =>
    rw [State.stage, unfused_entry _ (starting_inv _ (by rcases hk with rfl | rfl <;> decide)).1 _ _ (by decide) (by decide)]
    rcases hk with rfl | rfl <;> decide +kernel
  case refine_9 =>
    have h0 := unfused_zero _ (starting_inv (kind + 2) (by rcases hk with rfl | rfl <;> decide)).1 kind hk
    have hc := image_code _ kind hk h0
    rcases hk with rfl | rfl <;> simpa [unfused, State.setEntry, starting, State.slotBytes, pairSlots, Tbl.get] using hc
  all_goals decide +kernel

/-- An update of the Oryx image in a state, with the length announced and the bytes received, and the images of Oryx B and Gazelle A. -/
def updating (st len : Nat) (data oryxB : List Byte) : State :=
  { (ready.setEntry 0x1300 0x23 st).setEntry 0x1300 0x24 data.length with
    start := { ready.start with updKind := 1, updLen := len, updData := data, slots := [(1, some oryxB), (2, some (image 2))] } }
/-- The value of UPD_BEGIN. -/
def beginBytes (kind len : Nat) : List Byte := bytesLE 4 kind ++ bytesLE 4 len
/-- READY with the attestation's state and key. -/
def attesting (st : Nat) (pk : Option (List Byte)) : State := { ready.setEntry 0x1300 0x42 st with start := { ready.start with pk := pk } }
/-- PF0 in recovery. -/
def recovery (st : Nat) : State := (ready.setEntry 0x1300 2 14).setEntry 0x1300 0x23 st

theorem chunk_passes : ready.dictGate .kdp 0x1300 0x21 true (List.replicate 4100 0) = none := by decide +kernel

/-- Each state of UPD_STATE; lengths at the ends of their range and beyond; a chunk in order and out of order; tested and untested pairs. -/
theorem witness_UpdatesAndAttestation : (∀ st ∈ List.range 6, invB (updating st 1 [] []) = true ∧ (updating st 1 [] []).st 0x23 = st) ∧
    (updating 1 40000 [1] []).Inv ∧ ready.Serving 0 ∧ ready.dmDone 0 = true ∧ (recovery 1).Inv ∧ (recovery 1).stage = 14 ∧ (recovery 1).power ≠ 3 ∧
    (recovery 1).frozen = false ∧ (recovery 1).dmDone 0 = true ∧ ready.Inv ∧ ready.start.record.trial = false ∧
    (∀ x ∈ [(1, 33889), (1, 0x1000000), (2, 33889), (2, 0x800000)], ready.dictGate .kdp 0x1300 0x20 true (beginBytes x.1 x.2) = none ∧
      recField (beginBytes x.1 x.2) 1 3 = 0 ∧ recField (beginBytes x.1 x.2) 0 1 = x.1 ∧ recField (beginBytes x.1 x.2) 4 4 = x.2 ∧ x.2 ≤ slotSize x.1 ∧ 33889 ≤ x.2) ∧
    recField (beginBytes 1 33888) 4 4 < 33889 ∧ slotSize 2 < recField (beginBytes 2 0x800001) 4 4 ∧ recField (beginBytes 3 33889) 0 1 = 3 ∧
    ready.dictGate .kdp 0x1300 0x21 true (List.replicate 4100 0) = none ∧ recField [0, 0, 0, 0] 0 4 = (updating 1 1 [] []).st 0x24 ∧
    recField [0, 0, 0, 0] 0 4 ≠ (updating 1 40000 [1] []).st 0x24 ∧
    (∀ j ∈ [0x22, 0x25, 0x26, 0x41], ready.dictGate .kdp 0x1300 j true [1] = none ∧ ready.dictGate .kdp 0x1300 j true [0] = none) ∧
    (updating 1 1 [] []).st 0x24 < (updating 1 1 [] []).start.updLen ∧ (updating 1 1 [7] []).start.updLen ≤ (updating 1 1 [7] []).st 0x24 ∧
    (updating 1 1 [7] []).imageCode 1 [7] true = some (Code.START_IMG_HDR, 2) ∧
    (updating 4 1 [] (image 1)).Inv ∧ (updating 4 1 [] (image 1)).tested 1 = true ∧ (updating 4 1 [] []).tested 1 = false ∧
    ready.dictGate .kdp 0x1300 0x38 true (6 :: List.replicate 64 0) = none ∧ recField (6 :: List.replicate 64 0) 0 1 = 6 ∧
    (attesting 1 none).Inv ∧ (attesting 1 none).st 0x42 = 1 ∧ (attesting 0 (some [])).Inv ∧ (attesting 0 (some [])).st 0x42 ≠ 1 ∧
    (attesting 0 (some [])).stage = 11 ∧ (attesting 0 (some [])).start.pk ≠ none ∧ ready.start.pk = none ∧ ready.stage = 11 ∧
    ready.served = true ∧ State.reset.Inv ∧ State.reset.served = false ∧ State.reset.dictGate .kdp 0x1300 0x20 true (beginBytes 1 33889) = none ∧
    (updating 4 1 [] (image 1)).start.updSlot < 4 ∧
    ({ updating 3 1 [] [] with start := { (updating 3 1 [] []).start with warmDue := true } } : State).Inv := by
  refine ⟨?_, inv_of ?_, ready_serves, ?_, inv_of ?_, ?_, ?_, ?_, ?_, ready_inv, ?_, ?_, ?_, ?_, ?_, chunk_passes, ?_, ?_, ?_, ?_, ?_, ?_, inv_of ?_, ?_, ?_,
    ?_, ?_, inv_of ?_, ?_, inv_of ?_, ?_, ?_, ?_, ?_, ?_, ?_, inv_of ?_, ?_, ?_, ?_, inv_of ?_⟩ <;> decide +kernel

/-- An image whose signature verifies passes all checks. -/
theorem witness_UpdatesAndAttestation_image (hv : Config.slhVerify vendorKey (imgMessage (image 1))
    (flashBytes (image 1) (4096 + imgF (image 1) 0x14 4) 29792) = true) : (unfused ready).Inv ∧ (unfused ready).imageCode 1 (image 1) true = none :=
  ⟨State.setEntry_inv (State.setEntry_inv ready_inv _ _ _) _ _ _, image_code_full _ 1 (.inl rfl) (unfused_zero _ ready_inv 1 (.inl rfl)) hv⟩

/-! ### Witnesses: the host port -/

/-- A frozen port. -/
def frozenPort : State := ready.setReg hpBase (1 <<< 9)
/-- READY with a function's state. -/
def withFn (k : Nat) (f : FnSt) : State := { ready with hp := { fns := [(k, f)] } }
/-- VF 1 with context 0 READY at window address 0 of 256 MiB. -/
def vfWindow : State := { (inCtx 2).setEntry 0x3000 3 1 with hp := { fns := [(1, { vf := true })] } }
/-- Stream 0 of PF0 with a ring of 2^6 entries at 64, HEAD and TAIL. -/
def ring (head tail : Nat) (x : Stream) : State :=
  { (((((withFn 0 { bme := true, msixEn := true, masked := 0 }).setReg (crReg 0 0) 64).setReg (crReg 0 8) (6 + 2 ^ 32 + 2 ^ 48)).setReg (crReg 0 0x10)
      (BitVec.ofNat 64 head)).setReg (crReg 0 0x18) (BitVec.ofNat 64 tail)) with streams := Tbl.set {} [] 0 x }

theorem witness_HostAccesses : State.reset.Inv ∧ State.reset.stage ≠ 11 ∧ State.reset.power ≠ 3 ∧ State.reset.frozen = false ∧ State.reset.stage ≠ 14 ∧
    (tether 3 {}).Inv ∧ (tether 3 {}).power = 3 ∧ frozenPort.Inv ∧ frozenPort.frozen = true ∧ frozenPort.power ≠ 3 ∧ (recovery 0).Inv ∧
    (recovery 0).power ≠ 3 ∧ (recovery 0).frozen = false ∧ (recovery 0).stage = 14 ∧ (recovery 0).dmDone 0 = true ∧
    ready.Inv ∧ ready.Serving 0 ∧ (withVf ready).Inv ∧ (withVf ready).Serving 1 ∧ vfOffset 1 0x38 = none ∧ vfOffset 1 8 = some (dpBase 1) ∧
    (regVal 8 8 64).merge (ready.reg (dpBase 1)).toNat % 64 = 0 ∧ (regVal 8 8 63).merge (ready.reg (dpBase 1)).toNat % 64 ≠ 0 ∧
    (regVal 0x14 4 1).merge (ready.reg (dpPtr 1)).toNat % 4 = 0 ∧ (regVal 0x10 4 1).merge (ready.reg (dpPtr 1)).toNat % 4 ≠ 0 ∧
    ready.dpOk 0 0 8 = true ∧ ready.dpOk 0 (2 ^ 39) 8 = false ∧ ready.dpOk 1 0 8 = false ∧ (0xF00000 - 8 : Nat) + 8 ≤ 0xF00000 ∧
    (8 : Nat) % 4 = 0 ∧ (ready.reg (dpPtr 0)).toNat % 4 = 0 ∧
    ready.strFn 0 ≠ 1 ∧ ready.strFn 0 = 0 ∧ ready.strOpen 0 = false ∧ (str0 2 {}).Inv ∧ (str0 2 {}).strOpen 0 = true ∧
    (6 ≤ field 0x10006 4 0 ∧ field 0x10006 4 0 ≤ 16 ∧ 1 ≤ field 0x10006 23 16) ∧ (6 ≤ field 0xFF0010 4 0 ∧ field 0xFF0010 4 0 ≤ 16 ∧ 1 ≤ field 0xFF0010 23 16) ∧
    ¬ (6 ≤ field 0x10005 4 0) ∧ ¬ (field 0x10011 4 0 ≤ 16) ∧ ¬ (1 ≤ field 0x10 23 16) ∧
    (ring 0 64 { hold := [[1]], pend := 1 }).Inv ∧ (ring 0 64 { hold := [[1]], pend := 1 }).Serving 0 ∧
    (ring 0 64 { hold := [[1]], pend := 1 }).regField (crReg 0 8) 0 5 = 6 ∧ ((ring 0 64 { hold := [[1]], pend := 1 }).stream 0).hold ≠ [] ∧
    ¬ (((ring 0 64 { pend := 1 }).stream 0).pend = 0 ∨ (ring 0 64 { pend := 1 }).regField (crReg 0 8) 32 16 = 0 ∨
      (ring 0 64 { pend := 1 }).regField (crReg 0 8) 48 1 = 0) ∧
    (ring 0 64 {}).canIssue 0 = true ∧ ((ring 0 64 {}).fn 0).msixEn = true ∧ ((ring 0 64 {}).fn 0).masked.getLsbD 0 = false ∧ (ring 0 64 {}).hp.waits = [] ∧ ready.takesConfig 0 = true ∧ ready.takesConfig 1 = false ∧
    frozenPort.enabled 0 = true ∧ (recovery 0).enabled 0 = true ∧ (withFn 0 { bme := true, pend := 3, masked := 2 }).Inv ∧
    (withFn 0 { bme := true, pend := 3, masked := 2 }).canIssue 0 = true ∧
    ready.enabled 1 = false ∧ (withFn 1 { vf := true, bme := true, pend := 1 }).Inv ∧ (withFn 1 { vf := true, bme := true, pend := 1 }).enabled 1 = true ∧
    (withFn 1 { vf := true, bme := true, pend := 1 }).canIssue 1 = true ∧ ((withFn 1 { vf := true, bme := true, pend := 1 }).fn 1).pend.getLsbD 0 = true ∧
    ready.canIssue 1 = false := by
  refine ⟨inv_of ?_, ?_, ?_, ?_, ?_, inv_of ?_, ?_, inv_of ?_, ?_, ?_, inv_of ?_, ?_, ?_, ?_, ?_, ready_inv, ready_serves, inv_of ?_, serving_of ?_, ?_, ?_, ?_, ?_, ?_, ?_, ?_, ?_, ?_, ?_,
    ?_, ?_, ?_, ?_, ?_, inv_of ?_, ?_, ?_, ?_, ?_, ?_, ?_, inv_of ?_, serving_of ?_, ?_, ?_, ?_, ?_, ?_, ?_, ?_, ?_, ?_, ?_, ?_, inv_of ?_, ?_, ?_, inv_of ?_, ?_⟩ <;> decide +kernel

/-- A VF may touch the window of its READY context, to its last byte. -/
theorem witness_HostAccesses_window : vfWindow.Inv ∧ vfWindow.dpOk 1 (2 ^ 28 - 1) 1 = true ∧ vfWindow.dpOk 1 (2 ^ 28 - 1) 2 = false :=
  ⟨inv_of (by decide +kernel), by decide +kernel⟩

/-- READY with a poisoned word at address 64: a read of 128 bytes comes in two completions, of which one is poisoned. -/
def badWord : State := { ready with mem := { syn := [(physKey (ready.mapAddr 64) / 8, 0x7F)] } }

theorem witness_HostAccesses_split : badWord.Inv ∧ badWord.Serving 0 ∧ badWord.memRead 0 128 = none ∧ (badWord.memRead 0 64).isSome = true ∧
    badWord.dpOk 0 0 128 = true := by
  refine ⟨inv_of ?_, serving_of ?_, ?_, ?_, ?_⟩ <;> decide +kernel

/-- READY whose VF 1 translates, with what waits, what flies and the streams and queues as given. -/
def waiting (f : FnSt) (ws : List Wait) (fl : List Flight := []) : State :=
  { (withVf ready f).setReg (fnCtl 1) 1 with hp := { fns := [(1, { f with vf := true })], waits := ws, flying := fl } }
/-- A write and both reads of VF 1. -/
def wr1 : Out := .write 1 false 0x1008 [1]
/-- A chunk read. -/
def rdChunk : Out := .read 1 false 0x2000 32 (.chunk 0)
/-- A descriptor read. -/
def rdDesc : Out := .read 1 false 0x2000 128 (.desc 0)
/-- VF 1 waits for the translation of what is generated next. -/
def asking (o : Out) : State := waiting { bme := true, asked := some o } [{ out := o }]
/-- A descriptor read of VF 1 that waits, and queue 0. -/
def descWaits (q : Queue) : State := { asking rdDesc with sch := { queues := [(0, q)] } }
/-- A queue record of function 1. -/
def ofFn1 : List Byte := List.replicate 0x1C 0 ++ [1, 0, 0, 0]
/-- An entry of the translation cache. -/
def entry1 : XEntry := { fn := 1, page := 0x1000, log2 := 12, host := 0x5000, write := true }
/-- The link up, with that entry and a read that used it in flight. -/
def linkedVf : State :=
  { ready.setReg hpBase 1 with
    hp := { fns := [(1, { vf := true })], xcache := [entry1], flying := [{ fn := 1, read := .chunk 0, entry := some entry1 }] } }

/-- Modes 0 to 3 with and without ATS Enable; pages of 4 KiB and 1 GiB; refused and useless translations of a write and of both reads;
reads in flight and reads that still wait. -/
theorem witness_FunctionsAndTranslations : State.reset.Inv ∧ State.reset.stage ≠ 11 ∧ frozenPort.Inv ∧ frozenPort.frozen = true ∧ ready.Inv ∧ ready.Serving 0 ∧
    (withVf ready).Inv ∧ (withVf ready).Serving 1 ∧ ready.enabled 1 = false ∧
    (0x1F03 : W64).toNat % 4 = 3 ∧ (0x1F02 : W64).toNat % 4 ∈ [1, 2] ∧ (0x1F00 : W64).toNat % 4 = 0 ∧ (ready.fn 1).asked = none ∧
    (∀ o ∈ [wr1, rdChunk, rdDesc], invB (asking o) = true ∧ ((asking o).fn 1).asked = some o ∧ (asking o).hp.waits = [{ out := o }] ∧ o.fnOf = 1 ∧
      (asking o).canIssue 1 = true ∧ (asking o).hp.flying.length < 512 ∧ (asking o).atsMode 1 = 1) ∧
    wr1.target = some (0x1008, true) ∧ rdChunk.target = some (0x2000, false) ∧ rdDesc.target = some (0x2000, false) ∧
    0x1008 / 2 ^ 12 = (0x1000 : W64).toNat / 2 ^ 12 ∧ 0x1008 / 2 ^ 30 = (0 : W64).toNat / 2 ^ 30 ∧
    (asking wr1).xlate 1 0x1008 true = none ∧ (asking rdDesc).xlate 1 0x2000 false = none ∧
    ({ asking rdChunk with streams := [(0, { chunk := .record })] } : State).Inv ∧
    (({ asking rdChunk with streams := [(0, { chunk := .record })] } : State).stream 0).chunk.asked = true ∧
    (∀ q ∈ [({ fetching := true, record := ofFn1 } : Queue), { fetching := true, stale := 1 }, { stale := 1 }], invB (descWaits q) = true ∧
      (descWaits q).queue 0 = q) ∧ ({ fetching := true, record := ofFn1 } : Queue).fn = 1 ∧ ({ fetching := true, stale := 1 } : Queue).fn ≠ 1 := by
  refine ⟨inv_of ?_, ?_, inv_of ?_, ?_, ready_inv, ready_serves, inv_of ?_, serving_of ?_, ?_, ?_, ?_, ?_, ?_, ?_, ?_, ?_, ?_, ?_, ?_, ?_, ?_, inv_of ?_, ?_, ?_, ?_, ?_⟩ <;>
    decide +kernel

/-- Invalidations with and without reads in flight that used the entry; reads in flight that time out, used or not. -/
theorem witness_FunctionsAndTranslations_flights : ready.power ≠ 3 ∧ ready.linkIsUp = false ∧ linkedVf.Inv ∧ linkedVf.linkIsUp = true ∧ linkedVf.power ≠ 3 ∧
    linkedVf.enabled 1 = true ∧ linkedVf.hp.invals = [] ∧ linkedVf.frozen = false ∧ linkedVf.hp.xcache = [entry1] ∧
    (∀ f ∈ linkedVf.hp.flying, ∀ e, f.entry = some e → e.fn = 1) ∧ linkedVf.hp.flying = [{ fn := 1, read := .chunk 0, entry := some entry1 }] ∧
    (entry1.fn ≠ 0 ∨ 0x1000 + 2 ^ 12 ≤ entry1.page / 2 ^ entry1.log2 * 2 ^ entry1.log2) ∧
    ready.takesConfig 0 = true ∧ frozenPort.takesConfig 1 = false ∧ (asking wr1).takesConfig 1 = true ∧
    (∀ w ∈ (asking wr1).hp.waits, w.out.fnOf = 1) ∧ (asking wr1).hp.flying.length + (asking wr1).hp.waits.length ≤ 512 ∧
    (waiting {} [{ out := wr1 }]).canIssue 1 = false ∧ ready.flight (.chunk 0) = none ∧
    (flown true { chunk := .record }).flight (.chunk 0) = some { fn := 0, read := .chunk 0 } ∧ (flown true { chunk := .record }).Inv ∧
    ((flown true { chunk := .record }).stream 0).chunk.asked = true ∧ (flown false {}).flight (.chunk 0) = some { fn := 0, read := .chunk 0, live := false } ∧
    (fetching true 0).flight (.desc 0) = some { fn := 0, read := .desc 0 } ∧ ((fetching true 0).queue 0).stale = 0 ∧
    staleRead.flight (.desc 0) = some { fn := 0, read := .desc 0 } ∧ (staleRead.queue 0).stale = 1 ∧
    (∀ n ∈ (ready.fn 0).dueIn, ready.strFn n = 0) ∧ (ready.modFn 0 fun f => { f with bme := true, d3hot := false }).canIssue 0 = true ∧
    (ready.modFn 0 fun f => { f with bme := true, d3hot := true }).canIssue 0 = false := by
  refine ⟨?_, ?_, inv_of ?_, ?_, ?_, ?_, ?_, ?_, ?_, ?_, ?_, ?_, ?_, ?_, ?_, ?_, ?_, ?_, ?_, ?_, inv_of ?_, ?_⟩
  case refine_10 => intro f hf e he; simp [linkedVf] at hf; subst hf; simp [entry1] at he; subst he; rfl
  all_goals decide +kernel

/-- A started device with its link up. -/
def linked : State := (started 0 {}).setReg hpBase 1
/-- The same with one read of stream 0 out, and frozen by a cause. -/
def linkedFrozen : State := { (started 0 {}).setReg hpBase (1 + 2 ^ 9 + 3 * 2 ^ 10) with hp := { fns := [(0, { bme := true })] } }

theorem witness_ContainmentAndResets : linked.Inv ∧ linked.linkIsUp = true ∧ linked.frozen = false ∧ linked.power ≠ 3 ∧ linked.stage = 11 ∧ linked.Serving 0 ∧
    (∀ n, (linked.stream n).chunk.asked = false) ∧
    (∃ f ∈ (flown true { chunk := .record }).hp.flying, f.read = .chunk 0 ∧ f.live = true) ∧ (∃ w ∈ (asking rdDesc).hp.waits, w.out.reads = some (.desc 0)) ∧
    (withVf linked).Inv ∧ (withVf linked).Serving 1 ∧ (∀ q, (linked.queue q).fetching = false ∧ (linked.queue q).stale = 0) ∧ linkedFrozen.Inv ∧ linkedFrozen.frozen = true ∧ linkedFrozen.linkIsUp = true ∧
    linkedFrozen.stage = 11 ∧ linkedFrozen.power ≠ 3 ∧ linkedFrozen.enabled 0 = true ∧ (linkedFrozen.fn 0).bme = true ∧ (linkedFrozen.fn 0).d3hot = false ∧
    frozenPort.Inv ∧ frozenPort.linkIsUp = false ∧ frozenPort.Reaches .kdp ∧ linkedFrozen.Reaches .kdp ∧
    frozenPort.dictGate .kdp 0x1200 0x06 true [1] = none ∧ linkedFrozen.dictGate .kdp 0x1200 0x06 true [1] = none ∧
    ready.Inv ∧ ready.linkIsUp = false ∧ ready.stage = 11 ∧ State.reset.Inv ∧ State.reset.stage < 11 ∧ ready.enabled 1 = false ∧
    (withFn 1 { vf := true }).Inv ∧ (withFn 1 { vf := true }).enabled 1 = true ∧ (withFn 1 { vf := true }).stage = 11 ∧ (withFn 1 { vf := true }).power ≠ 3 ∧
    (let s := { starting 6 true {} with pins := { ready.pins with perst := false } }
     s.Inv ∧ s.start.running = true ∧ s.start.halted = false ∧ s.power ≠ 3 ∧ s.stage ≠ 0 ∧ s.stage < 11 ∧ s.pins.perst = false ∧ s.tapOwns = false ∧
       1 ≤ s.entry 0x1200 0x08 ∧ (s.setReg hpBase 1).Inv ∧ (s.setReg hpBase 1).linkIsUp = true ∧ (s.setReg hpBase 1).stage < 11) ∧
    (let s := { started 3 { perstSeen := true } with pins := { ready.pins with perst := true, vin := true } }
     s.Inv ∧ s.pins.perst = true ∧ s.power = 3 ∧ s.tth.perstSeen = true ∧ s.pins.vin = true ∧ s.tth.tripOut = false) ∧
    (∀ k, 63 < k → k < 64 → (ready.fn k).vf = false) ∧ TapInstr.bypass ∈ [TapInstr.bypass, .idcode, .samplePreload] ∧
    TapInstr.highz ∉ [TapInstr.bypass, .idcode, .samplePreload] := by
  refine ⟨inv_of ?_, ?_, ?_, ?_, ?_, serving_of ?_, fun _ => rfl, ?_, ?_, inv_of ?_, serving_of ?_, fun _ => ⟨rfl, rfl⟩, inv_of ?_, ?_, ?_, ?_, ?_, ?_, ?_, ?_, inv_of ?_, ?_, ⟨?_, ?_, ?_⟩, ⟨?_, ?_, ?_⟩, ?_, ?_, ready_inv, ?_, ?_,
    inv_of ?_, ?_, ?_, inv_of ?_, ?_, ?_, ?_, ⟨inv_of ?_, ?_, ?_, ?_, ?_, ?_, ?_, ?_, ?_, inv_of ?_, ?_, ?_⟩, ⟨inv_of ?_, ?_⟩, fun k h h' => by omega, ?_, ?_⟩ <;> decide +kernel

/-! ### Witnesses: the field-network node -/

/-- A node in a mode with a transfer. -/
def node (mode : Nat) (x : Option Xfer) : State := { ready with node := { mode := mode, xfer := x } }
/-- A request of a header. -/
def frame (op : Nat) (toggle : Bool) (idx sub len : Nat) (data : List Byte := []) (bc : Bool := false) : KdpFrame :=
  ⟨bc, bytesLE 1 (op + if toggle then 16 else 0) ++ bytesLE 2 idx ++ bytesLE 1 sub ++ bytesLE 2 len ++ [0, 0] ++ data⟩
/-- A transfer of 60 bytes of the device name entry after its first 56. -/
def xfer (w : Bool) (last : Option (Bool × Nat)) : Xfer := ⟨w, 0x1000, 0x04, 60, List.replicate (if w then 56 else 60) 0, 56, true, last, []⟩

/-- A node that has closed a transfer and kept it, and perhaps waits for a commit. -/
def closed (p : Option Xfer) (h : Option (List Byte)) : State := { ready with node := { mode := 1, prev := p, waiting := h } }

/-- Each request well-formed and malformed; writes of 56 and 57 bytes; a segment expected, repeated, out of order, and of too few bytes. -/
theorem witness_NodeServesAndSpeaks : (node 1 none).Inv ∧ (node 1 none).tapOwns = false ∧ (node 1 none).netOn = true ∧ (node 1 none).node.listening = false ∧
    (node 4 none).Inv ∧ (node 4 none).node.mode = 4 ∧ ({ node 1 none with pins := { ready.pins with tap := .highz } } : State).tapOwns = true ∧
    ({ node 1 none with node := { mode := 1, listening := true } } : State).Inv ∧ (node 0 none).netOn = false ∧
    (frame 1 false 0x1000 5 0).ok 1 = true ∧ (frame 1 true 0x1000 5 0).ok 1 = false ∧ (frame 2 true 0x1000 4 56).ok 2 = true ∧
    (frame 3 false 0x1300 9 2 [0, 0]).ok 3 = true ∧ (frame 3 false 0x1300 9 56 (List.replicate 56 0)).ok 3 = true ∧
    (frame 3 false 0x1300 9 57 (List.replicate 56 0)).ok 3 = true ∧ (frame 3 false 0x1300 9 57 (List.replicate 56 0)).len = 57 ∧
    (frame 3 false 0x1300 9 56 (List.replicate 55 0)).ok 3 = false ∧ (frame 4 true 0x1000 4 56 [1, 2, 3, 4]).ok 4 = true ∧
    (frame 5 false 0 0 0).ok 5 = true ∧ (frame 6 false 0 0 0 [] true).ok 6 = true ∧ (frame 6 false 0 0 0).ok 6 = false ∧
    (∀ p, p = none ∨ p = some (xfer true (some (true, 56))) ∨ p = some (xfer false (some (true, 0))) →
      (closed p none).Inv ∧ (∀ x, (closed p none).node.prev = some x → x.repeats (frame 2 true 0x1000 4 56) false = false)) ∧
    (∀ h, h = none ∨ h = some [1] → (closed (some (xfer false (some (true, 56)))) h).Inv ∧
      (closed (some (xfer false (some (true, 56)))) h).node.prev = some (xfer false (some (true, 56))) ∧
      (xfer false (some (true, 56))).last = some ((frame 2 true 0x1000 4 56).toggle, (frame 2 true 0x1000 4 56).len)) ∧
    (node 1 (some (xfer false none))).Inv ∧ (node 1 (some (xfer false none))).kdpBusy = true ∧ (node 1 none).kdpBusy = false ∧
    (((node 1 none).countEntry 0x1100 0x10 1).dictGet .kdp 0x1300 2).2 = .ok [11] ∧
    (((node 1 none).countEntry 0x1100 0x10 1).dictGet .kdp 0x0FFF 0).2 = .error Code.DICT_NO_INDEX ∧
    (((node 1 none).countEntry 0x1100 0x10 1).dictPut .kdp 0x3000 0x05 [1, 0]).2 = some 0 ∧
    (((node 1 none).countEntry 0x1100 0x10 1).dictPut .kdp 0x1300 0x0A [1]).2 = none ∧
    ((xfer false none).idx = (frame 2 true 0x1000 4 56).index ∧ (xfer false none).sub = (frame 2 true 0x1000 4 56).sub ∧
      (frame 2 true 0x1000 4 56).toggle = (xfer false none).toggle ∧ (frame 2 true 0x1000 4 56).len = (xfer false none).done) ∧
    (xfer false none).last ≠ some (true, 56) ∧ (xfer false (some (true, 56))).last = some ((frame 2 true 0x1000 4 56).toggle, (frame 2 true 0x1000 4 56).len) ∧
    (frame 2 false 0x1000 4 56).toggle ≠ (xfer false none).toggle ∧ (frame 4 true 0x1000 4 56 [1]).data.length < 8 + min 56 (60 - 56) ∧
    8 + min 56 (60 - 56) ≤ (frame 4 true 0x1000 4 56 [1, 2, 3, 4]).data.length ∧ (xfer true none).len ≤ 56 + min 56 (60 - 56) ∧
    ({ node 1 none with log := [⟨1, 0, 0, 0, 0, 0⟩] } : State).Inv ∧ ({ node 1 none with log := [⟨1, 0, 0, 0, 0, 0⟩] } : State).node.announced < 1 ∧
    ((node 1 none).setEntry 0x1100 0x0A 1).entry 0x1100 0x0A ≠ 0 ∧ ((node 1 none).setEntry 0x1100 0x0B 1).entry 0x1100 0x0B ≠ 0 ∧
    ((node 1 none).setEntry 0x1100 0x0A 0).entry 0x1100 0x0A = 0 ∧ (node 1 none).node.mode = 1 ∧
    ((node 1 none).setEntry 0x1400 2 2).Inv ∧ ((node 1 none).setEntry 0x1400 2 2).netOn = true ∧ ((node 1 none).setEntry 0x1400 2 2).power = 2 ∧
    alwaysOn 0x2000 = false ∧ alwaysOn 0x1300 = true ∧ (frame 6 true 0 0 0 [] true).ok 6 = true ∧ (frame 1 false 0x2000 3 0).index = 0x2000 := by
  refine ⟨inv_of ?_, ?_, ?_, ?_, inv_of ?_, ?_, ?_, inv_of ?_, ?_, ?_, ?_, ?_, ?_, ?_, ?_, ?_, ?_, ?_, ?_, ?_, ?_, ?pre, ?rep, inv_of ?_, ?_, ?_, ?_, ?_, ?_, ?_, ?_, ?_, ?_, ?_, ?_, ?_, ?_,
    inv_of ?_, ?_, ?_, ?_, ?_, ?_, inv_of ?_, ?_⟩
  case pre => rintro p (rfl | rfl | rfl) <;> exact ⟨inv_of (by decide +kernel), by decide +kernel⟩
  case rep => rintro h (rfl | rfl) <;> exact ⟨inv_of (by decide +kernel), by decide +kernel⟩
  all_goals decide +kernel

/-! ### Well-formedness -/

theorem test_illformed_register_write : WellFormed (.registerWrite 0 0 0 0 0) = false ∧ WellFormed (.registerWrite 0 0 9 0 0) = false ∧
    WellFormed (.registerWrite 0 0 8 0 0) = true := by decide
theorem test_illformed_cache_read : WellFormed (.cacheRead .common 127 2) = false ∧ WellFormed (.cacheRead .common 0 0) = false ∧
    WellFormed (.cacheRead .common 127 1) = true := by decide
theorem test_illformed_cache_write : WellFormed (.cacheWrite .common 127 [0, 0]) = false ∧ WellFormed (.cacheWrite .common 127 [0]) = true := by decide
theorem test_illformed_splice_write : WellFormed (.spliceWrite 0 []) = false ∧ WellFormed (.spliceWrite 127 [0]) = true := by decide
theorem test_illformed_cache_atomic : WellFormed (.cacheAtomic 4 1) = false ∧ WellFormed (.cacheAtomic 8 1) = true := by decide

/-! ### Worked examples of spec/ -/

/-- 02, example after R61: H16 0x3555 converts to B16 0x3EAA. -/
theorem test_h16_to_b16 : (convert .b16 (decodeElem .h16 0x3555)).1 = 0x3EAA := by decide +kernel

/-- 02, the block example: 10.0, -3.3 and 0.7 in BQ4 and BQ8. -/
theorem test_block_example : encodeBlock .bq4 ([0x41200000, 0xC0533333, 0x3F333333].map ofF32) = (0x80, [0x6, 0xB, 0x0], 0) ∧
    encodeBlock .bq8 ([0x41200000, 0xC0533333, 0x3F333333].map ofF32) = (0x82, [0x50, 0xE6, 0x05], 0) := by decide +kernel

/-- 11, example of R385: address 0x18_0012_3456 of herd 2 with PC_MASK 0xF000. -/
theorem test_address_map : (ready.setEntry 0x3500 0x12 0xF000).mapAddr 0x1800123456 = (15, 0xC048C56) := by decide +kernel

/-- 12, example of R422: words 1 and 2 of a page are rebuilt. -/
theorem test_page_rebuild : ({ syn := [(1, 0x0F), (2, 0x0F)], chk := [(0, { p := 0x99, q := 0xC1 })] } : Mem).rebuild 0 =
    some [(1, 0x5A), (2, 0xC3)] := by decide +kernel

/-- 12, example of R434: two flipped data bits with the syndrome 0x0C read uncorrectable. -/
theorem test_flip_syndrome : decodeWord 3 (checkByte 3) = .ue ∧ checkByte 3 = 0x0C := by decide +kernel

/-- 18, example of R601: the word 0xC000_0000 gives UNIFORM 0.75. -/
theorem test_uniform : genCode 1 0 0xC0000000 = 0x3F400000 := by decide +kernel

/-- 08, example of R246: FB_BYTES of the default ceilings with four references. -/
theorem test_frame_buffer : ready.fbBytes 0 = 3472896 ∧ firstPool 3472896 = 5 := by decide +kernel

/-- 14, example of R472: of contexts 3, 17, 20 and 21 with weights 400, 100, 50 and 50 the slow loop sheds 21 first, then 20. -/
theorem test_shed_order : (let s := [(3, 400), (17, 100), (20, 50), (21, 50)].foldl (fun (s : State) x =>
      ((s.setEntry (0x3000 + x.1) 2 2).setEntry (0x3000 + x.1) 5 x.2).setQueue x.1 { bound := true, record := List.replicate 0x10 0 ++ bytesLE 2 x.1 }) ready
    s.shedNext.shedNext.sch.shed) = [21, 20] := by decide +kernel

/-- 10, example of R352: a step of 30,000 cycles of a context of weight 3 adds 655,360,000 to its VT. -/
theorem test_virtual_time : ((ready.setEntry 0x3005 5 3).charge 5 30000).ctx 5 0x1E = 655360000 := by decide +kernel

/-- 16, example of R549: a READ of 16,448 bytes on node 12 is answered on 0x28C with LENGTH 16,448. -/
theorem test_kdp_length : (respHead 1 false 0x2005 0x30 0 16448 : List Byte) = [0x81, 0x05, 0x20, 0x30, 0, 0, 0x40, 0x40] := by decide

/-- R542, R549: the response leaves on 0x280 + N with BRS and delay compensation of a data rate of 2 Mbit/s, and the node counts it. -/
theorem test_kdp_read : (match exec (.kdpRead (frame 1 false 0x1300 2 0)) ({ node 1 none with node := { mode := 1, timing := [500, 2000, 800, 750] } }.setEntry 0x1100 1 12) with
    | .next t => (t.out, t.entry 0x1100 0x11)
    | _ => ([], 0)) = ([.can 0x28C true true [0x81, 0x00, 0x13, 0x02, 0, 0, 1, 0, 11, 0, 0, 0]], 1) := by decide +kernel

/-! ### Single commands -/

/-- R369: SCH_HSIG raises a count; with N 0 it is refused. -/
theorem test_hsig : (match exec (.schHsigWrite 0 0x00030005) ready with | .next t => ((t.hitch 5).count, t.log.length) | _ => (0, 0)) = (3, 0) ∧
    (match exec (.schHsigWrite 0 5) ready with | .next t => ((t.hitch 5).count, t.log.head?.map (·.code)) | _ => (0, none)) =
      (0, some Code.SCH_HITCH_FIELD) := by decide +kernel

/-- R406: CACHE_ATOMIC adds modulo 2^64. -/
theorem test_atomic_wraps : (match exec (.cacheAtomic 8 2) (ready.memPut 8 (List.replicate 8 0xFF)) with | .next t => t.memNat 8 8 | _ => none) = some 1 := by
  decide +kernel

/-- R340: a doorbell of an unbound queue counts as refused. -/
theorem test_doorbell_unbound : (match exec (.doorbellWrite 0 7 1) ready with
    | .next t => (t.entry 0x3400 0x15, t.log.head?.map (·.code))
    | _ => (0, none)) = (1, some Code.SCH_DB_UNBOUND) := by decide +kernel

/-- R478: a READY device in which nothing runs enters Idle; a step of the queue's first command, on an empty queue none (log entries 1, 3). -/
theorem test_idle_step : (match step { ready with pending := [.idleEntry] } with | .next t => (t.power, t.pending) | _ => (0, [])) = (1, []) := by
  decide +kernel

/-- R468: a droop steps the point down by one and starts the hold. -/
theorem test_droop : (match exec (.droopFire 0) ready with | .next t => (t.op, t.tth.hold) | _ => (0, false)) = (8, true) := by decide +kernel

/-- R622: termination is a level of the pin. -/
theorem test_termination : (match exec (.canTermChange true) ready with | .next t => t.pins.term | _ => false) = true := by decide +kernel

theorem witness_WordCodeCorrects : (2 ^ 64 - 1 : Nat) < 2 ^ 64 ∧ (0 : Nat) < 72 ∧ (70 : Nat) < 71 ∧ (71 : Nat) < 72 := by decide

end Sys2Proof.Tests
end

section
/-! PROOF. Every command answers a next state: the shapes in which an outcome is built, the paths that many commands share, the commands
that look something up, and the exhaustive case split over `Instr`. -/

namespace Sys2Proof.Machine

/-- An outcome that is a next state, neither a fault nor a refusal. -/
def Answers (o : Host.Outcome State Fault Refusal) : Prop := ∃ t, o = .next t

theorem Answers.go (s : State) : Answers (go s) := ⟨s, rfl⟩

theorem Answers.ite {c : Prop} [Decidable c] {a b : Host.Outcome State Fault Refusal} (ha : Answers a) (hb : Answers b) :
    Answers (if c then a else b) := by
  split
  · exact ha
  · exact hb

/-- One test, and the state after it on either side. -/
theorem Answers.guard {c : Prop} [Decidable c] (s t : State) : Answers (if c then Machine.go s else Machine.go t) := .ite (.go s) (.go t)

/-! ### The paths that commands share -/

section paths
variable (s : State)

theorem State.hostAct_answers (k n : Nat) (f : State → State) : Answers (s.hostAct k n f) := .guard _ _

theorem State.hostDict_answers (k n : Nat) (f : State → State) : Answers (s.hostDict k n f) := .ite (.go _) (s.hostAct_answers ..)

theorem State.hostRead_answers (k len : Nat) (f : State → State) : Answers (s.hostRead k len f) :=
  .ite (.go _) (.ite (.go _) (.ite (.go _) (s.hostAct_answers ..)))

theorem State.viaPath_answers (o : Origin) (idx sub : Nat) (write : Bool) (v : List Byte) (f : State → State × W16) :
    Answers (s.viaPath o idx sub write v f) := by
  cases o with
  | kdp => exact .guard _ _
  | fn k => exact s.hostDict_answers ..

theorem State.dictCmd_answers (o : Origin) (idx sub : Nat) (v : List Byte) (f : State → Except W16 State) :
    Answers (s.dictCmd o idx sub v f) := s.viaPath_answers ..

theorem State.putVia_answers (o : Origin) (idx sub : Nat) (v : List Byte) : Answers (s.putVia o idx sub v) := by
  cases o with
  | kdp => exact .go _
  | fn k => exact s.hostDict_answers ..

theorem State.kdpServe_answers (op : Nat) (f : KdpFrame) (act : State → State) : Answers (s.kdpServe op f act) :=
  .ite (.go _) (.ite (.go _) (.ite (.go _) (.guard _ _)))

theorem State.runUnit_answers (n op : Nat) (stop : Option Nat) (mine : State → Loaded → List Span)
    (f : Loaded → Rank → State → State × Option W16) : Answers (s.runUnit n op stop mine f) := by
  unfold State.runUnit
  split
  · exact .go _
  · refine .ite (.go _) ?_
    extract_lets
    split
    · exact .go _
    · extract_lets
      split <;> exact .go _

end paths

variable {s : State}

/-! ### Memory and buffers -/

theorem execCacheRead_answers {r : Requester} {addr len : Nat} : Answers (execCacheRead r addr len s) := by
  unfold execCacheRead
  extract_lets
  refine .ite (.go _) ?_
  split
  · exact .go _
  · extract_lets
    split <;> exact .go _

theorem execSelfRefreshEntry_answers {p : PcId} : Answers (execSelfRefreshEntry p s) := by
  unfold execSelfRefreshEntry
  split
  · exact .go _
  · exact .go _
  · exact .guard _ _

theorem execPowerDownEntry_answers {p : PcId} : Answers (execPowerDownEntry p s) := by
  unfold execPowerDownEntry
  split
  · exact .guard _ _
  · exact .go _

theorem execScrubPage_answers : Answers (execScrubPage s) := by
  unfold execScrubPage
  refine .ite (.go _) ?_
  extract_lets
  split
  · exact .go _
  · dsimp only
    split
    · refine .ite (.go _) ?_
      split <;> exact .go _
    · exact .go _

theorem execSramScrub_answers {site : SramSite} {d : W64} {c : Byte} : Answers (execSramScrub site d c s) := by
  unfold execSramScrub
  extract_lets
  cases site with
  | scratchpad | accumulator =>
    dsimp -zeta only
    extract_lets
    refine .ite (.go _) ?_
    split <;> exact .go _
  | cacheData =>
    dsimp -zeta only
    split
    · exact .go _
    · refine .ite (.go _) ?_
      split
      · exact .go _
      · exact .guard _ _
  | splice =>
    dsimp -zeta only
    extract_lets
    split
    · exact .go _
    · refine .ite (.go _) ?_
      split <;> exact .go _
  | spliceMask =>
    dsimp -zeta only
    split
    · exact .go _
    · exact .ite (.go _) (.guard _ _)
  | cacheTag | spliceTag =>
    dsimp -zeta only
    split <;> exact .go _
  | oryx => exact .ite (.go _) (.ite (.go _) (.guard _ _))

theorem execCoilRequest_answers {owner : BitVec 12} {bytes waitUs : Nat} : Answers (execCoilRequest owner bytes waitUs s) := by
  unfold execCoilRequest
  refine .ite (.go _) (.ite (.go _) ?_)
  extract_lets
  split
  · exact .go _
  · exact .guard _ _

/-! ### Slots and preprocessing -/

theorem execSlotTakePicture_answers {q : QueueId} {slot : Fin 64} : Answers (execSlotTakePicture q slot s) := by
  unfold execSlotTakePicture
  split
  · exact .go _
  · refine .ite (.go _) ?_
    split
    · exact .go _
    · split
      · exact .go _
      · exact .guard _ _

theorem execWorkItemStart_answers {e : Fin 4} : Answers (execWorkItemStart e s) := by
  unfold execWorkItemStart
  refine .ite (.go _) ?_
  split
  · exact .go _
  · split
    · exact .go _
    · extract_lets _ latched _ read
      clear_value latched read
      split
      · exact .guard _ _
      · exact .go _

theorem execWorkItemDone_answers {e : Fin 4} {cycles : Nat} : Answers (execWorkItemDone e cycles s) := by
  unfold execWorkItemDone
  split
  · exact .go _
  · extract_lets
    split
    · exact .go _
    · extract_lets
      split
      · exact .go _
      · exact .guard _ _

/-! ### Braid and walker -/

theorem execKnotIssue_answers {n : IbexId} {q : Quarter} {held : Nat} : Answers (execKnotIssue n q held s) := by
  unfold execKnotIssue
  split
  · exact .go _
  · exact .ite (.go _) (.guard _ _)

theorem execOutputTile_answers {n : IbexId} : Answers (execOutputTile n s) := by
  unfold execOutputTile
  split
  · exact .go _
  · split
    · exact .go _
    · split <;> exact .go _

theorem execSclWatchdog_answers {n : IbexId} : Answers (execSclWatchdog n s) := by
  unfold execSclWatchdog
  cases s.curOf n.val 0x60 with
  | some => exact .guard _ _
  | none =>
    cases s.curOf n.val 0x61 with
    | some => exact .guard _ _
    | none => exact .go _

theorem execLayerDecision_answers {q : QueueId} : Answers (execLayerDecision q s) := by
  unfold execLayerDecision
  split
  · exact .go _
  · split
    · exact .go _
    · exact .guard _ _

theorem execEndStep_answers {n : IbexId} {cycles : Nat} : Answers (execEndStep n cycles s) := by
  unfold execEndStep
  split
  · exact .go _
  · refine .ite (.go _) ?_
    extract_lets
    split
    · exact .go _
    · exact .guard _ _

/-! ### Queues -/

theorem execGenFillDone_answers {q : QueueId} : Answers (execGenFillDone q s) := by
  unfold execGenFillDone
  split
  · exact .go _
  · split
    · exact .go _
    · refine .ite (.go _) ?_
      split <;> exact .go _

theorem execDescArrival_answers {q : QueueId} {d : Fetched} {nowUs : Nat} : Answers (execDescArrival q d nowUs s) := by
  unfold execDescArrival
  refine .ite (.go _) ?_
  split
  · exact .go _
  · cases d with
    | failed => exact .go _
    | bytes =>
      dsimp only
      split <;> exact .go _

theorem execPeriodOpen_answers {src : PeriodSource} {nowUs : Nat} : Answers (execPeriodOpen src nowUs s) := by
  unfold execPeriodOpen
  cases src with
  | timer => exact .ite (.go _) (.ite (.go _) (.guard _ _))
  | picture =>
    dsimp only
    split <;> exact .go _
  | queue => exact .guard _ _

/-! ### Video -/

theorem execChunkFetch_answers {n : StreamId} : Answers (execChunkFetch n s) := by
  unfold execChunkFetch
  extract_lets
  split
  · exact .guard _ _
  · exact .go _
  · exact .go _

theorem execChunkArrival_answers {n : StreamId} {got : Fetched} : Answers (execChunkArrival n got s) := by
  unfold execChunkArrival
  split
  · exact .go _
  · extract_lets
    refine .ite (.go _) ?_
    split <;> exact .go _

theorem execEntropySelect_answers {e : Fin 4} {aus : List (StreamId × AuSyntax)} : Answers (execEntropySelect e aus s) := by
  unfold execEntropySelect
  refine .ite (.go _) ?_
  extract_lets _ _ best
  clear_value best
  split
  · exact .go _
  · split <;> exact .go _

theorem execCreditTick_answers {n : StreamId} : Answers (execCreditTick n s) := by
  unfold execCreditTick
  refine .ite (.go _) ?_
  extract_lets
  split <;> exact .go _

theorem execPixelUnitStart_answers {p : Fin 16} : Answers (execPixelUnitStart p s) := by
  unfold execPixelUnitStart
  refine .ite (.go _) ?_
  extract_lets
  split
  · exact .go _
  · split <;> exact .go _

theorem execPixelUnitDone_answers {p : Fin 16} {r : UnitResult} : Answers (execPixelUnitDone p r s) := by
  unfold execPixelUnitDone
  split
  · exact .go _
  · extract_lets
    split
    · exact .go _
    · exact .guard _ _

theorem execVidEngineTo_answers {e : VidEngine} : Answers (execVidEngineTo e s) := by
  unfold execVidEngineTo
  cases e with
  | entropy =>
    dsimp only
    split
    · exact .go _
    · refine .ite (.go _) ?_
      split <;> exact .go _
  | pixel =>
    dsimp only
    split
    · exact .go _
    · split <;> exact .go _

/-! ### Power and start -/

theorem execVoltageSlewDone_answers : Answers (execVoltageSlewDone s) := by
  unfold execVoltageSlewDone
  refine .ite (.go _) ?_
  extract_lets
  split
  · exact .guard _ _
  · exact .go _

theorem execNapStageDone_answers : Answers (execNapStageDone s) := by
  unfold execNapStageDone
  split
  · exact .ite (.go _) (.guard _ _)
  · exact .ite (.go _) (.guard _ _)
  · exact .guard _ _
  · exact .guard _ _
  · exact .go _

theorem execStartStageDone_answers {r : StageResult} : Answers (execStartStageDone r s) := by
  unfold execStartStageDone
  refine .ite (.go _) ?_
  extract_lets
  split
  -- stages 0, 5 and 8 test their result, the others go on
  case h_1 | h_6 | h_9 => exact .guard _ _
  all_goals exact .go _

/-! ### Host port, dictionary and network -/

theorem execAtsTranslation_answers {fn : Fn} {x : Xlate} : Answers (execAtsTranslation fn x s) := by
  unfold execAtsTranslation
  extract_lets
  split
  · exact .go _
  · cases x with
    | refused => exact .go _
    | granted => exact .guard _ _

theorem execRelease_answers {o : Origin} : Answers (execRelease o s) := by
  unfold execRelease
  cases o with
  | kdp => exact s.dictCmd_answers ..
  | fn =>
    refine .ite (.go _) ?_
    split <;> exact .go _

theorem execDictRead_answers {o : Origin} {index : BitVec 16} {sub : BitVec 8} : Answers (execDictRead o index sub s) := by
  cases o with
  | kdp => exact .go _
  | fn => exact s.hostDict_answers ..

theorem execCommitDone_answers {ok : Bool} : Answers (execCommitDone ok s) := by
  unfold execCommitDone
  split
  · exact .go _
  · extract_lets
    split <;> exact .go _

/-! ### Every command -/

/-- The case split over the commands. They are grouped by the path they take to their answer. -/
theorem exec_answers (c : Instr) (s : State) : Answers (exec c s) := by
  cases c with dsimp only [exec]
  -- the host's access of a register, which a port that does not serve discards
  | brdCfgWrite | wlkCfgWrite | gzCfgWrite | schHsigWrite | schHitchWrite | gzInTailWrite | bind | unbind | queueRead | doorbellWrite
  | detGenWrite | flipArm | alloc | free | reserve | query | dpWindowWrite | dpStreamWrite | crConfigWrite | crHeadWrite | hpFnWrite
  | freeze => exact s.hostAct_answers ..
  | dpWindowRead | dpStreamRead => exact s.hostRead_answers ..
  -- a command entry of the dictionary
  | contextEnable | contextDisable | clearFault | streamOpen | streamClose | streamReset | run | nap | standby | wake | warm | confirm
  | advance | updBegin | updChunk | updEnd | updActivate | updAbort | extend | attReq => exact s.dictCmd_answers ..
  | dictWrite | restore | clear | snap | apply => exact s.putVia_answers ..
  | kdpRead | readSeg | kdpWrite | writeSeg | abort | discover => exact s.kdpServe_answers ..
  -- an instruction that a unit of the cluster runs
  | nop | wpool | wresample | wregroup | ssort | hist | vseq | vred | vmove | vopt | track | emit => exact s.runUnit_answers ..
  -- no test before the answer
  | instructionLoad | mm | wconv | regionFault | clusterReset | walkFetchTo | walkMemUe | hwait | hsignal | hacquire | hrelease
  | memTagUe | energyTick | ledgerTick | wakeEvent | linkL1Exit | auxSwitch | powerLoss | claimListenEnd | canTermChange | linkDown
  | flrDone | testLogicReset => exact .go _
  -- one test
  | rampDown | rampGroupStep | cacheWrite | spliceWrite | stackTempRead | coilZeroDone | bufferRelease | fillClose | contextReady
  | contextDisabled | streamResetDone | streamCloseDone | auTimeout | powerSample | slowLoopTick | droopHoldEnd | thermtripRelease
  | idleEntry | napEntry | napExitDone | vin12OutOfRange | vin12Overcurrent | vin12Return | coldStart | startTimeout | oryxWatchdog
  | oryxUe | confirmTimer | attSignDone | devicePkDerived | heartbeat | kdpDupId | canBusError | busOff | busOffRecovery | badFrame
  | coalTimer | msixUnmask | atsInvalidate | atsEnableClear | bmeClear | bmeSet | d3hotEntry | d0Return | vfEnableChange | linkUp
  | hpInternalError | fatalTlp | perstDeassert | tapInstruction | snapDone => exact .guard _ _
  -- two tests
  | cmdParityError | pageRebuild | descFetch | droopFire | thermalTrip | updProgramDone | flr | perst | hotReset =>
    exact .ite (.go _) (.guard _ _)
  -- one value looked up
  | cacheAtomic | cacheFill | refresh | spliceHoldExpiry | cplTimeout =>
    dsimp only [execCacheAtomic, execCacheFill, execRefresh, execSpliceHoldExpiry, execCplTimeout]
    split <;> exact .go _
  -- one value looked up, then one test
  | shadowLoad | brdKnotHold | layer | syncRelease | walkerPreempt | hitchTimeout | passLimitExpiry | slotVoid | syntaxStallResume
  | syntaxComplete | errorEvent | kdpTimeout =>
    dsimp only [execShadowLoad, execBrdKnotHold, execLayer, execSyncRelease, execWalkerPreempt, execHitchTimeout, execPassLimitExpiry,
      execSlotVoid, execSyntaxStallResume, execSyntaxComplete, execErrorEvent, execKdpTimeout]
    split
    · exact .go _
    · exact .guard _ _
  -- one value looked up, one test, then another value
  | coilTimeout | saveDone | restoreDone =>
    dsimp only [execCoilTimeout, execSaveDone, execRestoreDone]
    split
    · exact .go _
    · refine .ite (.go _) ?_
      split <;> exact .go _
  | tempSample => exact .ite (.go _) (.ite (.go _) (.ite (.go _) (.ite (.go _) (.guard _ _))))
  | registerWrite => exact .ite (.go _) (.ite (s.hostDict_answers ..) (s.hostAct_answers ..))
  -- a case analysis of its own
  | cacheRead => exact execCacheRead_answers
  | selfRefreshEntry => exact execSelfRefreshEntry_answers
  | powerDownEntry => exact execPowerDownEntry_answers
  | scrubPage => exact execScrubPage_answers
  | sramScrub => exact execSramScrub_answers
  | coilRequest => exact execCoilRequest_answers
  | slotTakePicture => exact execSlotTakePicture_answers
  | workItemStart => exact execWorkItemStart_answers
  | workItemDone => exact execWorkItemDone_answers
  | knotIssue => exact execKnotIssue_answers
  | outputTile => exact execOutputTile_answers
  | sclWatchdog => exact execSclWatchdog_answers
  | layerDecision => exact execLayerDecision_answers
  | endStep => exact execEndStep_answers
  | genFillDone => exact execGenFillDone_answers
  | descArrival => exact execDescArrival_answers
  | periodOpen => exact execPeriodOpen_answers
  | chunkFetch => exact execChunkFetch_answers
  | chunkArrival => exact execChunkArrival_answers
  | entropySelect => exact execEntropySelect_answers
  | creditTick => exact execCreditTick_answers
  | pixelUnitStart => exact execPixelUnitStart_answers
  | pixelUnitDone => exact execPixelUnitDone_answers
  | vidEngineTo => exact execVidEngineTo_answers
  | voltageSlewDone => exact execVoltageSlewDone_answers
  | napStageDone => exact execNapStageDone_answers
  | startStageDone => exact execStartStageDone_answers
  | atsTranslation => exact execAtsTranslation_answers
  | release => exact execRelease_answers
  | dictRead => exact execDictRead_answers
  | commitDone => exact execCommitDone_answers

/-- Settles O5, by the case split over the commands: each path ends in a next state. -/
theorem everyCommandAnswers : Obligations.EveryCommandAnswers := by
  unfold Obligations.EveryCommandAnswers
  exact exec_answers

end Sys2Proof.Machine
end

section
/-! PROOF. Exact values as the rationals that they stand for: comparison, alignment and the floor of a magnitude. -/

namespace Sys2Proof.Machine

/-- The rational that a finite value stands for; a special value has none, and reads as 0 here. -/
def Val.rat : Val → ℚ
  | .fin neg m e => signedMag neg m * 2 ^ e
  | _ => 0

theorem Val.rat_fin (neg : Bool) (m : Nat) (e : Int) : (Val.fin neg m e).rat = signedMag neg m * 2 ^ e := rfl

theorem Val.rat_pos (m : Nat) (e : Int) : (Val.fin false m e).rat = m * 2 ^ e := by simp [Val.rat, signedMag]

theorem signedMag_ofInt (i : Int) : signedMag (decide (i < 0)) i.natAbs = i := by
  unfold signedMag
  split
  · next h => have := of_decide_eq_true h; omega
  · next h => have := mt decide_eq_true h; omega

@[simp] theorem Val.rat_ofInt (i : Int) : (Val.ofInt i).rat = i := by
  rw [Val.ofInt, Val.rat_fin, signedMag_ofInt, zpow_zero, mul_one]

/-- Alignment to a lower exponent keeps the value. -/
theorem signedMag_alignMag (neg : Bool) (m : Nat) {e d : Int} (h : d ≤ e) :
    (signedMag neg (alignMag m e d) : ℚ) * 2 ^ d = signedMag neg m * 2 ^ e := by
  have key : (2 : ℚ) ^ (e - d).toNat * 2 ^ d = 2 ^ e := by
    rw [← zpow_natCast, Int.toNat_of_nonneg (by omega), ← zpow_add₀ two_ne_zero, Int.sub_add_cancel]
  cases neg <;> simp [signedMag, alignMag, mul_assoc, key]

/-- The comparison of the model is that of the rationals. -/
theorem cmpFin_eq_cmp (an : Bool) (am : Nat) (ae : Int) (bn : Bool) (bm : Nat) (be : Int) :
    cmpFin an am ae bn bm be = cmp (Val.fin an am ae).rat (Val.fin bn bm be).rat := by
  rw [Val.rat_fin, Val.rat_fin, ← signedMag_alignMag an am (min_le_left ae be), ← signedMag_alignMag bn bm (min_le_right ae be),
    cmp_mul_pos_right (zpow_pos two_pos _), Int.cast_strictMono.cmp_map_eq, cmp_eq_compare]
  rfl

theorem Val.lt_fin {an am ae bn bm be} : Val.lt (.fin an am ae) (.fin bn bm be) = true ↔ (Val.fin an am ae).rat < (Val.fin bn bm be).rat := by
  simp [Val.lt, Val.cmp, cmpFin_eq_cmp]

theorem Val.le_fin {an am ae bn bm be} : Val.le (.fin an am ae) (.fin bn bm be) = true ↔ (Val.fin an am ae).rat ≤ (Val.fin bn bm be).rat := by
  simp [Val.le, Val.cmp, cmpFin_eq_cmp, le_iff_lt_or_eq]

theorem Val.lt_ofInt {n m e} {i : Int} : Val.lt (.fin n m e) (.ofInt i) = true ↔ (Val.fin n m e).rat < i := by
  rw [← Val.rat_ofInt i]; exact Val.lt_fin

theorem Val.ofInt_lt {n m e} {i : Int} : Val.lt (.ofInt i) (.fin n m e) = true ↔ (i : ℚ) < (Val.fin n m e).rat := by
  rw [← Val.rat_ofInt i]; exact Val.lt_fin

/-- The floor of the model is that of the rationals. -/
theorem floorMag_eq_floor (m : Nat) (e : Int) : floorMag m e = ⌊(m : ℚ) * 2 ^ e⌋₊ := by
  unfold floorMag
  split
  · next h =>
    lift e to ℕ using h
    rw [Int.toNat_natCast, zpow_natCast]
    exact_mod_cast (Nat.floor_natCast (R := ℚ) (m * 2 ^ e)).symm
  · next h =>
    obtain ⟨k, rfl⟩ : ∃ k : ℕ, e = -k := ⟨(-e).toNat, by omega⟩
    rw [neg_neg, Int.toNat_natCast, zpow_neg, zpow_natCast, ← div_eq_mul_inv]
    exact_mod_cast (Nat.floor_div_eq_div (K := ℚ) m (2 ^ k)).symm

theorem floorMag_le_self (m : Nat) (e : Int) : (floorMag m e : ℚ) ≤ m * 2 ^ e := by
  rw [floorMag_eq_floor]; exact Nat.floor_le (by positivity)

theorem lt_floorMag_add_one (m : Nat) (e : Int) : (m : ℚ) * 2 ^ e < floorMag m e + 1 := by
  rw [floorMag_eq_floor]; exact Nat.lt_floor_add_one _

/-- What bounds a magnitude bounds its floor. -/
theorem floorMag_le {m : Nat} {e k : Int} (h : (m : ℚ) * 2 ^ e ≤ k) : (floorMag m e : Int) ≤ k := by
  exact_mod_cast (floorMag_le_self m e).trans h

end Sys2Proof.Machine
end

section
/-! PROOF. Integer formats: what their codes read as, the conversion to them, and sums in S32 (R46, R57, R60). -/

namespace Sys2Proof.Machine

/-- A code of w bits reads as the two's-complement integer of its width (R46). -/
theorem sext_code {w c : Nat} (hc : c < 2 ^ w) : sext w c = if c < 2 ^ (w - 1) then (c : Int) else (c : Int) - 2 ^ w := by
  simp only [sext, Nat.mod_eq_of_lt hc, Nat.cast_pow, Nat.cast_ofNat]

theorem sext_mem {w c : Nat} (hw : 0 < w) (hc : c < 2 ^ w) : -(2 ^ (w - 1) : Nat) ≤ sext w c ∧ sext w c < (2 ^ (w - 1) : Nat) := by
  have hp : 2 ^ w = 2 * 2 ^ (w - 1) := (mul_pow_sub_one hw.ne' 2).symm
  simp only [sext, Nat.mod_eq_of_lt hc]
  split <;> omega

/-- A two's-complement code reads back as the integer that it was written for (R46). -/
theorem sext_wrap {w : Nat} (hw : 0 < w) {i : Int} (hlo : -(2 ^ (w - 1) : Nat) ≤ i) (hhi : i < (2 ^ (w - 1) : Nat)) :
    sext w (wrap w i) = i := by
  have hp : 2 ^ w = 2 * 2 ^ (w - 1) := (mul_pow_sub_one hw.ne' 2).symm
  have hc : wrap w i = if 0 ≤ i then i.toNat else (i + (2 ^ w : Nat)).toNat := by
    unfold wrap
    split
    · rw [Int.emod_eq_of_lt] <;> omega
    · rw [← Int.add_emod_right, Int.emod_eq_of_lt] <;> omega
  have hlt : wrap w i < 2 ^ w := by rw [hc]; split <;> omega
  simp only [sext, Nat.mod_eq_of_lt hlt]
  rw [hc]
  split <;> split <;> omega

theorem Fmt.intRange_zero (f : Fmt) : f.intRange.1 ≤ 0 ∧ 0 ≤ f.intRange.2 := by cases f <;> decide

theorem decodeElem_signed {f : Fmt} (hf : f ∈ [Fmt.s4, .s8, .s16, .s32]) (c : Nat) : decodeElem f c = Val.ofInt (sext f.bits c) := by
  fin_cases hf <;> rfl

/-- The range of a signed format is that of its width (Table 2.2). -/
theorem Fmt.intRange_signed {f : Fmt} (hf : f ∈ [Fmt.s4, .s8, .s16, .s32]) :
    0 < f.bits ∧ f.intRange = ((-(2 ^ (f.bits - 1) : Nat) : Int), ((2 ^ (f.bits - 1) : Nat) : Int) - 1) := by
  fin_cases hf <;> decide

theorem decodeElem_u8 {c : Nat} (hc : c < 256) : decodeElem .u8 c = Val.ofInt c := by
  simp only [decodeElem, Fmt.isInt, if_true, Nat.mod_eq_of_lt hc]

theorem Fmt.isInt_iff {f : Fmt} : f.isInt = true ↔ f ∈ [Fmt.s4, .s8, .s16, .s32] ∨ f = .u8 := by cases f <;> decide

theorem decodeElem_int_not_special {f : Fmt} (hf : f.isInt = true) (c : Nat) : (decodeElem f c).isSpecial = false := by
  rw [decodeElem, if_pos hf]
  split <;> rfl

/-- A code of an integer format reads as an integer of its range (Table 2.2). -/
theorem decodeElem_int_mem {f : Fmt} (hf : f.isInt = true) {c : Nat} (hc : c < 2 ^ f.bits) :
    ∃ i : Int, decodeElem f c = Val.ofInt i ∧ f.intRange.1 ≤ i ∧ i ≤ f.intRange.2 := by
  rcases Fmt.isInt_iff.1 hf with hs | rfl
  · obtain ⟨hw, hr⟩ := Fmt.intRange_signed hs
    obtain ⟨hlo, hhi⟩ := sext_mem hw hc
    rw [hr]
    exact ⟨_, decodeElem_signed hs c, hlo, Int.le_sub_one_of_lt hhi⟩
  · exact ⟨c, decodeElem_u8 hc, by simp [Fmt.intRange], Int.le_of_lt_add_one (b := 255) (by exact_mod_cast hc)⟩

/-- The code of an integer in range reads back as that integer. -/
theorem decodeElem_wrap {f : Fmt} (hf : f.isInt = true) {i : Int} (hlo : f.intRange.1 ≤ i) (hhi : i ≤ f.intRange.2) :
    decodeElem f (wrap f.bits i) = Val.ofInt i := by
  rcases Fmt.isInt_iff.1 hf with hs | rfl
  · obtain ⟨hw, hr⟩ := Fmt.intRange_signed hs
    rw [hr] at hlo hhi
    rw [decodeElem_signed hs, sext_wrap hw hlo (Int.lt_of_le_sub_one hhi)]
  · have hc : (wrap 8 i : Int) = i := by
      simp only [wrap, Fmt.intRange] at *
      omega
    rw [show Fmt.u8.bits = 8 from rfl, decodeElem_u8 (by simp only [Fmt.intRange] at hhi; omega), hc]

/-- Truncation toward zero stays between integers on either side of zero. -/
theorem truncInt_mem {lo hi : Int} (hl : lo ≤ 0) (hh : 0 ≤ hi) {neg : Bool} {m : Nat} {e : Int}
    (h1 : (lo : ℚ) ≤ (Val.fin neg m e).rat) (h2 : (Val.fin neg m e).rat ≤ hi) :
    lo ≤ truncInt (.fin neg m e) ∧ truncInt (.fin neg m e) ≤ hi := by
  cases neg with
  | false =>
    have h := floorMag_le (Val.rat_pos m e ▸ h2)
    simp only [truncInt, signedMag, Bool.false_eq_true, if_false]
    omega
  | true =>
    have h : (floorMag m e : Int) ≤ -lo := floorMag_le (by simp [Val.rat, signedMag] at h1; push_cast; linarith)
    simp only [truncInt, signedMag, if_true]
    omega

theorem convert_int {f : Fmt} (hf : f.isInt = true) (neg : Bool) (m : Nat) (e : Int) :
    convert f (.fin neg m e) =
      if Val.lt (.fin neg m e) (Val.ofInt f.intRange.1) then (wrap f.bits f.intRange.1, true)
      else if (Val.ofInt f.intRange.2).lt (.fin neg m e) then (wrap f.bits f.intRange.2, true)
      else (wrap f.bits (truncInt (.fin neg m e)), false) := by
  simp only [convert, hf, if_true]

/-- Settles O9: a finite value is compared with the ends of the range as a rational, and between them its truncation is a code's integer. -/
theorem integerConversionRule : Obligations.IntegerConversionRule := by
  unfold Obligations.IntegerConversionRule
  intro f hf
  obtain ⟨hl, hh⟩ := f.intRange_zero
  refine ⟨by simp [convert, hf], fun neg => by simp [convert, hf], fun neg m e => ?_⟩
  intro v
  refine ⟨fun h => ?_, fun h => ?_, fun h1 h2 => ?_⟩
  · rw [convert_int hf, if_pos h]
  · have h1 : ¬ v.lt (Val.ofInt f.intRange.1) = true := by
      rw [Val.ofInt_lt] at h
      rw [Val.lt_ofInt, not_lt]
      exact le_trans (by exact_mod_cast hl.trans hh) h.le
    rw [convert_int hf, if_neg h1, if_pos h]
  · have hc : convert f v = (wrap f.bits (truncInt v), false) := by
      rw [convert_int hf, if_neg (by rw [h1]; decide), if_neg (by rw [h2]; decide)]
    rw [← Bool.not_eq_true, Val.lt_ofInt, not_lt] at h1
    rw [← Bool.not_eq_true, Val.ofInt_lt, not_lt] at h2
    obtain ⟨hlo, hhi⟩ := truncInt_mem hl hh h1 h2
    exact ⟨hc, hlo, hhi, by rw [hc]; exact decodeElem_wrap hf hlo hhi⟩

/-- Settles O12: the three ranges of the sum are the three branches of the addition. -/
theorem integerSumSaturates : Obligations.IntegerSumSaturates := by
  unfold Obligations.IntegerSumSaturates
  refine fun i => ⟨fun hlo hhi => ?_, fun h => ?_, fun h => ?_⟩
  · have hs : satS32 i = (BitVec.ofInt 32 i, false) := by rw [satS32, if_neg (by omega), if_neg (by omega)]
    rw [hs]
    exact ⟨BitVec.toInt_ofInt_eq_self (by decide) (by simpa using hlo) (by simp; omega), rfl⟩
  · rw [satS32, if_neg (by omega), if_pos h]
  · rw [satS32, if_pos h]

end Sys2Proof.Machine
end

section
/-! PROOF. Float formats: finite codes as binade and significand, truncation to them, and the conversion rule (R47, R51, R60, R61). -/

namespace Sys2Proof.Machine

/-! ### Float codes without a sign

A finite code without its sign splits into a binade `E` and a significand `q` as `E * 2 ^ M + q`, and stands for `q * 2 ^ E` units of the least
subnormal. Codes in this form are ordered as their values, so that truncation is the upper end of an order. -/

/-- Mantissa bits of a float format. -/
def Fmt.mant (f : Fmt) : Nat := f.layout.2.1

/-- The exponent of the least subnormal of a float format (Table 2.3). -/
def Fmt.unit (f : Fmt) : Int := 1 - (f.layout.2.2 : Int) - f.layout.2.1

/-- A significand of binade E: below twice the hidden bit, and at or above it in every binade but the lowest. -/
structure Significand (hidden E q : Nat) : Prop where
  lt : q < 2 * hidden
  normal : E = 0 ∨ hidden ≤ q

/-- Every code of a lower binade is less, in value by a whole unit of its last place. -/
theorem Significand.lt_of_binade {h E q E' q' : Nat} (s : Significand h E q) (s' : Significand h E' q') (hE : E < E') :
    E * h + q < E' * h + q' ∧ (q + 1) * 2 ^ E ≤ q' * 2 ^ E' := by
  have hq := s.lt
  have hq' : h ≤ q' := s'.normal.resolve_left (by omega)
  constructor
  · have : (E + 1) * h ≤ E' * h := Nat.mul_le_mul_right h hE
    rw [Nat.add_mul] at this
    omega
  · calc (q + 1) * 2 ^ E ≤ h * 2 * 2 ^ E := Nat.mul_le_mul_right _ (by omega)
      _ = h * 2 ^ (E + 1) := by ring
      _ ≤ q' * 2 ^ E' := Nat.mul_le_mul hq' (Nat.pow_le_pow_right two_pos hE)

/-- Truncation and order: where a value y cut to a significand gives a code, the codes up to that one are those whose values y reaches. -/
theorem Significand.code_le_iff {h E q E' q' : Nat} (s : Significand h E q) (s' : Significand h E' q') {y : ℚ}
    (lo : (q * 2 ^ E : Nat) ≤ y) (hi : y < ((q + 1) * 2 ^ E : Nat)) : E' * h + q' ≤ E * h + q ↔ (q' * 2 ^ E' : Nat) ≤ y := by
  rcases lt_trichotomy E' E with hE | rfl | hE
  · obtain ⟨hc, hv⟩ := s'.lt_of_binade s hE
    have hv' : q' * 2 ^ E' ≤ q * 2 ^ E := (Nat.mul_le_mul_right _ q'.le_succ).trans hv
    exact iff_of_true hc.le (le_trans (by exact_mod_cast hv') lo)
  · rw [Nat.add_le_add_iff_left]
    refine ⟨fun hq => le_trans (by exact_mod_cast Nat.mul_le_mul_right _ hq) lo, fun hy => ?_⟩
    have : q' * 2 ^ E' < (q + 1) * 2 ^ E' := by exact_mod_cast hy.trans_lt hi
    exact Nat.lt_succ_iff.1 (Nat.lt_of_mul_lt_mul_right this)
  · obtain ⟨hc, hv⟩ := s.lt_of_binade s' hE
    exact iff_of_false hc.not_ge (hi.trans_le (by exact_mod_cast hv)).not_ge

/-- The binade of a float code, from its exponent field: the two lowest fields share the lowest one. -/
def Fmt.binade (f : Fmt) (c : Nat) : Nat := c / 2 ^ f.mant % 2 ^ f.layout.1 - 1

/-- The significand of a float code: its mantissa, with the hidden bit of a normal code. -/
def Fmt.sig (f : Fmt) (c : Nat) : Nat := if c / 2 ^ f.mant % 2 ^ f.layout.1 = 0 then c % 2 ^ f.mant else 2 ^ f.mant + c % 2 ^ f.mant

/-- A code with a magnitude up to the largest finite one has no exponent and mantissa that Table 2.4 reads as NaN or infinity. -/
theorem decodeFloat_finite {f : Fmt} (hi : f.isInt = false) (hb : f.isBlock = false) {c : Nat} (hc : c % f.signWeight ≤ f.maxCode) :
    decodeFloat f c = .fin (c / f.signWeight % 2 == 1) (f.sig c) (f.binade c + f.unit) := by
  have hnan : ¬ (f = .e4m3 ∧ c / 2 ^ f.mant % 2 ^ f.layout.1 = 15 ∧ c % 2 ^ f.mant = 7) := by
    rintro ⟨rfl, he, hm⟩
    simp only [Fmt.signWeight, Fmt.layout, Fmt.maxCode, Fmt.mant] at *
    omega
  have hinf : ¬ (f.hasInf && c / 2 ^ f.mant % 2 ^ f.layout.1 == 2 ^ f.layout.1 - 1) = true := by
    rw [Bool.and_eq_true, beq_iff_eq]
    rintro ⟨h, he⟩
    cases f
    case e5m2 | h16 | b16 | f32 =>
      simp only [Fmt.signWeight, Fmt.layout, Fmt.maxCode, Fmt.mant] at *
      omega
    all_goals cases h
  refine (if_neg hnan).trans ((if_neg hinf).trans ?_)
  unfold Fmt.sig Fmt.binade Fmt.unit
  by_cases he : c / 2 ^ f.mant % 2 ^ f.layout.1 = 0
  · refine (if_pos he).trans ?_
    rw [if_pos he, he, Nat.zero_sub, Nat.cast_zero, zero_add]
    rfl
  · refine (if_neg he).trans ?_
    rw [if_neg he]
    have e : ((c / 2 ^ f.mant % 2 ^ f.layout.1 : Nat) : Int) - f.layout.2.2 - f.layout.2.1 =
        (c / 2 ^ f.mant % 2 ^ f.layout.1 - 1 : Nat) + (1 - (f.layout.2.2 : Int) - f.layout.2.1) := by omega
    exact congrArg (Val.fin _ _) e

theorem Fmt.significand_sig (f : Fmt) (c : Nat) : Significand (2 ^ f.mant) (f.binade c) (f.sig c) := by
  have := Nat.mod_lt c (Nat.two_pow_pos f.mant)
  unfold Fmt.sig Fmt.binade
  split
  · next h => exact ⟨by omega, .inl (by omega)⟩
  · exact ⟨by omega, .inr (by omega)⟩

/-- A code without a sign is put together again from its binade and significand. -/
theorem Fmt.binade_sig {f : Fmt} {c : Nat} (hc : c < f.signWeight) : f.binade c * 2 ^ f.mant + f.sig c = c := by
  have hlt : c / 2 ^ f.mant < 2 ^ f.layout.1 := Nat.div_lt_of_lt_mul (by rw [← Nat.pow_add, Nat.add_comm]; exact hc)
  have hd := Nat.div_add_mod' c (2 ^ f.mant)
  unfold Fmt.sig Fmt.binade
  rw [Nat.mod_eq_of_lt hlt]
  split
  · next h => rw [h] at hd ⊢; omega
  · next h =>
    obtain ⟨k, hk⟩ := Nat.exists_eq_succ_of_ne_zero h
    rw [hk, Nat.succ_mul] at hd
    rw [hk, Nat.succ_sub_one]
    omega

theorem Fmt.maxCode_lt (f : Fmt) : f.maxCode < f.signWeight := by cases f <;> decide

/-! ### Truncation to a float code -/

/-- The sign apart, a code is packed alike for either sign (R51). -/
theorem packFloat_sign (f : Fmt) (neg : Bool) (m : Nat) (x : Int) :
    packFloat f neg m x = (if neg then f.signWeight else 0) + packFloat f false m x := by
  unfold packFloat
  by_cases h : m = 0 <;> simp [h]

/-- A magnitude scaled down by its own exponent or more lies below 2. -/
theorem scaled_lt_two (m : Nat) {x e : Int} (h : log2Mag m x ≤ e) : (m : ℚ) * 2 ^ (x - e) < 2 := by
  have hlt : (m : ℚ) < 2 ^ (m.log2 + 1) := by exact_mod_cast Nat.lt_log2_self
  calc (m : ℚ) * 2 ^ (x - e) < 2 ^ (m.log2 + 1) * 2 ^ (x - e) := mul_lt_mul_of_pos_right hlt (zpow_pos two_pos _)
    _ = 2 ^ ((m.log2 + 1 : Nat) + (x - e) : Int) := by rw [← zpow_natCast, ← zpow_add₀ two_ne_zero]
    _ ≤ 2 ^ (1 : Int) := zpow_le_zpow_right₀ one_le_two (by unfold log2Mag at h; push_cast; omega)
    _ = 2 := zpow_one 2

/-- A magnitude scaled down by its own exponent is at least 1. -/
theorem one_le_scaled {m : Nat} (hm : m ≠ 0) (x : Int) : 1 ≤ (m : ℚ) * 2 ^ (x - log2Mag m x) := by
  have hle : (2 : ℚ) ^ m.log2 ≤ m := by exact_mod_cast Nat.log2_self_le hm
  calc (1 : ℚ) = 2 ^ m.log2 * 2 ^ (x - log2Mag m x) := by
        rw [← zpow_natCast, ← zpow_add₀ two_ne_zero, log2Mag, show (m.log2 : Int) + (x - (m.log2 + x)) = 0 by ring, zpow_zero]
    _ ≤ m * 2 ^ (x - log2Mag m x) := mul_le_mul_of_nonneg_right hle (by positivity)

/-- The floor of a magnitude, in units that its own exponent or a greater one gives, is a significand. -/
theorem significand_floorMag {m E : Nat} (hm : m ≠ 0) {x e : Int} (he : log2Mag m x ≤ e) (hE : E = 0 ∨ e = log2Mag m x) (M : Nat) :
    Significand (2 ^ M) E (floorMag m (x - e + M)) := by
  have hs : (m : ℚ) * 2 ^ (x - e + M) = m * 2 ^ (x - e) * 2 ^ M := by rw [zpow_add₀ two_ne_zero, zpow_natCast, mul_assoc]
  have hM : (0 : ℚ) < 2 ^ M := by positivity
  refine ⟨?_, hE.imp_right fun hx => ?_⟩
  · have h := (floorMag_le_self m (x - e + M)).trans_lt (hs ▸ mul_lt_mul_of_pos_right (scaled_lt_two m he) hM)
    exact_mod_cast h
  · have h := (hs ▸ mul_le_mul_of_nonneg_right (hx ▸ one_le_scaled hm x) hM.le).trans_lt (lt_floorMag_add_one m (x - e + M))
    rw [one_mul] at h
    exact Nat.lt_succ_iff.1 (by exact_mod_cast h)

/-- The significand and binade of a truncated magnitude: the value lies between it and the next. -/
theorem packFloat_eq (f : Fmt) (m : Nat) (x : Int) : ∃ E q : Nat, Significand (2 ^ f.mant) E q ∧
    packFloat f false m x = min (E * 2 ^ f.mant + q) f.maxCode ∧
    ((q * 2 ^ E : Nat) : ℚ) ≤ m * 2 ^ (x - f.unit) ∧ (m : ℚ) * 2 ^ (x - f.unit) < ((q + 1) * 2 ^ E : Nat) := by
  by_cases hm : m = 0
  · exact ⟨0, 0, ⟨by positivity, .inl rfl⟩, by simp [packFloat, hm], by simp [hm], by simp [hm]⟩
  obtain ⟨e, he⟩ : ∃ e, e = max (log2Mag m x) (1 - (f.layout.2.2 : Int)) := ⟨_, rfl⟩
  obtain ⟨E, hE⟩ : ∃ E : Nat, e + f.layout.2.2 = E + 1 := ⟨(e + f.layout.2.2 - 1).toNat, by omega⟩
  obtain ⟨q, hq⟩ : ∃ q, q = floorMag m (x - e + f.mant) := ⟨_, rfl⟩
  have hs : Significand (2 ^ f.mant) E q := hq ▸ significand_floorMag hm (he ▸ le_max_left ..) (by omega) f.mant
  have hu : (m : ℚ) * 2 ^ (x - f.unit) = m * 2 ^ (x - e + f.mant) * 2 ^ E := by
    rw [mul_assoc, ← zpow_natCast, ← zpow_add₀ two_ne_zero]
    congr 2
    unfold Fmt.unit Fmt.mant
    omega
  refine ⟨E, q, hs, ?_, ?_, ?_⟩
  · have hp : packFloat f false m x =
        min (if q < 2 ^ f.mant then q else (e + f.layout.2.2).toNat * 2 ^ f.mant + (q - 2 ^ f.mant)) f.maxCode := by
      rw [hq, he]
      exact (if_neg hm).trans (Nat.zero_add _)
    rw [hp, hE]
    congr 1
    split
    · next h => rw [hs.normal.resolve_right (by omega)]; omega
    · next h => rw [show ((E : Int) + 1).toNat = E + 1 by omega, Nat.succ_mul]; omega
  · rw [hu, hq]; push_cast; exact mul_le_mul_of_nonneg_right (floorMag_le_self ..) (by positivity)
  · rw [hu, hq]; push_cast; exact mul_lt_mul_of_pos_right (lt_floorMag_add_one ..) (by positivity)

/-- Truncation toward zero (Table 2.5, row 4): of the finite codes without a sign, those up to the packed one are those whose value does not
exceed the magnitude. -/
theorem le_packFloat_iff {f : Fmt} (hi : f.isInt = false) (hb : f.isBlock = false) {c : Nat} (hc : c ≤ f.maxCode) (m : Nat) (x : Int) :
    c ≤ packFloat f false m x ↔ (decodeFloat f c).le (.fin false m x) = true := by
  have hlt := hc.trans_lt f.maxCode_lt
  rw [decodeFloat_finite hi hb (by rwa [Nat.mod_eq_of_lt hlt]), Nat.div_eq_of_lt hlt]
  have hu : (0 : ℚ) < 2 ^ f.unit := zpow_pos two_pos _
  have hle : (Val.fin (0 % 2 == 1) (f.sig c) (f.binade c + f.unit)).le (.fin false m x) = true ↔
      ((f.sig c * 2 ^ f.binade c : Nat) : ℚ) ≤ m * 2 ^ (x - f.unit) := by
    rw [show (0 % 2 == 1) = false from rfl, Val.le_fin, Val.rat_pos, Val.rat_pos, zpow_add₀ two_ne_zero, zpow_natCast, zpow_sub₀ two_ne_zero,
      ← mul_assoc, ← mul_div_assoc, le_div_iff₀ hu]
    push_cast
    rfl
  rw [hle]
  obtain ⟨E, q, hs, hp, hlo, hhi⟩ := packFloat_eq f m x
  rw [hp, ← hs.code_le_iff (f.significand_sig c) hlo hhi, f.binade_sig hlt]
  omega

theorem packFloat_le (f : Fmt) (m : Nat) (x : Int) : packFloat f false m x ≤ f.maxCode := by
  obtain ⟨E, q, -, hp, -⟩ := packFloat_eq f m x
  exact hp ▸ min_le_right _ _

/-- Row 4 of Table 2.5 for a float target: saturation above the largest value, truncation below. -/
theorem convert_float {f : Fmt} (hi : f.isInt = false) (neg : Bool) (m : Nat) (e : Int) : convert f (.fin neg m e) =
    if f.maxVal.lt (.fin false m e) then ((if neg then f.signWeight else 0) + f.maxCode, true)
    else ((if neg then f.signWeight else 0) + packFloat f false m e, false) := by
  simp only [convert, hi, Bool.false_eq_true, if_false, Val.abs, packFloat_sign f neg]

/-- Settles O8: a truncated code is the upper end of the codes whose value does not exceed the magnitude. -/
theorem floatConversionRule : Obligations.FloatConversionRule := by
  unfold Obligations.FloatConversionRule
  intro f hi hb
  refine ⟨by simp [convert, hi], fun neg => by cases h : f.hasInf <;> simp [convert, hi, h], fun neg m e => ⟨fun h => ?_, fun h => ?_⟩⟩
  · rw [convert_float hi, if_pos h]
  · refine ⟨packFloat f false m e, by rw [convert_float hi, if_neg (by rw [h]; decide)], packFloat_le f m e, ?_, fun b' hb' hle => ?_⟩
    · exact (le_packFloat_iff hi hb (packFloat_le f m e) m e).1 le_rfl
    · exact (le_packFloat_iff hi hb hb' m e).2 hle

/-- A finite value converts to a finite code under its sign; from the largest magnitude on, to that one. -/
theorem convert_finite {f : Fmt} (hi : f.isInt = false) (hb : f.isBlock = false) (neg : Bool) (m : Nat) (e : Int) :
    ∃ b ≤ f.maxCode, (convert f (.fin neg m e)).1 = (if neg then f.signWeight else 0) + b ∧
      (f.maxVal.le (.fin false m e) = true → b = f.maxCode) := by
  rw [convert_float hi]
  split
  · exact ⟨f.maxCode, le_rfl, rfl, fun _ => rfl⟩
  · exact ⟨_, packFloat_le f m e, rfl, fun h => le_antisymm (packFloat_le f m e) ((le_packFloat_iff hi hb le_rfl m e).2 h)⟩

/-- The code of a converted finite value, its sign apart. -/
theorem convert_mod_signWeight {f : Fmt} (hi : f.isInt = false) (hb : f.isBlock = false) (neg : Bool) (m : Nat) (e : Int) :
    (convert f (.fin neg m e)).1 % f.signWeight ≤ f.maxCode ∧ (convert f (.fin neg m e)).1 < 2 * f.signWeight ∧
    (f.maxVal.le (.fin false m e) = true → (convert f (.fin neg m e)).1 % f.signWeight = f.maxCode) := by
  obtain ⟨b, hle, hc, hmax⟩ := convert_finite hi hb neg m e
  have hlt := hle.trans_lt f.maxCode_lt
  have hmod : (convert f (.fin neg m e)).1 % f.signWeight = b := by
    rw [hc]; cases neg <;> simp [Nat.mod_eq_of_lt hlt]
  exact ⟨hmod ▸ hle, by rw [hc]; split <;> omega, fun h => hmod.trans (hmax h)⟩

/-- Settles O7: an integer code is never special; a float code's magnitude stays at or below the largest finite one, and such a code is
finite. -/
theorem finiteConvertsFinite : Obligations.FiniteConvertsFinite := by
  unfold Obligations.FiniteConvertsFinite
  have float (f : Fmt) (neg : Bool) (m : Nat) (e : Int) (hi : f.isInt = false) (hb : f.isBlock = false) :
      (decodeFloat f (convert f (.fin neg m e)).1).isSpecial = false := by
    rw [decodeFloat_finite hi hb (convert_mod_signWeight hi hb neg m e).1]; rfl
  refine ⟨fun f neg m e hb => ?_, fun f neg m e hi hb => ⟨float f neg m e hi hb, convert_mod_signWeight hi hb neg m e⟩⟩
  cases hi : f.isInt with
  | true => exact decodeElem_int_not_special hi _
  | false => rw [decodeElem, if_neg (by rw [hi]; decide)]; exact float f neg m e hi hb

end Sys2Proof.Machine
end

section
/-! PROOF. Elements of block-scaled formats, and the codes of Tables 2.2 and 2.4 (R46, R49, R53, R54). -/

namespace Sys2Proof.Machine

/-- A power of two as a factor moves the exponent. -/
theorem Val.mul_pow2 {v : Val} (h : v.isSpecial = false) (e : Int) : v.mul (.pow2 e) = v.scale e := by
  cases v with
  | fin n m x => simp [Val.mul, Val.pow2, Val.scale]
  | nan | inf => cases h

theorem Val.scale_isSpecial (e : Int) (v : Val) : (v.scale e).isSpecial = v.isSpecial := by cases v <;> rfl

theorem Val.ofInt_isSpecial (i : Int) : (Val.ofInt i).isSpecial = false := rfl

/-- E2M1 has no infinity and no NaN (Table 2.4). -/
theorem decodeFloat_e2m1_isSpecial (c : Nat) : (decodeFloat .e2m1 c).isSpecial = false := by
  rw [decodeFloat_finite rfl rfl (Nat.lt_succ_iff.1 (Nat.mod_lt c (by decide)))]
  rfl

theorem decodeBlock_bq8 {e : Nat} (he : e < 0xFF) (q : Nat) :
    decodeBlock .bq8 e q = (Val.ofInt (sext 8 q)).scale (-6 + (e : Int) - 127) := by simp [decodeBlock, he.ne]

theorem decodeBlock_bq4 {e : Nat} (he : e < 0xFF) (c : Nat) :
    decodeBlock .bq4 e c = (decodeFloat .e2m1 (c % 16)).scale ((e : Int) - 127) := by simp [decodeBlock, he.ne]

/-- Settles O11, clause by clause: R46 for signed codes, for U8, for the ranges and their ends; R49; R54 for BQ8 and BQ4; R53. -/
theorem numberFormatCodes : Obligations.NumberFormatCodes := by
  unfold Obligations.NumberFormatCodes
  refine ⟨fun f c hf hc => ?_, fun c hc => decodeElem_u8 hc, fun f c hf hc => ?_, fun f lo hi cl ch h => ?_, by decide,
    fun e q he hq => ?_, fun e c he hc => ?_, fun f e c hf he => ?_, fun f c _ => rfl⟩
  · rw [decodeElem_signed hf, sext_code hc]
  · obtain ⟨i, hd, hlo, hhi⟩ := decodeElem_int_mem hf hc
    exact ⟨i, hd, hlo, hhi, decodeElem_int_not_special hf c⟩
  · fin_cases h <;> decide
  · rw [decodeBlock_bq8 he, sext_code (w := 8) hq, Val.mul_pow2 rfl, Val.mul_pow2 rfl]
    simp only [Val.ofInt, Val.scale]
    congr 1
    ring
  · rw [decodeBlock_bq4 he, Nat.mod_eq_of_lt hc, Val.mul_pow2 (decodeFloat_e2m1_isSpecial c)]
  · cases f with
    | bq8 => rw [decodeBlock_bq8 he, Val.scale_isSpecial, Val.ofInt_isSpecial]
    | bq4 => rw [decodeBlock_bq4 he, Val.scale_isSpecial, decodeFloat_e2m1_isSpecial]
    | _ => cases hf

end Sys2Proof.Machine
end

section
/-! PROOF. One vector of a pass: the entries that it leaves, and what else of the state it touches (R58, R82, R86, R88). -/

namespace Sys2Proof.Machine

/-- A read after a write of consecutive keys. -/
theorem Tbl.get_setList {α : Type} [DecidableEq α] {d : α} (vs : List α) {t : Tbl α} (h : Tbl.ok d t) (i k : Nat) :
    Tbl.get d (Tbl.setList d t i vs) k = if i ≤ k then vs[k - i]?.getD (Tbl.get d t k) else Tbl.get d t k := by
  induction vs generalizing t i with
  | nil => simp [Tbl.setList]
  | cons v vs ih =>
    rw [Tbl.setList, ih (Tbl.ok_set h), Tbl.get_set h]
    rcases lt_trichotomy i k with hk | rfl | hk
    · rw [if_pos (show i + 1 ≤ k from hk), if_neg hk.ne', if_pos hk.le, show k - i = k - (i + 1) + 1 by omega, List.getElem?_cons_succ]
    · simp
    · rw [if_neg (by omega), if_neg hk.ne, if_neg hk.not_ge]

/-! ### Operations that touch registers alone -/

/-- State t is state s but for its registers. -/
def State.RegsOnly (s t : State) : Prop := ∃ r, t = { s with regs := r }

theorem State.RegsOnly.refl (s : State) : s.RegsOnly s := ⟨s.regs, rfl⟩

theorem State.RegsOnly.trans {s t u : State} (h : s.RegsOnly t) (h' : t.RegsOnly u) : s.RegsOnly u := by
  obtain ⟨r, rfl⟩ := h
  obtain ⟨r', rfl⟩ := h'
  exact ⟨r', rfl⟩

theorem State.RegsOnly.count {s t : State} (h : s.RegsOnly t) (k n : Nat) : s.RegsOnly (t.count k n) := h.trans ⟨_, rfl⟩

theorem State.RegsOnly.ib {s t : State} (h : s.RegsOnly t) (m : Nat) : t.ib m = s.ib m := by
  obtain ⟨r, rfl⟩ := h
  rfl

variable (s : State)

theorem State.accSat_regsOnly (n s0 : Nat) (sat : List Bool) : s.RegsOnly (s.accSat n s0 sat) := by
  refine .count (foldl_all (P := s.RegsOnly) (.refl s) fun t x h => ?_) _ _
  split
  · exact h.trans ⟨_, rfl⟩
  · exact h

theorem State.winCount_regsOnly (n : Nat) (t : Mat) (p : Pass) (i : Nat) : s.RegsOnly (s.winCount n t p i) := by
  unfold State.winCount
  split
  · exact .refl s
  · exact ((((State.RegsOnly.refl s).count ..).count ..).count ..).count ..

/-! ### The write of a vector's entries -/

variable {s}

/-- An armed flip stands through a count of another register than INT_FLIP's. -/
theorem State.flipArmed_count (h : s.Inv) {k : Nat} (hk : intBase ≠ k) (n d : Nat) : (s.count k n).flipArmed d = s.flipArmed d := by
  simp only [State.flipArmed, State.regField, State.reg_count h, if_neg hk]

/-- With no flip of domain 3 armed, a write stores what it carries (R434). -/
theorem State.accWrite_unarmed (h : s.flipArmed 3 = false) (n entry s0 : Nat) (vs : List W32) : s.accWrite n entry s0 vs =
    s.modIb n fun i => { i with
      acc := Tbl.setList 0 i.acc (entry * 256 + s0) vs
      accSyn := Tbl.clear i.accSyn (entry * 128 + s0 / 2) ((s0 + vs.length + 1) / 2 - s0 / 2) } := by
  unfold State.accWrite State.flipAcc
  exact if_neg (by rw [show State.flipArmed (s.modIb n _) 3 = s.flipArmed 3 from rfl, h]; simp)

/-- The entry of each strand after such a write: what it carries, or what was there (R82). -/
theorem State.acc_accWrite (h : s.Inv) (hf : s.flipArmed 3 = false) (n entry s0 : Nat) (vs : List W32) (k : Nat) :
    Tbl.get 0 ((s.accWrite n entry s0 vs).ib n).acc k = if entry * 256 + s0 ≤ k then
      vs[k - (entry * 256 + s0)]?.getD (Tbl.get 0 (s.ib n).acc k) else Tbl.get 0 (s.ib n).acc k := by
  rw [State.accWrite_unarmed hf, State.ib_modIb h, if_pos rfl, Tbl.get_setList vs (h.ib n).acc]

theorem State.accWrite_ibexesBut (h : s.Inv) (hf : s.flipArmed 3 = false) (n entry s0 : Nat) (vs : List W32) :
    s.IbexesBut (s.accWrite n entry s0 vs) n := fun m hm => by
  rw [State.accWrite_unarmed hf, State.ib_modIb h, if_neg hm]

/-- The entries that one vector leaves in the strands of its region: its products, with the previous value unless the pass clears. -/
def Mat.entriesOf (t : Mat) (g : Region) (p : Pass) (acts : List Val) (prev : List W32) : List W32 :=
  (List.range (shapeStrands t.shape)).map fun j =>
    (accumulate t.isInt (if p.first then none else prev[j]?) (t.terms g.active p j acts)).1

theorem Mat.entriesOf_length (t : Mat) (g : Region) (p : Pass) (acts : List Val) (prev : List W32) :
    (t.entriesOf g p acts prev).length = shapeStrands t.shape := by simp [Mat.entriesOf]

theorem Mat.entriesOf_getElem? (t : Mat) (g : Region) (p : Pass) (acts : List Val) (prev : List W32) {j : Nat} (hj : j < shapeStrands t.shape) :
    (t.entriesOf g p acts prev)[j]? = some (accumulate t.isInt (if p.first then none else prev[j]?) (t.terms g.active p j acts)).1 := by
  simp [Mat.entriesOf, hj]

section vector
variable {n : IbexId} {g : Region} {l : Loaded} {t : Mat} {p : Pass} {i : Nat} {acts : List Val} {prev : List W32} {ce : Nat}
  (hv : s.vectorOf g (l.acc1 n.val) t p i = some acts)
  (hr : s.accRead n.val (s.accBase (l.acc1 n.val) + t.entryOf p + i) (64 * regionKey t.shape t.region) (shapeStrands t.shape) = .ok (prev, ce))
include hv hr

/-- A vector whose operands can be read runs to its end: corrected words are counted, the entries written, saturations and window reads counted. -/
theorem State.issueRow_eq : ∃ sat, s.issueRow n.val g l t p i =
    ((((s.count (ibexReg n.val 1 0x68) ce).accWrite n.val (s.accBase (l.acc1 n.val) + t.entryOf p + i) (64 * regionKey t.shape t.region)
      (t.entriesOf g p acts prev)).accSat n.val (64 * regionKey t.shape t.region) sat).winCount n.val t p i, none) :=
  ⟨_, by simp only [State.issueRow, hv, hr, List.map_map]; rfl⟩

/-- But for registers, such a vector writes its entries (R82, R86). -/
theorem State.issueRow_next (h : s.Inv) (hf : s.flipArmed 3 = false) : ∃ u, s.issueRow n.val g l t p i = (u, none) ∧
    State.RegsOnly (s.accWrite n.val (s.accBase (l.acc1 n.val) + t.entryOf p + i) (64 * regionKey t.shape t.region) (t.entriesOf g p acts prev)) u := by
  obtain ⟨sat, hs⟩ := State.issueRow_eq hv hr
  have hk : intBase ≠ ibexReg n.val 1 0x68 := by have := n.isLt; unfold ibexReg intBase; omega
  refine ⟨_, hs, .trans ?_ ((State.accSat_regsOnly ..).trans (State.winCount_regsOnly ..))⟩
  rw [State.accWrite_unarmed hf, State.accWrite_unarmed ((State.flipArmed_count h hk ce 3).trans hf)]
  exact ⟨_, rfl⟩

end vector

/-- Settles O16: the write of the vector's entries is all that changes but for registers, and each key of it holds its strand's entry. -/
theorem vectorAccumulates : Obligations.VectorAccumulates := by
  unfold Obligations.VectorAccumulates
  intro s n g l t p i acts prev ce h hf hv hr e
  obtain ⟨u, hu, hw⟩ := State.issueRow_next hv hr h hf
  refine ⟨u, hu, fun j hj => ?_, fun k hk => ?_, fun m hm => ?_, ?_⟩
  · rw [hw.ib, State.acc_accWrite h hf, if_pos (Nat.le_add_right e j), Nat.add_sub_cancel_left, Mat.entriesOf_getElem? t g p acts prev hj,
      Option.getD_some]
  · rw [hw.ib, State.acc_accWrite h hf]
    split
    · next hle => rw [List.getElem?_eq_none (by rw [Mat.entriesOf_length]; omega), Option.getD_none]
    · rfl
  · rw [hw.ib, State.accWrite_ibexesBut h hf _ _ _ _ m hm]
  · rw [State.accWrite_unarmed hf] at hw
    obtain ⟨r, rfl⟩ := hw
    rfl

end Sys2Proof.Machine
end

section
/-! PROOF. Registers, error registers and counters, as the statements on the Braid read them. -/

namespace Sys2Proof.Machine

variable {s t u : State}

/-! ### Error registers and codes -/

/-- The first code since VALID was cleared stands in its register, with VALID (bit 63). -/
theorem State.errReg_clear {k : Nat} (h : (s.reg k).getLsbD 63 = false) (v : Nat) : s.errReg k v = s.setReg k (BitVec.ofNat 64 (v + 2 ^ 63)) :=
  if_neg (by rw [h]; decide)

theorem State.errReg_regs (s : State) (k v : Nat) : ∃ r, s.errReg k v = { s with regs := r } := by
  unfold State.errReg
  split
  · exact ⟨s.regs, rfl⟩
  · exact ⟨_, rfl⟩

theorem State.errReg_inv (h : s.Inv) (k v : Nat) : (s.errReg k v).Inv := (State.errReg_keep s k v (Kept.refl s)).inv h

/-- An error register is the only one that its record can change. -/
theorem State.reg_errReg_ne (h : s.Inv) {k j : Nat} (hj : j ≠ k) (v : Nat) : (s.errReg k v).reg j = s.reg j := by
  unfold State.errReg
  split
  · rfl
  · exact State.reg_setReg_ne h hj _

theorem State.leave_regs {k : Nat} {o : Out} (h : s.leave k o = some t) : t.regs = s.regs := by
  unfold State.leave at h
  repeat' split at h
  · cases h; rfl
  · cases h; rfl
  · cases h; rfl
  · obtain ⟨e, -, rfl⟩ := Option.map_eq_some_iff.1 h
    rfl

theorem State.takeOff_regs (s : State) (k : Nat) (o : Out) : (s.takeOff k o).regs = s.regs := by cases o <;> rfl

theorem State.askXlate_regs (s : State) (k : Nat) (o : Out) : (s.askXlate k o).regs = s.regs := by
  unfold State.askXlate
  split <;> rfl

/-- What leaves the port touches no register. -/
theorem State.serveWaits_regs (ws : List Wait) : ∀ (s : State) (kept : List Wait) (stuck : List Nat) (blocked : Bool),
    (s.serveWaits kept stuck blocked ws).regs = s.regs := by
  induction ws with
  | nil => intro s kept stuck blocked; rfl
  | cons w ws ih =>
    intro s kept stuck blocked
    unfold State.serveWaits
    extract_lets k
    split
    · exact ih ..
    · split
      · exact ih ..
      · split
        · next t ht => rw [ih, State.takeOff_regs, State.leave_regs ht]
        · rw [ih, State.askXlate_regs]

theorem State.msix_regs (s : State) (k v : Nat) : (s.msix k v).regs = s.regs := by
  unfold State.msix
  split
  · exact State.serveWaits_regs ..
  · rfl

/-- A code attributed to function k changes no register but HP_FNERRk (R504). -/
theorem State.reg_logErr (h : s.Inv) {j k : Nat} (hj : j ≠ hpBase + 0x800 + 8 * k) (code : W16) (origin kind obj detail : Nat) :
    (s.logErr code origin kind obj detail (some k)).reg j = s.reg j := by
  have hl : (s.logRec code origin kind obj detail).regs = s.regs := by unfold State.logRec; dsimp only; split <;> rfl
  have hi := (State.logRec_keep s code origin kind obj detail (Kept.refl s)).inv h
  have hr : (s.logErr code origin kind obj detail (some k)).reg j =
      ((s.logRec code origin kind obj detail).errReg (hpBase + 0x800 + 8 * k) code.toNat).reg j :=
    congrArg (fun r => Tbl.get (regReset j) r j) (State.msix_regs ..)
  rw [hr, State.reg_errReg_ne hi hj]
  exact congrArg (fun r => Tbl.get (regReset j) r j) hl

end Sys2Proof.Machine
end

section
/-! PROOF. Faults of an instruction outside the Braid (R104, R105, R150, R243). -/

namespace Sys2Proof.Machine

variable {s : State}

/-- The opcode of the instruction that may start is the one asked for. -/
theorem State.curOf_opcode {n op : Nat} {x : Loaded × Step × Rank} (h : s.curOf n op = some x) : opcode x.1.raw = op := by
  obtain ⟨l, -, h⟩ := Option.bind_eq_some_iff.1 h
  obtain ⟨y, -, h⟩ := Option.bind_eq_some_iff.1 h
  split at h
  · next hc =>
    cases h
    simp only [Bool.and_eq_true, beq_iff_eq] at hc
    exact hc.1.1.1
  · cases h

/-- At most one opcode may start. -/
theorem State.curOf_ne {n op op' : Nat} {x : Loaded × Step × Rank} (h : s.curOf n op = some x) (hne : op' ≠ op) : s.curOf n op' = none := by
  have hl := State.curOf_opcode h
  obtain ⟨l, hc, h⟩ := Option.bind_eq_some_iff.1 h
  obtain ⟨y, hr, h⟩ := Option.bind_eq_some_iff.1 h
  have hx : x.1 = l := by split at h <;> cases h; rfl
  simp [State.curOf, hc, hr, ← hx, hl, hne.symm]

/-- Without a stored error in the scratchpad, a bus error reports no lost word. -/
theorem State.lostRead_clean {n : Nat} {code : W16} (h : code ≠ Code.WALK_MEM_UE ∨ (s.ib n).spmSyn = []) (l : Loaded) (ps : List Span) :
    s.lostRead n l ps code = s := by
  unfold State.lostRead
  split
  · rfl
  · next hc => simp [State.lostSpm, State.faultySpm, h.resolve_left hc]

/-- WLK_LOAD_ERR and the empty walker that a fault outside the Braid leaves, before the regions finish (R104, R150). -/
theorem State.loadErr_dropCur (h : s.Inv) {n : Nat} (hv : (s.reg (ibexReg n 2 0x48)).getLsbD 63 = false) (code : W16) (c idx : Nat) :
    ∃ u, (s.loadErr n code c 0 idx).modIb n (fun i => { i with cur := none }) = u ∧
      u.reg (ibexReg n 2 0x48) = BitVec.ofNat 64 (2 ^ 63 + code.toNat + c % 1024 * 2 ^ 16 + idx % 65536 * 2 ^ 32) ∧
      s.RegsBut u [ibexReg n 2 0x48] ∧ u.ib n = { s.ib n with cur := none } ∧ s.IbexesBut u n ∧
      u = { s with ibex := u.ibex, regs := u.regs } := by
  refine ⟨_, rfl, ?_⟩
  unfold State.loadErr
  rw [State.errReg_clear hv]
  refine ⟨?_, fun k hk => ?_, ?_, fun m hm => ?_, rfl⟩
  · rw [State.reg_modIb, State.reg_setReg_self h]
    congr 1
    omega
  · rw [State.reg_modIb, State.reg_setReg_ne h (by simpa using hk)]
  · rw [State.ib_modIb (State.setReg_inv h ..), if_pos rfl]
    rfl
  · rw [State.ib_modIb (State.setReg_inv h ..), if_neg hm]
    rfl

/-- A fetch fault without a region is the fault of the instruction that the walker holds (R104). -/
theorem State.fetchFault_cur {n : Nat} {l : Loaded} {x : Nat × Step × Nat × Rank} (hc : (s.ib n).cur = some l) (hr : s.rankOf n = some x)
    (hm : l.mat = none) (code : W16) : s.fetchFault n none code = s.unitFault n l l.reads code := by
  simp [State.fetchFault, hc, hr, hm]

/-- A fetch fault of a region that covers a quarter stops that region (R104). -/
theorem State.fetchFault_region {n q : Nat} {j : Nat × Loaded} (hj : s.jobAt n q = some j) (code : W16) :
    s.fetchFault n (some q) code = s.regionFault n j.1 (!(s.region n j.1).parity) (code, 0, 0) := by
  simp [State.fetchFault, hj, Region.lastParity]

/-- The watchdog faults the TRACK or EMIT that runs on rank 0 (R243). -/
theorem execSclWatchdog_fault {n : IbexId} {op : Nat} {l : Loaded} {st : Step} {r : Rank} (hop : op = 0x60 ∨ op = 0x61)
    (hc : s.curOf n.val op = some (l, st, r)) (hl : l.rank = 0) :
    execSclWatchdog n s = .next (s.unitFault n.val l [] Code.SCL_WATCHDOG) := by
  unfold execSclWatchdog
  rcases hop with rfl | rfl
  · simp [hc, hl]
  · simp [State.curOf_ne hc (show 0x60 ≠ 0x61 by decide), hc, hl]

/-- Settles O23: the walker's fetch faults go to `unitFault` or `regionFault`; the former records its code and empties the walker. -/
theorem walkerFaultsContext : Obligations.WalkerFaultsContext := by
  unfold Obligations.WalkerFaultsContext
  refine ⟨fun s n l x hc hr hm => ?_, fun s n q j hj => ?_, fun s n op l st r hop hc hl => ?_, fun s n l ps code h hv hclean => ?_⟩
  · exact ⟨congrArg Host.Outcome.next (State.fetchFault_cur hc hr hm _), congrArg Host.Outcome.next (State.fetchFault_cur hc hr hm _)⟩
  · exact ⟨congrArg Host.Outcome.next (State.fetchFault_region hj _), congrArg Host.Outcome.next (State.fetchFault_region hj _)⟩
  · exact execSclWatchdog_fault hop hc hl
  · obtain ⟨u, hu, hrest⟩ := State.loadErr_dropCur h hv code l.ctx l.idx
    refine ⟨u, ?_, hrest⟩
    rw [← hu, State.unitFault, State.lostRead_clean hclean]

end Sys2Proof.Machine
end

section
/-! PROOF. Writes of BRD_CFG and WLK_CFG (R113, R116, R154). -/

namespace Sys2Proof.Machine

variable {s : State}

theorem State.ib_modIb_self (h : s.Inv) (n : Nat) (f : Ibex → Ibex) : (s.modIb n f).ib n = f (s.ib n) := by rw [State.ib_modIb h, if_pos rfl]

theorem State.ibexesBut_modIb (h : s.Inv) (n : Nat) (f : Ibex → Ibex) : s.IbexesBut (s.modIb n f) n := fun m hm => by
  rw [State.ib_modIb h, if_neg hm]

theorem State.received_inv (h : s.Inv) (n : Nat) : (s.received n).Inv := (State.received_keep s n (Kept.refl s)).inv h

/-- A register of PF0's BAR0 alone: a VF's write does nothing, and the port counts the payload of one that exists (R490, R494). -/
theorem State.hostAct_pf0 (h : s.Serving 0) {k : Nat} (hk : k ≠ 0) (n : Nat) (f : State → State) :
    s.hostAct k n (fun s => if k = 0 then f s else s) = .next (if s.enabled k then s.received n else s) := by
  cases he : s.enabled k with
  | true => rw [State.hostAct_serving { h with fn := he }, if_neg hk, if_pos rfl]
  | false => rw [State.hostAct_discards (.inr (.inr (.inr he))), if_neg (by decide)]

theorem execBrdCfgWrite_pf0 (h : s.Serving 0) (n : IbexId) (v : W32) : exec (.brdCfgWrite 0 n v) s = .next ((s.received 4).brdCfg n.val v.toNat) :=
  State.hostAct_serving h 4 fun s => if (0 : Fn).val = 0 then s.brdCfg n.val v.toNat else s

theorem execWlkCfgWrite_pf0 (h : s.Serving 0) (n : IbexId) (v : W32) : exec (.wlkCfgWrite 0 n v) s = .next ((s.received 4).wlkCfg n.val v.toNat) :=
  State.hostAct_serving h 4 fun s => if (0 : Fn).val = 0 then s.wlkCfg n.val v.toNat else s

/-- The ramp of Ibex n after BRD_CFG has been written with a DUMMY_EN and a RAMP_LEN (R113). -/
def State.cfgRamp (s : State) (n : Nat) (on : Bool) (len : Nat) : Ramp :=
  let r := (s.ib n).ramp
  let was := s.regField (ibexReg n 1 0) 0 1 == 1
  if was && !on && r.level != 0 then { r with ramping := true, up := false, len := if r.ramping && !r.up then r.len else len }
  else if !was && on && !(s.ib n).gated then { r with level := 8, ramping := false } else r

/-- A value in range enters BRD_CFG, and the ramp follows (R113, R116). -/
theorem State.brdCfg_taken (h : s.Inv) (n : Nat) {v : Nat} (h4 : 4 ≤ field v 13 8) (h32 : field v 13 8 ≤ 32) (hl : field v 31 16 ≠ 0) :
    ∃ t, s.brdCfg n v = t ∧ t.reg (ibexReg n 1 0) = BitVec.ofNat 64 (v % 2 + field v 13 8 * 256 + field v 31 16 * 65536) ∧
      s.RegsBut t [ibexReg n 1 0] ∧ s.IbexesBut t n ∧ t.ib n = { s.ib n with ramp := s.cfgRamp n (bitOf v 0) (field v 13 8) } ∧
      t = { s with regs := t.regs, ibex := t.ibex } := by
  have hv : (if bitOf v 0 then 1 else 0) = v % 2 := by
    rcases Nat.mod_two_eq_zero_or_one v with e | e <;> simp [bitOf, e]
  have hne (l : Nat) : decide (l ≠ 0) = (l != 0) := by cases l <;> rfl
  refine ⟨_, rfl, ?_⟩
  unfold State.brdCfg State.cfgRamp
  rw [if_neg (by simp; omega)]
  simp only [hv, hne, State.ib_setReg]
  have hi := State.setReg_inv h (ibexReg n 1 0) (BitVec.ofNat 64 (v % 2 + field v 13 8 * 256 + field v 31 16 * 65536))
  have hreg := State.reg_setReg_self h (ibexReg n 1 0) (BitVec.ofNat 64 (v % 2 + field v 13 8 * 256 + field v 31 16 * 65536))
  have hbut : s.RegsBut (s.setReg (ibexReg n 1 0) _) [ibexReg n 1 0] := fun k hk => State.reg_setReg_ne h (by simpa using hk)
    (BitVec.ofNat 64 (v % 2 + field v 13 8 * 256 + field v 31 16 * 65536))
  split_ifs
  iterate 3 exact ⟨hreg, hbut, State.ibexesBut_modIb hi n _, State.ib_modIb_self hi n _, rfl⟩
  exact ⟨hreg, hbut, fun _ _ => rfl, rfl, rfl⟩

/-- A value out of range leaves BRD_CFG (R116). -/
theorem State.brdCfg_rejected (s : State) (n : Nat) {v : Nat} (hv : v < 2 ^ 32) (h : field v 13 8 < 4 ∨ 32 < field v 13 8 ∨ field v 31 16 = 0) :
    s.brdCfg n v = s.logErr Code.BRD_CFG_RANGE 0 5 n v (some 0) := by
  unfold State.brdCfg
  rw [if_pos (by simpa [or_assoc] using h), Nat.mod_eq_of_lt hv]

/-- A rejected write of PF0 leaves the registers of the clusters (R504). -/
theorem State.reg_logErr_ibex (h : s.Inv) (n : IbexId) (blk : Fin 8) (code : W16) (origin kind obj detail : Nat) :
    (s.logErr code origin kind obj detail (some 0)).reg (ibexReg n.val blk.val 0) = s.reg (ibexReg n.val blk.val 0) :=
  State.reg_logErr h (by have := n.isLt; have := blk.isLt; unfold ibexReg hpBase; omega) ..

/-- Settles O13: the port takes the write, PF0's alone acts, and either the value enters the register or the code is logged. -/
theorem clusterConfigWrites : Obligations.ClusterConfigWrites := by
  unfold Obligations.ClusterConfigWrites
  intro s n v h hs s1 len lim k r was on
  have h1 : s1.Inv := State.received_inv h 4
  refine ⟨fun fn hfn => ⟨State.hostAct_pf0 hs hfn 4 (·.brdCfg n.val v.toNat), State.hostAct_pf0 hs hfn 4 (·.wlkCfg n.val v.toNat)⟩,
    fun h4 h32 hl => ?_, fun hbad => ?_, fun hv => ?_, fun hv => ?_⟩
  · obtain ⟨t, ht, hrest⟩ := State.brdCfg_taken h1 n.val h4 h32 hl
    exact ⟨t, ht ▸ execBrdCfgWrite_pf0 hs n v, hrest⟩
  · refine ⟨_, execBrdCfgWrite_pf0 hs n v, ?_, State.brdCfg_rejected s1 n.val v.isLt hbad⟩
    rw [State.brdCfg_rejected s1 n.val v.isLt hbad]
    exact State.reg_logErr_ibex h1 n 1 ..
  · refine ⟨_, execWlkCfgWrite_pf0 hs n v, ?_⟩
    rw [State.wlkCfg, if_neg hv]
    exact ⟨State.reg_setReg_self h1 .., fun j hj => State.reg_setReg_ne h1 (by simpa using hj) _, rfl⟩
  · refine ⟨_, execWlkCfgWrite_pf0 hs n v, ?_⟩
    rw [State.wlkCfg, if_pos hv, Nat.mod_eq_of_lt v.isLt]
    exact ⟨State.reg_logErr_ibex h1 n 2 .., rfl⟩

end Sys2Proof.Machine
end

section
/-! PROOF. Counters that advance by known amounts and by free values, and the ramps of dummy issue (R110 to R114). -/

namespace Sys2Proof.Machine

variable {s t u : State} {ks : List Nat}

/-- From s to t only registers of a list and the counter of free values have moved. -/
structure State.Counted (s t : State) (ks : List Nat) : Prop where
  inv : t.Inv
  regs : s.RegsBut t ks
  rest : ∃ r f, t = { s with regs := r, fresh := f }

theorem State.Counted.refl (h : s.Inv) (ks : List Nat) : s.Counted s ks := ⟨h, fun _ _ => rfl, s.regs, s.fresh, rfl⟩

theorem State.Counted.trans (h : s.Counted t ks) (h' : t.Counted u ks) : s.Counted u ks := by
  refine ⟨h'.inv, fun k hk => (h'.regs k hk).trans (h.regs k hk), ?_⟩
  obtain ⟨_, _, rfl⟩ := h.rest
  obtain ⟨r, f, rfl⟩ := h'.rest
  exact ⟨r, f, rfl⟩

theorem State.Counted.setReg (h : s.Counted t ks) {k : Nat} (hk : k ∈ ks) (v : W64) : s.Counted (t.setReg k v) ks := by
  refine ⟨State.setReg_inv h.inv k v, fun j hj => ?_, ?_⟩
  · rw [State.reg_setReg_ne h.inv (fun e => hj (by rw [e]; exact hk))]
    exact h.regs j hj
  · obtain ⟨_, f, rfl⟩ := h.rest
    exact ⟨_, f, rfl⟩

theorem State.Counted.count (h : s.Counted t ks) {k : Nat} (hk : k ∈ ks) (m : Nat) : s.Counted (t.count k m) ks := h.setReg hk _

theorem State.Counted.countFree (h : s.Counted t ks) {k : Nat} (hk : k ∈ ks) : s.Counted (t.countFree k) ks := by
  refine State.Counted.count ⟨(State.freshWord_keep t (Kept.refl t)).inv h.inv, h.regs, ?_⟩ hk _
  obtain ⟨r, _, rfl⟩ := h.rest
  exact ⟨r, _, rfl⟩

theorem State.Counted.ib (h : s.Counted t ks) (n : Nat) : t.ib n = s.ib n := by
  obtain ⟨_, _, rfl⟩ := h.rest
  rfl

/-! ### Dummy issue -/

/-- Strand-group cycles of dummy issue charged to the context whose instruction ran before the gap, if any (R114). -/
def State.chargeDummy (s : State) (before : Option Nat) (k : Nat) : State :=
  match before with
  | some c => s.setCtxSt c { (s.ctxSt c) with dummy := (s.ctxSt c).dummy + k }
  | none => s

theorem State.chargeDummy_rest (s : State) (before : Option Nat) (k : Nat) :
    s.chargeDummy before k = { s with sch := { s.sch with ctxs := (s.chargeDummy before k).sch.ctxs } } := by cases before <;> rfl

theorem State.reg_chargeDummy (s : State) (before : Option Nat) (k j : Nat) : (s.chargeDummy before k).reg j = s.reg j := by cases before <;> rfl

theorem State.ib_chargeDummy (s : State) (before : Option Nat) (k m : Nat) : (s.chargeDummy before k).ib m = s.ib m := by cases before <;> rfl

theorem State.chargeDummy_inv (h : s.Inv) (before : Option Nat) (k : Nat) : (s.chargeDummy before k).Inv := by
  cases before with
  | none => exact h
  | some c => exact State.setCtxSt_inv h ..

theorem State.ctxSt_chargeDummy (h : s.Inv) (before : Option Nat) (k c : Nat) : (s.chargeDummy before k).ctxSt c =
    if before = some c then { (s.ctxSt c) with dummy := (s.ctxSt c).dummy + k } else s.ctxSt c := by
  cases before with
  | none => rfl
  | some d =>
    rw [State.chargeDummy, State.ctxSt_setCtxSt h]
    by_cases hc : c = d
    · rw [if_pos hc, if_pos (by rw [hc]), hc]
    · rw [if_neg hc, if_neg (fun e => hc (Option.some.inj e).symm)]

/-- The registers that dummy issue of Ibex n advances: BRD_DUMMY and its gated counter (log entry 14). -/
def dummyRegs (n : Nat) : List Nat := [ibexReg n 1 0x48, ibexReg n 1 0x70]

/-- Dummy issue advances its counters by free values, and the second amount is what a context is charged (R114). -/
theorem State.dummies_next (h : s.Inv) (n : Nat) : ∃ (u : State) (w : W64), s.dummies n = u.chargeDummy (s.ib n).before w.toNat ∧
    s.Counted u (dummyRegs n) ∧ u.reg (ibexReg n 1 0x70) = s.reg (ibexReg n 1 0x70) + w := by
  have h1 : s.Counted (s.countFree (ibexReg n 1 0x48)) (dummyRegs n) := (State.Counted.refl h _).countFree (by simp [dummyRegs])
  have h2 : s.Counted (s.countFree (ibexReg n 1 0x48)).freshWord.2 (dummyRegs n) := h1.trans
    ⟨(State.freshWord_keep _ (Kept.refl _)).inv h1.inv, fun _ _ => rfl, _, _, rfl⟩
  refine ⟨_, _, rfl, h2.count (by simp [dummyRegs]) _, ?_⟩
  refine (State.reg_count h2.inv ..).trans ?_
  rw [if_pos rfl, BitVec.ofNat_toNat, BitVec.setWidth_eq]
  congr 1
  exact State.reg_setReg_ne ((State.freshWord_keep s (Kept.refl s)).inv h) (by simp [ibexReg]) _

/-- Settles O14: the ramp-down begins at the level that runs; a group step counts dummy issue and moves the level by one. -/
theorem rampsOfDummyIssue : Obligations.RampsOfDummyIssue := by
  unfold Obligations.RampsOfDummyIssue
  intro s n h r
  refine ⟨fun hen hr hl hs => ?_, fun hr => ?_⟩
  · refine ⟨_, if_neg (by simp [hen, hs, show (s.ib n.val).ramp.ramping = false from hr, show (s.ib n.val).ramp.level ≠ 0 from hl]),
      State.ibexesBut_modIb h n.val _, rfl, State.ib_modIb_self h n.val _⟩
  · obtain ⟨u, w, hu, hc, hw⟩ := State.dummies_next h n.val
    have hi : (s.dummies n.val).Inv := hu ▸ State.chargeDummy_inv hc.inv ..
    have hib (m : Nat) : (s.dummies n.val).ib m = s.ib m := by rw [hu, State.ib_chargeDummy, hc.ib]
    refine ⟨_, w, if_neg (by simpa [r] using hr), fun m hm => ?_, fun k hk => ?_, ?_, ?_, fun c => ?_, ?_⟩
    · rw [State.ibexesBut_modIb hi n.val _ m hm, hib]
    · rw [State.reg_modIb, hu, State.reg_chargeDummy, hc.regs k hk]
    · rw [hu, State.chargeDummy_rest]
      obtain ⟨_, _, rfl⟩ := hc.rest
      rfl
    · rw [State.reg_modIb, hu, State.reg_chargeDummy, hw]
    · rw [State.ctxSt_modIb, hu, State.ctxSt_chargeDummy hc.inv]
      obtain ⟨_, _, rfl⟩ := hc.rest
      rfl
    · rw [State.ib_modIb_self hi, hib]
      cases hup : r.up with
      | true => simp [r]
      | false => simp [r]

end Sys2Proof.Machine
end

section
/-! PROOF. Regions that stop, and the reset of a cluster (R91, R103 to R106, R108, R151). -/

namespace Sys2Proof.Machine

/-! ### Tables -/

/-- A listed value is the one that its key reads as. -/
theorem Tbl.get_of_mem {α : Type} {d : α} {t : Tbl α} (h : t.Pairwise fun a b => a.1 < b.1) {e : Nat × α} (he : e ∈ t) :
    Tbl.get d t e.1 = e.2 := by
  induction t with
  | nil => cases he
  | cons x t ih =>
    rw [List.pairwise_cons] at h
    rcases List.mem_cons.1 he with rfl | he
    · simp [Tbl.get]
    · have hx := h.1 e he
      simp [Tbl.get, hx.ne', hx.le, ih h.2 he]

/-- A key below every listed one reads as the default. -/
theorem Tbl.get_of_lt {α : Type} {d : α} {t : Tbl α} {i : Nat} (h : ∀ e ∈ t, i < e.1) : Tbl.get d t i = d := by
  cases t with
  | nil => rfl
  | cons x t =>
    have hx := h x (List.mem_cons_self ..)
    simp [Tbl.get, hx, hx.ne]

/-- A read of a table from which keys have been dropped. -/
theorem Tbl.get_keep {α : Type} {d : α} {t : Tbl α} (h : t.Pairwise fun a b => a.1 < b.1) (p : Nat → Bool) (i : Nat) :
    Tbl.get d (Tbl.keep t fun k _ => p k) i = if p i then Tbl.get d t i else d := by
  induction t with
  | nil => simp [Tbl.keep, Tbl.get]
  | cons x t ih =>
    obtain ⟨k, v⟩ := x
    rw [List.pairwise_cons] at h
    have ih := ih h.2
    unfold Tbl.keep at ih ⊢
    dsimp only at ih ⊢
    rw [List.filter_cons]
    cases hp : p k with
    | true =>
      simp only [if_true, Tbl.get, ih]
      by_cases hi : i = k
      · simp [hi, hp]
      · by_cases hlt : i < k <;> simp [hi, hlt]
    | false =>
      simp only [Bool.false_eq_true, if_false, Tbl.get, ih]
      by_cases hi : i = k
      · simp [hi, hp]
      · by_cases hlt : i < k
        · simp [hi, hlt, Tbl.get_of_lt fun e he => hlt.trans (h.1 e he)]
        · simp [hi, hlt]

variable {s t u : State}

/-- A register that an event resets shows its reset value (R494, R520). -/
theorem State.reg_dropRegs (h : s.Inv) (drop : Nat → Bool) (k : Nat) : (s.dropRegs drop).reg k = if drop k then regReset k else s.reg k := by
  refine (Tbl.get_keep (Tbl.canon_pairwise h.regs) (fun k => !drop k) k).trans ?_
  cases drop k <;> rfl

/-! ### The job of a quarter -/

/-- The job whose region covers a quarter is the job of that region. -/
theorem State.jobAt_job (h : s.Inv) {n q key : Nat} {l : Loaded} (hj : s.jobAt n q = some (key, l)) : (s.region n key).job = some l := by
  obtain ⟨e, he, hm⟩ := List.mem_filterMap.1 (List.mem_of_find?_eq_some hj)
  obtain ⟨l', hl, hk⟩ := Option.map_eq_some_iff.1 hm
  cases hk
  rw [State.region, Tbl.get_of_mem (Tbl.canon_pairwise (h.ib n).regions) he, hl]

/-- What is known of the next pass of the region that covers a quarter. -/
theorem State.nextPass_some (h : s.Inv) {n q key : Nat} {l : Loaded} {t : Mat} {p : Pass} (hn : s.nextPass n q = some (key, l, t, p)) :
    (s.region n key).job = some l ∧ l.mat = some t := by
  obtain ⟨j, hj, hn⟩ := Option.bind_eq_some_iff.1 hn
  obtain ⟨t', ht, hn⟩ := Option.bind_eq_some_iff.1 hn
  obtain ⟨p', -, hn⟩ := Option.map_eq_some_iff.1 hn
  cases hn
  exact ⟨State.jobAt_job h hj, ht⟩

theorem State.hitOf_eq {n key : Nat} {l : Loaded} {x : RegionHit} (hj : s.jobAt n x.q.val = some (key, l)) :
    s.hitOf n x = some (key, !(s.region n key).parity, braidCode x.check, x.strand.val, if x.check = .accUe then x.entry.val else 0) := by
  rw [State.hitOf, hj]; rfl

/-- The fault of one region: it stops, the others finish, and its context faults (R104, R105, R337). -/
theorem State.regionFault_eq {n key : Nat} {l : Loaded} (hj : (s.region n key).job = some l) (parity : Bool) (f : Stop) :
    s.regionFault n key parity f = ((s.regionStop n key parity f).finishJobs n).faultCtx l.ctx l.queue f.1 := by
  simp [State.regionFault, State.regionFaults, hj]

/-- Faults of two regions in one cycle (R106). -/
theorem State.regionFaults_two {n k1 k2 : Nat} {l1 l2 : Loaded} (h1 : (s.region n k1).job = some l1) (h2 : (s.region n k2).job = some l2)
    (p1 p2 : Bool) (f1 f2 : Stop) : s.regionFaults n [(k1, p1, f1), (k2, p2, f2)] =
      ((((s.regionStop n k1 p1 f1).regionStop n k2 p2 f2).finishJobs n).faultCtx l1.ctx l1.queue f1.1).faultCtx l2.ctx l2.queue f2.1 := by
  simp [State.regionFaults, h1, h2]

/-- A hold beyond its limit is a fault of the region (R91). -/
theorem State.holdFault_eq {n key : Nat} {l : Loaded} (hj : (s.region n key).job = some l) : s.holdFault n key =
    (((s.count (ibexReg n 1 0x50) (256 * s.regField (ibexReg n 1 0) 16 16 + 1)).regionStop n key (s.region n key).parity
      (Code.BRD_KNOT_HOLD, 64 * key, 0)).finishJobs n).faultCtx l.ctx l.queue Code.BRD_KNOT_HOLD :=
  State.regionFault_eq (s := s.count (ibexReg n 1 0x50) (s.knotLimit n + 1)) hj ..

theorem State.knotHeld_iff {n key : Nat} {t : Mat} {p : Pass} :
    s.knotHeld n key t p = true ↔ (s.region n key).shadow = none ∨ s.unread n key t p = true := by
  simp [State.knotHeld]

/-! ### Records in several error registers -/

/-- A record of what stopped, in the error registers of a list of quarters. -/
def State.errRegs (s : State) (at' : Nat → Nat) (v : Nat) (qs : List Nat) : State := qs.foldl (fun s q => s.errReg (at' q) v) s

variable {f : Nat → Nat} {v : Nat} {qs : List Nat}

theorem State.errRegs_inv (h : s.Inv) (f : Nat → Nat) (v : Nat) (qs : List Nat) : (s.errRegs f v qs).Inv :=
  foldl_all (P := State.Inv) h fun _ _ h => State.errReg_inv h _ _

theorem State.errRegs_rest (s : State) (f : Nat → Nat) (v : Nat) (qs : List Nat) : s.RegsOnly (s.errRegs f v qs) :=
  foldl_all (P := s.RegsOnly) (.refl s) fun t _ h => h.trans (State.errReg_regs t _ _)

/-- Registers that no quarter of the list has stand. -/
theorem State.reg_errRegs_ne (h : s.Inv) {j : Nat} (hj : ∀ q ∈ qs, j ≠ f q) : (s.errRegs f v qs).reg j = s.reg j := by
  unfold State.errRegs
  induction qs generalizing s with
  | nil => rfl
  | cons q qs ih =>
    rw [List.foldl_cons, ih (State.errReg_inv h ..) fun x hx => hj x (List.mem_cons_of_mem _ hx)]
    exact State.reg_errReg_ne h (hj q (List.mem_cons_self ..)) v

/-- A record that stands is not overwritten. -/
theorem State.reg_errRegs_valid (h : s.Inv) {j : Nat} (hv : (s.reg j).getLsbD 63 = true) : (s.errRegs f v qs).reg j = s.reg j := by
  unfold State.errRegs
  induction qs generalizing s with
  | nil => rfl
  | cons q qs ih =>
    have hq : (s.errReg (f q) v).reg j = s.reg j := by
      by_cases hj : j = f q
      · rw [State.errReg, if_pos (by rw [← hj, hv])]
      · exact State.reg_errReg_ne h hj v
    rw [List.foldl_cons, ih (State.errReg_inv h ..) (by rw [hq, hv]), hq]

/-- The register of a quarter of the list takes the record, if none stands. -/
theorem State.reg_errRegs (h : s.Inv) (hv : v < 2 ^ 63) {q : Nat} (hq : q ∈ qs) (hc : (s.reg (f q)).getLsbD 63 = false) :
    (s.errRegs f v qs).reg (f q) = BitVec.ofNat 64 (v + 2 ^ 63) := by
  have hset : (BitVec.ofNat 64 (v + 2 ^ 63)).getLsbD 63 = true := by
    rw [BitVec.getLsbD_ofNat, Nat.add_comm, Nat.testBit_two_pow_add_eq, Nat.testBit_lt_two_pow hv]
    rfl
  induction qs generalizing s with
  | nil => cases hq
  | cons x qs ih =>
    by_cases hx : f q = f x
    · have he : (s.errReg (f x) v).reg (f q) = BitVec.ofNat 64 (v + 2 ^ 63) := by
        rw [hx, State.errReg_clear (hx ▸ hc), State.reg_setReg_self h]
      exact (State.reg_errRegs_valid (s := s.errReg (f x) v) (State.errReg_inv h ..) (by rw [he, hset])).trans he
    · have he : (s.errReg (f x) v).reg (f q) = s.reg (f q) := State.reg_errReg_ne h hx v
      refine ih (s := s.errReg (f x) v) (State.errReg_inv h ..) ?_ (by rw [he, hc])
      exact (List.mem_cons.1 hq).resolve_left fun e => hx (by rw [e])

/-! ### The stop of a region -/

/-- What BRD_FAULT of a quarter records of a stop, without VALID (Table 3.9). -/
def stopRecord (ctx : Nat) (parity : Bool) (f : Stop) : Nat :=
  f.1.toNat + ctx % 1024 * 2 ^ 16 + (if parity then 2 ^ 26 else 0) + f.2.2 % 2048 * 2 ^ 28 + f.2.1 % 256 * 2 ^ 39

theorem stopRecord_lt (ctx : Nat) (parity : Bool) (f : Stop) : stopRecord ctx parity f < 2 ^ 63 := by
  have := f.1.isLt
  unfold stopRecord
  split <;> omega

/-- A stop by a code of the Braid: the record in the registers of its quarters and in WLK_LOAD_ERR, then the region in FAULT (R104). -/
theorem State.regionStop_braid {n key : Nat} {l : Loaded} {f : Stop} (hj : (s.region n key).job = some l) (hc : f.1.toNat / 256 = 9)
    (parity : Bool) :
    s.regionStop n key parity f = ((s.errRegs (fun q => ibexReg n 1 (0x10 + 8 * q)) (stopRecord l.ctx parity f) l.quarters).loadErr n f.1 l.ctx 0
      l.idx).modIb n fun i => { i with
        regions := Tbl.set {} i.regions key { state := 5, shown := some ((s.region n key).show l) }, outq := i.outq.filter fun e => e.1 != key } := by
  have hne : f.1 ≠ Code.WALK_MEM_UE := fun e => by rw [e] at hc; cases hc
  unfold State.regionStop
  simp only [hj, hc, if_true, State.lostRead, hne, ne_eq, not_false_eq_true]
  rfl

end Sys2Proof.Machine
end

section
/-! PROOF. What a cluster reset leaves (R108, R151, Table 10.11), and the statement on faults of regions. -/

namespace Sys2Proof.Machine

variable {s t u : State} {n : Nat}

/-! ### Dummy issue counted at a gap's end -/

/-- From s to t at most dummy issue of Ibex n has been counted and charged (R114). -/
structure State.Dummied (s t : State) (n : Nat) : Prop where
  inv : t.Inv
  regs : s.RegsBut t (dummyRegs n)
  rest : ∃ r f c, t = { s with regs := r, fresh := f, sch := { s.sch with ctxs := c } }

theorem State.Dummied.refl (h : s.Inv) (n : Nat) : s.Dummied s n := ⟨h, fun _ _ => rfl, s.regs, s.fresh, s.sch.ctxs, rfl⟩

theorem State.dummies_dummied (h : s.Inv) (n : Nat) : s.Dummied (s.dummies n) n := by
  obtain ⟨u, w, hu, hc, -⟩ := State.dummies_next h n
  rw [hu]
  refine ⟨State.chargeDummy_inv hc.inv .., fun k hk => by rw [State.reg_chargeDummy, hc.regs k hk], ?_⟩
  rw [State.chargeDummy_rest]
  obtain ⟨r, f, rfl⟩ := hc.rest
  exact ⟨r, f, _, rfl⟩

theorem State.Dummied.ib (h : s.Dummied t n) (m : Nat) : t.ib m = s.ib m := by
  obtain ⟨_, _, _, rfl⟩ := h.rest
  rfl

/-- The end of a gap at a batch-step boundary: some dummy issue, and what came before the gap is forgotten or stands (R114). -/
theorem State.gapEnds_next (h : s.Inv) (n : Nat) : ∃ t, s.Dummied t n ∧
    (s.gapEnds n = t ∨ s.gapEnds n = t.modIb n fun i => { i with before := none }) := by
  unfold State.gapEnds
  split
  · exact ⟨_, State.dummies_dummied h n, .inr rfl⟩
  · exact ⟨s, .refl h n, .inl rfl⟩

/-! ### Passes in flight -/

theorem Loaded.quarters_lt {l : Loaded} {q : Nat} (hq : q ∈ l.quarters) : q < 16 := by
  unfold Loaded.quarters at hq
  split at hq
  · next t ht =>
    have hr : t.region < 4 := by
      unfold Loaded.mat at ht
      repeat' split at ht
      all_goals cases ht
      all_goals exact Nat.mod_lt _ (by decide)
    obtain ⟨i, hi, rfl⟩ := List.mem_map.1 hq
    have hi := List.mem_range.1 hi
    have hs : shapeQuarters t.shape ≤ 4 := by unfold shapeQuarters shapeStrands; split <;> [decide; split <;> decide]
    unfold regionKey
    have := Nat.mul_le_mul (Nat.le_of_lt_succ hr) hs
    omega
  · cases hq

/-- An error register of Ibex n that a stop or a reset may write: WLK_LOAD_ERR or a BRD_FAULTq. -/
def isStopReg (n j : Nat) : Prop := j = ibexReg n 2 0x48 ∨ ∃ q < 16, j = ibexReg n 1 (0x10 + 8 * q)

/-- From s to t at most records of stops on Ibex n have entered their registers. -/
structure State.Recorded (s t : State) (n : Nat) : Prop where
  inv : t.Inv
  regs : ∀ j, ¬ isStopReg n j → t.reg j = s.reg j
  rest : s.RegsOnly t

theorem State.Recorded.refl (h : s.Inv) (n : Nat) : s.Recorded s n := ⟨h, fun _ _ => rfl, .refl s⟩

theorem State.Recorded.loadErr (h : s.Recorded t n) (code : W16) (c operand idx : Nat) : s.Recorded (t.loadErr n code c operand idx) n :=
  ⟨State.errReg_inv h.inv .., fun j hj => (State.reg_errReg_ne h.inv (fun e => hj (.inl e)) _).trans (h.regs j hj),
    h.rest.trans (State.errReg_regs ..)⟩

theorem State.Recorded.errRegs (h : s.Recorded t n) (v : Nat) (l : Loaded) :
    s.Recorded (t.errRegs (fun q => ibexReg n 1 (0x10 + 8 * q)) v l.quarters) n :=
  ⟨State.errRegs_inv h.inv .., fun j hj => (State.reg_errRegs_ne h.inv fun q hq e => hj (.inr ⟨q, Loaded.quarters_lt hq, e⟩)).trans (h.regs j hj),
    h.rest.trans (State.errRegs_rest ..)⟩

/-- BRD_RESET of the passes in flight enters error registers alone (R108). -/
theorem State.resetRegions_recorded (h : s.Inv) (n : Nat) (qs : List Nat) : s.Recorded (s.resetRegions n qs) n :=
  foldl_all (P := fun t => s.Recorded t n) (.refl h n) fun t j ht => by
    dsimp only
    split
    · exact (ht.loadErr Code.BRD_RESET j.2.ctx 0 j.2.idx).errRegs _ j.2
    · exact ht

theorem State.resetRegions_nil (s : State) (n : Nat) : s.resetRegions n [] = s := by
  unfold State.resetRegions
  induction s.jobs n with
  | nil => rfl
  | cons j js ih => simp

/-! ### The reset -/

/-- An Ibex as a cluster reset leaves it: its scratchpad stands (R108, R151). -/
def Ibex.cleared (i : Ibex) : Ibex := { i with
  acc := [], accSyn := [], slots := [], cur := none, regions := [], outq := [], ramp := {}, ran := none, before := none }

theorem Ibex.cleared_ok {i : Ibex} (h : i.ok) : i.cleared.ok := ⟨h.spm, h.spmSyn, rfl, rfl, rfl, rfl⟩

/-- A register of Ibex n's block that a cluster reset resets. -/
def resetReg (n k : Nat) : Bool :=
  decide (ibexReg n 0 0 ≤ k) && decide (k < ibexReg n 0 0 + 0x200000) && !survivesCluster (k - ibexReg n 0 0)

/-- The state of a cluster reset before the contexts fault. -/
def State.clusterCleared (s : State) (n : Nat) (inFlight : List Nat) : State :=
  (((s.gapEnds n).resetRegions n inFlight).modIb n Ibex.cleared).dropRegs (resetReg n)

theorem execClusterReset_eq (n : IbexId) (inFlight : List Quarter) (s : State) : exec (.clusterReset n inFlight) s =
    .next ((((s.openSteps.filter fun x => x.2.on n.val).map fun x => x.2.ctx).eraseDups.foldl (fun u c =>
      u.faultOnly c (((s.openSteps.filter fun x => x.2.on n.val).filter fun x => x.2.ctx == c).map (·.1)) Code.SCH_CLUSTER_RESET)
      (s.clusterCleared n.val (inFlight.map (·.val)))).schedule) := rfl

/-- The offset of a register in its Ibex's block decides whether it is reset. -/
theorem resetReg_ibexReg (n : Nat) {blk o : Nat} (ho : blk * 0x10000 + o < 0x200000) :
    resetReg n (ibexReg n blk o) = !survivesCluster (blk * 0x10000 + o) := by
  rw [show ibexReg n blk o = ibexReg n 0 0 + (blk * 0x10000 + o) by unfold ibexReg; omega, resetReg, Nat.add_sub_cancel_left]
  simp [ho]

theorem State.clusterCleared_inv (h : s.Inv) (n : Nat) (qs : List Nat) : (((s.gapEnds n).resetRegions n qs).modIb n Ibex.cleared).Inv :=
  State.modIb_inv (State.resetRegions_recorded ((State.gapEnds_keep s n (Kept.refl s)).inv h) n qs).inv n fun _ => Ibex.cleared_ok

/-- A register that does not survive shows its reset value. -/
theorem State.reg_clusterCleared_reset (h : s.Inv) (qs : List Nat) {k : Nat} (hk : resetReg n k = true) :
    (s.clusterCleared n qs).reg k = regReset k := by
  rw [State.clusterCleared, State.reg_dropRegs (State.clusterCleared_inv h n qs), if_pos hk]

/-- A register that survives stands, where neither a record of a pass in flight nor dummy issue writes it. -/
theorem State.reg_clusterCleared_kept (h : s.Inv) {qs : List Nat} {k : Nat} (hk : resetReg n k = false) (hs : qs = [] ∨ ¬ isStopReg n k)
    (hd : k ∉ dummyRegs n) : (s.clusterCleared n qs).reg k = s.reg k := by
  obtain ⟨t, ht, hg⟩ := State.gapEnds_next h n
  have hgr : (s.gapEnds n).reg k = s.reg k := by
    rcases hg with e | e
    · rw [e, ht.regs k hd]
    · rw [e, State.reg_modIb, ht.regs k hd]
  have hr := State.resetRegions_recorded ((State.gapEnds_keep s n (Kept.refl s)).inv h) n qs
  rw [State.clusterCleared, State.reg_dropRegs (State.clusterCleared_inv h n qs), if_neg (by rw [hk]; decide), State.reg_modIb, ← hgr]
  rcases hs with rfl | hs
  · rw [State.resetRegions_nil]
  · exact hr.regs k hs

/-- The Ibex clusters after the reset, and what else it leaves. -/
theorem State.clusterCleared_rest (h : s.Inv) (n : Nat) (qs : List Nat) :
    (s.clusterCleared n qs).ib n = (s.ib n).cleared ∧ s.IbexesBut (s.clusterCleared n qs) n ∧
    s.clusterCleared n qs = { s with
      ibex := (s.clusterCleared n qs).ibex, regs := (s.clusterCleared n qs).regs, fresh := (s.clusterCleared n qs).fresh,
      sch := { s.sch with ctxs := (s.clusterCleared n qs).sch.ctxs } } := by
  obtain ⟨t, ht, hg⟩ := State.gapEnds_next h n
  have hgi := (State.gapEnds_keep s n (Kept.refl s)).inv h
  have hr := State.resetRegions_recorded hgi n qs
  have hib (m : Nat) : (s.clusterCleared n qs).ib m = if m = n then ((s.gapEnds n).ib n).cleared else (s.gapEnds n).ib m := by
    rw [State.clusterCleared, State.ib_dropRegs, State.ib_modIb hr.inv, hr.rest.ib, hr.rest.ib]
  refine ⟨?_, fun m hm => ?_, ?_⟩
  · rw [hib, if_pos rfl]
    rcases hg with e | e
    · rw [e, ht.ib]
    · rw [e, State.ib_modIb_self ht.inv, ht.ib]; rfl
  · rw [hib, if_neg hm]
    rcases hg with e | e
    · rw [e, ht.ib]
    · rw [e, State.ib_modIb ht.inv, if_neg hm, ht.ib]
  · unfold State.clusterCleared
    obtain ⟨r, hr⟩ := hr.rest
    obtain ⟨_, _, _, rfl⟩ := ht.rest
    rcases hg with e | e <;> rw [hr, e] <;> rfl

end Sys2Proof.Machine
end

section
/-! PROOF. Faults of regions and the reset of a cluster (R90, R103 to R106, R151). -/

namespace Sys2Proof.Machine

variable {s t u : State} {n : Nat}

/-- A stopped region is in FAULT, its entries have left the output queue, and the registers of its quarters hold the code where they held
none (R103, R104, R106). -/
theorem State.regionStop_leaves (h : s.Inv) {key : Nat} {l : Loaded} (hj : (s.region n key).job = some l) (par : Bool) (strand entry : Nat)
    {code : W16} (hc : code.toNat / 256 = 9) :
    let u := s.regionStop n key par (code, strand, entry)
    u.region n key = { state := 5, shown := some ((s.region n key).show l) } ∧ (∀ x ∈ (u.ib n).outq, x.1 ≠ key) ∧
    ∀ k ∈ l.quarters, (s.reg (ibexReg n 1 (0x10 + 8 * k))).getLsbD 63 = false →
      u.reg (ibexReg n 1 (0x10 + 8 * k)) = BitVec.ofNat 64 (stopRecord l.ctx par (code, strand, entry) + 2 ^ 63) := by
  intro u
  have hu : u = _ := State.regionStop_braid (f := (code, strand, entry)) hj hc par
  have hi := State.errRegs_inv h (fun q => ibexReg n 1 (0x10 + 8 * q)) (stopRecord l.ctx par (code, strand, entry)) l.quarters
  have hli := State.errReg_inv hi (ibexReg n 2 0x48) (code.toNat + l.ctx % 1024 * 2 ^ 16 + 0 % 8 * 2 ^ 26 + l.idx % 65536 * 2 ^ 32)
  have hib : u.ib n = _ := hu ▸ State.ib_modIb_self hli n _
  refine ⟨?_, fun x hx => ?_, fun k hk hv => ?_⟩
  · rw [State.region, hib]
    exact (Tbl.get_set (hli.ib n).regions key key _).trans (if_pos rfl)
  · rw [hib] at hx
    simpa using (List.mem_filter.1 hx).2
  · rw [hu, State.reg_modIb]
    refine (State.reg_errReg_ne hi ?_ _).trans (State.reg_errRegs (f := fun q => ibexReg n 1 (0x10 + 8 * q)) h (stopRecord_lt ..) hk hv)
    have := Loaded.quarters_lt hk
    unfold ibexReg
    omega

/-- The error registers and the counters of dummy issue lie in the block of their Ibex. -/
theorem outside_block {k : Nat} (hk : k < ibexReg n 0 0 ∨ ibexReg n 0 0 + 0x200000 ≤ k) : k ∉ dummyRegs n ∧ ¬ isStopReg n k := by
  refine ⟨fun h => ?_, fun h => ?_⟩
  · rcases (by simpa [dummyRegs] using h : k = ibexReg n 1 0x48 ∨ k = ibexReg n 1 0x70) with rfl | rfl <;> simp only [ibexReg] at hk <;> omega
  · rcases h with rfl | ⟨q, hq, rfl⟩ <;> simp only [ibexReg] at hk <;> omega

/-- BRD_CFG and WLK_CFG are no error registers. -/
theorem cfg_not_stop (n blk : Nat) : ¬ isStopReg n (ibexReg n blk 0) := by
  rintro (h | ⟨q, hq, h⟩) <;> simp only [ibexReg] at h <;> omega

/-- BRD_KNOT_HOLD while a knot is held (R90, R91). -/
theorem execBrdKnotHold_held {n : IbexId} {q : Quarter} {key : Nat} {l : Loaded} {m : Mat} {p : Pass} (hn : s.nextPass n.val q.val = some (key, l, m, p))
    (hh : s.knotHeld n.val key m p = true) : exec (.brdKnotHold n q) s = .next (s.holdFault n.val key) := by
  change execBrdKnotHold n q s = _
  unfold execBrdKnotHold
  rw [hn]
  exact if_pos hh

/-- A knot that issues after its limit (R91). -/
theorem execKnotIssue_late {n : IbexId} {q : Quarter} {key held : Nat} {l : Loaded} {m : Mat} {p : Pass}
    (hn : s.nextPass n.val q.val = some (key, l, m, p)) (hh : s.knotHeld n.val key m p = false)
    (hr : ((s.ib n.val).ramp.ramping && (s.ib n.val).ramp.up) = false) (hl : s.knotLimit n.val < held) :
    exec (.knotIssue n q held) s = .next (s.holdFault n.val key) := by
  change execKnotIssue n q held s = _
  unfold execKnotIssue
  rw [hn]
  dsimp only
  rw [hh, hr, if_neg (by simp), if_pos hl]

/-- Settles O17: faults of regions go through `regionFaults`, a hold beyond its limit through `holdFault`; a stop leaves FAULT and its
records; a cluster reset leaves `clusterCleared`. -/
theorem regionFaultsAndClusterReset : Obligations.RegionFaultsAndClusterReset := by
  unfold Obligations.RegionFaultsAndClusterReset
  intro s n q h stopBy
  refine ⟨fun x key l hj => ?_, fun x1 x2 k1 l1 k2 l2 hj1 hj2 => ?_, fun key l t p hn => ?_, fun key l par strand entry code hj _ hc => ?_,
    fun inFlight => ?_⟩
  · change execRegionFault n x [] s = _
    rw [execRegionFault, List.filterMap_cons_some (State.hitOf_eq hj), List.filterMap_nil]
    exact congrArg _ (State.regionFault_eq (State.jobAt_job h hj) ..)
  · change execRegionFault n x1 [x2] s = _
    rw [execRegionFault, List.filterMap_cons_some (State.hitOf_eq hj1), List.filterMap_cons_some (State.hitOf_eq hj2), List.filterMap_nil]
    exact congrArg _ (State.regionFaults_two (State.jobAt_job h hj1) (State.jobAt_job h hj2) ..)
  · have hj := (State.nextPass_some h hn).1
    intro limit held u
    refine ⟨fun hh => ?_, fun cycles hh hr hl => ?_⟩
    · exact (execBrdKnotHold_held hn (State.knotHeld_iff.2 hh)).trans (congrArg _ (State.holdFault_eq hj))
    · have hk : s.knotHeld n.val key t p = false := by rw [← Bool.not_eq_true, State.knotHeld_iff]; exact hh
      exact (execKnotIssue_late hn hk hr hl).trans (congrArg _ (State.holdFault_eq hj))
  · obtain ⟨hreg, hout, herr⟩ := State.regionStop_leaves h hj par strand entry hc
    refine ⟨hreg, hout, fun k hk _ hv => (herr k hk hv).trans (congrArg _ ?_)⟩
    dsimp only [stopRecord]
    omega
  · obtain ⟨hib, hbut, hrest⟩ := State.clusterCleared_rest h n.val (inFlight.map (·.val))
    refine ⟨_, execClusterReset_eq n inFlight s, hib, hbut, hrest, fun o ho hs => ?_, fun k hk => ?_, ?_, ?_, fun he k hk => ?_⟩
    · rw [State.reg_clusterCleared_reset h _ (by rw [resetReg_ibexReg n.val (by omega), Nat.zero_mul, Nat.zero_add, hs]; rfl)]
    · obtain ⟨hd, hs⟩ := outside_block hk
      exact State.reg_clusterCleared_kept h (by rcases hk with hk | hk <;> simp [resetReg, hk]) (.inr hs) hd
    · exact State.reg_clusterCleared_kept h (by rw [resetReg_ibexReg _ (by decide)]; decide) (.inr (cfg_not_stop _ _)) (by simp [dummyRegs, ibexReg])
    · exact State.reg_clusterCleared_kept h (by rw [resetReg_ibexReg _ (by decide)]; decide) (.inr (cfg_not_stop _ _)) (by simp [dummyRegs, ibexReg])
    · refine State.reg_clusterCleared_kept h ?_ (.inl (by rw [he]; rfl)) (by simp [dummyRegs, ibexReg]; omega)
      rw [resetReg_ibexReg _ (by omega)]
      simp [survivesCluster]
      omega

end Sys2Proof.Machine
end

section
/-! PROOF. Tensors in a scratchpad without a stored error can be read, and what a read depends on (R119 to R125). -/

namespace Sys2Proof.Machine

/-! ### Lists of results -/

theorem optAll_isSome {α : Type} {l : List (Option α)} (h : ∀ x ∈ l, x.isSome = true) : (optAll l).isSome = true := by
  induction l with
  | nil => rfl
  | cons x l ih =>
    obtain ⟨a, rfl⟩ := Option.isSome_iff_exists.1 (h x (List.mem_cons_self ..))
    rw [optAll, Option.isSome_map]
    exact ih fun y hy => h y (List.mem_cons_of_mem _ hy)

/-- Work in steps, each of which goes well while a property of the state holds and keeps it. -/
theorem ran_foldl {α : Type} {P : State → Prop} {f : State → α → Ran} {l : List α} {s : State} (h : P s)
    (hf : ∀ t x, x ∈ l → P t → ∃ u, f t x = (u, none) ∧ P u) :
    ∃ u, l.foldl (fun (r : Ran) x => if r.2.isSome then r else f r.1 x) (s, none) = (u, none) ∧ P u := by
  induction l generalizing s with
  | nil => exact ⟨s, rfl, h⟩
  | cons x l ih =>
    obtain ⟨t, ht, hp⟩ := hf s x (List.mem_cons_self ..) h
    obtain ⟨u, hu, hq⟩ := ih hp fun t y hy => hf t y (List.mem_cons_of_mem _ hy)
    exact ⟨u, by rw [List.foldl_cons, if_neg (by simp), ht, hu], hq⟩

variable {s t : State} {n : Nat} {a : Acc1}

/-! ### Elements in the scratchpad -/

theorem State.tRead_spm_isSome (h : (s.ib a.ibex).spmSyn = []) (addr k : Nat) : (s.tRead a true addr k).isSome = true :=
  State.spmRead_isSome h _ _

theorem State.rowCodes_isSome (h : (s.ib a.ibex).spmSyn = []) {d : Desc} (hd : d.spm = true) (r i k : Nat) :
    (s.rowCodes a d r i k).isSome = true := by
  unfold State.rowCodes
  split
  · rfl
  · dsimp only
    rw [hd]
    obtain ⟨bs, hb⟩ := Option.isSome_iff_exists.1 (State.tRead_spm_isSome h (d.base + d.rowOff r + i * d.fmt.bits / 8)
      (ceilDiv ((i + k) * d.fmt.bits) 8 - i * d.fmt.bits / 8))
    rw [hb]
    dsimp only
    split
    · rw [Option.isSome_map]; exact State.tRead_spm_isSome h _ _
    · rfl

/-- A read of k elements gives k codes. -/
theorem State.rowCodes_length {d : Desc} {r i k : Nat} {cs : List (Nat × Nat)} (h : s.rowCodes a d r i k = some cs) : cs.length = k := by
  unfold State.rowCodes at h
  split at h
  · next hk => cases h; exact hk.symm
  · dsimp only at h
    split at h
    · cases h
    · split at h
      · obtain ⟨sc, -, rfl⟩ := Option.map_eq_some_iff.1 h
        simp
      · cases h; simp

theorem State.rowCodes_head_isSome (h : (s.ib a.ibex).spmSyn = []) {d : Desc} (hd : d.spm = true) (r i : Nat) :
    ((s.rowCodes a d r i 1).bind List.head?).isSome = true := by
  obtain ⟨cs, hc⟩ := Option.isSome_iff_exists.1 (State.rowCodes_isSome h hd r i 1)
  rw [hc, Option.bind_some, List.isSome_head?]
  have := State.rowCodes_length hc
  cases cs <;> simp_all

theorem State.tapCode_isSome (h : (s.ib a.ibex).spmSyn = []) {w : Win} (hw : w.x.spm = true) (m ch : Nat) (x : Bool × Option (Nat × Nat)) :
    (s.tapCode a w m ch x).isSome = true := by
  unfold State.tapCode
  split
  · rfl
  · unfold State.winCode
    dsimp only
    split
    · rfl
    · exact State.rowCodes_head_isSome h hw _ _

theorem State.gatherCode_isSome (h : (s.ib a.ibex).spmSyn = []) {w : Win} (hw : w.x.spm = true) (dw : Bool) (col m k : Nat) :
    (s.gatherCode a w dw col m k).isSome = true := by
  unfold State.gatherCode
  split <;> exact State.tapCode_isSome h hw _ _ _

/-! ### Products in the scratchpad -/

/-- The tensors of a product, its window's input and the vectors of its parameter set lie in the scratchpad. -/
structure Mat.InSpm (t : Mat) : Prop where
  a : t.a.spm = true
  w : t.w.spm = true
  c : t.c.spm = true
  part : ∀ d, t.part = some d → d.spm = true
  win : ∀ w, t.win = some w → w.x.spm = true
  ops : opsBit t.ops 6 = true

theorem Loaded.mat_inSpm {l : Loaded} (h : l.InSpm) {t : Mat} (ht : l.mat = some t) : t.InSpm := by
  unfold Loaded.mat at ht
  split at ht
  case h_2 => cases ht
  case h_1 a w c part hd =>
  have hm (d : Desc) (hx : some d ∈ [some a, some w, some c, part]) : d.spm = true := h.descs d (hd ▸ hx)
  have ha := hm a (by simp)
  have hw := hm w (by simp)
  have hc := hm c (by simp)
  have hp (d : Desc) (e : part = some d) : d.spm = true := hm d (by simp [e])
  split at ht
  · cases ht
    exact ⟨ha, hw, hc, hp, fun _ e => (Option.some_ne_none _ e.symm).elim, h.params⟩
  · split at ht
    · cases ht
      exact ⟨ha, hw, hc, hp, fun _ e => Option.some.inj e ▸ ha, h.params⟩
    · cases ht

variable {m : Mat}

theorem State.actRow_isSome (h : (s.ib a.ibex).spmSyn = []) (hm : m.InSpm) (p : Pass) (i : Nat) : (s.actRow a m p i).isSome = true := by
  unfold State.actRow
  dsimp only
  rw [Option.isSome_map]
  split
  · exact State.rowCodes_isSome h hm.a _ _ _
  · next w hw =>
    refine optAll_isSome fun x hx => ?_
    obtain ⟨i, -, rfl⟩ := List.mem_map.1 hx
    exact State.gatherCode_isSome h (hm.win w hw) _ _ _ _

theorem State.fetchRows_isSome (h : (s.ib a.ibex).spmSyn = []) (hm : m.InSpm) (p : Pass) : (s.fetchRows a m p).isSome = true := by
  unfold State.fetchRows
  split
  · refine optAll_isSome fun x hx => ?_
    obtain ⟨i, -, rfl⟩ := List.mem_map.1 hx
    exact State.actRow_isSome h hm p _
  · rfl

theorem State.strandCodes_isSome (h : (s.ib a.ibex).spmSyn = []) (hm : m.InSpm) (p : Pass) (j : Nat) :
    (s.strandCodes a m p j).isSome = true := by
  unfold State.strandCodes
  split
  · rfl
  · split
    · split
      · rw [Option.isSome_map]; exact State.rowCodes_isSome h hm.w _ _ _
      · rfl
    · rw [Option.isSome_map]; exact State.rowCodes_isSome h hm.w _ _ _

theorem State.loadTile_isSome (h : (s.ib a.ibex).spmSyn = []) (hm : m.InSpm) (p : Pass) : (s.loadTile a m p).isSome = true :=
  foldl_all (P := fun o : Option WTile => o.isSome = true) rfl fun o j ho => by
    obtain ⟨w, rfl⟩ := Option.isSome_iff_exists.1 ho
    rw [Option.bind_some, Option.isSome_map]
    exact State.strandCodes_isSome h hm p j

/-! ### What a read depends on -/

/-- Tensors of Ibex n read the same in t as in s: memory, address map, scratchpad and partitions are the same. -/
structure State.ReadsAs (s t : State) (n : Nat) : Prop where
  mem : t.mem = s.mem
  dict : t.dict = s.dict
  rot : ∀ k, t.reg (memBase + 0x10 + 8 * k) = s.reg (memBase + 0x10 + 8 * k)
  spm : (t.ib n).spm = (s.ib n).spm
  spmSyn : (t.ib n).spmSyn = (s.ib n).spmSyn
  slots : (t.ib n).slots = (s.ib n).slots

theorem State.ReadsAs.byteAt (h : s.ReadsAs t n) (x : Nat) : t.byteAt x = s.byteAt x := by
  have he (i j : Nat) : t.entry i j = s.entry i j := by unfold State.entry; rw [h.dict]
  have hp (ap : Nat) : t.apertureMib ap = s.apertureMib ap := by simp only [State.apertureMib, State.commonMib, State.pcMask, h.mem, he]
  have ha : t.addrOk x = s.addrOk x := by unfold State.addrOk; rw [hp]
  have hm : t.mapAddr x = s.mapAddr x := by simp only [State.mapAddr, State.commonMib, State.pcMask, State.rotation, h.mem, he, h.rot]
  unfold State.byteAt State.pcFailed
  rw [ha, hm, h.mem]

theorem State.ReadsAs.memRead (h : s.ReadsAs t n) (x k : Nat) : t.memRead x k = s.memRead x k := by
  induction k generalizing x with
  | zero => rfl
  | succ k ih => simp only [State.memRead, h.byteAt, ih]

theorem State.ReadsAs.spmRead (h : s.ReadsAs t n) (x k : Nat) : t.spmRead n x k = s.spmRead n x k := by
  induction k generalizing x with
  | zero => rfl
  | succ k ih => simp only [State.spmRead, State.spmByte, h.spm, h.spmSyn, ih]

theorem State.ReadsAs.resident (h : s.ReadsAs t n) (c : Nat) : (t.ib n).resident c = (s.ib n).resident c := by
  simp only [Ibex.resident, Ibex.residents, h.slots]

theorem State.ReadsAs.accBase (h : s.ReadsAs t n) (c : Nat) : t.accBase ⟨n, c⟩ = s.accBase ⟨n, c⟩ := by
  simp only [State.accBase, h.resident]

theorem State.ReadsAs.rowCodes (h : s.ReadsAs t n) (c : Nat) : t.rowCodes ⟨n, c⟩ = s.rowCodes ⟨n, c⟩ := by
  have hr : t.tRead ⟨n, c⟩ = s.tRead ⟨n, c⟩ := by
    funext sp x k
    simp only [State.tRead, State.partBase, h.resident, h.spmRead, h.memRead]
  funext d r i k
  simp only [State.rowCodes, hr]

theorem State.ReadsAs.vectorOf (h : s.ReadsAs t n) (g : Region) (c : Nat) (m : Mat) (p : Pass) (i : Nat) :
    t.vectorOf g ⟨n, c⟩ m p i = s.vectorOf g ⟨n, c⟩ m p i := by
  simp only [State.vectorOf, State.actRow, State.gatherCode, State.tapCode, State.winCode, h.rowCodes]

end Sys2Proof.Machine
end

section
/-! PROOF. The shadow load and the knot of a pass (R87 to R91, R98, R111, R114). -/

namespace Sys2Proof.Machine

variable {s t u : State} {n : Nat} {ks : List Nat}

/-! ### Parts of an Ibex that an update leaves alone -/

/-- A change of an Ibex that leaves its regions alone. -/
theorem State.region_modIb (h : s.Inv) {f : Ibex → Ibex} (hf : (f (s.ib n)).regions = (s.ib n).regions) (m j : Nat) :
    (s.modIb n f).region m j = s.region m j := by
  unfold State.region
  rw [State.ib_modIb h]
  split
  · next e => rw [hf, e]
  · rfl

theorem State.modRegion_inv (h : s.Inv) (n key : Nat) (f : Region → Region) : (s.modRegion n key f).Inv :=
  (State.modRegion_keep s n key f (Kept.refl s)).inv h

theorem State.ib_modRegion (h : s.Inv) (n key : Nat) (f : Region → Region) :
    (s.modRegion n key f).ib n = { s.ib n with regions := Tbl.set {} (s.ib n).regions key (f (s.region n key)) } := State.ib_modIb_self h n _

theorem State.ibexesBut_modRegion (h : s.Inv) (n key : Nat) (f : Region → Region) : s.IbexesBut (s.modRegion n key f) n :=
  State.ibexesBut_modIb h n _

theorem State.Counted.region (h : s.Counted t ks) (m j : Nat) : t.region m j = s.region m j := by unfold State.region; rw [h.ib]

/-- The counters of staged bytes (log entry 14). -/
def stagedRegs (n : Nat) : List Nat := [ibexReg n 2 0x68, ibexReg n 2 0x78]

theorem State.Counted.countStaged (h : s.Counted t ks) (hk : ∀ k ∈ stagedRegs n, k ∈ ks) (d : Desc) : s.Counted (t.countStaged n d) ks := by
  unfold State.countStaged
  split
  · exact h
  · exact (h.countFree (hk _ (by simp [stagedRegs]))).countFree (hk _ (by simp [stagedRegs]))

/-! ### The shadow load -/

/-- A ramp-up changes the ramp of its Ibex and nothing else (R111). -/
theorem State.rampUp_leaves (h : s.Inv) (n : Nat) :
    (∀ j, (s.rampUp n).region n j = s.region n j) ∧ s.IbexesBut (s.rampUp n) n ∧ ∃ i, s.rampUp n = { s with ibex := i } := by
  unfold State.rampUp
  dsimp only
  split
  · exact ⟨fun _ => rfl, fun _ _ => rfl, s.ibex, rfl⟩
  · exact ⟨fun j => State.region_modIb h rfl n j, State.ibexesBut_modIb h n _, _, rfl⟩

/-- A region whose shadow has taken a pass with its weights and buffered vectors (R89, R98). -/
def Region.shadowed (g : Region) (p : Pass) (w : WTile) (rows : List (List Val)) : Region :=
  { g with shadow := some p, weights := w, nextRows := rows }

/-- A shadow load whose operands can be read: counted, put into its region, and followed by a ramp-up (R89, R98, R111). -/
theorem State.shadowOf_loads (h : s.Inv) {key : Nat} {l : Loaded} {m : Mat} {p : Pass} {w : WTile} {rows : List (List Val)}
    (hw : s.loadTile (l.acc1 n) m p = some w) (hr : s.fetchRows (l.acc1 n) m p = some rows) :
    ∃ u, s.shadowOf n key l m p = (u, none) ∧ u.region n key = (s.region n key).shadowed p w rows ∧
      (∀ j, j ≠ key → u.region n j = s.region n j) ∧ s.IbexesBut u n ∧ s.RegsBut u (stagedRegs n) ∧
      u = { s with ibex := u.ibex, regs := u.regs, fresh := u.fresh } := by
  obtain ⟨c, hc, hu⟩ : ∃ c, s.Counted c (stagedRegs n) ∧
      s.shadowOf n key l m p = ((c.modRegion n key (·.shadowed p w rows)).rampUp n, none) := by
    refine ⟨(if m.shape = 4 then s.countStaged n m.a else s).countStaged n m.w, .countStaged ?_ (fun _ hk => hk) _, ?_⟩
    · split
      · exact (State.Counted.refl h _).countStaged (fun _ hk => hk) _
      · exact .refl h _
    · simp only [State.shadowOf, hw, hr]
      rfl
  have hreg (j : Nat) := State.region_modRegion hc.inv n key n j (·.shadowed p w rows)
  obtain ⟨hramp, hibs, i, hi⟩ := State.rampUp_leaves (State.modRegion_inv hc.inv n key (·.shadowed p w rows)) n
  refine ⟨_, hu, ?_, fun j hj => ?_, fun k hk => ?_, ?_, ?_⟩
  · rw [hramp, hreg, if_pos ⟨rfl, rfl⟩, hc.region]
  · rw [hramp, hreg, if_neg (fun x => hj x.2), hc.region]
  · exact ((hibs k hk).trans (State.ibexesBut_modRegion hc.inv n key _ k hk)).trans (hc.ib k)
  · rw [hi]
    exact hc.regs
  · rw [hi]
    obtain ⟨_, _, rfl⟩ := hc.rest
    rfl

end Sys2Proof.Machine
end

section
/-! PROOF. The knot of a pass and its vectors (R87, R88, R90, R98, R132). -/

namespace Sys2Proof.Machine

variable {s t u : State} {n : IbexId} {ks : List Nat}

/-! ### What a vector leaves alone -/

/-- The registers of an Ibex's block lie below those of the memory and of the flips. -/
theorem ibexReg_lt (n : IbexId) {blk o : Nat} (h : blk * 0x10000 + o < 0x200000) : ibexReg n.val blk o < 0x2000000 := by
  have := n.isLt
  unfold ibexReg
  omega

/-- The registers that the vectors of a pass count in: corrected words, saturations and window reads (R86, R163, R167). -/
def rowRegs (n : Nat) : List Nat :=
  [ibexReg n 1 0x68, ibexReg n 1 8, ibexReg n 1 0x60, ibexReg n 3 0, ibexReg n 3 8, ibexReg n 3 0x10, ibexReg n 3 0x18]

theorem rowRegs_lt (n : IbexId) : ∀ k ∈ rowRegs n.val, k < 0x2000000 := by
  simp only [rowRegs, List.forall_mem_cons]
  exact ⟨ibexReg_lt n (by decide), ibexReg_lt n (by decide), ibexReg_lt n (by decide), ibexReg_lt n (by decide), ibexReg_lt n (by decide),
    ibexReg_lt n (by decide), ibexReg_lt n (by decide), nofun⟩

/-- Registers of the memory and of the flips stand where only registers below them have moved. -/
theorem State.RegsBut.high (h : s.RegsBut t ks) (hk : ∀ k ∈ ks, k < 0x2000000) {j : Nat} (hj : 0x2000000 ≤ j) : t.reg j = s.reg j :=
  h j fun hm => by have := hk j hm; omega

theorem State.flipArmed_congr (h : t.reg intBase = s.reg intBase) (d : Nat) : t.flipArmed d = s.flipArmed d := by
  simp only [State.flipArmed, State.regField, h]

theorem State.Counted.accSat (h : s.Counted t (rowRegs n.val)) (s0 : Nat) (sat : List Bool) :
    s.Counted (t.accSat n.val s0 sat) (rowRegs n.val) := by
  refine .count (foldl_all (P := fun u => s.Counted u (rowRegs n.val)) h fun u x hu => ?_) (by simp [rowRegs]) _
  split
  · exact hu.setReg (by simp [rowRegs]) _
  · exact hu

theorem State.Counted.winCount (h : s.Counted t (rowRegs n.val)) (m : Mat) (p : Pass) (i : Nat) :
    s.Counted (t.winCount n.val m p i) (rowRegs n.val) := by
  unfold State.winCount
  split
  · exact h
  · next w _ =>
    dsimp only
    obtain ⟨rd, el, st⟩ := w.counts m.band.isSome (m.tm * p.row + i) (p.slice * m.kpp) (p.slice * m.kpp + m.live p)
    exact (((h.count (by simp [rowRegs]) _).count (by simp [rowRegs]) _).count (by simp [rowRegs]) _).count (by simp [rowRegs]) _

/-- Entries without a stored error can be read. -/
theorem State.accRead_clean {n : Nat} (h : (s.ib n).accSyn = []) (entry s0 k : Nat) : ∃ r, s.accRead n entry s0 k = .ok r := by
  have hw (j : Nat) : ∃ v, s.accWord n entry j = .clean v := by
    unfold State.accWord
    extract_lets i k
    rw [show i.accSyn = [] from h]
    exact ⟨_, decodeWord_clean _⟩
  unfold State.accRead
  extract_lets ws
  split
  · next w hf =>
    have hn := List.find?_some hf
    obtain ⟨i, -, rfl⟩ := List.mem_map.1 (List.mem_of_find?_eq_some hf)
    obtain ⟨v, hv⟩ := hw (s0 / 2 + i)
    rw [hv] at hn
    cases hn
  · exact ⟨_, rfl⟩

/-- From s to t at most accumulator entries of Ibex n and the counters of a vector have changed. -/
structure State.Issued (s t : State) (n : IbexId) : Prop where
  inv : t.Inv
  regs : s.RegsBut t (rowRegs n.val)
  acc : ∃ a, t.ib n.val = { s.ib n.val with acc := a }
  ibexes : s.IbexesBut t n.val
  rest : ∃ i r f, t = { s with ibex := i, regs := r, fresh := f }

theorem State.Issued.refl (h : s.Inv) (n : IbexId) : s.Issued s n :=
  ⟨h, fun _ _ => rfl, ⟨_, rfl⟩, fun _ _ => rfl, s.ibex, s.regs, s.fresh, rfl⟩

theorem State.Issued.counted (h : s.Issued t n) (hu : t.Counted u (rowRegs n.val)) : s.Issued u n := by
  refine ⟨hu.inv, fun k hk => (hu.regs k hk).trans (h.regs k hk), by rw [hu.ib]; exact h.acc, fun m hm => (hu.ib m).trans (h.ibexes m hm), ?_⟩
  obtain ⟨_, _, _, rfl⟩ := h.rest
  obtain ⟨_, _, rfl⟩ := hu.rest
  exact ⟨_, _, _, rfl⟩

/-- A write of entries where no flip is armed and no error is stored. -/
theorem State.Issued.accWrite (h : s.Issued t n) (hs : (s.ib n.val).accSyn = []) (hf : t.flipArmed 3 = false) (e s0 : Nat) (vs : List W32) :
    s.Issued (t.accWrite n.val e s0 vs) n := by
  have hi := (State.accWrite_keep t n.val e s0 vs (Kept.refl t)).inv h.inv
  obtain ⟨a, ha⟩ := h.acc
  refine ⟨hi, ?_, ?_, fun m hm => (State.accWrite_ibexesBut h.inv hf n e s0 vs m hm).trans (h.ibexes m hm), ?_⟩
  · rw [State.accWrite_unarmed hf]
    exact fun k hk => h.regs k hk
  · rw [State.accWrite_unarmed hf, State.ib_modIb_self h.inv, ha]
    exact ⟨Tbl.setList 0 a (e * 256 + s0) vs, by simp only [hs]; rfl⟩
  · rw [State.accWrite_unarmed hf]
    obtain ⟨_, _, _, rfl⟩ := h.rest
    exact ⟨_, _, _, rfl⟩

theorem State.Issued.readsAs (h : s.Issued t n) : s.ReadsAs t n.val := by
  obtain ⟨a, ha⟩ := h.acc
  refine ⟨?_, ?_, fun k => h.regs.high (rowRegs_lt n) (by unfold memBase; omega), by rw [ha], by rw [ha], by rw [ha]⟩
  all_goals obtain ⟨_, _, _, rfl⟩ := h.rest; rfl

/-- A vector that can be read runs to its end on an Ibex without stored errors (R58, R82, R86). -/
theorem State.Issued.issueRow (h : s.Issued t n) (hc : s.Clean n.val) {g : Region} {l : Loaded} {m : Mat} {p : Pass} {i : Nat}
    (hv : (s.vectorOf g (l.acc1 n.val) m p i).isSome = true) : ∃ u, t.issueRow n.val g l m p i = (u, none) ∧ s.Issued u n := by
  obtain ⟨acts, hv⟩ := Option.isSome_iff_exists.1 hv
  obtain ⟨a, ha⟩ := h.acc
  obtain ⟨⟨prev, ce⟩, hr⟩ := State.accRead_clean (s := t) (n := n.val) (by rw [ha]; exact hc.acc)
    (t.accBase (l.acc1 n.val) + m.entryOf p + i) (64 * regionKey m.shape m.region) (shapeStrands m.shape)
  obtain ⟨sat, hs⟩ := State.issueRow_eq ((h.readsAs.vectorOf g l.ctx m p i).trans hv) hr
  have hcnt := h.counted ((State.Counted.refl h.inv (rowRegs n.val)).count (k := ibexReg n.val 1 0x68) (by simp [rowRegs]) ce)
  have hf := (State.flipArmed_congr (hcnt.regs.high (rowRegs_lt n) (by decide)) 3).trans (hc.flip 3)
  have hw := hcnt.accWrite hc.acc hf (t.accBase (l.acc1 n.val) + m.entryOf p + i) (64 * regionKey m.shape m.region) (m.entriesOf g p acts prev)
  exact ⟨_, hs, hw.counted (((State.Counted.refl hw.inv _).accSat _ sat).winCount m p i)⟩

end Sys2Proof.Machine
end

section
/-! PROOF. The knot of a pass, from its hold to its vectors. -/

namespace Sys2Proof.Machine

variable {s t u : State} {n : IbexId} {key : Nat} {l : Loaded} {m : Mat} {p : Pass}

/-- The pass as its knot issues it: with the region's parity (R87). -/
def State.issued (s : State) (n key : Nat) (p : Pass) : Pass := { p with parity := (s.region n key).parity }

/-- The region as the knot of a pass leaves it (R87, R88). -/
def State.knotted (s : State) (n key : Nat) (l : Loaded) (m : Mat) (p : Pass) : Region :=
  (s.region n key).knot { entryBase := s.accBase (l.acc1 n) + m.entryOf p, clear := p.first, last := p.last } (s.issued n key p)

/-- The counters of a knot that time or staging moves. -/
def knotRegs (n : Nat) : List Nat := ibexReg n 1 0x40 :: stagedRegs n

theorem knotRegs_lt (n : IbexId) : ∀ k ∈ knotRegs n.val, k < 0x2000000 := by
  simp only [knotRegs, stagedRegs, List.forall_mem_cons]
  exact ⟨ibexReg_lt n (by decide), ibexReg_lt n (by decide), ibexReg_lt n (by decide), nofun⟩

/-- The state of a knot before its first vector (R87, R88). -/
def State.knotStart (s : State) (n key : Nat) (l : Loaded) (m : Mat) (p : Pass) : State :=
  let c := ((s.modRegion n key fun _ => s.knotted n key l m p).count (ibexReg n 1 0x58) 1).countFree (ibexReg n 1 0x40)
  (if m.shape = 4 then c else c.countStaged n m.a).addWork l.ctx (m.work p)

/-- From s to t the knot of a pass has begun: its region has swapped, the pass is counted, and work and times have moved. -/
structure State.KnotBegun (s t : State) (n : IbexId) (key : Nat) (l : Loaded) (m : Mat) (p : Pass) : Prop where
  inv : t.Inv
  passes : t.reg (ibexReg n.val 1 0x58) = s.reg (ibexReg n.val 1 0x58) + 1
  regs : s.RegsBut t (ibexReg n.val 1 0x58 :: knotRegs n.val)
  ib : t.ib n.val = { s.ib n.val with regions := Tbl.set {} (s.ib n.val).regions key (s.knotted n.val key l m p) }
  ibexes : s.IbexesBut t n.val
  rest : ∃ i r f, t = { s with ibex := i, regs := r, fresh := f, acts := (s.addWork l.ctx (m.work p)).acts }

theorem State.knotStart_begun (h : s.Inv) (n : IbexId) (key : Nat) (l : Loaded) (m : Mat) (p : Pass) :
    s.KnotBegun (s.knotStart n.val key l m p) n key l m p := by
  have hr := State.modRegion_inv h n.val key fun _ => s.knotted n.val key l m p
  have hi := State.count_inv hr (ibexReg n.val 1 0x58) 1
  obtain ⟨c, hc, he⟩ : ∃ c, State.Counted ((s.modRegion n.val key fun _ => s.knotted n.val key l m p).count (ibexReg n.val 1 0x58) 1) c
      (knotRegs n.val) ∧ s.knotStart n.val key l m p = c.addWork l.ctx (m.work p) := by
    have hc := (State.Counted.refl hi (knotRegs n.val)).countFree (k := ibexReg n.val 1 0x40) (by simp [knotRegs])
    refine ⟨_, ?_, rfl⟩
    split
    · exact hc
    · exact hc.countStaged (fun k hk => List.mem_cons_of_mem _ hk) _
  rw [he]
  refine ⟨(State.addWork_keep c l.ctx (m.work p) (Kept.refl c)).inv hc.inv, ?_, fun k hk => ?_, ?_, fun k hk => ?_, ?_⟩
  · exact (hc.regs _ (by simp [knotRegs, stagedRegs, ibexReg])).trans ((State.reg_count hr ..).trans (if_pos rfl))
  · exact (hc.regs _ fun hm => hk (List.mem_cons_of_mem _ hm)).trans
      ((State.reg_count hr ..).trans (if_neg fun e => hk (by rw [e]; exact List.mem_cons_self ..)))
  · exact (hc.ib n.val).trans (State.ib_modRegion h n.val key _)
  · exact (hc.ib k).trans (State.ibexesBut_modRegion h n.val key _ k hk)
  · obtain ⟨_, _, rfl⟩ := hc.rest
    exact ⟨_, _, _, rfl⟩

theorem State.KnotBegun.high (h : s.KnotBegun t n key l m p) {j : Nat} (hj : 0x2000000 ≤ j) : t.reg j = s.reg j :=
  h.regs.high (List.forall_mem_cons.2 ⟨ibexReg_lt n (by decide), knotRegs_lt n⟩) hj

theorem State.KnotBegun.readsAs (h : s.KnotBegun t n key l m p) : s.ReadsAs t n.val := by
  refine ⟨?_, ?_, fun k => h.high (by unfold memBase; omega), by rw [h.ib], by rw [h.ib], by rw [h.ib]⟩
  all_goals obtain ⟨_, _, _, rfl⟩ := h.rest; rfl

theorem State.KnotBegun.clean (h : s.KnotBegun t n key l m p) (hc : s.Clean n.val) : t.Clean n.val :=
  ⟨by rw [h.ib]; exact hc.spm, by rw [h.ib]; exact hc.acc, fun d => (State.flipArmed_congr (h.high (by decide)) d).trans (hc.flip d)⟩

/-- A knot whose vectors can be read: after its start and its vectors, a LAST pass puts its tile into the output queue (R193). -/
theorem State.knotOf_issues (h : s.Inv) (hc : s.Clean n.val)
    (hv : ∀ i, i < m.rowsOf p → (s.vectorOf (s.knotted n.val key l m p) (l.acc1 n.val) m p i).isSome = true) :
    ∃ v, State.Issued (s.knotStart n.val key l m p) v n ∧ s.knotOf n.val key l m p =
      (if p.last then (v.count (ibexReg n.val 2 0x58) 1).modIb n.val fun i => { i with outq := i.outq ++ [(key, s.issued n.val key p)] }
       else v, none) := by
  have hb := State.knotStart_begun h n key l m p
  obtain ⟨v, hf, hi⟩ := ran_foldl (P := fun u => State.Issued (s.knotStart n.val key l m p) u n) (.refl hb.inv n)
    (f := fun u i => u.issueRow n.val (s.knotted n.val key l m p) l m (s.issued n.val key p) i) (l := List.range (m.rowsOf p))
    fun t i hi ht => ht.issueRow (hb.clean hc) (by
      rw [show l.acc1 n.val = ⟨n.val, l.ctx⟩ from rfl, hb.readsAs.vectorOf]
      exact hv i (List.mem_range.1 hi))
  refine ⟨v, hi, ?_⟩
  unfold State.knotOf
  extract_lets p' g s' s''
  split
  · next heq => cases hf.symm.trans heq
  · next heq => cases hf.symm.trans heq; rfl

end Sys2Proof.Machine
end

section
/-! PROOF. KNOT_ISSUE. -/

namespace Sys2Proof.Machine

variable {s t u v : State} {n : IbexId} {key : Nat} {l : Loaded} {m : Mat} {p : Pass}

/-- From s to t a knot of context c has been held for a number of cycles, and the gap before it has ended (R90, R114). -/
structure State.Held (s t : State) (n : IbexId) (c held : Nat) : Prop where
  inv : t.Inv
  hold : t.reg (ibexReg n.val 1 0x50) = s.reg (ibexReg n.val 1 0x50) + BitVec.ofNat 64 held
  regs : s.RegsBut t (ibexReg n.val 1 0x50 :: dummyRegs n.val)
  ib : t.ib n.val = { s.ib n.val with before := some c }
  ibexes : s.IbexesBut t n.val
  rest : ∃ i r f x, t = { s with ibex := i, regs := r, fresh := f, sch := { s.sch with ctxs := x } }

theorem State.endGap_held (h : s.Inv) (n : IbexId) (c held : Nat) : s.Held ((s.count (ibexReg n.val 1 0x50) held).endGap n.val c) n c held := by
  have hi := State.count_inv h (ibexReg n.val 1 0x50) held
  obtain ⟨t, ht, he⟩ : ∃ t, State.Dummied (s.count (ibexReg n.val 1 0x50) held) t n.val ∧
      (s.count (ibexReg n.val 1 0x50) held).endGap n.val c = t.modIb n.val fun i => { i with before := some c } := by
    refine ⟨_, ?_, rfl⟩
    split
    · exact .refl hi _
    · exact State.dummies_dummied hi _
  rw [he]
  refine ⟨(he ▸ State.endGap_keep _ n.val c (Kept.refl _)).inv hi, ?_, fun k hk => ?_, ?_, fun k hk => ?_, ?_⟩
  · exact (ht.regs _ (by simp [dummyRegs, ibexReg])).trans ((State.reg_count h ..).trans (if_pos rfl))
  · exact (ht.regs k fun hm => hk (List.mem_cons_of_mem _ hm)).trans
      ((State.reg_count h ..).trans (if_neg fun e => hk (by rw [e]; exact List.mem_cons_self ..)))
  · rw [State.ib_modIb_self ht.inv, ht.ib]; rfl
  · rw [State.ib_modIb ht.inv, if_neg hk, ht.ib]; rfl
  · obtain ⟨_, _, _, rfl⟩ := ht.rest
    exact ⟨_, _, _, _, rfl⟩

theorem State.Held.high {c held : Nat} (h : s.Held t n c held) {j : Nat} (hj : 0x2000000 ≤ j) : t.reg j = s.reg j :=
  h.regs.high (by
    simp only [dummyRegs, List.forall_mem_cons]
    exact ⟨ibexReg_lt n (by decide), ibexReg_lt n (by decide), ibexReg_lt n (by decide), nofun⟩) hj

theorem State.Held.readsAs {c held : Nat} (h : s.Held t n c held) : s.ReadsAs t n.val := by
  refine ⟨?_, ?_, fun k => h.high (by unfold memBase; omega), by rw [h.ib], by rw [h.ib], by rw [h.ib]⟩
  all_goals obtain ⟨_, _, _, _, rfl⟩ := h.rest; rfl

theorem State.Held.clean {c held : Nat} (h : s.Held t n c held) (hc : s.Clean n.val) : t.Clean n.val :=
  ⟨by rw [h.ib]; exact hc.spm, by rw [h.ib]; exact hc.acc, fun d => (State.flipArmed_congr (h.high (by decide)) d).trans (hc.flip d)⟩

theorem State.Held.region {c held : Nat} (h : s.Held t n c held) (j : Nat) : t.region n.val j = s.region n.val j := by
  unfold State.region; rw [h.ib]

theorem State.Held.issued {c held : Nat} (h : s.Held t n c held) (key : Nat) (p : Pass) : t.issued n.val key p = s.issued n.val key p := by
  unfold State.issued; rw [h.region]

theorem State.Held.knotted {c held : Nat} (h : s.Held t n c held) (key : Nat) (l : Loaded) (m : Mat) (p : Pass) :
    t.knotted n.val key l m p = s.knotted n.val key l m p := by
  unfold State.knotted
  rw [h.region, h.issued, show l.acc1 n.val = ⟨n.val, l.ctx⟩ from rfl, h.readsAs.accBase]

/-- From s to u the knot of a pass has issued after its hold, with `tiles` put into the output queue (R87, R88, R90, R193). -/
structure State.KnotDone (s u : State) (n : IbexId) (key : Nat) (l : Loaded) (m : Mat) (p : Pass) (held : Nat)
    (tiles : List (Nat × Pass)) : Prop where
  inv : u.Inv
  ib : ∃ a, u.ib n.val = { s.ib n.val with
    before := some l.ctx, acc := a, regions := Tbl.set {} (s.ib n.val).regions key (s.knotted n.val key l m p),
    outq := (s.ib n.val).outq ++ tiles }
  hold : u.reg (ibexReg n.val 1 0x50) = s.reg (ibexReg n.val 1 0x50) + BitVec.ofNat 64 held
  passes : u.reg (ibexReg n.val 1 0x58) = s.reg (ibexReg n.val 1 0x58) + 1
  ibexes : s.IbexesBut u n.val
  rest : ∃ i r f x, u = { s with
    ibex := i, regs := r, fresh := f, sch := { s.sch with ctxs := x }, acts := (s.addWork l.ctx (m.work p)).acts }

/-- After the hold, the start of the knot and its vectors. -/
theorem State.KnotDone.rows {held : Nat} (hh : s.Held t n l.ctx held) (hb : t.KnotBegun u n key l m p) (hi : u.Issued v n) :
    s.KnotDone v n key l m p held [] := by
  obtain ⟨a, ha⟩ := hi.acc
  refine ⟨hi.inv, ⟨a, by rw [ha, hb.ib, hh.ib, hh.knotted, List.append_nil]⟩, ?_, ?_,
    fun k hk => ((hi.ibexes k hk).trans (hb.ibexes k hk)).trans (hh.ibexes k hk), ?_⟩
  · exact ((hi.regs _ (by simp [rowRegs, ibexReg])).trans (hb.regs _ (by simp [knotRegs, stagedRegs, ibexReg]))).trans hh.hold
  · rw [hi.regs _ (by simp [rowRegs, ibexReg]), hb.passes, hh.regs _ (by simp [dummyRegs, ibexReg])]
  · obtain ⟨_, _, _, _, rfl⟩ := hh.rest
    obtain ⟨_, _, _, rfl⟩ := hb.rest
    obtain ⟨_, _, _, rfl⟩ := hi.rest
    exact ⟨_, _, _, _, rfl⟩

/-- The tile of a LAST pass is counted and waits for the output pipe. -/
theorem State.KnotDone.tile {held : Nat} (h : s.KnotDone v n key l m p held []) (x : Nat × Pass) :
    s.KnotDone ((v.count (ibexReg n.val 2 0x58) 1).modIb n.val fun i => { i with outq := i.outq ++ [x] }) n key l m p held [x] := by
  have hi := State.count_inv h.inv (ibexReg n.val 2 0x58) 1
  have hr {o : Nat} (ho : o < 0x10000) : (v.count (ibexReg n.val 2 0x58) 1).reg (ibexReg n.val 1 o) = v.reg (ibexReg n.val 1 o) :=
    (State.reg_count h.inv ..).trans (if_neg (by unfold ibexReg; omega))
  obtain ⟨a, ha⟩ := h.ib
  refine ⟨State.modIb_inv hi n.val fun i h => ⟨h.spm, h.spmSyn, h.acc, h.accSyn, h.slots, h.regions⟩, ⟨a, ?_⟩,
    (hr (by decide)).trans h.hold, (hr (by decide)).trans h.passes, fun k hk => (State.ibexesBut_modIb hi n.val _ k hk).trans (h.ibexes k hk), ?_⟩
  · rw [State.ib_modIb_self hi, State.ib_count, ha, List.append_nil]
  · obtain ⟨_, _, _, _, rfl⟩ := h.rest
    exact ⟨_, _, _, _, rfl⟩

/-- A knot whose hold is within its limit and whose vectors can be read runs to its end (R87, R88, R90, R91, R98). -/
theorem State.knotOf_done (h : s.Inv) (hc : s.Clean n.val) (held : Nat)
    (hv : ∀ i, i < m.rowsOf p → (s.vectorOf (s.knotted n.val key l m p) (l.acc1 n.val) m p i).isSome = true) :
    ∃ u, ((s.count (ibexReg n.val 1 0x50) held).endGap n.val l.ctx).knotOf n.val key l m p = (u, none) ∧
      s.KnotDone u n key l m p held (if p.last then [(key, s.issued n.val key p)] else []) := by
  have hh := State.endGap_held h n l.ctx held
  obtain ⟨v, hi, hk⟩ := State.knotOf_issues (l := l) (m := m) (p := p) (key := key) hh.inv (hh.clean hc) fun i hr => by
    rw [hh.knotted, show l.acc1 n.val = ⟨n.val, l.ctx⟩ from rfl, hh.readsAs.vectorOf]
    exact hv i hr
  have hd := State.KnotDone.rows hh (State.knotStart_begun hh.inv n key l m p) hi
  rw [hh.issued] at hk
  refine ⟨_, hk, ?_⟩
  split
  · exact hd.tile _
  · exact hd

end Sys2Proof.Machine
end

section
/-! PROOF. The output pipe on a scratchpad without stored errors (R137, R193 to R199). -/

namespace Sys2Proof.Machine

variable {s t u : State} {n : IbexId} {a : Acc1}

/-- From s to t at most scratchpad bytes and used marks of Ibex n, registers below those of the memory, and queues have changed. -/
structure State.Piped (s t : State) (n : IbexId) : Prop where
  inv : t.Inv
  flip : t.reg intBase = s.reg intBase
  ib : ∃ x y, t.ib n.val = { s.ib n.val with spm := x, slots := y }
  ibexes : s.IbexesBut t n.val
  rest : ∃ i r q, t = { s with ibex := i, regs := r, sch := { s.sch with queues := q } }

theorem State.Piped.refl (h : s.Inv) (n : IbexId) : s.Piped s n := ⟨h, rfl, ⟨_, _, rfl⟩, fun _ _ => rfl, s.ibex, s.regs, s.sch.queues, rfl⟩

theorem State.Piped.clean (h : s.Piped t n) (hc : s.Clean n.val) : t.Clean n.val := by
  obtain ⟨x, y, hi⟩ := h.ib
  exact ⟨by rw [hi]; exact hc.spm, by rw [hi]; exact hc.acc, fun d => (State.flipArmed_congr h.flip d).trans (hc.flip d)⟩

theorem State.Piped.setReg (h : s.Piped t n) {k : Nat} (hk : k < 0x2000000) (v : W64) : s.Piped (t.setReg k v) n := by
  refine ⟨State.setReg_inv h.inv k v, ?_, h.ib, h.ibexes, ?_⟩
  · rw [State.reg_setReg_ne h.inv (by unfold intBase; omega), h.flip]
  · obtain ⟨_, _, _, rfl⟩ := h.rest
    exact ⟨_, _, _, rfl⟩

/-- A counter of Ibex n's block advances. -/
theorem State.Piped.count (h : s.Piped t n) {blk o : Nat} (ho : blk * 0x10000 + o < 0x200000) (c : Nat) :
    s.Piped (t.count (ibexReg n.val blk o) c) n := h.setReg (ibexReg_lt n ho) _

theorem State.Piped.modStep (h : s.Piped t n) (q : Nat) (f : Step → Step) : s.Piped (t.modStep q f) n := by
  refine ⟨State.modStep_inv h.inv q f, h.flip, h.ib, h.ibexes, ?_⟩
  obtain ⟨_, _, _, rfl⟩ := h.rest
  exact ⟨_, _, _, rfl⟩

/-- A change of scratchpad bytes and marks. -/
theorem State.Piped.modIb (h : s.Piped t n) {f : Ibex → Ibex} (hi : (t.modIb n.val f).Inv)
    (hf : ∃ x y, f (t.ib n.val) = { t.ib n.val with spm := x, slots := y }) : s.Piped (t.modIb n.val f) n := by
  obtain ⟨x, y, hf⟩ := hf
  obtain ⟨_, _, hti⟩ := h.ib
  refine ⟨hi, h.flip, ⟨x, y, by rw [State.ib_modIb_self h.inv, hf, hti]⟩, 
    fun m hm => (State.ibexesBut_modIb h.inv n.val f m hm).trans (h.ibexes m hm), ?_⟩
  obtain ⟨_, _, _, rfl⟩ := h.rest
  exact ⟨_, _, _, rfl⟩

/-! ### Writes -/

theorem State.flipSpm_unarmed (hf : s.flipArmed 2 = false) {n : Nat} (w0 k : Nat) : s.flipSpm n w0 k = s := by
  unfold State.flipSpm
  rw [hf, Bool.false_and, Bool.false_and]
  rfl

/-- Without a stored error and an armed flip a write stores its bytes with clean check bytes (R430, R434). -/
theorem State.spmWrite_clean {n : Nat} (hs : (s.ib n).spmSyn = []) (hf : s.flipArmed 2 = false) {bs : List Byte}
    (hb : bs.isEmpty = false) (x : Nat) :
    s.spmWrite n x bs = s.modIb n fun i => { i with
      spm := Tbl.setList 0 i.spm x bs, spmSyn := Tbl.clear i.spmSyn (x / 8) ((x + bs.length - 1) / 8 - x / 8 + 1) } := by
  have he (rs : List (Nat × Nat)) : s.faultySpm n rs = [] := by rw [State.faultySpm, hs]; rfl
  unfold State.spmWrite
  rw [if_neg (by rw [hb]; decide)]
  dsimp only
  rw [he]
  exact State.flipSpm_unarmed (s := s.modIb n _) hf _ _

theorem State.Piped.tWrite (h : s.Piped t n) (hc : s.Clean n.val) (c x : Nat) (bs : List Byte) :
    ∃ u, t.tWrite ⟨n.val, c⟩ true x bs = some u ∧ s.Piped u n := by
  unfold State.tWrite
  cases hb : bs.isEmpty with
  | true => exact ⟨t, rfl, h⟩
  | false =>
    have hct := h.clean hc
    have hw : s.Piped (t.spmWrite n.val (t.partBase ⟨n.val, c⟩ + x) bs) n := by
      have hi := (State.spmWrite_keep t n.val (t.partBase ⟨n.val, c⟩ + x) bs (Kept.refl t)).inv h.inv
      rw [State.spmWrite_clean hct.spm (hct.flip 2) hb] at hi ⊢
      exact h.modIb hi ⟨_, _, by simp only [hct.spm]; rfl⟩
    exact ⟨_, rfl, hw.modIb ((State.markUsed_keep _ ⟨n.val, c⟩ x bs.length (Kept.refl _)).inv hw.inv) ⟨_, _, rfl⟩⟩

theorem State.Piped.putCodes (h : s.Piped t n) (hc : s.Clean n.val) (c : Nat) {d : Desc} (hd : d.spm = true) (r i : Nat) (cs : List Nat) :
    ∃ u, t.putCodes ⟨n.val, c⟩ d r i cs = some u ∧ s.Piped u n := by
  unfold State.putCodes
  split
  · exact ⟨t, rfl, h⟩
  · dsimp only
    rw [hd]
    split
    · obtain ⟨old, ho⟩ := Option.isSome_iff_exists.1 (State.tRead_spm_isSome (a := ⟨n.val, c⟩) (h.clean hc).spm
        (d.base + d.rowOff r + i * d.fmt.bits / 8) (ceilDiv (i + cs.length) 2 - i / 2))
      rw [ho, Option.bind_some]
      exact h.tWrite hc ..
    · exact h.tWrite hc ..

theorem State.Piped.putVals (h : s.Piped t n) (hc : s.Clean n.val) (c : Nat) {d : Desc} (hd : d.spm = true) (r i : Nat) (vs : List Val) :
    ∃ u k, t.putVals ⟨n.val, c⟩ d r i vs = some (u, k) ∧ s.Piped u n := by
  unfold State.putVals
  split
  · dsimp only
    obtain ⟨u, hu, hpu⟩ := h.putCodes hc c hd r i (((chunks32 (vs.length / 32 + 1) vs).map (encodeBlock d.fmt)).flatMap fun b => b.2.1)
    obtain ⟨v, hv, hpv⟩ := hpu.tWrite hc c (d.scaleBase + r * d.blocks + i / 32)
      (((chunks32 (vs.length / 32 + 1) vs).map (encodeBlock d.fmt)).map fun b => BitVec.ofNat 8 b.1)
    rw [hu, Option.bind_some, hd, hv]
    exact ⟨v, _, rfl, hpv⟩
  · dsimp only
    obtain ⟨u, hu, hpu⟩ := h.putCodes hc c hd r i _
    rw [hu]
    exact ⟨u, _, rfl, hpu⟩

end Sys2Proof.Machine
end

section
/-! PROOF. A tile goes through the output pipe to its end (R137, R193 to R199, R206). -/

namespace Sys2Proof.Machine

variable {s t : State} {n : IbexId} {l : Loaded} {m : Mat}

theorem State.opsVec_isSome {a : Acc1} (h : (s.ib a.ibex).spmSyn = []) {ops : List Byte} (ho : opsBit ops 6 = true) (off : Nat) (f : Fmt)
    (n0 k : Nat) : (s.opsVec a ops off f n0 k).isSome = true := by
  unfold State.opsVec State.rowVals
  rw [Option.isSome_map]
  exact State.rowCodes_isSome h ho _ _ _

/-! ### Runs -/

theorem State.Piped.pipeRun (h : s.Piped t n) (hc : s.Clean n.val) (hm : m.InSpm) (c row n0 : Nat) (es : List W32) :
    ∃ u x y, t.pipeRun ⟨n.val, c⟩ m row n0 es = some (u, x, y) ∧ s.Piped u n := by
  unfold State.pipeRun
  extract_lets o k vec
  have hv (on : Bool) (off : Nat) (f : Fmt) : ∃ vs, vec on off f = some vs := by
    cases on with
    | false => exact ⟨_, rfl⟩
    | true =>
      obtain ⟨vs, hvs⟩ := Option.isSome_iff_exists.1 (State.opsVec_isSome (a := ⟨n.val, c⟩) (h.clean hc).spm hm.ops off f n0 k)
      exact ⟨_, congrArg (Option.map _) hvs⟩
  split
  · obtain ⟨u, hu, hp⟩ := h.putCodes hc c hm.c row n0 (es.map fun e => e.toNat)
    exact ⟨u, 0, 0, by rw [hu]; rfl, hp⟩
  · obtain ⟨sc, hsc⟩ := hv (opsScaleMode o == 2) 0x10 .f32
    obtain ⟨bs, hbs⟩ := hv (opsBit o 2) 0x18 .f32
    obtain ⟨ws, hws⟩ := hv (opsBit o 4) 0x20 .s32
    rw [hsc, Option.bind_some, hbs, Option.bind_some, hws, Option.bind_some]
    dsimp only
    obtain ⟨u, x, hu, hp⟩ := h.putVals hc c hm.c row n0 _
    rw [hu]
    exact ⟨u, x, _, rfl, hp⟩

theorem State.Piped.pipeCounts (h : s.Piped t n) (l : Loaded) (elems sat clamped bytes : Nat) :
    s.Piped (t.pipeCounts n.val l elems sat clamped bytes) n := by
  unfold State.pipeCounts
  extract_lets s1 s2
  have h2 : s.Piped s2 n := (((h.count (by decide) _).count (by decide) _).count (by decide) _).count (by decide) _
  split
  · exact h2
  · split
    · exact h2
    · split
      · exact h2.modStep ..
      · split
        · exact h2
        · exact (h2.modStep ..).setReg (ibexReg_lt n (by decide)) _

theorem State.Piped.pipeOut (h : s.Piped t n) (hc : s.Clean n.val) (l : Loaded) (hm : m.InSpm) (row n0 : Nat) (es : List W32) :
    ∃ u, t.pipeOut n.val l m row n0 es = (u, none) ∧ s.Piped u n := by
  obtain ⟨u, x, y, hu, hp⟩ := h.pipeRun hc hm l.ctx row n0 es
  unfold State.pipeOut
  rw [show l.acc1 n.val = ⟨n.val, l.ctx⟩ from rfl, hu]
  exact ⟨_, rfl, hp.pipeCounts ..⟩

/-- A partial's descriptor of a split over K lies in the scratchpad. -/
theorem Mat.InSpm.partOf (hm : m.InSpm) {d : Desc} (hd : (if m.split = 2 then m.part else none) = some d) : d.spm = true := by
  split at hd
  · exact hm.part d hd
  · cases hd

theorem State.Piped.tileRun (h : s.Piped t n) (hc : s.Clean n.val) (l : Loaded) (hm : m.InSpm) (row n0 : Nat) (es : List W32) :
    ∃ u, t.tileRun n.val l m row n0 es = (u, none) ∧ s.Piped u n := by
  unfold State.tileRun
  split
  · exact h.pipeOut hc l hm row n0 es
  · next d hd =>
    obtain ⟨u, hu, hp⟩ := h.putCodes hc l.ctx (hm.partOf hd) (l.rank * m.c.rows + row) n0 (es.map fun e => e.toNat)
    rw [show l.acc1 n.val = ⟨n.val, l.ctx⟩ from rfl, hu]
    exact ⟨_, rfl, hp.count (by decide) _⟩

theorem State.Piped.tileRow (h : s.Piped t n) (hc : s.Clean n.val) (l : Loaded) (hm : m.InSpm) (p : Pass) (i : Nat) :
    ∃ u, t.tileRow n.val l m p i = (u, none) ∧ s.Piped u n := by
  unfold State.tileRow
  extract_lets e rs k
  obtain ⟨⟨es, ce⟩, hr⟩ := State.accRead_clean (h.clean hc).acc e (64 * regionKey m.shape m.region) k
  rw [hr]
  exact ran_foldl (P := fun u => s.Piped u n) (h.count (blk := 1) (o := 0x68) (by decide) ce)
    fun u (r : Nat × Nat × Nat × Nat) _ hu =>
    hu.tileRun hc l hm r.1 r.2.1 ((es.drop r.2.2.1).take r.2.2.2)

/-! ### Sums of partials -/

theorem State.Piped.sumRun (h : s.Piped t n) (hc : s.Clean n.val) (l : Loaded) (hm : m.InSpm) {d : Desc} (hd : d.spm = true) (order : List Nat)
    (r : Nat × Nat × Nat × Nat) : ∃ u, t.sumRun n.val l m d order r = (u, none) ∧ s.Piped u n := by
  unfold State.sumRun
  obtain ⟨ps, hps⟩ := Option.isSome_iff_exists.1 (optAll_isSome
    (l := order.map fun c => t.partRun (l.acc1 n.val) d (c * m.c.rows + r.1) r.2.1 r.2.2.2) fun x hx => by
      obtain ⟨c, -, rfl⟩ := List.mem_map.1 hx
      rw [State.partRun, Option.isSome_map]
      exact State.rowCodes_isSome (h.clean hc).spm hd _ _ _)
  rw [hps]
  cases ps with
  | nil => exact ⟨t, rfl, h⟩
  | cons x xs => exact h.pipeOut hc l hm _ _ _

theorem State.Piped.tileDone (h : s.Piped t n) (hc : s.Clean n.val) (l : Loaded) (hm : m.InSpm) (p : Pass) :
    ∃ u, t.tileDone n.val l m p = (u, none) ∧ s.Piped u n := by
  unfold State.tileDone
  split
  · next st d _ hd =>
    extract_lets all
    split
    split
    · exact ⟨_, rfl, h.modStep ..⟩
    · exact ran_foldl (P := fun u => s.Piped u n) (h.modStep ..) fun u r _ hu => hu.sumRun hc l hm (hm.partOf hd) _ r
  · exact ⟨t, rfl, h⟩

end Sys2Proof.Machine
end

section
/-! PROOF. OUTPUT_TILE: the tile waits no more, and the region's job may be complete (R138, R193). -/

namespace Sys2Proof.Machine

variable {s t u : State} {n key : Nat} {l : Loaded}

/-- From s to t at most a region of Ibex n and registers have changed. -/
structure State.RegionOnly (s t : State) (n key : Nat) : Prop where
  inv : t.Inv
  regions : ∀ j, j ≠ key → t.region n j = s.region n j
  outq : (t.ib n).outq = (s.ib n).outq
  spmSyn : (t.ib n).spmSyn = (s.ib n).spmSyn
  ibexes : s.IbexesBut t n
  rest : ∃ i r, t = { s with ibex := i, regs := r }

theorem State.RegionOnly.refl (h : s.Inv) (n key : Nat) : s.RegionOnly s n key :=
  ⟨h, fun _ _ => rfl, rfl, rfl, fun _ _ => rfl, s.ibex, s.regs, rfl⟩

theorem State.RegionOnly.modRegion (h : s.RegionOnly t n key) (f : Region → Region) : s.RegionOnly (t.modRegion n key f) n key := by
  have hi := State.ib_modRegion h.inv n key f
  refine ⟨State.modRegion_inv h.inv n key f, fun j hj => ?_, by rw [hi, h.outq], by rw [hi, h.spmSyn],
    fun m hm => (State.ibexesBut_modRegion h.inv n key f m hm).trans (h.ibexes m hm), ?_⟩
  · exact ((State.region_modRegion h.inv n key n j f).trans (if_neg fun e => hj e.2)).trans (h.regions j hj)
  · obtain ⟨_, _, rfl⟩ := h.rest
    exact ⟨_, _, rfl⟩

theorem State.RegionOnly.count (h : s.RegionOnly t n key) (k c : Nat) : s.RegionOnly (t.count k c) n key := by
  refine ⟨State.count_inv h.inv k c, h.regions, h.outq, h.spmSyn, h.ibexes, ?_⟩
  obtain ⟨_, _, rfl⟩ := h.rest
  exact ⟨_, _, rfl⟩

/-- Without a stored error in the scratchpad no word is rewritten. -/
theorem State.mendReads_clean (h : (s.ib n).spmSyn = []) (l : Loaded) (ps : List Span) : s.mendReads n l ps = s := by
  unfold State.mendReads State.mendSpm State.faultySpm
  rw [h]
  rfl

/-- A job with no pass left and no entry unread completes (R138). -/
theorem State.jobCheck_job (h : s.Inv) (hs : (s.ib n).spmSyn = []) (hj : (s.region n key).job = some l) :
    s.RegionOnly (s.jobCheck n key) n key ∧ ((s.jobCheck n key).region n key).job =
      if (s.region n key).passes.isEmpty && !((s.ib n).outq.any fun e => e.1 == key) then none else some l := by
  have hu := State.RegionOnly.refl h n key
  unfold State.jobCheck
  dsimp only
  rw [hj]
  dsimp only
  split
  · have hm := hu.modRegion fun g => { g with
      job := none, shadow := none, flight := false, state := if syncBit l.raw then 3 else 0,
      shown := if syncBit l.raw then some (g.show l) else none }
    rw [State.mendReads_clean (hm.spmSyn.trans hs)]
    exact ⟨hm.count .., congrArg Region.job ((State.region_modRegion h n key n key _).trans (if_pos ⟨rfl, rfl⟩))⟩
  · exact ⟨hu, hj⟩

/-! ### The tile leaves the queue -/

/-- An Ibex whose output queue no longer holds the tile of a pass. -/
def Ibex.piped (i : Ibex) (key : Nat) (p : Pass) : Ibex := { i with outq := i.outq.filter fun e => !(e.1 == key && e.2 == p) }

theorem Ibex.piped_ok {i : Ibex} (h : i.ok) (key : Nat) (p : Pass) : (i.piped key p).ok :=
  ⟨h.spm, h.spmSyn, h.acc, h.accSyn, h.slots, h.regions⟩

/-- From s to t the output pipe of Ibex n has written a tile and taken it off the queue. -/
structure State.Taken (s t : State) (n : IbexId) (key : Nat) (p : Pass) : Prop where
  inv : t.Inv
  outq : (t.ib n.val).outq = (s.ib n.val).outq.filter fun e => !(e.1 == key && e.2 == p)
  spmSyn : (t.ib n.val).spmSyn = (s.ib n.val).spmSyn
  region : ∀ j, t.region n.val j = s.region n.val j
  ibexes : s.IbexesBut t n.val
  rest : ∃ i r q, t = { s with ibex := i, regs := r, sch := { s.sch with queues := q } }

theorem State.Piped.taken {n : IbexId} (h : s.Piped t n) (key : Nat) (p : Pass) : s.Taken (t.modIb n.val (·.piped key p)) n key p := by
  obtain ⟨x, y, hib⟩ := h.ib
  have hi := State.ib_modIb_self h.inv n.val (·.piped key p)
  rw [hib] at hi
  refine ⟨State.modIb_inv h.inv n.val fun i hi => Ibex.piped_ok hi key p, by rw [hi]; rfl, by rw [hi]; rfl, fun j => ?_,
    fun m hm => (State.ibexesBut_modIb h.inv n.val _ m hm).trans (h.ibexes m hm), ?_⟩
  · rw [State.region, hi]
    rfl
  · obtain ⟨_, _, _, rfl⟩ := h.rest
    exact ⟨_, _, _, rfl⟩

/-- A tile's LAST pass is in flight no more once the pipe has it. -/
def Region.piped (g : Region) (p : Pass) : Region := { g with flight := g.flight && g.latest != some p }

/-- The output pipe takes a tile whose operands lie in a scratchpad without stored errors: its runs are written, then it leaves the
queue, and its region's job may be complete (R138, R193). -/
theorem State.outputOf_piped (h : s.Inv) {n : IbexId} {m : Mat} (hc : s.Clean n.val) (hm : m.InSpm) (key : Nat) (l : Loaded) (p : Pass) :
    ∃ t, s.Taken t n key p ∧ s.outputOf n.val key l m p = ((t.modRegion n.val key (·.piped p)).jobCheck n.val key, none) := by
  obtain ⟨t, ht, hp⟩ := ran_foldl (P := fun t => s.Piped t n) (f := fun t i => t.tileRow n.val l m p i)
    (l := List.range (m.rowsOf p)) (.refl h n) fun t i _ ht => ht.tileRow hc l hm p i
  obtain ⟨v, hv, hp⟩ := hp.tileDone hc l hm p
  refine ⟨_, hp.taken key p, ?_⟩
  unfold State.outputOf
  rw [ht]
  dsimp only
  rw [hv]
  rfl

/-- What the output of a tile leaves: its queue, its region's job, and the rest. -/
theorem State.outputOf_done (h : s.Inv) {n : IbexId} {m : Mat} (hc : s.Clean n.val) (hm : m.InSpm) (p : Pass)
    (hj : (s.region n.val key).job = some l) :
    ∃ u, s.outputOf n.val key l m p = (u, none) ∧ (u.ib n.val).outq = (s.ib n.val).outq.filter (fun e => !(e.1 == key && e.2 == p)) ∧
      (u.region n.val key).job =
        (if (s.region n.val key).passes.isEmpty && !((u.ib n.val).outq.any fun e => e.1 == key) then none else some l) ∧
      (∀ j, j ≠ key → u.region n.val j = s.region n.val j) ∧ s.IbexesBut u n.val ∧
      u = { s with ibex := u.ibex, regs := u.regs, sch := { s.sch with queues := u.sch.queues } } := by
  obtain ⟨t, ht, hu⟩ := State.outputOf_piped h hc hm key l p
  have hf := (State.RegionOnly.refl ht.inv n.val key).modRegion (·.piped p)
  have hfr : (t.modRegion n.val key (·.piped p)).region n.val key = (s.region n.val key).piped p := by
    rw [State.region_modRegion ht.inv, if_pos ⟨rfl, rfl⟩, ht.region]
  obtain ⟨hk, hjob⟩ := State.jobCheck_job hf.inv ((hf.spmSyn.trans ht.spmSyn).trans hc.spm) (by rw [hfr]; exact hj)
  refine ⟨_, hu, (hk.outq.trans hf.outq).trans ht.outq, ?_, fun j hj => ((hk.regions j hj).trans (hf.regions j hj)).trans (ht.region j),
    fun k hn => ((hk.ibexes k hn).trans (hf.ibexes k hn)).trans (ht.ibexes k hn), ?_⟩
  · rw [hjob, hk.outq, hfr]
    rfl
  · obtain ⟨_, _, _, rfl⟩ := ht.rest
    obtain ⟨_, _, hrf⟩ := hf.rest
    obtain ⟨_, _, hrk⟩ := hk.rest
    rw [hrk, hrf]

end Sys2Proof.Machine
end

section
/-! PROOF. The life of a pass (O15). -/

namespace Sys2Proof.Machine

variable {s : State} {n : IbexId} {q : Quarter} {key : Nat} {l : Loaded} {m : Mat} {p : Pass}

theorem execShadowLoad_next (hn : s.nextPass n.val q.val = some (key, l, m, p)) (hf : (s.region n.val key).shadow = none) {u : State}
    (hu : s.shadowOf n.val key l m p = (u, none)) : exec (.shadowLoad n q) s = .next u := by
  change execShadowLoad n q s = _
  unfold execShadowLoad
  rw [hn]
  dsimp only
  rw [hf, if_neg (by simp), hu]
  rfl

theorem execKnotIssue_next {held : Nat} (hn : s.nextPass n.val q.val = some (key, l, m, p)) (hh : s.knotHeld n.val key m p = false)
    (hr : ((s.ib n.val).ramp.ramping && (s.ib n.val).ramp.up) = false) (hl : held ≤ s.knotLimit n.val) {u : State}
    (hu : ((s.count (ibexReg n.val 1 0x50) held).endGap n.val l.ctx).knotOf n.val key l m p = (u, none)) :
    exec (.knotIssue n q held) s = .next u := by
  change execKnotIssue n q held s = _
  unfold execKnotIssue
  rw [hn]
  dsimp only
  rw [hh, hr, if_neg (by simp), if_neg (by omega), hu]
  rfl

theorem execOutputTile_next {rest : List (Nat × Pass)} (hq : (s.ib n.val).outq = (key, p) :: rest) (hj : (s.region n.val key).job = some l)
    (hm : l.mat = some m) {u : State} (hu : s.outputOf n.val key l m p = (u, none)) : exec (.outputTile n) s = .next u := by
  change execOutputTile n s = _
  unfold execOutputTile
  rw [hq]
  dsimp only
  rw [hj]
  dsimp only
  rw [hm]
  dsimp only
  rw [hu]
  rfl

/-- No entry of a region waits behind the head of the queue when every other one is of another region or of the same tile. -/
theorem tilesLeft_eq (key : Nat) (p : Pass) (rest : List (Nat × Pass)) :
    (!(((key, p) :: rest).filter fun e => !(e.1 == key && e.2 == p)).any fun e => e.1 == key) = rest.all fun e => e.1 != key || e.2 == p := by
  rw [List.filter_cons_of_neg (by simp), List.any_filter, List.not_any_eq_all_not]
  refine congrArg rest.all (funext fun e => ?_)
  cases h1 : e.1 == key <;> cases h2 : e.2 == p <;> simp [bne, h1]

/-- The region of a finished knot, and the others. -/
theorem State.KnotDone.region (h : s.Inv) {u : State} {held : Nat} {tiles : List (Nat × Pass)} (hd : s.KnotDone u n key l m p held tiles) (j : Nat) :
    u.region n.val j = if j = key then s.knotted n.val key l m p else s.region n.val j := by
  obtain ⟨a, ha⟩ := hd.ib
  rw [State.region, ha]
  exact Tbl.get_set (h.ib n.val).regions key j _

/-- Settles O15: a shadow load, a knot and an output tile whose operands can be read run to their ends. -/
theorem passesOfRegion : Obligations.PassesOfRegion := by
  unfold Obligations.PassesOfRegion
  intro s n q h
  refine ⟨fun key l t p hn => ⟨fun hf w rows hw hr => ?_, fun hc hl => ?_, fun held hsh hu hramp hlim hc hv => ?_⟩,
    fun key l t p rest hq hj hm hc hl => ?_⟩
  · obtain ⟨u, hu, hreg, hothers, hibs, hregs, hrest⟩ := State.shadowOf_loads h hw hr
    exact ⟨u, execShadowLoad_next hn hf hu, hreg, hothers, hibs, hregs, hrest⟩
  · have hm := Loaded.mat_inSpm hl (State.nextPass_some h hn).2
    exact ⟨State.loadTile_isSome hc.spm hm p, State.fetchRows_isSome hc.spm hm p⟩
  · obtain ⟨u, hk, hd⟩ := State.knotOf_done h hc held hv
    have hh : s.knotHeld n.val key t p = false := by
      unfold State.knotHeld
      rw [hu, ← Option.not_isSome, hsh]
      rfl
    obtain ⟨a, ha⟩ := hd.ib
    refine ⟨u, execKnotIssue_next hn hh hramp hlim hk, ?_, fun j hj => ?_, by rw [ha], by rw [ha]; rfl, hd.hold, hd.passes, hd.ibexes, ?_⟩
    · rw [hd.region h, if_pos rfl]; rfl
    · rw [hd.region h, if_neg hj]
    · obtain ⟨_, _, _, _, rfl⟩ := hd.rest
      rfl
  · obtain ⟨u, hu, hout, hjob, hothers, hibs, hrest⟩ := State.outputOf_done h hc (Loaded.mat_inSpm hl hm) p hj
    rw [hq] at hout
    rw [hout, tilesLeft_eq] at hjob
    exact ⟨u, execOutputTile_next hq hj hm hu, hout.trans (List.filter_cons_of_neg (by simp)), hjob, hothers, hibs, hrest⟩

end Sys2Proof.Machine
end

section
/-! PROOF. The visit order (R133): the curve goes through every cell of its square once. -/

namespace Sys2Proof.Machine

/-- The half of the square that a round of R133 puts the index in, by column. -/
def halfX (t : Nat) : Nat := t / 2 % 2

/-- The half by row. -/
def halfY (t : Nat) : Nat := (t ^^^ halfX t) % 2

theorem halfX_lt (t : Nat) : halfX t < 2 := Nat.mod_lt _ (by decide)

theorem halfY_lt (t : Nat) : halfY t < 2 := Nat.mod_lt _ (by decide)

/-- The low two bits of an index and the two halves of its round give each other. -/
theorem halves_mod (t : Nat) : halfX t = halfX (t % 4) ∧ halfY t = halfY (t % 4) := by
  have hx : halfX t = halfX (t % 4) := by unfold halfX; omega
  refine ⟨hx, ?_⟩
  unfold halfY
  rw [← hx, Nat.xor_mod_two_eq, Nat.xor_mod_two_eq]
  omega

theorem halves_inj {t t' : Nat} (hx : halfX t = halfX t') (hy : halfY t = halfY t') : t % 4 = t' % 4 := by
  have key : ∀ a < 4, ∀ b < 4, halfX a = halfX b → halfY a = halfY b → a = b := by decide
  rw [(halves_mod t).1, (halves_mod t').1] at hx
  rw [(halves_mod t).2, (halves_mod t').2] at hy
  exact key _ (Nat.mod_lt _ (by decide)) _ (Nat.mod_lt _ (by decide)) hx hy

theorem halves_surj {rx ry : Nat} (hx : rx < 2) (hy : ry < 2) : ∃ d < 4, halfX d = rx ∧ halfY d = ry := by
  have key : ∀ a < 2, ∀ b < 2, ∃ d < 4, halfX d = a ∧ halfY d = b := by decide
  exact key rx hx ry hy

/-- The turn of a round of R133, on a square of side s. -/
def quarterTurn (s t x y : Nat) : Nat × Nat :=
  if halfY t = 0 then (if halfX t = 1 then (s - 1 - y, s - 1 - x) else (y, x)) else (x, y)

theorem quarterTurn_lt {s t x y : Nat} (hx : x < s) (hy : y < s) : (quarterTurn s t x y).1 < s ∧ (quarterTurn s t x y).2 < s := by
  unfold quarterTurn
  split_ifs <;> constructor <;> dsimp only <;> omega

/-- A turn undoes itself. -/
theorem quarterTurn_twice {s t x y : Nat} (hx : x < s) (hy : y < s) : quarterTurn s t (quarterTurn s t x y).1 (quarterTurn s t x y).2 = (x, y) := by
  unfold quarterTurn
  split_ifs
  · exact Prod.ext (by dsimp only; omega) (by dsimp only; omega)
  · rfl
  · rfl

theorem quarterTurn_congr {s t t' x y : Nat} (hx : halfX t = halfX t') (hy : halfY t = halfY t') : quarterTurn s t x y = quarterTurn s t' x y := by
  unfold quarterTurn; rw [hx, hy]

theorem quarterTurn_inj {s t x y x' y' : Nat} (hx : x < s) (hy : y < s) (hx' : x' < s) (hy' : y' < s) (h : quarterTurn s t x y = quarterTurn s t x' y') :
    x = x' ∧ y = y' := by
  have e := quarterTurn_twice (t := t) hx hy
  rw [h, quarterTurn_twice hx' hy'] at e
  exact ⟨congrArg Prod.fst e.symm, congrArg Prod.snd e.symm⟩

/-- A round of R133. -/
theorem hilbert_succ (k s t x y : Nat) : hilbert (k + 1) s t x y =
    hilbert k (2 * s) (t / 4) ((quarterTurn s t x y).1 + s * halfX t) ((quarterTurn s t x y).2 + s * halfY t) := rfl

/-- A cell of one quarter of a square lies in the square. -/
theorem quarter_lt {a s h : Nat} (ha : a < s) (hh : h < 2) : a + s * h < 2 * s := by
  have := Nat.mul_le_mul_left s (Nat.le_of_lt_succ hh)
  omega

/-- The place of a cell gives its quarter and its place there. -/
theorem quarter_inj {a a' s h h' : Nat} (ha : a < s) (ha' : a' < s) (e : a + s * h = a' + s * h') : h = h' ∧ a = a' := by
  have hs : 0 < s := Nat.zero_lt_of_lt ha
  have hq := congrArg (· / s) e
  have hr := congrArg (· % s) e
  simp only [Nat.add_mul_div_left _ _ hs, Nat.div_eq_of_lt ha, Nat.div_eq_of_lt ha', Nat.zero_add] at hq
  simp only [Nat.add_mul_mod_self_left, Nat.mod_eq_of_lt ha, Nat.mod_eq_of_lt ha'] at hr
  exact ⟨hq, hr⟩

/-- Different indices, or different cells to start from, lead to different cells. -/
theorem hilbert_inj (k : Nat) {s t t' x y x' y' : Nat} (ht : t < 4 ^ k) (ht' : t' < 4 ^ k) (hx : x < s) (hy : y < s) (hx' : x' < s) (hy' : y' < s)
    (h : hilbert k s t x y = hilbert k s t' x' y') : t = t' ∧ x = x' ∧ y = y' := by
  induction k generalizing s t t' x y x' y' with
  | zero => exact ⟨by simp at ht ht'; omega, congrArg Prod.fst h, congrArg Prod.snd h⟩
  | succ k ih =>
    obtain ⟨h1, h2⟩ := quarterTurn_lt (t := t) hx hy
    obtain ⟨h1', h2'⟩ := quarterTurn_lt (t := t') hx' hy'
    rw [hilbert_succ, hilbert_succ] at h
    obtain ⟨hq, ex, ey⟩ := ih (by omega) (by omega) (quarter_lt h1 (halfX_lt t)) (quarter_lt h2 (halfY_lt t))
      (quarter_lt h1' (halfX_lt t')) (quarter_lt h2' (halfY_lt t')) h
    obtain ⟨hhx, e1⟩ := quarter_inj h1 h1' ex
    obtain ⟨hhy, e2⟩ := quarter_inj h2 h2' ey
    have hm := halves_inj hhx hhy
    rw [quarterTurn_congr hhx hhy] at e1 e2
    exact ⟨by omega, quarterTurn_inj hx hy hx' hy' (Prod.ext e1 e2)⟩

/-- Every cell of the square is reached. -/
theorem hilbert_surj (k : Nat) {s X Y : Nat} (hX : X < 2 ^ k * s) (hY : Y < 2 ^ k * s) :
    ∃ t x y, t < 4 ^ k ∧ x < s ∧ y < s ∧ hilbert k s t x y = (X, Y) := by
  induction k generalizing s with
  | zero => exact ⟨0, X, Y, by decide, by simpa using hX, by simpa using hY, rfl⟩
  | succ k ih =>
    rw [Nat.pow_succ, Nat.mul_assoc] at hX hY
    obtain ⟨q, u, v, hq, hu, hv, h⟩ := ih hX hY
    have hs : 0 < s := by omega
    obtain ⟨d, hd, hdx, hdy⟩ := halves_surj (Nat.div_lt_of_lt_mul (m := u) (n := s) (k := 2) (by omega))
      (Nat.div_lt_of_lt_mul (m := v) (n := s) (k := 2) (by omega))
    have hm : (4 * q + d) % 4 = d % 4 := by omega
    have ex : halfX (4 * q + d) = u / s := by rw [(halves_mod _).1, hm, ← (halves_mod d).1, hdx]
    have ey : halfY (4 * q + d) = v / s := by rw [(halves_mod _).2, hm, ← (halves_mod d).2, hdy]
    have hxs := Nat.mod_lt u hs
    have hys := Nat.mod_lt v hs
    obtain ⟨h1, h2⟩ := quarterTurn_lt (t := 4 * q + d) hxs hys
    refine ⟨4 * q + d, _, _, by rw [Nat.pow_succ]; omega, h1, h2, ?_⟩
    rw [hilbert_succ, quarterTurn_twice hxs hys, ex, ey, Nat.mod_add_div, Nat.mod_add_div, show (4 * q + d) / 4 = q by omega, h]

theorem le_two_pow_clog2 (n : Nat) : n ≤ 2 ^ clog2 n := by
  unfold clog2
  split
  · omega
  · have := Nat.lt_log2_self (n := n - 1)
    omega

/-- The cell of the square at an index, as (row, column) of the grid where it lies there (R133). -/
def cellAt (rows cols d : Nat) : Option (Nat × Nat) :=
  let c := hilbert (clog2 (max rows cols)) 1 d 0 0
  if c.1 < cols ∧ c.2 < rows then some (c.2, c.1) else none

theorem visitOrder_eq (rows cols : Nat) : visitOrder rows cols = (List.range (4 ^ clog2 (max rows cols))).filterMap (cellAt rows cols) := rfl

theorem cellAt_eq_some {rows cols d y x : Nat} :
    cellAt rows cols d = some (y, x) ↔ hilbert (clog2 (max rows cols)) 1 d 0 0 = (x, y) ∧ x < cols ∧ y < rows := by
  unfold cellAt
  dsimp only
  split
  · next h =>
    simp only [Option.some.injEq, Prod.ext_iff]
    constructor
    · rintro ⟨rfl, rfl⟩; exact ⟨⟨rfl, rfl⟩, h⟩
    · rintro ⟨⟨rfl, rfl⟩, -⟩; exact ⟨rfl, rfl⟩
  · next h =>
    simp only [reduceCtorEq, Prod.ext_iff, false_iff]
    rintro ⟨⟨rfl, rfl⟩, h'⟩; exact h h'

theorem mem_visitOrder {rows cols y x : Nat} : (y, x) ∈ visitOrder rows cols ↔ y < rows ∧ x < cols := by
  rw [visitOrder_eq, List.mem_filterMap]
  constructor
  · rintro ⟨d, -, hd⟩
    exact (cellAt_eq_some.1 hd).2.symm
  · rintro ⟨hy, hx⟩
    have hp := le_two_pow_clog2 (max rows cols)
    obtain ⟨d, a, b, hd, ha, hb, h⟩ := hilbert_surj (clog2 (max rows cols)) (s := 1) (X := x) (Y := y) (by omega) (by omega)
    obtain rfl : a = 0 := by omega
    obtain rfl : b = 0 := by omega
    exact ⟨d, List.mem_range.2 hd, cellAt_eq_some.2 ⟨h, hx, hy⟩⟩

theorem visitOrder_nodup (rows cols : Nat) : (visitOrder rows cols).Nodup := by
  rw [visitOrder_eq, List.Nodup, List.pairwise_filterMap]
  refine List.Pairwise.imp_of_mem (fun {d d'} hd hd' hne => ?_) List.nodup_range
  rintro ⟨y, x⟩ h ⟨y', x'⟩ h' e
  rw [← e] at h'
  have he := (cellAt_eq_some.1 h).1.trans (cellAt_eq_some.1 h').1.symm
  exact hne (hilbert_inj _ (List.mem_range.1 hd) (List.mem_range.1 hd') Nat.one_pos Nat.one_pos Nat.one_pos Nat.one_pos he).1

end Sys2Proof.Machine
end

section
/-! PROOF. The shares of the clusters and their passes (R99, R133, R135 to R137). -/

namespace Sys2Proof.Machine

/-! ### Shares -/

/-- An index lies in a range given by its first index and the index after its last. -/
def within (b : Nat × Nat) (i : Nat) : Prop := b.1 ≤ i ∧ i < b.2

/-- The cluster whose share holds an index is the quotient that the bounds of the shares round down from. -/
theorem within_share {c g n i : Nat} (hg : 0 < g) (hn : 0 < n) : within (share c g n) i ↔ ((i + 1) * g - 1) / n = c := by
  have hp : 0 < (i + 1) * g := Nat.mul_pos (Nat.succ_pos i) hg
  have lo : c * n / g ≤ i ↔ c * n < (i + 1) * g := by rw [← Nat.lt_succ_iff, Nat.div_lt_iff_lt_mul hg]
  have hi : i < (c + 1) * n / g ↔ (i + 1) * g ≤ c * n + n := by rw [← Nat.succ_le_iff, Nat.le_div_iff_mul_le hg, Nat.succ_mul c]
  rw [Nat.div_eq_iff hn, within, share, lo, hi]
  omega

/-- Every index lies in the share of one cluster (R135). -/
theorem exists_share {g n i : Nat} (hg : 0 < g) (hi : i < n) : ∃ c < g, within (share c g n) i ∧ ∀ c', within (share c' g n) i → c' = c := by
  have hn : 0 < n := Nat.zero_lt_of_lt hi
  refine ⟨((i + 1) * g - 1) / n, ?_, (within_share hg hn).2 rfl, fun c' h => ((within_share hg hn).1 h).symm⟩
  have hp : 0 < (i + 1) * g := Nat.mul_pos (Nat.succ_pos i) hg
  have hle : (i + 1) * g ≤ n * g := Nat.mul_le_mul_right g hi
  exact Nat.div_lt_of_lt_mul (by omega)

theorem share_le {c g : Nat} (hc : c < g) (n : Nat) : (share c g n).2 ≤ n := Nat.div_le_of_le_mul (Nat.mul_le_mul_right n hc)

theorem within_whole {n i : Nat} : within (0, n) i ↔ i < n := by simp [within]

/-! ### The passes of a cluster -/

variable (t : Mat) (rank g : Nat)

/-- Tile rows of a cluster. -/
def Mat.rowShare : Nat × Nat := if t.split = 1 ∧ t.win.isNone then share rank g t.trows else (0, t.trows)
/-- Tile columns of a cluster. -/
def Mat.colShare : Nat × Nat := if t.split = 0 then share rank g t.tcols else (0, t.tcols)
/-- K slices of a cluster. -/
def Mat.sliceShare : Nat × Nat := if t.split = 2 then share rank g t.slices else (0, t.slices)
/-- Parts of a slice (R99). -/
def Mat.parts : Nat := if t.shape = 5 then 3 else 1

/-- The pass of a tile with its place in the visit order, of a slice and of a part, all counted within the share. -/
def Mat.passOf (x : (((Nat × Nat) × Nat) × Nat) × Nat) : Pass :=
  { row := (t.rowShare rank g).1 + x.1.1.1.1, col := (t.colShare rank g).1 + x.1.1.1.2, slice := (t.sliceShare rank g).1 + x.1.2, part := x.2,
    ordinal := x.1.1.2, first := x.1.2 == 0 && x.2 == 0,
    last := x.1.2 + 1 == (t.sliceShare rank g).2 - (t.sliceShare rank g).1 && x.2 + 1 == t.parts }

/-- What a cluster's passes are made of. -/
def Mat.places : List ((((Nat × Nat) × Nat) × Nat) × Nat) :=
  List.product (List.product
    (visitOrder ((t.rowShare rank g).2 - (t.rowShare rank g).1) ((t.colShare rank g).2 - (t.colShare rank g).1)).zipIdx
    (List.range ((t.sliceShare rank g).2 - (t.sliceShare rank g).1))) (List.range t.parts)

theorem Mat.passes_eq : t.passes rank g = (t.places rank g).map (t.passOf rank g) := by
  have h : t.passes rank g =
      (visitOrder ((t.rowShare rank g).2 - (t.rowShare rank g).1) ((t.colShare rank g).2 - (t.colShare rank g).1)).zipIdx.flatMap fun x =>
        (List.range ((t.sliceShare rank g).2 - (t.sliceShare rank g).1)).flatMap fun i => (List.range t.parts).map fun p =>
          t.passOf rank g ((x, i), p) := rfl
  rw [h, Mat.places]
  simp only [List.product, List.map_flatMap, List.flatMap_assoc, List.flatMap_map, List.map_map, Function.comp_def]

variable {t rank g}

theorem Mat.mem_places {y x o k part : Nat} : ((((y, x), o), k), part) ∈ t.places rank g ↔
    (visitOrder ((t.rowShare rank g).2 - (t.rowShare rank g).1) ((t.colShare rank g).2 - (t.colShare rank g).1))[o]? = some (y, x) ∧
      k < (t.sliceShare rank g).2 - (t.sliceShare rank g).1 ∧ part < t.parts := by
  rw [Mat.places, List.pair_mem_product, List.pair_mem_product, List.mem_range, List.mem_range, List.mk_mem_zipIdx_iff_getElem?, and_assoc]

theorem Mat.places_nodup : (t.places rank g).Nodup :=
  ((List.Nodup.of_map Prod.snd (List.nodup_zipIdx_map_snd _)).product List.nodup_range).product List.nodup_range

/-- A tile stands at one place of the visit order. -/
theorem visitOrder_index {rows cols o o' : Nat} {c : Nat × Nat} (h : (visitOrder rows cols)[o]? = some c)
    (h' : (visitOrder rows cols)[o']? = some c) : o = o' := by
  obtain ⟨ho, h⟩ := List.getElem?_eq_some_iff.1 h
  obtain ⟨ho', h'⟩ := List.getElem?_eq_some_iff.1 h'
  exact (visitOrder_nodup rows cols).getElem_inj_iff.1 (h.trans h'.symm)

/-- A pass is known from its tile, slice and part. -/
theorem Mat.passOf_inj {x x' : (((Nat × Nat) × Nat) × Nat) × Nat} (hx : x ∈ t.places rank g) (hx' : x' ∈ t.places rank g)
    (h : ((t.passOf rank g x).row, (t.passOf rank g x).col, (t.passOf rank g x).slice, (t.passOf rank g x).part) =
      ((t.passOf rank g x').row, (t.passOf rank g x').col, (t.passOf rank g x').slice, (t.passOf rank g x').part)) : x = x' := by
  obtain ⟨⟨⟨⟨y, x⟩, o⟩, k⟩, part⟩ := x
  obtain ⟨⟨⟨⟨y', x'⟩, o'⟩, k'⟩, part'⟩ := x'
  simp only [Mat.passOf, Prod.mk.injEq, Nat.add_left_cancel_iff] at h
  obtain ⟨rfl, rfl, rfl, rfl⟩ := h
  rw [visitOrder_index (Mat.mem_places.1 hx).1 (Mat.mem_places.1 hx').1]

theorem Mat.passes_nodup : (t.passes rank g).Nodup := by
  rw [Mat.passes_eq]
  exact List.Nodup.map_on (fun x hx x' hx' e => Mat.passOf_inj hx hx' (by rw [e])) Mat.places_nodup

theorem Mat.pass_unique {p p' : Pass} (hp : p ∈ t.passes rank g) (hp' : p' ∈ t.passes rank g)
    (h : (p.row, p.col, p.slice, p.part) = (p'.row, p'.col, p'.slice, p'.part)) : p = p' := by
  rw [Mat.passes_eq, List.mem_map] at hp hp'
  obtain ⟨x, hx, rfl⟩ := hp
  obtain ⟨x', hx', rfl⟩ := hp'
  rw [Mat.passOf_inj hx hx' h]

/-- The bounds that a share puts on the places of its passes. -/
theorem Mat.pass_within {p : Pass} (hp : p ∈ t.passes rank g) :
    within (t.rowShare rank g) p.row ∧ within (t.colShare rank g) p.col ∧ within (t.sliceShare rank g) p.slice ∧ p.part < t.parts := by
  rw [Mat.passes_eq, List.mem_map] at hp
  obtain ⟨⟨⟨⟨⟨y, x⟩, o⟩, k⟩, part⟩, hx, rfl⟩ := hp
  obtain ⟨ho, hk, hp⟩ := Mat.mem_places.1 hx
  obtain ⟨hy, hx⟩ := mem_visitOrder.1 (List.mem_of_getElem? ho)
  unfold within Mat.passOf
  dsimp only
  omega

/-- Every place within a share has its pass. -/
theorem Mat.exists_pass {y x k part : Nat} (hy : within (t.rowShare rank g) y) (hx : within (t.colShare rank g) x)
    (hk : within (t.sliceShare rank g) k) (hp : part < t.parts) :
    ∃ p ∈ t.passes rank g, (p.row, p.col, p.slice, p.part) = (y, x, k, part) := by
  unfold within at hy hx hk
  obtain ⟨o, ho⟩ := List.mem_iff_getElem?.1 (mem_visitOrder (rows := (t.rowShare rank g).2 - (t.rowShare rank g).1)
    (cols := (t.colShare rank g).2 - (t.colShare rank g).1) (y := y - (t.rowShare rank g).1) (x := x - (t.colShare rank g).1) |>.2 (by omega))
  refine ⟨t.passOf rank g ((((y - (t.rowShare rank g).1, x - (t.colShare rank g).1), o), k - (t.sliceShare rank g).1), part), ?_, ?_⟩
  · rw [Mat.passes_eq]
    exact List.mem_map_of_mem (Mat.mem_places.2 ⟨ho, by omega, hp⟩)
  · simp only [Mat.passOf, Nat.add_sub_cancel' hy.1, Nat.add_sub_cancel' hx.1, Nat.add_sub_cancel' hk.1]

/-- What lies within the shares of a cluster lies in the grid. -/
theorem Mat.within_grid (hr : rank < g) {y x k : Nat} (hy : within (t.rowShare rank g) y) (hx : within (t.colShare rank g) x)
    (hk : within (t.sliceShare rank g) k) : y < t.trows ∧ x < t.tcols ∧ k < t.slices := by
  have le {c : Prop} [Decidable c] (n : Nat) {i : Nat} (h : within (if c then share rank g n else (0, n)) i) : i < n := by
    split at h
    · exact h.2.trans_le (share_le hr n)
    · exact h.2
  exact ⟨le _ hy, le _ hx, le _ hk⟩

/-- A product is split in one dimension at most, so one cluster has the tile and slice (R135, R137). -/
theorem Mat.exists_rank (hg : 0 < g) (hs : t.split ≤ 2) (hw : t.split = 1 → t.win = none) {y x k : Nat} (hy : y < t.trows) (hx : x < t.tcols)
    (hk : k < t.slices) : ∃ rank < g, (within (t.rowShare rank g) y ∧ within (t.colShare rank g) x ∧ within (t.sliceShare rank g) k) ∧
      ∀ rank', within (t.rowShare rank' g) y → within (t.colShare rank' g) x → within (t.sliceShare rank' g) k → rank' = rank := by
  unfold Mat.rowShare Mat.colShare Mat.sliceShare
  rcases (by omega : t.split = 0 ∨ t.split = 1 ∨ t.split = 2) with h | h | h
  · obtain ⟨c, hc, hin, hun⟩ := exists_share hg hx
    exact ⟨c, hc, by simpa [h, within_whole] using ⟨hy, hin, hk⟩, by simpa [h] using fun c' _ hx' _ => hun c' hx'⟩
  · obtain ⟨c, hc, hin, hun⟩ := exists_share hg hy
    exact ⟨c, hc, by simpa [h, hw h, within_whole] using ⟨hin, hx, hk⟩, by simpa [h, hw h] using fun c' hy' _ _ => hun c' hy'⟩
  · obtain ⟨c, hc, hin, hun⟩ := exists_share hg hk
    exact ⟨c, hc, by simpa [h, within_whole] using ⟨hy, hx, hin⟩, by simpa [h] using fun c' _ _ hk' => hun c' hk'⟩

/-- Settles O18: the curve visits each cell of its square once, and each tile and slice lies in the share of one cluster. -/
theorem everyPassRunsOnce : Obligations.EveryPassRunsOnce := by
  unfold Obligations.EveryPassRunsOnce
  refine ⟨fun rows cols => ⟨visitOrder_nodup rows cols, fun y x => mem_visitOrder⟩, fun t g hg hs hw => ⟨fun y x k part hy hx hk hp => ?_, fun rank hr =>
    ⟨Mat.passes_nodup, fun p hp => ?_⟩⟩⟩
  · obtain ⟨rank, hr, ⟨hiy, hix, hik⟩, hun⟩ := Mat.exists_rank hg hs hw hy hx hk
    obtain ⟨p, hm, he⟩ := Mat.exists_pass hiy hix hik hp
    refine ⟨rank, p, hr, hm, he, fun rank' p' _ hm' he' => ?_⟩
    obtain ⟨hy', hx', hk', -⟩ := Mat.pass_within hm'
    cases he'
    obtain rfl := hun rank' hy' hx' hk'
    exact ⟨rfl, Mat.pass_unique hm' hm he.symm⟩
  · obtain ⟨hy, hx, hk, hpart⟩ := Mat.pass_within hp
    obtain ⟨hy, hx, hk⟩ := Mat.within_grid hr hy hx hk
    exact ⟨hy, hx, hk, hpart⟩

end Sys2Proof.Machine
end

section
/-! PROOF. Tables whose entries are all changed in place, and what such a change does to the regions of an Ibex (R138, R147, R148). -/

namespace Sys2Proof.Machine

/-- A key that is not listed reads as the default. -/
theorem Tbl.get_unlisted {α : Type} {d : α} {t : Tbl α} {k : Nat} (h : ∀ e ∈ t, e.1 ≠ k) : Tbl.get d t k = d := by
  induction t with
  | nil => rfl
  | cons e t ih =>
    rw [Tbl.get, if_neg (h e (List.mem_cons_self ..)).symm, ih fun x hx => h x (List.mem_cons_of_mem _ hx), ite_self]

section tables
variable {α : Type} [DecidableEq α] {d : α} {f : α → α} {F : Tbl α → Nat × α → Tbl α}

/-- Entries changed in turn: the listed keys take their new values, the others stand. -/
theorem Tbl.get_foldl_entries (hF : ∀ u e, F u e = Tbl.set d u e.1 (f e.2) ∨ F u e = u ∧ f e.2 = e.2) {l : Tbl α}
    (hl : l.Pairwise fun a b => a.1 < b.1) {u : Tbl α} (hu : Tbl.ok d u) (hlu : ∀ e ∈ l, Tbl.get d u e.1 = e.2) (k : Nat) :
    Tbl.get d (l.foldl F u) k = if ∃ e ∈ l, e.1 = k then f (Tbl.get d u k) else Tbl.get d u k := by
  induction l generalizing u with
  | nil => simp
  | cons e l ih =>
    rw [List.pairwise_cons] at hl
    have he := hlu e (List.mem_cons_self ..)
    have hok : Tbl.ok d (F u e) := by
      rcases hF u e with h | ⟨h, -⟩ <;> rw [h]
      · exact Tbl.ok_set hu
      · exact hu
    have hself : Tbl.get d (F u e) e.1 = f (Tbl.get d u e.1) := by
      rcases hF u e with h | ⟨h, hf⟩ <;> rw [h, he]
      · rw [Tbl.get_set hu, if_pos rfl]
      · exact hf.symm
    have hne {j : Nat} (hj : j ≠ e.1) : Tbl.get d (F u e) j = Tbl.get d u j := by
      rcases hF u e with h | ⟨h, -⟩ <;> rw [h]
      rw [Tbl.get_set hu, if_neg hj]
    rw [List.foldl_cons, ih hl.2 hok fun x hx => (hne (hl.1 x hx).ne').trans (hlu x (List.mem_cons_of_mem _ hx))]
    by_cases hk : k = e.1
    · subst hk
      have hnot : ¬ ∃ x ∈ l, x.1 = e.1 := fun ⟨x, hx, e'⟩ => (hl.1 x hx).ne' e'
      simp [hnot, hself]
    · simp only [hne hk, List.exists_mem_cons_iff, Ne.symm hk, false_or]

/-- A table whose entries have all been changed by a function that keeps the default. -/
theorem Tbl.get_foldl (hF : ∀ u e, F u e = Tbl.set d u e.1 (f e.2) ∨ F u e = u ∧ f e.2 = e.2) (hd : f d = d) {t : Tbl α} (ht : Tbl.ok d t)
    (k : Nat) : Tbl.get d (t.foldl F t) k = f (Tbl.get d t k) := by
  have hp := Tbl.canon_pairwise ht
  rw [Tbl.get_foldl_entries hF hp ht (fun e he => Tbl.get_of_mem hp he)]
  split
  · rfl
  · next h => rw [Tbl.get_unlisted (fun e he hk => h ⟨e, he, hk⟩), hd]

end tables

/-! ### Regions -/

/-- Region k of an Ibex. -/
def Ibex.region (i : Ibex) (k : Nat) : Region := Tbl.get {} i.regions k

theorem State.region_eq (s : State) (n k : Nat) : s.region n k = (s.ib n).region k := rfl

/-- A region that runs nothing and shows one of the quarters. -/
def Region.showsAny (g : Region) (qs : List Nat) : Bool :=
  g.job.isNone && (match g.shown with | some x => x.quarters.any qs.contains | none => false)

/-- A region that runs nothing and showed one of the quarters shows it no more. -/
def Region.unshow (g : Region) (qs : List Nat) : Region := if g.showsAny qs then { g with state := 0, shown := none } else g

theorem Region.unshow_cases (g : Region) (qs : List Nat) : g.unshow qs = g ∨ g.unshow qs = { g with state := 0, shown := none } := by
  unfold Region.unshow
  split
  · exact .inr rfl
  · exact .inl rfl

theorem Ibex.region_unshow {i : Ibex} (h : i.ok) (qs : List Nat) (k : Nat) : (i.unshow qs).region k = (i.region k).unshow qs := by
  refine Tbl.get_foldl (f := (·.unshow qs)) (fun u e => ?_) rfl h.regions k
  unfold Region.unshow
  by_cases hc : e.2.showsAny qs = true
  · exact .inl ((if_pos hc).trans (by rw [if_pos hc]))
  · exact .inr ⟨if_neg hc, if_neg hc⟩

end Sys2Proof.Machine
end

section
/-! PROOF. INSTRUCTION_LOAD, and the start of a product in its region (R131, R132, R134, R144, R145, R147). -/

namespace Sys2Proof.Machine

variable {s t u : State} {n : Nat}

/-! ### The fetch -/

/-- A rank that runs, with nothing loaded, nothing to resume and no wide variant, takes the instruction at its index (R144). -/
theorem State.loadNext_running {q rank cycles : Nat} {st : Step} {r : Rank} (hr : s.rankOf n = some (q, st, rank, r)) (hs : st.stop = false)
    (hw : r.wait = .none) (hst : r.stopped = false) (he : r.ended = false) (hc : (s.ib n).cur = none) (hwide : r.wideEnd = 0) :
    s.loadNext n cycles = (s.modRank q rank fun r => { r with cycles := r.cycles + cycles }).loadAt n := by
  unfold State.loadNext
  rw [hr]
  dsimp only
  rw [if_neg (by simp [hs, hw, hst, he, hc]), if_neg (by simp [hwide])]

/-- Outside a layer and a wide variant the instruction at the index is read and checked (R145). -/
theorem State.loadAt_plain {q rank : Nat} {st : Step} {r : Rank} {raw : List Byte} (hr : s.rankOf n = some (q, st, rank, r)) (hres : r.resume = [])
    (hl : r.layer = []) (hwide : r.wideEnd = 0) (hpc : r.pc < (st.variants.getD (Nat.log2 st.ranks.length) (0, 0)).2)
    (hm : s.memRead (s.ctx st.ctx 0x07 + (st.variants.getD (Nat.log2 st.ranks.length) (0, 0)).1 + 64 * r.pc) 64 = some raw) :
    s.loadAt n = s.loadChecked n q st rank r.pc (st.variants.getD (Nat.log2 st.ranks.length) (0, 0)).2 false raw := by
  unfold State.loadAt
  rw [hr]
  dsimp only
  rw [hres]
  dsimp only
  rw [if_neg (by omega), hm]
  dsimp only
  rw [if_pos (by simp [hl]), hwide]
  rfl

/-- An instruction that passes its checks is loaded (R145). -/
theorem State.loadChecked_ok {q rank idx len : Nat} {st : Step} {wide : Bool} {raw : List Byte} {c : Checked}
    (h : s.checkIns ⟨n, st.ctx⟩ st rank idx len wide raw = .ok c) :
    s.loadChecked n q st rank idx len wide raw = s.modIb n fun i => { i with cur := some {
      queue := q, rank := rank, g := st.ranks.length, ctx := st.ctx, idx := idx, raw := raw, descs := c.descs, opset := c.opset,
      stripe := c.stripe, reads := c.reads, writes := c.writes } } := by
  unfold State.loadChecked
  rw [h]

/-! ### What staging touches -/

/-- From s to t, of the Ibex clusters only the scratchpad of Ibex n and its used marks have changed. -/
structure State.Staged (s t : State) (n : Nat) : Prop where
  inv : t.Inv
  ib : ∃ x y z, t.ib n = { s.ib n with spm := x, spmSyn := y, slots := z }
  ibexes : s.IbexesBut t n

theorem State.Staged.refl (h : s.Inv) (n : Nat) : s.Staged s n := ⟨h, ⟨_, _, _, rfl⟩, fun _ _ => rfl⟩

/-- A change outside the Ibex clusters. -/
theorem State.Staged.same (h : s.Staged t n) (hi : u.Inv) (he : u.ibex = t.ibex) : s.Staged u n := by
  have hib (m : Nat) : u.ib m = t.ib m := by unfold State.ib; rw [he]
  exact ⟨hi, by rw [hib]; exact h.ib, fun m hm => (hib m).trans (h.ibexes m hm)⟩

theorem State.Staged.countEntry (h : s.Staged t n) (i j k : Nat) : s.Staged (t.countEntry i j k) n := h.same (State.countEntry_inv h.inv i j k) rfl

theorem State.Staged.modIb (h : s.Staged t n) {f : Ibex → Ibex} (hi : (t.modIb n f).Inv)
    (hf : ∀ i : Ibex, ∃ x y z, f i = { i with spm := x, spmSyn := y, slots := z }) : s.Staged (t.modIb n f) n := by
  refine ⟨hi, ?_, fun m hm => (State.ibexesBut_modIb h.inv n f m hm).trans (h.ibexes m hm)⟩
  obtain ⟨x, y, z, hf⟩ := hf (t.ib n)
  obtain ⟨_, _, _, ht⟩ := h.ib
  exact ⟨x, y, z, by rw [State.ib_modIb_self h.inv, hf, ht]⟩

theorem State.Staged.mendSpm (h : s.Staged t n) (rs : List (Nat × Nat)) : s.Staged (t.mendSpm n rs) n := by
  refine foldl_all (P := fun u => s.Staged u n) h fun u w hu => ?_
  split
  · refine (hu.countEntry ..).modIb (State.modIb_inv (hu.countEntry ..).inv n fun i hi => ?_) fun i => ⟨_, _, _, rfl⟩
    exact ⟨Tbl.ok_setList hi.spm, Tbl.ok_set hi.spmSyn, hi.acc, hi.accSyn, hi.slots, hi.regions⟩
  · exact hu

theorem State.Staged.flipSpm (h : s.Staged t n) (w k : Nat) : s.Staged (t.flipSpm n w k) n := by
  have hi := (State.flipSpm_keep t n w k (Kept.refl t)).inv h.inv
  unfold State.flipSpm at hi ⊢
  split
  · next hc =>
    rw [if_pos hc] at hi
    exact (h.same (u := t.flipDone) ((State.flipDone_keep t (Kept.refl t)).inv h.inv) rfl).modIb hi fun i => ⟨_, _, _, rfl⟩
  · exact h

theorem State.Staged.spmWrite (h : s.Staged t n) (x : Nat) (bs : List Byte) : s.Staged (t.spmWrite n x bs) n := by
  unfold State.spmWrite
  split
  · exact h
  · extract_lets w0 k edges v lost w
    have hv : s.Staged v n := by
      unfold v
      split
      · exact h
      · exact h.mendSpm _
    have hw : s.Staged w n := foldl_all (P := fun u => s.Staged u n) hv fun u _ hu => hu.countEntry ..
    refine State.Staged.flipSpm (hw.modIb (State.modIb_inv hw.inv n fun i hi => ?_) fun i => ⟨_, _, _, rfl⟩) _ _
    exact ⟨Tbl.ok_setList hi.spm, Tbl.ok_foldl (Tbl.ok_clear hi.spmSyn) fun _ _ h => Tbl.ok_set h, hi.acc, hi.accSyn, hi.slots, hi.regions⟩

theorem State.Staged.markUsed (h : s.Staged t n) (c x k : Nat) : s.Staged (t.markUsed ⟨n, c⟩ x k) n :=
  h.modIb ((State.markUsed_keep t ⟨n, c⟩ x k (Kept.refl t)).inv h.inv) fun _ => ⟨_, _, _, rfl⟩

/-- The staging area takes what the walker stages there (R131). -/
theorem State.stage2_staged (h : s.Inv) (n c : Nat) (raw : List Byte) : s.Staged (s.stage2 ⟨n, c⟩ raw) n := by
  have hf : s.Staged (s.freshBytes (stageSpan raw).len).2 n :=
    (State.Staged.refl h n).same ((State.freshBytes_keep s _ (Kept.refl s)).inv h) rfl
  unfold State.stage2
  extract_lets p
  split
  split
  · exact .refl h n
  · next bs t ht hp =>
    rw [show t = (s.freshBytes (stageSpan raw).len).2 by rw [ht]]
    unfold State.tWrite
    split
    · exact hf
    · exact (hf.spmWrite _ _).markUsed _ _ _

/-! ### The start of a product -/

/-- A product that may start is the one that the walker holds. -/
theorem State.matrixOf_mat {op : Nat} {l : Loaded} {r : Rank} {m : Mat} (h : s.matrixOf n op = some (l, r, m)) : l.mat = some m := by
  obtain ⟨l', -, h⟩ := Option.bind_eq_some_iff.1 h
  obtain ⟨x, -, h⟩ := Option.bind_eq_some_iff.1 h
  obtain ⟨t, ht, h⟩ := Option.bind_eq_some_iff.1 h
  obtain ⟨-, h⟩ := Option.ite_none_right_eq_some.1 h
  cases h
  exact ht

/-- The walker passes a product: no region shows a meeting of it (R138). -/
theorem State.passCur_mat {l : Loaded} {m : Mat} (hm : l.mat = some m) :
    s.passCur n l = (s.modIb n fun i => { i with cur := none }).modRank l.queue l.rank fun r =>
      { r with pc := l.idx + 1, wait := (if syncBit l.raw then .sync else .none), done := 0, sorting := {}, stands := (opcode l.raw, l.idx) } := by
  unfold State.passCur
  rw [hm, Option.isNone_some, Bool.and_false]
  rfl

/-- A region that has taken a product with passes (R132). -/
def Region.taken (g : Region) (l : Loaded) (ps : List Pass) : Region :=
  { g with job := some l, passes := ps, shadow := none, latest := none, flight := false, nextRows := [], rows := [], state := 2 }

/-- A product enters its region; other regions may show its quarters no more. -/
theorem State.takeJob_region (h : s.Inv) (n : Nat) (l : Loaded) (m : Mat) (ps : List Pass) :
    (∀ k, (s.takeJob n l m ps).region n k = if k = regionKey m.shape m.region then ((s.region n k).unshow l.quarters).taken l ps
      else (s.region n k).unshow l.quarters) ∧ ((s.takeJob n l m ps).ib n).cur = (s.ib n).cur ∧ s.IbexesBut (s.takeJob n l m ps) n := by
  have hs : s.Staged (s.stage2 (l.acc1 n) l.raw) n := State.stage2_staged h n l.ctx l.raw
  obtain ⟨x, y, z, hib⟩ := hs.ib
  have hreg (k : Nat) : (s.stage2 (l.acc1 n) l.raw).region n k = s.region n k := by rw [State.region_eq, hib]; rfl
  have hcur : ((s.stage2 (l.acc1 n) l.raw).ib n).cur = (s.ib n).cur := by rw [hib]
  have hi : ((s.stage2 (l.acc1 n) l.raw).modIb n fun i => i.unshow l.quarters).Inv := State.modIb_inv hs.inv n fun _ hi => Ibex.unshow_ok hi
  have hu (k : Nat) : ((s.stage2 (l.acc1 n) l.raw).modIb n fun i => i.unshow l.quarters).region n k = (s.region n k).unshow l.quarters := by
    rw [State.region_eq, State.ib_modIb_self hs.inv, Ibex.region_unshow (hs.inv.ib n)]
    exact congrArg (·.unshow l.quarters) (hreg k)
  refine ⟨fun k => ?_, ?_, fun m hm => ?_⟩
  · refine (State.region_modRegion hi n _ n k _).trans ?_
    by_cases hk : k = regionKey m.shape m.region
    · rw [if_pos ⟨rfl, hk⟩, if_pos hk, hk, hu]; rfl
    · rw [if_neg (fun e => hk e.2), if_neg hk, hu]
  · unfold State.takeJob
    rw [State.ib_modRegion hi, State.ib_modIb_self hs.inv]
    exact hcur
  · exact ((State.ibexesBut_modRegion hi n _ _ m hm).trans (State.ibexesBut_modIb hs.inv n _ m hm)).trans (hs.ibexes m hm)

/-- MM and WCONV with nothing to resume (R132, R135). -/
theorem State.runMatrix_new {op : Nat} {l : Loaded} {r : Rank} {m : Mat} (hm : s.matrixOf n op = some (l, r, m)) (hr : r.resume = []) :
    s.runMatrix n op = if (m.passes l.rank l.g).isEmpty then (s.passCur n l).instrDone n
      else (s.passCur n l).takeJob n l m (m.passes l.rank l.g) := by
  unfold State.runMatrix
  rw [hm]
  dsimp only
  rw [hr]

/-- What the region of a started product holds, and what else has changed (R132, R134, R147). -/
theorem State.startMatrix (h : s.Inv) {l : Loaded} {m : Mat} (hm : l.mat = some m) (ps : List Pass) :
    let u := (s.passCur n l).takeJob n l m ps
    u.region n (regionKey m.shape m.region) = { (s.region n (regionKey m.shape m.region)).taken l ps with
      shown := (u.region n (regionKey m.shape m.region)).shown } ∧
    (∀ k, k ≠ regionKey m.shape m.region → u.region n k = s.region n k ∨ u.region n k = { s.region n k with state := 0, shown := none }) ∧
    (u.ib n).cur = none ∧ s.IbexesBut u n := by
  intro u
  have hp : (s.passCur n l).Inv := (State.passCur_keep s n l (Kept.refl s)).inv h
  have hib (j : Nat) : (s.passCur n l).ib j = if j = n then { s.ib n with cur := none } else s.ib j := by
    rw [State.passCur_mat hm]; exact State.ib_modIb h n j (fun i => { i with cur := none })
  have hreg (k : Nat) : (s.passCur n l).region n k = s.region n k := by rw [State.region_eq, hib, if_pos rfl]; rfl
  obtain ⟨hr, hc, hb⟩ := State.takeJob_region hp n l m ps
  refine ⟨?_, fun k hk => ?_, hc.trans (by rw [hib, if_pos rfl]), fun j hj => (hb j hj).trans (by rw [hib, if_neg hj])⟩
  · unfold u
    rw [hr, if_pos rfl, hreg]
    obtain e | e := Region.unshow_cases (s.region n (regionKey m.shape m.region)) l.quarters <;> rw [e]
    rfl
  · unfold u
    rw [hr, if_neg hk, hreg]
    exact Region.unshow_cases _ _

/-- Settles O20: the fetch reads, checks and loads; a product with passes enters its region, one without is passed. -/
theorem walkerLoadsAndStarts : Obligations.WalkerLoadsAndStarts := by
  unfold Obligations.WalkerLoadsAndStarts
  refine ⟨fun s n cycles q rank st st' r r' raw c hr hs hw hst he hc hwide hr' hres hl hwide' hpc hm hck => ?_,
    fun s n op i l r t h hop hm hr => ?_⟩
  · refine congrArg Host.Outcome.next ?_
    rw [State.loadNext_running hr hs hw hst he hc hwide, State.loadAt_plain hr' hres hl hwide' hpc hm, State.loadChecked_ok hck]
  · have hex : exec i s = .next (s.runMatrix n.val op) := by
      rcases List.mem_pair.1 hop with e | e <;> cases e <;> rfl
    rw [hex, State.runMatrix_new hm hr]
    refine ⟨fun ps hps hne => ?_, fun hps => ?_⟩
    · subst hps
      rw [if_neg (by simpa using hne)]
      exact ⟨_, rfl, State.startMatrix h (State.matrixOf_mat hm) _⟩
    · rw [hps, List.isEmpty_nil, if_pos rfl]

end Sys2Proof.Machine
end

section
/-! PROOF. What the walker of an Ibex moves when it passes an instruction: its own regions, its rank and its counter (R138). -/

namespace Sys2Proof.Machine

variable {s t u : State} {n q : Nat} {ks : List Nat}

/-! ### Ranks of an open step -/

/-- A step with one rank changed. -/
def Step.modRank (st : Step) (r : Nat) (f : Rank → Rank) : Step := { st with ranks := st.ranks.modify r f }

theorem Step.modRank_modRank (st : Step) (r : Nat) (f g : Rank → Rank) : (st.modRank r f).modRank r g = st.modRank r (g ∘ f) := by
  unfold Step.modRank
  rw [List.modify_modify_eq]

theorem State.held_modStep (h : s.Inv) (q : Nat) (f : Step → Step) : ((s.modStep q f).queue q).held = (s.queue q).held.map f := by
  rw [State.queue_modStep h, if_pos rfl]

theorem State.queuesBut_modStep (h : s.Inv) (q : Nat) (f : Step → Step) : s.QueuesBut (s.modStep q f) q := fun p hp => by
  rw [State.queue_modStep h, if_neg hp]

theorem State.modRank_inv (h : s.Inv) (q r : Nat) (f : Rank → Rank) : (s.modRank q r f).Inv := State.modStep_inv h q _

theorem State.held_modRank (h : s.Inv) (q r : Nat) (f : Rank → Rank) :
    ((s.modRank q r f).queue q).held = (s.queue q).held.map (·.modRank r f) := State.held_modStep h q _

/-! ### Moves of one walker -/

/-- From s to t only Ibex n, the open step of queue q and registers of a list have changed. -/
structure State.Walked (s t : State) (n q : Nat) (ks : List Nat) : Prop where
  inv : t.Inv
  regs : s.RegsBut t ks
  ibexes : s.IbexesBut t n
  queues : s.QueuesBut t q
  rest : ∃ i r x, t = { s with ibex := i, regs := r, sch := { s.sch with queues := x } }

theorem State.Walked.refl (h : s.Inv) (n q : Nat) (ks : List Nat) : s.Walked s n q ks :=
  ⟨h, fun _ _ => rfl, fun _ _ => rfl, fun _ _ => rfl, _, _, _, rfl⟩

/-- The parts that may differ, named by the later state. -/
theorem State.Walked.rest_eq (h : s.Walked t n q ks) : t = { s with ibex := t.ibex, regs := t.regs, sch := { s.sch with queues := t.sch.queues } } := by
  obtain ⟨_, _, _, rfl⟩ := h.rest
  rfl

theorem State.Walked.setReg (h : s.Walked t n q ks) {k : Nat} (hk : k ∈ ks) (v : W64) : s.Walked (t.setReg k v) n q ks := by
  refine ⟨State.setReg_inv h.inv k v, fun j hj => ?_, h.ibexes, h.queues, ?_⟩
  · rw [State.reg_setReg_ne h.inv (fun e => hj (by rw [e]; exact hk))]
    exact h.regs j hj
  · obtain ⟨_, _, _, rfl⟩ := h.rest
    exact ⟨_, _, _, rfl⟩

theorem State.Walked.count (h : s.Walked t n q ks) {k : Nat} (hk : k ∈ ks) (c : Nat) : s.Walked (t.count k c) n q ks := h.setReg hk _

theorem State.Walked.modIb (h : s.Walked t n q ks) {f : Ibex → Ibex} (hi : (t.modIb n f).Inv) : s.Walked (t.modIb n f) n q ks := by
  refine ⟨hi, h.regs, fun m hm => (State.ibexesBut_modIb h.inv n f m hm).trans (h.ibexes m hm), h.queues, ?_⟩
  obtain ⟨_, _, _, rfl⟩ := h.rest
  exact ⟨_, _, _, rfl⟩

theorem State.Walked.modStep (h : s.Walked t n q ks) (f : Step → Step) : s.Walked (t.modStep q f) n q ks := by
  refine ⟨State.modStep_inv h.inv q f, h.regs, h.ibexes, fun p hp => (State.queuesBut_modStep h.inv q f p hp).trans (h.queues p hp), ?_⟩
  obtain ⟨_, _, _, rfl⟩ := h.rest
  exact ⟨_, _, _, rfl⟩

theorem State.Walked.modRank (h : s.Walked t n q ks) (r : Nat) (f : Rank → Rank) : s.Walked (t.modRank q r f) n q ks := h.modStep _

/-! ### The next instruction is due -/

/-- A region that waits at the meeting of an instruction outside the Braid. -/
def Region.meets (g : Region) (l : Loaded) (q : Nat) : Region :=
  { g with state := 3, shown := some { opcode := opcode l.raw, ctx := l.ctx, idx := l.idx, slice := 0, ordinal := 0, quarters := [q] } }

/-- Regions of Ibex n alone have changed, and those of state 3 stayed so. -/
structure State.Meeting (s t : State) (n : Nat) : Prop where
  inv : t.Inv
  ib : ∃ x, t.ib n = { s.ib n with regions := x }
  ibexes : s.IbexesBut t n
  met : ∀ k, (s.region n k).state = 3 → (t.region n k).state = 3
  rest : ∃ i, t = { s with ibex := i }

theorem State.Meeting.refl (h : s.Inv) (n : Nat) : s.Meeting s n := ⟨h, ⟨_, rfl⟩, fun _ _ => rfl, fun _ h => h, _, rfl⟩

theorem State.Meeting.meets (h : s.Meeting t n) (l : Loaded) (k : Nat) : s.Meeting (t.modRegion n k (·.meets l k)) n := by
  refine ⟨State.modRegion_inv h.inv n k _, ?_, fun m hm => (State.ibexesBut_modRegion h.inv n k _ m hm).trans (h.ibexes m hm), fun j hj => ?_, ?_⟩
  · obtain ⟨x, hx⟩ := h.ib
    exact ⟨_, (State.ib_modRegion h.inv n k _).trans (by rw [hx])⟩
  · rw [State.region_modRegion h.inv]
    split
    · rfl
    · exact h.met j hj
  · obtain ⟨_, rfl⟩ := h.rest
    exact ⟨_, rfl⟩

theorem State.meets_foldl (l : Loaded) (qs : List Nat) (h : s.Meeting t n) :
    s.Meeting (qs.foldl (fun u k => u.modRegion n k (·.meets l k)) t) n ∧
    ∀ k ∈ qs, ((qs.foldl (fun u k => u.modRegion n k (·.meets l k)) t).region n k).state = 3 := by
  induction qs generalizing s t with
  | nil => exact ⟨h, by simp⟩
  | cons k qs ih =>
    obtain ⟨h1, -⟩ := ih (h.meets l k)
    obtain ⟨hself, hqs⟩ := ih (State.Meeting.refl (h.meets l k).inv n)
    refine ⟨h1, List.forall_mem_cons.2 ⟨hself.met k ?_, hqs⟩⟩
    rw [State.region_modRegion h.inv, if_pos ⟨rfl, rfl⟩]
    rfl

/-- Where SYNC is 1, the quarters without a job show that they wait (R147). -/
theorem State.syncShow_meeting (h : s.Inv) (n : Nat) (l : Loaded) :
    s.Meeting (s.syncShow n l) n ∧ ∀ k < 4, s.jobAt n k = none → ((s.syncShow n l).region n k).state = 3 := by
  obtain ⟨hm, hq⟩ := State.meets_foldl l ((List.range 4).filter fun q => (s.jobAt n q).isNone) (State.Meeting.refl h n)
  exact ⟨hm, fun k hk hj => hq k (List.mem_filter.2 ⟨List.mem_range.2 hk, by rw [hj]; rfl⟩)⟩

/-- A rank whose walker has passed an instruction (R138). -/
def Rank.passed (r : Rank) (l : Loaded) : Rank :=
  { r with pc := l.idx + 1, wait := (if syncBit l.raw then .sync else .none), done := 0, sorting := {}, stands := (opcode l.raw, l.idx) }

/-- The meeting that an instruction outside the Braid shows. -/
def State.shownMeeting (s : State) (n : Nat) (l : Loaded) : State := if syncBit l.raw && l.mat.isNone then s.syncShow n l else s

theorem State.passCur_eq (s : State) (n : Nat) (l : Loaded) : s.passCur n l =
    ((s.shownMeeting n l).modIb n fun i => { i with cur := none }).modRank l.queue l.rank (·.passed l) := rfl

theorem State.shownMeeting_meeting (h : s.Inv) (n : Nat) (l : Loaded) : s.Meeting (s.shownMeeting n l) n := by
  unfold State.shownMeeting
  split
  · exact (State.syncShow_meeting h n l).1
  · exact .refl h n

/-- What passing an instruction changes (R138). -/
structure State.Passed (s t : State) (n : Nat) (l : Loaded) (ks : List Nat) (f : Rank → Rank) : Prop extends State.Walked s t n l.queue ks where
  ib : ∃ x, t.ib n = { s.ib n with cur := none, regions := x }
  held : (t.queue l.queue).held = (s.queue l.queue).held.map (·.modRank l.rank f)

theorem State.Passed.cur {l : Loaded} {f : Rank → Rank} (h : s.Passed t n l ks f) : (t.ib n).cur = none := by
  obtain ⟨_, hi⟩ := h.ib
  rw [hi]

theorem State.passCur_passed (h : s.Inv) (n : Nat) (l : Loaded) (ks : List Nat) : s.Passed (s.passCur n l) n l ks (·.passed l) := by
  obtain ⟨hinv, ⟨x, hib⟩, hibs, -, i, hrest⟩ := State.shownMeeting_meeting h n l
  have hc : ((s.shownMeeting n l).modIb n fun i => { i with cur := none }).Inv :=
    State.modIb_inv hinv n fun _ hi => ⟨hi.spm, hi.spmSyn, hi.acc, hi.accSyn, hi.slots, hi.regions⟩
  have hq (p : Nat) : ((s.shownMeeting n l).modIb n fun i => { i with cur := none }).queue p = s.queue p := by rw [hrest]; rfl
  have hw : s.Walked (s.shownMeeting n l) n l.queue ks :=
    ⟨hinv, fun j _ => by rw [hrest]; rfl, hibs, fun p _ => by rw [hrest]; rfl, i, s.regs, s.sch.queues, hrest⟩
  rw [State.passCur_eq]
  refine ⟨(hw.modIb hc).modRank l.rank _, ⟨x, ?_⟩, ?_⟩
  · exact (State.ib_modIb_self hinv n fun i => { i with cur := none }).trans (by rw [hib])
  · rw [State.held_modRank hc, hq]

/-- A register written after an instruction has been passed. -/
theorem State.Passed.setReg {l : Loaded} {f : Rank → Rank} (h : s.Passed t n l ks f) {k : Nat} (hk : k ∈ ks) (v : W64) :
    s.Passed (t.setReg k v) n l ks f := ⟨h.toWalked.setReg hk v, h.ib, h.held⟩

theorem State.Passed.count {l : Loaded} {f : Rank → Rank} (h : s.Passed t n l ks f) {k : Nat} (hk : k ∈ ks) (c : Nat) :
    s.Passed (t.count k c) n l ks f := h.setReg hk _

/-- The rank changes once more. -/
theorem State.Passed.modRank {l : Loaded} {f : Rank → Rank} (h : s.Passed t n l ks f) (g : Rank → Rank) :
    s.Passed (t.modRank l.queue l.rank g) n l ks (g ∘ f) := by
  refine ⟨h.toWalked.modRank l.rank g, h.ib, ?_⟩
  rw [State.held_modRank h.inv, h.held, Option.map_map]
  exact Option.map_congr fun st _ => st.modRank_modRank l.rank f g

/-- WLK_INSTR_DONE advances by one. -/
theorem State.reg_instrDone (h : s.Walked t n q ks) (hk : ibexReg n 2 0x50 ∉ ks) :
    (t.instrDone n).reg (ibexReg n 2 0x50) = s.reg (ibexReg n 2 0x50) + 1 := by
  unfold State.instrDone
  rw [State.reg_count h.inv, if_pos rfl, h.regs _ hk]
  rfl

end Sys2Proof.Machine
end

section
/-! PROOF. LAYER, and END of a rank (R204, R205, R207, R349). -/

namespace Sys2Proof.Machine

variable {s t u : State} {n q : Nat} {l : Loaded} {st : Step} {r : Rank}

/-! ### LAYER -/

/-- The count of the layer in force, and the count of instructions done. -/
def layerRegs (n : Nat) : List Nat := [ibexReg n 4 8, ibexReg n 2 0x50]

theorem layerRegs_ne (n : Nat) : ibexReg n 4 8 ≠ ibexReg n 2 0x50 := by unfold ibexReg; omega

/-- A rank that has passed LAYER, before the walker turns to a wide variant (R204). -/
def Rank.inLayer (r : Rank) (l : Loaded) : Rank := { (r.passed l) with layer := l.opset, layerNo := insF l.raw 2 2, sat := 0 }

/-- A rank that has passed LAYER: under ALWAYS it enters the wide variant at once (R207). -/
def Rank.entered (r : Rank) (l : Loaded) : Rank := if layPolicy l.opset = 2 then (r.inLayer l).enterWide else r.inLayer l

/-- The state after LAYER, before the walker turns to a wide variant. -/
def State.layerIn (s : State) (n : Nat) (l : Loaded) : State :=
  (((s.passCur n l).modRank l.queue l.rank fun r => { r with layer := l.opset, layerNo := insF l.raw 2 2, sat := 0 }).setReg (ibexReg n 4 8) 0).instrDone n

theorem execLayer_next {n : IbexId} (hc : s.curOf n.val 0x02 = some (l, st, r)) (hj : s.jobs n.val = []) : exec (.layer n) s =
    .next (if layPolicy l.opset = 2 then (s.layerIn n.val l).modRank l.queue l.rank Rank.enterWide else s.layerIn n.val l) := by
  change execLayer n s = _
  unfold execLayer
  rw [hc, hj]
  rfl

theorem State.layerIn_passed (h : s.Inv) (n : Nat) (l : Loaded) : s.Passed (s.layerIn n l) n l (layerRegs n) (·.inLayer l) :=
  (((State.passCur_passed h n l (layerRegs n)).modRank _).setReg (List.mem_cons_self ..) 0).count (List.mem_cons_of_mem _ (List.mem_cons_self ..)) 1

theorem State.reg_layerIn (h : s.Inv) (n : Nat) (l : Loaded) : (s.layerIn n l).reg (ibexReg n 4 8) = 0 ∧
    (s.layerIn n l).reg (ibexReg n 2 0x50) = s.reg (ibexReg n 2 0x50) + 1 := by
  have hp := (State.passCur_passed h n l [ibexReg n 4 8]).modRank fun r => { r with layer := l.opset, layerNo := insF l.raw 2 2, sat := 0 }
  refine ⟨?_, State.reg_instrDone (hp.setReg (List.mem_singleton_self _) 0).toWalked fun h => layerRegs_ne n (List.mem_singleton.1 h).symm⟩
  unfold State.layerIn State.instrDone
  rw [State.reg_count (State.setReg_inv hp.inv _ _), if_neg (layerRegs_ne n), State.reg_setReg_self hp.inv]

/-- LAYER brings the record into force with a count of zero (R204, R205, R207). -/
theorem execLayer_leaves (h : s.Inv) {n : IbexId} (hc : s.curOf n.val 0x02 = some (l, st, r)) (hj : s.jobs n.val = []) :
    ∃ t, exec (.layer n) s = .next t ∧ t.reg (ibexReg n.val 4 8) = 0 ∧
      t.reg (ibexReg n.val 2 0x50) = s.reg (ibexReg n.val 2 0x50) + 1 ∧ s.Passed t n.val l (layerRegs n.val) (·.entered l) := by
  have hp := State.layerIn_passed h n.val l
  obtain ⟨h0, h1⟩ := State.reg_layerIn h n.val l
  refine ⟨_, execLayer_next hc hj, ?_⟩
  unfold Rank.entered
  by_cases hl : layPolicy l.opset = 2
  · simp only [if_pos hl]
    exact ⟨h0, h1, hp.modRank Rank.enterWide⟩
  · simp only [if_neg hl]
    exact ⟨h0, h1, hp⟩

/-! ### END -/

/-- A rank that has ended (R349). -/
def Rank.over (r : Rank) (l : Loaded) (cycles : Nat) : Rank := { (r.passed l) with ended := true, cycles := r.cycles + cycles }

/-- The state after END of a rank, before its step may end. -/
def State.rankEnds (s : State) (n : Nat) (l : Loaded) (cycles : Nat) : State :=
  ((s.passCur n l).modRank l.queue l.rank fun r => { r with ended := true, cycles := r.cycles + cycles }).instrDone n

theorem State.rankEnds_passed (h : s.Inv) (n : Nat) (l : Loaded) (cycles : Nat) :
    s.Passed (s.rankEnds n l cycles) n l [ibexReg n 2 0x50] (·.over l cycles) :=
  ((State.passCur_passed h n l _).modRank _).count (List.mem_singleton_self _) 1

theorem State.reg_rankEnds (h : s.Inv) (n : Nat) (l : Loaded) (cycles : Nat) :
    (s.rankEnds n l cycles).reg (ibexReg n 2 0x50) = s.reg (ibexReg n 2 0x50) + 1 :=
  State.reg_instrDone ((State.passCur_passed h n l []).modRank _).toWalked List.not_mem_nil

theorem execEndStep_next {n : IbexId} {cycles : Nat} (hc : s.curOf n.val 0x01 = some (l, st, r)) (hj : s.jobs n.val = []) {x : Step}
    (hx : ((s.rankEnds n.val l cycles).queue l.queue).held = some x) : exec (.endStep n cycles) s =
    .next (if x.ranks.all (·.ended) then (s.rankEnds n.val l cycles).stepEnds n.val l.queue x else s.rankEnds n.val l cycles) := by
  change execEndStep n cycles s = _
  unfold execEndStep
  rw [hc, hj]
  unfold State.rankEnds at hx ⊢
  dsimp only
  rw [if_neg (by simp), hx]
  exact (apply_ite Host.Outcome.next ..).symm

end Sys2Proof.Machine
end

section
/-! PROOF. The end of a step leaves its queue empty and its context's count of steps as END wrote it: no operation on the way writes that
count, and none opens a step in a queue that holds none (R349). -/

namespace Sys2Proof.Machine

variable {s t : State} {gone : Prop} {q c v : Nat}

/-- The step of an open queue, as the list of open steps has it. -/
theorem State.openSteps_held (h : s.Inv) {x : Nat × Step} (hx : x ∈ s.openSteps) : (s.queue x.1).held = some x.2 := by
  obtain ⟨e, he, hs⟩ := List.mem_filterMap.1 hx
  obtain ⟨st, hst, rfl⟩ := Option.map_eq_some_iff.1 hs
  rw [State.queue, Tbl.get_of_mem (Tbl.canon_pairwise h.queues) he, hst]

/-- Context c has counted v steps, and queue q holds no step where `gone` says so. -/
structure State.Settled (s : State) (gone : Prop) (q c v : Nat) : Prop where
  inv : s.Inv
  steps : s.ctx c 0x21 = v
  vacant : gone → (s.queue q).held = none

namespace State.Settled

/-! ### Single writes -/

theorem same (h : s.Settled gone q c v) (hi : t.Inv) (hd : t.dict = s.dict) (hq : t.sch.queues = s.sch.queues) : t.Settled gone q c v := by
  refine ⟨hi, ?_, fun hg => ?_⟩
  · have := h.steps
    unfold State.ctx State.entry at this ⊢
    rwa [hd]
  · have := h.vacant hg
    unfold State.queue at this ⊢
    rwa [hq]

theorem setEntry (h : s.Settled gone q c v) (i : Nat) {j : Nat} (hj : j % 256 ≠ 0x21) (x : Nat) : (s.setEntry i j x).Settled gone q c v := by
  refine ⟨State.setEntry_inv h.inv i j x, ?_, h.vacant⟩
  rw [State.ctx, State.entry_setEntry h.inv, if_neg]
  · exact h.steps
  · unfold dkey
    omega

theorem countEntry (h : s.Settled gone q c v) (i : Nat) {j : Nat} (hj : j % 256 ≠ 0x21) (x : Nat) : (s.countEntry i j x).Settled gone q c v :=
  h.setEntry i hj _

theorem setQueue (h : s.Settled gone q c v) {p : Nat} {x : Queue} (hp : gone → p = q → x.held = none) : (s.setQueue p x).Settled gone q c v := by
  refine ⟨State.setQueue_inv h.inv p x, h.steps, fun hg => ?_⟩
  rw [State.queue_setQueue h.inv]
  split
  · next e => exact hp hg e.symm
  · exact h.vacant hg

theorem setStep (h : s.Settled gone q c v) {p : Nat} (hp : gone → p ≠ q) (x : Option Step) : (s.setStep p x).Settled gone q c v :=
  h.setQueue fun hg e => absurd e (hp hg)

theorem setReg (h : s.Settled gone q c v) (k : Nat) (x : W64) : (s.setReg k x).Settled gone q c v := h.same (State.setReg_inv h.inv k x) rfl rfl

theorem count (h : s.Settled gone q c v) (k x : Nat) : (s.count k x).Settled gone q c v := h.setReg k _

theorem freshWord (h : s.Settled gone q c v) : s.freshWord.2.Settled gone q c v := h.same ((State.freshWord_keep s (Kept.refl s)).inv h.inv) rfl rfl

theorem countFree (h : s.Settled gone q c v) (k : Nat) : (s.countFree k).Settled gone q c v := h.freshWord.count k _

theorem modIb (h : s.Settled gone q c v) (n : Nat) {f : Ibex → Ibex} (hf : ∀ i, i.ok → (f i).ok) : (s.modIb n f).Settled gone q c v :=
  h.same (State.modIb_inv h.inv n hf) rfl rfl

theorem modStream (h : s.Settled gone q c v) (n : Nat) (f : Stream → Stream) : (s.modStream n f).Settled gone q c v :=
  h.same (State.modStream_inv h.inv n f) rfl rfl

theorem setHitch (h : s.Settled gone q c v) (k : Nat) (x : Hitch) : (s.setHitch k x).Settled gone q c v :=
  h.same (State.setHitch_inv h.inv k x) rfl rfl

theorem setCtxSt (h : s.Settled gone q c v) (k : Nat) (x : CtxSt) : (s.setCtxSt k x).Settled gone q c v :=
  h.same (State.setCtxSt_inv h.inv k x) rfl rfl

theorem setBuf (h : s.Settled gone q c v) (n k : Nat) (b : Buf) : (s.setBuf n k b).Settled gone q c v :=
  h.same (State.setBuf_inv h.inv n k b) rfl rfl

theorem flipDone (h : s.Settled gone q c v) : s.flipDone.Settled gone q c v := (h.setReg _ _).setReg _ _

/-- A list of open steps gone through, none of them of the empty queue. -/
theorem foldl_open {α : Type} (h : s.Settled gone q c v) {f : State → α → State} {l : List α}
    (hf : ∀ u x, x ∈ l → u.Settled gone q c v → (f u x).Settled gone q c v) : (l.foldl f s).Settled gone q c v :=
  List.foldlRecOn (motive := fun u => u.Settled gone q c v) l f h fun _ hu _ hx => hf _ _ hx hu

theorem ne_of_open (h : s.Settled gone q c v) {x : Nat × Step} (hx : x ∈ s.openSteps) (hg : gone) : x.1 ≠ q := by
  intro e
  have := State.openSteps_held h.inv hx
  rw [e, h.vacant hg] at this
  cases this

theorem ne_of_held (h : s.Settled gone q c v) {p : Nat} {st : Step} (hx : (s.queue p).held = some st) (hg : gone) : p ≠ q := by
  intro e
  rw [e, h.vacant hg] at hx
  cases hx

/-! ### What leaves through the host port -/

theorem serveWaits (ws : List Wait) : ∀ {s : State} (kept : List Wait) (stuck : List Nat) (blocked : Bool),
    (s.serveWaits kept stuck blocked ws).dict = s.dict ∧ (s.serveWaits kept stuck blocked ws).sch = s.sch := by
  induction ws with
  | nil => exact fun _ _ _ => ⟨rfl, rfl⟩
  | cons w ws ih =>
    intro s kept stuck blocked
    have hask : (s.askXlate w.out.fnOf w.out).dict = s.dict ∧ (s.askXlate w.out.fnOf w.out).sch = s.sch := by
      unfold State.askXlate
      split <;> exact ⟨rfl, rfl⟩
    have htake (t : State) : (t.takeOff w.out.fnOf w.out).dict = t.dict ∧ (t.takeOff w.out.fnOf w.out).sch = t.sch := by
      unfold State.takeOff
      split <;> exact ⟨rfl, rfl⟩
    have hleave (t : State) (ht : s.leave w.out.fnOf w.out = some t) : t.dict = s.dict ∧ t.sch = s.sch := by
      unfold State.leave at ht
      split at ht
      · cases ht; exact ⟨rfl, rfl⟩
      · split_ifs at ht
        · cases ht; exact ⟨rfl, rfl⟩
        · cases ht; exact ⟨rfl, rfl⟩
        · obtain ⟨_, -, rfl⟩ := Option.map_eq_some_iff.1 ht
          exact ⟨rfl, rfl⟩
    unfold State.serveWaits
    dsimp only
    split_ifs
    · exact ih _ _ _
    · exact ih _ _ _
    · split
      · next t ht =>
        obtain ⟨hd, hs⟩ := hleave t ht
        obtain ⟨hd', hs'⟩ := htake t
        exact ⟨(ih ..).1.trans (hd'.trans hd), (ih ..).2.trans (hs'.trans hs)⟩
      · exact ⟨(ih ..).1.trans hask.1, (ih ..).2.trans hask.2⟩

theorem issue (h : s.Settled gone q c v) (o : Out) (wb : WriteBack) : (s.issue o wb).Settled gone q c v :=
  h.same ((State.issue_keep s o wb (Kept.refl s)).inv h.inv) (serveWaits ..).1 (congrArg Sched.queues (serveWaits ..).2)

theorem msix (h : s.Settled gone q c v) (k n : Nat) : (s.msix k n).Settled gone q c v := by
  unfold State.msix
  split
  · exact h.issue ..
  · exact h.same (State.modFn_inv h.inv ..) rfl rfl

theorem coalesce (h : s.Settled gone q c v) (n : Nat) : (s.coalesce n).Settled gone q c v := by
  unfold State.coalesce
  split
  · exact h
  · dsimp only
    split
    · exact (h.msix ..).modStream ..
    · exact h.modStream ..

theorem placeRecord (h : s.Settled gone q c v) (n : Nat) (rec : List Byte) (closing : Bool) : (s.placeRecord n rec closing).Settled gone q c v := by
  unfold State.placeRecord
  extract_lets tail lg phase u w x
  have hw : w.Settled gone q c v := (h.issue ..).setReg ..
  split
  · refine State.Settled.coalesce ?_ n
    unfold x
    split
    · exact hw
    · exact hw.issue ..
  · exact hw

theorem logDev (h : s.Settled gone q c v) (code : W16) (kind obj : Nat) : (s.logDev code kind obj).Settled gone q c v := by
  have hu : (if 64 ≤ s.log.length then s.countEntry 0x6000 3 1 else s).Settled gone q c v := by
    split
    · exact h.countEntry _ (by decide) 1
    · exact h
  exact (hu.setEntry 0x6000 (j := 1) (by decide) _).same ((State.logDev_keep s code kind obj (Kept.refl s)).inv h.inv) rfl rfl

/-! ### Closing records -/

theorem putClosing (h : s.Settled gone q c v) (n ib : Nat) (rec : List Byte) : (s.putClosing n ib rec).Settled gone q c v := by
  unfold State.putClosing
  split_ifs
  · exact (h.modStream ..).placeRecord ..
  · exact (h.modStream ..).modStream ..
  · exact h
  · have hl := ((h.count (ibexReg ib 5 0x68) 1).setEntry (0x2000 + n) (j := 0x1D) (by decide) Code.SCL_RING_OVERRUN.toNat).logDev Code.SCL_RING_OVERRUN 1 n
    dsimp only
    split
    · exact hl.setEntry _ (by decide) _
    · exact hl

theorem closeAll (h : s.Settled gone q c v) (own : Bool) (st : Step) (kind : Nat) (status : W16) (keep : Bool) :
    (s.closeAll own st kind status keep).Settled gone q c v := by
  refine foldl_all (P := fun u => State.Settled u gone q c v) h fun u x hu => ?_
  dsimp only
  split_ifs
  · exact hu
  · exact hu.putClosing ..
  · exact hu.putClosing ..

theorem swapLists (h : s.Settled gone q c v) (st : Step) : (s.swapLists st).Settled gone q c v := by
  refine foldl_all (P := fun u => State.Settled u gone q c v) h fun u x hu => ?_
  split
  · exact hu.modStream ..
  · exact hu

end State.Settled

end Sys2Proof.Machine
end

section
/-! PROOF. The end of a step, continued: buffers, hitches, placement (R348, R349, R354, R365, R368). -/

namespace Sys2Proof.Machine

variable {s t : State} {gone : Prop} {q c v : Nat}

namespace State.Settled

/-! ### Buffers -/

theorem tryPool (h : s.Settled gone q c v) {o n k : Nat} {spilled : Bool} (hn : n < 8) (ht : s.tryPool o n spilled = some (t, k)) :
    t.Settled gone q c v := by
  unfold State.tryPool at ht
  dsimp only at ht
  obtain ⟨-, ht⟩ := Option.ite_none_right_eq_some.1 ht
  cases ht
  refine (State.Settled.countEntry ?_ _ (by omega) 1).setBuf ..
  split
  · exact h.countEntry _ (by omega) 1
  · exact h

theorem coilGrant (h : s.Settled gone q c v) {o bytes m k : Nat} (ht : s.coilGrant o bytes = some (t, m, k)) : t.Settled gone q c v := by
  unfold State.coilGrant at ht
  dsimp only at ht
  obtain ⟨hn, ht⟩ := Option.ite_none_left_eq_some.1 ht
  split at ht
  · next hp =>
    cases ht
    exact h.tryPool (by omega) hp
  · obtain ⟨hc, ht⟩ := Option.ite_none_left_eq_some.1 ht
    obtain ⟨⟨u, j⟩, hp, he⟩ := Option.map_eq_some_iff.1 ht
    cases he
    refine h.tryPool ?_ hp
    rw [Bool.or_eq_true, decide_eq_true_eq, decide_eq_true_eq, not_or] at hc
    omega

theorem serveWaiters (h : s.Settled gone q c v) (n : Nat) : (s.serveWaiters n).Settled gone q c v := by
  refine foldl_all (P := fun u => State.Settled u gone q c v) h fun u w hu => ?_
  split
  · next t m k ht =>
    have hg := hu.coilGrant ht
    have hw : State.Settled { t with coil := { t.coil with waiters := t.coil.waiters.erase w } } gone q c v :=
      hg.same { hg.inv with coil := ⟨hg.inv.coil.buffers, hg.inv.coil.bases, hg.inv.coil.bufs, hg.inv.coil.resv⟩ } rfl rfl
    dsimp only
    split
    · exact hw.setBuf ..
    · exact hw
  · exact hu

theorem freeBuf (h : s.Settled gone q c v) (n k : Nat) : (s.freeBuf n k).Settled gone q c v := by
  unfold State.freeBuf
  refine (State.Settled.setBuf ?_ ..).serveWaiters n
  split
  · unfold State.allocDone
    split
    · exact h.setReg ..
    · exact h
  · exact h

/-! ### What a step holds -/

theorem unholdAll (h : s.Settled gone q c v) (st : Step) : (s.unholdAll st).Settled gone q c v := by
  refine foldl_all (P := fun u => State.Settled u gone q c v) h fun u sl hu => ?_
  split
  · exact foldl_all (P := fun u => State.Settled u gone q c v) ((hu.modStream ..).modStream ..) fun w f hw => hw.freeBuf ..
  · exact hu

theorem endLoans (h : s.Settled gone q c v) (p : Loan → Bool) : (s.endLoans p).Settled gone q c v := by
  refine foldl_all (P := fun u => State.Settled u gone q c v) h fun u e hu => ?_
  split
  · exact hu.setCtxSt ..
  · exact hu

theorem withdrawWait (h : s.Settled gone q c v) (p : Nat) (st : Step) : (s.withdrawWait p st).Settled gone q c v := by
  unfold State.withdrawWait
  split
  · exact h
  · dsimp only
    split
    · exact h.setHitch ..
    · exact (h.setHitch ..).endLoans _

theorem stopPre (h : s.Settled gone q c v) (e k : Nat) : (s.stopPre e k).Settled gone q c v :=
  ((h.freshWord.count (preBase + 0x20 + 8 * e) s.freshWord.1.toNat).setCtxSt k _).same
    ((State.stopPre_keep s e k (Kept.refl s)).inv h.inv) rfl rfl

theorem abandonItems (h : s.Settled gone q c v) (p : Nat) (st : Step) (which : Nat → Bool) :
    (s.abandonItems p st which).Settled gone q c v :=
  State.Settled.count (foldl_all (P := fun u => State.Settled u gone q c v) h fun _ _ hu => hu.stopPre ..) ..

/-! ### The Ibex clusters that a step leaves -/

theorem gapEnds (h : s.Settled gone q c v) (n : Nat) : (s.gapEnds n).Settled gone q c v := by
  obtain ⟨u, hd, e⟩ := State.gapEnds_next h.inv n
  have hu : u.Settled gone q c v := by
    obtain ⟨_, _, _, rfl⟩ := hd.rest
    exact h.same hd.inv rfl rfl
  rcases e with e | e <;> rw [e]
  · exact hu
  · exact hu.modIb n fun _ hi => ⟨hi.spm, hi.spmSyn, hi.acc, hi.accSyn, hi.slots, hi.regions⟩

theorem charge (h : s.Settled gone q c v) (k cycles : Nat) : (s.charge k cycles).Settled gone q c v := by
  unfold State.charge
  extract_lets p w num charged payer paid spender spent last
  have hs : spent.Settled gone q c v := ((h.setEntry _ (j := 0x1E) (by decide) _).setCtxSt ..).setCtxSt ..
  exact hs.same { hs.inv with ctxs := hs.inv.ctxs } rfl rfl

theorem leaveIbexes (h : s.Settled gone q c v) (st : Step) (sure : Option Nat) : (s.leaveIbexes st sure).Settled gone q c v := by
  unfold State.leaveIbexes
  split
  · refine foldl_all (P := fun u => State.Settled u gone q c v) h fun u r hu => ?_
    dsimp only
    split
    · exact ((hu.charge ..).gapEnds _).modIb _ fun _ => Ibex.stop_ok
    · exact ((hu.freshWord.charge ..).gapEnds _).modIb _ fun _ => Ibex.stop_ok
  · exact h

theorem tally (h : s.Settled gone q c v) (st : Step) : (s.tally st).Settled gone q c v := by
  unfold State.tally
  extract_lets u w
  have hu : u.Settled gone q c v := by
    unfold u
    split
    · exact h.countEntry _ (by decide) _
    · exact h
  have hw : w.Settled gone q c v := by
    unfold w
    split
    · exact hu.countEntry _ (by decide) _
    · exact hu
  split
  · exact hw
  · exact hw.freshWord.countEntry _ (by decide) _

end State.Settled

end Sys2Proof.Machine
end

section
/-! PROOF. The end of a step, continued: hitches and placement (R348, R349, R354 to R356, R365 to R368). -/

namespace Sys2Proof.Machine

variable {s t : State} {gone : Prop} {q c v : Nat}

/-- An element picked by going through a list is one of it. -/
theorem mem_foldl_pick {α : Type} (p : α → α → Prop) [DecidableRel p] (x : α) (xs : List α) : xs.foldl (fun b y => if p b y then y else b) x ∈ x :: xs := by
  refine List.foldlRecOn (motive := (· ∈ x :: xs)) xs _ (List.mem_cons_self ..) fun b hb y hy => ?_
  split
  · exact List.mem_cons_of_mem x hy
  · exact hb

namespace State.Settled

/-! ### Hitches -/

theorem raiseVt (h : s.Settled gone q c v) (k : Nat) : (s.raiseVt k).Settled gone q c v := by
  unfold State.raiseVt
  extract_lets act ref
  split
  · exact h
  · split
    · exact h.setEntry _ (by decide) _
    · exact h

theorem leaveIdle (h : s.Settled gone q c v) : s.leaveIdle.Settled gone q c v := by
  unfold State.leaveIdle
  split
  · exact foldl_all (P := fun u => State.Settled u gone q c v) (h.setEntry _ (by decide) _) fun _ n hu =>
      hu.modIb n fun _ hi => ⟨hi.spm, hi.spmSyn, hi.acc, hi.accSyn, hi.slots, hi.regions⟩
  · exact h

theorem hitchDone (h : s.Settled gone q c v) (rs : List Rank) (on : Bool) : (s.hitchDone rs on).Settled gone q c v := by
  refine foldl_all (P := fun u => State.Settled u gone q c v) h fun u r hu => ?_
  split_ifs
  · refine State.Settled.count ?_ ..
    exact hu.modIb _ fun _ hi => ⟨hi.spm, hi.spmSyn, hi.acc, hi.accSyn, hi.slots, hi.regions⟩
  · exact hu.count ..
  · exact hu

theorem serveLoop (k fuel : Nat) {s : State} (h : s.Settled gone q c v) : (s.serveLoop k fuel).Settled gone q c v := by
  induction fuel generalizing s with
  | zero => exact h
  | succ fuel ih =>
    unfold State.serveLoop
    dsimp only
    split
    · exact h
    · next w ws _ =>
      split
      · exact h
      · split
        · exact ih (h.setHitch ..)
        · next st hst =>
          have hu : (if st.active then s else (s.raiseVt st.ctx).leaveIdle).Settled gone q c v := by
            split
            · exact h
            · exact (h.raiseVt _).leaveIdle
          exact ih (((hu.hitchDone ..).setHitch ..).setStep (h.ne_of_held hst) _)

theorem releaseHitch (h : s.Settled gone q c v) (k : Nat) : (s.releaseHitch k).Settled gone q c v := by
  unfold State.releaseHitch
  extract_lets u w
  have hu : u.Settled gone q c v := h.endLoans _
  refine State.Settled.serveLoop _ _ (State.Settled.setHitch ?_ ..)
  refine hu.foldl_open fun x y hy hx => ?_
  split
  · exact hx.setStep (hu.ne_of_open hy) _
  · exact hx

theorem forceHitches (h : s.Settled gone q c v) (st : Step) : (s.forceHitches st).Settled gone q c v := by
  unfold State.forceHitches
  extract_lets u
  have hu : u.Settled gone q c v := by
    unfold u
    split
    · exact h.serveLoop ..
    · exact h
  refine foldl_all (P := fun u => State.Settled u gone q c v) hu fun w k hw => ?_
  split
  · exact ((hw.releaseHitch k).countEntry _ (by decide) _).countEntry _ (by decide) _
  · exact hw

/-! ### The step that goes -/

theorem unreserve (h : s.Settled gone q c v) (p : Nat) :
    ((List.range 8).foldl (fun s n => if (s.ib n).reserved = some p then s.modIb n fun i => { i with reserved := none } else s) s).Settled gone q c v := by
  refine foldl_all (P := fun u => State.Settled u gone q c v) h fun u n hu => ?_
  split
  · exact hu.modIb n fun _ hi => ⟨hi.spm, hi.spmSyn, hi.acc, hi.accSyn, hi.slots, hi.regions⟩
  · exact hu

theorem takeStep (h : s.Settled False q c v) (st : Step) (sure : Option Nat) : (s.takeStep q st sure).Settled True q c v := by
  unfold State.takeStep
  extract_lets a b d
  have ha : a.Settled True q c v := by
    refine State.Settled.tally ?_ st
    obtain ⟨hi, hv, -⟩ := h.leaveIbexes st sure
    refine ⟨State.setStep_inv hi q none, hv, fun _ => ?_⟩
    rw [State.queue_setStep hi, if_pos rfl]
  have hb : b.Settled True q c v := ha.unreserve q
  have hd : d.Settled True q c v := by
    refine hb.foldl_open fun u x hx hu => ?_
    split
    · exact hu.setStep (hb.ne_of_open hx) _
    · exact hu
  exact (((hd.abandonItems ..).withdrawWait ..).endLoans _).unholdAll st

/-! ### Placement -/

theorem flipSpm (h : s.Settled gone q c v) (n w k : Nat) : (s.flipSpm n w k).Settled gone q c v := by
  refine h.same ((State.flipSpm_keep s n w k (Kept.refl s)).inv h.inv) ?_ ?_ <;>
  · unfold State.flipSpm
    split <;> rfl

theorem flipAcc (h : s.Settled gone q c v) (n e m j k : Nat) : (s.flipAcc n e m j k).Settled gone q c v := by
  refine h.same ((State.flipAcc_keep s n e m j k (Kept.refl s)).inv h.inv) ?_ ?_ <;>
  · unfold State.flipAcc
    dsimp only
    split <;> rfl

theorem grantIbex (h : s.Settled gone q c v) (n k : Nat) : (s.grantIbex n k).1.Settled gone q c v := by
  unfold State.grantIbex
  split
  · exact h
  · dsimp only
    split
    · exact h
    · refine State.Settled.flipAcc (State.Settled.flipSpm (h.same (State.setIb_inv h.inv n ?_) rfl rfl) ..) ..
      have hg := foldl_all (P := Ibex.ok) (l := s.evictions n k [] (s.victims n)) (h.inv.ib n) fun _ v hi => Ibex.evict_ok (c := v) hi
      exact ⟨Tbl.ok_clear hg.spm, Tbl.ok_clear hg.spmSyn, Tbl.ok_clear hg.acc, Tbl.ok_clear hg.accSyn, Tbl.ok_set hg.slots, hg.regions⟩

theorem reserveFor (h : s.Settled gone q c v) (p : Nat) (st : Step) : (s.reserveFor p st).Settled gone q c v := by
  unfold State.reserveFor
  extract_lets want
  refine foldl_all (P := fun u => State.Settled u gone q c v) h fun u n hu => ?_
  dsimp only
  split
  · exact hu.modIb n fun _ hi => ⟨hi.spm, hi.spmSyn, hi.acc, hi.accSyn, hi.slots, hi.regions⟩
  · exact hu

theorem unblock (h : s.Settled gone q c v) (p : Nat) (st : Step) : (s.unblock p st).Settled gone q c v := by
  unfold State.unblock
  split
  · exact h
  · split
    · exact h
    · dsimp only
      split
      · exact h
      · next hl => exact h.setStep (h.ne_of_open (List.mem_of_mem_filter (hl ▸ mem_foldl_pick ..))) _

theorem preemptFor (h : s.Settled gone q c v) (p : Nat) (st : Step) : (s.preemptFor p st).Settled gone q c v := by
  unfold State.preemptFor
  dsimp only
  split
  · exact h
  · split
    · exact h
    · next hl => exact h.setStep (h.ne_of_open (List.mem_of_mem_filter (hl ▸ mem_foldl_pick ..))) _

/-- The step of a queue that holds one is placed. -/
theorem place (h : s.Settled gone q c v) {p : Nat} (hp : gone → p ≠ q) (st : Step) (ibs : List Nat) : (s.place p st ibs).Settled gone q c v := by
  unfold State.place
  extract_lets again switched a b ranks ranks' ov d st'
  have ha : a.Settled gone q c v := by
    refine foldl_all (P := fun u => State.Settled u gone q c v) h fun u n hu => ?_
    refine State.Settled.modIb ?_ n fun _ hi => Ibex.begin_ok hi
    dsimp only
    split
    · exact (hu.grantIbex ..).countEntry _ (by decide) _
    · exact hu.grantIbex ..
  have hd : d.Settled gone q c v := by
    unfold d
    split
    · exact (ha.unreserve p).countEntry _ (by decide) _
    · exact ha.unreserve p
  exact (hd.setQueue fun hg e => absurd e (hp hg)).countEntry _ (by decide) _

theorem tryPlace (h : s.Settled gone q c v) (p : Nat) : (s.tryPlace p).Settled gone q c v := by
  unfold State.tryPlace
  split
  · exact h
  · next st hst =>
    split
    · exact h
    · extract_lets us g
      split
      · exact (h.unblock ..).preemptFor ..
      · exact h.place (h.ne_of_held hst) ..

theorem schedule (h : s.Settled gone q c v) : s.schedule.Settled gone q c v := by
  unfold State.schedule
  split
  · exact h
  · refine foldl_all (P := fun u => State.Settled u gone q c v) (foldl_all (P := fun u => State.Settled u gone q c v) h fun u p hu => ?_)
      fun u p hu => hu.tryPlace p
    split
    · split
      · exact hu.reserveFor ..
      · exact hu
    · exact hu

/-- A step that ends leaves its queue and has counted in its context (R349). -/
theorem stepEnds (h : s.Settled False q c v) (n : Nat) (st : Step) (hc : st.ctx = c) :
    (s.stepEnds n q st).Settled True q c ((v + 1) % 2 ^ 64) := by
  subst hc
  have ha : ((s.swapLists st).closeEnded q st).Settled False q st.ctx v := (h.swapLists st).closeAll ..
  unfold State.stepEnds
  extract_lets a b d
  have hb : b.Settled False q st.ctx ((v + 1) % 2 ^ 64) := by
    refine ⟨State.countEntry_inv ha.inv .., ?_, False.elim⟩
    exact (State.entry_countEntry ha.inv ..).trans (by rw [if_pos rfl, ← ha.steps]; rfl)
  have hd : d.Settled False q st.ctx ((v + 1) % 2 ^ 64) := by
    unfold d
    split
    · exact hb.countEntry _ (by decide) _
    · exact hb
  exact ((hd.takeStep st (some n)).forceHitches st).schedule

end State.Settled

end Sys2Proof.Machine
end

section
/-! PROOF. What a write to memory leaves alone: everything but memory, registers, the dictionary and the error log (R384, R404, R424,
R439). -/

namespace Sys2Proof.Machine

/-- The registers of the blocks of the Ibex clusters and of what lies below them. -/
def lowRegs (t : Tbl W64) : Tbl W64 := Tbl.keep t fun k _ => decide (k < 0x2000000)

theorem lowRegs_set {d : W64} {k : Nat} (hk : 0x2000000 ≤ k) (v : W64) (t : Tbl W64) : lowRegs (Tbl.set d t k v) = lowRegs t := by
  have hnot (w : W64) (t : Tbl W64) : lowRegs ((k, w) :: t) = lowRegs t := by
    unfold lowRegs Tbl.keep
    exact List.filter_cons_of_neg (by simp [hk])
  induction t with
  | nil =>
    unfold Tbl.set
    split
    · rfl
    · exact hnot v []
  | cons e t ih =>
    obtain ⟨j, w⟩ := e
    unfold Tbl.set
    split
    · split
      · rfl
      · exact hnot v _
    · split
      · next e =>
        subst e
        rw [hnot]
        split
        · rfl
        · exact hnot v t
      · unfold lowRegs Tbl.keep at ih ⊢
        rw [List.filter_cons, ih, List.filter_cons]

/-- A state without what a write to memory may change. -/
def State.outside (s : State) : State := { s with mem := {}, regs := lowRegs s.regs, dict := [], log := [] }

variable (s : State)

/-- States that agree outside memory, registers, the dictionary and the log. -/
theorem State.eq_of_outside {s t : State} (h : t.outside = s.outside) : t = { s with mem := t.mem, regs := t.regs, dict := t.dict, log := t.log } :=
  (congrArg (fun u : State => { u with mem := t.mem, regs := t.regs, dict := t.dict, log := t.log }) h :)

theorem State.outside_foldl {α : Type} {f : State → α → State} (hf : ∀ u x, (f u x).outside = u.outside) (l : List α) (s : State) :
    (l.foldl f s).outside = s.outside :=
  foldl_all (P := fun u => u.outside = s.outside) rfl fun u x hu => (hf u x).trans hu

namespace State

theorem outside_setMem (m : Mem) : State.outside { s with mem := m } = s.outside := rfl

theorem outside_countEntry (i j n : Nat) : (s.countEntry i j n).outside = s.outside := rfl

theorem outside_setReg {k : Nat} (hk : 0x2000000 ≤ k) (v : W64) : (s.setReg k v).outside = s.outside :=
  congrArg (fun r => ({ s with mem := {}, regs := r, dict := [], log := [] } : State)) (lowRegs_set hk v s.regs)

theorem outside_flipDone : s.flipDone.outside = s.outside :=
  (outside_setReg _ (by decide) _).trans (outside_setReg s (by decide) _)

theorem outside_countPc (p o n : Nat) : (s.count (pcReg p o) n).outside = s.outside :=
  outside_setReg s (by unfold pcReg memBase; omega) _

/-! ### Words of the array and the codes of memory -/

theorem outside_logDev (code : W16) (kind obj : Nat) : (s.logDev code kind obj).outside = s.outside := by
  unfold State.logDev State.logErr State.logRec
  dsimp only
  split <;> rfl

theorem outside_intErr (code : W16) (domain addr : Nat) : (s.intErr code domain addr).outside = s.outside := by
  have he (t : State) (v : Nat) : (t.errReg (intBase + 0x40) v).outside = t.outside := by
    unfold State.errReg
    split
    · rfl
    · exact outside_setReg t (by decide) _
  unfold State.intErr
  dsimp only
  split
  · exact outside_logDev ..
  · exact (outside_setReg _ (by decide) _).trans ((he ..).trans (outside_logDev ..))

theorem outside_storeWord (w d : Nat) : (s.storeWord w d).outside = s.outside := by
  unfold State.storeWord
  split
  · exact (outside_setMem ..).trans (outside_flipDone s)
  · rfl

theorem outside_storeCheck (page p q : Nat) : (s.storeCheck page p q).outside = s.outside := by
  unfold State.storeCheck
  split
  · exact (outside_setMem ..).trans (outside_flipDone s)
  · rfl

theorem outside_openRow (w : Nat) : (s.openRow w).outside = s.outside :=
  (outside_setMem ..).trans (outside_countPc ..)

theorem outside_openLines (page : Nat) (ws : List Nat) : (s.openLines page ws).outside = s.outside := outside_foldl outside_openRow _ s

theorem outside_countRd (page : Nat) (ws : List Nat) (chk : Bool) : (s.countRd page ws chk).outside = s.outside := by
  unfold State.countRd
  refine (outside_countPc ..).trans ?_
  cases chk
  · exact outside_openLines ..
  · exact (outside_openRow ..).trans (outside_openLines ..)

theorem outside_writeWord (w v : Nat) : (s.writeWord w v).outside = s.outside :=
  (outside_countPc ..).trans ((outside_openRow ..).trans (outside_storeWord ..))

theorem outside_writeRebuilt (page : Nat) (r : List (Nat × Nat)) : (s.writeRebuilt page r).outside = s.outside := by
  have hf (u : State) (x : Nat × Nat) : (u.writeWord (256 * page + x.1) x.2).outside = u.outside := outside_writeWord ..
  exact (outside_countEntry ..).trans (outside_foldl hf r s)

theorem outside_countWord (w : Nat) : (s.countWord w).outside = s.outside := by
  unfold State.countWord
  split
  · rfl
  · rfl
  · rfl
  · exact outside_intErr ..

theorem outside_checkWord (back : Bool) (w : Nat) : (s.checkWord back w).outside = s.outside := by
  unfold State.checkWord
  dsimp only
  split
  · split
    · exact (outside_writeWord ..).trans (outside_countWord ..)
    · exact outside_countWord ..
  · exact outside_countWord ..

theorem outside_checkPair (back : Bool) (page : Nat) : (s.checkPair back page).outside = s.outside := by
  unfold State.checkPair
  extract_lets c tally p q t fix p' q'
  have ht (u : State) (r : WordRead) : (tally u r).outside = u.outside := by
    unfold tally
    split <;> rfl
  have h : t.outside = s.outside := (ht ..).trans (ht ..)
  split <;> exact h

/-! ### The controllers' queues -/

theorem outside_wakePc (p : Nat) : (s.wakePc p).outside = s.outside := by
  unfold State.wakePc
  split <;> rfl

theorem outside_issueReq (r : PcReq) : (s.issueReq r).outside = s.outside :=
  (outside_setMem ..).trans ((outside_countPc ..).trans (outside_openRow ..))

theorem outside_drainTo (old : List PcReq) (p n fuel : Nat) : (s.drainTo old p n fuel).outside = s.outside := by
  induction fuel generalizing s with
  | zero => rfl
  | succ fuel ih =>
    unfold State.drainTo
    split
    · rfl
    · split
      · rfl
      · exact (ih _).trans (outside_issueReq ..)

theorem outside_drainFor (old : List PcReq) (p fuel : Nat) : (s.drainFor old p fuel).outside = s.outside := by
  induction fuel generalizing s with
  | zero => rfl
  | succ fuel ih =>
    unfold State.drainFor
    split
    · rfl
    · split
      · rfl
      · exact (ih _).trans (outside_issueReq ..)

theorem outside_drain (p : Nat) : (s.drain p).outside = s.outside := by
  unfold State.drain State.drainOld
  extract_lets n a b
  have ha : a.outside = s.outside := by
    unfold a
    split
    · exact outside_drainTo ..
    · rfl
  have hb : b.outside = s.outside := (outside_drainFor ..).trans ha
  split
  · exact (outside_drainTo ..).trans hb
  · exact hb

theorem outside_queueFlush (old : Mem) (page : Nat) (ws : List Nat) : (s.queueFlush old page ws).outside = s.outside :=
  (outside_drain ..).trans (outside_wakePc s (page / 2 ^ 19))

/-! ### Flushes of the splice buffer -/

theorem outside_flushLost (e : Splice) : (s.flushLost e).outside = s.outside := by
  unfold State.flushLost
  refine (outside_intErr ..).trans (outside_foldl (fun u i => ?_) e.touched s)
  split
  · exact outside_storeWord ..
  · split
    · exact outside_storeWord ..
    · rfl

theorem outside_readRest (e : Splice) : (s.readRest e).outside = s.outside :=
  (outside_foldl (fun _ _ => outside_checkWord ..) _ _).trans (outside_countRd ..)

theorem outside_storeWords (page : Nat) (ws : List (Nat × Nat)) :
    (ws.foldl (fun s w => s.storeWord (256 * page + w.1) w.2) s).outside = s.outside := outside_foldl (fun _ _ => outside_storeWord ..) ws s

theorem outside_flushWords (e : Splice) : (s.flushWords e).outside = s.outside :=
  (outside_storeCheck ..).trans (outside_storeWords ..)

theorem outside_flushClean (e : Splice) : (s.flushClean e).outside = s.outside := by
  unfold State.flushClean
  split
  · exact (outside_storeCheck ..).trans (outside_storeWords ..)
  · extract_lets a b c d
    have ha : a.outside = s.outside := outside_countRd ..
    have hb : b.outside = s.outside := (outside_foldl (fun _ _ => outside_countWord ..) _ _).trans ((outside_checkPair ..).trans ha)
    have hd : d.outside = s.outside := (outside_readRest ..).trans hb
    split
    · split
      · exact (outside_flushLost ..).trans hd
      · exact (outside_flushWords ..).trans hd
      · exact (outside_flushWords ..).trans ((outside_writeRebuilt ..).trans hd)
    · exact (outside_flushWords ..).trans hb

theorem outside_sramPass (r : WordRead) (domain addr : Nat) : (s.sramPass r domain addr).outside = s.outside := by
  unfold State.sramPass
  split
  · rfl
  · exact outside_intErr ..
  · rfl

theorem outside_flush (e : Splice) : (s.flush e).outside = s.outside := by
  unfold State.flush
  refine (outside_queueFlush ..).trans ((outside_setMem ..).trans ?_)
  exact (outside_flushClean ..).trans (outside_foldl (fun _ _ => outside_sramPass ..) _ _)

theorem outside_flushFull (page : Nat) : (s.flushFull page).outside = s.outside := by
  unfold State.flushFull
  split
  · split
    · exact outside_flush ..
    · rfl
  · rfl

/-! ### Writes into an entry, a line or the array -/

theorem outside_healWord (e : Splice) (o : Nat) (bs : List (Option Byte)) (i : Nat) : (s.healWord e o bs i).1.outside = s.outside := by
  unfold State.healWord
  extract_lets w syn r t
  have ht : t.outside = s.outside := outside_sramPass ..
  split
  · rfl
  · split
    · rfl
    · split <;> exact (outside_setMem ..).trans ht

theorem outside_healEntry (e : Splice) (o : Nat) (bs : List (Option Byte)) : (s.healEntry e o bs).1.outside = s.outside :=
  foldl_all (P := fun x : State × Splice × List Nat => x.1.outside = s.outside) rfl fun _ _ hx => (outside_healWord ..).trans hx

theorem outside_splicePut (page o : Nat) (bs : List (Option Byte)) : (s.splicePut page o bs).outside = s.outside := by
  unfold State.splicePut
  extract_lets h t e w v
  have ht : t.outside = s.outside := outside_healEntry ..
  split
  · exact (outside_setMem ..).trans ((outside_flipDone t).trans ht)
  · exact (outside_setMem ..).trans ht

theorem outside_linePut (l : Line) (a : Nat) (bs : List Byte) : (s.linePut l a bs).outside = s.outside := by
  unfold State.linePut
  extract_lets i read r t l1 l2
  have ht : t.outside = s.outside := by
    unfold t
    split
    · exact outside_sramPass ..
    · rfl
  split
  · exact (outside_setMem ..).trans ht
  · split
    · exact (outside_setMem ..).trans ((outside_flipDone t).trans ht)
    · exact (outside_setMem ..).trans ht

theorem outside_putAround (a : Nat) (bs : List Byte) : (s.putAround a bs).outside = s.outside := by
  unfold State.putAround
  dsimp only
  split
  · exact (outside_flushFull ..).trans ((outside_splicePut ..).trans (outside_wakePc ..))
  · exact (outside_flush ..).trans (outside_wakePc ..)

theorem outside_writePart (a : Nat) (bs : List Byte) : (s.writePart a bs).outside = s.outside := by
  unfold State.writePart
  split
  · split
    · exact outside_putAround ..
    · exact outside_linePut ..
  · exact outside_putAround ..

theorem outside_writeParts (a : Nat) (bs : List Byte) (fuel : Nat) : (s.writeParts a bs fuel).outside = s.outside := by
  induction fuel generalizing s a bs with
  | zero => rfl
  | succ fuel ih =>
    unfold State.writeParts
    split
    · rfl
    · exact (ih ..).trans (outside_writePart ..)

/-- A write to memory changes memory, registers, the dictionary and the log alone. -/
theorem outside_memWrite {s t : State} {a : Nat} {bs : List Byte} (h : s.memWrite a bs = some t) : t.outside = s.outside := by
  obtain ⟨-, h⟩ := Option.ite_none_right_eq_some.1 h
  cases h
  exact outside_writeParts ..

end State

end Sys2Proof.Machine
end

section
/-! PROOF. The meetings of a step: a decision point, and a meeting of SYNC (R138, R207, R208, R211). -/

namespace Sys2Proof.Machine

variable {s t u : State} {n q : Nat}

/-! ### The statistics record -/

/-- Where an address lies depends on memory's fuses and powers, the masks of the herds and the rotation registers (R385). -/
theorem State.rangeOk_congr (hm : t.mem = s.mem) (hd : ∀ j, t.pcMask j = s.pcMask j) (hr : ∀ k < 5, t.reg (memBase + 0x10 + 8 * k) = s.reg (memBase + 0x10 + 8 * k))
    (a k : Nat) : t.rangeOk a k = s.rangeOk a k := by
  have hp (ap : Nat) : t.apertureMib ap = s.apertureMib ap := by simp only [State.apertureMib, State.commonMib, hm, hd]
  have hrot (j : Nat) : t.rotation j = s.rotation j := by
    unfold State.rotation
    exact List.foldl_ext _ _ _ fun x k hk => by rw [hr k (List.mem_range.1 hk)]
  have hmap (x : Nat) : t.mapAddr x = s.mapAddr x := by simp only [State.mapAddr, State.commonMib, hm, hd, hrot]
  simp only [State.rangeOk, State.addrOk, State.pcFailed, State.unitCached, hp, hmap, hm]

theorem bytesLE_length (n v : Nat) : (bytesLE n v).length = n := by
  induction n generalizing v with
  | zero => rfl
  | succ n ih => rw [bytesLE, List.length_cons, ih]

/-- The statistics record is raised where it can be read and written, or where the layer has none (R210). -/
theorem State.layerStats_next (h : s.Inv) (layer : List Byte) (total steps past reruns skips : Nat) (last : Option (Bool × Nat)) (wide : Nat)
    (hs : recField layer 0x10 8 = 0 ∨ (s.memRead (recField layer 0x10 8) 32).isSome = true ∧ s.rangeOk (recField layer 0x10 8) 32 = true) :
    ∃ u, s.layerStats layer total steps past reruns skips last wide = some u ∧ u.Inv ∧ u.outside = s.outside ∧
      (recField layer 0x10 8 = 0 → u.mem = s.mem) := by
  have hi := State.layerStats_keep s layer total steps past reruns skips last wide (Kept.refl s)
  unfold State.layerStats at hi ⊢
  dsimp only at hi ⊢
  by_cases h0 : recField layer 0x10 8 = 0
  · simp only [h0, if_true]
    exact ⟨s, rfl, h, rfl, fun _ => rfl⟩
  · simp only [h0, if_false, false_or] at hi hs ⊢
    obtain ⟨r, hr⟩ := Option.isSome_iff_exists.1 hs.1
    have hc := State.rangeOk_congr (s := s) (t := s.count (memBase + 0x4020) 1) rfl (fun _ => rfl) (fun k hk => by rw [State.reg_count h, if_neg (by omega)])
    rw [hr, Option.bind_some] at hi ⊢
    have hok : ∀ bs : List Byte, bs.length = 32 → ∃ u, (s.count (memBase + 0x4020) 1).memWrite (recField layer 0x10 8) bs = some u :=
      fun bs hb => ⟨_, if_pos (by rw [hb, hc, hs.2])⟩
    refine (hok _ ?_).imp fun u hu => ⟨hu, (OptAll.elim hi hu).inv h, (State.outside_memWrite hu).trans (State.outside_setReg s (by decide) _), False.elim⟩
    cases last <;> simp only [List.length_append, bytesLE_length]

/-- Counters of the output pipes of the ranks' clusters. -/
theorem State.countRanks_regsOnly (s : State) (st : Step) (o k : Nat) : s.RegsOnly (s.countRanks st o k) :=
  foldl_all (P := s.RegsOnly) (.refl s) fun _ _ h => h.count ..

theorem State.countRanks_inv (h : s.Inv) (st : Step) (o k : Nat) : (s.countRanks st o k).Inv :=
  foldl_all (P := State.Inv) h fun _ _ h => State.count_inv h ..

/-! ### A decision point -/

/-- Where the ranks of a step go at a decision point (R207, R208): every rank the same way. -/
def Step.decided (st : Step) (wide skip : Bool) : Step :=
  { st with widened := st.widened || wide, skipped := st.skipped || skip, ranks := st.ranks.map fun r =>
      if wide then r.enterWide
      else if skip then { r.leaveLayer with pc := recField r.layer 0x0C 2, wait := .none }
      else { r.leaveLayer with wait := .none } }

/-- The meeting at a decision point raises the statistics and sends the ranks on (R207 to R211). -/
theorem State.atDecision_next (h : s.Inv) {st : Step} {r0 : Rank} {past skip wide : Bool}
    (ho : layerOutcome r0.layer (min 0xFFFFFFFF (st.ranks.map (·.sat)).sum) (s.ctx st.ctx 0x14 == 1) = (past, skip, wide))
    (hs : recField r0.layer 0x10 8 = 0 ∨
      (s.memRead (recField r0.layer 0x10 8) 32).isSome = true ∧ s.rangeOk (recField r0.layer 0x10 8) 32 = true) :
    ∃ u : State, s.atDecision q st r0 = u.modStep q (·.decided wide skip) ∧ u.Inv ∧
      (∃ m g d w, u = { s with mem := m, regs := g, dict := d, log := w }) ∧ (recField r0.layer 0x10 8 = 0 → u.mem = s.mem) := by
  unfold State.atDecision
  dsimp only
  rw [ho]
  obtain ⟨u, hu, hi, hout, hmem⟩ := State.layerStats_next h r0.layer (min 0xFFFFFFFF (st.ranks.map (·.sat)).sum) 1 (if past then 1 else 0)
    (if wide then 1 else 0) (if skip then 1 else 0) (some (false, min 0xFFFFFFFF (st.ranks.map (·.sat)).sum)) 0 hs
  dsimp only
  rw [hu]
  refine ⟨_, rfl, State.countRanks_inv (State.countRanks_inv (State.countRanks_inv (State.countRanks_inv hi ..) ..) ..) .., ?_⟩
  obtain ⟨g, hg⟩ := (((State.countRanks_regsOnly ..).trans (State.countRanks_regsOnly ..)).trans (State.countRanks_regsOnly ..)).trans
    (State.countRanks_regsOnly ((((u.countRanks st 0x28 1).countRanks st 0x30 (if wide then 1 else 0)).countRanks st 0x38 (if skip then 1 else 0)))
      st 0x40 (if past && layPolicy r0.layer == 0 && s.ctx st.ctx 0x14 == 1 then 1 else 0))
  rw [hg]
  exact ⟨⟨_, _, _, _, congrArg (fun v : State => { v with regs := g }) (State.eq_of_outside hout)⟩, hmem⟩

theorem execLayerDecision_next {q : QueueId} {st : Step} {r0 : Rank} {rs : List Rank} (hst : (s.queue q.val).held = some st)
    (hr : st.ranks = r0 :: rs) (hrun : st.state = .running) (hstop : ∀ r ∈ st.ranks, r.stopped = false) (hw : ∀ r ∈ st.ranks, r.wait = .layer) :
    exec (.layerDecision q) s = .next (s.atDecision q.val st r0) := by
  change execLayerDecision q s = _
  have hany : st.ranks.any (fun r => r.wait != .layer || r.stopped) = false :=
    List.any_eq_false.2 fun r hr => by rw [hw r hr, hstop r hr]; decide
  unfold execLayerDecision
  rw [hst]
  dsimp only
  rw [hr] at hany ⊢
  dsimp only
  rw [hany, hrun]
  rfl

/-! ### A meeting of SYNC -/

/-- A region that waits at a meeting leaves it. -/
def Region.meet (g : Region) : Region := if g.state = 3 then { g with state := 0, shown := none } else g

theorem Ibex.region_meet {i : Ibex} (h : i.ok) (k : Nat) : i.meet.region k = (i.region k).meet := by
  refine Tbl.get_foldl (f := Region.meet) (fun u e => ?_) rfl h.regions k
  unfold Region.meet
  split
  · exact .inl rfl
  · exact .inr ⟨rfl, rfl⟩

/-- A second release finds no region that waits. -/
theorem Ibex.meet_meet {i : Ibex} (h : i.ok) : i.meet.meet = i.meet := by
  have hstate : ∀ e ∈ i.meet.regions, e.2.state ≠ 3 := fun e he => by
    have hg : i.meet.region e.1 = e.2 := Tbl.get_of_mem (Tbl.canon_pairwise (Ibex.meet_ok h).regions) he
    rw [← hg, Ibex.region_meet h]
    unfold Region.meet
    split
    · exact Nat.zero_ne_add_one 2
    · next hne => exact hne
  have hfold (t : Tbl Region) : i.meet.regions.foldl (fun t e =>
      if e.2.state = 3 then Tbl.set {} t e.1 { e.2 with state := 0, shown := none } else t) t = t :=
    List.foldlRecOn (motive := (· = t)) _ _ rfl fun u hu e he => by rw [if_neg (hstate e he), hu]
  unfold Ibex.meet at hfold ⊢
  rw [hfold]

/-- What the release of the ranks of a step changes (R138). -/
structure State.Released (s t : State) (rs : List Rank) : Prop where
  inv : t.Inv
  ib : ∀ n, t.ib n = if rs.any (fun r => r.ibex == n) then (s.ib n).meet else s.ib n
  rest : ∃ i r f, t = { s with ibex := i, regs := r, fresh := f }

theorem State.release_foldl (h : s.Inv) (rs : List Rank) :
    s.Released (rs.foldl (fun s r => (s.modIb r.ibex Ibex.meet).countFree (ibexReg r.ibex 2 0x80)) s) rs := by
  induction rs using List.reverseRecOn with
  | nil => exact ⟨h, fun _ => rfl, _, _, _, rfl⟩
  | append_singleton rs r ih =>
    rw [List.foldl_append]
    refine ⟨?_, fun n => ?_, ?_⟩
    · exact (State.countFree_keep _ _ (State.modIb_keep _ _ _ (Kept.refl _) fun _ h => Ibex.meet_ok h)).inv ih.inv
    · refine (State.ib_modIb ih.inv r.ibex n Ibex.meet).trans ?_
      rw [ih.ib n, ih.ib r.ibex, List.any_append]
      by_cases hn : n = r.ibex
      · subst hn
        simp only [if_true, List.any_cons, beq_self_eq_true, Bool.true_or, Bool.or_true]
        split
        · exact Ibex.meet_meet (h.ib _)
        · rfl
      · simp [hn, Ne.symm hn]
    · obtain ⟨_, _, _, hr⟩ := ih.rest
      rw [hr]
      exact ⟨_, _, _, rfl⟩

theorem execSyncRelease_next {q : QueueId} {st : Step} (hst : (s.queue q.val).held = some st) (hrun : st.state = .running)
    (hstop : ∀ r ∈ st.ranks, r.stopped = false) (hw : ∀ r ∈ st.ranks, r.wait = .sync ∧ r.resume = [] ∧ s.jobs r.ibex = []) :
    exec (.syncRelease q) s = .next
      ((st.ranks.foldl (fun s r => (s.modIb r.ibex Ibex.meet).countFree (ibexReg r.ibex 2 0x80)) s).modStep q.val fun st =>
        { st with ranks := st.ranks.map fun r => { r with wait := .none } }) := by
  change execSyncRelease q s = _
  have hany : st.ranks.any (fun r => r.wait != .sync || r.stopped || !r.resume.isEmpty || !(s.jobs r.ibex).isEmpty) = false :=
    List.any_eq_false.2 fun r hr => by
      obtain ⟨h1, h2, h3⟩ := hw r hr
      rw [h1, hstop r hr, h2, h3]
      decide
  unfold execSyncRelease
  rw [hst]
  dsimp only
  rw [hany, hrun]
  rfl

end Sys2Proof.Machine
end

section
/-! PROOF. The stop of a rank at a preemption point (R148), and the statement on the ranks of a step. -/

namespace Sys2Proof.Machine

variable {s t u : State} {n q : Nat}

/-! ### Decision points -/

/-- A decision of a step, rank by rank: to the wide variant, or out of the layer (R207, R208). -/
theorem Step.decided_eq (st : Step) (wide skip : Bool) : st.decided wide skip =
    { st with widened := st.widened || wide, skipped := st.skipped || skip, ranks := st.ranks.map fun r =>
        if wide then r.enterWide
        else { r.leaveLayer with wait := .none, pc := if skip then recField r.layer 0x0C 2 else r.pc } } := by
  cases wide <;> cases skip <;> rfl

/-! ### Preemption -/

/-- The step that an Ibex runs is the open step of its queue. -/
theorem State.rankOf_held (h : s.Inv) {rank : Nat} {st : Step} {r : Rank} (hr : s.rankOf n = some (q, st, rank, r)) :
    (s.queue q).held = some st := by
  obtain ⟨x, hx, hr⟩ := Option.bind_eq_some_iff.1 hr
  obtain ⟨y, -, hy⟩ := Option.map_eq_some_iff.1 hr
  cases hy
  exact State.openSteps_held h (List.mem_of_find?_eq_some hx)

/-- An Ibex whose walker and regions have stopped at a preemption point. -/
def Ibex.preempt (i : Ibex) : Ibex :=
  { i with cur := none, regions := i.regions.foldl (fun t e => Tbl.set {} t e.1 e.2.preempt) i.regions }

theorem Ibex.preempt_ok {i : Ibex} (h : i.ok) : i.preempt.ok :=
  ⟨h.spm, h.spmSyn, h.acc, h.accSyn, h.slots, Tbl.ok_foldl h.regions fun _ _ h => Tbl.ok_set h⟩

theorem Ibex.region_preempt {i : Ibex} (h : i.ok) (k : Nat) : i.preempt.region k = (i.region k).preempt :=
  Tbl.get_foldl (f := Region.preempt) (fun _ _ => .inl rfl) rfl h.regions k

/-- A rank as a preemption leaves it: its resume points stand first (R148). -/
def Rank.stoppedAt (r : Rank) (left : List (Nat × List Pass)) (cycles : Nat) (here : Option (Nat × Nat)) : Rank :=
  { r with stopped := true, resume := left ++ r.resume, cycles := r.cycles + cycles, stands := here.getD r.stands }

/-- A step whose last rank has stopped is being saved (R148). -/
def Step.saving (st : Step) : Step := if st.ranks.all (·.stopped) then { st with state := .suspending, parkedSave := false } else st

theorem State.stopRank_eq (s : State) (n q rank cycles : Nat) : s.stopRank n q rank cycles =
    ((s.modRank q rank (·.stoppedAt (s.remaining n) cycles ((s.ib n).cur.map fun l => (opcode l.raw, l.idx)))).modIb n Ibex.preempt).modStep q
      Step.saving := rfl

/-- What a stop leaves (R148). -/
theorem State.stopRank_leaves (h : s.Inv) {rank : Nat} {st : Step} {r : Rank} (hr : s.rankOf n = some (q, st, rank, r)) (cycles : Nat) :
    s.Walked (s.stopRank n q rank cycles) n q [] ∧ (s.stopRank n q rank cycles).ib n = (s.ib n).preempt ∧
    ((s.stopRank n q rank cycles).queue q).held =
      some (st.modRank rank (·.stoppedAt (s.remaining n) cycles ((s.ib n).cur.map fun l => (opcode l.raw, l.idx)))).saving := by
  rw [State.stopRank_eq]
  have h1 := State.modRank_inv h q rank (·.stoppedAt (s.remaining n) cycles ((s.ib n).cur.map fun l => (opcode l.raw, l.idx)))
  have h2 := State.modIb_inv h1 n fun _ hi => Ibex.preempt_ok hi
  refine ⟨(((State.Walked.refl h n q []).modRank rank _).modIb h2).modStep _, State.ib_modIb_self h1 n Ibex.preempt, ?_⟩
  rw [State.held_modStep h2]
  exact congrArg (Option.map Step.saving) ((State.held_modRank h q rank _).trans (congrArg _ (State.rankOf_held h hr)))

theorem execWalkerPreempt_next {n : IbexId} {cycles rank : Nat} {st : Step} {r : Rank} (hr : s.rankOf n.val = some (q, st, rank, r))
    (hs : st.stop = true) (hst : r.stopped = false) (ho : (s.ib n.val).outq = []) :
    exec (.walkerPreempt n cycles) s = .next (s.stopRank n.val q rank cycles) := by
  change execWalkerPreempt n cycles s = _
  unfold execWalkerPreempt
  rw [hr]
  dsimp only
  rw [hs, hst, ho]
  rfl

/-- Settles O21: LAYER and END pass their instruction, END of the last rank ends the step, and meetings and preemption move every rank as the
model's meeting and stop do. -/
theorem ranksOfStep : Obligations.RanksOfStep := by
  unfold Obligations.RanksOfStep
  refine ⟨fun s n l st r h hj => ⟨fun hc => ?_, fun cycles st' hc hst => ?_⟩, fun s q st r0 rs h hst hr hrun hstop => ⟨fun hw hs => ?_, fun hw => ?_⟩,
    fun s n cycles q rank st r h hr hs hst ho => ?_⟩
  case refine_1 =>
    obtain ⟨t, ht, h0, h1, hp⟩ := execLayer_leaves h hc hj
    exact ⟨t, ht, h0, h1, hp.regs, hp.cur, hp.ibexes, hp.queues, hp.held, hp.rest_eq⟩
  case refine_2 =>
    have hp := State.rankEnds_passed h n.val l cycles
    have hheld : ((s.rankEnds n.val l cycles).queue l.queue).held = some (st'.modRank l.rank (·.over l cycles)) := by rw [hp.held, hst]; rfl
    refine ⟨s.rankEnds n.val l cycles, hheld, hp.cur, hp.ibexes, hp.queues, State.reg_rankEnds h n.val l cycles, hp.regs, hp.rest_eq,
      fun ha => ?_, fun ha => ?_⟩
    · rw [execEndStep_next hc hj hheld]
      exact congrArg _ (if_neg (ne_true_of_eq_false ha))
    · have hset : (s.rankEnds n.val l cycles).Settled False l.queue st'.ctx (s.ctx st'.ctx 0x21) :=
        ⟨hp.inv, by rw [hp.rest_eq]; rfl, False.elim⟩
      obtain ⟨-, hsteps, hvacant⟩ := hset.stepEnds n.val (st'.modRank l.rank (·.over l cycles)) rfl
      exact ⟨_, (execEndStep_next hc hj hheld).trans (congrArg _ (if_pos ha)), rfl, hvacant trivial, fun _ => hsteps⟩
  case refine_3 =>
    obtain ⟨u, hu, hi, ⟨m, g, d, w, rfl⟩, hmem⟩ := State.atDecision_next (q := q.val) h (st := st) (r0 := r0) rfl hs
    refine ⟨_, execLayerDecision_next hst hr hrun hstop hw, ?_⟩
    rw [hu]
    refine ⟨?_, State.queuesBut_modStep hi q.val _, hmem, rfl⟩
    rw [State.held_modStep hi]
    exact (congrArg (Option.map _) hst).trans (congrArg some (Step.decided_eq ..))
  case refine_4 =>
    obtain ⟨hi, hib, i, r, f, hrest⟩ := State.release_foldl h st.ranks
    refine ⟨_, execSyncRelease_next hst hrun hstop hw, ?_, fun p hp => ?_, hib, ?_⟩
    · rw [State.held_modStep hi, hrest]
      exact congrArg (Option.map _) hst
    · rw [State.queuesBut_modStep hi q.val _ p hp, hrest]
      rfl
    · rw [hrest]
      rfl
  case refine_5 =>
    obtain ⟨hw, hib, hheld⟩ := State.stopRank_leaves h hr cycles
    refine ⟨_, execWalkerPreempt_next hr hs hst ho, ?_, fun k => ?_, hw.ibexes, hw.queues, ?_, rfl⟩
    · rw [hib]
      rfl
    · rw [State.region_eq, hib]
      exact Ibex.region_preempt (h.ib _) k
    · rw [hheld]
      rfl

end Sys2Proof.Machine
end

section
/-! PROOF. The engines outside the Braid as they work: what they keep of the state, and why no access of theirs fails where their tensors
lie in a scratchpad without a stored error (R182, R242, R150). -/

namespace Sys2Proof.Machine

/-! ### Results that may be a bus error -/

/-- A result whose value has a property, and which is none only where `ok` does not hold. -/
def Goes {α : Type} (ok : Prop) (P : α → Prop) (o : Option α) : Prop := OptAll P o ∧ (ok → o.isSome = true)

namespace Goes

variable {α β : Type} {ok : Prop} {P : α → Prop} {Q : β → Prop}

theorem some {x : α} (h : P x) : Goes ok P (some x) := ⟨OptAll.some h, fun _ => rfl⟩

theorem bind {o : Option β} {f : β → Option α} (h : Goes ok Q o) (hf : ∀ x, Q x → Goes ok P (f x)) : Goes ok P (o.bind f) := by
  refine ⟨h.1.bind fun x hx => (hf x hx).1, fun hk => ?_⟩
  obtain ⟨x, hx⟩ := Option.isSome_iff_exists.1 (h.2 hk)
  rw [hx, Option.bind_some]
  exact (hf x (h.1 x hx)).2 hk

theorem map {o : Option β} {f : β → α} (h : Goes ok Q o) (hf : ∀ x, Q x → P (f x)) : Goes ok P (o.map f) :=
  ⟨h.1.map hf, fun hk => by rw [Option.isSome_map]; exact h.2 hk⟩

/-- A read, of whose value nothing is known. -/
theorem read {o : Option β} {f : β → Option α} (h : ok → o.isSome = true) (hf : ∀ x, Goes ok P (f x)) : Goes ok P (o.bind f) :=
  bind (Q := fun _ => True) ⟨OptAll.any, h⟩ fun x _ => hf x

theorem ite {c : Prop} [Decidable c] {a b : Option α} (ha : Goes ok P a) (hb : Goes ok P b) : Goes ok P (if c then a else b) := by
  split
  · exact ha
  · exact hb

theorem foldl {γ : Type} {f : α → γ → Option α} {l : List γ} {o : Option α} (h : Goes ok P o) (hf : ∀ x y, P x → Goes ok P (f x y)) :
    Goes ok P (l.foldl (fun o y => o.bind fun x => f x y) o) :=
  foldl_all (P := Goes ok P) h fun _ y ho => ho.bind fun x hx => hf x y hx

end Goes

/-- Pieces of work in order: what holds between them holds at the end, and no piece fails where none can. -/
theorem runPieces_goes {α : Type} {ok : Prop} {P : State → Prop} {f : State → α → Option State} (hf : ∀ t x, P t → Goes ok P (f t x))
    (xs : List α) {s : State} (h : P s) : P (runPieces s f xs).1 ∧ (ok → (runPieces s f xs).2 = none) := by
  induction xs generalizing s with
  | nil => exact ⟨h, fun _ => rfl⟩
  | cons x xs ih =>
    unfold runPieces
    split
    · next t ht => exact ih ((hf s x h).1 t ht)
    · next hn => exact ⟨h, fun hk => by have := (hf s x h).2 hk; rw [hn] at this; cases this⟩

theorem orUe_goes {ok : Prop} {P : State → Prop} {s : State} {o : Option State} (h : P s) (ho : Goes ok P o) :
    P (orUe s o).1 ∧ (ok → (orUe s o).2 = none) := by
  unfold orUe
  split
  · next t => exact ⟨ho.1 t rfl, fun _ => rfl⟩
  · exact ⟨h, fun hk => by cases ho.2 hk⟩

/-! ### Reads of the scratchpad -/

section reads
variable {s : State} {a : Acc1} {d : Desc} (h : (s.ib a.ibex).spmSyn = []) (hd : d.spm = true)
include h hd

theorem State.rowVals_isSome (r i k : Nat) : (s.rowVals a d r i k).isSome = true := by
  unfold State.rowVals
  rw [Option.isSome_map]
  exact State.rowCodes_isSome h hd ..

theorem State.flatVal_isSome (i : Nat) : (s.flatVal a d i).isSome = true := by
  obtain ⟨cs, hc⟩ := Option.isSome_iff_exists.1 (State.rowCodes_isSome h hd (i / d.e 0) (i % d.e 0) 1)
  have hl := State.rowCodes_length hc
  unfold State.flatVal State.rowVals
  rw [hc, Option.map_some, Option.bind_some, List.isSome_head?]
  cases cs with
  | nil => cases hl
  | cons c cs => exact List.cons_ne_nil _ _

theorem State.vload_isSome (wf : Fmt) (r i k : Nat) : (s.vload a d wf r i k).isSome = true := by
  unfold State.vload
  rw [Option.isSome_map]
  exact State.rowVals_isSome (d := d.plain) h hd ..

end reads

theorem optAll_map_isSome {α β : Type} {l : List β} {f : β → Option α} (h : ∀ x, (f x).isSome = true) : (optAll (l.map f)).isSome = true :=
  optAll_isSome fun y hy => by obtain ⟨x, -, rfl⟩ := List.mem_map.1 hy; exact h x

/-! ### Properties that the engines keep -/

/-- A property of states that survives what an engine does for instruction l on an Ibex: counters of the Ibex but WLK_INSTR_DONE, free
values, writes, and what the sorter holds. Where `ok` holds, its reads and writes lie in a scratchpad without a stored error. -/
structure EngineKeeps (ok : Prop) (P : State → Prop) (a : Acc1) (l : Loaded) : Prop where
  count : ∀ t blk o k, blk * 0x10000 + o < 0x200000 → blk * 0x10000 + o ≠ 0x20050 → P t → P (t.count (ibexReg a.ibex blk o) k)
  fresh : ∀ t k, P t → P { t with fresh := t.fresh + k }
  sorting : ∀ t x, P t → P (t.setSorting l x)
  write : ∀ t spm x bs, (ok → spm = true) → P t → Goes ok P (t.tWrite a spm x bs)
  clean : ∀ t, ok → P t → (t.ib a.ibex).spmSyn = []

namespace EngineKeeps

variable {ok : Prop} {P : State → Prop} {a : Acc1} {l : Loaded} (h : EngineKeeps ok P a l) {s : State}
include h

/-! ### Writes of elements -/

theorem putCodes (hs : P s) {d : Desc} (hd : ok → d.spm = true) (r i : Nat) (cs : List Nat) : Goes ok P (s.putCodes a d r i cs) := by
  unfold State.putCodes
  refine .ite (.some hs) (.ite (.read (fun hk => ?_) fun old => h.write _ _ _ _ hd hs) (h.write _ _ _ _ hd hs))
  rw [hd hk]
  exact State.tRead_spm_isSome (h.clean s hk hs) ..

theorem putVals (hs : P s) {d : Desc} (hd : ok → d.spm = true) (r i : Nat) (vs : List Val) :
    Goes ok (fun x => P x.1) (s.putVals a d r i vs) := by
  unfold State.putVals
  exact .ite ((h.putCodes hs hd ..).bind fun t ht => (h.write t _ _ _ hd ht).map fun u hu => hu) ((h.putCodes hs hd ..).map fun t ht => ht)

theorem putRow (hs : P s) {d : Desc} (hd : ok → d.spm = true) (r : Nat) (cs : List (Nat × Nat)) : Goes ok P (s.putRow a d r cs) := by
  unfold State.putRow
  exact (h.putCodes hs hd ..).bind fun t ht => .ite (h.write t _ _ _ hd ht) (.some ht)

theorem vstore (hs : P s) {d : Desc} (hd : ok → d.spm = true) (r i : Nat) (vs : List Val) (sat : Nat) :
    Goes ok P (s.vstore a d r i vs sat) := by
  unfold State.vstore
  exact (h.putVals (d := d.plain) hs hd ..).map fun x hx => h.count _ 5 8 _ (by decide) (by decide) (h.count _ 5 0x10 _ (by decide) (by decide) hx)

theorem freshBytes (hs : P s) (k : Nat) : P (s.freshBytes k).2 := h.fresh s (k / 8) hs

/-! ### The window reducer -/

theorem stage2 (hs : P s) (raw : List Byte) : P (s.stage2 a raw) := by
  unfold State.stage2
  dsimp only
  split
  · exact hs
  · exact OptAll.getD (h.write _ true _ _ (fun _ => rfl) (h.freshBytes hs _)).1 (h.freshBytes hs _)

theorem countFree (hs : P s) {blk o : Nat} (ho : blk * 0x10000 + o < 0x200000) (hne : blk * 0x10000 + o ≠ 0x20050) :
    P (s.countFree (ibexReg a.ibex blk o)) := h.count _ blk o _ ho hne (h.fresh s 1 hs)

end EngineKeeps

section winreads
variable {s : State} {a : Acc1} {w : Win} (h : (s.ib a.ibex).spmSyn = []) (hw : w.x.spm = true)
include h hw

theorem State.winCode_isSome (n y x ch : Nat) : (s.winCode a w n y x ch).isSome = true := State.tapCode_isSome h hw n ch (false, some (y, x))

theorem State.reduceElem_isSome (raw : List Byte) (n y x ch : Nat) : (s.reduceElem a raw w n y x ch).isSome = true := by
  unfold State.reduceElem
  split
  · rw [Option.isSome_map]
    refine optAll_map_isSome fun i => ?_
    rw [Option.isSome_map]
    exact State.tapCode_isSome h hw ..
  · dsimp only
    split
    · rw [Option.isSome_map]
      exact State.winCode_isSome h hw ..
    · rw [Option.isSome_map]
      refine optAll_isSome fun o ho => ?_
      obtain ⟨r, -, hr⟩ := List.mem_flatMap.1 ho
      obtain ⟨c, -, rfl⟩ := List.mem_map.1 hr
      rw [Option.isSome_map]
      exact State.winCode_isSome h hw ..

theorem State.regroupElem_isSome (raw : List Byte) (n y x ch : Nat) : (s.regroupElem a raw w n y x ch).isSome = true := by
  unfold State.regroupElem
  dsimp only
  split <;>
  · rw [Option.isSome_map]
    exact State.winCode_isSome h hw ..

end winreads

namespace EngineKeeps

variable {ok : Prop} {P : State → Prop} {a : Acc1} {l : Loaded} (h : EngineKeeps ok P a l) {s : State}
include h

theorem reducePos (hs : P s) {w : Win} (hx : ok → w.x.spm = true) (hc : ok → w.c.spm = true) (raw : List Byte) (c0 c1 n y x : Nat) :
    Goes ok P (s.reducePos a raw w c0 c1 n y x) := by
  unfold State.reducePos
  refine .read (fun hk => optAll_map_isSome fun i => ?_) fun cs => (h.putCodes hs hc ..).map fun t ht => ?_
  · split
    · exact State.regroupElem_isSome (h.clean s hk hs) (hx hk) ..
    · exact State.reduceElem_isSome (h.clean s hk hs) (hx hk) ..
  · have hb := h.count t 3 0x20 (ceilDiv (c1 * w.c.fmt.bits) 8 - c0 * w.c.fmt.bits / 8) (by decide) (by decide) ht
    dsimp only
    split
    · exact h.count _ 3 0x10 _ (by decide) (by decide) (h.count _ 3 8 _ (by decide) (by decide) hb)
    · exact hb

theorem reduce (hs : P s) {w : Win} (hx : ok → w.x.spm = true) (hc : ok → w.c.spm = true) (raw : List Byte) (rank g done : Nat) (stop : Option Nat) :
    P (s.reduce a raw w rank g done stop).1 ∧ (ok → (s.reduce a raw w rank g done stop).2 = none) := by
  unfold State.reduce
  exact runPieces_goes (fun t i ht => Goes.foldl (.some ht) fun u x hu => h.reducePos hu hx hc ..) _ hs

theorem runReducer (ha : a = l.acc1 a.ibex) (hs : P s) (hd : ok → ∀ d, some d ∈ l.descs → d.spm = true) (done : Nat) (stop : Option Nat) :
    P (s.runReducer a.ibex l done stop).1 ∧ (ok → (s.runReducer a.ibex l done stop).2 = none) := by
  unfold State.runReducer
  rw [← ha]
  split
  · next x _ c _ hl =>
    dsimp only
    split
    · exact ⟨hs, fun _ => rfl⟩
    · refine h.reduce ?_ (fun hk => hd hk x (by simp [hl])) (fun hk => hd hk c (by simp [hl])) ..
      split
      · exact hs
      · exact h.countFree (h.stage2 hs _) (by decide) (by decide)
  · exact ⟨hs, fun _ => rfl⟩

end EngineKeeps

end Sys2Proof.Machine
end

section
/-! PROOF. The sorter, the histogram unit and the vector engine as they work (R185 to R189, R217, R234, R239 to R242). -/

namespace Sys2Proof.Machine

theorem bind_isSome {α β : Type} {o : Option α} {f : α → Option β} (h : o.isSome = true) (hf : ∀ x, (f x).isSome = true) :
    (o.bind f).isSome = true := by
  obtain ⟨x, rfl⟩ := Option.isSome_iff_exists.1 h
  exact hf x

namespace EngineKeeps

variable {ok : Prop} {P : State → Prop} {a : Acc1} {l : Loaded} (h : EngineKeeps ok P a l) {s : State}
include h

/-! ### The sorter -/

theorem sortKeys (hs : P s) {sc : Desc} (hd : ok → sc.spm = true) : Goes ok P (s.sortKeys a l sc) := by
  unfold State.sortKeys
  refine .read (fun hk => optAll_map_isSome fun i => State.flatVal_isSome (h.clean s hk hs) (hd hk) i) fun vs => ?_
  refine (h.write _ true _ _ (fun _ => rfl) (h.freshBytes hs _)).map fun t ht => h.sorting _ _ ?_
  exact h.count _ 3 0x60 _ (by decide) (by decide) (h.count _ 3 0x50 _ (by decide) (by decide)
    (h.count _ 3 0x48 _ (by decide) (by decide) (h.count _ 3 0x40 _ (by decide) (by decide) ht)))

theorem candOf_isSome (hs : P s) {box cls : Option Desc} (hb : ok → ∀ d, box = some d → d.spm = true) (hc : ok → ∀ d, cls = some d → d.spm = true)
    (hk : ok) (k : Nat × Nat) : (s.candOf a box cls k).isSome = true := by
  unfold State.candOf
  refine bind_isSome ?_ fun bs => ?_
  · split
    · exact State.rowVals_isSome (h.clean s hk hs) (hb hk _ rfl) ..
    · rfl
  · rw [Option.isSome_map]
    split
    · rw [Option.isSome_map]
      exact State.flatVal_isSome (h.clean s hk hs) (hc hk _ rfl) _
    · rfl

theorem sortCand (hs : P s) {box cls : Option Desc} (hb : ok → ∀ d, box = some d → d.spm = true) (hc : ok → ∀ d, cls = some d → d.spm = true)
    (j : Nat) : Goes ok P (s.sortCand a l box cls j) := by
  have hcand := h.candOf_isSome hs hb hc
  unfold State.sortCand
  dsimp only
  split
  · exact .some hs
  · next k _ =>
    refine .ite (.some hs) (.read (fun hk => hcand hk k) fun c => .map (Q := fun _ => True) ⟨OptAll.any, fun hk => optAll_map_isSome (hcand hk)⟩
      fun ks _ => ?_)
    have ht := h.count s 3 0x60 (max 1 (ceilDiv (s.sorting l).kept.length 16)) (by decide) (by decide) hs
    split
    · exact h.count _ 3 0x58 _ (by decide) (by decide) ht
    · exact h.sorting _ _ ht

theorem sortOut (hs : P s) {out cnt : Desc} (ho : ok → out.spm = true) (hc : ok → cnt.spm = true) : Goes ok P (s.sortOut a l out cnt) := by
  unfold State.sortOut
  exact (Goes.foldl (.some hs) fun t x ht => h.putCodes ht ho ..).bind fun t ht => (h.putCodes ht hc ..).map fun u hu =>
    h.count u 3 0x60 _ (by decide) (by decide) hu

theorem sort (hs : P s) (hd : ok → ∀ d, some d ∈ l.descs → d.spm = true) (done : Nat) (stop : Option Nat) :
    P (s.sort a l done stop).1 ∧ (ok → (s.sort a l done stop).2 = none) := by
  unfold State.sort
  split
  · next sc box cls out cnt hl =>
    rw [hl] at hd
    have hp := runPieces_goes (f := fun s i => if i = 0 then s.sortKeys a l sc else
        if i < 1 + srtPasses l.raw sc.elems then some s else s.sortCand a l box cls (i - (1 + srtPasses l.raw sc.elems)))
      (fun t i ht => .ite (h.sortKeys ht fun hk => hd hk _ (by simp)) (.ite (.some ht) (h.sortCand ht (fun hk d e => hd hk d (by simp [e]))
        (fun hk d e => hd hk d (by simp [e])) _))) (piecesNow done stop (srtPieces l.raw sc.elems)) hs
    dsimp only
    split
    · next t f e =>
      rw [e] at hp
      exact hp
    · next t e =>
      rw [e] at hp
      split
      · exact ⟨hp.1, fun _ => rfl⟩
      · exact orUe_goes hp.1 (h.sortOut hp.1 (fun hk => hd hk _ (by simp)) fun hk => hd hk _ (by simp))
  · exact ⟨hs, fun _ => rfl⟩

/-! ### The histogram unit -/

theorem histRow_isSome (hs : P s) {x b : Desc} (hx : ok → x.spm = true) (hb : ok → b.spm = true) (hk : ok) (raw : List Byte) (g : Nat) :
    (s.histRow a raw x b g).isSome = true := by
  have hg : (s.histGroup a raw x g).isSome = true := by
    refine (Goes.foldl (ok := ok) (P := fun _ => True) (.some trivial) fun t r _ => ?_).2 hk
    exact ⟨OptAll.any, fun hk => by rw [Option.isSome_map]; exact State.rowVals_isSome (h.clean s hk hs) (hx hk) ..⟩
  obtain ⟨t, ht⟩ := Option.isSome_iff_exists.1 hg
  unfold State.histRow
  rw [ht, Option.bind_some, Option.isSome_map]
  split
  · rw [Option.isSome_map]
    exact State.rowVals_isSome (h.clean s hk hs) (hb hk) ..
  · rfl

theorem hist (hs : P s) {ds : List (Option Desc)} (hd : ok → ∀ d, some d ∈ ds → d.spm = true) (raw : List Byte) : Goes ok P (s.hist a raw ds) := by
  unfold State.hist
  split
  · next x b =>
    have hx (hk : ok) : x.spm = true := hd hk x (by simp)
    have hb (hk : ok) : b.spm = true := hd hk b (by simp)
    refine .read (fun hk => optAll_map_isSome (h.histRow_isSome hs hx hb hk raw)) fun rows => ?_
    exact (Goes.foldl (.some hs) fun t r ht => h.putCodes ht hb ..).map fun t ht =>
      h.count _ 4 0x50 _ (by decide) (by decide) (h.count _ 4 0x48 _ (by decide) (by decide) ht)
  · exact .some hs

/-! ### The vector engine -/

theorem vinput_isSome (hs : P s) (x : Desc) {d : Option Desc} (hd : ok → ∀ t, d = some t → t.spm = true) (hk : ok) (wf : Fmt) (used : Bool) (p : Piece) :
    (s.vinput a x d wf used p).isSome = true := by
  have hv (t : Desc) (ht : (if used then d else none) = some t) (r i k : Nat) : (s.vload a t wf r i k).isSome = true :=
    State.vload_isSome (h.clean s hk hs) (hd hk t (Option.ite_none_right_eq_some.1 ht).2) ..
  unfold State.vinput
  split
  · rfl
  · next t ht =>
    split
    · exact hv t ht ..
    · split <;>
      · rw [Option.isSome_map]
        exact hv t ht ..

theorem vseqGroup (hs : P s) {x out : Desc} {y z : Option Desc} (hx : ok → x.spm = true) (hy : ok → ∀ t, y = some t → t.spm = true)
    (hz : ok → ∀ t, z = some t → t.spm = true) (ho : ok → out.spm = true) (raw : List Byte) (wf : Fmt) (imms : List Val) (ps : List Piece) :
    Goes ok P (s.vseqGroup a raw x y z out wf imms ps) := by
  unfold State.vseqGroup
  refine .read (fun hk => optAll_map_isSome fun p => ?_) fun ws => Goes.foldl (.some hs) fun t w ht => h.vstore ht ho ..
  refine bind_isSome (h.vinput_isSome hs x (fun hk t e => by cases e; exact hx hk) hk ..) fun vx => ?_
  refine bind_isSome (h.vinput_isSome hs x hy hk ..) fun vy => ?_
  rw [Option.isSome_map]
  exact h.vinput_isSome hs x hz hk ..

theorem vseq (hs : P s) (hd : ok → ∀ d, some d ∈ l.descs → d.spm = true) (done : Nat) (stop : Option Nat) :
    P (s.vseq a l done stop).1 ∧ (ok → (s.vseq a l done stop).2 = none) := by
  unfold State.vseq
  split
  · next x y z out hl =>
    rw [hl] at hd
    dsimp only
    split
    · exact ⟨hs, fun _ => rfl⟩
    · refine runPieces_goes (fun t ps ht => h.vseqGroup ht (fun hk => hd hk _ (by simp)) (fun hk d e => hd hk d (by simp [e]))
        (fun hk d e => hd hk d (by simp [e])) (fun hk => hd hk _ (by simp)) ..) _ ?_
      split
      · exact h.count _ 5 0x20 _ (by decide) (by decide) (h.count _ 5 0x10 _ (by decide) (by decide) hs)
      · exact hs
  · exact ⟨hs, fun _ => rfl⟩

theorem vred (hs : P s) (hd : ok → ∀ d, some d ∈ l.descs → d.spm = true) (done : Nat) (stop : Option Nat) :
    P (s.vred a l done stop).1 ∧ (ok → (s.vred a l done stop).2 = none) := by
  unfold State.vred
  split
  · next x out hl =>
    rw [hl] at hd
    dsimp only
    split
    · exact ⟨hs, fun _ => rfl⟩
    · refine runPieces_goes (fun t r ht => ?_) _ ?_
      · exact .read (fun hk => State.vload_isSome (h.clean t hk ht) (hd hk x (by simp)) ..) fun v => h.vstore ht (fun hk => hd hk out (by simp)) ..
      · split
        · exact h.count _ 5 0x20 _ (by decide) (by decide) hs
        · exact hs
  · exact ⟨hs, fun _ => rfl⟩

theorem vmoveRow (hs : P s) {x idx out : Desc} (hx : ok → x.spm = true) (hi : ok → idx.spm = true) (ho : ok → out.spm = true) (r0 r1 j : Nat) :
    Goes ok P (s.vmoveRow a l x idx out r0 r1 j) := by
  have hbump (t : State) (ht : P t) : P (t.count (ibexReg a.ibex 5 0x18) 1) := h.count t 5 0x18 1 (by decide) (by decide) ht
  have hdone (t : State) (ht : P t) : P (t.count (ibexReg a.ibex 5 8) (x.e 0)) := h.count t 5 8 _ (by decide) (by decide) ht
  have hmove (r i : Nat) : Goes ok P ((s.rowCodes a x i 0 (x.e 0)).bind fun cs => (s.putRow a out r cs).map fun s => s.count (ibexReg a.ibex 5 8) (x.e 0)) :=
    .read (fun hk => State.rowCodes_isSome (h.clean s hk hs) (hx hk) ..) fun cs => (h.putRow hs ho ..).map hdone
  unfold State.vmoveRow
  refine .read (fun hk => State.flatVal_isSome (d := idx.plain) (h.clean s hk hs) (hi hk) j) fun v => ?_
  dsimp only
  refine .ite (.ite (.some ?_) (.ite (.some hs) (hmove ..))) (.ite ((h.putRow hs ho ..).map fun t ht => hdone _ (hbump t ht)) (hmove ..))
  split
  · exact hbump s hs
  · exact hs

theorem vmove (hs : P s) (hd : ok → ∀ d, some d ∈ l.descs → d.spm = true) (done : Nat) (stop : Option Nat) :
    P (s.vmove a l done stop).1 ∧ (ok → (s.vmove a l done stop).2 = none) := by
  unfold State.vmove
  split
  · next x idx out hl =>
    rw [hl] at hd
    dsimp only
    split
    · exact ⟨hs, fun _ => rfl⟩
    · refine runPieces_goes (fun t j ht => h.vmoveRow ht (fun hk => hd hk x (by simp)) (fun hk => hd hk idx (by simp))
        (fun hk => hd hk out (by simp)) ..) _ ?_
      split
      · exact h.count _ 5 0x20 _ (by decide) (by decide) hs
      · exact hs
  · exact ⟨hs, fun _ => rfl⟩

theorem voptBlock (hs : P s) {w g m1 m2 : Desc} (hw : ok → w.spm = true) (hg : ok → g.spm = true) (h1 : ok → m1.spm = true) (h2 : ok → m2.spm = true)
    (raw : List Byte) (x : Nat × Nat) : Goes ok P (s.voptBlock a raw w g m1 m2 x) := by
  have hl {d : Desc} (hd : ok → d.spm = true) (hk : ok) : (s.vload a d .f32 x.1 x.2 32).isSome = true :=
    State.vload_isSome (h.clean s hk hs) (hd hk) ..
  unfold State.voptBlock
  exact .read (hl hw) fun vw => .read (hl hg) fun vg => .read (hl h1) fun v1 => .read (hl h2) fun v2 =>
    (h.vstore hs hw ..).bind fun t ht => (h.vstore ht h1 ..).bind fun u hu => h.vstore hu h2 ..

theorem vopt (hs : P s) (hd : ok → ∀ d, some d ∈ l.descs → d.spm = true) (done : Nat) (stop : Option Nat) :
    P (s.vopt a l done stop).1 ∧ (ok → (s.vopt a l done stop).2 = none) := by
  unfold State.vopt
  split
  · next w g m1 m2 hl =>
    rw [hl] at hd
    dsimp only
    split
    · exact ⟨hs, fun _ => rfl⟩
    · refine runPieces_goes (fun t x ht => h.voptBlock ht (fun hk => hd hk w (by simp)) (fun hk => hd hk g (by simp))
        (fun hk => hd hk m1 (by simp)) (fun hk => hd hk m2 (by simp)) ..) _ ?_
      split
      · exact h.count _ 5 0x20 _ (by decide) (by decide) hs
      · exact hs
  · exact ⟨hs, fun _ => rfl⟩

end EngineKeeps

end Sys2Proof.Machine
end

section
/-! PROOF. The nine instructions of the engines outside the Braid that run on a scratchpad without stored errors, from their start to the
walker's next instruction (R138, R168, R183, R239, R240). -/

namespace Sys2Proof.Machine

variable {s t u : State} {n : IbexId} {l : Loaded}

/-! ### A write without stored errors -/

/-- Without stored errors and armed flips a write to the scratchpad touches the Ibex alone. -/
theorem State.tWrite_clean (hc : t.Clean n.val) (c x : Nat) (bs : List Byte) : ∃ i, t.tWrite ⟨n.val, c⟩ true x bs = some { t with ibex := i } := by
  unfold State.tWrite
  cases hb : bs.isEmpty with
  | true => exact ⟨t.ibex, rfl⟩
  | false =>
    rw [State.spmWrite_clean hc.spm (hc.flip 2) hb]
    exact ⟨_, rfl⟩

/-! ### What an engine has done -/

/-- The rank as the engine of its instruction leaves it: the walker that passes the instruction makes of it what it makes of the old one. -/
def Sorter (l : Loaded) (f : Rank → Rank) : Prop := ∀ r, (f r).passed l = r.passed l

/-- From s to t the engine of a loaded instruction has worked on Ibex n. -/
structure State.Worked (s t : State) (n : IbexId) (l : Loaded) : Prop where
  piped : ({ s with fresh := t.fresh } : State).Piped t n
  done : t.reg (ibexReg n.val 2 0x50) = s.reg (ibexReg n.val 2 0x50)
  queues : s.QueuesBut t l.queue
  held : ∃ f, Sorter l f ∧ (t.queue l.queue).held = (s.queue l.queue).held.map (·.modRank l.rank f)

namespace State.Worked

theorem refl (h : s.Inv) (n : IbexId) (l : Loaded) : s.Worked s n l :=
  ⟨State.Piped.refl h n, rfl, fun _ _ => rfl, id, fun _ => rfl, by
    rw [show (fun st : Step => st.modRank l.rank id) = id from funext fun st => by rw [Step.modRank, List.modify_id]; rfl, Option.map_id, id]⟩

theorem clean (h : s.Worked t n l) (hc : s.Clean n.val) : t.Clean n.val := h.piped.clean ⟨hc.spm, hc.acc, hc.flip⟩

/-- The parts that may differ, named by the later state. -/
theorem rest_eq (h : s.Worked t n l) :
    t = { s with ibex := t.ibex, regs := t.regs, fresh := t.fresh, sch := { s.sch with queues := t.sch.queues } } := by
  obtain ⟨_, _, _, hr⟩ := h.piped.rest
  generalize t.fresh = k at hr
  subst hr
  rfl

theorem count (h : s.Worked t n l) {blk o : Nat} (ho : blk * 0x10000 + o < 0x200000) (hne : blk * 0x10000 + o ≠ 0x20050) (k : Nat) :
    s.Worked (t.count (ibexReg n.val blk o) k) n l := by
  refine ⟨h.piped.count ho k, ?_, h.queues, h.held⟩
  rw [State.reg_count h.piped.inv, if_neg (by unfold ibexReg; omega), h.done]

theorem draw (h : s.Worked t n l) (k : Nat) : s.Worked { t with fresh := t.fresh + k } n l := by
  obtain ⟨hinv, hflip, hib, hibs, i, r, q, hrest⟩ := h.piped
  exact ⟨⟨{ hinv with }, hflip, hib, hibs, i, r, q, congrArg (fun u : State => { u with fresh := t.fresh + k }) hrest⟩, h.done, h.queues, h.held⟩

theorem setSorting (h : s.Worked t n l) (x : Sorting) : s.Worked (t.setSorting l x) n l := by
  have hi := h.piped.inv
  obtain ⟨f, hf, hh⟩ := h.held
  refine ⟨h.piped.modStep .., h.done, fun p hp => (State.queuesBut_modStep hi _ _ p hp).trans (h.queues p hp),
    (fun r : Rank => { r with sorting := x }) ∘ f, fun r => hf r, ?_⟩
  rw [State.setSorting, State.held_modRank hi, hh, Option.map_map]
  exact Option.map_congr fun st _ => st.modRank_modRank ..

theorem write (h : s.Worked t n l) (hc : s.Clean n.val) (c x : Nat) (bs : List Byte) :
    ∃ u, t.tWrite ⟨n.val, c⟩ true x bs = some u ∧ s.Worked u n l := by
  obtain ⟨i, hi⟩ := State.tWrite_clean (h.clean hc) c x bs
  obtain ⟨u, hu, hp⟩ := h.piped.tWrite ⟨hc.spm, hc.acc, hc.flip⟩ c x bs
  obtain rfl : u = { t with ibex := i } := Option.some.inj (hu.symm.trans hi)
  exact ⟨_, hi, hp, h.done, h.queues, h.held⟩

/-- The engines outside the Braid keep to this where nothing can fail. -/
theorem engineKeeps (hc : s.Clean n.val) : EngineKeeps True (fun t => s.Worked t n l) (l.acc1 n.val) l where
  count _ _ _ k ho hne h := h.count ho hne k
  fresh _ k h := h.draw k
  sorting _ x h := h.setSorting x
  write t spm x bs hs h := by
    obtain ⟨u, hu, hw⟩ := h.write hc l.ctx x bs
    rw [hs trivial, show l.acc1 n.val = ⟨n.val, l.ctx⟩ from rfl, hu]
    exact .some hw
  clean _ _ h := (h.clean hc).spm

end State.Worked

end Sys2Proof.Machine
end

section
/-! PROOF. An instruction outside the Braid from its start to the walker's next instruction, on a scratchpad without stored errors (R138,
R168, R183, R239, R240). -/

namespace Sys2Proof.Machine

variable {s t u : State} {n : IbexId} {l : Loaded} {st : Step} {r : Rank} {op : Nat}

/-! ### The walker's part -/

/-- The walker after the engine is done: the operands' spans count as read, and the instruction is passed. -/
def State.passUnit (s : State) (n : Nat) (l : Loaded) (ps : List Span) : State := ((s.mendReads n l ps).passCur n l).instrDone n

/-- An engine that runs to its end without a fault (R138). -/
theorem State.runUnit_next {mine : State → Loaded → List Span} {f : Loaded → Rank → State → State × Option W16}
    (hc : s.curOf n.val op = some (l, st, r)) (hn : s.conflicts n.val l = false) (hf : f l r s = (t, none)) :
    s.runUnit n.val op none mine f = .next ((t.laneWork s n.val l).passUnit n.val l (mine s l)) := by
  unfold State.runUnit
  rw [hc]
  dsimp only
  rw [if_neg (by rw [hn]; decide), hf]
  rfl

theorem State.laneWork_idle (h : t.reg (ibexReg n.val 5 8) = s.reg (ibexReg n.val 5 8)) : t.laneWork s n.val l = t := by
  unfold State.laneWork
  rw [h, BitVec.sub_self]
  rfl

/-! ### Work of the vector lanes -/

theorem Tbl.set_get {α : Type} [DecidableEq α] {d : α} {t : Tbl α} (h : Tbl.ok d t) (i : Nat) : Tbl.set d t i (Tbl.get d t i) = t := by
  induction t with
  | nil => exact if_pos rfl
  | cons e t ih =>
    obtain ⟨k, w⟩ := e
    rcases lt_trichotomy i k with hi | rfl | hi
    · simp [Tbl.set, Tbl.get, hi, hi.ne]
    · simp [Tbl.set, Tbl.get, Tbl.canon_head (d := fun _ => d) h]
    · simp [Tbl.set, Tbl.get, hi.not_gt, hi.ne', ih (Tbl.canon_tail (d := fun _ => d) h)]

theorem Work.add_none (w : Work) : w.add { vec := 0 } = w := rfl

/-- No work leaves the activity counters as they are. -/
theorem State.addWork_none (h : s.Inv) (c : Nat) : (s.addWork c { vec := 0 }).acts = s.acts := by
  unfold State.addWork
  simp only [Tbl.modify, Work.add_none, Tbl.set_get h.acts]

theorem State.laneWork_eq (h : s.Inv) (hs : t.acts = s.acts) : t.laneWork s n.val l =
    { t with acts := (s.addWork l.ctx { vec := (t.reg (ibexReg n.val 5 8) - s.reg (ibexReg n.val 5 8)).toNat }).acts } := by
  unfold State.laneWork
  dsimp only
  split
  · next hk =>
    rw [hk, State.addWork_none h, ← hs]
  · unfold State.addWork
    rw [hs]

/-! ### The instruction is passed -/

/-- The walker passes an instruction and counts it (R138). -/
theorem State.passDone_passed (h : u.Inv) (n : Nat) (l : Loaded) :
    u.Passed ((u.passCur n l).instrDone n) n l [ibexReg n 2 0x50] (·.passed l) ∧
      ((u.passCur n l).instrDone n).reg (ibexReg n 2 0x50) = u.reg (ibexReg n 2 0x50) + 1 :=
  ⟨(State.passCur_passed h n l _).count (List.mem_singleton_self _) 1,
    State.reg_instrDone (State.passCur_passed h n l []).toWalked List.not_mem_nil⟩

/-- What an instruction of an engine outside the Braid leaves, from its start to the walker's next instruction. -/
structure State.UnitDone (s v : State) (n : IbexId) (l : Loaded) : Prop where
  cur : (v.ib n.val).cur = none
  done : v.reg (ibexReg n.val 2 0x50) = s.reg (ibexReg n.val 2 0x50) + 1
  held : (v.queue l.queue).held = (s.queue l.queue).held.map (·.modRank l.rank (·.passed l))
  ibexes : s.IbexesBut v n.val
  queues : s.QueuesBut v l.queue
  rest : v = { s with ibex := v.ibex, regs := v.regs, fresh := v.fresh, sch := { s.sch with queues := v.sch.queues },
                      acts := (s.addWork l.ctx { vec := (v.reg (ibexReg n.val 5 8) - s.reg (ibexReg n.val 5 8)).toNat }).acts }

theorem Step.modRank_passed {f : Rank → Rank} (hf : Sorter l f) (st : Step) (r : Nat) :
    (st.modRank r f).modRank r (·.passed l) = st.modRank r (·.passed l) := by
  rw [Step.modRank_modRank]
  exact congrArg (st.modRank r) (funext hf)

theorem State.Worked.unitDone (h : s.Inv) (hc : s.Clean n.val) (hw : s.Worked t n l) (ps : List Span) :
    s.UnitDone ((t.laneWork s n.val l).passUnit n.val l ps) n l := by
  rw [State.laneWork_eq h (congrArg State.acts hw.rest_eq :)]
  generalize hk : (t.reg (ibexReg n.val 5 8) - s.reg (ibexReg n.val 5 8)).toNat = k
  have hi : State.Inv { t with acts := (s.addWork l.ctx { vec := k }).acts } :=
    { hw.piped.inv with acts := ((State.addWork_keep s l.ctx { vec := k } (Kept.refl s)).inv h).acts }
  have hm := State.mendReads_clean (s := { t with acts := (s.addWork l.ctx { vec := k }).acts }) (hw.clean hc).spm l ps
  obtain ⟨hp, hdone⟩ := State.passDone_passed hi n.val l
  unfold State.passUnit
  rw [hm]
  generalize ((State.passCur { t with acts := (s.addWork l.ctx { vec := k }).acts } n.val l).instrDone n.val) = v at hp hdone
  obtain ⟨f, hf, hheld⟩ := hw.held
  refine ⟨hp.cur, hdone.trans (congrArg (· + 1) hw.done), ?_, fun m hm => (hp.ibexes m hm).trans (hw.piped.ibexes m hm),
    fun q hq => (hp.queues q hq).trans (hw.queues q hq), ?_⟩
  · refine hp.held.trans ((congrArg (Option.map _) hheld).trans ?_)
    rw [Option.map_map]
    exact Option.map_congr fun st _ => Step.modRank_passed hf st l.rank
  · have hv : v.reg (ibexReg n.val 5 8) = t.reg (ibexReg n.val 5 8) := hp.regs _ (by unfold ibexReg; simp)
    have hf : v.fresh = t.fresh := (congrArg State.fresh hp.rest_eq :)
    rw [hv, hk, hf]
    have ht := hw.rest_eq
    refine hp.rest_eq.trans ?_
    generalize t.ibex = i, t.regs = g, t.fresh = f, t.sch.queues = q at ht
    subst ht
    rfl

end Sys2Proof.Machine
end

section
/-! PROOF. The instructions of the engines outside the Braid on a scratchpad without stored errors, and those that a rank other than 0
passes (R128, R134, R138, R168, R183, R187, R218, R230, R239, R240). -/

namespace Sys2Proof.Machine

variable {s : State} {n : IbexId} {l : Loaded} {st : Step} {r : Rank} {op : Nat} {i : Instr}

/-! ### The instructions as runs of a unit -/

section runs
variable (n : IbexId) (s : State)

theorem exec_nop_run : exec (.nop n) s = s.runUnit n.val 0x00 none (fun _ _ => []) fun _ _ s => (s, none) := rfl

theorem exec_wpool_run : exec (.wpool n none) s =
    s.runUnit n.val 0x21 none (fun _ l => l.reducerSpans) fun l r s => s.runReducer n.val l r.done none := rfl

theorem exec_wresample_run : exec (.wresample n none) s =
    s.runUnit n.val 0x22 none (fun _ l => l.reducerSpans) fun l r s => s.runReducer n.val l r.done none := rfl

theorem exec_wregroup_run : exec (.wregroup n none) s =
    s.runUnit n.val 0x23 none (fun _ l => l.reducerSpans) fun l r s => s.runReducer n.val l r.done none := rfl

theorem exec_ssort_run : exec (.ssort n none) s = s.runUnit n.val 0x90 none (fun _ l => l.alone) fun l r s =>
    if l.rank = 0 then s.sort (l.acc1 n.val) l r.done none else (s, none) := rfl

theorem exec_hist_run : exec (.hist n) s = s.runUnit n.val 0x80 none (fun _ l => l.alone) fun l _ s =>
    if l.rank = 0 then orUe s (s.hist (l.acc1 n.val) l.raw l.descs) else (s, none) := rfl

theorem exec_vseq_run : exec (.vseq n none) s =
    s.runUnit n.val 0x40 none (fun _ l => l.vseqSpans) fun l r s => s.vseq (l.acc1 n.val) l r.done none := rfl

theorem exec_vred_run : exec (.vred n none) s =
    s.runUnit n.val 0x41 none (fun _ l => l.shareSpans 1) fun l r s => s.vred (l.acc1 n.val) l r.done none := rfl

theorem exec_vmove_run : exec (.vmove n none) s =
    s.runUnit n.val 0x42 none (fun s l => s.vmoveSpans n.val l) fun l r s => s.vmove (l.acc1 n.val) l r.done none := rfl

theorem exec_vopt_run : exec (.vopt n none) s =
    s.runUnit n.val 0x43 none (fun _ l => l.shareSpans 4) fun l r s => s.vopt (l.acc1 n.val) l r.done none := rfl

theorem exec_track_run : exec (.track n) s = s.runUnit n.val 0x60 none State.sclReads fun l _ s =>
    if l.rank = 0 then s.track (l.acc1 n.val) l else (s, none) := rfl

theorem exec_emit_run : exec (.emit n) s = s.runUnit n.val 0x61 none State.sclReads fun l _ s =>
    if l.rank = 0 then s.emit (l.acc1 n.val) l else (s, none) := rfl

end runs

/-- NOP and what a rank has no part in change nothing before they are passed. -/
theorem exec_idle {mine : State → Loaded → List Span} {f : Loaded → Rank → State → State × Option W16}
    (he : exec i s = s.runUnit n.val op none mine f) (hc : s.curOf n.val op = some (l, st, r)) (hn : s.conflicts n.val l = false) (hf : f l r s = (s, none)) :
    exec i s = .next (s.passUnit n.val l (mine s l)) := by
  rw [he, State.runUnit_next hc hn hf, State.laneWork_idle rfl]

/-- An engine that works without a fault leaves what its instruction leaves. -/
theorem exec_done {mine : State → Loaded → List Span} {f : Loaded → Rank → State → State × Option W16}
    (he : exec i s = s.runUnit n.val op none mine f) (h : s.Inv) (hcl : s.Clean n.val) (hc : s.curOf n.val op = some (l, st, r)) (hn : s.conflicts n.val l = false)
    (hf : s.Worked (f l r s).1 n l ∧ (True → (f l r s).2 = none)) : ∃ t, exec i s = .next t ∧ s.UnitDone t n l :=
  ⟨_, he.trans <| State.runUnit_next hc hn (Prod.ext rfl (hf.2 trivial)), hf.1.unitDone h hcl _⟩

/-! ### Work of rank 0 alone -/

theorem State.rankZero {f : State × Option W16} (h : s.Inv) (hf : s.Worked f.1 n l ∧ (True → f.2 = none)) :
    s.Worked (if l.rank = 0 then f else (s, none)).1 n l ∧ (True → (if l.rank = 0 then f else (s, none)).2 = none) := by
  split
  · exact hf
  · exact ⟨.refl h n l, fun _ => rfl⟩

/-- The instructions of the engines outside the Braid, with their opcodes. -/
def unitInstrs (n : IbexId) : List (Nat × Instr) :=
  [(0x21, .wpool n none), (0x22, .wresample n none), (0x23, .wregroup n none), (0x90, .ssort n none), (0x80, .hist n),
    (0x40, .vseq n none), (0x41, .vred n none), (0x42, .vmove n none), (0x43, .vopt n none)]

/-- Each of them runs to its end and is passed (R138, R168, R183, R239, R240). -/
theorem exec_unit (h : s.Inv) (hi : (op, i) ∈ unitInstrs n) (hc : s.curOf n.val op = some (l, st, r)) (hn : s.conflicts n.val l = false)
    (hcl : s.Clean n.val) (hd : ∀ d, some d ∈ l.descs → d.spm = true) : ∃ t, exec i s = .next t ∧ s.UnitDone t n l := by
  have hk : EngineKeeps True (fun t => s.Worked t n l) (l.acc1 n.val) l := State.Worked.engineKeeps hcl
  have hs : s.Worked s n l := .refl h n l
  have hreduce := hk.runReducer rfl hs (fun _ => hd) r.done none
  simp only [unitInstrs, List.mem_cons, Prod.mk.injEq, List.not_mem_nil, or_false] at hi
  rcases hi with ⟨rfl, rfl⟩ | ⟨rfl, rfl⟩ | ⟨rfl, rfl⟩ | ⟨rfl, rfl⟩ | ⟨rfl, rfl⟩ | ⟨rfl, rfl⟩ | ⟨rfl, rfl⟩ | ⟨rfl, rfl⟩ | ⟨rfl, rfl⟩
  · exact exec_done (exec_wpool_run n s) h hcl hc hn hreduce
  · exact exec_done (exec_wresample_run n s) h hcl hc hn hreduce
  · exact exec_done (exec_wregroup_run n s) h hcl hc hn hreduce
  · exact exec_done (exec_ssort_run n s) h hcl hc hn (State.rankZero h (hk.sort hs (fun _ => hd) r.done none))
  · exact exec_done (exec_hist_run n s) h hcl hc hn (State.rankZero h (orUe_goes hs (hk.hist hs (fun _ => hd) l.raw)))
  · exact exec_done (exec_vseq_run n s) h hcl hc hn (hk.vseq hs (fun _ => hd) r.done none)
  · exact exec_done (exec_vred_run n s) h hcl hc hn (hk.vred hs (fun _ => hd) r.done none)
  · exact exec_done (exec_vmove_run n s) h hcl hc hn (hk.vmove hs (fun _ => hd) r.done none)
  · exact exec_done (exec_vopt_run n s) h hcl hc hn (hk.vopt hs (fun _ => hd) r.done none)

/-! ### Instructions that are passed at once -/

theorem exec_nop (hc : s.curOf n.val 0x00 = some (l, st, r)) (hn : s.conflicts n.val l = false) :
    exec (.nop n) s = .next (s.passUnit n.val l []) := by
  rw [exec_nop_run, State.runUnit_next (t := s) hc hn rfl, State.laneWork_idle rfl]

theorem Loaded.alone_of_ne (hl : l.rank ≠ 0) : l.alone = [] := if_neg hl

theorem State.sclReads_of_ne (hl : l.rank ≠ 0) : s.sclReads l = [] := by
  unfold State.sclReads
  rw [Loaded.alone_of_ne hl, ite_self]

/-- TRACK, EMIT, SSORT and HIST are passed by every rank but 0 (R187, R218, R230, R247). -/
theorem exec_otherRank (hi : (op, i) ∈ [(0x60, Instr.track n), (0x61, .emit n), (0x90, .ssort n none), (0x80, .hist n)])
    (hc : s.curOf n.val op = some (l, st, r)) (hn : s.conflicts n.val l = false) (hl : l.rank ≠ 0) :
    exec i s = .next (s.passUnit n.val l []) := by
  simp only [List.mem_cons, Prod.mk.injEq, List.not_mem_nil, or_false] at hi
  rcases hi with ⟨rfl, rfl⟩ | ⟨rfl, rfl⟩ | ⟨rfl, rfl⟩ | ⟨rfl, rfl⟩
  · exact (exec_idle (exec_track_run n s) hc hn (if_neg hl)).trans (by rw [State.sclReads_of_ne hl])
  · exact (exec_idle (exec_emit_run n s) hc hn (if_neg hl)).trans (by rw [State.sclReads_of_ne hl])
  · exact (exec_idle (exec_ssort_run n s) hc hn (if_neg hl)).trans (by rw [Loaded.alone_of_ne hl])
  · exact (exec_idle (exec_hist_run n s) hc hn (if_neg hl)).trans (by rw [Loaded.alone_of_ne hl])

end Sys2Proof.Machine
end

section
/-! PROOF. Passing an instruction changes only the walker, the regions' display of a meeting, the rank and the counter (R138, R147). -/

namespace Sys2Proof.Machine

variable {u : State} {n : Nat} {l : Loaded}

theorem State.shownMeeting_quiet (hq : syncBit l.raw = false ∨ l.mat.isSome = true) : u.shownMeeting n l = u := by
  refine if_neg ?_
  rw [← Option.not_isSome]
  rcases hq with hq | hq
  · simp [hq]
  · simp [hq]

theorem State.shownMeeting_sync (hs : syncBit l.raw = true) (hm : l.mat = none) : u.shownMeeting n l = u.syncShow n l :=
  if_pos (by rw [hs, hm]; rfl)

theorem State.ib_passDone (h : u.Inv) : ((u.passCur n l).instrDone n).ib n = { (u.shownMeeting n l).ib n with cur := none } :=
  State.ib_modIb_self (State.shownMeeting_meeting h n l).inv n fun i => { i with cur := none }

theorem State.region_passDone (h : u.Inv) (q : Nat) : ((u.passCur n l).instrDone n).region n q = (u.shownMeeting n l).region n q := by
  unfold State.region
  rw [State.ib_passDone h]

/-- The two ways of an instruction's display as it is passed: none, or its regions wait at the meeting. -/
theorem State.passDone_ib (h : u.Inv) (n : Nat) (l : Loaded) :
    (syncBit l.raw = false ∨ l.mat.isSome = true → ((u.passCur n l).instrDone n).ib n = { u.ib n with cur := none }) ∧
    (syncBit l.raw = true → l.mat = none → ∀ q, q < 4 → u.jobAt n q = none → (((u.passCur n l).instrDone n).region n q).state = 3) := by
  refine ⟨fun hq => ?_, fun hs hm q hq hj => ?_⟩
  · rw [State.ib_passDone h, State.shownMeeting_quiet hq]
  · rw [State.region_passDone h, State.shownMeeting_sync hs hm]
    exact (State.syncShow_meeting h n l).2 q hq hj

theorem State.passDone_regions (h : u.Inv) (n : Nat) (l : Loaded) :
    ((u.passCur n l).instrDone n).ib n = { u.ib n with cur := none, regions := (((u.passCur n l).instrDone n).ib n).regions } := by
  obtain ⟨x, hx⟩ := (State.passDone_passed h n l).1.ib
  rw [hx]

end Sys2Proof.Machine
end

section
/-! PROOF. The engines outside the Braid touch only memory, scratchpads, registers, counters, the error log, free values and the queues
(R182, R242). -/

namespace Sys2Proof.Machine

/-- A state without what an engine may change: its Ibex and all that a write to memory may change. -/
def State.beyond (s : State) : State :=
  { s with mem := {}, regs := [], dict := [], log := [], ibex := [], fresh := 0, sch := { s.sch with queues := [] } }

/-- States that agree beyond what an engine may change. -/
theorem State.eq_of_beyond {s t : State} (h : t.beyond = s.beyond) :
    t = { s with mem := t.mem, ibex := t.ibex, regs := t.regs, dict := t.dict, log := t.log, fresh := t.fresh, sch := { s.sch with queues := t.sch.queues } } :=
  (congrArg (fun u : State => { u with
    mem := t.mem, ibex := t.ibex, regs := t.regs, dict := t.dict, log := t.log, fresh := t.fresh, sch := { u.sch with queues := t.sch.queues } }) h :)

/-! ### A write to a scratchpad -/

namespace State

variable {s : State} {P : State → Prop} {n : Nat} (hcount : ∀ t, ∀ j ∈ [0x55, 0x56], P t → P (t.countEntry 0x1500 j 1))
  (hib : ∀ t f, (∀ i : Ibex, i.ok → (f i).ok) → P t → P (t.modIb n f)) (hflip : ∀ t, P t → P t.flipDone)

include hcount hib in
theorem mendSpm_rec (hs : P s) (rs : List (Nat × Nat)) : P (s.mendSpm n rs) := by
  refine foldl_all hs fun u w hu => ?_
  split
  · exact hib _ _ (fun i h => ⟨Tbl.ok_setList h.spm, Tbl.ok_set h.spmSyn, h.acc, h.accSyn, h.slots, h.regions⟩) (hcount u _ (by simp) hu)
  · exact hu

include hib hflip in
theorem flipSpm_rec (hs : P s) (w k : Nat) : P (s.flipSpm n w k) := by
  unfold State.flipSpm
  split
  · exact hib _ _ (fun i h => ⟨Tbl.ok_setList h.spm, Tbl.ok_set h.spmSyn, h.acc, h.accSyn, h.slots, h.regions⟩) (hflip s hs)
  · exact hs

include hcount hib hflip in
/-- A write to a scratchpad counts errors, changes the Ibex and lets an armed flip act: what these keep, it keeps (R430, R434). -/
theorem spmWrite_rec (hs : P s) (x : Nat) (bs : List Byte) : P (s.spmWrite n x bs) := by
  unfold State.spmWrite
  split
  · exact hs
  · extract_lets w0 k edges t lost u
    have ht : P t := by
      unfold t
      split
      · exact hs
      · exact mendSpm_rec hcount hib hs _
    have hu : P u := foldl_all ht fun v _ hv => hcount v _ (by simp) hv
    refine flipSpm_rec hib hflip (hib u _ (fun i h => ?_) hu) _ _
    exact ⟨Tbl.ok_setList h.spm, Tbl.ok_foldl (Tbl.ok_clear h.spmSyn) fun t w h => Tbl.ok_set h, h.acc, h.accSyn, h.slots, h.regions⟩

end State

theorem State.beyond_tWrite (s : State) (a : Acc1) (spm : Bool) (x : Nat) (bs : List Byte) :
    OptAll (fun t => t.beyond = s.beyond) (s.tWrite a spm x bs) := by
  intro t ht
  unfold State.tWrite at ht
  split_ifs at ht
  · cases ht
    rfl
  · cases ht
    exact spmWrite_rec (P := fun t => t.beyond = s.beyond) (fun _ _ _ h => h) (fun _ _ _ h => h) (fun _ h => h) rfl ..
  · exact (congrArg State.beyond (outside_memWrite ht) :)

/-- The engines keep what lies beyond. -/
theorem State.beyond_engineKeeps (s : State) (a : Acc1) (l : Loaded) : EngineKeeps False (fun t => t.beyond = s.beyond) a l where
  count _ _ _ _ _ _ h := h
  fresh _ _ h := h
  sorting _ _ h := h
  write t spm x bs _ h := ⟨fun u hu => (t.beyond_tWrite a spm x bs u hu).trans h, False.elim⟩
  clean _ hk _ := hk.elim

/-- Whatever an engine outside the Braid does, all else stands as before (R182, R242). -/
theorem engines_frame {s u : State} {a : Acc1} {l : Loaded} {done : Nat} {stop : Option Nat}
    (h : (s.runReducer a.ibex l done stop).1 = u ∨ (s.sort a l done stop).1 = u ∨ s.hist a l.raw l.descs = some u ∨ (s.vseq a l done stop).1 = u ∨
      (s.vred a l done stop).1 = u ∨ (s.vmove a l done stop).1 = u ∨ (s.vopt a l done stop).1 = u) : u.beyond = s.beyond := by
  have hk := s.beyond_engineKeeps a l
  rcases h with rfl | rfl | h | rfl | rfl | rfl | rfl
  · exact ((s.beyond_engineKeeps (l.acc1 a.ibex) l).runReducer rfl rfl False.elim done stop).1
  · exact (hk.sort rfl False.elim done stop).1
  · exact (hk.hist rfl False.elim l.raw).1 u h
  · exact (hk.vseq rfl False.elim done stop).1
  · exact (hk.vred rfl False.elim done stop).1
  · exact (hk.vmove rfl False.elim done stop).1
  · exact (hk.vopt rfl False.elim done stop).1

end Sys2Proof.Machine
end

section
/-! PROOF. What the scalar core's routines leave alone: the registers of the Ibex clusters but their counters, and the open steps but the
slot they serve (R246, R249 to R256). -/

namespace Sys2Proof.Machine

variable {s t u : State}

/-! ### What the records of a stream leave alone -/

/-- The registers below those of the host port and of memory, and the queues. -/
def State.inner (s : State) : Tbl W64 × Tbl Queue := (lowRegs s.regs, s.sch.queues)

theorem State.inner_congr (hr : t.regs = s.regs) (hq : t.sch = s.sch) : t.inner = s.inner := by rw [State.inner, State.inner, hr, hq]

theorem State.inner_of_outside (h : t.outside = s.outside) : t.inner = s.inner :=
  (congrArg (fun u : State => (u.regs, u.sch.queues)) h :)

theorem State.reg_of_inner (hs : s.Inv) (ht : t.Inv) (h : t.inner = s.inner) {k : Nat} (hk : k < 0x2000000) : t.reg k = s.reg k := by
  have hlow {v : State} (hv : v.Inv) : Tbl.get (regReset k) (lowRegs v.regs) k = v.reg k := by
    unfold lowRegs
    rw [Tbl.get_keep (Tbl.canon_pairwise hv.regs) (fun k => decide (k < 0x2000000)), if_pos (decide_eq_true hk)]
    rfl
  rw [← hlow ht, ← hlow hs, show lowRegs t.regs = lowRegs s.regs from congrArg Prod.fst h]

theorem State.slotOf_of_inner (h : t.inner = s.inner) (q i : Nat) : t.slotOf q i = s.slotOf q i := by
  unfold State.slotOf State.queue
  rw [show t.sch.queues = s.sch.queues from congrArg Prod.snd h]

namespace State

variable (s : State)

theorem inner_issue (o : Out) (wb : WriteBack) : (s.issue o wb).inner = s.inner :=
  inner_congr (serveWaits_regs ..) (Settled.serveWaits ..).2

theorem inner_msix (k n : Nat) : (s.msix k n).inner = s.inner := by
  unfold State.msix
  split
  · exact inner_issue ..
  · rfl

theorem inner_coalesce (n : Nat) : (s.coalesce n).inner = s.inner := by
  unfold State.coalesce
  split
  · rfl
  · dsimp only
    split
    · exact inner_msix ..
    · rfl

theorem inner_crReg (n o : Nat) (v : W64) : (s.setReg (crReg n o) v).inner = s.inner :=
  congrArg (fun r => (r, s.sch.queues)) (lowRegs_set (by unfold crReg hpBase; omega) v s.regs)

theorem inner_placeRecord (n : Nat) (rec : List Byte) (closing : Bool) : (s.placeRecord n rec closing).inner = s.inner := by
  unfold State.placeRecord
  extract_lets tail lg phase u w x
  have hw : w.inner = s.inner := (inner_crReg ..).trans (inner_issue ..)
  split
  · refine (inner_coalesce ..).trans ?_
    unfold x
    split
    · exact hw
    · exact (inner_issue ..).trans hw
  · exact hw

theorem inner_putRecord (n : Nat) (rec : List Byte) : OptAll (fun t => t.inner = s.inner) (s.putRecord n rec) := by
  intro t ht
  obtain ⟨-, ht⟩ := Option.ite_none_right_eq_some.1 ht
  cases ht
  exact inner_placeRecord ..

theorem inner_memPut (x : Nat) (bs : List Byte) : (s.memPut x bs).inner = s.inner := by
  unfold State.memPut
  cases h : s.memWrite x bs with
  | none => rfl
  | some t => exact inner_of_outside (outside_memWrite h)

end State

/-! ### A slot being served -/

/-- A state in which a routine of Ibex n serves slot i of queue q: the slot is there, and VEC_ELEMS of the Ibex stands at v. -/
structure State.InSlot (t : State) (n : IbexId) (v : W64) (q i : Nat) : Prop where
  inv : t.Inv
  work : t.reg (ibexReg n.val 5 8) = v
  slot : (t.slotOf q i).isSome = true

namespace State.InSlot

variable {n : IbexId} {v : W64} {q i : Nat}

theorem same (h : s.InSlot n v q i) (hi : t.Inv) (hp : t.inner = s.inner) : t.InSlot n v q i :=
  ⟨hi, (State.reg_of_inner h.inv hi hp (ibexReg_lt n (by decide))).trans h.work, by rw [State.slotOf_of_inner hp]; exact h.slot⟩

theorem count (h : s.InSlot n v q i) (m : Nat) {o : Nat} (ho : o < 0x10000) (hne : o ≠ 8) (k : Nat) :
    (s.count (ibexReg m 5 o) k).InSlot n v q i := by
  refine ⟨State.count_inv h.inv _ k, ?_, h.slot⟩
  rw [State.reg_count h.inv, if_neg (by unfold ibexReg; omega), h.work]

theorem modStream (h : s.InSlot n v q i) (m : Nat) (f : Stream → Stream) : (s.modStream m f).InSlot n v q i :=
  h.same (State.modStream_inv h.inv m f) rfl

theorem slotOf_modSlot (h : s.Inv) (q i : Nat) (f : Slot → Slot) :
    ((s.modSlot q i f).slotOf q i).map Prod.snd = ((s.slotOf q i).map Prod.snd).map f := by
  unfold State.slotOf State.modSlot Step.slot?
  rw [State.held_modStep h]
  cases (s.queue q).held with
  | none => rfl
  | some st => simp [Function.comp_def]

theorem modSlot (h : s.InSlot n v q i) (f : Slot → Slot) : (s.modSlot q i f).InSlot n v q i := by
  refine ⟨State.modStep_inv h.inv q _, h.work, ?_⟩
  rw [← Option.isSome_map (f := Prod.snd), slotOf_modSlot h.inv, Option.isSome_map, Option.isSome_map]
  exact h.slot

/-! ### Records -/

theorem putRecord (h : s.InSlot n v q i) (m : Nat) (rec : List Byte) (ht : s.putRecord m rec = some t) : t.InSlot n v q i :=
  h.same ((State.putRecord_keep s m rec (Kept.refl s) t ht).inv h.inv) (State.inner_putRecord s m rec t ht)

theorem memPut (h : s.InSlot n v q i) (x : Nat) (bs : List Byte) : (s.memPut x bs).InSlot n v q i :=
  h.same ((State.memPut_keep s x bs (Kept.refl s)).inv h.inv) (State.inner_memPut ..)

theorem emitRecord (h : s.InSlot n v q i) (rec : List Byte) : (s.emitRecord n.val q i rec).InSlot n v q i := by
  unfold State.emitRecord
  split
  · exact h
  · split
    · next t ht =>
      exact ((h.putRecord _ rec (Option.ite_none_left_eq_some.1 ht).2).modSlot _).count n.val (by decide) (by decide) 1
    · exact (h.modSlot _).count n.val (by decide) (by decide) 1

theorem setEntry (h : s.InSlot n v q i) (a b c : Nat) : (s.setEntry a b c).InSlot n v q i := h.same (State.setEntry_inv h.inv a b c) rfl

theorem placeRecord (h : s.InSlot n v q i) (m : Nat) (rec : List Byte) (closing : Bool) : (s.placeRecord m rec closing).InSlot n v q i :=
  h.same ((State.placeRecord_keep s m rec closing (Kept.refl s)).inv h.inv) (State.inner_placeRecord ..)

theorem logDev (h : s.InSlot n v q i) (code : W16) (kind obj : Nat) : (s.logDev code kind obj).InSlot n v q i :=
  h.same ((State.logDev_keep s code kind obj (Kept.refl s)).inv h.inv) (State.inner_of_outside (State.outside_logDev ..))

theorem putClosing (h : s.InSlot n v q i) (m ib : Nat) (rec : List Byte) : (s.putClosing m ib rec).InSlot n v q i := by
  unfold State.putClosing
  split_ifs
  · exact (h.modStream ..).placeRecord ..
  · exact (h.modStream ..).modStream ..
  · exact h
  · have hl := ((h.count ib (o := 0x68) (by decide) (by decide) 1).setEntry (0x2000 + m) 0x1D Code.SCL_RING_OVERRUN.toNat).logDev
      Code.SCL_RING_OVERRUN 1 m
    dsimp only
    split
    · exact hl.setEntry ..
    · exact hl

/-- The closing record of EMIT closes its slot (R253). -/
theorem emitClose (h : s.InSlot n v q i) (kind : Nat) (status : W16) (dets : Nat) : (s.emitClose n.val q i kind status dets).InSlot n v q i ∧
    ((s.emitClose n.val q i kind status dets).slotOf q i).map (fun x => x.2.closed) = some true := by
  unfold State.emitClose
  split
  · next hn =>
    have := h.slot
    rw [hn] at this
    cases this
  · next st sl hs =>
    split
    · next hc => exact ⟨h, by rw [hs, Option.map_some, hc]⟩
    · have hp : (s.closeSlot ((s.queue q).lead == 0xFF) st i sl kind status dets).InSlot n v q i := h.putClosing ..
      refine ⟨(hp.modSlot _).count n.val (by decide) (by decide) _, ?_⟩
      have hm := slotOf_modSlot hp.inv q i fun sl => { sl with closed := true }
      obtain ⟨x, hx⟩ := Option.isSome_iff_exists.1 hp.slot
      rw [hx, Option.map_some, Option.map_some] at hm
      have := congrArg (Option.map Slot.closed) hm
      rw [Option.map_map] at this
      exact this

end State.InSlot

end Sys2Proof.Machine
end

section
/-! PROOF. TRACK and EMIT on rank 0 (R243, R246, R247, R249 to R256). -/

namespace Sys2Proof.Machine

variable {s t u : State} {n : IbexId} {l : Loaded} {st st' : Step} {sl : Slot} {r : Rank}

theorem State.InSlot.refl (h : s.Inv) (hs : s.sclSlotOf l = some (st', sl)) :
    s.InSlot n (s.reg (ibexReg n.val 5 8)) l.queue (sclSlot l.raw) :=
  ⟨h, rfl, Option.isSome_iff_exists.2 ⟨_, hs⟩⟩

/-- A routine that runs to its end in its slot is passed: no lane operation is counted for it. -/
theorem State.passed_inSlot {q i : Nat} (h : t.InSlot n (s.reg (ibexReg n.val 5 8)) q i) (ps : List Span) :
    (t.laneWork s n.val l).passUnit n.val l ps = t.passUnit n.val l ps := by rw [State.laneWork_idle h.work]

/-! ### EMIT -/

theorem State.emit_done (h : s.Inv) (hs : s.sclSlotOf l = some (st', sl))
    (hr : sl.state = .void ∨ ∃ x, s.emitReads (l.acc1 n.val) l sl = .ok x) : (s.emit (l.acc1 n.val) l).2 = none ∧
      (s.emit (l.acc1 n.val) l).1.InSlot n (s.reg (ibexReg n.val 5 8)) l.queue (sclSlot l.raw) ∧
      ((s.emit (l.acc1 n.val) l).1.slotOf l.queue (sclSlot l.raw)).map (fun x => x.2.closed) = some true := by
  have h0 : s.InSlot n (s.reg (ibexReg n.val 5 8)) l.queue (sclSlot l.raw) := .refl h hs
  unfold State.emit
  extract_lets i
  rw [hs]
  dsimp only
  split
  · exact ⟨rfl, h0.emitClose ..⟩
  · next hv =>
    obtain ⟨⟨rows, cs, ts⟩, hx⟩ := hr.resolve_left fun e => hv (by rw [e]; rfl)
    rw [hx]
    dsimp only
    refine ⟨rfl, State.InSlot.emitClose ?_ ..⟩
    have hrec (recs : List (List Byte)) : (recs.foldl (fun s r => s.emitRecord n.val l.queue i r) s).InSlot n (s.reg (ibexReg n.val 5 8)) l.queue i :=
      foldl_all (P := fun t => State.InSlot t n (s.reg (ibexReg n.val 5 8)) l.queue i) h0 fun t x ht => ht.emitRecord x
    split
    · exact hrec _
    · refine (State.InSlot.modStream ?_ ..).modSlot _
      split
      · exact (hrec _).memPut ..
      · exact hrec _

/-- EMIT whose operands can be read, or of a void slot, is passed (R249 to R256). -/
theorem exec_emit (h : s.Inv) (hc : s.curOf n.val 0x61 = some (l, st, r)) (hn : s.conflicts n.val l = false) (hl : l.rank = 0)
    (hs : s.sclSlotOf l = some (st', sl)) (hr : sl.state = .void ∨ ∃ x, s.emitReads (l.acc1 n.val) l sl = .ok x) :
    exec (.emit n) s = .next ((s.emit (l.acc1 n.val) l).1.passUnit n.val l (s.sclReads l)) := by
  obtain ⟨h2, hi, -⟩ := State.emit_done (n := n) h hs hr
  have he : s.emit (l.acc1 n.val) l = ((s.emit (l.acc1 n.val) l).1, none) := Prod.ext rfl h2
  rw [exec_emit_run, State.runUnit_next hc hn ((if_pos hl).trans he), State.passed_inSlot hi]

/-! ### TRACK -/

/-- From s to t a scratchpad has been written: memory, the herds' masks, the queues and every register but INT_FLIP_CTL stand as before. -/
structure State.SpmOnly (s t : State) : Prop where
  inv : t.Inv
  mem : t.mem = s.mem
  mask : ∀ j, t.pcMask j = s.pcMask j
  regs : ∀ k ≠ intBase, t.reg k = s.reg k
  sch : t.sch = s.sch

theorem State.spmOnly_tWrite (h : s.Inv) (a : Acc1) (x : Nat) (bs : List Byte) : ∃ u, s.tWrite a true x bs = some u ∧ s.SpmOnly u := by
  have h0 : s.SpmOnly s := ⟨h, rfl, fun _ => rfl, fun _ _ => rfl, rfl⟩
  unfold State.tWrite
  cases bs.isEmpty with
  | true => exact ⟨s, rfl, h0⟩
  | false =>
    have hw : s.SpmOnly (s.spmWrite a.ibex (s.partBase a + x) bs) := by
      refine State.spmWrite_rec (P := fun t => s.SpmOnly t) (fun t j hj ht => ?_) (fun t f hf ht => ?_) (fun t ht => ?_) h0 ..
      · refine ⟨State.countEntry_inv ht.inv .., ht.mem, fun k => ?_, ht.regs, ht.sch⟩
        rw [State.pcMask, State.entry_countEntry ht.inv, if_neg]
        · exact ht.mask k
        · simp only [List.mem_cons, List.not_mem_nil, or_false] at hj
          unfold dkey
          omega
      · exact ⟨State.modIb_inv ht.inv _ hf, ht.mem, ht.mask, ht.regs, ht.sch⟩
      · have hi : (t.setField intBase 6 1 0).Inv := State.setReg_inv ht.inv ..
        refine ⟨State.setReg_inv hi .., ht.mem, ht.mask, fun k hk => ?_, ht.sch⟩
        unfold State.flipDone
        rw [State.reg_setField hi, if_neg hk, State.reg_setField ht.inv, if_neg hk, ht.regs k hk]
    exact ⟨_, rfl, (State.markUsed_keep _ a x bs.length (Kept.refl _)).inv hw.inv, hw.mem, hw.mask, hw.regs, hw.sch⟩

theorem State.SpmOnly.rangeOk (h : s.SpmOnly u) (x k : Nat) : u.rangeOk x k = s.rangeOk x k :=
  State.rangeOk_congr h.mem h.mask (fun _ _ => h.regs _ (by unfold intBase memBase; omega)) x k

theorem State.SpmOnly.inSlot {v : W64} {q i : Nat} (h : s.SpmOnly u) (hs : s.InSlot n v q i) : u.InSlot n v q i := by
  have hk := ibexReg_lt n (blk := 5) (o := 8) (by decide)
  refine ⟨h.inv, (h.regs _ ?_).trans hs.work, ?_⟩
  · unfold intBase
    omega
  · have := hs.slot
    unfold State.slotOf State.queue at this ⊢
    rwa [h.sch]

theorem State.memWrite_some {x : Nat} {bs : List Byte} (h : s.rangeOk x bs.length = true) : ∃ t, s.memWrite x bs = some t :=
  ⟨_, if_pos h⟩

/-- TRACK of a stream without a table is passed at once (R246). -/
theorem exec_track_none (hc : s.curOf n.val 0x60 = some (l, st, r)) (hn : s.conflicts n.val l = false) (hl : l.rank = 0)
    (hs : s.sclSlotOf l = some (st', sl)) {det cnt box : Desc} {cls : Option Desc} (hd : l.descs = [some det, some cnt, some box, cls])
    (hno : s.strOpen sl.stream = false ∨ s.trackAddr sl.stream = none) : exec (.track n) s = .next (s.passUnit n.val l (s.sclReads l)) := by
  have ht : s.track (l.acc1 n.val) l = (s, none) := by
    have ha : (if s.strOpen sl.stream then s.trackAddr sl.stream else none) = none := by
      rcases hno with h | h
      · rw [h]; rfl
      · rw [h, ite_self]
    unfold State.track
    rw [hd, hs]
    dsimp only
    rw [ha]
  exact exec_idle (exec_track_run n s) hc hn ((if_pos hl).trans ht)

/-- TRACK writes its table to the work area and to memory, and is passed (R246, R247). -/
theorem exec_track_table (h : s.Inv) (hc : s.curOf n.val 0x60 = some (l, st, r)) (hn : s.conflicts n.val l = false) (hl : l.rank = 0)
    (hs : s.sclSlotOf l = some (st', sl)) {det cnt box : Desc} {cls : Option Desc} (hd : l.descs = [some det, some cnt, some box, cls])
    {addr next : Nat} {ts : List Trk} {ds : List Det} (ho : s.strOpen sl.stream = true) (ha : s.trackAddr sl.stream = some addr)
    (hds : (if sl.state == .void then .ok [] else s.readDets (l.acc1 n.val) det cnt box cls none) = Except.ok ds)
    (hts : s.loadTracks addr = some (next, ts)) :
    let run := trackRun l.raw (s.slotPts sl (s.ownPeriods l)).1.toNat next ts ds
    let bs := tableBytes run.nextId run.ts
    s.rangeOk addr bs.length = true → ∃ u w : State,
      s.tWrite (l.acc1 n.val) true (s.sclWork l.ctx (sclSlot l.raw)).base bs = some u ∧ u.memWrite addr bs = some w ∧
      exec (.track n) s = .next (((w.modSlot l.queue (sclSlot l.raw) fun sl => { sl with matched := run.info ++ sl.matched }).count
        (ibexReg n.val 5 0x70) run.noSlot).passUnit n.val l (s.sclReads l)) := by
  intro run bs hr
  obtain ⟨u, hu, hsu⟩ := State.spmOnly_tWrite h (l.acc1 n.val) (s.sclWork l.ctx (sclSlot l.raw)).base bs
  obtain ⟨w, hw⟩ := State.memWrite_some ((hsu.rangeOk addr bs.length).trans hr)
  refine ⟨u, w, hu, hw, ?_⟩
  have hws : w.InSlot n (s.reg (ibexReg n.val 5 8)) l.queue (sclSlot l.raw) :=
    (hsu.inSlot (.refl h hs)).same ((State.memWrite_keep u addr bs (Kept.refl u) w hw).inv hsu.inv)
      (State.inner_of_outside (State.outside_memWrite hw))
  have ht : s.track (l.acc1 n.val) l = ((w.modSlot l.queue (sclSlot l.raw) fun sl => { sl with matched := run.info ++ sl.matched }).count
      (ibexReg n.val 5 0x70) run.noSlot, none) := by
    unfold State.track
    rw [hd, hs]
    dsimp only
    rw [if_pos ho, ha]
    dsimp only
    rw [hds]
    dsimp only
    rw [hts]
    dsimp only
    rw [hu, Option.bind_some, hw]
    rfl
  rw [exec_track_run, State.runUnit_next hc hn ((if_pos hl).trans ht),
    State.passed_inSlot ((hws.modSlot _).count n.val (by decide) (by decide) _)]

end Sys2Proof.Machine
end

section
/-! PROOF. O19. -/

namespace Sys2Proof.Machine

/-- Settles O19: the engines' frame and their work on a clean scratchpad, each through what one write, one counter and one change of the
sorter leave (`EngineKeeps`); TRACK and EMIT through what a routine keeps while it serves its slot (`State.InSlot`). -/
theorem unitInstructionsPass : Obligations.UnitInstructionsPass := by
  unfold Obligations.UnitInstructionsPass
  refine ⟨fun s n l st r h hn => ⟨fun hc => exec_nop hc hn, fun op i hi hc hcl hl => ?_, fun op i hi hc hr => exec_otherRank hi hc hn hr,
    fun hl st' sl hs => ⟨fun det cnt box cls hc hd => ⟨exec_track_none hc hn hl hs hd, fun addr next ts ds ho ha hds hts =>
      exec_track_table h hc hn hl hs hd ho ha hds hts⟩, fun hc hr => ⟨exec_emit h hc hn hl hs hr, (State.emit_done h hs hr).2.2⟩⟩⟩,
    fun u n l h => ?_, fun s u a l done stop hu => State.eq_of_beyond (engines_frame hu)⟩
  · obtain ⟨t, ht, hd⟩ := exec_unit h hi hc hn hcl hl.descs
    obtain rfl : opcode l.raw = op := State.curOf_opcode hc
    exact ⟨t, ht, hd.cur, hd.done, hd.held, hd.ibexes, hd.queues, hd.rest⟩
  · obtain ⟨hp, hdone⟩ := State.passDone_passed h n.val l
    obtain ⟨hquiet, hmeet⟩ := State.passDone_ib h n.val l
    exact ⟨hp.cur, hquiet, State.passDone_regions h n.val l, hmeet, hp.ibexes, hp.regs, hdone, hp.queues, hp.held, hp.rest_eq⟩

end Sys2Proof.Machine
end

section
/-! PROOF. What a rejected write moves, and the two register writes of Gazelle (R266, R302, R493, R504, R557). -/

namespace Sys2Proof.Machine

variable {s : State}

/-! ### The record of an error -/

theorem State.logErr_inv (h : s.Inv) (code : W16) (origin kind obj detail : Nat) (fn : Option Nat) :
    (s.logErr code origin kind obj detail fn).Inv := (State.logErr_keep s code origin kind obj detail fn (Kept.refl s)).inv h

/-- What leaves the port touches no dictionary entry. -/
theorem State.msix_dict (s : State) (k v : Nat) : (s.msix k v).dict = s.dict := by
  unfold State.msix
  split
  · exact (Settled.serveWaits ..).1
  · rfl

theorem State.logErr_dict (s : State) (code : W16) (origin kind obj detail : Nat) (fn : Option Nat) :
    (s.logErr code origin kind obj detail fn).dict = (s.logRec code origin kind obj detail).dict := by
  cases fn with
  | none => rfl
  | some k =>
    refine (State.msix_dict ..).trans ?_
    obtain ⟨r, hr⟩ := State.errReg_regs (s.logRec code origin kind obj detail) (hpBase + 0x800 + 8 * k) code.toNat
    rw [hr]

/-- A record of the error log counts in LOGGED and LOST, and in no other entry (R557). -/
theorem State.entriesBut_logErr (h : s.Inv) (code : W16) (origin kind obj detail : Nat) (fn : Option Nat) :
    s.EntriesBut (s.logErr code origin kind obj detail fn) [dkey 0x6000 1, dkey 0x6000 3] := by
  intro i j hk
  obtain ⟨h1, h3⟩ : dkey i j ≠ dkey 0x6000 1 ∧ dkey i j ≠ dkey 0x6000 3 := by simpa using hk
  have hd : (s.logErr code origin kind obj detail fn).entry i j = (s.logRec code origin kind obj detail).entry i j :=
    congrArg (fun d => (Tbl.get (dictReset (dkey i j)) d (dkey i j)).toNat) (State.logErr_dict ..)
  rw [hd]
  unfold State.logRec
  split
  · exact (State.entry_setEntry (State.countEntry_inv h ..) ..).trans ((if_neg h1).trans ((State.entry_countEntry h ..).trans (if_neg h3)))
  · exact (State.entry_setEntry h ..).trans (if_neg h1)

/-! ### Writes of a function through BAR0 -/

theorem execGzCfgWrite_pf0 (h : s.Serving 0) (v : W32) : exec (.gzCfgWrite 0 v) s = .next ((s.received 4).gzCfg v.toNat) :=
  State.hostAct_serving h 4 fun s => if (0 : Fn).val = 0 then s.gzCfg v.toNat else s

theorem execGzInTailWrite_serving {fn : Fn} (h : s.Serving fn.val) (n : StreamId) (v : W32) :
    exec (.gzInTailWrite fn n v) s = .next ((s.received 4).inTail fn.val n.val v) := State.hostAct_serving h 4 fun s => s.inTail fn.val n.val v

theorem State.Serving.pf0 {k : Nat} (h : s.Serving k) : s.Serving 0 := { h with fn := rfl }

/-- A rejected write of GZ_CFG leaves it (R302). -/
theorem State.gzCfg_rejected (s : State) (v : W32) (hv : v.toNat % 65536 = 0 ∨ v.toNat / 65536 = 0) :
    s.gzCfg v.toNat = s.logErr Code.VID_CFG_RANGE 0 0 0 v.toNat (some 0) := by
  have hlt := v.isLt
  unfold State.gzCfg State.rejectV
  rw [if_pos (by simp; omega), Nat.mod_eq_of_lt hlt]

theorem State.gzCfg_taken (s : State) (v : W32) (hlo : v.toNat % 65536 ≠ 0) (hhi : v.toNat / 65536 ≠ 0) :
    s.gzCfg v.toNat = s.setReg gzBase (BitVec.ofNat 64 v.toNat) := by
  have hlt := v.isLt
  unfold State.gzCfg
  rw [if_neg (by simp; omega), Nat.mod_eq_of_lt hlt]

/-- HP_NOT_OWNER also enters the error register of the host port (R525), and leaves every register of Gazelle. -/
theorem State.reg_famErr_notOwner (h : s.Inv) {j : Nat} (hj : j ≠ hpBase + 0x10) (k : Nat) :
    (s.famErr Code.HP_NOT_OWNER k).reg j = s.reg j := by
  unfold State.famErr
  exact State.reg_errReg_ne h hj _

theorem gzTail_ne_fnErr (n : StreamId) (k : Nat) : gzTail n.val ≠ hpBase + 0x800 + 8 * k := by
  have := n.isLt
  unfold gzTail gzBase hpBase
  omega

theorem gzHead_ne_fnErr (n : StreamId) (k : Nat) : gzHead n.val ≠ hpBase + 0x800 + 8 * k := by
  have := n.isLt
  unfold gzHead gzBase hpBase
  omega

/-- A tail refused for its range: the code is logged and enters LAST_CODE (log entry 30). -/
theorem State.tailRefused (h : s.Inv) (k : Nat) (n : StreamId) (detail : Nat) :
    let t := (s.logErr Code.VID_TAIL k 1 n.val detail (some k)).strCode n.val Code.VID_TAIL
    t.reg (gzTail n.val) = s.reg (gzTail n.val) ∧ t.reg (gzHead n.val) = s.reg (gzHead n.val) ∧ t.str n.val 0x1D = Code.VID_TAIL.toNat ∧
      s.EntriesBut t [dkey (0x2000 + n.val) 0x1D, dkey 0x6000 1, dkey 0x6000 3] := by
  have hi := State.logErr_inv h Code.VID_TAIL k 1 n.val detail (some k)
  refine ⟨State.reg_logErr h (gzTail_ne_fnErr n k) .., State.reg_logErr h (gzHead_ne_fnErr n k) .., ?_, fun i j hk => ?_⟩
  · exact (State.entry_setEntry hi ..).trans (if_pos rfl)
  · rw [List.mem_cons, not_or] at hk
    exact (State.entry_setEntry hi ..).trans ((if_neg hk.1).trans (State.entriesBut_logErr h _ _ _ _ _ _ i j hk.2))

/-- Settles O24: PF0's value enters GZ_CFG or is logged; a tail is checked for its owner, then for its range. -/
theorem gazelleRegisterWrites : Obligations.GazelleRegisterWrites := by
  unfold Obligations.GazelleRegisterWrites
  intro s0 fn n v h0 hs s
  have h : s.Inv := State.received_inv h0 4
  have hdetail : v.toNat % 2 ^ 32 = v.toNat := Nat.mod_eq_of_lt v.isLt
  refine ⟨fun hfn => ?_, fun hlo hhi => ?_, fun hbad => ?_, fun hown => ?_, fun hown => ?_⟩
  · exact (State.hostAct_serving hs 4 _).trans (congrArg _ (if_neg hfn))
  · refine ⟨_, execGzCfgWrite_pf0 hs.pf0 v, ?_⟩
    rw [State.gzCfg_taken _ v hlo hhi]
    exact ⟨State.reg_setReg_self h .., fun k hk => State.reg_setReg_ne h (by simpa using hk) _, rfl⟩
  · refine ⟨_, execGzCfgWrite_pf0 hs.pf0 v, ?_⟩
    rw [State.gzCfg_rejected _ v hbad]
    exact ⟨State.reg_logErr h (by unfold gzBase hpBase; omega) .., rfl⟩
  · refine ⟨_, execGzInTailWrite_serving hs n v, ?_⟩
    rw [State.inTail, if_pos hown, State.rejectV, hdetail]
    have hi := State.logErr_inv h Code.HP_NOT_OWNER fn.val 1 n.val v.toNat (some fn.val)
    have hlt := n.isLt
    refine ⟨(State.reg_famErr_notOwner hi (by unfold gzTail gzBase hpBase; omega) _).trans (State.reg_logErr h (gzTail_ne_fnErr n _) ..),
      (State.reg_famErr_notOwner hi (by unfold gzHead gzBase hpBase; omega) _).trans (State.reg_logErr h (gzHead_ne_fnErr n _) ..), rfl⟩
  · intro ahead
    refine ⟨fun hh ht => ⟨_, execGzInTailWrite_serving hs n v, ?_⟩, fun hfar => ⟨_, execGzInTailWrite_serving hs n v, ?_⟩⟩
    · rw [State.inTail, if_neg (not_not_intro hown), if_neg (not_or.2 ⟨Nat.not_lt.2 hh, Nat.not_lt.2 ht⟩)]
      exact ⟨State.reg_setReg_self h .., fun k hk => State.reg_setReg_ne h (by simpa using hk) _, rfl⟩
    · rw [State.inTail, if_neg (not_not_intro hown), if_pos hfar, State.rejectV, hdetail]
      obtain ⟨htail, hhead, hcode, hent⟩ := State.tailRefused h fn.val n v.toNat
      exact ⟨htail, hhead, hcode, rfl, hent⟩

end Sys2Proof.Machine
end

section
/-! PROOF. Operations of memory work aside from the engines: they move memory, registers from those of memory on, the entries of memory and
of the error log, and the log itself, and they neither read nor move what Gazelle's engines hold (R384, R404, R424, R439). -/

namespace Sys2Proof.Machine

/-- The registers below those of memory. -/
def farRegs (t : Tbl W64) : Tbl W64 := Tbl.keep t fun k _ => decide (k < memBase)

/-- The entries but those of memory (0x1500) and of the error log (0x6000). -/
def farDict (t : Tbl W64) : Tbl W64 := Tbl.keep t fun k _ => decide (k / 256 ≠ 0x1500) && decide (k / 256 ≠ 0x6000)

/-- A write of a key that a filter drops does not show behind it. -/
theorem Tbl.keep_set {α : Type} [DecidableEq α] {d : α} {p : Nat → Bool} {k : Nat} (hk : p k = false) (v : α) (t : Tbl α) :
    Tbl.keep (Tbl.set d t k v) (fun i _ => p i) = Tbl.keep t fun i _ => p i := by
  have hnot (w : α) (t : Tbl α) : Tbl.keep ((k, w) :: t) (fun i _ => p i) = Tbl.keep t fun i _ => p i :=
    List.filter_cons_of_neg (by simp [hk])
  induction t with
  | nil =>
    unfold Tbl.set
    split
    · rfl
    · exact hnot v []
  | cons e t ih =>
    obtain ⟨j, w⟩ := e
    unfold Tbl.set
    split
    · split
      · rfl
      · exact hnot v _
    · split
      · next e =>
        subst e
        rw [hnot]
        split
        · rfl
        · exact hnot v t
      · unfold Tbl.keep at ih ⊢
        rw [List.filter_cons, ih, List.filter_cons]

/-- A state without what an operation of memory may move. -/
def State.aside (s : State) : State := { s with mem := {}, regs := farRegs s.regs, dict := farDict s.dict, log := [] }

/-- The state with other contents of the engines. -/
def State.withVid (s : State) (v : Video) : State := { s with vid := v }

@[simp] theorem State.withVid_mem (s : State) (v : Video) : (s.withVid v).mem = s.mem := rfl

/-- The data address of a stored byte depends on masks, rotations and the common aperture. -/
theorem State.dataAddr_congr {s t : State} (hm : t.pcMask = s.pcMask) (hc : t.commonMib = s.commonMib) (hr : t.rotation = s.rotation)
    (hh : t.pcHerd = s.pcHerd) : t.dataAddr = s.dataAddr := by
  delta State.dataAddr
  rw [hm, hc, hr, hh]

theorem State.withVid_dataAddr (s : State) (v : Video) : (s.withVid v).dataAddr = s.dataAddr := State.dataAddr_congr rfl rfl rfl rfl

/-- From s, an operation of memory has come to t, and to t' where the engines hold v instead. -/
structure State.Beside (s : State) (v : Video) (t t' : State) : Prop where
  rest : t.aside = s.aside
  eq : t' = t.withVid v

theorem State.Beside.refl (s : State) (v : Video) : s.Beside v s (s.withVid v) := ⟨rfl, rfl⟩

namespace State.Beside

variable {s t t' : State} {v : Video}

/-! ### Single writes, and how operations are built of them -/

theorem ite {c c' : Prop} [Decidable c] [Decidable c'] {a a' b b' : State} (hc : c ↔ c') (ha : s.Beside v a a') (hb : s.Beside v b b') :
    s.Beside v (if c then a else b) (if c' then a' else b') := by
  by_cases h : c
  · rwa [if_pos h, if_pos (hc.1 h)]
  · rwa [if_neg h, if_neg (fun h' => h (hc.2 h'))]

theorem foldl {α : Type} {F F' : State → α → State} {l : List α} (h : s.Beside v t t')
    (hF : ∀ u u' x, s.Beside v u u' → s.Beside v (F u x) (F' u' x)) : s.Beside v (l.foldl F t) (l.foldl F' t') := by
  induction l generalizing t t' with
  | nil => exact h
  | cons x l ih => exact ih (hF _ _ _ h)

theorem setMem {m m' : Mem} (h : s.Beside v t t') (hm : m' = m) : s.Beside v { t with mem := m } { t' with mem := m' } := by
  obtain ⟨hr, rfl⟩ := h
  exact ⟨hr, by rw [hm]; rfl⟩

theorem modMem (h : s.Beside v t t') (f : Mem → Mem) : s.Beside v { t with mem := f t.mem } { t' with mem := f t'.mem } :=
  h.setMem (by rw [h.eq]; rfl)

theorem setReg {k : Nat} {w w' : W64} (h : s.Beside v t t') (hk : memBase ≤ k) (hw : w' = w) : s.Beside v (t.setReg k w) (t'.setReg k w') := by
  obtain ⟨hr, rfl⟩ := h
  refine ⟨Eq.trans ?_ hr, by rw [hw]; rfl⟩
  exact congrArg (fun r => ({ t with mem := {}, regs := r, dict := farDict t.dict, log := [] } : State))
    (Tbl.keep_set (p := fun k => decide (k < memBase)) (decide_eq_false (Nat.not_lt.2 hk)) w t.regs)

theorem setEntry {i j w w' : Nat} (h : s.Beside v t t') (hk : dkey i j / 256 = 0x1500 ∨ dkey i j / 256 = 0x6000) (hw : w' = w) :
    s.Beside v (t.setEntry i j w) (t'.setEntry i j w') := by
  obtain ⟨hr, rfl⟩ := h
  refine ⟨Eq.trans ?_ hr, by rw [hw]; rfl⟩
  exact congrArg (fun d => ({ t with mem := {}, regs := farRegs t.regs, dict := d, log := [] } : State))
    (Tbl.keep_set (p := fun k => decide (k / 256 ≠ 0x1500) && decide (k / 256 ≠ 0x6000)) (by rcases hk with e | e <;> simp [e]) _ t.dict)

theorem setLog {l l' : List LogRec} (h : s.Beside v t t') (hl : l' = l) : s.Beside v { t with log := l } { t' with log := l' } := by
  obtain ⟨hr, rfl⟩ := h
  exact ⟨hr, by rw [hl]; rfl⟩

theorem count {k : Nat} (h : s.Beside v t t') (hk : memBase ≤ k) (n : Nat) : s.Beside v (t.count k n) (t'.count k n) :=
  h.setReg hk (by rw [h.eq]; rfl)

theorem countPc (h : s.Beside v t t') (p o n : Nat) : s.Beside v (t.count (pcReg p o) n) (t'.count (pcReg p o) n) :=
  h.count (by unfold pcReg memBase; omega) n

theorem countMem {j : Nat} (h : s.Beside v t t') (hj : j < 256) (n : Nat) :
    s.Beside v (t.countEntry 0x1500 j n) (t'.countEntry 0x1500 j n) := h.setEntry (.inl (by unfold dkey; omega)) (by rw [h.eq]; rfl)

theorem flipDone (h : s.Beside v t t') : s.Beside v t.flipDone t'.flipDone := by
  obtain rfl := h.eq
  exact (h.setReg (by decide) rfl).setReg (by decide) rfl

/-! ### Words of the array and the codes of memory -/

theorem logDev (h : s.Beside v t t') (code : W16) (kind obj : Nat) : s.Beside v (t.logDev code kind obj) (t'.logDev code kind obj) := by
  obtain rfl := h.eq
  have hlost : s.Beside v (if 64 ≤ t.log.length then t.countEntry 0x6000 3 1 else t)
      (if 64 ≤ t.log.length then (t.withVid v).countEntry 0x6000 3 1 else t.withVid v) :=
    .ite .rfl (h.setEntry (.inr (by decide)) rfl) h
  have hlog : (if 64 ≤ t.log.length then (t.withVid v).countEntry 0x6000 3 1 else t.withVid v).log =
      (if 64 ≤ t.log.length then t.countEntry 0x6000 3 1 else t).log := by rw [hlost.eq]; rfl
  exact (hlost.setEntry (.inr (by decide)) rfl).setLog (congrArg (fun l => (_ :: l).take 64) hlog)

theorem errReg {k : Nat} (h : s.Beside v t t') (hk : memBase ≤ k) (x : Nat) : s.Beside v (t.errReg k x) (t'.errReg k x) := by
  obtain rfl := h.eq
  exact .ite .rfl h (h.setReg hk rfl)

theorem intErr (h : s.Beside v t t') (code : W16) (domain addr : Nat) : s.Beside v (t.intErr code domain addr) (t'.intErr code domain addr) := by
  have hl := h.logDev code 0 0
  exact .ite (by rw [hl.eq]; exact .rfl) hl ((hl.errReg (by decide) _).setReg (by decide) rfl)

theorem storeWord (h : s.Beside v t t') (w d : Nat) : s.Beside v (t.storeWord w d) (t'.storeWord w d) := by
  obtain rfl := h.eq
  exact .ite .rfl (h.flipDone.setMem rfl) (h.setMem rfl)

theorem storeCheck (h : s.Beside v t t') (page p q : Nat) : s.Beside v (t.storeCheck page p q) (t'.storeCheck page p q) := by
  obtain rfl := h.eq
  exact .ite .rfl (h.flipDone.setMem rfl) (h.setMem rfl)

theorem openRow (h : s.Beside v t t') (w : Nat) : s.Beside v (t.openRow w) (t'.openRow w) := by
  obtain rfl := h.eq
  exact (h.countPc _ _ 1).setMem rfl

theorem openLines (h : s.Beside v t t') (page : Nat) (ws : List Nat) : s.Beside v (t.openLines page ws) (t'.openLines page ws) :=
  h.foldl fun _ _ _ hu => hu.openRow _

theorem countRd (h : s.Beside v t t') (page : Nat) (ws : List Nat) (chk : Bool) : s.Beside v (t.countRd page ws chk) (t'.countRd page ws chk) :=
  (State.Beside.ite .rfl ((h.openLines page ws).openRow _) (h.openLines page ws)).countPc ..

theorem writeWord (h : s.Beside v t t') (w x : Nat) : s.Beside v (t.writeWord w x) (t'.writeWord w x) := ((h.storeWord w x).openRow w).countPc ..

theorem writeRebuilt (h : s.Beside v t t') (page : Nat) (r : List (Nat × Nat)) : s.Beside v (t.writeRebuilt page r) (t'.writeRebuilt page r) :=
  (State.Beside.foldl h fun _ _ x hu => hu.writeWord (256 * page + x.1) x.2).countMem (by decide) 1

theorem countWord (h : s.Beside v t t') (w : Nat) : s.Beside v (t.countWord w) (t'.countWord w) := by
  obtain rfl := h.eq
  unfold State.countWord
  rw [State.withVid_mem]
  cases t.mem.readWord w with
  | clean => exact h
  | corrected => exact h.countMem (by decide) 1
  | ue => exact h.countMem (by decide) 1
  | poison => rw [State.withVid_dataAddr]; exact (h.countMem (by decide) 1).intErr ..

theorem checkWord (h : s.Beside v t t') (back : Bool) (w : Nat) : s.Beside v (t.checkWord back w) (t'.checkWord back w) := by
  have hc := h.countWord w
  obtain rfl := h.eq
  unfold State.checkWord
  rw [State.withVid_mem]
  cases t.mem.readWord w with
  | corrected x => exact .ite .rfl (hc.writeWord w x) hc
  | clean | ue | poison => exact hc

/-! ### The controllers' queues -/

theorem checkPair (h : s.Beside v t t') (back : Bool) (page : Nat) : s.Beside v (t.checkPair back page) (t'.checkPair back page) := by
  obtain rfl := h.eq
  unfold State.checkPair
  rw [State.withVid_mem]
  extract_lets c tally p q u fix p' q' m u' m'
  have ht {x x' : State} (hx : s.Beside v x x') (r : WordRead) : s.Beside v (tally x r) (tally x' r) := by
    cases r with
    | clean => exact hx
    | corrected | ue | poison => exact hx.countMem (by decide) 1
  have hu : s.Beside v u u' := ht (ht h p) q
  exact .ite .rfl (hu.modMem fun m => { m with chk := Tbl.set {} m.chk page _ }) hu

theorem wakePc (h : s.Beside v t t') (p : Nat) : s.Beside v (t.wakePc p) (t'.wakePc p) := by
  obtain rfl := h.eq
  exact .ite .rfl h (h.setMem rfl)

theorem issueReq (h : s.Beside v t t') (r : PcReq) : s.Beside v (t.issueReq r) (t'.issueReq r) := by
  have hr := h.openRow (r.words.headD 0)
  exact (hr.countPc ..).modMem fun m => { m with retries := Tbl.set 0 m.retries r.pc 0, queue := m.queue.erase r }

theorem drainTo (old : List PcReq) (p n fuel : Nat) (h : s.Beside v t t') : s.Beside v (t.drainTo old p n fuel) (t'.drainTo old p n fuel) := by
  induction fuel generalizing t t' with
  | zero => exact h
  | succ fuel ih =>
    obtain rfl := h.eq
    unfold State.drainTo
    refine .ite .rfl h ?_
    rw [show (t.withVid v).chooseWrite old p = t.chooseWrite old p from rfl]
    cases t.chooseWrite old p with
    | none => exact h
    | some r => exact ih (h.issueReq r)

theorem drainFor (old : List PcReq) (p fuel : Nat) (h : s.Beside v t t') : s.Beside v (t.drainFor old p fuel) (t'.drainFor old p fuel) := by
  induction fuel generalizing t t' with
  | zero => exact h
  | succ fuel ih =>
    obtain rfl := h.eq
    unfold State.drainFor
    refine .ite .rfl h ?_
    rw [show (t.withVid v).chooseWrite old p = t.chooseWrite old p from rfl]
    cases t.chooseWrite old p with
    | none => exact h
    | some r => exact ih (h.issueReq r)

theorem drain (h : s.Beside v t t') (p : Nat) : s.Beside v (t.drain p) (t'.drain p) := by
  have hd : s.Beside v (if (t.mem.reads p).isEmpty then t.drainTo [] p 0 t.mem.queue.length else t)
      (if (t'.mem.reads p).isEmpty then t'.drainTo [] p 0 t'.mem.queue.length else t') := by
    rw [show t'.mem = t.mem by rw [h.eq]; rfl]
    exact .ite .rfl (h.drainTo ..) h
  have hf := hd.drainFor [] p t.mem.queue.length
  unfold State.drain State.drainOld
  dsimp only
  rw [show t'.mem.queue.length = t.mem.queue.length by rw [h.eq]; rfl] at hf ⊢
  exact .ite (by rw [hf.eq]; exact .rfl) (hf.drainTo ..) hf

theorem queueFlush (h : s.Beside v t t') (old : Mem) (page : Nat) (ws : List Nat) :
    s.Beside v (t.queueFlush old page ws) (t'.queueFlush old page ws) := by
  have hw := h.wakePc (page / 2 ^ 19)
  exact (hw.modMem fun m => { m with queue := m.queue ++ flushReqs old page ws }).drain _

/-! ### Flushes of the splice buffer -/

theorem flushLost (h : s.Beside v t t') (e : Splice) : s.Beside v (t.flushLost e) (t'.flushLost e) := by
  obtain rfl := h.eq
  unfold State.flushLost
  rw [State.withVid_mem]
  extract_lets old u u'
  have hu : s.Beside v u u' := by
    refine h.foldl fun w w' i hw => .ite .rfl (hw.storeWord ..) ?_
    cases old.value (256 * e.page + i) with
    | some x => exact hw.storeWord ..
    | none => exact hw.modMem (·.poison (256 * e.page + i))
  rw [show u'.dataAddr = u.dataAddr by rw [hu.eq, State.withVid_dataAddr]]
  exact ((hu.modMem (·.poisonCheck e.page)).countMem (by decide) 1).intErr ..

theorem readRest (h : s.Beside v t t') (e : Splice) : s.Beside v (t.readRest e) (t'.readRest e) :=
  State.Beside.foldl (h.countRd ..) fun u u' i hu => by
    rw [show u'.ceBack = u.ceBack by rw [hu.eq]; rfl]
    exact hu.checkWord ..

theorem storeWords (h : s.Beside v t t') (page : Nat) (ws : List (Nat × Nat)) :
    s.Beside v (ws.foldl (fun u w => u.storeWord (256 * page + w.1) w.2) t) (ws.foldl (fun u w => u.storeWord (256 * page + w.1) w.2) t') :=
  h.foldl fun _ _ w hu => hu.storeWord (256 * page + w.1) w.2

theorem flushWords (h : s.Beside v t t') (e : Splice) : s.Beside v (t.flushWords e) (t'.flushWords e) := by
  obtain rfl := h.eq
  exact (h.storeWords ..).storeCheck ..

theorem flushClean (h : s.Beside v t t') (e : Splice) : s.Beside v (t.flushClean e) (t'.flushClean e) := by
  unfold State.flushClean
  refine .ite .rfl ((h.storeWords ..).storeCheck ..) ?_
  extract_lets a b c d a' b' c' d'
  have ha : s.Beside v a a' := h.countRd ..
  have hb : s.Beside v b b' := by
    refine (ha.checkPair false e.page).foldl ?_
    exact fun _ _ i hu => hu.countWord (256 * e.page + i)
  have hd : s.Beside v d d' := hb.readRest e
  have hc : c' = c := by unfold c' c; rw [hb.eq, State.withVid_mem]
  refine .ite (by rw [hc, hb.eq, State.withVid_mem]) ?_ (hb.flushWords e)
  rw [show d'.mem = d.mem by rw [hd.eq, State.withVid_mem]]
  split
  · exact hd.flushLost e
  · exact hd.flushWords e
  · exact (hd.writeRebuilt ..).flushWords e

theorem sramPass (h : s.Beside v t t') (r : WordRead) (domain addr : Nat) : s.Beside v (t.sramPass r domain addr) (t'.sramPass r domain addr) := by
  cases r with
  | corrected => exact h.countMem (by decide) 1
  | ue => exact (h.countMem (by decide) 1).intErr ..
  | clean | poison => exact h

theorem flush (h : s.Beside v t t') (e : Splice) : s.Beside v (t.flush e) (t'.flush e) := by
  obtain rfl := h.eq
  unfold State.flush
  rw [State.withVid_mem, State.withVid_dataAddr]
  extract_lets syns bad e' u m u' m'
  have hs := h.foldl (l := syns) fun _ _ i hw => hw.sramPass (t.mem.spliceWord e i) 5 (t.dataAddr (2048 * e.page + 8 * i))
  have hu : s.Beside v u u' := hs.flushClean e'
  have hm : m' = m := by unfold m' m; rw [show u'.mem = u.mem by rw [hu.eq]; rfl]
  exact (hu.setMem (by rw [hm])).queueFlush ..

theorem flushFull (h : s.Beside v t t') (page : Nat) : s.Beside v (t.flushFull page) (t'.flushFull page) := by
  obtain rfl := h.eq
  unfold State.flushFull
  rw [State.withVid_mem]
  cases t.mem.entry page with
  | none => exact h
  | some e => exact .ite .rfl ((h.setMem rfl).flush e) h

/-! ### Writes into an entry, a line or the array -/

theorem healWord (h : s.Beside v t t') (e : Splice) (o : Nat) (bs : List (Option Byte)) (i : Nat) :
    s.Beside v (t.healWord e o bs i).1 (t'.healWord e o bs i).1 ∧ (t'.healWord e o bs i).2 = (t.healWord e o bs i).2 := by
  obtain rfl := h.eq
  unfold State.healWord
  rw [State.withVid_mem, State.withVid_dataAddr]
  extract_lets w syn r u u'
  have hu : s.Beside v u u' := h.sramPass ..
  have hsyn {x x' : State} (hx : s.Beside v x x') (y : Byte) : s.Beside v (syn x y) (syn x' y) :=
    hx.modMem fun m => { m with splSyn := Tbl.set 0 m.splSyn w y }
  split
  · exact ⟨h, rfl⟩
  · split
    · exact ⟨hsyn h 0, rfl⟩
    · cases r.value with
      | some x => exact ⟨hsyn hu 0, rfl⟩
      | none => exact ⟨hsyn hu 0x7F, rfl⟩

theorem healEntry (h : s.Beside v t t') (e : Splice) (o : Nat) (bs : List (Option Byte)) :
    s.Beside v (t.healEntry e o bs).1 (t'.healEntry e o bs).1 ∧ (t'.healEntry e o bs).2 = (t.healEntry e o bs).2 := by
  unfold State.healEntry
  extract_lets x x'
  have hx : s.Beside v x.1 x'.1 ∧ x'.2 = x.2 := by
    unfold x x'
    generalize List.range ((o + bs.length - 1) / 8 - o / 8 + 1) = l
    generalize ha : (t, e, ([] : List Nat)) = a
    generalize ha' : (t', e, ([] : List Nat)) = a'
    have hstart : s.Beside v a.1 a'.1 ∧ a'.2 = a.2 := by rw [← ha, ← ha']; exact ⟨h, rfl⟩
    clear ha ha' h
    induction l generalizing a a' with
    | nil => exact hstart
    | cons k l ih =>
      refine ih _ _ ?_
      obtain ⟨h1, h2⟩ := hstart
      obtain ⟨h3, h4⟩ := h1.healWord a.2.1 o bs (o / 8 + k)
      dsimp only
      rw [h2]
      exact ⟨h3, by rw [h4]⟩
  exact ⟨hx.1, by rw [hx.2]⟩

theorem splicePut (h : s.Beside v t t') (page o : Nat) (bs : List (Option Byte)) :
    s.Beside v (t.splicePut page o bs) (t'.splicePut page o bs) := by
  unfold State.splicePut
  rw [show t'.mem = t.mem by rw [h.eq]; rfl]
  have hh := h.healEntry ((t.mem.entry page).getD { page := page, data := [] }) o bs
  generalize t.healEntry _ o bs = x at hh ⊢
  generalize t'.healEntry _ o bs = x' at hh ⊢
  obtain ⟨u, e⟩ := x
  obtain ⟨u', e'⟩ := x'
  obtain ⟨hu, rfl⟩ : s.Beside v u u' ∧ e' = e := hh
  obtain rfl := hu.eq
  exact .ite .rfl (hu.flipDone.setMem rfl) (hu.setMem rfl)

theorem linePut (h : s.Beside v t t') (l : Line) (a : Nat) (bs : List Byte) : s.Beside v (t.linePut l a bs) (t'.linePut l a bs) := by
  obtain rfl := h.eq
  unfold State.linePut
  rw [State.withVid_mem, show (t.withVid v).lineWord = t.lineWord from rfl]
  extract_lets i read r u l1 l2 u'
  have hu : s.Beside v u u' := .ite .rfl (h.sramPass ..) h
  have hset {x x' : State} (hx : s.Beside v x x') (la : Nat) (l : Line) (i : Nat) (y : Byte) : s.Beside v (x.setLine la l i y) (x'.setLine la l i y) :=
    hx.modMem fun m => { m with lines := Tbl.set none m.lines la (some l), lineSyn := Tbl.set 0 m.lineSyn (la * 16 + i) y }
  refine .ite .rfl (hset hu ..) ?_
  rw [hu.eq]
  exact .ite .rfl (hset (hu.eq ▸ hu).flipDone ..) (hset (hu.eq ▸ hu) ..)

theorem putAround (h : s.Beside v t t') (a : Nat) (bs : List Byte) : s.Beside v (t.putAround a bs) (t'.putAround a bs) := by
  have hw := h.wakePc (physKey (t.mapAddr a) / 2 ^ 30)
  obtain rfl := h.eq
  unfold State.putAround
  extract_lets k u k' u'
  have hu : s.Beside v u u' := hw
  rw [show u'.mem = u.mem by rw [hu.eq]; rfl, show k' = k from rfl]
  cases u.mem.entry (k / 2048) with
  | none => exact hu.flush _
  | some e => exact (hu.splicePut ..).flushFull _

theorem writePart (h : s.Beside v t t') (a : Nat) (bs : List Byte) : s.Beside v (t.writePart a bs) (t'.writePart a bs) := by
  obtain rfl := h.eq
  unfold State.writePart
  rw [State.withVid_mem]
  cases Tbl.get none t.mem.lines (a / 128) with
  | none => exact h.putAround ..
  | some l => exact .ite .rfl ((h.setMem rfl).putAround ..) (h.linePut ..)

theorem writeParts (a : Nat) (bs : List Byte) (fuel : Nat) (h : s.Beside v t t') : s.Beside v (t.writeParts a bs fuel) (t'.writeParts a bs fuel) := by
  induction fuel generalizing t t' a bs with
  | zero => exact h
  | succ fuel ih => exact .ite .rfl h (ih _ _ (h.writePart ..))

theorem memPut (h : s.Beside v t t') (a : Nat) (bs : List Byte) : s.Beside v (t.memPut a bs) (t'.memPut a bs) := by
  obtain rfl := h.eq
  unfold State.memPut State.memWrite
  rw [show (t.withVid v).rangeOk a bs.length = t.rangeOk a bs.length from rfl]
  split
  · exact h.writeParts ..
  · exact h

/-! ### Zeros -/

theorem zeroPage (h : s.Beside v t t') (page : Nat) : s.Beside v (t.zeroPage page) (t'.zeroPage page) := by
  have hz := h.modMem (·.zeroPage page)
  obtain rfl := h.eq
  exact .ite .rfl ((hz.splicePut ..).flushFull page) (((hz.openLines ..).openRow _).countPc ..)

theorem zeroRange (h : s.Beside v t t') (a n : Nat) : s.Beside v (t.zeroRange a n) (t'.zeroRange a n) := by
  have hz : s.Beside v ((List.range (n / 2048)).foldl (fun u i => u.zeroPage (physKey (u.mapAddr (a + i * 2048)) / 2048)) t)
      ((List.range (n / 2048)).foldl (fun u i => u.zeroPage (physKey (u.mapAddr (a + i * 2048)) / 2048)) t') := by
    refine h.foldl fun u u' i hu => ?_
    obtain rfl := hu.eq
    exact hu.zeroPage _
  exact hz.modMem fun m => { m with lines := Tbl.clear m.lines (a / 128) (n / 128), lineSyn := Tbl.clear m.lineSyn (a / 8) (n / 8) }

end State.Beside

/-! ### What follows for the rest of the state -/

section

variable {s t : State}

theorem State.eq_of_aside (h : t.aside = s.aside) : t = { s with mem := t.mem, regs := t.regs, dict := t.dict, log := t.log } :=
  (congrArg (fun u : State => { u with mem := t.mem, regs := t.regs, dict := t.dict, log := t.log }) h :)

theorem State.memPut_aside (s : State) (a : Nat) (bs : List Byte) : (s.memPut a bs).aside = s.aside := ((State.Beside.refl s s.vid).memPut a bs).rest

theorem State.zeroRange_aside (s : State) (a n : Nat) : (s.zeroRange a n).aside = s.aside := ((State.Beside.refl s s.vid).zeroRange a n).rest

end

end Sys2Proof.Machine
end

section
/-! PROOF. What chapter 8 holds in the state: streams, engines, Gazelle's registers and the streams' entries. Memory and the Coil
leave it (R384, R447 to R451). -/

namespace Sys2Proof.Machine

variable {s t u : State}

/-- The entries of the streams (indices 0x2000 to 0x203F). -/
def strDict (t : Tbl W64) : Tbl W64 := Tbl.keep t fun k _ => decide (0x2000 ≤ k / 256) && decide (k / 256 < 0x2040)

/-- Streams, engines, registers below those of memory, and the streams' entries. -/
def State.decoding (s : State) : Tbl Stream × Video × Tbl W64 × Tbl W64 := (s.streams, s.vid, farRegs s.regs, strDict s.dict)

/-! ### Reads of it -/

theorem State.decoding_stream (h : t.decoding = s.decoding) (m : Nat) : t.stream m = s.stream m :=
  congrArg (fun x : Tbl Stream × Video × Tbl W64 × Tbl W64 => Tbl.get ({} : Stream) x.1 m) h

theorem State.decoding_vid (h : t.decoding = s.decoding) : t.vid = s.vid := congrArg (·.2.1) h

theorem State.decoding_reg (hs : s.Inv) (ht : t.Inv) (h : t.decoding = s.decoding) {k : Nat} (hk : k < memBase) : t.reg k = s.reg k := by
  have hfar {v : State} (hv : v.Inv) : Tbl.get (regReset k) (farRegs v.regs) k = v.reg k := by
    unfold farRegs
    rw [Tbl.get_keep (Tbl.canon_pairwise hv.regs) (fun k => decide (k < memBase)), if_pos (decide_eq_true hk)]
    rfl
  rw [← hfar ht, ← hfar hs, show farRegs t.regs = farRegs s.regs from congrArg (·.2.2.1) h]

theorem State.decoding_str (hs : s.Inv) (ht : t.Inv) (h : t.decoding = s.decoding) {n j : Nat} (hn : n < 64) (hj : j < 256) :
    t.str n j = s.str n j := by
  have hstr {v : State} (hv : v.Inv) :
      (Tbl.get (dictReset (dkey (0x2000 + n) j)) (strDict v.dict) (dkey (0x2000 + n) j)).toNat = v.str n j := by
    unfold strDict
    rw [Tbl.get_keep (Tbl.canon_pairwise hv.dict) (fun k => decide (0x2000 ≤ k / 256) && decide (k / 256 < 0x2040)),
      if_pos (by unfold dkey; simp only [Bool.and_eq_true, decide_eq_true_eq]; omega)]
    rfl
  rw [← hstr ht, ← hstr hs, show strDict t.dict = strDict s.dict from congrArg (·.2.2.2) h]

/-! ### Single writes -/

theorem State.decoding_setReg (s : State) {k : Nat} (hk : memBase ≤ k) (v : W64) : (s.setReg k v).decoding = s.decoding :=
  congrArg (fun r => (s.streams, s.vid, r, strDict s.dict))
    (Tbl.keep_set (p := fun k => decide (k < memBase)) (decide_eq_false (Nat.not_lt.2 hk)) v s.regs)

theorem State.decoding_setEntry (s : State) {i j : Nat} (hk : dkey i j / 256 < 0x2000) (v : Nat) : (s.setEntry i j v).decoding = s.decoding :=
  congrArg (fun d => (s.streams, s.vid, farRegs s.regs, d))
    (Tbl.keep_set (p := fun k => decide (0x2000 ≤ k / 256) && decide (k / 256 < 0x2040)) (by simp [hk]) _ s.dict)

/-- The Coil's own entries (0x1600). -/
theorem State.decoding_countCoil (s : State) {j : Nat} (hj : j < 256) (n : Nat) : (s.countEntry 0x1600 j n).decoding = s.decoding :=
  s.decoding_setEntry (by unfold dkey; omega) _

theorem State.decoding_foldl {α : Type} {f : State → α → State} (hf : ∀ u x, (f u x).decoding = u.decoding) (l : List α) (s : State) :
    (l.foldl f s).decoding = s.decoding := foldl_all (P := fun u => u.decoding = s.decoding) rfl fun u x hu => (hf u x).trans hu

/-! ### Memory -/

theorem strDict_farDict (d : Tbl W64) : strDict (farDict d) = strDict d := by
  unfold strDict farDict Tbl.keep
  rw [List.filter_filter]
  refine List.filter_congr fun e _ => ?_
  simp only [Bool.and_eq_left_iff_imp, Bool.and_eq_true, decide_eq_true_eq]
  omega

theorem State.decoding_of_aside (h : t.aside = s.aside) : t.decoding = s.decoding := by
  have hd : strDict t.dict = strDict s.dict := by
    rw [← strDict_farDict t.dict, ← strDict_farDict s.dict]
    exact congrArg (fun u : State => strDict u.dict) h
  unfold State.decoding
  rw [hd]
  exact (congrArg (fun u : State => (u.streams, u.vid, u.regs, strDict s.dict)) h :)

theorem State.decoding_memPut (s : State) (a : Nat) (bs : List Byte) : (s.memPut a bs).decoding = s.decoding :=
  State.decoding_of_aside (s.memPut_aside a bs)

/-! ### The Coil -/

theorem State.decoding_tryPool {o n k : Nat} {spilled : Bool} (hn : n < 8) (h : s.tryPool o n spilled = some (t, k)) : t.decoding = s.decoding := by
  obtain ⟨-, h⟩ := Option.ite_none_right_eq_some.1 h
  cases h
  have hspill : (if spilled then s.countEntry 0x1600 (0x40 + n) 1 else s).decoding = s.decoding := by
    split
    · exact State.decoding_countCoil s (by omega) 1
    · rfl
  exact (State.decoding_countCoil _ (j := 0x38 + n) (by omega) 1).trans hspill

theorem State.decoding_coilGrant {o bytes m k : Nat} (h : s.coilGrant o bytes = some (t, m, k)) : t.decoding = s.decoding := by
  unfold State.coilGrant at h
  dsimp only at h
  split at h
  · cases h
  · next hn =>
    split at h
    · next ht =>
      cases h
      exact State.decoding_tryPool (by omega) ht
    · split at h
      · cases h
      · next hf =>
        obtain ⟨r, hr, he⟩ := Option.map_eq_some_iff.1 h
        cases he
        simp only [Bool.or_eq_true, decide_eq_true_eq, not_or] at hf
        exact State.decoding_tryPool (by omega) hr

theorem State.decoding_zeroBuf (s : State) (n k : Nat) : (s.zeroBuf n k).decoding = s.decoding := by
  unfold State.zeroBuf
  dsimp only
  split
  · exact (State.decoding_countCoil _ (j := 2) (by decide) _).trans (State.decoding_of_aside (State.zeroRange_aside ..))
  · rfl

theorem State.decoding_coilGrantNow {o bytes : Nat} {r : State × Nat × Nat} (h : s.coilGrantNow o bytes = some r) : r.1.decoding = s.decoding := by
  obtain ⟨x, hx, rfl⟩ := Option.map_eq_some_iff.1 h
  exact (State.decoding_zeroBuf ..).trans (State.decoding_coilGrant hx)

theorem State.decoding_serveWaiters (s : State) (n : Nat) : (s.serveWaiters n).decoding = s.decoding := by
  unfold State.serveWaiters
  refine State.decoding_foldl (fun u w => ?_) _ s
  split
  · next hg =>
    have h := State.decoding_coilGrant hg
    dsimp only
    split <;> exact h
  · rfl

theorem State.decoding_allocDone (s : State) (n k : Nat) : (s.allocDone n k).decoding = s.decoding := by
  unfold State.allocDone
  split
  · exact State.decoding_setReg _ (by unfold fnReg coilBase memBase; omega) _
  · rfl

theorem State.decoding_freeBuf (s : State) (n k : Nat) : (s.freeBuf n k).decoding = s.decoding := by
  have hdone : (if (s.buf n k).zeroing then s.allocDone n k else s).decoding = s.decoding := by
    split
    · exact State.decoding_allocDone ..
    · rfl
  exact (State.decoding_serveWaiters ..).trans hdone

theorem State.decoding_setResv (s : State) (o n v : Nat) : (s.setResv o n v).decoding = s.decoding := rfl

/-- A stream without the frames whose last mark has cleared. -/
def Stream.swept (x : Stream) : Stream := { x with frames := x.frames.filter fun f => f.short || f.long || f.output || f.held }

/-- Frames without a mark leave their stream, and their buffers return to the Coil (R284). -/
theorem State.decoding_sweepFrames (s : State) (n : Nat) : (s.sweepFrames n).decoding = (s.modStream n Stream.swept).decoding := by
  unfold State.sweepFrames
  extract_lets fs free u
  have h := State.decoding_foldl (f := fun w (f : Frame) => w.freeBuf f.pic.pool f.pic.buf) (fun w f => State.decoding_freeBuf w _ _) free u
  exact h

end Sys2Proof.Machine
end

section
/-! PROOF. Streams open, reset and close (R275, R276, R295, R296, R531, R538). -/

namespace Sys2Proof.Machine

variable {s t : State}

/-! ### A command entry that is refused -/

theorem State.asked_inv (h : s.Inv) (o : Origin) (idx sub : Nat) (v : List Byte) : (s.asked o idx sub v).Inv := by
  cases o with
  | kdp => exact h
  | fn k => exact State.dmRequest_inv (State.received_inv h _) ..

theorem State.asked_str (o : Origin) (idx sub : Nat) (v : List Byte) (n j : Nat) : (s.asked o idx sub v).str n j = s.str n j := by
  unfold State.str State.entry
  rw [State.asked_dict]

/-- The request in the mailbox leaves the device awake. -/
theorem State.asked_awake {o : Origin} (hr : s.Reaches o) (idx sub : Nat) (v : List Byte) :
    (s.asked o idx sub v).power = 0 ∧ (s.asked o idx sub v).tth.nap = 0 := by
  have hd := State.asked_dict (s := s) o idx sub v
  unfold State.power State.entry
  rw [hd]
  cases o with
  | kdp => exact ⟨hr.2.1, hr.2.2⟩
  | fn k => exact ⟨hr.1.run, (congrArg Tether.nap (State.dmRequest_tth ..)).trans hr.1.noNap⟩

/-- A command entry written by an origin whose access reaches the store: what the checks and the owner's effect leave, then the answer. -/
theorem State.dictCmd_reached {o : Origin} (hr : s.Reaches o) (idx sub : Nat) (v : List Byte) (f : State → Except W16 State) :
    s.dictCmd o idx sub v f =
      .next (((s.asked o idx sub v).dictTry o idx sub v f).1.answered o ((s.asked o idx sub v).dictTry o idx sub v f).2) := by
  have hp := (State.asked_awake hr idx sub v).1
  unfold State.dictCmd State.viaPath
  cases o with
  | kdp => exact if_neg (by rw [State.mustWake_of_run (s := s) hp]; decide)
  | fn k =>
    refine (State.hostDict_serving hr.1 ..).trans ?_
    rw [State.received_dmDone, hr.2, if_pos rfl, if_neg (by decide)]
    exact congrArg Host.Outcome.next (if_neg (by
      rw [State.mustWake_of_run (s := (s.received (8 + v.length)).dmRequest k.val idx sub true v) hp]; decide))

/-- A write that the checks or the owner refuse is rejected with their code (R531). -/
theorem State.dictTry_refused {o : Origin} {idx sub : Nat} {v : List Byte} {f : State → Except W16 State} {code : W16}
    (hp : s.power = 0) (hn : s.tth.nap = 0)
    (hc : s.dictGate o idx sub true v = some code ∨ s.dictGate o idx sub true v = none ∧ f s = .error code) :
    s.dictTry o idx sub v f = (s.rejectEntry code o idx sub v, code) := by
  unfold State.dictTry
  rw [State.wakeUp_of_awake hp hn, ite_self]
  rcases hc with hg | ⟨hg, hf⟩
  · simp only [hg]
  · simp only [hg, hf]

theorem State.dictCmd_refused {o : Origin} {idx sub : Nat} {v : List Byte} {f : State → Except W16 State} {code : W16} (hr : s.Reaches o)
    (hc : (s.asked o idx sub v).dictGate o idx sub true v = some code ∨
      (s.asked o idx sub v).dictGate o idx sub true v = none ∧ f (s.asked o idx sub v) = .error code) :
    s.dictCmd o idx sub v f = .next (((s.asked o idx sub v).rejectEntry code o idx sub v).answered o code) := by
  obtain ⟨hp, hn⟩ := State.asked_awake hr idx sub v
  rw [State.dictCmd_reached hr, State.dictTry_refused hp hn hc]

/-- One that they take leaves its effect. -/
theorem State.dictCmd_taken {o : Origin} {idx sub : Nat} {v : List Byte} {f : State → Except W16 State} (hr : s.Reaches o)
    (hg : (s.asked o idx sub v).dictGate o idx sub true v = none) (hf : f (s.asked o idx sub v) = .ok t) :
    s.dictCmd o idx sub v f = .next (t.answered o 0) := by
  obtain ⟨hp, hn⟩ := State.asked_awake hr idx sub v
  rw [State.dictCmd_reached hr, State.dictTry_ok hp hn hg hf]

/-! ### Entries of a stream set to 0 -/

theorem State.zeroSubs_rest (s : State) (n lo k : Nat) : ∃ d, s.zeroSubs n lo k = { s with dict := d } := by
  unfold State.zeroSubs
  refine foldl_all (P := fun u : State => ∃ d, u = { s with dict := d }) ⟨s.dict, rfl⟩ fun u x hu => ?_
  obtain ⟨d, rfl⟩ := hu
  exact ⟨_, rfl⟩

theorem State.zeroSubs_inv (h : s.Inv) (n lo k : Nat) : (s.zeroSubs n lo k).Inv := (State.zeroSubs_keep s n lo k (Kept.refl s)).inv h

theorem State.entry_zeroSubs (h : s.Inv) (n lo k a b : Nat) : (s.zeroSubs n lo k).entry a b =
    if dkey (0x2000 + n) lo ≤ dkey a b ∧ dkey a b < dkey (0x2000 + n) lo + k then 0 else s.entry a b := by
  induction k with
  | zero => exact (if_neg (by omega)).symm
  | succ k ih =>
    have hstep : s.zeroSubs n lo (k + 1) = (s.zeroSubs n lo k).setEntry (0x2000 + n) (lo + k) 0 := by
      unfold State.zeroSubs
      rw [List.range_succ, List.foldl_append]
      rfl
    have hkey : dkey (0x2000 + n) (lo + k) = dkey (0x2000 + n) lo + k := by unfold dkey; omega
    rw [hstep, State.entry_setEntry (State.zeroSubs_inv h n lo k), ih, hkey]
    by_cases hj : dkey a b = dkey (0x2000 + n) lo + k
    · rw [if_pos hj, if_pos (by omega)]
      rfl
    · rw [if_neg hj]
      exact if_congr (by omega) rfl rfl

theorem State.str_zeroSubs (h : s.Inv) (n lo k j : Nat) : (s.zeroSubs n lo k).str n j = if lo ≤ j ∧ j < lo + k then 0 else s.str n j := by
  refine (State.entry_zeroSubs h n lo k (0x2000 + n) j).trans ?_
  unfold dkey
  exact if_congr (by omega) rfl rfl

theorem State.stream_zeroSubs (s : State) (n lo k m : Nat) : (s.zeroSubs n lo k).stream m = s.stream m := by
  obtain ⟨d, hd⟩ := State.zeroSubs_rest s n lo k
  rw [hd]
  rfl

/-! ### The track table, and reads that a stream leaves -/

theorem State.clearTracks_inv (h : s.Inv) (n : Nat) : (s.clearTracks n).Inv := (State.clearTracks_keep s n (Kept.refl s)).inv h

theorem State.decoding_clearTracks (s : State) (n : Nat) : (s.clearTracks n).decoding = s.decoding := by
  unfold State.clearTracks
  split
  · exact State.decoding_memPut ..
  · rfl

theorem State.sweepFrames_inv (h : s.Inv) (n : Nat) : (s.sweepFrames n).Inv := (State.sweepFrames_keep s n (Kept.refl s)).inv h

theorem State.setStrState_inv (h : s.Inv) (n v : Nat) : (s.setStrState n v).Inv := State.setEntry_inv h ..

theorem State.str_setStrState (h : s.Inv) (n v m j : Nat) :
    (s.setStrState n v).str m j = if dkey (0x2000 + m) j = dkey (0x2000 + n) 2 then v % 2 ^ 64 else s.str m j := State.entry_setEntry h ..

/-! ### OPEN -/

/-- The reservations and the three buffers of an open are the Coil's and memory's alone (R275). -/
theorem State.openReserve_leaves (h : s.Inv) {n : Nat} {x : State × (Nat × Nat) × (Nat × Nat) × (Nat × Nat)} (hx : s.openReserve n = some x) :
    x.1.Inv ∧ x.1.decoding = s.decoding := by
  refine ⟨(State.openReserve_keep s n (Kept.refl s) x hx).inv h, ?_⟩
  unfold State.openReserve at hx
  extract_lets fb want u at hx
  have hu : u.decoding = s.decoding := State.decoding_foldl (fun w p => State.decoding_setResv w n p (want p)) _ s
  obtain ⟨-, hx⟩ := Option.ite_none_left_eq_some.1 hx
  obtain ⟨b, hb, hx⟩ := Option.bind_eq_some_iff.1 hx
  obtain ⟨y, hy, hx⟩ := Option.bind_eq_some_iff.1 hx
  obtain ⟨k, hk, rfl⟩ := Option.map_eq_some_iff.1 hx
  exact (State.decoding_coilGrantNow hk).trans ((State.decoding_coilGrantNow hy).trans ((State.decoding_coilGrantNow hb).trans hu))

theorem gzTail_ne_gzHead (n : Nat) : gzTail n ≠ gzHead n := by unfold gzTail gzHead; omega

theorem gzTail_lt (n : StreamId) : gzTail n.val < memBase := by have := n.isLt; unfold gzTail gzBase memBase; omega

theorem gzHead_lt (n : StreamId) : gzHead n.val < memBase := by have := n.isLt; unfold gzHead gzBase memBase; omega

/-- The record of a stream that opens. -/
def State.newStream (s : State) (n : Nat) (b y t : Nat × Nat) : Stream :=
  { frames := (s.stream n).frames, hold := (s.stream n).hold, pend := (s.stream n).pend, track := some t, bitBuf := some b, synBuf := some y,
    fbPool := firstPool (s.fbBytes n), credit := 4, mode := s.str n 0x48, ptsPeriod := s.str n 0x4A, periodLen := s.str n 0x49, periodMax := s.str n 0x4B }

/-- The four indices of a stream at 0, and what else of the registers. -/
def State.zeroRings (s : State) (n : Nat) : State :=
  (((s.setReg (gzTail n) 0).setReg (gzHead n) 0).setReg (crReg n 0x10) 0).setReg (crReg n 0x18) 0

theorem State.zeroRings_inv (h : s.Inv) (n : Nat) : (s.zeroRings n).Inv :=
  State.setReg_inv (State.setReg_inv (State.setReg_inv (State.setReg_inv h ..) ..) ..) ..

theorem State.reg_zeroRings (h : s.Inv) (n : StreamId) (k : Nat) (hk : k ∈ [gzTail n.val, gzHead n.val, crReg n.val 0x10, crReg n.val 0x18]) :
    (s.zeroRings n.val).reg k = 0 := by
  have h1 := State.setReg_inv h (gzTail n.val) 0
  have h2 := State.setReg_inv h1 (gzHead n.val) 0
  unfold State.zeroRings
  rw [State.reg_setReg (State.setReg_inv h2 ..), State.reg_setReg h2, State.reg_setReg h1, State.reg_setReg h]
  simp only [List.mem_cons, List.not_mem_nil, or_false] at hk
  rcases hk with rfl | rfl | rfl | rfl <;> simp

theorem State.stream_zeroRings (s : State) (n m : Nat) : (s.zeroRings n).stream m = s.stream m := rfl

theorem State.str_zeroRings (s : State) (n m j : Nat) : (s.zeroRings n).str m j = s.str m j := rfl

theorem State.stream_setStrState (s : State) (n v m : Nat) : (s.setStrState n v).stream m = s.stream m := rfl

theorem State.reg_setStrState (s : State) (n v r : Nat) : (s.setStrState n v).reg r = s.reg r := rfl

/-- A stream that opens with the record `x`: its counters, its track table and its indices. -/
def State.cleared (s : State) (n : Nat) (x : Stream) : State :=
  ((((s.setStream n x).zeroSubs n 0x18 5).zeroSubs n 0x20 14).clearTracks n).zeroRings n

theorem State.cleared_inv (h : s.Inv) (n : Nat) (x : Stream) : (s.cleared n x).Inv :=
  State.zeroRings_inv (State.clearTracks_inv (State.zeroSubs_inv (State.zeroSubs_inv (State.setStream_inv h ..) ..) ..) ..) n

theorem State.stream_cleared (h : s.Inv) (n : Nat) (x : Stream) : (s.cleared n x).stream n = x := by
  unfold State.cleared
  rw [State.stream_zeroRings, State.decoding_stream (State.decoding_clearTracks ..), State.stream_zeroSubs, State.stream_zeroSubs,
    State.stream_setStream h, if_pos rfl]

theorem State.str_cleared (h : s.Inv) (n : StreamId) (x : Stream) {j : Nat} (hj : j < 256) : (s.cleared n.val x).str n.val j =
    if 0x20 ≤ j ∧ j < 0x20 + 14 then 0 else if 0x18 ≤ j ∧ j < 0x18 + 5 then 0 else s.str n.val j := by
  have h1 : (s.setStream n.val x).Inv := State.setStream_inv h ..
  have h2 := State.zeroSubs_inv h1 n.val 0x18 5
  have h3 := State.zeroSubs_inv h2 n.val 0x20 14
  unfold State.cleared
  rw [State.str_zeroRings, State.decoding_str h3 (State.clearTracks_inv h3 _) (State.decoding_clearTracks ..) n.isLt hj, State.str_zeroSubs h2,
    State.str_zeroSubs h1]
  rfl

theorem State.reg_cleared (h : s.Inv) (n : StreamId) (x : Stream) {r : Nat}
    (hr : r ∈ [gzTail n.val, gzHead n.val, crReg n.val 0x10, crReg n.val 0x18]) : (s.cleared n.val x).reg r = 0 :=
  State.reg_zeroRings (State.clearTracks_inv (State.zeroSubs_inv (State.zeroSubs_inv (State.setStream_inv h ..) ..) ..) _) n r hr

theorem State.opened_eq (s : State) (n : Nat) (b y k : Nat × Nat) :
    let t := s.cleared n (s.newStream n b y k)
    s.opened n b y k = if ((t.setStrState n (t.startState n)).stream n).mode = 0 then (t.setStrState n (t.startState n)).streamPeriod n none
      else t.setStrState n (t.startState n) := rfl

/-- What stands once an open has passed its checks, before a first period opens (R276). -/
theorem State.opened_leaves (h : s.Inv) (n : StreamId) (b y k : Nat × Nat) : ∃ t : State,
    s.opened n.val b y k = (if s.str n.val 0x48 = 0 then t.streamPeriod n.val none else t) ∧
    t.str n.val 0x02 = (if s.str n.val 0x0B = 1 then 2 else 1) ∧ t.stream n.val = s.newStream n.val b y k ∧
    (∀ i, i < 14 → t.str n.val (0x20 + i) = 0) ∧
    ∀ r, r ∈ [gzTail n.val, gzHead n.val, crReg n.val 0x10, crReg n.val 0x18] → t.reg r = 0 := by
  have hi := State.cleared_inv h n.val (s.newStream n.val b y k)
  have hstr {j : Nat} (hj : j < 256) := State.str_cleared h n (s.newStream n.val b y k) hj
  have hx := State.stream_cleared h n.val (s.newStream n.val b y k)
  have hreg {r : Nat} := State.reg_cleared (r := r) h n (s.newStream n.val b y k)
  have heq := State.opened_eq s n.val b y k
  dsimp only at heq
  generalize s.cleared n.val (s.newStream n.val b y k) = t at hi hstr hx hreg heq
  rw [State.stream_setStrState, hx] at heq
  refine ⟨t.setStrState n.val (t.startState n.val), heq, ?_, hx, fun i hi' => ?_, fun r hr => hreg hr⟩
  · have hmode : t.str n.val 0x0B = s.str n.val 0x0B := (hstr (by decide)).trans ((if_neg (by decide)).trans (if_neg (by decide)))
    rw [State.str_setStrState hi, if_pos rfl, State.startState, hmode]
    split <;> rfl
  · rw [State.str_setStrState hi, if_neg (by unfold dkey; omega), hstr (by omega), if_pos (by omega)]

/-! ### RESET and CLOSE -/

/-- Nothing of a stream is in decoding. -/
structure Stream.Abandoned (x : Stream) : Prop where
  aus : x.aus = []
  jobs : x.jobs = []
  queue : x.queue = []
  credit : x.credit = 4

/-- The record of a stream that abandons what is in decoding. -/
def Stream.wiped (x : Stream) : Stream :=
  { x with
    seq := 0, hold := [], current := none, pending := false, tookPts := 0, tookDerived := false, credit := 4, discont := false, chunk := .idle,
    copied := 0, scan := {}, aus := [], sets := [], newSets := [], marked := [], prevPts := none, decodeCount := 0, began := none, jobs := [],
    queue := [], fresh := true, opens := [], frames := x.frames.map fun f => { f with short := false, long := false, output := false, reorder := false } }

/-- The slots of a stream without the list that was marked for them. -/
def State.unlistSlots (s : State) (n : Nat) : State :=
  s.openSteps.foldl (fun s q => s.modStep q.1 fun st => { st with
    slots := st.slots.map fun sl => if sl.stream = n then { sl with listDone := false } else sl }) s

/-- A stream's consumer index joins its tail, and its track table and reads go. -/
def State.joinTail (s : State) (n : Nat) : State := ((s.setReg (gzHead n) (s.reg (gzTail n))).clearTracks n).leaveReads n

theorem State.countFree_inv (h : s.Inv) (a : Nat) : (s.countFree a).Inv := (State.countFree_keep s a (Kept.refl s)).inv h

/-- Once its engines are free, a stream abandons the rest. -/
theorem State.abandonStream_rest (h : s.Inv) (n : Nat) : ∃ u : State, u.Inv ∧
    s.abandonStream n = ((((u.modStream n Stream.wiped).sweepFrames n).zeroSubs n 0x18 5).unlistSlots n).joinTail n := by
  unfold State.abandonStream
  extract_lets s1 s2 v s3
  have h1 : s1.Inv := foldl_all (P := State.Inv) h fun w e hw => by
    split
    · split
      · exact State.countFree_inv hw _
      · exact hw
    · exact hw
  have h2 : s2.Inv := foldl_all (P := State.Inv) h1 fun w e hw => by
    split
    · split
      · exact State.countFree_inv hw _
      · exact hw
    · exact hw
  clear_value s2
  have h3 : s3.Inv := by
    refine { h2 with vid := Video.ok_mk (Tbl.ok_foldl h2.vid.ee fun w e hw => ?_) (Tbl.ok_foldl h2.vid.pe fun w e hw => ?_) h2.vid.pre }
    · split
      · exact Tbl.ok_ite (Tbl.ok_set hw) hw
      · exact hw
    · split
      · exact Tbl.ok_ite (Tbl.ok_set hw) hw
      · exact hw
  clear_value s3
  exact ⟨s3, h3, rfl⟩

theorem State.unlistSlots_rest (s : State) (n : Nat) : ∃ c, s.unlistSlots n = { s with sch := c } := by
  unfold State.unlistSlots
  refine foldl_all (P := fun u : State => ∃ c, u = { s with sch := c }) ⟨s.sch, rfl⟩ fun u _ hu => ?_
  obtain ⟨c, rfl⟩ := hu
  exact ⟨_, rfl⟩

theorem State.stream_unlistSlots (s : State) (n m : Nat) : (s.unlistSlots n).stream m = s.stream m := by
  obtain ⟨c, hc⟩ := State.unlistSlots_rest s n
  rw [hc]
  rfl

theorem State.unlistSlots_inv (h : s.Inv) (n : Nat) : (s.unlistSlots n).Inv :=
  foldl_all (P := State.Inv) h fun u _ hu => (State.modStep_keep u _ _ (Kept.refl u)).inv hu

theorem State.stream_leaveReads (s : State) (n m : Nat) : (s.leaveReads n).stream m = s.stream m := rfl

theorem State.reg_leaveReads (s : State) (n r : Nat) : (s.leaveReads n).reg r = s.reg r := rfl

theorem State.stream_joinTail (s : State) (n m : Nat) : (s.joinTail n).stream m = s.stream m := by
  unfold State.joinTail
  rw [State.stream_leaveReads, State.decoding_stream (State.decoding_clearTracks ..)]
  rfl

theorem State.reg_joinTail (h : s.Inv) (n : StreamId) : (s.joinTail n.val).reg (gzHead n.val) = (s.joinTail n.val).reg (gzTail n.val) := by
  have h1 : (s.setReg (gzHead n.val) (s.reg (gzTail n.val))).Inv := State.setReg_inv h ..
  unfold State.joinTail
  rw [State.reg_leaveReads, State.reg_leaveReads,
    State.decoding_reg h1 (State.clearTracks_inv h1 _) (State.decoding_clearTracks ..) (gzHead_lt n),
    State.decoding_reg h1 (State.clearTracks_inv h1 _) (State.decoding_clearTracks ..) (gzTail_lt n),
    State.reg_setReg h, State.reg_setReg h, if_pos rfl, if_neg (gzTail_ne_gzHead _)]

theorem Stream.abandoned_wiped (x : Stream) : (Stream.swept x.wiped).Abandoned := ⟨rfl, rfl, rfl, rfl⟩

/-- What a reset or a close leaves of a stream (R295, R296). -/
theorem State.abandonStream_leaves (h : s.Inv) (n : StreamId) : ((s.abandonStream n.val).stream n.val).Abandoned ∧
    (s.abandonStream n.val).reg (gzHead n.val) = (s.abandonStream n.val).reg (gzTail n.val) := by
  obtain ⟨u, h1, hu⟩ := State.abandonStream_rest h n.val
  have h2 : (u.modStream n.val Stream.wiped).Inv := State.modStream_inv h1 ..
  rw [hu]
  refine ⟨?_, State.reg_joinTail (State.unlistSlots_inv (State.zeroSubs_inv (State.sweepFrames_inv h2 _) ..) _) n⟩
  rw [State.stream_joinTail, State.stream_unlistSlots, State.stream_zeroSubs, State.decoding_stream (State.decoding_sweepFrames ..),
    State.stream_modStream h2, if_pos rfl, State.stream_modStream h1, if_pos rfl]
  exact Stream.abandoned_wiped _

end Sys2Proof.Machine
end

section
/-! PROOF. Streams open, reset and close: the commands, and what ends a reset and a close. -/

namespace Sys2Proof.Machine

variable {s t : State}

/-! ### RESET_DONE and CLOSE_DONE -/

/-- The frames that only the slots of a step still hold. -/
def Stream.unread (keep : Frame → Bool) (x : Stream) : Stream :=
  { x with frames := x.frames.map fun f => { f with held := f.held && (f.output || keep f) } }

theorem State.dropUnread_eq (s : State) (n : Nat) : ∃ keep, s.dropUnread n = (s.modStream n (Stream.unread keep)).sweepFrames n := ⟨_, rfl⟩

theorem State.dropUnread_inv (h : s.Inv) (n : Nat) : (s.dropUnread n).Inv := (State.dropUnread_keep s n (Kept.refl s)).inv h

theorem State.stream_dropUnread (h : s.Inv) (n : Nat) : ∃ keep, (s.dropUnread n).stream n = Stream.swept (Stream.unread keep (s.stream n)) := by
  obtain ⟨keep, hk⟩ := State.dropUnread_eq s n
  have h1 : (s.modStream n (Stream.unread keep)).Inv := State.modStream_inv h ..
  refine ⟨keep, ?_⟩
  rw [hk, State.decoding_stream (State.decoding_sweepFrames ..), State.stream_modStream h1, if_pos rfl, State.stream_modStream h, if_pos rfl]

theorem State.str_dropUnread (h : s.Inv) (n : Nat) {m j : Nat} (hm : m < 64) (hj : j < 256) : (s.dropUnread n).str m j = s.str m j := by
  obtain ⟨keep, hk⟩ := State.dropUnread_eq s n
  have h1 : (s.modStream n (Stream.unread keep)).Inv := State.modStream_inv h ..
  have h2 : ((s.modStream n (Stream.unread keep)).modStream n Stream.swept).Inv := State.modStream_inv h1 ..
  exact (State.decoding_str h2 (State.dropUnread_inv h n) (hk ▸ State.decoding_sweepFrames ..) hm hj)

theorem Stream.swept_unread {x : Stream} (hx : x.frames = []) (keep : Frame → Bool) : Stream.swept (Stream.unread keep x) = x := by
  unfold Stream.swept Stream.unread
  simp only [hx, List.map_nil, List.filter_nil]
  rw [← hx]

theorem dkey_stream_eq {n m j : Nat} (hj : j < 256) : dkey (0x2000 + m) j = dkey (0x2000 + n) 2 ↔ m = n ∧ j = 2 := by
  unfold dkey
  omega

/-- The reset ends: the stream decodes again (R295). -/
theorem streamResetDone_ends (h : s.Inv) (n : StreamId) (hst : s.str n.val 0x02 = 3) : ∃ t, exec (.streamResetDone n) s = .next t ∧
    t.str n.val 0x02 = (if s.str n.val 0x0B = 1 then 2 else 1) ∧
    (∀ m sub, m < 64 → sub < 256 → (m ≠ n.val ∨ sub ≠ 0x02) → t.str m sub = s.str m sub) ∧
    ((s.stream n.val).frames = [] → t.stream n.val = s.stream n.val) := by
  have hi := State.dropUnread_inv h n.val
  refine ⟨(s.dropUnread n.val).setStrState n.val (s.startState n.val), if_pos hst, ?_, fun m sub hm hsub hne => ?_, fun hf => ?_⟩
  · rw [State.str_setStrState hi, if_pos rfl, State.startState]
    split <;> rfl
  · rw [State.str_setStrState hi, if_neg (fun he => by have := (dkey_stream_eq hsub).1 he; omega), State.str_dropUnread h _ hm hsub]
  · obtain ⟨keep, hk⟩ := State.stream_dropUnread h n.val
    rw [State.stream_setStrState, hk, Stream.swept_unread hf]

/-- The record of a stream that closes. -/
def Stream.shut (x : Stream) : Stream := { x with track := none, bitBuf := none, synBuf := none, opened := false }

theorem State.closeStream_eq (s : State) (n : Nat) :
    ∃ kept, s.closeStream n = (((s.dropUnread n).releaseOwner n kept).modStream n Stream.shut).setStrState n 0 := ⟨_, rfl⟩

/-- The close ends: CLOSED, without buffers (R296). -/
theorem streamCloseDone_ends (h : s.Inv) (n : StreamId) (hst : s.str n.val 0x02 = 4) : ∃ t, exec (.streamCloseDone n) s = .next t ∧
    t.str n.val 0x02 = 0 ∧ (t.stream n.val).track = none ∧ (t.stream n.val).bitBuf = none ∧ (t.stream n.val).synBuf = none ∧
    (t.stream n.val).opened = false := by
  obtain ⟨kept, hk⟩ := State.closeStream_eq s n.val
  have h1 : ((s.dropUnread n.val).releaseOwner n.val kept).Inv := (State.releaseOwner_keep _ _ _ (Kept.refl _)).inv (State.dropUnread_inv h _)
  have h2 : (((s.dropUnread n.val).releaseOwner n.val kept).modStream n.val Stream.shut).Inv := State.modStream_inv h1 ..
  have hx : (s.closeStream n.val).stream n.val = Stream.shut (((s.dropUnread n.val).releaseOwner n.val kept).stream n.val) := by
    rw [hk, State.stream_setStrState, State.stream_modStream h1, if_pos rfl]
  refine ⟨s.closeStream n.val, if_pos hst, ?_, ?_⟩
  · rw [hk, State.str_setStrState h2, if_pos rfl]
    rfl
  · rw [hx]
    exact ⟨rfl, rfl, rfl, rfl⟩

/-! ### The commands -/

section commands
variable (n : StreamId) (o : Origin)

/-- Each command on the stream's command entry, with its value and its effect. -/
theorem streamCommand_eq {v : Byte} {c : Instr} (s : State)
    (hc : (v, c) ∈ [(1, Instr.streamOpen o n), (3, .streamReset o n), (2, .streamClose o n)]) :
    ∃ f, exec c s = s.dictCmd o (0x2000 + n.val) 0x01 [v] f := by
  simp only [List.mem_cons, Prod.mk.injEq, List.not_mem_nil, or_false] at hc
  rcases hc with ⟨rfl, rfl⟩ | ⟨rfl, rfl⟩ | ⟨rfl, rfl⟩ <;> exact ⟨_, rfl⟩

/-- What the effect of RESET or CLOSE leaves, or its refusal (R295, R296). -/
def State.leaveDecoding (s : State) (n v : Nat) : Except W16 State :=
  if !s.mayReset n then .error Code.VID_STATE else .ok (((s.voidWaiting n).abandonStream n).setStrState n v)

theorem streamLeave_eq {v : Byte} {c : Instr} {st : Nat} (s : State)
    (hc : (v, c, st) ∈ [(3, Instr.streamReset o n, 3), (2, .streamClose o n, 4)]) :
    exec c s = s.dictCmd o (0x2000 + n.val) 0x01 [v] (fun u => u.leaveDecoding n.val st) ∧ st < 2 ^ 64 := by
  simp only [List.mem_cons, Prod.mk.injEq, List.not_mem_nil, or_false] at hc
  rcases hc with ⟨rfl, rfl, rfl⟩ | ⟨rfl, rfl, rfl⟩ <;> exact ⟨rfl, by decide⟩

theorem State.mayReset_iff (s : State) (n : Nat) : s.mayReset n = true ↔ s.str n 0x02 = 1 ∨ s.str n 0x02 = 2 ∨ s.str n 0x02 = 5 := by
  unfold State.mayReset State.strState
  simp only [Bool.or_eq_true, beq_iff_eq, or_assoc]

theorem State.leaveDecoding_ok (h : s.Inv) {st : Nat} (hst : st < 2 ^ 64) (hm : s.mayReset n.val = true) : ∃ t : State,
    s.leaveDecoding n.val st = .ok t ∧ t.str n.val 0x02 = st ∧ (t.stream n.val).Abandoned ∧ t.reg (gzHead n.val) = t.reg (gzTail n.val) := by
  have h1 : (s.voidWaiting n.val).Inv := (State.voidWaiting_keep s n.val (Kept.refl s)).inv h
  have h2 : ((s.voidWaiting n.val).abandonStream n.val).Inv := (State.abandonStream_keep _ n.val (Kept.refl _)).inv h1
  obtain ⟨hx, hreg⟩ := State.abandonStream_leaves h1 n
  refine ⟨_, if_neg (by rw [hm]; decide), ?_, ?_, ?_⟩
  · rw [State.str_setStrState h2, if_pos rfl, Nat.mod_eq_of_lt hst]
  · rw [State.stream_setStrState]
    exact hx
  · rw [State.reg_setStrState, State.reg_setStrState]
    exact hreg

theorem State.leaveDecoding_error {st : Nat} (hm : s.mayReset n.val = false) : s.leaveDecoding n.val st = .error Code.VID_STATE :=
  if_pos (by rw [hm]; rfl)

theorem State.streamOpen_code {code : W16} (hc : s.openCode n.val = some code) : s.streamOpen n.val = .error code := by
  unfold State.streamOpen
  rw [hc]

theorem State.streamOpen_unreserved (hc : s.openCode n.val = none) (hr : s.openReserve n.val = none) :
    s.streamOpen n.val = .error Code.VID_RESERVE := by
  unfold State.streamOpen
  rw [hc, hr]

theorem State.streamOpen_reserved {x : State × (Nat × Nat) × (Nat × Nat) × (Nat × Nat)} (hc : s.openCode n.val = none)
    (hr : s.openReserve n.val = some x) : s.streamOpen n.val = .ok (x.1.opened n.val x.2.1 x.2.2.1 x.2.2.2) := by
  unfold State.streamOpen
  rw [hc, hr]

end commands

/-- Settles O28: a refusal is the store's; an open runs over the state that its reservations leave, and a reset or a close over the state
that abandoned what was in decoding; each effect is told by what it leaves of the stream's record, entries and indices. -/
theorem streamsOpenResetClose : Obligations.StreamsOpenResetClose := by
  unfold Obligations.StreamsOpenResetClose
  refine ⟨fun s o n h hr => ⟨fun v c hc code hcode => ?_, fun hg => ⟨fun code hcode => ?_, fun hcode hres => ?_, fun x hcode hres => ?_⟩,
    fun v c st hc => ?_⟩, fun s n h => ⟨streamResetDone_ends h n, streamCloseDone_ends h n⟩⟩
  · obtain ⟨f, hf⟩ := streamCommand_eq n o s hc
    exact hf.trans (State.dictCmd_refused hr (.inl hcode))
  · exact State.dictCmd_refused hr (.inr ⟨hg, State.streamOpen_code n hcode⟩)
  · exact State.dictCmd_refused hr (.inr ⟨hg, State.streamOpen_unreserved n hcode hres⟩)
  · have ha := State.asked_inv h o (0x2000 + n.val) 0x01 [1]
    obtain ⟨hxi, hxd⟩ := State.openReserve_leaves ha hres
    have hstr {j : Nat} (hj : j < 256) : x.1.str n.val j = s.str n.val j :=
      (State.decoding_str ha hxi hxd n.isLt hj).trans (State.asked_str ..)
    obtain ⟨t, ht, hst, hx, hcnt, hreg⟩ := State.opened_leaves hxi n x.2.1 x.2.2.1 x.2.2.2
    rw [hstr (by decide)] at ht hst
    refine ⟨t, ?_, hst, ?_⟩
    · rw [← ht]
      exact State.dictCmd_taken hr hg (State.streamOpen_reserved n hcode hres)
    · rw [hx]
      exact ⟨rfl, rfl, rfl, rfl, rfl, rfl, hcnt, hreg _ (by simp), hreg _ (by simp), hreg _ (by simp), hreg _ (by simp)⟩
  · obtain ⟨hexec, hlt⟩ := streamLeave_eq n o s hc
    have ha := State.asked_inv h o (0x2000 + n.val) 0x01 [v]
    have hmay := State.mayReset_iff (s.asked o (0x2000 + n.val) 0x01 [v]) n.val
    rw [State.asked_str] at hmay
    refine fun hg => ⟨fun hst => ?_, fun hst => ?_⟩
    · obtain ⟨t, ht, hs2, ⟨haus, hjobs, hqueue, hcredit⟩, hreg⟩ := State.leaveDecoding_ok n ha hlt (hmay.2 hst)
      exact ⟨t, hexec.trans (State.dictCmd_taken hr hg ht), hs2, haus, hjobs, hqueue, hcredit, hreg⟩
    · have hno : (s.asked o (0x2000 + n.val) 0x01 [v]).mayReset n.val = false := by
        rw [Bool.eq_false_iff, Ne, hmay]
        omega
      exact hexec.trans (State.dictCmd_refused hr (.inr ⟨hg, State.leaveDecoding_error n hno⟩))

end Sys2Proof.Machine
end

section
/-! PROOF. What leaves through the host port and what lands there (R505 to R508): the rest of the state stands, and so does what a function
may do. -/

namespace Sys2Proof.Machine

variable {s t u : State}

/-- Only the port has moved, and of the functions only what they ask a translation for. -/
structure State.PortMoves (s t : State) : Prop where
  rest : t = { s with hp := t.hp, out := t.out }
  inv : s.Inv → t.Inv
  fn : s.Inv → ∀ k, ∃ a, t.fn k = { s.fn k with asked := a }

namespace State.PortMoves

theorem refl (s : State) : s.PortMoves s := ⟨rfl, id, fun _ k => ⟨(s.fn k).asked, rfl⟩⟩

theorem trans (h : s.PortMoves t) (h' : t.PortMoves u) : s.PortMoves u := by
  refine ⟨?_, fun hi => h'.inv (h.inv hi), fun hi k => ?_⟩
  · rw [h'.rest, h.rest]
  · obtain ⟨a, ha⟩ := h.fn hi k
    obtain ⟨b, hb⟩ := h'.fn (h.inv hi) k
    exact ⟨b, by rw [hb, ha]⟩

/-- A change of the port outside the records of functions. -/
theorem of_fns (hr : t = { s with hp := t.hp, out := t.out }) (hf : t.hp.fns = s.hp.fns) : s.PortMoves t := by
  refine ⟨hr, fun hi => ?_, fun _ k => ⟨(s.fn k).asked, congrArg (fun x => Tbl.get ({} : FnSt) x k) hf⟩⟩
  rw [hr]
  exact ⟨hi.regs, hi.dict, hi.log, hi.mem, hi.dm, hi.ibex, hi.ibexes, hi.streams, hi.queues, hi.hitches, hi.ctxs, hf ▸ hi.fns, hi.acts,
    hi.coil, hi.vid, hi.start⟩

theorem askXlate (s : State) (k : Nat) (o : Out) : s.PortMoves (s.askXlate k o) := by
  unfold State.askXlate
  split
  · exact refl s
  · refine trans (t := s.send (.xlateReq k (BitVec.ofNat 64 ((o.target.map (·.1)).getD 0)))) (of_fns rfl rfl)
      ⟨rfl, fun hi => State.modFn_inv hi .., fun hi j => ?_⟩
    rw [State.fn_modFn hi]
    split
    · next e => exact ⟨some o, by rw [e]⟩
    · exact ⟨_, rfl⟩

theorem leave {k : Nat} {o : Out} (h : s.leave k o = some t) : s.PortMoves t := by
  unfold State.leave at h
  split at h
  · cases h
    exact of_fns rfl rfl
  · split at h
    · cases h
      exact of_fns rfl rfl
    · split at h
      · cases h
        exact of_fns rfl rfl
      · obtain ⟨e, -, rfl⟩ := Option.map_eq_some_iff.1 h
        exact of_fns rfl rfl

theorem takeOff (s : State) (k : Nat) (o : Out) : s.PortMoves (s.takeOff k o) := by
  unfold State.takeOff
  split
  · exact of_fns rfl rfl
  · exact refl s

theorem serveWaits (ws : List Wait) : ∀ (s : State) (kept : List Wait) (stuck : List Nat) (blocked : Bool),
    s.PortMoves (s.serveWaits kept stuck blocked ws) := by
  induction ws with
  | nil => exact fun _ _ _ _ => of_fns rfl rfl
  | cons w ws ih =>
    intro s kept stuck blocked
    unfold State.serveWaits
    extract_lets k
    split
    · exact ih ..
    · split
      · exact ih ..
      · split
        · next t ht => exact ((leave ht).trans (takeOff ..)).trans (ih ..)
        · exact (askXlate ..).trans (ih ..)

theorem issue (s : State) (o : Out) (wb : WriteBack) : s.PortMoves (s.issue o wb) := by
  unfold State.issue
  exact (of_fns (s := s) (t := { s with hp := { s.hp with waits := s.hp.waits ++ [⟨o, wb⟩] } }) rfl rfl).trans (serveWaits ..)

theorem sendInvals (s : State) : s.PortMoves s.sendInvals := by
  unfold State.sendInvals
  split
  · exact refl s
  · exact foldl_all (P := fun u => s.PortMoves u) (of_fns rfl rfl) fun u _ hu => hu.trans (of_fns rfl rfl)

theorem land (s : State) (r : DevRead) : s.PortMoves (s.land r) := by
  unfold State.land
  split
  · exact refl s
  · extract_lets hp u
    have hu : s.PortMoves u := of_fns rfl rfl
    exact (hu.trans (sendInvals u)).trans (serveWaits ..)

theorem received (s : State) (n : Nat) : s.PortMoves (s.received n) := of_fns rfl rfl

/-! ### What stands -/

theorem read (h : s.PortMoves t) {α : Type} {f : State → α} (hf : ∀ u hp out, f { u with hp := hp, out := out } = f u) : f t = f s := by
  rw [h.rest]
  exact hf ..

theorem stream (h : s.PortMoves t) (n : Nat) : t.stream n = s.stream n := h.read (f := fun u => u.stream n) fun _ _ _ => rfl

theorem reg (h : s.PortMoves t) (k : Nat) : t.reg k = s.reg k := h.read (f := fun u => u.reg k) fun _ _ _ => rfl

theorem str (h : s.PortMoves t) (n j : Nat) : t.str n j = s.str n j := h.read (f := fun u => u.str n j) fun _ _ _ => rfl

theorem canIssue (h : s.PortMoves t) (hi : s.Inv) (k : Nat) : t.canIssue k = s.canIssue k := by
  obtain ⟨a, ha⟩ := h.fn hi k
  unfold State.canIssue State.enabled
  rw [ha, show t.frozen = s.frozen from h.read (f := fun u => u.frozen) fun _ _ _ => rfl]

end State.PortMoves

/-- What waits alone leaves where it may. -/
theorem State.serveWaits_alone {o : Out} (wb : WriteBack) (hk : s.canIssue o.fnOf = true) (hf : s.hp.flying.length < 512)
    (hl : s.leave o.fnOf o = some t) : s.serveWaits [] [] false [⟨o, wb⟩] =
      { t.takeOff o.fnOf o with hp := { (t.takeOff o.fnOf o).hp with waits := [] } } := by
  have hfull : decide (maxOutstanding ≤ s.hp.flying.length) = false := decide_eq_false (Nat.not_le.2 hf)
  rw [State.serveWaits]
  dsimp only
  rw [hk, hfull, hl, Bool.and_false]
  rfl

/-- A read leaves at once where nothing waits, a tag is free and no translation is used (R505, R508, Table 15.1). -/
theorem State.issue_read (hw : s.hp.waits = []) (hf : s.hp.flying.length < 512) {k : Nat} (hk : s.canIssue k = true) (hm : s.atsMode k = 0)
    (addr : W64) (len : Nat) (r : DevRead) : s.issue (.read k false addr len r) .no =
      { s with hp := { s.hp with flying := s.hp.flying ++ [{ fn := k, read := r }] }, out := s.out ++ [.read k false addr len r] } := by
  let o : Out := .read k false addr len r
  let u : State := { s with hp := { s.hp with waits := [⟨o, .no⟩] } }
  have hu : s.issue o .no = u.serveWaits [] [] false [⟨o, .no⟩] := by
    unfold State.issue
    rw [hw]
    rfl
  have hleave : u.leave k o = some (u.send o) := if_pos hm
  have hoff : (u.send o).takeOff k o = { u with
      hp := { u.hp with flying := s.hp.flying ++ [{ fn := k, read := r, entry := if s.atsMode k = 1 then s.xlate k addr.toNat false else none }] },
      out := s.out ++ [o] } := rfl
  rw [hu, State.serveWaits_alone (s := u) (o := o) .no hk hf hleave, show o.fnOf = k from rfl, hoff, hm, if_neg (by decide), ← hw]

end Sys2Proof.Machine
end

section
/-! PROOF. The access units of a stream (R268, R270, Table 8.3): what bytes and the ends of units leave of the stream, and that every byte is
in one unit. -/

namespace Sys2Proof.Machine

variable {s t u : State} {n : Nat}

/-! ### The cuts of a scan -/

/-- The cuts ascend, and end where the decided bytes do. -/
theorem scanUnits_ascend (codec : Nat) (bs : List Byte) : ∀ (i : Nat) (vcl : Bool) (skip : Nat) (acc : List Nat),
    (acc ++ [i]).Pairwise (· ≤ ·) → ((scanUnits codec i vcl skip acc bs).1 ++ [(scanUnits codec i vcl skip acc bs).2.2.2]).Pairwise (· ≤ ·) ∧
      (scanUnits codec i vcl skip acc bs).2.2.2 ≤ i + bs.length := by
  induction bs with
  | nil => exact fun i vcl skip acc h => ⟨h, Nat.le_refl _⟩
  | cons b bs ih =>
    intro i vcl skip acc h
    obtain ⟨hacc, -, hle⟩ := List.pairwise_append.1 h
    have hnext : (acc ++ [i + 1]).Pairwise (· ≤ ·) := List.pairwise_append.2
      ⟨hacc, List.pairwise_singleton .., fun a ha c hc => by
        have := hle a ha i (by simp)
        rw [List.mem_singleton.1 hc]
        omega⟩
    have hcut : ((acc ++ [i]) ++ [i + 1]).Pairwise (· ≤ ·) := List.pairwise_append.2
      ⟨h, List.pairwise_singleton .., fun a ha c hc => by
        rw [List.mem_singleton.1 hc]
        rcases List.mem_append.1 ha with ha | ha
        · have := hle a ha i (by simp)
          omega
        · rw [List.mem_singleton.1 ha]
          omega⟩
    have hlen : (b :: bs).length = bs.length + 1 := rfl
    unfold scanUnits
    split
    · obtain ⟨hs, hd⟩ := ih (i + 1) vcl (skip - 1) acc hnext
      exact ⟨hs, by omega⟩
    · split
      · obtain ⟨hs, hd⟩ := ih (i + 1) vcl 0 acc hnext
        exact ⟨hs, by omega⟩
      · exact ⟨h, by dsimp only; omega⟩
      · next starts v k _ =>
        obtain ⟨hs, hd⟩ := ih (i + 1) v k (if starts then acc ++ [i] else acc) (by split <;> assumption)
        exact ⟨hs, by omega⟩

/-- The spans between ascending cuts make up what lies before the end. -/
theorem sum_spans (cuts : List Nat) (done : Nat) (h : (cuts ++ [done]).Pairwise (· ≤ ·)) :
    (cuts ++ [done]).headD 0 + ((cuts.zip (cuts.drop 1 ++ [done])).map fun c => c.2 - c.1).sum = done := by
  induction cuts with
  | nil => rfl
  | cons a cuts ih =>
    have hrest := ih (List.pairwise_cons.1 h).2
    have hle := (List.pairwise_cons.1 h).1
    cases cuts with
    | nil =>
      have := hle done (by simp)
      simp only [List.cons_append, List.nil_append, List.headD_cons, List.drop_succ_cons, List.drop_zero, List.zip_cons_cons, List.zip_nil_left,
        List.map_cons, List.map_nil, List.sum_cons, List.sum_nil]
      omega
    | cons b cuts =>
      have := hle b (by simp)
      simp only [List.cons_append, List.headD_cons, List.drop_succ_cons, List.drop_zero, List.zip_cons_cons, List.map_cons, List.sum_cons]
        at hrest ⊢
      omega

/-- Both ends of every span lie within the decided bytes. -/
theorem span_le (cuts : List Nat) (done : Nat) (h : (cuts ++ [done]).Pairwise (· ≤ ·)) {c : Nat × Nat}
    (hc : c ∈ cuts.zip (cuts.drop 1 ++ [done])) : c.2 ≤ done := by
  have hmem : c.2 ∈ cuts.drop 1 ++ [done] := (List.of_mem_zip hc).2
  rcases List.mem_append.1 hmem with hm | hm
  · exact (List.pairwise_append.1 h).2.2 c.2 (List.mem_of_mem_drop hm) done (by simp)
  · rw [List.mem_singleton.1 hm]

/-! ### What feeding a stream moves -/

/-- The bytes of a stream's access units. -/
def Stream.auBytes (x : Stream) : Nat := (x.aus.map (·.bytes)).sum

/-- Of s only the access units and the scan of stream n have moved, with the count of units (0x20) and the serial of the next; k bytes
more are in units. -/
structure State.Feeds (s t : State) (n k : Nat) : Prop where
  rest : t = { s with streams := t.streams, dict := t.dict, vid := { s.vid with serial := t.vid.serial } }
  inv : t.Inv
  others : s.StreamsBut t n
  stream : t.stream n = { s.stream n with scan := (t.stream n).scan, aus := (t.stream n).aus }
  entries : s.EntriesBut t [dkey (0x2000 + n) 0x20]
  bytes : (t.stream n).auBytes = (s.stream n).auBytes + k
  kept : (s.stream n).aus ≠ [] → (t.stream n).aus ≠ []

namespace State.Feeds

variable {k l : Nat}

theorem refl (h : s.Inv) (n : Nat) : s.Feeds s n 0 := ⟨rfl, h, fun _ _ => rfl, rfl, fun _ _ _ => rfl, rfl, id⟩

theorem trans (h : s.Feeds t n k) (h' : t.Feeds u n l) : s.Feeds u n (k + l) where
  rest := by rw [h'.rest, h.rest]
  inv := h'.inv
  others m hm := (h'.others m hm).trans (h.others m hm)
  stream := by rw [h'.stream, h.stream]
  entries i j hj := (h'.entries i j hj).trans (h.entries i j hj)
  bytes := by rw [h'.bytes, h.bytes, Nat.add_assoc]
  kept hne := h'.kept (h.kept hne)

/-- A change of the stream's access units and scan alone. -/
theorem modStream (h : s.Inv) (n : Nat) {f : Stream → Stream} (hf : ∀ x, f x = { x with scan := (f x).scan, aus := (f x).aus })
    (hb : (f (s.stream n)).auBytes = (s.stream n).auBytes + k) (hk : (s.stream n).aus ≠ [] → (f (s.stream n)).aus ≠ []) :
    s.Feeds (s.modStream n f) n k := by
  have hx : (s.modStream n f).stream n = f (s.stream n) := (State.stream_modStream h n n f).trans (if_pos rfl)
  refine ⟨rfl, State.modStream_inv h .., fun m hm => (State.stream_modStream h n m f).trans (if_neg hm), ?_, fun _ _ _ => rfl, ?_, ?_⟩
  · rw [hx]
    exact hf _
  · rw [hx, hb]
  · rw [hx]
    exact hk

/-- Access units follow each other. -/
theorem foldl {α : Type} {f : State → α → State} {g : α → Nat} (hf : ∀ (u : State) (x : α), u.Inv → u.Feeds (f u x) n (g x)) (xs : List α) :
    s.Inv → s.Feeds (xs.foldl f s) n (xs.map g).sum := by
  induction xs generalizing s with
  | nil => exact fun h => refl h n
  | cons x xs ih => exact fun h => (hf s x h).trans (ih (hf s x h).inv)

end State.Feeds

/-! ### Bytes, and the end of a unit -/

/-- An access unit with more bytes. -/
def AU.more (u : AU) (size : Nat) (bs : List (Byte × Option W64)) : AU :=
  { u with bytes := u.bytes + bs.length, coded := u.coded ++ bs.map (·.1),
           pts := (match u.pts with | some p => some p | none => bs.findSome? fun b => b.2), big := decide (size < u.bytes + bs.length) }

/-- A new access unit. -/
def AU.first (size : Nat) (bs : List (Byte × Option W64)) : AU :=
  { bytes := bs.length, coded := bs.map (·.1), pts := bs.findSome? fun b => b.2, complete := false, code := 0,
    big := decide (size < bs.length), arrival := 0, eos := false }

/-- The access units with more bytes at their end. -/
def addBytes (aus : List AU) (size : Nat) (bs : List (Byte × Option W64)) : List AU :=
  match aus.getLast? with
  | some u => if u.complete then aus ++ [.first size bs] else aus.dropLast ++ [u.more size bs]
  | none => aus ++ [.first size bs]

theorem State.auAdd_empty (s : State) (n : Nat) : s.auAdd n [] = s := rfl

theorem State.auAdd_eq (s : State) (n : Nat) {bs : List (Byte × Option W64)} (hbs : bs ≠ []) :
    s.auAdd n bs = s.modStream n fun x => { x with aus := addBytes x.aus (s.bitSize n) bs } := by
  unfold State.auAdd
  rw [if_neg (by simpa using hbs)]
  refine congrArg (s.modStream n) (funext fun x => ?_)
  unfold addBytes
  dsimp only
  cases x.aus.getLast? with
  | none => rfl
  | some u =>
    dsimp only
    split <;> rfl

theorem sum_addBytes (aus : List AU) (size : Nat) (bs : List (Byte × Option W64)) :
    ((addBytes aus size bs).map (·.bytes)).sum = (aus.map (·.bytes)).sum + bs.length := by
  unfold addBytes
  split
  · next u hu =>
    split
    · rw [List.map_append, List.sum_append]
      rfl
    · have hsplit := List.dropLast_append_getLast? u hu
      rw [← congrArg (fun l => (List.map (·.bytes) l).sum) hsplit, List.map_append, List.map_append, List.sum_append, List.sum_append]
      simp only [List.map_cons, List.map_nil, List.sum_cons, List.sum_nil, AU.more]
      omega
  · rw [List.map_append, List.sum_append]
    rfl

theorem addBytes_ne_nil (aus : List AU) (size : Nat) (bs : List (Byte × Option W64)) : addBytes aus size bs ≠ [] := by
  unfold addBytes
  split
  · split <;> simp
  · simp

theorem State.Feeds.auAdd (h : s.Inv) (n : Nat) (bs : List (Byte × Option W64)) :
    s.Feeds (s.auAdd n bs) n bs.length ∧ ((s.auAdd n bs).stream n).scan = (s.stream n).scan := by
  by_cases hbs : bs = []
  · subst hbs
    exact ⟨.refl h n, rfl⟩
  · rw [State.auAdd_eq s n hbs]
    refine ⟨.modStream h n (fun _ => rfl) (sum_addBytes ..) fun _ he => addBytes_ne_nil _ _ _ he, ?_⟩
    rw [State.stream_modStream h, if_pos rfl]

/-- An access unit that is complete. -/
def AU.ended (u : AU) (code : W16) (serial : Nat) : AU := { u with complete := true, code := code, arrival := serial }

/-- The serial of the next access unit or picture. -/
def State.nextSerial (s : State) : State := { s with vid := { s.vid with serial := s.vid.serial + 1 } }

theorem State.nextSerial_inv (h : s.Inv) : s.nextSerial.Inv := { h with vid := Video.ok_mk h.vid.ee h.vid.pe h.vid.pre }

/-- The last access unit of stream n is complete, and counts. -/
def State.endUnit (s : State) (n : Nat) (u : AU) (code : W16) : State :=
  (s.modStream n fun x => { x with aus := x.aus.dropLast ++ [u.ended code s.vid.serial] }).nextSerial.countEntry (0x2000 + n) 0x20 1

theorem State.auComplete_eq {a : AU} (ha : (s.stream n).aus.getLast? = some a) (hc : a.complete = false) (code : W16) :
    s.auComplete n code = s.endUnit n a code := by
  unfold State.auComplete
  dsimp only
  rw [ha]
  exact if_neg (by rw [hc]; decide)

theorem State.endUnit_inv (h : s.Inv) (n : Nat) (a : AU) (code : W16) : (s.endUnit n a code).Inv :=
  State.countEntry_inv (State.nextSerial_inv (State.modStream_inv h ..)) ..

theorem State.entry_endUnit (h : s.Inv) (n : Nat) (a : AU) (code : W16) (i j : Nat) : (s.endUnit n a code).entry i j =
    if dkey i j = dkey (0x2000 + n) 0x20 then (s.str n 0x20 + 1) % 2 ^ 64 else s.entry i j :=
  State.entry_countEntry (State.nextSerial_inv (State.modStream_inv h ..)) ..

theorem State.stream_endUnit (h : s.Inv) (n m : Nat) (a : AU) (code : W16) : (s.endUnit n a code).stream m =
    if m = n then { s.stream n with aus := (s.stream n).aus.dropLast ++ [a.ended code s.vid.serial] } else s.stream m :=
  State.stream_modStream h n m fun x => { x with aus := x.aus.dropLast ++ [a.ended code s.vid.serial] }

theorem State.Feeds.endUnit (h : s.Inv) {a : AU} (ha : (s.stream n).aus.getLast? = some a) (code : W16) :
    s.Feeds (s.endUnit n a code) n 0 := by
  have hx := (State.stream_endUnit h n n a code).trans (if_pos rfl)
  refine ⟨rfl, State.endUnit_inv h .., fun m hm => (State.stream_endUnit h n m a code).trans (if_neg hm), ?_, fun i j hj => ?_, ?_, ?_⟩
  · rw [hx]
  · exact (State.entry_endUnit h ..).trans (if_neg fun e => hj (by rw [e]; simp))
  · have hsplit := List.dropLast_append_getLast? a ha
    rw [hx]
    unfold Stream.auBytes
    conv_rhs => rw [← hsplit]
    simp only [List.map_append, List.map_cons, List.map_nil, List.sum_append, AU.ended, Nat.add_zero]
  · rw [hx]
    simp

theorem State.Feeds.auComplete (h : s.Inv) (n : Nat) (code : W16) :
    s.Feeds (s.auComplete n code) n 0 ∧ ((s.auComplete n code).stream n).scan = (s.stream n).scan := by
  cases ha : (s.stream n).aus.getLast? with
  | none =>
    have he : s.auComplete n code = s := by
      unfold State.auComplete
      dsimp only
      rw [ha]
    rw [he]
    exact ⟨.refl h n, rfl⟩
  | some a =>
    cases hc : a.complete with
    | true =>
      have he : s.auComplete n code = s := by
        unfold State.auComplete
        dsimp only
        rw [ha]
        exact if_pos hc
      rw [he]
      exact ⟨.refl h n, rfl⟩
    | false =>
      rw [State.auComplete_eq ha hc]
      exact ⟨.endUnit h ha code, by rw [State.stream_endUnit h, if_pos rfl]⟩

/-- The unit in progress ends with the bytes that wait. -/
theorem State.Feeds.auEnd (h : s.Inv) (n : Nat) (code : W16) :
    s.Feeds (s.auEnd n code) n (s.stream n).scan.tail.length ∧ ((s.auEnd n code).stream n).scan = {} := by
  have h1 := (State.Feeds.auAdd h n (s.stream n).scan.tail).1
  have h2 : (s.auAdd n (s.stream n).scan.tail).Feeds ((s.auAdd n (s.stream n).scan.tail).modStream n fun x => { x with scan := {} }) n 0 :=
    .modStream h1.inv n (fun _ => rfl) rfl id
  obtain ⟨h3, hs⟩ := State.Feeds.auComplete h2.inv n code
  refine ⟨(h1.trans h2).trans h3, hs.trans ?_⟩
  rw [State.stream_modStream h1.inv, if_pos rfl]

/-- Bytes go to their units but for those that wait. -/
theorem State.Feeds.auSplit (h : s.Inv) (n : Nat) (bs : List (Byte × Option W64)) : ∃ k, s.Feeds (s.auSplit n bs) n k ∧
    k + ((s.auSplit n bs).stream n).scan.tail.length = (s.stream n).scan.tail.length + bs.length := by
  unfold State.auSplit
  extract_lets x all
  obtain ⟨hasc, hdone⟩ := scanUnits_ascend (s.str n 0x03) (all.map (·.1)) 0 x.scan.vcl x.scan.skip [] (List.pairwise_singleton ..)
  have hall : all.length = (s.stream n).scan.tail.length + bs.length := List.length_append
  rw [List.length_map, Nat.zero_add] at hdone
  generalize scanUnits (s.str n 0x03) 0 x.scan.vcl x.scan.skip [] (all.map (·.1)) = r at hasc hdone
  obtain ⟨cuts, vcl, skip, done⟩ := r
  dsimp only at hasc hdone ⊢
  have hsum := sum_spans cuts done hasc
  have hhead : (all.take ((cuts ++ [done]).headD 0)).length = (cuts ++ [done]).headD 0 := by
    rw [List.length_take]
    omega
  have h1 := (State.Feeds.auAdd h n (all.take ((cuts ++ [done]).headD 0))).1
  have hstep (u : State) (c : Nat × Nat) (hu : u.Inv) : u.Feeds ((u.auComplete n 0).auAdd n ((all.drop c.1).take (c.2 - c.1))) n
      ((all.drop c.1).take (c.2 - c.1)).length := by
    have hc := (State.Feeds.auComplete hu n 0).1
    have := hc.trans (State.Feeds.auAdd hc.inv n ((all.drop c.1).take (c.2 - c.1))).1
    rwa [Nat.zero_add] at this
  have h2 := State.Feeds.foldl (n := n) hstep (cuts.zip (cuts.drop 1 ++ [done])) h1.inv
  have hspans : (cuts.zip (cuts.drop 1 ++ [done])).map (fun c => ((all.drop c.1).take (c.2 - c.1)).length) =
      (cuts.zip (cuts.drop 1 ++ [done])).map fun c => c.2 - c.1 := by
    refine List.map_congr_left fun c hc => ?_
    have := span_le cuts done hasc hc
    rw [List.length_take, List.length_drop]
    omega
  rw [hspans] at h2
  rw [hhead] at h1
  have h12 := h1.trans h2
  rw [hsum] at h12
  refine ⟨done, h12.trans (l := 0) (.modStream h2.inv n (fun _ => rfl) rfl id), ?_⟩
  rw [State.stream_modStream h2.inv, if_pos rfl]
  change done + (all.drop done).length = _
  rw [List.length_drop]
  omega

/-- The end of a stream follows its last access unit. -/
theorem State.Feeds.eosChunk (h : s.Inv) (hne : (s.stream n).aus ≠ []) :
    s.Feeds (s.eosChunk n) n 0 ∧ ((s.eosChunk n).stream n).scan = (s.stream n).scan := by
  obtain ⟨a, ha⟩ : ∃ a, (s.stream n).aus.getLast? = some a := ⟨_, List.getLast?_eq_some_getLast hne⟩
  have he : s.eosChunk n = s.modStream n fun x => { x with aus := x.aus.dropLast ++ [{ a with eos := true }] } := by
    unfold State.eosChunk
    rw [ha]
  rw [he]
  refine ⟨.modStream h n (fun _ => rfl) ?_ (fun _ => by simp), by rw [State.stream_modStream h, if_pos rfl]⟩
  have hsplit := List.dropLast_append_getLast? a ha
  unfold Stream.auBytes
  conv_rhs => rw [← hsplit]
  simp only [List.map_append, List.map_cons, List.map_nil, List.sum_append, Nat.add_zero]

end Sys2Proof.Machine
end

section
/-! PROOF. Chunks feed their stream (R265 to R271): the reads of records and bytes, what a chunk leaves, and the time-out of an access unit. -/

namespace Sys2Proof.Machine

variable {s t u : State} {n : Nat}

/-! ### The bytes of a chunk -/

/-- k bytes are taken: into access units, or to wait. -/
def State.Takes (s t : State) (n k : Nat) : Prop :=
  ∃ j, s.Feeds t n j ∧ j + (t.stream n).scan.tail.length = (s.stream n).scan.tail.length + k

namespace State.Takes

variable {k l : Nat}

theorem of_feeds (h : s.Feeds t n k) (hs : (t.stream n).scan = (s.stream n).scan) : s.Takes t n k := ⟨k, h, by rw [hs, Nat.add_comm]⟩

theorem refl (h : s.Inv) : s.Takes s n 0 := of_feeds (.refl h n) rfl

theorem trans (h : s.Takes t n k) (h' : t.Takes u n l) : s.Takes u n (k + l) := by
  obtain ⟨j, hj, he⟩ := h
  obtain ⟨j', hj', he'⟩ := h'
  exact ⟨j + j', hj.trans hj', by omega⟩

theorem inv (h : s.Takes t n k) : t.Inv := by
  obtain ⟨j, hj, -⟩ := h
  exact hj.inv

theorem auEnd (h : s.Inv) (n : Nat) (code : W16) : s.Takes (s.auEnd n code) n 0 := by
  obtain ⟨hf, hs⟩ := State.Feeds.auEnd h n code
  exact ⟨_, hf, by rw [hs]; rfl⟩

theorem auEnd_if (h : s.Inv) (n : Nat) (code : W16) {c : Prop} [Decidable c] : s.Takes (if c then s.auEnd n code else s) n 0 := by
  split
  · exact auEnd h n code
  · exact refl h

end State.Takes

/-- A chunk of len bytes has come; a discontinuity goes on or ends. -/
def State.countChunk (s : State) (n len : Nat) (d : Bool) : State :=
  (s.modStream n fun x => { x with discont := d }).countEntry (0x2000 + n) 0x21 len

theorem State.countChunk_inv (h : s.Inv) (n len : Nat) (d : Bool) : (s.countChunk n len d).Inv := State.countEntry_inv (State.modStream_inv h ..) ..

theorem State.stream_countChunk (h : s.Inv) (n len m : Nat) (d : Bool) :
    (s.countChunk n len d).stream m = if m = n then { s.stream n with discont := d } else s.stream m :=
  State.stream_modStream h n m fun x => { x with discont := d }

theorem State.entry_countChunk (h : s.Inv) (n len i j : Nat) (d : Bool) : (s.countChunk n len d).entry i j =
    if dkey i j = dkey (0x2000 + n) 0x21 then (s.str n 0x21 + len) % 2 ^ 64 else s.entry i j :=
  State.entry_countEntry (State.modStream_inv h ..) ..

/-- The last stage of a chunk: its access unit ends where its flags say so, and so does the stream (R268, R270). -/
theorem State.endOfChunk_takes (h : s.Inv) (n : Nat) {last eos : Bool} (hne : eos = true → ((s.auEnd n 0).stream n).aus ≠ []) :
    let t := if last || eos then s.auEnd n 0 else s
    let v := if eos then t.eosChunk n else t
    s.Takes v n 0 ∧ (last = true ∨ eos = true → (v.stream n).scan = {}) := by
  intro t v
  have ht : s.Takes t n 0 := .auEnd_if h n 0
  have hscan (hc : (last || eos) = true) : (t.stream n).scan = {} := by
    have : t = s.auEnd n 0 := if_pos hc
    rw [this]
    exact (State.Feeds.auEnd h n 0).2
  cases he : eos with
  | false =>
    have hv : v = t := if_neg (by rw [he]; decide)
    rw [hv]
    exact ⟨ht, fun hc => hscan (by rcases hc with hc | hc <;> simp [hc, he])⟩
  | true =>
    have hv : v = t.eosChunk n := if_pos he
    have htne : (t.stream n).aus ≠ [] := by
      have : t = s.auEnd n 0 := if_pos (by simp [he])
      rw [this]
      exact hne he
    obtain ⟨hf, hs⟩ := State.Feeds.eosChunk ht.inv htne
    rw [hv]
    exact ⟨ht.trans (.of_feeds hf hs), fun _ => hs.trans (hscan (by simp [he]))⟩

/-- What the bytes and the flags of a chunk leave. -/
structure State.Fed (s t : State) (n : Nat) (len taken : Nat) (discont ends : Bool) : Prop where
  rest : t = { s with streams := t.streams, dict := t.dict, vid := { s.vid with serial := t.vid.serial } }
  inv : t.Inv
  others : s.StreamsBut t n
  stream : t.stream n = { s.stream n with discont := discont, scan := (t.stream n).scan, aus := (t.stream n).aus }
  entries : s.EntriesBut t [dkey (0x2000 + n) 0x20, dkey (0x2000 + n) 0x21]
  count : t.str n 0x21 = (s.str n 0x21 + len) % 2 ^ 64
  bytes : (t.stream n).auBytes + (t.stream n).scan.tail.length = (s.stream n).auBytes + (s.stream n).scan.tail.length + taken
  scan : ends = true → (t.stream n).scan = {}
  kept : (s.stream n).aus ≠ [] → (t.stream n).aus ≠ []

/-- A chunk counts between what its discontinuity ends and what its bytes do. -/
theorem State.Fed.of_takes {a b : Nat} {x : Bool} {len : Nat} {ends : Bool} (h1 : s.Takes t n a) (h2 : (t.countChunk n len x).Takes u n b)
    (hends : ends = true → (u.stream n).scan = {}) : s.Fed u n len (a + b) x ends := by
  obtain ⟨j, hj, he⟩ := h1
  obtain ⟨l, hl, he'⟩ := h2
  have hx := (State.stream_countChunk hj.inv n len n x).trans (if_pos rfl)
  have hentry (i k : Nat) := State.entry_countChunk hj.inv n len i k x
  refine ⟨?_, hl.inv, fun m hm => ?_, ?_, fun i k hk => ?_, ?_, ?_, hends, fun hk => ?_⟩
  · rw [hl.rest, show t.countChunk n len x = { t with streams := (t.countChunk n len x).streams, dict := (t.countChunk n len x).dict } from rfl,
      hj.rest]
  · rw [hl.others m hm, State.stream_countChunk hj.inv, if_neg hm, hj.others m hm]
  · rw [hl.stream, hx, hj.stream]
  · rw [hl.entries i k (fun hm => hk (by simp_all)), hentry, if_neg (fun e => hk (by simp [e])), hj.entries i k (fun hm => hk (by simp_all))]
  · have hc : (t.countChunk n len x).entry (0x2000 + n) 0x21 = (t.entry (0x2000 + n) 0x21 + len) % 2 ^ 64 := (hentry ..).trans (if_pos rfl)
    have hne : dkey (0x2000 + n) 0x21 ∉ [dkey (0x2000 + n) 0x20] := by simp [dkey]
    change u.entry _ _ = (s.entry _ _ + len) % 2 ^ 64
    rw [hl.entries _ _ hne, hc, hj.entries _ _ hne]
  · have hb := hl.bytes
    have hb' := hj.bytes
    rw [hx] at hb he'
    change (u.stream n).auBytes = (t.stream n).auBytes + l at hb
    dsimp only at he'
    omega
  · refine hl.kept ?_
    rw [hx]
    exact hj.kept hk

/-- Bytes that no unit and no wait holds. -/
theorem State.Fed.aus_ne_nil {len taken : Nat} {x : Bool} (h : s.Fed t n len taken x true) (hne : 0 < taken ∨ (s.stream n).aus ≠ []) :
    (t.stream n).aus ≠ [] := by
  rcases hne with hpos | hne
  · intro hnil
    have hb := h.bytes
    rw [h.scan rfl, Stream.auBytes, hnil] at hb
    simp only [List.map_nil, List.sum_nil, List.length_nil, Nat.add_zero] at hb
    omega
  · exact h.kept hne

theorem State.Takes.auSplit (h : s.Inv) (n : Nat) (bs : List (Byte × Option W64)) : s.Takes (s.auSplit n bs) n bs.length := by
  obtain ⟨k, hk, he⟩ := State.Feeds.auSplit h n bs
  exact ⟨k, hk, he⟩

/-- The bytes of a chunk, from where its access units begin (R267 to R271). -/
theorem State.feed_fed (h : s.Inv) (n : Nat) (r bs : List Byte) :
    let flags := recField r 0x0C 2
    let resync := bitOf flags 2 || (s.stream n).discont
    let first := if resync then firstUnit (s.str n 0x03) 0 bs else some 0
    let lo := first.getD bs.length
    (bitOf flags 3 = false ∨ lo < bs.length ∨ (s.stream n).aus ≠ []) →
      s.Fed (s.feed n r bs) n bs.length (bs.length - lo) first.isNone (bitOf flags 1 || bitOf flags 3) := by
  intro flags resync first lo hne
  unfold State.feed
  extract_lets pts s1 first' s2 s3 s4
  have h1 : s.Takes s1 n 0 := .auEnd_if h n 0
  have hfirst : first' = first := by
    obtain ⟨j, hj, -⟩ := h1
    have hcodec : s1.str n 0x03 = s.str n 0x03 := hj.entries _ _ (by simp [dkey])
    unfold first' first
    rw [hcodec]
  clear_value s1 first'
  have h2 : s2.Inv := State.countChunk_inv h1.inv n bs.length first'.isNone
  have h3 : s2.Takes s3 n (bs.length - lo) := by
    have hlo : lo = first'.getD bs.length := by rw [hfirst]
    rw [hlo]
    unfold s3
    split
    · next k =>
      have := State.Takes.auSplit h2 n ((bs.drop k).map fun b => (b, pts))
      rwa [List.length_map, List.length_drop] at this
    · rw [Option.getD_none, Nat.sub_self]
      exact .refl h2
  have hfed {u : State} {ends : Bool} (hu : s3.Takes u n 0) (he : ends = true → (u.stream n).scan = {}) :
      s.Fed u n bs.length (bs.length - lo) first.isNone ends := by
    have := State.Fed.of_takes (len := bs.length) (x := first'.isNone) h1 (h3.trans hu) he
    rwa [Nat.zero_add, Nat.add_zero, hfirst] at this
  have hlast : bitOf flags 3 = true → ((s3.auEnd n 0).stream n).aus ≠ [] := by
    intro he
    refine (hfed (.auEnd h3.inv n 0) fun _ => (State.Feeds.auEnd h3.inv n 0).2).aus_ne_nil ?_
    rcases hne with hne | hne | hne
    · rw [he] at hne
      cases hne
    · exact .inl (by omega)
    · exact .inr hne
  obtain ⟨h5, hs5⟩ := State.endOfChunk_takes h3.inv n (last := bitOf flags 1) hlast
  exact hfed h5 fun he => hs5 (by simpa using he)

end Sys2Proof.Machine
end

section
/-! PROOF. Chunk reads and their completions, and what O25 says of them (R265 to R271). -/

namespace Sys2Proof.Machine

variable {s t b : State}

/-! ### Asking for a record or for bytes -/

/-- A read of stream n is asked for, and the stream waits for it. -/
def State.askChunk (s : State) (n : StreamId) (k addr len : Nat) (c : ChunkStage) : State :=
  (s.issue (.read k false (BitVec.ofNat 64 addr) len (.chunk n)) .no).modStream n.val fun x => { x with chunk := c }

theorem State.askChunk_asks (h : b.Inv) (n : StreamId) {k : Nat} (hk : b.canIssue k = true) (addr len : Nat) (c : ChunkStage) :
    let t := b.askChunk n k addr len c
    t.stream n.val = { b.stream n.val with chunk := c } ∧ b.StreamsBut t n.val ∧ t = { b with streams := t.streams, out := t.out, hp := t.hp } ∧
    (b.hp.waits = [] → b.hp.flying.length < 512 → b.atsMode k = 0 →
      t.hp = { b.hp with flying := b.hp.flying ++ [{ fn := k, read := .chunk n }] } ∧
      t.out = b.out ++ [.read k false (BitVec.ofNat 64 addr) len (.chunk n)]) := by
  have hm := State.PortMoves.issue b (.read k false (BitVec.ofNat 64 addr) len (.chunk n)) .no
  have hx (m : Nat) := State.stream_modStream (hm.inv h) n.val m fun x => { x with chunk := c }
  refine ⟨?_, fun m hne => ?_, ?_, fun hw hf ha => ?_⟩
  · rw [State.askChunk, hx, if_pos rfl, hm.stream]
  · rw [State.askChunk, hx, if_neg hne, hm.stream]
  · unfold State.askChunk
    rw [hm.rest]
    rfl
  · unfold State.askChunk
    rw [State.issue_read hw hf hk ha]
    exact ⟨rfl, rfl⟩

theorem State.mayFetchChunk_canIssue {n : Nat} (h : s.mayFetchChunk n = true) : s.canIssue (s.strFn n) = true := by
  unfold State.mayFetchChunk at h
  simp only [Bool.and_eq_true] at h
  exact h.1.1.2

theorem State.askBytes_asks {n : StreamId} {r : List Byte} (hm : s.mayFetchChunk n.val = true) (hr : s.noRoom n.val (recField r 8 4) = false) :
    s.askBytes n r = s.askChunk n (s.strFn n.val) (recField r 0 8) (recField r 8 4) (.body r) := by
  unfold State.askBytes
  exact if_neg (by rw [hm, hr]; decide)

theorem State.askBytes_waits {n : StreamId} {r : List Byte} (h : s.mayFetchChunk n.val = false ∨ s.noRoom n.val (recField r 8 4) = true) :
    s.askBytes n r = s.modStream n.val fun x => { x with chunk := .held r } := by
  unfold State.askBytes
  exact if_pos (by rcases h with h | h <;> rw [h] <;> simp)

theorem chunkFetch_idle {n : StreamId} (hx : (s.stream n.val).chunk = .idle) (hm : s.mayFetchChunk n.val = true)
    (hne : s.reg (gzHead n.val) ≠ s.reg (gzTail n.val)) : exec (.chunkFetch n) s = .next (s.askChunk n (s.strFn n.val)
      (s.str n.val 0x0D + 32 * ((s.reg (gzHead n.val)).toNat % s.str n.val 0x0E)) 32 .record) := by
  change execChunkFetch n s = _
  unfold execChunkFetch
  rw [hx]
  exact if_neg (by rw [hm]; simpa using hne)

theorem chunkFetch_held {n : StreamId} {r : List Byte} (hx : (s.stream n.val).chunk = .held r) :
    exec (.chunkFetch n) s = .next (s.askBytes n r) := by
  change execChunkFetch n s = _
  unfold execChunkFetch
  rw [hx]

/-! ### A read that lands -/

/-- The state once the read for stream n has landed. -/
def State.landed (s : State) (n : StreamId) (got : Fetched) : State := (s.land (.chunk n)).received got.size

theorem State.landed_moves (s : State) (n : StreamId) (got : Fetched) : s.PortMoves (s.landed n got) :=
  (State.PortMoves.land ..).trans (State.PortMoves.received ..)

namespace State.PortMoves

theorem mayFetchChunk (h : s.PortMoves b) (hi : s.Inv) (n : Nat) : b.mayFetchChunk n = s.mayFetchChunk n := by
  unfold State.mayFetchChunk State.decodes State.strFn State.strState
  rw [h.canIssue hi, h.str, h.str, show b.vid = s.vid from h.read (f := (·.vid)) fun _ _ _ => rfl,
    show b.power = s.power from h.read (f := (·.power)) fun _ _ _ => rfl]

theorem noRoom (h : s.PortMoves b) (n len : Nat) : b.noRoom n len = s.noRoom n len := h.read (f := fun u => u.noRoom n len) fun _ _ _ => rfl

end State.PortMoves

section arrival
variable {n : StreamId} {got : Fetched} {f : Flight} (hf : s.flight (.chunk n) = some f)
include hf

theorem chunkArrival_dead (hl : f.live = false) : exec (.chunkArrival n got) s = .next (s.landed n got) := by
  change execChunkArrival n got s = _
  unfold execChunkArrival
  rw [hf]
  exact if_pos (by rw [hl]; rfl)

theorem chunkArrival_failed (hl : f.live = true) (hx : (s.stream n.val).chunk = .record ∨ ∃ r, (s.stream n.val).chunk = .body r) :
    exec (.chunkArrival n .failed) s = .next ((s.landed n .failed).badChunk n.val Code.VID_CHUNK_FETCH) := by
  have hb : ((s.land (.chunk n)).received Fetched.failed.size).stream n.val = s.stream n.val := (s.landed_moves n .failed).stream n.val
  change execChunkArrival n .failed s = _
  rcases hx with hx | ⟨r, hx⟩ <;> simp only [execChunkArrival, hf, hl, hb, hx, Bool.not_true, Bool.false_eq_true, if_false] <;> rfl

theorem chunkArrival_record {r : List Byte} (hl : f.live = true) (hx : (s.stream n.val).chunk = .record) :
    exec (.chunkArrival n (.bytes r)) s = .next (if chunkBad r then (s.landed n (.bytes r)).badChunk n.val Code.VID_CHUNK
      else (s.landed n (.bytes r)).askBytes n r) := by
  have hb : ((s.land (.chunk n)).received (Fetched.bytes r).size).stream n.val = s.stream n.val := (s.landed_moves n (.bytes r)).stream n.val
  change execChunkArrival n (.bytes r) s = _
  simp only [execChunkArrival, hf, hl, hb, hx, Bool.not_true, Bool.false_eq_true, if_false]
  rfl

theorem chunkArrival_body {r all : List Byte} (hl : f.live = true) (hx : (s.stream n.val).chunk = .body r) :
    exec (.chunkArrival n (.bytes all)) s = .next ((((s.landed n (.bytes all)).copyChunk n.val (all.take (recField r 8 4))).feed n.val r
      (all.take (recField r 8 4))).passChunk n.val) := by
  have hb : ((s.land (.chunk n)).received (Fetched.bytes all).size).stream n.val = s.stream n.val := (s.landed_moves n (.bytes all)).stream n.val
  change execChunkArrival n (.bytes all) s = _
  simp only [execChunkArrival, hf, hl, hb, hx, Bool.not_true, Bool.false_eq_true, if_false]
  rfl

end arrival

theorem chunkArrival_unasked {n : StreamId} (got : Fetched) (hf : s.flight (.chunk n) = none) : exec (.chunkArrival n got) s = .next s := by
  change execChunkArrival n got s = _
  unfold execChunkArrival
  rw [hf]

/-! ### The consumer index passes a record -/

/-- The write-back of the consumer index is the port's alone. -/
theorem State.headWb_rest (s : State) (n : Nat) : s.headWb n = { s with hp := (s.headWb n).hp, out := (s.headWb n).out } := by
  unfold State.headWb
  dsimp only
  split
  · rfl
  · split
    · exact (State.PortMoves.issue ..).rest
    · rfl

/-- The registers and the stream's record once the index has passed. -/
def State.indexed (s : State) (n : Nat) : State :=
  (s.setReg (gzHead n) (BitVec.ofNat 64 (((s.reg (gzHead n)).toNat + 1) % 2 ^ 32))).modStream n fun x => { x with chunk := .idle }

theorem State.passChunk_rest (s : State) (n : Nat) :
    s.passChunk n = { s.indexed n with hp := (s.passChunk n).hp, out := (s.passChunk n).out } := State.headWb_rest ..

theorem State.passChunk_inv (h : s.Inv) (n : Nat) : (s.passChunk n).Inv := (State.passChunk_keep s n (Kept.refl s)).inv h

theorem State.reg_passChunk (h : s.Inv) (n k : Nat) : (s.passChunk n).reg k =
    if k = gzHead n then BitVec.ofNat 64 (((s.reg (gzHead n)).toNat + 1) % 2 ^ 32) else s.reg k := by
  rw [State.passChunk_rest]
  exact State.reg_setReg h ..

theorem State.stream_passChunk (h : s.Inv) (n m : Nat) :
    (s.passChunk n).stream m = if m = n then { s.stream n with chunk := .idle } else s.stream m := by
  rw [State.passChunk_rest]
  exact State.stream_modStream (State.setReg_inv h ..) n m fun x => { x with chunk := .idle }

theorem State.entry_passChunk (s : State) (n i j : Nat) : (s.passChunk n).entry i j = s.entry i j := by
  rw [State.passChunk_rest]
  rfl

section rejected
variable (n : StreamId) (code : W16)

theorem State.badChunk_rest (s : State) (n : Nat) (code : W16) : s.badChunk n code =
    (((s.passChunk n).strCode n code).countEntry (0x2000 + n) 0x2A 1).modStream n fun x => { x with discont := true } := rfl

theorem State.rejected_inv (h : s.Inv) : (((s.passChunk n.val).strCode n.val code).countEntry (0x2000 + n.val) 0x2A 1).Inv :=
  State.countEntry_inv (State.setEntry_inv (State.passChunk_inv h n.val) ..) ..

theorem State.reg_badChunk (h : s.Inv) (k : Nat) : (s.badChunk n.val code).reg k =
    if k = gzHead n.val then BitVec.ofNat 64 (((s.reg (gzHead n.val)).toNat + 1) % 2 ^ 32) else s.reg k := by
  have he : (s.badChunk n.val code).reg k = (s.passChunk n.val).reg k := by
    rw [State.badChunk_rest]
    rfl
  rw [he, State.reg_passChunk h]

theorem State.stream_badChunk (h : s.Inv) (m : Nat) : (s.badChunk n.val code).stream m =
    if m = n.val then { s.stream n.val with chunk := .idle, discont := true } else s.stream m := by
  have hx (m : Nat) : (((s.passChunk n.val).strCode n.val code).countEntry (0x2000 + n.val) 0x2A 1).stream m = (s.passChunk n.val).stream m := rfl
  rw [State.badChunk_rest, State.stream_modStream (State.rejected_inv n code h), hx, hx, State.stream_passChunk h, State.stream_passChunk h, if_pos rfl]
  split <;> rfl

theorem State.entry_badChunk (h : s.Inv) (i j : Nat) : (s.badChunk n.val code).entry i j =
    if dkey i j = dkey (0x2000 + n.val) 0x2A then (s.entry (0x2000 + n.val) 0x2A + 1) % 2 ^ 64
    else if dkey i j = dkey (0x2000 + n.val) 0x1D then code.toNat else s.entry i j := by
  have h1 := State.passChunk_inv h n.val
  have h2 : ((s.passChunk n.val).strCode n.val code).Inv := State.setEntry_inv h1 ..
  have hcode : code.toNat % 2 ^ 64 = code.toNat := Nat.mod_eq_of_lt (by have := code.isLt; omega)
  have hne : dkey (0x2000 + n.val) 0x2A ≠ dkey (0x2000 + n.val) 0x1D := by unfold dkey; omega
  have hu (i j : Nat) : ((s.passChunk n.val).strCode n.val code).entry i j =
      if dkey i j = dkey (0x2000 + n.val) 0x1D then code.toNat else s.entry i j := by
    rw [State.strCode, State.entry_setEntry h1, hcode, State.entry_passChunk]
  refine (State.entry_countEntry h2 ..).trans ?_
  rw [hu (0x2000 + n.val) 0x2A, if_neg hne, hu i j]

/-- A chunk that is rejected (R269). -/
theorem State.badChunk_leaves (h : s.Inv) : let t := s.badChunk n.val code
    t.reg (gzHead n.val) = BitVec.ofNat 64 (((s.reg (gzHead n.val)).toNat + 1) % 2 ^ 32) ∧ s.RegsBut t [gzHead n.val] ∧
    t.stream n.val = { s.stream n.val with chunk := .idle, discont := true } ∧ s.StreamsBut t n.val ∧
    t.str n.val 0x1D = code.toNat ∧ t.str n.val 0x2A = (s.str n.val 0x2A + 1) % 2 ^ 64 ∧
    s.EntriesBut t [dkey (0x2000 + n.val) 0x1D, dkey (0x2000 + n.val) 0x2A] ∧
    t = { s with streams := t.streams, regs := t.regs, dict := t.dict, out := t.out, hp := t.hp } := by
  have hreg := State.reg_badChunk (s := s) n code h
  have hstream := State.stream_badChunk (s := s) n code h
  have hentry := State.entry_badChunk (s := s) n code h
  have hrest : s.badChunk n.val code = { s with
      streams := (s.badChunk n.val code).streams, regs := (s.badChunk n.val code).regs, dict := (s.badChunk n.val code).dict,
      out := (s.badChunk n.val code).out, hp := (s.badChunk n.val code).hp } := by
    unfold State.badChunk
    rw [State.passChunk_rest]
    rfl
  dsimp only
  generalize s.badChunk n.val code = t at hreg hstream hentry hrest ⊢
  refine ⟨(hreg _).trans (if_pos rfl), fun k hk => (hreg k).trans (if_neg (by simpa using hk)), (hstream _).trans (if_pos rfl),
    fun m hm => (hstream m).trans (if_neg hm), ?_, (hentry _ _).trans (if_pos rfl), fun i j hj => ?_, hrest⟩
  · exact (hentry _ _).trans ((if_neg (by unfold dkey; omega)).trans (if_pos rfl))
  · simp only [List.mem_cons, List.not_mem_nil, or_false, not_or] at hj
    rw [hentry, if_neg hj.2, if_neg hj.1]

end rejected

/-! ### The bytes of a chunk in the bitstream buffer -/

/-- The bytes are in the buffer: memory, and how many have been copied. -/
theorem State.copyChunk_leaves (h : s.Inv) (n : Nat) (bs : List Byte) : let t := s.copyChunk n bs
    t.Inv ∧ t = { s with mem := t.mem, regs := t.regs, dict := t.dict, log := t.log, streams := t.streams } ∧
    t.stream n = { s.stream n with copied := (t.stream n).copied } ∧ s.StreamsBut t n ∧ (∀ k, k < memBase → t.reg k = s.reg k) ∧
    ∀ m j, m < 64 → j < 256 → t.str m j = s.str m j := by
  have hinv : (s.copyChunk n bs).Inv := (State.copyChunk_keep s n bs (Kept.refl s)).inv h
  unfold State.copyChunk at hinv ⊢
  cases hb : (s.stream n).bitBuf with
  | none => exact ⟨h, rfl, rfl, fun _ _ => rfl, fun _ _ => rfl, fun _ _ _ _ => rfl⟩
  | some p =>
    rw [hb] at hinv
    dsimp only at hinv ⊢
    generalize ((s.stream n).copied + (bs.length - s.bitSize n)) % s.bitSize n = at' at hinv ⊢
    generalize bs.drop (bs.length - s.bitSize n) = cs at hinv ⊢
    have hu1 := (State.memPut_keep s (s.bufAddr p.1 p.2 + at') (cs.take (s.bitSize n - at')) (Kept.refl s)).inv h
    have ha1 := s.memPut_aside (s.bufAddr p.1 p.2 + at') (cs.take (s.bitSize n - at'))
    generalize s.memPut (s.bufAddr p.1 p.2 + at') (cs.take (s.bitSize n - at')) = u1 at hinv hu1 ha1 ⊢
    have hu2 := (State.memPut_keep u1 (s.bufAddr p.1 p.2) (cs.drop (s.bitSize n - at')) (Kept.refl u1)).inv hu1
    have ha2 := (u1.memPut_aside (s.bufAddr p.1 p.2) (cs.drop (s.bitSize n - at'))).trans ha1
    generalize u1.memPut (s.bufAddr p.1 p.2) (cs.drop (s.bitSize n - at')) = u2 at hinv hu2 ha2 ⊢
    have hd := State.decoding_of_aside ha2
    have hx (m : Nat) := State.stream_modStream hu2 n m fun x => { x with copied := x.copied + bs.length }
    refine ⟨hinv, ?_, ?_, fun m hm => ?_, fun k hk => State.decoding_reg h hu2 hd hk, fun m j hm hj => State.decoding_str h hu2 hd hm hj⟩
    · rw [State.eq_of_aside ha2]
      rfl
    · rw [hx, if_pos rfl, State.decoding_stream hd]
    · rw [hx, if_neg hm, State.decoding_stream hd]

end Sys2Proof.Machine
end

section
/-! PROOF. O25: what chunks and the time-out of an access unit leave (R265 to R271). -/

namespace Sys2Proof.Machine

variable {s t : State}

/-- The bytes of a chunk: into the buffer, into access units, and the index passes the record (R267 to R271). -/
theorem State.takeChunk_leaves (h : s.Inv) {b : State} (hm : s.PortMoves b) (n : StreamId) (r bs : List Byte) :
    let x := s.stream n.val
    let flags := recField r 0x0C 2
    let resync := bitOf flags 2 || x.discont
    let first := if resync then firstUnit (s.str n.val 0x03) 0 bs else some 0
    let lo := first.getD bs.length
    let t := ((b.copyChunk n.val bs).feed n.val r bs).passChunk n.val
    bitOf flags 3 = false ∨ lo < bs.length ∨ x.aus ≠ [] →
      t.reg (gzHead n.val) = BitVec.ofNat 64 (((s.reg (gzHead n.val)).toNat + 1) % 2 ^ 32) ∧
      t.stream n.val = { x with
        chunk := .idle, discont := first.isNone, copied := ((b.copyChunk n.val bs).stream n.val).copied,
        scan := (t.stream n.val).scan, aus := (t.stream n.val).aus } ∧ s.StreamsBut t n.val ∧
      ((t.stream n.val).aus.map (·.bytes)).sum + (t.stream n.val).scan.tail.length =
        (x.aus.map (·.bytes)).sum + x.scan.tail.length + (bs.length - lo) ∧
      (bitOf flags 1 = true ∨ bitOf flags 3 = true → (t.stream n.val).scan = {}) ∧
      t.str n.val 0x21 = (s.str n.val 0x21 + bs.length) % 2 ^ 64 ∧ t.mem = (b.copyChunk n.val bs).mem ∧
      (∀ m sub, m < 64 → sub < 256 → (m ≠ n.val ∨ sub ≠ 0x20 ∧ sub ≠ 0x21) → t.str m sub = s.str m sub) ∧
      ∃ m, t = { s with
        streams := t.streams, regs := t.regs, dict := t.dict, out := t.out, hp := t.hp, mem := t.mem, log := t.log,
        vid := { s.vid with serial := m } } := by
  intro x flags resync first lo t hne
  have ht : t = ((b.copyChunk n.val bs).feed n.val r bs).passChunk n.val := rfl
  clear_value t
  obtain ⟨hc, hrest, hstream, hothers, hreg, hstr⟩ := State.copyChunk_leaves (hm.inv h) n.val bs
  have hfed := State.feed_fed hc n.val r bs
  generalize b.copyChunk n.val bs = c at hc hrest hstream hothers hreg hstr hfed ht ⊢
  rw [hm.stream] at hstream
  have hcodec : c.str n.val 0x03 = s.str n.val 0x03 := (hstr _ _ n.isLt (by decide)).trans (hm.str ..)
  have hdisc : (c.stream n.val).discont = x.discont := by rw [hstream]
  have haus : (c.stream n.val).aus = x.aus := by rw [hstream]
  have hscan : (c.stream n.val).scan = x.scan := by rw [hstream]
  dsimp only at hfed
  rw [hcodec, hdisc, haus] at hfed
  have hf := hfed hne
  generalize c.feed n.val r bs = v at hf ht
  subst ht
  have hpn : (v.passChunk n.val).stream n.val = { v.stream n.val with chunk := .idle } := (State.stream_passChunk hf.inv ..).trans (if_pos rfl)
  have hvr : v.reg (gzHead n.val) = s.reg (gzHead n.val) := by
    rw [hf.rest]
    exact (hreg _ (gzHead_lt n)).trans (hm.reg _)
  refine ⟨?_, ?_, fun m hmn => ?_, ?_, fun he => ?_, ?_, ?_, fun m j hmm hj hne => ?_, v.vid.serial, ?_⟩
  · rw [State.reg_passChunk hf.inv, if_pos rfl, hvr]
  · rw [hpn, hf.stream, hstream]
  · rw [State.stream_passChunk hf.inv, if_neg hmn, hf.others m hmn, hothers m hmn, hm.stream]
  · have hb := hf.bytes
    rw [Stream.auBytes, Stream.auBytes, haus, hscan] at hb
    rw [hpn]
    exact hb
  · rw [hpn]
    exact hf.scan (by simpa using he)
  · refine (State.entry_passChunk ..).trans (hf.count.trans ?_)
    rw [hstr _ _ n.isLt (by decide), hm.str]
  · rw [State.passChunk_rest, hf.rest]
    rfl
  · have he : dkey (0x2000 + m) j ∉ [dkey (0x2000 + n.val) 0x20, dkey (0x2000 + n.val) 0x21] := by
      simp only [List.mem_cons, List.not_mem_nil, or_false, dkey]
      omega
    exact (State.entry_passChunk ..).trans ((hf.entries _ _ he).trans ((hstr m j hmm hj).trans (hm.str m j)))
  · rw [State.passChunk_rest, State.indexed, hf.rest, hrest, hm.rest]
    rfl

theorem State.stream_strCode (s : State) (n : Nat) (code : W16) (m : Nat) : (s.strCode n code).stream m = s.stream m := rfl

/-- An access unit that has waited too long (R268). -/
theorem auTimeout_ends (h : s.Inv) (n : StreamId) {a : AU} (hd : s.decodes n.val = true)
    (ha : ((s.auAdd n.val (s.stream n.val).scan.tail).stream n.val).aus.getLast? = some a) (hc : a.complete = false) :
    ∃ t, exec (.auTimeout n) s = .next t ∧
      t.stream n.val = { s.stream n.val with
        scan := {}, aus := ((s.auAdd n.val (s.stream n.val).scan.tail).stream n.val).aus.dropLast ++
          [{ a with complete := true, code := Code.VID_TIMEOUT, arrival := s.vid.serial }] } ∧
      s.StreamsBut t n.val ∧ t.str n.val 0x20 = (s.str n.val 0x20 + 1) % 2 ^ 64 ∧ t.str n.val 0x1D = Code.VID_TIMEOUT.toNat ∧
      s.EntriesBut t [dkey (0x2000 + n.val) 0x20, dkey (0x2000 + n.val) 0x1D] ∧
      t = { s with streams := t.streams, dict := t.dict, vid := { s.vid with serial := s.vid.serial + 1 } } := by
  have h1 := (State.Feeds.auAdd h n.val (s.stream n.val).scan.tail).1
  have hprog : (s.stream n.val).inProgress = true := by
    unfold Stream.inProgress
    cases htail : (s.stream n.val).scan.tail with
    | cons => rfl
    | nil =>
      rw [htail, State.auAdd_empty] at ha
      simp only [ha, hc]
      rfl
  have hexec : exec (.auTimeout n) s = .next ((s.auEnd n.val Code.VID_TIMEOUT).strCode n.val Code.VID_TIMEOUT) := by
    change execAuTimeout n s = _
    exact if_neg (by rw [hprog, hd]; decide)
  have hserial : (s.auAdd n.val (s.stream n.val).scan.tail).vid = s.vid ∧ (s.auAdd n.val (s.stream n.val).scan.tail).dict = s.dict := by
    unfold State.auAdd
    dsimp only
    split <;> exact ⟨rfl, rfl⟩
  obtain ⟨hvid, hdict⟩ := hserial
  unfold State.auEnd at hexec
  dsimp only at hexec
  generalize s.auAdd n.val (s.stream n.val).scan.tail = w at h1 ha hexec hvid hdict ⊢
  have hw := h1.inv
  have hv : (w.modStream n.val fun x => { x with scan := {} }).Inv := State.modStream_inv hw ..
  have hx := (State.stream_modStream hw n.val n.val fun x => { x with scan := {} }).trans (if_pos rfl)
  have hxo (m : Nat) (hm : m ≠ n.val) := (State.stream_modStream hw n.val m fun x => { x with scan := {} }).trans (if_neg hm)
  have hvr : (w.modStream n.val fun x => { x with scan := {} }) =
      { w with streams := (w.modStream n.val fun x => { x with scan := {} }).streams } := rfl
  generalize (w.modStream n.val fun x => { x with scan := {} }) = v at hv hx hxo hvr hexec
  have hav : (v.stream n.val).aus.getLast? = some a := by rw [hx]; exact ha
  rw [State.auComplete_eq hav hc] at hexec
  have he (i j : Nat) : ((v.endUnit n.val a Code.VID_TIMEOUT).strCode n.val Code.VID_TIMEOUT).entry i j =
      if dkey i j = dkey (0x2000 + n.val) 0x1D then Code.VID_TIMEOUT.toNat else
      if dkey i j = dkey (0x2000 + n.val) 0x20 then (s.str n.val 0x20 + 1) % 2 ^ 64 else s.entry i j := by
    have hsv (i j : Nat) : v.entry i j = s.entry i j := by
      unfold State.entry
      rw [hvr, ← hdict]
    have hcode : Code.VID_TIMEOUT.toNat % 2 ^ 64 = Code.VID_TIMEOUT.toNat := by decide
    rw [State.strCode, State.entry_setEntry (State.endUnit_inv hv ..), hcode, State.entry_endUnit hv, hsv i j, State.str, State.str, hsv]
  refine ⟨_, hexec, ?_, fun m hm => ?_, ?_, ?_, fun i j hj => ?_, ?_⟩
  · have hvs : v.stream n.val = { s.stream n.val with scan := {}, aus := (w.stream n.val).aus } :=
      hx.trans (congrArg (fun x : Stream => { x with scan := {} }) h1.stream)
    have hserial : v.vid.serial = s.vid.serial := by rw [hvr, ← hvid]
    rw [State.stream_strCode, State.stream_endUnit hv, if_pos rfl, hvs, hserial]
    rfl
  · rw [State.stream_strCode, State.stream_endUnit hv, if_neg hm, hxo m hm, h1.others m hm]
  · exact (he ..).trans ((if_neg (by unfold dkey; omega)).trans (if_pos rfl))
  · exact (he ..).trans (if_pos rfl)
  · simp only [List.mem_cons, List.not_mem_nil, or_false, not_or] at hj
    rw [he, if_neg hj.2, if_neg hj.1]
  · have hw' : w = { s with streams := w.streams } := by
      have := h1.rest
      rwa [hvid, hdict] at this
    rw [hvr, hw']
    rfl

/-- A read that is asked for in a state that the port has brought about, as a chunk's completion does. -/
theorem State.askChunk_next (h : s.Inv) {b : State} (hm : s.PortMoves b) (n : StreamId) {i : Instr} {c : ChunkStage} {addr len : Nat}
    (hk : s.mayFetchChunk n.val = true) (hi : exec i s = .next (b.askChunk n (s.strFn n.val) addr len c)) : ∃ t, exec i s = .next t ∧
      t.stream n.val = { s.stream n.val with chunk := c } ∧ b.StreamsBut t n.val ∧ t = { b with streams := t.streams, out := t.out, hp := t.hp } ∧
      (b.hp.waits = [] → b.hp.flying.length < 512 → b.atsMode (s.strFn n.val) = 0 →
        t.hp = { b.hp with flying := b.hp.flying ++ [{ fn := s.strFn n.val, read := .chunk n }] } ∧
        t.out = b.out ++ [.read (s.strFn n.val) false (BitVec.ofNat 64 addr) len (.chunk n)]) := by
  have hc : b.canIssue (s.strFn n.val) = true := (hm.canIssue h _).trans (State.mayFetchChunk_canIssue hk)
  obtain ⟨hx, ho, hr, hleft⟩ := State.askChunk_asks (hm.inv h) n hc addr len c
  exact ⟨_, hi, hx.trans (by rw [hm.stream]), ho, hr, hleft⟩

/-- A record that waits for room. -/
theorem State.holdRecord_next (h : s.Inv) {b : State} (hm : s.PortMoves b) (n : StreamId) {i : Instr} (r : List Byte)
    (hi : exec i s = .next (b.modStream n.val fun x => { x with chunk := .held r })) : ∃ t, exec i s = .next t ∧
      t.stream n.val = { s.stream n.val with chunk := .held r } ∧ b.StreamsBut t n.val ∧ t = { b with streams := t.streams } := by
  have hx (m : Nat) := State.stream_modStream (hm.inv h) n.val m fun x => { x with chunk := .held r }
  refine ⟨_, hi, ?_, fun m hm => ?_, rfl⟩
  · rw [hx, if_pos rfl, hm.stream]
  · rw [hx, if_neg hm]

/-- A rejected chunk, in terms of the state before its read has landed (R269). -/
theorem State.badChunk_next (h : s.Inv) {b : State} (hm : s.PortMoves b) (n : StreamId) {i : Instr} (code : W16)
    (hi : exec i s = .next (b.badChunk n.val code)) : ∃ t, exec i s = .next t ∧
      t.reg (gzHead n.val) = BitVec.ofNat 64 (((s.reg (gzHead n.val)).toNat + 1) % 2 ^ 32) ∧ s.RegsBut t [gzHead n.val] ∧
      t.stream n.val = { s.stream n.val with chunk := .idle, discont := true } ∧ s.StreamsBut t n.val ∧
      t.str n.val 0x1D = code.toNat ∧ t.str n.val 0x2A = (s.str n.val 0x2A + 1) % 2 ^ 64 ∧
      s.EntriesBut t [dkey (0x2000 + n.val) 0x1D, dkey (0x2000 + n.val) 0x2A] ∧
      t = { s with streams := t.streams, regs := t.regs, dict := t.dict, out := t.out, hp := t.hp } := by
  obtain ⟨hhead, hregs, hx, ho, hcode, hcount, hent, hr⟩ := State.badChunk_leaves n code (hm.inv h)
  refine ⟨_, hi, ?_, fun k hk => ?_, ?_, fun m hmn => ?_, hcode, ?_, fun a j hj => ?_, ?_⟩
  · rw [hhead, hm.reg]
  · rw [hregs k hk, hm.reg]
  · rw [hx, hm.stream]
  · rw [ho m hmn, hm.stream]
  · rw [hcount, hm.str]
  · exact (hent a j hj).trans (hm.read (f := fun u => u.entry a j) fun _ _ _ => rfl)
  · generalize b.badChunk n.val code = t at hr ⊢
    rw [hr, hm.rest]

/-- Settles O25: what a landed read leaves of the state is the port's alone, so that the completion of a record or of bytes is told in terms
of the state before it; the bytes then go to their access units by the cuts of the scan, which ascend. -/
theorem chunksFeedStream : Obligations.ChunksFeedStream := by
  unfold Obligations.ChunksFeedStream
  intro s n h
  refine ⟨fun hx hmay hne => State.askChunk_next h (.refl s) n hmay (chunkFetch_idle hx hmay hne), fun r hx hmay hroom => ?_,
    fun got hf => chunkArrival_unasked got hf, fun got f hf => ?_, fun a ha hc hd => auTimeout_ends h n hd ha hc⟩
  · refine State.askChunk_next h (.refl s) n hmay ((chunkFetch_held hx).trans ?_)
    rw [State.askBytes_asks hmay hroom]
  · have hm := s.landed_moves n got
    refine ⟨hm.rest, fun hl => chunkArrival_dead hf hl, fun hl => ⟨fun r hx hg hgood => ?_, fun code hc => ?_, fun r all hx hg hne => ?_⟩⟩
    · subst hg
      have hexec := (chunkArrival_record hf hl hx).trans (congrArg Host.Outcome.next (if_neg (by rw [hgood]; decide)))
      refine ⟨fun hmay hroom => State.askChunk_next h hm n hmay (hexec.trans ?_), fun hno => State.holdRecord_next h hm n r (hexec.trans ?_)⟩
      · rw [State.askBytes_asks ((hm.mayFetchChunk h _).trans hmay) ((hm.noRoom ..).trans hroom), State.strFn, hm.str]
        rfl
      · rw [State.askBytes_waits (hno.imp ((hm.mayFetchChunk h _).trans ·) ((hm.noRoom ..).trans ·))]
    · refine State.badChunk_next h hm n code ?_
      rcases hc with ⟨hx, rfl, rfl⟩ | ⟨r, hx, rfl, hbad, rfl⟩ | ⟨r, hx, rfl, rfl⟩
      · exact chunkArrival_failed hf hl (.inl hx)
      · exact (chunkArrival_record hf hl hx).trans (congrArg Host.Outcome.next (if_pos hbad))
      · exact chunkArrival_failed hf hl (.inr ⟨r, hx⟩)
    · subst hg
      exact ⟨_, chunkArrival_body hf hl hx, State.takeChunk_leaves h hm n r _ hne⟩

end Sys2Proof.Machine
end

section
/-! PROOF. Entropy engines (R277 to R280): the choice of an access unit. -/

namespace Sys2Proof.Machine

variable {s t : State}

/-! ### The job of an engine -/

theorem State.eeAt_setEe (h : s.Inv) (e f : Nat) (j : Option EeJob) : (s.setEe e j).eeAt f = if f = e then j else s.eeAt f :=
  Tbl.get_set h.vid.ee e f j

/-! ### Writes of entries alone -/

/-- Only entries have moved. -/
def State.EntriesMove (s t : State) : Prop := t = { s with dict := t.dict }

namespace State.EntriesMove

theorem refl (s : State) : s.EntriesMove s := rfl

theorem setEntry (h : s.EntriesMove t) (i j v : Nat) : s.EntriesMove (t.setEntry i j v) := by
  unfold State.EntriesMove
  conv_lhs => rw [h]
  rfl

theorem countEntry (h : s.EntriesMove t) (i j k : Nat) : s.EntriesMove (t.countEntry i j k) := h.setEntry ..

theorem strCode (h : s.EntriesMove t) (n : Nat) (code : W16) : s.EntriesMove (t.strCode n code) := h.setEntry ..

theorem setStrState (h : s.EntriesMove t) (n v : Nat) : s.EntriesMove (t.setStrState n v) := h.setEntry ..

theorem nextRap (h : s.EntriesMove t) (n : Nat) : s.EntriesMove (t.nextRap n) := by
  unfold State.nextRap
  split
  · exact h.setStrState ..
  · exact h

theorem ite {c : Prop} [Decidable c] {u : State} (h : s.EntriesMove t) (h' : s.EntriesMove u) : s.EntriesMove (if c then t else u) := by
  split
  · exact h
  · exact h'

theorem read (h : s.EntriesMove t) {α : Type} {f : State → α} (hf : ∀ u d, f { u with dict := d } = f u) : f t = f s := by
  rw [h]
  exact hf ..

theorem stream (h : s.EntriesMove t) (n : Nat) : t.stream n = s.stream n := h.read (f := fun u => u.stream n) fun _ _ => rfl

theorem reg (h : s.EntriesMove t) (k : Nat) : t.reg k = s.reg k := h.read (f := fun u => u.reg k) fun _ _ => rfl

theorem vid (h : s.EntriesMove t) : t.vid = s.vid := h.read (f := fun u => u.vid) fun _ _ => rfl

end State.EntriesMove

/-! ### Streams that wait for credit -/

/-- The first k streams that could be parsed but for credit count their wait. -/
def State.countWaits (s : State) (ok : Nat → Bool) (k : Nat) : State :=
  (List.range k).foldl (fun s n => if s.parsable n && !ok n then s.countEntry (0x2000 + n) 0x2B 1 else s) s

theorem State.countWaits_succ (s : State) (ok : Nat → Bool) (k : Nat) : s.countWaits ok (k + 1) =
    if (s.countWaits ok k).parsable k && !ok k then (s.countWaits ok k).countEntry (0x2000 + k) 0x2B 1 else s.countWaits ok k := by
  unfold State.countWaits
  rw [List.range_succ, List.foldl_append]
  rfl

theorem State.countWaits_rest (s : State) (ok : Nat → Bool) (k : Nat) : s.EntriesMove (s.countWaits ok k) :=
  foldl_all (P := fun u => s.EntriesMove u) (.refl s) fun _ _ hu => .ite (hu.countEntry ..) hu

theorem State.countWaits_inv (h : s.Inv) (ok : Nat → Bool) (k : Nat) : (s.countWaits ok k).Inv := by
  refine foldl_all (P := State.Inv) h fun u n hu => ?_
  split
  · exact State.countEntry_inv hu ..
  · exact hu

/-- What a stream's wait depends on. -/
theorem State.parsable_congr (hs : t.streams = s.streams) (hv : t.vid = s.vid) {n : Nat} (hd : t.str n 0x02 = s.str n 0x02) :
    t.parsable n = s.parsable n := by
  unfold State.parsable State.decodes State.strState State.stream State.eeAt
  rw [hs, hv, hd]

/-- A stream counts where it could be parsed but for credit, and nothing else moves. -/
theorem State.entry_countWaits (h : s.Inv) (ok : Nat → Bool) {k : Nat} (hk : k ≤ 64) :
    (∀ i j, (∀ m, m < k → dkey i j ≠ dkey (0x2000 + m) 0x2B) → (s.countWaits ok k).entry i j = s.entry i j) ∧
    ∀ m, m < k → (s.countWaits ok k).str m 0x2B = (s.str m 0x2B + if s.parsable m && !ok m then 1 else 0) % 2 ^ 64 := by
  induction k with
  | zero => exact ⟨fun _ _ _ => rfl, fun _ hm => absurd hm (Nat.not_lt_zero _)⟩
  | succ k ih =>
    obtain ⟨hother, hcount⟩ := ih (by omega)
    have hi := State.countWaits_inv h ok k
    have hpar : (s.countWaits ok k).parsable k = s.parsable k :=
      State.parsable_congr ((s.countWaits_rest ok k).read (f := fun u => u.streams) fun _ _ => rfl) (s.countWaits_rest ok k).vid
        (hother _ _ fun m hm => by unfold dkey; omega)
    have hold : (s.countWaits ok k).entry (0x2000 + k) 0x2B = s.entry (0x2000 + k) 0x2B := hother _ _ fun m hm => by unfold dkey; omega
    have hstep (i j : Nat) : (s.countWaits ok (k + 1)).entry i j = if dkey i j = dkey (0x2000 + k) 0x2B then
        (s.entry (0x2000 + k) 0x2B + if s.parsable k && !ok k then 1 else 0) % 2 ^ 64 else (s.countWaits ok k).entry i j := by
      rw [State.countWaits_succ, hpar]
      cases s.parsable k && !ok k with
      | true =>
        rw [if_pos rfl, if_pos rfl, State.entry_countEntry hi, hold]
      | false =>
        simp only [Bool.false_eq_true, if_false, Nat.add_zero]
        split
        · next e =>
          have hlt : s.entry (0x2000 + k) 0x2B < 2 ^ 64 := BitVec.isLt _
          rw [Nat.mod_eq_of_lt hlt, ← hold]
          unfold State.entry
          rw [e]
        · rfl
    refine ⟨fun i j hne => ?_, fun m hm => ?_⟩
    · rw [hstep, if_neg (hne k (by omega))]
      exact hother i j fun m hm => hne m (by omega)
    · by_cases hmk : m = k
      · subst hmk
        exact (hstep ..).trans (if_pos rfl)
      · exact (hstep ..).trans ((if_neg (by unfold dkey; omega)).trans (hcount m (by omega)))

/-! ### The choice -/

/-- The first k streams of the choice of R278. -/
def State.bestOf (s : State) (ok : Nat → Bool) (k : Nat) : Option Nat :=
  (List.range k).foldl (fun (b : Option Nat) n =>
    if s.parsable n && ok n then
      match b with
      | some m => if s.headArrival n < s.headArrival m then some n else b
      | none => some n
    else b) none

/-- The stream whose access unit arrived first, the lower one on a tie. -/
def State.Earliest (s : State) (ok : Nat → Bool) (k : Nat) (n : Nat) : Prop :=
  n < k ∧ s.parsable n = true ∧ ok n = true ∧
    ∀ m, m < k → s.parsable m = true → ok m = true → s.headArrival n < s.headArrival m ∨ s.headArrival n = s.headArrival m ∧ n ≤ m

theorem State.bestOf_spec (s : State) (ok : Nat → Bool) (k : Nat) :
    match s.bestOf ok k with
    | some n => s.Earliest ok k n
    | none => ∀ m, m < k → s.parsable m = true → ok m = false := by
  induction k with
  | zero => exact fun _ hm => absurd hm (Nat.not_lt_zero _)
  | succ k ih =>
    have hstep : s.bestOf ok (k + 1) = if s.parsable k && ok k then
        (match s.bestOf ok k with
        | some m => if s.headArrival k < s.headArrival m then some k else s.bestOf ok k
        | none => some k) else s.bestOf ok k := by
      unfold State.bestOf
      rw [List.range_succ, List.foldl_append]
      rfl
    rw [hstep]
    have hlast {m : Nat} (hm : m < k + 1) : m < k ∨ m = k := by omega
    by_cases hk : (s.parsable k && ok k) = true
    · have hk' := hk
      rw [Bool.and_eq_true] at hk'
      obtain ⟨hp, ho⟩ := hk'
      rw [if_pos hk]
      cases hb : s.bestOf ok k with
      | none =>
        rw [hb] at ih
        refine ⟨by omega, hp, ho, fun m hm hpm hom => ?_⟩
        rcases hlast hm with hm | rfl
        · rw [ih m hm hpm] at hom
          cases hom
        · exact .inr ⟨rfl, Nat.le_refl _⟩
      | some n =>
        rw [hb] at ih
        obtain ⟨hn, hpn, hon, hmin⟩ := ih
        dsimp only
        by_cases hlt : s.headArrival k < s.headArrival n
        · rw [if_pos hlt]
          refine ⟨by omega, hp, ho, fun m hm hpm hom => ?_⟩
          rcases hlast hm with hm | rfl
          · have := hmin m hm hpm hom
            omega
          · exact .inr ⟨rfl, Nat.le_refl _⟩
        · rw [if_neg hlt]
          refine ⟨by omega, hpn, hon, fun m hm hpm hom => ?_⟩
          rcases hlast hm with hm | rfl
          · exact hmin m hm hpm hom
          · omega
    · rw [if_neg hk]
      have hno (m : Nat) (hm : m < k + 1) (hpm : s.parsable m = true) (hom : ok m = true) : m < k := by
        rcases hlast hm with hm | rfl
        · exact hm
        · exact absurd (by rw [hpm, hom]; rfl) hk
      cases hb : s.bestOf ok k with
      | none =>
        rw [hb] at ih
        intro m hm hpm
        by_contra hom
        have hom : ok m = true := by simpa using hom
        exact absurd (ih m (hno m hm hpm hom) hpm) (by rw [hom]; decide)
      | some n =>
        rw [hb] at ih
        obtain ⟨hn, hpn, hon, hmin⟩ := ih
        exact ⟨by omega, hpn, hon, fun m hm hpm hom => hmin m (hno m hm hpm hom) hpm hom⟩

theorem State.bestStream_none {ok : Nat → Bool} (h : ∀ m, m < 64 → s.parsable m = true → ok m = false) : s.bestStream ok = none := by
  change s.bestOf ok 64 = none
  have hs := s.bestOf_spec ok 64
  cases hb : s.bestOf ok 64 with
  | none => rfl
  | some n =>
    rw [hb] at hs
    obtain ⟨hn, hp, ho, -⟩ := hs
    rw [h n hn hp] at ho
    cases ho

theorem State.bestStream_some {ok : Nat → Bool} {n : Nat} (h : s.Earliest ok 64 n) : s.bestStream ok = some n := by
  change s.bestOf ok 64 = some n
  obtain ⟨hn, hp, ho, hmin⟩ := h
  have hs := s.bestOf_spec ok 64
  cases hb : s.bestOf ok 64 with
  | none =>
    rw [hb] at hs
    rw [hs n hn hp] at ho
    cases ho
  | some m =>
    rw [hb] at hs
    obtain ⟨hm, hpm, hom, hmin'⟩ := hs
    have h1 := hmin m hm hpm hom
    have h2 := hmin' n hn hp ho
    exact congrArg some (by omega)

end Sys2Proof.Machine
end

section
/-! PROOF. Entropy engines (R277 to R280): what the engine takes, a picture's start, credit, and the ends of a stall and of a parse. -/

namespace Sys2Proof.Machine

variable {s t : State}

/-! ### ENTROPY_SELECT -/

/-- What the head access unit of a stream holds for Gazelle. -/
def State.headUnit (s : State) (aus : List (StreamId × AuSyntax)) (n : Nat) : AuSyntax :=
  baseUnit (s.str n 0x03) (((aus.find? fun x => x.1.val == n).map (·.2)).getD { sets := [], pics := [], shows := none })

/-- A stream has credit, or a unit that its headers only drop. -/
def State.mayStart (s : State) (aus : List (StreamId × AuSyntax)) (n : Nat) : Bool :=
  decide (0 < (s.stream n).credit) || s.headOnly n (s.headUnit aus n)

/-- The job of an engine that takes the access unit `u`, which holds `a`. -/
def AU.job (u : AU) (n : Nat) (a : AuSyntax) : EeJob :=
  { stream := n, au := u.arrival, coded := if u.big then [] else u.coded, rest := if u.big then [] else a.pics,
    shows := if u.big then none else a.shows, pts := u.pts, derived := false, eos := u.eos, code := u.code, parsing := false, stalled := false }

/-- Engine e has taken the head access unit `u` of stream n, and leaves the units `us`. -/
def State.assign (s : State) (e n : Nat) (u : AU) (us : List AU) (a : AuSyntax) : State :=
  ((s.modStream n fun x => { x with aus := us }).count (gzBase + 0x30 + 8 * e) 1200).setEe e (some (u.job n a))

/-- A unit that outgrew its buffer is dropped (R277). -/
def State.dropUnit (s : State) (n : Nat) (a : AuSyntax) : State :=
  let lost := (s.countEntry (0x2000 + n) 0x24 a.pics.length).strCode n Code.VID_AU_OVF
  if a.pics.any fun p => p.refMark != 0 then lost.nextRap n else lost

section select
variable {e : Fin 4} {aus : List (StreamId × AuSyntax)} (he : s.eeAt e.val = none) (hv : s.vid.power = 0) (hp : s.power < 2)
include he hv hp

theorem entropySelect_guard : ¬(((s.eeAt e.val).isSome || s.vid.power ≠ 0 || 2 ≤ s.power) = true) := by
  rw [he, hv]
  simpa using hp

theorem entropySelect_none (hb : s.bestStream (s.mayStart aus) = none) :
    exec (.entropySelect e aus) s = .next (s.countWaits (s.mayStart aus) 64) := by
  change execEntropySelect e aus s = _
  unfold execEntropySelect
  rw [if_neg (entropySelect_guard he hv hp)]
  extract_lets au ok best w
  rw [show best = none from hb]
  rfl

theorem entropySelect_some {n : Nat} {u : AU} {us : List AU} (hb : s.bestStream (s.mayStart aus) = some n) (hu : (s.stream n).aus = u :: us) :
    let t := (s.countWaits (s.mayStart aus) 64).assign e.val n u us (s.headUnit aus n)
    exec (.entropySelect e aus) s = .next ((if u.big then t.dropUnit n (s.headUnit aus n) else
      (s.headUnit aus n).sets.foldl (fun s p => s.takeSet n p) t).eeRun e.val) := by
  intro t
  change execEntropySelect e aus s = _
  unfold execEntropySelect
  rw [if_neg (entropySelect_guard he hv hp)]
  extract_lets au ok best w
  have hwu : (w.stream n).aus = u :: us := by
    have hw := (s.countWaits_rest (s.mayStart aus) 64).stream n
    exact (congrArg Stream.aus hw).trans hu
  rw [show best = some n from hb]
  dsimp only
  rw [hwu]
  rfl

end select

/-- What an engine that has taken a unit leaves. -/
theorem State.assign_leaves (h : s.Inv) (e n : Nat) (u : AU) (us : List AU) (a : AuSyntax) : let t := s.assign e n u us a
    t.stream n = { s.stream n with aus := us } ∧ s.StreamsBut t n ∧ t.eeAt e = some (u.job n a) ∧ (∀ f, f ≠ e → t.eeAt f = s.eeAt f) ∧
    t.reg (gzBase + 0x30 + 8 * e) = s.reg (gzBase + 0x30 + 8 * e) + 1200 ∧ s.RegsBut t [gzBase + 0x30 + 8 * e] ∧
    t = { s with streams := t.streams, regs := t.regs, vid := { s.vid with ee := t.vid.ee } } := by
  have h1 : (s.modStream n fun x => { x with aus := us }).Inv := State.modStream_inv h ..
  have h2 : ((s.modStream n fun x => { x with aus := us }).count (gzBase + 0x30 + 8 * e) 1200).Inv := State.count_inv h1 ..
  have hx (m : Nat) := State.stream_modStream h n m fun x => { x with aus := us }
  have hr (k : Nat) := State.reg_setReg h1 (gzBase + 0x30 + 8 * e) k (s.reg (gzBase + 0x30 + 8 * e) + BitVec.ofNat 64 1200)
  refine ⟨(hx n).trans (if_pos rfl), fun m hm => (hx m).trans (if_neg hm), ?_, fun f hf => ?_, (hr _).trans (if_pos rfl),
    fun k hk => (hr k).trans (if_neg (by simpa using hk)), rfl⟩
  · rw [State.assign, State.eeAt_setEe h2, if_pos rfl]
  · rw [State.assign, State.eeAt_setEe h2, if_neg hf]
    rfl

/-! ### A picture's start (R277) -/

/-- A stream that has taken the credit for a picture with PTS `pts`. -/
def Stream.charged (x : Stream) (p : PicSyntax) (begins : Bool) (pts : W64) : Stream :=
  { x with
    credit := x.credit - 1, prevPts := some pts,
    began := if begins then some p.name else if p.rap && x.began == some p.name then none else x.began }

/-- Whether decoding begins with a picture (R291). -/
def State.begins (s : State) (n : Nat) (p : PicSyntax) : Bool := p.rap && (s.strState n == 1 || (s.stream n).prevPts.isNone)

/-- The stream and its entries that a picture's start leaves, before the room in the ring is looked at. -/
def State.debit (s : State) (n : Nat) (p : PicSyntax) (q : ParamSet) (pts : W64) : State :=
  let s := s.modStream n fun x => x.charged p (s.begins n p) pts
  let s := if p.rap then s.setStrState n 2 else s
  let s := ((((s.setEntry (0x2000 + n) 0x18 q.outWidth).setEntry (0x2000 + n) 0x19 q.outHeight).setEntry (0x2000 + n) 0x1A q.depth).setEntry
    (0x2000 + n) 0x1B q.profile.toNat).setEntry (0x2000 + n) 0x1C q.level.toNat
  if p.grain then s.countEntry (0x2000 + n) 0x2C 1 else s

theorem State.debit_rest (s : State) (n : Nat) (p : PicSyntax) (q : ParamSet) (pts : W64) :
    (s.modStream n fun x => x.charged p (s.begins n p) pts).EntriesMove (s.debit n p q pts) := by
  have h : (s.modStream n fun x => x.charged p (s.begins n p) pts).EntriesMove
      (if p.rap then (s.modStream n fun x => x.charged p (s.begins n p) pts).setStrState n 2
        else s.modStream n fun x => x.charged p (s.begins n p) pts) := .ite (.setStrState (.refl _) n 2) (.refl _)
  have h' := (((((h.setEntry (0x2000 + n) 0x18 q.outWidth).setEntry (0x2000 + n) 0x19 q.outHeight).setEntry (0x2000 + n) 0x1A q.depth).setEntry
    (0x2000 + n) 0x1B q.profile.toNat).setEntry (0x2000 + n) 0x1C q.level.toNat)
  exact .ite (h'.countEntry ..) h'

theorem State.debit_inv (h : s.Inv) (n : Nat) (p : PicSyntax) (q : ParamSet) (pts : W64) : (s.debit n p q pts).Inv := by
  have h1 : (s.modStream n fun x => x.charged p (s.begins n p) pts).Inv := State.modStream_inv h ..
  have h2 : (if p.rap then (s.modStream n fun x => x.charged p (s.begins n p) pts).setStrState n 2
      else s.modStream n fun x => x.charged p (s.begins n p) pts).Inv := by
    split
    · exact State.setStrState_inv h1 ..
    · exact h1
  have h3 := State.setEntry_inv (State.setEntry_inv (State.setEntry_inv (State.setEntry_inv (State.setEntry_inv h2 (0x2000 + n) 0x18 q.outWidth)
    (0x2000 + n) 0x19 q.outHeight) (0x2000 + n) 0x1A q.depth) (0x2000 + n) 0x1B q.profile.toNat) (0x2000 + n) 0x1C q.level.toNat
  unfold State.debit
  dsimp only
  split
  · exact State.countEntry_inv h3 ..
  · exact h3

theorem State.stream_debit (h : s.Inv) (n m : Nat) (p : PicSyntax) (q : ParamSet) (pts : W64) :
    (s.debit n p q pts).stream m = if m = n then (s.stream n).charged p (s.begins n p) pts else s.stream m := by
  rw [(s.debit_rest n p q pts).stream]
  exact State.stream_modStream h n m fun x => x.charged p (s.begins n p) pts

/-- The picture that the parse of `p` is for, with the PTS and its derivation. -/
def Stream.newJob (x : Stream) (j : EeJob) (p : PicSyntax) (q : ParamSet) (pts : W64 × Bool) : PicJob :=
  { syn := p, ps := q, au := j.au, coded := j.coded,
    sets := (x.reach p.ps).filterMap fun i => (x.sets.find? fun r => r.ident == i).map (·.coded), pts := pts.1, derived := pts.2, status := j.code,
    buf := none, serial := none, started := false, source := none, refBufs := [], taint := false, next := 0, done := [], nextEdge := 0,
    doneEdges := [], bad := [], subst := [], shows := [], eos := false }

/-- The engine that parses a picture; it stalls at once where the ring is full. -/
def EeJob.parse (j : EeJob) (rest : List PicSyntax) (pts : W64 × Bool) (full : Bool) : EeJob :=
  { j with rest := rest, pts := some pts.1, derived := pts.2, parsing := true, stalled := full }

/-- A picture that fits the ring is parsed. -/
theorem State.startPic_fits (h : s.Inv) {e n : Nat} {j : EeJob} {p : PicSyntax} {rest : List PicSyntax} {q : ParamSet} (hf : synSize p q ≤ s.synCap n) :
    s.startPic e n j p rest q = ((s.debit n p q (s.unitPts n j).1).modStream n fun x => { x with
      jobs := x.jobs ++ [(s.stream n).newJob j p q (s.unitPts n j)] }).setEe e
        (some (j.parse rest (s.unitPts n j) (decide (s.synCap n < s.synUsed n + synSize p q)))) := by
  have hx := (State.stream_debit h n n p q (s.unitPts n j).1).trans (if_pos rfl)
  have hcap : (s.debit n p q (s.unitPts n j).1).synCap n = s.synCap n := by
    unfold State.synCap
    rw [hx]
    rfl
  have hused : (s.debit n p q (s.unitPts n j).1).synUsed n = s.synUsed n := by
    unfold State.synUsed
    rw [hx]
    rfl
  rw [← hused, ← hcap]
  rw [← hcap] at hf
  exact if_neg (Nat.not_lt.2 hf)

end Sys2Proof.Machine
end

section
/-! PROOF. O26: entropy engines (R277 to R280). -/

namespace Sys2Proof.Machine

variable {s t : State}

/-! ### A picture's start -/

theorem State.eeNext_parsing {e : Nat} {j : EeJob} (he : s.eeAt e = some j) (hp : j.parsing = true) (fuel : Nat) : s.eeNext e fuel = s := by
  cases fuel with
  | zero => rfl
  | succ fuel =>
    unfold State.eeNext
    rw [he]
    exact if_pos hp

section start
variable {e : Nat} {j : EeJob} {p : PicSyntax} {rest : List PicSyntax} {q : ParamSet} (h : s.Inv) (he : s.eeAt e = some j) (hpar : j.parsing = false)
  (hrest : j.rest = p :: rest) (hd : s.decodes j.stream = true) (hrap : p.rap = false) (hj : s.judge j.stream p = none)
  (hq : (s.stream j.stream).active p.ps = some q) (hc : (s.stream j.stream).credit ≠ 0) (hf : synSize p q ≤ s.synCap j.stream)
include h he hpar hrest hd hrap hj hq hc hf

/-- The engine starts the picture, and goes no further: it parses it. -/
theorem State.eeRun_starts : s.eeRun e = s.startPic e j.stream j p rest q := by
  have hstart : (s.startPic e j.stream j p rest q).eeAt e =
      some (j.parse rest (s.unitPts j.stream j) (decide (s.synCap j.stream < s.synUsed j.stream + synSize p q))) := by
    rw [State.startPic_fits h hf, State.eeAt_setEe (State.modStream_inv (State.debit_inv h ..) ..), if_pos rfl]
  have hrun : s.eeRun e = s.eeNext e (rest.length + 1 + 2) := by
    unfold State.eeRun
    rw [he]
    dsimp only
    rw [hrest]
    rfl
  have hnext : s.eeNext e (rest.length + 1 + 2) = (s.startPic e j.stream j p rest q).eeNext e (rest.length + 1 + 1) := by
    rw [State.eeNext]
    simp only [he, hpar, hrest, hd, hrap, hj, hq, hc, Bool.false_eq_true, if_false, Bool.not_true]
  rw [hrun, hnext, State.eeNext_parsing hstart rfl]

theorem State.eeRun_picture : let x := s.stream j.stream
    let y := (s.eeRun e).stream j.stream
    y.credit = x.credit - 1 ∧ y.jobs.dropLast = x.jobs ∧ (∃ k, y.jobs.getLast? = some k ∧ k.syn = p ∧ k.ps = q ∧ y.prevPts = some k.pts ∧
      k.pts = (match j.pts, x.prevPts with
        | some t, _ => t
        | none, some t => t + BitVec.ofNat 64 (s.str j.stream 0x13)
        | none, none => 0)) ∧ s.StreamsBut (s.eeRun e) j.stream ∧
    (∃ k, (s.eeRun e).eeAt e = some k ∧ k.stream = j.stream ∧ k.rest = rest ∧ k.parsing = true ∧
      k.stalled = decide (s.synCap j.stream < s.synUsed j.stream + synSize p q)) := by
  have hi := State.debit_inv h j.stream p q (s.unitPts j.stream j).1
  have hrun := (State.eeRun_starts h he hpar hrest hd hrap hj hq hc hf).trans (State.startPic_fits h hf)
  have hcharge (m : Nat) := State.stream_debit h j.stream m p q (s.unitPts j.stream j).1
  generalize s.debit j.stream p q (s.unitPts j.stream j).1 = w at hi hrun hcharge
  have hx (m : Nat) : (s.eeRun e).stream m = if m = j.stream then
      { (s.stream j.stream).charged p (s.begins j.stream p) (s.unitPts j.stream j).1 with
        jobs := (s.stream j.stream).jobs ++ [(s.stream j.stream).newJob j p q (s.unitPts j.stream j)] } else s.stream m := by
    rw [hrun]
    refine (State.stream_modStream hi j.stream m fun x => { x with
      jobs := x.jobs ++ [(s.stream j.stream).newJob j p q (s.unitPts j.stream j)] }).trans ?_
    rw [hcharge, if_pos rfl, hcharge]
    split <;> rfl
  have hpts : (s.unitPts j.stream j).1 = (match j.pts, (s.stream j.stream).prevPts with
      | some t, _ => t
      | none, some t => t + BitVec.ofNat 64 (s.str j.stream 0x13)
      | none, none => 0) := by
    unfold State.unitPts
    cases j.pts <;> cases (s.stream j.stream).prevPts <;> rfl
  intro x y
  have hy : y = _ := (hx j.stream).trans (if_pos rfl)
  refine ⟨by rw [hy]; rfl, by rw [hy]; exact List.dropLast_concat, ⟨_, by rw [hy]; exact List.getLast?_concat, rfl, rfl, by rw [hy]; rfl, hpts⟩,
    fun m hm => (hx m).trans (if_neg hm), ?_⟩
  refine ⟨j.parse rest (s.unitPts j.stream j) (decide (s.synCap j.stream < s.synUsed j.stream + synSize p q)), ?_, rfl, rfl, rfl, rfl⟩
  rw [hrun, State.eeAt_setEe (State.modStream_inv hi ..), if_pos rfl]

end start

/-! ### Credit (R277) -/

/-- A stream with a picture credit more. -/
def State.credited (s : State) (n : Nat) : State := s.modStream n fun x => { x with credit := min 4 (x.credit + 1) }

/-- The first engine that parses stream n. -/
def State.engineOf (s : State) (n : Nat) : Option Nat :=
  (List.range 4).find? fun e => match s.eeAt e with | some j => j.stream == n | none => false

theorem State.engineOf_none {n : Nat} (h : ∀ e j, e < 4 → s.eeAt e = some j → j.stream ≠ n) : s.engineOf n = none := by
  refine List.find?_eq_none.2 fun e he => ?_
  cases hj : s.eeAt e with
  | none => exact Bool.false_ne_true
  | some j => simpa using h e j (List.mem_range.1 he) hj

theorem State.engineOf_some {n e : Nat} {j : EeJob} (he : e < 4) (hj : s.eeAt e = some j) (hn : j.stream = n)
    (hfirst : ∀ f k, f < e → s.eeAt f = some k → k.stream ≠ n) : s.engineOf n = some e := by
  refine List.find?_range_eq_some.2 ⟨?_, List.mem_range.2 he, fun f hf => ?_⟩
  · simp [hj, hn]
  · cases hk : s.eeAt f with
    | none => rfl
    | some k => simpa using hfirst f k hf hk

theorem creditTick_eq {n : StreamId} (ho : s.strOpen n.val = true) : exec (.creditTick n) s =
    .next (match s.engineOf n.val with | some e => (s.credited n.val).eeRun e | none => s.credited n.val) := by
  change execCreditTick n s = _
  unfold execCreditTick
  rw [if_neg (by rw [ho]; decide)]
  change (match s.engineOf n.val with
    | some e => go ((s.credited n.val).eeRun e)
    | none => go (s.credited n.val)) = _
  cases s.engineOf n.val <;> rfl

/-! ### The ends of a stall and of a parse (R279, R280) -/

theorem State.reg_countFree (h : s.Inv) {k i : Nat} (hi : i ≠ k) : (s.countFree k).reg i = s.reg i := by
  refine (State.reg_count (s := s.freshWord.2) ?_ k _ i).trans (if_neg hi)
  exact (State.freshWord_keep s (Kept.refl s)).inv h

theorem stallResume_ends (h : s.Inv) {e : Fin 4} {j : EeJob} (he : s.eeAt e.val = some j) (hs : j.stalled = true)
    (hroom : s.synUsed j.stream ≤ s.synCap j.stream) : ∃ t, exec (.syntaxStallResume e) s = .next t ∧
      t.eeAt e.val = some { j with stalled := false } ∧ (∀ f, f ≠ e.val → t.eeAt f = s.eeAt f) ∧
      s.RegsBut t [gzBase + 0x30 + 8 * e.val] ∧ t = { s with regs := t.regs, fresh := t.fresh, vid := { s.vid with ee := t.vid.ee } } := by
  have hi := State.countFree_inv h (gzBase + 0x30 + 8 * e.val)
  refine ⟨(s.countFree (gzBase + 0x30 + 8 * e.val)).setEe e.val (some { j with stalled := false }), ?_, ?_, fun f hf => ?_, fun k hk => ?_, rfl⟩
  · change execSyntaxStallResume e s = _
    unfold execSyntaxStallResume
    rw [he]
    exact if_pos (by rw [hs]; simpa using hroom)
  · rw [State.eeAt_setEe hi, if_pos rfl]
  · rw [State.eeAt_setEe hi, if_neg hf]
    rfl
  · exact State.reg_countFree h (by simpa using hk)

theorem PicJob.raise_eq (p : PicJob) (code : W16) : p.raise code = { p with status := (p.raise code).status } := by
  unfold PicJob.raise
  split <;> rfl

/-- Only the status of a picture has moved. -/
def PicJob.Raised (p q : PicJob) : Prop := q = { p with status := q.status }

theorem PicJob.Raised.refl (p : PicJob) : p.Raised p := rfl

theorem PicJob.Raised.raise {p q : PicJob} (h : p.Raised q) (code : W16) : p.Raised (q.raise code) := by
  unfold PicJob.Raised
  rw [q.raise_eq code, h]

/-- The blocks that a finished parse leaves to conceal: lost ones, and those that no slice covers. -/
def PicJob.toConceal (p : PicJob) : List Nat :=
  p.syn.slices.flatMap (·.lost) ++ (List.range (blocksOf p.ps.width p.ps.height)).filter fun b =>
    !(p.syn.slices.flatMap (·.covered)).contains b && !(p.syn.slices.flatMap (·.lost)).contains b

theorem PicJob.mem_toConceal (p : PicJob) (b : Nat) : b ∈ p.toConceal ↔
    (∃ c ∈ p.syn.slices, b ∈ c.lost) ∨ b < blocksOf p.ps.width p.ps.height ∧ ∀ c ∈ p.syn.slices, b ∉ c.covered := by
  unfold PicJob.toConceal
  simp only [List.mem_append, List.mem_filter, List.mem_range, List.mem_flatMap, List.contains_eq_mem, Bool.and_eq_true, Bool.not_eq_true',
    decide_eq_false_iff_not, not_exists, not_and]
  by_cases hl : ∃ c ∈ p.syn.slices, b ∈ c.lost
  · simp only [hl, true_or]
  · simp only [hl, false_or]
    constructor
    · exact fun hb => ⟨hb.1, hb.2.1⟩
    · exact fun hb => ⟨hb.1, hb.2, fun c hc hbc => hl ⟨c, hc, hbc⟩⟩

/-- What a finished parse raises moves entries, and of the picture its status and the blocks to conceal. -/
theorem State.syntaxErrors_leaves (s : State) (n : Nat) (p : PicJob) : s.EntriesMove (s.syntaxErrors n p).1 ∧
    (s.syntaxErrors n p).2 = { p with status := (s.syntaxErrors n p).2.status, bad := p.toConceal } := by
  unfold State.syntaxErrors
  extract_lets broken lost covered short
  have h1 : s.EntriesMove (if broken = 0 then (s, p)
      else ((s.countEntry (0x2000 + n) 0x27 broken).strCode n Code.VID_SLICE_SYNTAX, p.raise Code.VID_SLICE_SYNTAX)).1 ∧
      p.Raised (if broken = 0 then (s, p)
      else ((s.countEntry (0x2000 + n) 0x27 broken).strCode n Code.VID_SLICE_SYNTAX, p.raise Code.VID_SLICE_SYNTAX)).2 := by
    split
    · exact ⟨.refl s, .refl p⟩
    · exact ⟨(State.EntriesMove.countEntry (.refl s) ..).strCode .., .raise (.refl p) _⟩
  generalize (if broken = 0 then (s, p)
      else ((s.countEntry (0x2000 + n) 0x27 broken).strCode n Code.VID_SLICE_SYNTAX, p.raise Code.VID_SLICE_SYNTAX)) = r at h1
  obtain ⟨u, q⟩ := r
  obtain ⟨hu, hq⟩ := h1
  have h2 : s.EntriesMove (if short.isEmpty || q.status = Code.VID_TIMEOUT then (u, q)
      else (u.strCode n Code.VID_SHORT, q.raise Code.VID_SHORT)).1 ∧ p.Raised (if short.isEmpty || q.status = Code.VID_TIMEOUT then (u, q)
      else (u.strCode n Code.VID_SHORT, q.raise Code.VID_SHORT)).2 := by
    split
    · exact ⟨hu, hq⟩
    · exact ⟨hu.strCode .., hq.raise _⟩
  dsimp only
  generalize (if short.isEmpty || q.status = Code.VID_TIMEOUT then (u, q)
      else (u.strCode n Code.VID_SHORT, q.raise Code.VID_SHORT)) = r at h2
  obtain ⟨v, w⟩ := r
  obtain ⟨hv, hw⟩ := h2
  refine ⟨hv, ?_⟩
  dsimp only at hw ⊢
  rw [hw]
  rfl

/-- The parse of picture `p` by engine e is complete. -/
def State.parsed (s : State) (e : Nat) (j : EeJob) (p : PicJob) : State :=
  ((((s.syntaxErrors j.stream p).1.modStream j.stream fun x => { x with
    jobs := x.jobs.dropLast ++ [{ (s.syntaxErrors j.stream p).2 with serial := some (s.syntaxErrors j.stream p).1.vid.serial }] }).nextSerial.count
      (gzBase + 0x30 + 8 * e) (s.syntaxErrors j.stream p).2.syn.bins).setEe e (some { j with parsing := false }))

theorem State.syntaxDone_eq {e : Nat} {j : EeJob} {p : PicJob} (hp : (s.stream j.stream).jobs.getLast? = some p) :
    s.syntaxDone e j = (s.parsed e j p).eeRun e := by
  unfold State.syntaxDone
  dsimp only
  rw [hp]
  rfl

theorem syntaxComplete_ends (h : s.Inv) {e : Fin 4} {j : EeJob} {p : PicJob} (he : s.eeAt e.val = some j) (hpar : j.parsing = true)
    (hs : j.stalled = false) (hp : (s.stream j.stream).jobs.getLast? = some p) : ∃ (u : State) (p' : PicJob),
      exec (.syntaxComplete e) s = .next (u.eeRun e.val) ∧ u.eeAt e.val = some { j with parsing := false } ∧
      (∀ f, f ≠ e.val → u.eeAt f = s.eeAt f) ∧
      u.stream j.stream = { s.stream j.stream with jobs := (s.stream j.stream).jobs.dropLast ++ [p'] } ∧ s.StreamsBut u j.stream ∧
      p' = { p with serial := some s.vid.serial, bad := p'.bad, status := p'.status } ∧
      (∀ b, b ∈ p'.bad ↔ (∃ c ∈ p.syn.slices, b ∈ c.lost) ∨ b < blocksOf p.ps.width p.ps.height ∧ ∀ c ∈ p.syn.slices, b ∉ c.covered) ∧
      u.vid = { s.vid with ee := u.vid.ee, serial := s.vid.serial + 1 } ∧
      u.reg (gzBase + 0x30 + 8 * e.val) = s.reg (gzBase + 0x30 + 8 * e.val) + BitVec.ofNat 64 p.syn.bins ∧
      s.RegsBut u [gzBase + 0x30 + 8 * e.val] ∧ u = { s with streams := u.streams, regs := u.regs, dict := u.dict, vid := u.vid } := by
  obtain ⟨hm, hq⟩ := s.syntaxErrors_leaves j.stream p
  have hi : (s.syntaxErrors j.stream p).1.Inv := (State.syntaxErrors_keep s j.stream p (Kept.refl s)).inv h
  have hexec : exec (.syntaxComplete e) s = .next ((s.parsed e.val j p).eeRun e.val) := by
    change execSyntaxComplete e s = _
    unfold execSyntaxComplete
    rw [he]
    exact (if_pos (by rw [hpar, hs]; rfl)).trans (congrArg Host.Outcome.next (State.syntaxDone_eq hp))
  unfold State.parsed at hexec
  generalize (s.syntaxErrors j.stream p).1 = w at hm hi hexec
  generalize (s.syntaxErrors j.stream p).2 = q at hq hexec
  have h1 (p' : PicJob) : (w.modStream j.stream fun x => { x with jobs := x.jobs.dropLast ++ [p'] }).Inv := State.modStream_inv hi ..
  have hx (p' : PicJob) (m : Nat) := State.stream_modStream hi j.stream m fun x => { x with jobs := x.jobs.dropLast ++ [p'] }
  have hbins : q.syn.bins = p.syn.bins := by rw [hq]
  rw [hm.vid] at hexec
  refine ⟨_, { q with serial := some s.vid.serial }, hexec, ?_, fun f hf => ?_, ?_, fun m hne => ?_, ?_, fun b => ?_, ?_, ?_, fun k hk => ?_, ?_⟩
  · rw [State.eeAt_setEe (State.count_inv (State.nextSerial_inv (h1 _)) ..), if_pos rfl]
  · rw [State.eeAt_setEe (State.count_inv (State.nextSerial_inv (h1 _)) ..), if_neg hf]
    exact Eq.trans (b := w.eeAt f) rfl (congrArg (fun v : Video => Tbl.get none v.ee f) hm.vid)
  · exact (hx _ _).trans ((if_pos rfl).trans (by rw [hm.stream]))
  · exact (hx _ m).trans ((if_neg hne).trans (hm.stream m))
  · rw [hq]
  · rw [hq]
    exact p.mem_toConceal b
  · rw [← hm.vid]
    rfl
  · rw [hbins]
    exact (State.reg_count (State.nextSerial_inv (h1 _)) ..).trans ((if_pos rfl).trans (congrArg (· + _) (hm.reg _)))
  · exact (State.reg_count (State.nextSerial_inv (h1 _)) ..).trans ((if_neg (by simpa using hk)).trans (hm.reg k))
  · have hw : w = { s with dict := w.dict } := hm
    rw [hw]
    rfl

/-- Settles O26: the choice is a minimum over the streams, kept as the fold of the model goes along; a picture that passes starts and its
engine parses it; credit, a stall and a finished parse each write one record. -/
theorem entropyEngines : Obligations.EntropyEngines := by
  unfold Obligations.EntropyEngines
  refine ⟨fun s e aus h he hv hp => ?_, fun s e j p rest q h he hpar hrest hd hrap hj hq hc hf =>
      State.eeRun_picture h he hpar hrest hd hrap hj hq hc hf, fun s n ho => ⟨fun hno => ?_, fun e j he hj hn hfirst => ?_⟩,
    fun s e j h he => ⟨fun hs hroom => stallResume_ends h he hs hroom, fun p hpar hs hlast => syntaxComplete_ends h he hpar hs hlast⟩⟩
  · obtain ⟨hother, hcount⟩ := State.entry_countWaits h (s.mayStart aus) (Nat.le_refl 64)
    have hrest := s.countWaits_rest (s.mayStart aus) 64
    have hi := State.countWaits_inv h (s.mayStart aus) 64
    refine ⟨s.countWaits (s.mayStart aus) 64, hrest, hcount, fun i j hij => hother i j fun m hm he => hij ?_,
      fun hnone => entropySelect_none he hv hp (State.bestStream_none hnone), fun n u us hn hpar hok hus hmin => ?_⟩
    · exact List.mem_map.2 ⟨m, List.mem_range.2 hm, he.symm⟩
    · have hexec := entropySelect_some he hv hp (State.bestStream_some ⟨hn, hpar, hok, hmin⟩) hus
      obtain ⟨hx, ho, hee, heo, hreg, hrego, hr⟩ := State.assign_leaves hi e.val n u us (s.headUnit aus n)
      refine ⟨(s.countWaits (s.mayStart aus) 64).assign e.val n u us (s.headUnit aus n), ?_, fun m hm => ?_, hee, fun f hf => ?_, ?_,
        fun k hk => ?_, ?_, fun hbig => ?_, fun hbig => ?_⟩
      · rw [hx, hrest.stream]
      · rw [ho m hm, hrest.stream]
      · rw [heo f hf]
        exact congrArg (fun v : Video => Tbl.get none v.ee f) hrest.vid
      · rw [hreg, hrest.reg]
      · rw [hrego k hk, hrest.reg]
      · rw [← hrest.vid]
        exact hr
      · rw [hexec, if_neg (by rw [hbig]; decide)]
        rfl
      · rw [hexec, if_pos hbig]
        rfl
  · rw [creditTick_eq ho, State.engineOf_none hno]
    rfl
  · rw [creditTick_eq ho, State.engineOf_some he hj hn hfirst]
    rfl

end Sys2Proof.Machine
end

section
/-! PROOF. Pixel engines (R280, R281, R288): the units that they take and complete. -/

namespace Sys2Proof.Machine

variable {s t : State}

/-! ### The picture whose parse completed first -/

/-- The place of a picture in the order of completed parses. -/
def syntaxPlace (x : Nat × PicJob) : Nat := x.2.serial.getD 0

theorem foldl_first {a x : Nat × PicJob} (xs : List (Nat × PicJob)) (ha : a ∈ x :: xs)
    (hmin : ∀ y ∈ x :: xs, y ≠ a → syntaxPlace a < syntaxPlace y) :
    xs.foldl (fun a b => if syntaxPlace b < syntaxPlace a then b else a) x = a := by
  induction xs generalizing x with
  | nil => exact (List.mem_singleton.1 ha).symm
  | cons y ys ih =>
    rw [List.foldl_cons]
    refine ih ?_ fun z hz hza => ?_
    · by_cases hxa : x = a
      · subst hxa
        by_cases hya : y = x
        · rw [hya]
          split <;> exact List.mem_cons_self
        · have := hmin y (by simp) hya
          rw [if_neg (by omega)]
          exact List.mem_cons_self
      · have hx := hmin x (by simp) hxa
        rcases List.mem_cons.1 ha with ha | ha
        · exact absurd ha.symm hxa
        · rcases List.mem_cons.1 ha with ha | ha
          · subst ha
            rw [if_pos hx]
            exact List.mem_cons_self
          · exact List.mem_cons_of_mem _ ha
    · rcases List.mem_cons.1 hz with hz | hz
      · refine hmin z ?_ hza
        rw [hz]
        split <;> simp
      · exact hmin z (by simp [hz]) hza

theorem syntaxFirst_eq {a : Nat × PicJob} {l : List (Nat × PicJob)} (ha : a ∈ l) (hmin : ∀ y ∈ l, y ≠ a → syntaxPlace a < syntaxPlace y) :
    syntaxFirst l = some a := by
  cases l with
  | nil => cases ha
  | cons x xs => exact congrArg some (foldl_first xs ha hmin)

/-! ### PIXEL_UNIT_START -/

/-- The oldest picture without a buffer has asked for one. -/
def State.askOldest (s : State) : State :=
  match syntaxFirst (s.workable.filter fun x => x.2.buf.isNone) with
  | some (n, _) => s.askBuf n
  | none => s

/-- The picture that a free pixel engine works on next. -/
def State.nextPicture (s : State) : Option (Nat × PicJob) := syntaxFirst (s.workable.filter fun x => x.2.buf.isSome || (s.freshBuf x.1).isSome)

section unitStart
variable {p : Fin 16} (hp : Tbl.get none s.vid.pe p.val = none) (hv : s.vid.power ≠ 2)
include hp hv

theorem pixelUnitStart_eq : exec (.pixelUnitStart p) s = match s.askOldest.nextPicture with
    | none => go s.askOldest
    | some (n, j) =>
      match j.buf, s.askOldest.freshBuf n with
      | some _, _ => go (s.askOldest.takeUnit p.val n j)
      | none, some b => go ((s.askOldest.beginPic n j b).1.takeUnit p.val n (s.askOldest.beginPic n j b).2)
      | none, none => go s.askOldest := by
  change execPixelUnitStart p s = _
  unfold execPixelUnitStart
  rw [if_neg (by rw [hp]; simpa using hv)]
  rfl

theorem pixelUnitStart_none (hb : s.askOldest.nextPicture = none) : exec (.pixelUnitStart p) s = .next s.askOldest := by
  rw [pixelUnitStart_eq hp hv, hb]

theorem pixelUnitStart_started {n : Nat} {j : PicJob} (hb : s.askOldest.nextPicture = some (n, j)) (hj : j.buf.isSome = true) :
    exec (.pixelUnitStart p) s = .next (s.askOldest.takeUnit p.val n j) := by
  obtain ⟨b, hbuf⟩ := Option.isSome_iff_exists.1 hj
  rw [pixelUnitStart_eq hp hv, hb]
  dsimp only
  rw [hbuf]

theorem pixelUnitStart_begins {n : Nat} {j : PicJob} {b : Nat × Nat} (hb : s.askOldest.nextPicture = some (n, j)) (hj : j.buf = none)
    (hf : s.askOldest.freshBuf n = some b) : exec (.pixelUnitStart p) s =
      .next ((s.askOldest.beginPic n j b).1.takeUnit p.val n (s.askOldest.beginPic n j b).2) := by
  rw [pixelUnitStart_eq hp hv, hb]
  dsimp only
  rw [hj, hf]

end unitStart

theorem PicJob.raise_buf (j : PicJob) (code : W16) : (j.raise code).buf = j.buf := by rw [j.raise_eq]

theorem PicJob.raise_started (j : PicJob) (code : W16) : (j.raise code).started = j.started := by rw [j.raise_eq]

theorem State.beginPic_begins (s : State) (n : Nat) (j : PicJob) (b : Nat × Nat) :
    (s.beginPic n j b).2.buf = some b ∧ (s.beginPic n j b).2.started = true := by
  unfold State.beginPic
  extract_lets x fs held missing tainted source refBufs j'
  split
  · exact ⟨j'.raise_buf _, j'.raise_started _⟩
  · exact ⟨rfl, rfl⟩

/-- The unit or the edge pass of a picture that is next. -/
def PicJob.nextUnit (j : PicJob) : Nat := if j.next < j.units then j.next else j.units + j.nextEdge

/-- The picture once that has been given to an engine. -/
def PicJob.taken (j : PicJob) : PicJob :=
  { j with next := (if j.next < j.units then j.next + 1 else j.next), nextEdge := (if j.next < j.units then j.nextEdge else j.nextEdge + 1) }

theorem State.takeUnit_eq (s : State) (p n : Nat) (j : PicJob) : s.takeUnit p n j =
    { s.modJob n j.serial (fun _ => j.taken) with
      vid := { s.vid with pe := Tbl.set none s.vid.pe p (some ⟨n, j.serial.getD 0, j.nextUnit⟩) } } := by
  unfold State.takeUnit PicJob.taken PicJob.nextUnit
  by_cases h : j.next < j.units
  · simp only [decide_eq_false (Nat.not_le.2 h), h, if_true, Bool.false_eq_true, if_false]
    rfl
  · simp only [decide_eq_true (Nat.not_lt.1 h), h, if_true, if_false]
    rfl

/-- An engine takes the next unit of a picture (R280). -/
theorem State.takeUnit_leaves (h : s.Inv) (p n : Nat) (j : PicJob) : let t := s.takeUnit p n j
    Tbl.get none t.vid.pe p = some ⟨n, j.serial.getD 0, j.nextUnit⟩ ∧ (∀ q, q ≠ p → Tbl.get none t.vid.pe q = Tbl.get none s.vid.pe q) ∧
    s.StreamsBut t n ∧ (t.stream n).jobs = (s.stream n).jobs.map (fun k => if k.serial = j.serial then j.taken else k) ∧
    t = { s with streams := t.streams, vid := { s.vid with pe := t.vid.pe } } := by
  have hx (m : Nat) := State.stream_modStream h n m fun x => { x with jobs := x.jobs.map fun k => if k.serial = j.serial then j.taken else k }
  have hpe (q : Nat) := Tbl.get_set h.vid.pe p q (some ⟨n, j.serial.getD 0, j.nextUnit⟩)
  rw [State.takeUnit_eq]
  exact ⟨(hpe p).trans (if_pos rfl), fun q hq => (hpe q).trans (if_neg hq), fun m hm => (hx m).trans (if_neg hm),
    congrArg Stream.jobs ((hx n).trans (if_pos rfl)), rfl⟩

/-- Where no picture with work lacks a buffer, the engine works on the one whose parse completed first. -/
theorem pixelUnitStart_takes {p : Fin 16} (hp : Tbl.get none s.vid.pe p.val = none) (hv : s.vid.power ≠ 2) {n : Nat} {j : PicJob}
    (hbufs : ∀ x ∈ s.workable, x.2.buf ≠ none) (hj : (n, j) ∈ s.workable)
    (hmin : ∀ y ∈ s.workable, y ≠ (n, j) → j.serial.getD 0 < y.2.serial.getD 0) :
    exec (.pixelUnitStart p) s = .next (s.takeUnit p.val n j) := by
  have hsome (x : Nat × PicJob) (hx : x ∈ s.workable) : x.2.buf.isSome = true := Option.isSome_iff_ne_none.2 (hbufs x hx)
  have hask : s.askOldest = s := by
    have hnone : (s.workable.filter fun x => x.2.buf.isNone) = [] :=
      List.filter_eq_nil_iff.2 fun x hx => by rw [Option.isNone_iff_eq_none]; exact hbufs x hx
    unfold State.askOldest
    rw [hnone]
    rfl
  have hall : (s.workable.filter fun x => x.2.buf.isSome || (s.freshBuf x.1).isSome) = s.workable :=
    List.filter_eq_self.2 fun x hx => by rw [hsome x hx]; rfl
  have hnext : s.nextPicture = some (n, j) := by
    unfold State.nextPicture
    rw [hall]
    exact syntaxFirst_eq hj hmin
  have hexec := pixelUnitStart_started hp hv (n := n) (j := j) (by rw [hask]; exact hnext) (hsome _ hj)
  rwa [hask] at hexec

/-! ### Samples of a unit -/

theorem State.memRead_withVid (s : State) (v : Video) (n : Nat) : ∀ a, (s.withVid v).memRead a n = s.memRead a n := by
  induction n with
  | zero => exact fun _ => rfl
  | succ n ih =>
    intro a
    unfold State.memRead
    rw [ih]
    rfl

/-- The samples of a unit go to memory alone, whatever the engines do. -/
theorem State.writeSamples_beside (s : State) (v : Video) (j : PicJob) (codec unit : Nat) :
    s.Beside v (s.writeSamples j codec unit) ((s.withVid v).writeSamples j codec unit) := by
  unfold State.writeSamples
  cases j.buf with
  | none => exact .refl s v
  | some b =>
    dsimp only
    rw [show (s.withVid v).memRead = s.memRead from funext fun a => funext fun n => s.memRead_withVid v n a]
    exact (State.Beside.refl s v).foldl fun _ _ x hu => hu.memPut ..

theorem State.writeSamples_inv (h : s.Inv) (j : PicJob) (codec unit : Nat) : (s.writeSamples j codec unit).Inv :=
  (State.writeSamples_keep s j codec unit (Kept.refl s)).inv h

/-! ### PIXEL_UNIT_DONE -/

/-- The engines with engine p free. -/
def Video.freePe (v : Video) (p : Nat) : Video := { v with pe := Tbl.set none v.pe p none }

/-- A picture with a unit or an edge pass more, with what it lost. -/
def PicJob.unitDone (j : PicJob) (unit : Nat) (r : UnitResult) : PicJob :=
  let j := if r.memUe.isEmpty then j else j.raise Code.VID_MEM_UE
  { j with done := (if unit < j.units then j.done ++ [unit] else j.done),
           doneEdges := (if unit < j.units then j.doneEdges else j.doneEdges ++ [unit - j.units]),
           bad := j.bad ++ r.memUe, subst := j.subst ++ r.subst }

/-- Engine p has completed what it worked on. -/
def State.unitDone (s : State) (p : Nat) (e : PeJob) (j : PicJob) (r : UnitResult) : State :=
  let w := (((s.withVid (s.vid.freePe p)).writeSamples j (s.str e.stream 0x03) e.unit).count (gzBase + 0x50) r.cycles).count (gzBase + 0x58) r.blocks
  (if r.memUe.isEmpty then w else w.strCode e.stream Code.VID_MEM_UE).modJob e.stream (some e.pic) fun j => j.unitDone e.unit r

section unitDone
variable {p : Fin 16} {r : UnitResult} {e : PeJob} (he : Tbl.get none s.vid.pe p.val = some e)
include he

theorem pixelUnitDone_gone (hj : (s.stream e.stream).jobs.find? (fun j => j.serial == some e.pic) = none) :
    exec (.pixelUnitDone p r) s = .next { s with vid := { s.vid with pe := Tbl.set none s.vid.pe p.val none } } := by
  change execPixelUnitDone p r s = _
  unfold execPixelUnitDone
  rw [he]
  dsimp only
  rw [hj]

variable {j : PicJob} (hj : (s.stream e.stream).jobs.find? (fun j => j.serial == some e.pic) = some j)
include hj

theorem pixelUnitDone_waits (hu : e.unit < j.units) (hrow : j.rowOk e.unit = false) : exec (.pixelUnitDone p r) s = .next s := by
  change execPixelUnitDone p r s = _
  unfold execPixelUnitDone
  rw [he]
  dsimp only
  rw [hj]
  exact if_pos (by rw [hrow, decide_eq_true hu]; rfl)

theorem pixelUnitDone_done (hok : j.units ≤ e.unit ∨ j.rowOk e.unit = true) :
    exec (.pixelUnitDone p r) s = .next ((s.unitDone p.val e j r).settle e.stream) := by
  have hguard : ¬((decide (e.unit < j.units) && !j.rowOk e.unit) = true) := by
    rcases hok with hok | hok
    · rw [decide_eq_false (Nat.not_lt.2 hok), Bool.false_and]
      decide
    · rw [hok, Bool.not_true, Bool.and_false]
      decide
  change execPixelUnitDone p r s = _
  unfold execPixelUnitDone
  rw [he]
  dsimp only
  rw [hj]
  refine (if_neg hguard).trans ?_
  unfold State.unitDone PicJob.unitDone
  cases r.memUe.isEmpty <;> rfl

end unitDone

/-- What a completed unit leaves (R281, R291). -/
theorem State.unitDone_leaves (h : s.Inv) (p : Nat) (e : PeJob) (j : PicJob) (r : UnitResult) : let u := s.unitDone p e j r
    Tbl.get none u.vid.pe p = none ∧ (∀ q, q ≠ p → Tbl.get none u.vid.pe q = Tbl.get none s.vid.pe q) ∧
    u.reg (gzBase + 0x50) = s.reg (gzBase + 0x50) + BitVec.ofNat 64 r.cycles ∧
    u.reg (gzBase + 0x58) = s.reg (gzBase + 0x58) + BitVec.ofNat 64 r.blocks ∧ s.StreamsBut u e.stream ∧
    u.mem = (s.writeSamples j (s.str e.stream 0x03) e.unit).mem ∧
    (u.stream e.stream).jobs = (s.stream e.stream).jobs.map fun k => if k.serial = some e.pic then k.unitDone e.unit r else k := by
  have hb := s.writeSamples_beside (s.vid.freePe p) j (s.str e.stream 0x03) e.unit
  have hs : (s.withVid (s.vid.freePe p)).Inv := { h with vid := Video.ok_mk h.vid.ee (Tbl.ok_set h.vid.pe) h.vid.pre }
  have hi := State.writeSamples_inv hs j (s.str e.stream 0x03) e.unit
  have hd : ((s.withVid (s.vid.freePe p)).writeSamples j (s.str e.stream 0x03) e.unit).decoding = (s.withVid (s.vid.freePe p)).decoding :=
    State.decoding_of_aside ((s.withVid (s.vid.freePe p)).writeSamples_beside (s.vid.freePe p) j (s.str e.stream 0x03) e.unit).rest
  have hmem : ((s.withVid (s.vid.freePe p)).writeSamples j (s.str e.stream 0x03) e.unit).mem =
      (s.writeSamples j (s.str e.stream 0x03) e.unit).mem := by rw [hb.eq]; rfl
  unfold State.unitDone
  dsimp only
  generalize (s.withVid (s.vid.freePe p)).writeSamples j (s.str e.stream 0x03) e.unit = w at hi hd hmem
  have hi1 := State.count_inv hi (gzBase + 0x50) r.cycles
  have hi2 := State.count_inv hi1 (gzBase + 0x58) r.blocks
  have hreg {k : Nat} (hk : k < memBase) : w.reg k = s.reg k := State.decoding_reg hs hi hd hk
  have h50 : ((w.count (gzBase + 0x50) r.cycles).count (gzBase + 0x58) r.blocks).reg (gzBase + 0x50) =
      s.reg (gzBase + 0x50) + BitVec.ofNat 64 r.cycles := by
    rw [State.reg_count hi1, if_neg (by decide), State.reg_count hi, if_pos rfl, hreg (by decide)]
  have h58 : ((w.count (gzBase + 0x50) r.cycles).count (gzBase + 0x58) r.blocks).reg (gzBase + 0x58) =
      s.reg (gzBase + 0x58) + BitVec.ofNat 64 r.blocks := by
    rw [State.reg_count hi1, if_pos rfl, State.reg_count hi, if_neg (by decide), hreg (by decide)]
  have hstream (m : Nat) : ((w.count (gzBase + 0x50) r.cycles).count (gzBase + 0x58) r.blocks).stream m = s.stream m := State.decoding_stream hd m
  have hvid : ((w.count (gzBase + 0x50) r.cycles).count (gzBase + 0x58) r.blocks).vid = s.vid.freePe p := State.decoding_vid hd
  have hmem' : ((w.count (gzBase + 0x50) r.cycles).count (gzBase + 0x58) r.blocks).mem = w.mem := rfl
  generalize (w.count (gzBase + 0x50) r.cycles).count (gzBase + 0x58) r.blocks = x at hi2 h50 h58 hstream hvid hmem'
  have hx : x.EntriesMove (if r.memUe.isEmpty then x else x.strCode e.stream Code.VID_MEM_UE) := .ite (.refl x) (.strCode (.refl x) ..)
  have hxi : (if r.memUe.isEmpty then x else x.strCode e.stream Code.VID_MEM_UE).Inv := by
    split
    · exact hi2
    · exact State.setEntry_inv hi2 ..
  generalize (if r.memUe.isEmpty then x else x.strCode e.stream Code.VID_MEM_UE) = y at hx hxi
  have hm (m : Nat) := State.stream_modStream hxi e.stream m fun x => { x with
    jobs := x.jobs.map fun k => if k.serial = some e.pic then k.unitDone e.unit r else k }
  have hpe (q : Nat) : Tbl.get none y.vid.pe q = if q = p then none else Tbl.get none s.vid.pe q := by
    rw [hx.vid, hvid]
    exact Tbl.get_set h.vid.pe p q none
  refine ⟨(hpe p).trans (if_pos rfl), fun q hq => (hpe q).trans (if_neg hq), (hx.reg _).trans h50, (hx.reg _).trans h58, fun m hne => ?_, ?_, ?_⟩
  · exact (hm m).trans ((if_neg hne).trans ((hx.stream m).trans (hstream m)))
  · exact (hx.read (f := fun u => u.mem) fun _ _ => rfl).trans (hmem'.trans hmem)
  · refine (congrArg Stream.jobs ((hm e.stream).trans (if_pos rfl))).trans ?_
    rw [hx.stream, hstream]

/-! ### Pictures that become ready -/

theorem State.settle_waits {n : Nat} (h : ∀ j js, (s.stream n).jobs = j :: js → j.complete = false) : s.settle n = s := by
  unfold State.settle State.readyLoop
  cases hj : (s.stream n).jobs with
  | nil => rfl
  | cons j js =>
    dsimp only
    rw [h j js hj]
    exact if_neg (by decide)

theorem State.settle_ready {n : Nat} {j : PicJob} {js : List PicJob} {b : Nat × Nat} (hj : (s.stream n).jobs = j :: js) (hc : j.complete = true)
    (hb : j.buf = some b) : s.settle n = (s.makeReady n j b.1 b.2).readyLoop n (js.length + 1) := by
  unfold State.settle
  rw [hj, List.length_cons, State.readyLoop]
  simp only [hj, hc, hb, if_true]

end Sys2Proof.Machine
end

section
/-! PROOF. What output and delivery leave of the pictures in decoding (R284 to R286): their list, the engines, and the stream's entries but
the count of skipped pictures (0x29). -/

namespace Sys2Proof.Machine

variable {s t u : State} {n : Nat}

/-! ### The serials of the pictures in decoding -/

/-- The places of a stream's pictures in the order of completed parses. -/
def Stream.serials (x : Stream) : List (Option Nat) := x.jobs.map (·.serial)

theorem Stream.serials_map (x : Stream) {f : PicJob → PicJob} (hf : ∀ k, (f k).serial = k.serial) :
    (x.jobs.map f).map (·.serial) = x.serials := by
  rw [List.map_map]
  exact List.map_congr_left fun k _ => hf k

/-- The pictures in decoding and the engines stand. -/
structure State.KeepsJobs (s t : State) : Prop where
  inv : t.Inv
  serials : ∀ m, (t.stream m).serials = (s.stream m).serials
  vid : t.vid = s.vid

namespace State.KeepsJobs

theorem refl (h : s.Inv) : s.KeepsJobs s := ⟨h, fun _ => rfl, rfl⟩

theorem trans (h : s.KeepsJobs t) (h' : t.KeepsJobs u) : s.KeepsJobs u :=
  ⟨h'.inv, fun m => (h'.serials m).trans (h.serials m), h'.vid.trans h.vid⟩

theorem modStream (h : s.Inv) (n : Nat) {f : Stream → Stream} (hf : (f (s.stream n)).serials = (s.stream n).serials) : s.KeepsJobs (s.modStream n f) := by
  refine ⟨State.modStream_inv h .., fun m => ?_, rfl⟩
  rw [State.stream_modStream h]
  split
  · next e =>
    rw [e]
    exact hf
  · rfl

theorem of_entries (hm : s.EntriesMove t) (hi : t.Inv) : s.KeepsJobs t := ⟨hi, fun m => by rw [hm.stream], hm.vid⟩

theorem of_decoding (hi : t.Inv) (hd : t.decoding = s.decoding) : s.KeepsJobs t :=
  ⟨hi, fun m => by rw [State.decoding_stream hd], State.decoding_vid hd⟩

end State.KeepsJobs

/-- And so do the streams' entries but the count of skipped pictures. -/
structure State.Shows (s t : State) : Prop extends s.KeepsJobs t where
  str : ∀ m j, m < 64 → j < 256 → j ≠ 0x29 → t.str m j = s.str m j

namespace State.Shows

theorem refl (h : s.Inv) : s.Shows s := ⟨.refl h, fun _ _ _ _ _ => rfl⟩

theorem trans (h : s.Shows t) (h' : t.Shows u) : s.Shows u :=
  ⟨h.toKeepsJobs.trans h'.toKeepsJobs, fun m j hm hj hne => (h'.str m j hm hj hne).trans (h.str m j hm hj hne)⟩

theorem modStream (h : s.Inv) (n : Nat) {f : Stream → Stream} (hf : (f (s.stream n)).serials = (s.stream n).serials) : s.Shows (s.modStream n f) :=
  ⟨.modStream h n hf, fun _ _ _ _ _ => rfl⟩

theorem of_decoding (h : s.Inv) (hi : t.Inv) (hd : t.decoding = s.decoding) : s.Shows t :=
  ⟨.of_decoding hi hd, fun _ _ hm hj _ => State.decoding_str h hi hd hm hj⟩

theorem countSkipped (h : s.Inv) (n k : Nat) : s.Shows (s.countEntry (0x2000 + n) 0x29 k) := by
  refine ⟨.of_entries (.countEntry (.refl s) ..) (State.countEntry_inv h ..), fun m j hm hj hne => ?_⟩
  exact (State.entry_countEntry h ..).trans (if_neg (by unfold dkey; omega))

theorem sweepFrames (h : s.Inv) (n : Nat) : s.Shows (s.sweepFrames n) := by
  have h1 : s.Shows (s.modStream n Stream.swept) := .modStream h n rfl
  exact h1.trans (.of_decoding h1.inv (State.sweepFrames_inv h n) (State.decoding_sweepFrames s n))

theorem freeBuf (h : s.Inv) (n k : Nat) : s.Shows (s.freeBuf n k) :=
  .of_decoding h ((State.freeBuf_keep s n k (Kept.refl s)).inv h) (State.decoding_freeBuf s n k)

theorem ite {c : Prop} [Decidable c] (h : s.Shows t) (h' : s.Shows u) : s.Shows (if c then t else u) := by
  split
  · exact h
  · exact h'

theorem foldl {α : Type} {f : State → α → State} (hf : ∀ (u : State) (x : α), u.Inv → u.Shows (f u x)) (l : List α) (h : s.Inv) :
    s.Shows (l.foldl f s) := foldl_all (P := fun u => s.Shows u) (.refl h) fun u x hu => hu.trans (hf u x hu.inv)

/-! ### Delivery -/

theorem skipOldest (h : s.Inv) (n : Nat) : s.Shows (s.skipOldest n) := by
  unfold State.skipOldest
  dsimp only
  split
  · exact refl h
  · next i rest _ =>
    refine ite (refl h) ?_
    have h1 := modStream h n (f := fun x => { x with
      queue := rest, frames := x.frames.map fun f => if f.pic.decodeIdx = i ∧ f.output then { f with output := false, held := false } else f }) rfl
    exact (h1.trans (countSkipped h1.inv n 1)).trans (sweepFrames (countSkipped h1.inv n 1).inv n)

theorem pictureCalls (h : s.Inv) (n : Nat) (pts : W64) : s.Shows (s.pictureCalls n pts) := by
  unfold State.pictureCalls
  exact ite (refl h) (ite (modStream h n rfl) (refl h))

theorem deliver (h : s.Inv) (n : Nat) (p : PicRec) : s.Shows (s.deliver n p) := by
  have h1 := skipOldest h n
  have h2 := h1.trans (modStream h1.inv n (f := fun x => { x with
    queue := x.queue ++ [p.decodeIdx],
    frames := x.frames.map fun f => if f.pic.decodeIdx = p.decodeIdx ∧ f.output then { f with reorder := false } else f }) rfl)
  exact h2.trans (pictureCalls h2.inv n p.pts)

theorem bump (h : s.Inv) (n reorder latency : Nat) (all : Bool) (fuel : Nat) : s.Shows (s.bump n reorder latency all fuel) := by
  induction fuel generalizing s with
  | zero => exact refl h
  | succ fuel ih =>
    unfold State.bump
    refine ite ?_ (refl h)
    split
    · exact refl h
    · next f _ => exact (deliver h n f.pic).trans (ih (deliver h n f.pic).inv)

theorem flushOut (h : s.Inv) (n : Nat) : s.Shows (s.flushOut n) := bump h ..

theorem showExisting (h : s.Inv) (n name : Nat) (pts : W64) (derived : Bool) : s.Shows (s.showExisting n name pts derived) := by
  unfold State.showExisting
  split
  · exact refl h
  · next f _ =>
    extract_lets w src pic v
    have h1 : s.Shows w := by
      refine ite ?_ (refl h)
      have := modStream h n (f := fun x => { x with frames := refreshed name x.frames }) rfl
      exact this.trans (sweepFrames this.inv n)
    have h2 : s.Shows v := h1.trans (modStream h1.inv n rfl)
    exact ite (h1.trans (countSkipped h1.inv n 1)) (h2.trans (deliver h2.inv n pic))

/-- What is shown after a picture, and the end of the stream. -/
theorem showAfter (h : s.Inv) (n : Nat) (shows : List (Nat × W64 × Bool)) (eos : Bool) :
    let t := shows.foldl (fun (s : State) f => s.showExisting n f.1 f.2.1 f.2.2) s
    s.Shows (if eos then t.flushOut n else t) := by
  intro t
  have h1 : s.Shows t := foldl (fun u f hu => showExisting hu n f.1 f.2.1 f.2.2) shows h
  exact ite (h1.trans (flushOut h1.inv n)) h1

/-- What follows a dropped picture goes to the picture before it, or acts at once. -/
theorem handOn (h : s.Inv) (n : Nat) (j : PicJob) : s.Shows (s.handOn n j) := by
  unfold State.handOn
  split
  · refine modStream h n (Stream.serials_map _ fun k => ?_)
    split <;> rfl
  · exact showAfter h n j.shows j.eos

end State.Shows

end Sys2Proof.Machine
end

section
/-! PROOF. A picture in decoding is dropped (R291): what its removal leaves, and that no later step brings it or its engine's work back. -/

namespace Sys2Proof.Machine

variable {s t u : State}

/-! ### Single steps that keep the pictures in decoding -/

namespace State.KeepsJobs

theorem countFree (h : s.Inv) (k : Nat) : s.KeepsJobs (s.countFree k) := ⟨State.countFree_inv h k, fun _ => rfl, rfl⟩

theorem countEntry (h : s.Inv) (i j k : Nat) : s.KeepsJobs (s.countEntry i j k) := of_entries (.countEntry (.refl s) ..) (State.countEntry_inv h ..)

theorem strCode (h : s.Inv) (n : Nat) (code : W16) : s.KeepsJobs (s.strCode n code) := of_entries (.strCode (.refl s) ..) (State.setEntry_inv h ..)

theorem setStrState (h : s.Inv) (n v : Nat) : s.KeepsJobs (s.setStrState n v) := of_entries (.setStrState (.refl s) ..) (State.setStrState_inv h ..)

theorem nextRap (h : s.Inv) (n : Nat) : s.KeepsJobs (s.nextRap n) :=
  of_entries (.nextRap (.refl s) n) ((State.nextRap_keep s n (Kept.refl s)).inv h)

theorem ite {c : Prop} [Decidable c] (h : s.KeepsJobs t) (h' : s.KeepsJobs u) : s.KeepsJobs (if c then t else u) := by
  split
  · exact h
  · exact h'

theorem dropPic (h : s.Inv) (n : Nat) (code : W16) (lost : Bool) : s.KeepsJobs (s.dropPic n code lost) := by
  have h1 := countEntry h (0x2000 + n) 0x24 1
  have h2 := h1.trans (strCode h1.inv n code)
  exact ite (h2.trans (nextRap h2.inv n)) h2

theorem foldl {α : Type} {f : State → α → State} (hf : ∀ (u : State) (x : α), u.Inv → u.KeepsJobs (f u x)) (l : List α) (h : s.Inv) :
    s.KeepsJobs (l.foldl f s) := foldl_all (P := fun u => s.KeepsJobs u) (refl h) fun u x hu => hu.trans (hf u x hu.inv)

end State.KeepsJobs

/-! ### The engines of a picture -/

/-- Engine e is free if it works on the picture of stream n with that serial. -/
def dropEngine (n : Nat) (serial : Option Nat) (t : Tbl (Option PeJob)) (e : Nat) : Tbl (Option PeJob) :=
  match Tbl.get none t e with
  | some k => if k.stream = n ∧ serial = some k.pic then Tbl.set none t e none else t
  | none => t

/-- The pixel engines without their work on that picture. -/
def dropEngines (n : Nat) (serial : Option Nat) (t : Tbl (Option PeJob)) : Tbl (Option PeJob) := (List.range 16).foldl (dropEngine n serial) t

/-- The engines without it. -/
def Video.dropPe (v : Video) (n : Nat) (serial : Option Nat) : Video := { v with pe := dropEngines n serial v.pe }

theorem Video.dropPe_pe (v : Video) (n : Nat) (serial : Option Nat) : (v.dropPe n serial).pe = dropEngines n serial v.pe := by
  simp only [Video.dropPe]

theorem Video.dropPe_ee (v : Video) (n : Nat) (serial : Option Nat) : (v.dropPe n serial).ee = v.ee := by
  simp only [Video.dropPe]

theorem dropEngine_ok {n : Nat} {serial : Option Nat} {w : Tbl (Option PeJob)} (h : Tbl.ok none w) (e : Nat) : Tbl.ok none (dropEngine n serial w e) := by
  unfold dropEngine
  split
  · exact Tbl.ok_ite (Tbl.ok_set h) h
  · exact h

theorem get_dropEngine_free {n : Nat} {serial : Option Nat} {w : Tbl (Option PeJob)} (h : Tbl.ok none w) {p : Nat} (hp : Tbl.get none w p = none)
    (e : Nat) : Tbl.get none (dropEngine n serial w e) p = none := by
  unfold dropEngine
  split
  · split
    · rw [Tbl.get_set h]
      split
      · rfl
      · exact hp
    · exact hp
  · exact hp

/-- A free engine stays free, and one that works on the picture is freed. -/
theorem get_foldl_dropEngine {n p : Nat} {serial : Option Nat} {k : PeJob} (hk : k.stream = n ∧ serial = some k.pic) (l : List Nat) :
    ∀ {w : Tbl (Option PeJob)}, Tbl.ok none w → Tbl.get none w p = none ∨ Tbl.get none w p = some k ∧ p ∈ l →
      Tbl.get none (l.foldl (dropEngine n serial) w) p = none := by
  induction l with
  | nil =>
    intro w hw hp
    rcases hp with hp | ⟨-, hp⟩
    · exact hp
    · cases hp
  | cons e l ih =>
    intro w hw hp
    rw [List.foldl_cons]
    refine ih (dropEngine_ok hw e) ?_
    rcases hp with hp | ⟨hp, hmem⟩
    · exact .inl (get_dropEngine_free hw hp e)
    · by_cases he : p = e
      · subst he
        have hset : dropEngine n serial w p = Tbl.set none w p none := by
          unfold dropEngine
          rw [hp]
          exact if_pos hk
        exact .inl (by rw [hset, Tbl.get_set hw, if_pos rfl])
      · refine .inr ⟨?_, (List.mem_cons.1 hmem).resolve_left he⟩
        unfold dropEngine
        split
        · split
          · rw [Tbl.get_set hw, if_neg he]
            exact hp
          · exact hp
        · exact hp

theorem get_dropEngines_free {n : Nat} {serial : Option Nat} {w : Tbl (Option PeJob)} (hok : Tbl.ok none w) {p : Nat} (hp : Tbl.get none w p = none) :
    Tbl.get none (dropEngines n serial w) p = none := by
  unfold dropEngines
  generalize List.range 16 = l
  induction l generalizing w with
  | nil => exact hp
  | cons e l ih => exact ih (dropEngine_ok hok e) (get_dropEngine_free hok hp e)

theorem get_dropEngines_own {n : Nat} {serial : Option Nat} {w : Tbl (Option PeJob)} (hok : Tbl.ok none w) {p : Fin 16} {k : PeJob}
    (hp : Tbl.get none w p.val = some k) (hk : k.stream = n ∧ serial = some k.pic) : Tbl.get none (dropEngines n serial w) p.val = none := by
  unfold dropEngines
  exact get_foldl_dropEngine hk _ hok (.inr ⟨hp, List.mem_range.2 p.isLt⟩)

theorem Video.dropPe_ok {v : Video} (h : v.ok) (n : Nat) (serial : Option Nat) : (v.dropPe n serial).ok :=
  Video.ok_mk h.ee (Tbl.ok_foldl h.pe fun _ e hw => dropEngine_ok hw e) h.pre

theorem State.withVid_inv {v : Video} (h : s.Inv) (hv : v.ok) : (s.withVid v).Inv := { h with vid := hv }

/-! ### The removal -/

/-- The list of pictures in decoding without one. -/
def Stream.without (serial : Option Nat) (x : Stream) : Stream := { x with jobs := x.jobs.filter fun k => k.serial != serial }

theorem Stream.serials_without (serial : Option Nat) (x : Stream) : (x.without serial).serials = x.serials.filter (· != serial) := by
  unfold Stream.serials Stream.without
  rw [List.filter_map]
  rfl

/-- The buffer of a picture returns. -/
def State.returnBuf (s : State) (b : Option (Nat × Nat)) : State := match b with | some b => s.freeBuf b.1 b.2 | none => s

theorem State.removeJob_eq (h : s.Inv) (n : Nat) (j : PicJob) (code : W16) : ∃ u : State, s.Shows u ∧
    s.removeJob n j code =
      ((((u.withVid (s.vid.dropPe n j.serial)).handOn n j).modStream n (Stream.without j.serial)).returnBuf j.buf).dropPic n code false := by
  unfold State.removeJob
  extract_lets drop s1
  have h1 : s.Shows s1 := .foldl (fun u e hu => .ite ⟨.countFree hu _, fun _ _ _ _ _ => rfl⟩ (.refl hu)) _ h
  have hv : s1.vid = s.vid := h1.vid
  refine ⟨s1, h1, ?_⟩
  rw [← hv]
  clear_value s1
  rfl

/-- What the removal of a picture leaves. -/
structure State.Removed (s t : State) (n : Nat) (serial : Option Nat) (code : W16) : Prop where
  inv : t.Inv
  vid : t.vid = s.vid.dropPe n serial
  serials : (t.stream n).serials = (s.stream n).serials.filter (· != serial)
  count : n < 64 → t.str n 0x24 = (s.str n 0x24 + 1) % 2 ^ 64
  code : t.str n 0x1D = code.toNat

theorem State.Removed.eeAt {n : Nat} {serial : Option Nat} {code : W16} (h : s.Removed t n serial code) (f : Nat) : t.eeAt f = s.eeAt f := by
  unfold State.eeAt
  rw [h.vid, Video.dropPe_ee]

theorem State.removeJob_removed (h : s.Inv) (n : Nat) (j : PicJob) (code : W16) : s.Removed (s.removeJob n j code) n j.serial code := by
  obtain ⟨u, hu, he⟩ := State.removeJob_eq h n j code
  rw [he]
  have hw : (u.withVid (s.vid.dropPe n j.serial)).Inv := State.withVid_inv hu.inv (Video.dropPe_ok h.vid ..)
  have h1 := State.Shows.handOn hw n j
  generalize (u.withVid (s.vid.dropPe n j.serial)).handOn n j = v at h1
  have hx := (State.stream_modStream h1.inv n n (Stream.without j.serial)).trans (if_pos rfl)
  have h2 : (v.modStream n (Stream.without j.serial)).Inv := State.modStream_inv h1.inv ..
  have h3 : (v.modStream n (Stream.without j.serial)).Shows ((v.modStream n (Stream.without j.serial)).returnBuf j.buf) := by
    unfold State.returnBuf
    split
    · exact .freeBuf h2 ..
    · exact .refl h2
  have hstr {i : Nat} (hn : n < 64) (hi : i < 256) (hne : i ≠ 0x29) : ((v.modStream n (Stream.without j.serial)).returnBuf j.buf).str n i = s.str n i :=
    (h3.str n i hn hi hne).trans ((h1.str n i hn hi hne).trans (hu.str n i hn hi hne))
  have hserials : (((v.modStream n (Stream.without j.serial)).returnBuf j.buf).stream n).serials = (s.stream n).serials.filter (· != j.serial) := by
    rw [h3.serials, hx, Stream.serials_without, h1.serials]
    exact congrArg _ (hu.serials n)
  have hvid : ((v.modStream n (Stream.without j.serial)).returnBuf j.buf).vid = s.vid.dropPe n j.serial := h3.vid.trans h1.vid
  have h3i := h3.inv
  generalize (v.modStream n (Stream.without j.serial)).returnBuf j.buf = w at hstr hserials hvid h3i
  have h4 := State.KeepsJobs.dropPic h3i n code false
  have h5 : (w.countEntry (0x2000 + n) 0x24 1).Inv := State.countEntry_inv h3i ..
  have hcode : code.toNat % 2 ^ 64 = code.toNat := Nat.mod_eq_of_lt (by have := code.isLt; omega)
  have hentry (i : Nat) : (w.dropPic n code false).str n i = if dkey (0x2000 + n) i = dkey (0x2000 + n) 0x1D then code.toNat
      else (w.countEntry (0x2000 + n) 0x24 1).str n i := by
    refine (State.entry_setEntry h5 ..).trans ?_
    rw [hcode]
    rfl
  refine ⟨h4.inv, h4.vid.trans hvid, (h4.serials n).trans hserials, fun hn => ?_, (hentry _).trans (if_pos rfl)⟩
  rw [hentry, if_neg (by unfold dkey; omega)]
  refine (State.entry_countEntry h3i ..).trans ((if_pos rfl).trans ?_)
  exact congrArg (fun x => (x + 1) % 2 ^ 64) (hstr hn (by decide) (by decide))

end Sys2Proof.Machine
end

section
/-! PROOF. Once a picture has been dropped, neither the parse that goes on nor the pictures that become ready bring it back, or give its
engine work (R270, R277, R284 to R294). -/

namespace Sys2Proof.Machine

variable {s t u : State} {p n pic : Nat}

/-- The last picture in decoding changed, but for its serial. -/
theorem serials_replaceLast {js : List PicJob} {j j' : PicJob} (hj : js.getLast? = some j) (he : j'.serial = j.serial) :
    (js.dropLast ++ [j']).map (fun k : PicJob => k.serial) = js.map (fun k : PicJob => k.serial) := by
  conv_rhs => rw [← List.dropLast_append_getLast? j hj]
  rw [List.map_append, List.map_append, List.map_singleton, List.map_singleton, he]

/-- Pixel engine p is free, and the picture of stream n with that serial is not in decoding. -/
structure State.Gone (s : State) (p n pic : Nat) : Prop where
  inv : s.Inv
  free : Tbl.get none s.vid.pe p = none
  gone : some pic ∉ (s.stream n).serials

namespace State.Gone

theorem keeps (h : s.Gone p n pic) (hk : s.KeepsJobs t) : t.Gone p n pic := by
  refine ⟨hk.inv, ?_, ?_⟩
  · rw [hk.vid]
    exact h.free
  · rw [hk.serials]
    exact h.gone

/-- Pictures that come in have no serial yet. -/
theorem modStream (h : s.Gone p n pic) (m : Nat) {f : Stream → Stream} (hf : ∀ x, ∀ y ∈ (f x).serials, y ∈ x.serials ∨ y = none) :
    (s.modStream m f).Gone p n pic := by
  refine ⟨State.modStream_inv h.inv .., h.free, fun hmem => ?_⟩
  rw [State.stream_modStream h.inv] at hmem
  split at hmem
  · next e =>
    rcases hf _ _ hmem with hy | hy
    · exact h.gone (e ▸ hy)
    · cases hy
  · exact h.gone hmem

theorem setEe (h : s.Gone p n pic) (e : Nat) (j : Option EeJob) : (s.setEe e j).Gone p n pic := ⟨State.setEe_inv h.inv e j, h.free, h.gone⟩

theorem ite {c : Prop} [Decidable c] (h : s.Gone p n pic) (h' : t.Gone p n pic) : (if c then s else t).Gone p n pic := by
  split
  · exact h
  · exact h'

theorem removeJob (h : s.Gone p n pic) (j : PicJob) (code : W16) : (s.removeJob n j code).Gone p n pic := by
  have hr := State.removeJob_removed h.inv n j code
  refine ⟨hr.inv, ?_, fun hm => ?_⟩
  · rw [hr.vid, Video.dropPe_pe]
    exact get_dropEngines_free h.inv.vid.pe h.free
  · rw [hr.serials] at hm
    exact h.gone (List.mem_of_mem_filter hm)

/-! ### The parse goes on -/

theorem debit (h : s.Gone p n pic) (m : Nat) (x : PicSyntax) (q : ParamSet) (pts : W64) : (s.debit m x q pts).Gone p n pic :=
  (h.modStream m (f := fun y => y.charged x (s.begins m x) pts) fun _ _ hy => .inl hy).keeps
    (.of_entries (s.debit_rest m x q pts) (State.debit_inv h.inv ..))

/-- The parse of a picture starts, or it has no room in the ring. -/
theorem startPic (h : s.Gone p n pic) (e m : Nat) (j : EeJob) (x : PicSyntax) (rest : List PicSyntax) (q : ParamSet) :
    (s.startPic e m j x rest q).Gone p n pic := by
  have h1 := h.debit m x q (s.unitPts m j).1
  have hover : ((((s.debit m x q (s.unitPts m j).1).countFree (gzBase + 0x30 + 8 * e)).countEntry (0x2000 + m) 0x24 rest.length).dropPic m
      Code.VID_SYNTAX_OVF ((x :: rest).any fun p => p.refMark != 0)).Gone p n pic := by
    have hf := State.KeepsJobs.countFree h1.inv (gzBase + 0x30 + 8 * e)
    have hc := hf.trans (.countEntry hf.inv (0x2000 + m) 0x24 rest.length)
    exact h1.keeps (hc.trans (.dropPic hc.inv ..))
  have hjob (k : PicJob) (hk : k.serial = none) : ((s.debit m x q (s.unitPts m j).1).modStream m fun y => { y with jobs := y.jobs ++ [k] }).Gone p n pic :=
    h1.modStream m fun y z hz => by
      change z ∈ (y.jobs ++ [k]).map (·.serial) at hz
      rw [List.map_append, List.mem_append, List.map_singleton, List.mem_singleton, hk] at hz
      exact hz
  exact ite (hover.setEe e _) ((hjob ((s.stream m).newJob j x q (s.unitPts m j)) rfl).setEe e _)

theorem endOfStream (h : s.Gone p n pic) (m : Nat) : (s.endOfStream m).Gone p n pic := by
  unfold State.endOfStream
  have h1 : (if s.strState m = 2 then s.setStrState m 1 else s).Gone p n pic := ite (h.keeps (.setStrState h.inv m 1)) h
  generalize (if s.strState m = 2 then s.setStrState m 1 else s) = w at h1
  dsimp only
  split
  · exact h1.keeps (State.Shows.flushOut h1.inv m).toKeepsJobs
  · next j hj =>
    exact h1.keeps (.modStream h1.inv m (serials_replaceLast hj rfl))

theorem eeFinish (h : s.Gone p n pic) (e m : Nat) (j : EeJob) : (s.eeFinish e m j).Gone p n pic := by
  have h1 := h.setEe e none
  unfold State.eeFinish
  dsimp only
  generalize s.setEe e none = w at h1
  have h2 : (match j.shows, (w.stream m).jobs.getLast? with
      | some f, none => w.showExisting m f (w.unitPts m j).1 (w.unitPts m j).2
      | some f, some l => w.modStream m fun x => { x with
          jobs := x.jobs.dropLast ++ [{ l with shows := l.shows ++ [(f, (w.unitPts m j).1, (w.unitPts m j).2)] }] }
      | none, _ => w).Gone p n pic := by
    split
    · exact h1.keeps (State.Shows.showExisting h1.inv ..).toKeepsJobs
    · next f l hf hl =>
      exact h1.keeps (.modStream h1.inv m (serials_replaceLast hl rfl))
    · exact h1
  exact ite (h2.endOfStream m) h2

theorem eeNext (h : s.Gone p n pic) (e fuel : Nat) : (s.eeNext e fuel).Gone p n pic := by
  induction fuel generalizing s with
  | zero => exact h
  | succ fuel ih =>
    unfold State.eeNext
    split
    · exact h
    · next j _ =>
      refine ite h ?_
      dsimp only
      split
      · exact h.eeFinish ..
      · next x rest _ =>
        refine ite h ?_
        have h1 : (if x.rap then s.promoteSets j.stream else s).Gone p n pic := ite (h.modStream _ fun _ _ hy => .inl hy) h
        generalize (if x.rap then s.promoteSets j.stream else s) = w at h1
        split
        · next c _ => exact ih ((h1.keeps (.dropPic h1.inv ..)).setEe e _)
        · split
          · exact h1
          · exact ite h1 (ih (h1.startPic ..))

theorem eeRun (h : s.Gone p n pic) (e : Nat) : (s.eeRun e).Gone p n pic := by
  unfold State.eeRun
  split
  · exact h
  · exact h.eeNext ..

theorem parseOn (h : s.Gone p n pic) (m au : Nat) (whole : Bool) (code : W16) : (s.parseOn m au whole code).Gone p n pic := by
  unfold State.parseOn
  split
  · exact h
  · next e _ =>
    split
    · exact h
    · next k _ =>
      extract_lets gone w k' pass v
      have hw : w.Gone p n pic := ite (h.keeps (.countFree h.inv _)) h
      have hv : v.Gone p n pic := by
        have hc := State.KeepsJobs.countEntry hw.inv (0x2000 + m) 0x24 k'.rest.length
        exact ite (hw.keeps (hc.trans (.strCode hc.inv m code))) hw
      exact (hv.setEe e _).eeRun e

end State.Gone

end Sys2Proof.Machine
end

section
/-! PROOF. O27: pixel engines, a complete picture, and an engine that times out (R264, R280, R281, R284, R288, R291). -/

namespace Sys2Proof.Machine

variable {s t u : State} {n : Nat}

/-! ### Complete pictures become ready -/

theorem State.decoding_monoFill (s : State) (codec : Nat) (q : ParamSet) (addr : Nat) : (s.monoFill codec q addr).decoding = s.decoding := by
  unfold State.monoFill
  split
  · rfl
  · exact State.decoding_foldl (fun u _ => State.decoding_memPut u _ _) _ s

theorem State.decoding_concealBlock (s : State) (q : ParamSet) (dst : Nat) (src : Option Nat) (b : Nat) :
    (s.concealBlock q dst src b).decoding = s.decoding :=
  State.decoding_foldl (fun u _ => State.decoding_memPut u _ _) _ s

namespace State.Shows

theorem monoFill (h : s.Inv) (codec : Nat) (q : ParamSet) (addr : Nat) : s.Shows (s.monoFill codec q addr) :=
  .of_decoding h ((State.monoFill_keep s codec q addr (Kept.refl s)).inv h) (State.decoding_monoFill ..)

theorem concealBlock (h : s.Inv) (q : ParamSet) (dst : Nat) (src : Option Nat) (b : Nat) : s.Shows (s.concealBlock q dst src b) :=
  .of_decoding h ((State.concealBlock_keep s q dst src b (Kept.refl s)).inv h) (State.decoding_concealBlock ..)

theorem concealBad (h : s.Inv) (n : Nat) (j : PicJob) (addr : Nat) : s.Shows (s.concealBad n j addr) := by
  unfold State.concealBad
  extract_lets src w
  have h1 : s.Shows w := foldl (fun u b hu => concealBlock hu j.ps addr src b) _ h
  have h2 := h1.trans (modStream h1.inv n (f := fun x => { x with frames := remark j.syn x.frames }) rfl)
  exact h2.trans (sweepFrames h2.inv n)

theorem outputReady (h : s.Inv) (n : Nat) (j : PicJob) (pic : PicRec) : s.Shows (s.outputReady n j pic) := by
  have h1 : s.Shows (if s.str n 0x03 = 3 then (if j.syn.shown then s.deliver n pic else s)
      else s.bump n j.ps.reorder j.ps.latency false ((s.stream n).reordering.length + 1)) :=
    ite (ite (deliver h n pic) (refl h)) (bump h ..)
  exact h1.trans (showAfter h1.inv n j.shows j.eos)

end State.Shows

namespace State.Gone

variable {p m pic : Nat}

theorem countPicture (h : s.Gone p m pic) (n damage bad taint : Nat) : (s.countPicture n damage bad taint).Gone p m pic := by
  have h1 := State.KeepsJobs.countEntry h.inv (0x2000 + n) 0x22 1
  have h2 := h1.trans (.countEntry h1.inv (0x2000 + n) 0x25 (if 0 < damage then 1 else 0))
  have h3 := h2.trans (.countEntry h2.inv (0x2000 + n) 0x26 bad)
  exact h.keeps (h3.trans (.countEntry h3.inv (0x2000 + n) 0x2D taint))

theorem makeReady (h : s.Gone p m pic) (n : Nat) (j : PicJob) (pool buf : Nat) : (s.makeReady n j pool buf).Gone p m pic := by
  unfold State.makeReady
  extract_lets total addr w1 damage idx w2 lim w3 w4 j' pic' w5 frame w6
  have h1 : w1.Gone p m pic := by
    have hf := State.Shows.monoFill h.inv (s.str n 0x03) j.ps addr
    exact h.keeps (hf.trans (.concealBad hf.inv n j addr)).toKeepsJobs
  have h2 : w2.Gone p m pic := h1.countPicture ..
  have h3 : w3.Gone p m pic := by
    have hm := State.KeepsJobs.modStream h2.inv n (f := fun x => { x with frames := lim.1 }) rfl
    exact h2.keeps (hm.trans (State.Shows.sweepFrames hm.inv n).toKeepsJobs)
  have h4 : w4.Gone p m pic := ite (h3.keeps (.strCode h3.inv ..)) h3
  have h5 : w5.Gone p m pic := ite (h4.keeps (State.Shows.flushOut h4.inv n).toKeepsJobs) h4
  have h6 : w6.Gone p m pic := h5.modStream n fun x y hy => by
    change y ∈ (x.jobs.drop 1).map (fun k : PicJob => k.serial) at hy
    rw [List.map_drop] at hy
    exact .inl (List.mem_of_mem_drop hy)
  have h7 := State.Shows.outputReady h6.inv n j' pic'
  exact h6.keeps (h7.trans (.sweepFrames h7.inv n)).toKeepsJobs

theorem readyLoop (h : s.Gone p m pic) (n fuel : Nat) : (s.readyLoop n fuel).Gone p m pic := by
  induction fuel generalizing s with
  | zero => exact h
  | succ fuel ih =>
    unfold State.readyLoop
    split
    · exact h
    · next j _ _ =>
      refine ite ?_ h
      split
      · next b _ => exact ih (h.makeReady n j b.1 b.2)
      · exact h

theorem settle (h : s.Gone p m pic) (n : Nat) : (s.settle n).Gone p m pic := h.readyLoop ..

/-- A picture whose engine is freed is gone. -/
theorem of_removed {p : Fin 16} {k : PeJob} {j : PicJob} {code : W16} (h : s.Inv) (hr : s.Removed t n j.serial code)
    (hp : Tbl.get none s.vid.pe p.val = some k) (hn : k.stream = n) (hj : j.serial = some k.pic) : t.Gone p.val n k.pic := by
  refine ⟨hr.inv, ?_, ?_⟩
  · rw [hr.vid, Video.dropPe_pe]
    exact get_dropEngines_own h.vid.pe hp ⟨hn, hj⟩
  · rw [hr.serials, hj, List.mem_filter]
    simp

end State.Gone

/-! ### A picture is dropped without the rest of its access unit -/

/-- What remains of the drop of a picture once it and the pictures that go with it have been removed: the pictures `waits` go with VID_NO_RAP. -/
def State.dropRest (s : State) (n : Nat) (j : PicJob) (code : W16) (waits : List PicJob) (lost : Bool) : State :=
  let s := waits.foldl (fun (s : State) k => s.removeJob n k Code.VID_NO_RAP) s
  let s := if lost then s.nextRap n else s
  (s.parseOn n j.au false code).settle n

theorem State.dropJob_one (s : State) (n : Nat) (j : PicJob) (code : W16) :
    let later := ((s.stream n).jobs.dropWhile fun k => k.serial != j.serial).drop 1
    let waits := if s.str n 0x0B = 0 then later.takeWhile fun k => !k.syn.rap else []
    s.dropJob n j code true false = (s.removeJob n j code).dropRest n j code waits (later.length == waits.length) := by
  intro later waits
  unfold State.dropJob State.dropRest
  simp only [Bool.true_or, Bool.true_and, Bool.false_eq_true, if_false, List.length_nil, List.drop_zero, decide_eq_true_eq, List.foldl_cons, List.foldl_nil]
  rfl

/-- An engine that runs a picture too long is freed, and the picture is gone (R291). -/
theorem State.dropJob_gone (h : s.Inv) {p : Fin 16} {k : PeJob} {j : PicJob} (hp : Tbl.get none s.vid.pe p.val = some k)
    (hj : j.serial = some k.pic) (code : W16) : (s.dropJob k.stream j code true false).Gone p.val k.stream k.pic := by
  have h1 := State.Gone.of_removed h (State.removeJob_removed h k.stream j code) hp rfl hj
  rw [State.dropJob_one]
  generalize s.removeJob k.stream j code = w at h1
  unfold State.dropRest
  extract_lets v x
  have hv : v.Gone p.val k.stream k.pic :=
    foldl_all (P := fun u => State.Gone u p.val k.stream k.pic) h1 fun u y hu => hu.removeJob y Code.VID_NO_RAP
  have hx : x.Gone p.val k.stream k.pic := .ite (hv.keeps (.nextRap hv.inv _)) hv
  exact (hx.parseOn ..).settle _

/-! ### The picture in its parse -/

section parse
variable {j : EeJob} {p : PicJob} (hp : (s.stream n).jobs.getLast? = some p) (hs : p.serial = none)
  (hold : ∀ k ∈ (s.stream n).jobs.dropLast, k.serial ≠ none)
include hp hs hold

/-- The picture in its parse is the last of its stream. -/
theorem State.behind_parse : ((s.stream n).jobs.dropWhile fun k => k.serial != p.serial).drop 1 = [] := by
  rw [← List.dropLast_append_getLast? p hp, List.dropWhile_append_of_pos (fun k hk => by rw [hs]; simpa using hold k hk), hs,
    List.dropWhile_cons_of_neg (by rw [hs]; decide)]
  rfl

theorem State.serials_parse : (s.stream n).serials.filter (· != p.serial) = (s.stream n).jobs.dropLast.map (·.serial) := by
  unfold Stream.serials
  conv_lhs => rw [← List.dropLast_append_getLast? p hp]
  rw [List.map_append, List.filter_append, List.map_singleton, hs, List.filter_eq_self.2 fun y hy => ?_]
  · exact List.append_nil _
  · obtain ⟨k, hk, rfl⟩ := List.mem_map.1 hy
    simpa using hold k hk

/-- An entropy engine that runs a picture too long goes on without it (R291). -/
theorem State.dropJob_parse (code : W16) :
    s.dropJob n p code true false = ((((s.removeJob n p code).nextRap n).parseOn n p.au false code).settle n) := by
  rw [State.dropJob_one, State.behind_parse hp hs hold, List.takeWhile_nil, ite_self]
  rfl

end parse

theorem vidEngineTo_entropy {e : Fin 4} {j : EeJob} {p : PicJob} (he : s.eeAt e.val = some j) (hpar : j.parsing = true)
    (hp : (s.stream j.stream).jobs.getLast? = some p) :
    exec (.vidEngineTo (.entropy e)) s = .next (s.dropJob j.stream p Code.VID_ENGINE_TO true false) := by
  change execVidEngineTo (.entropy e) s = _
  simp only [execVidEngineTo, he, hpar, hp, Bool.not_true, Bool.false_eq_true, if_false]

theorem vidEngineTo_pixel {p : Fin 16} {k : PeJob} {j : PicJob} (hp : Tbl.get none s.vid.pe p.val = some k)
    (hj : (s.stream k.stream).jobs.find? (fun j => j.serial == some k.pic) = some j) :
    exec (.vidEngineTo (.pixel p)) s = .next (s.dropJob k.stream j Code.VID_ENGINE_TO true false) := by
  change execVidEngineTo (.pixel p) s = _
  simp only [execVidEngineTo, hp, hj]

/-- Settles O27: the oldest picture is the minimum that the model's fold keeps; the samples of a unit go to memory alone; and after a picture
has been dropped its engine stays free and its serial out of the list, whatever the parse and the output that go on do. -/
theorem pixelEngines : Obligations.PixelEngines := by
  unfold Obligations.PixelEngines
  refine ⟨fun s p h hp hv => ⟨⟨fun hb => pixelUnitStart_none hp hv hb, fun n j hb => ⟨fun hj => pixelUnitStart_started hp hv hb hj,
      fun b hj hf => ⟨pixelUnitStart_begins hp hv hb hj hf, State.beginPic_begins ..⟩⟩⟩, fun n j hbufs hj hmin =>
        ⟨_, pixelUnitStart_takes hp hv hbufs hj hmin, State.takeUnit_leaves h p.val n j⟩⟩,
    fun s p r e h he => ⟨fun hj => pixelUnitDone_gone he hj, fun j hj => ⟨fun hu hrow => pixelUnitDone_waits he hj hu hrow, fun hok =>
      ⟨_, pixelUnitDone_done he hj hok, State.unitDone_leaves h p.val e j r⟩⟩⟩,
    fun s n hno => State.settle_waits hno, fun s n j js b hj hc hb => State.settle_ready hj hc hb,
    fun s e j p h he hpar hn hp hs hold => ?_, fun s p k j h hp hj => ?_⟩
  · have hr := State.removeJob_removed h j.stream p Code.VID_ENGINE_TO
    refine ⟨(vidEngineTo_entropy he hpar hp).trans (congrArg Host.Outcome.next (State.dropJob_parse hp hs hold _)),
      hr.serials.trans (State.serials_parse hp hs hold), hr.count hn, hr.code, ?_⟩
    exact (hr.eeAt e.val).trans he
  · have hserial : j.serial = some k.pic := by simpa using List.find?_some hj
    have hg := State.dropJob_gone h hp hserial Code.VID_ENGINE_TO
    refine ⟨_, vidEngineTo_pixel hp hj, rfl, hg.free, fun y hy he => hg.gone ?_⟩
    rw [← hserial, ← he]
    exact List.mem_map_of_mem hy

end Sys2Proof.Machine
end

section
/-! PROOF. Buffers return to the Coil, and a stream's delivery queue loses its pictures (R19, R284, R287, R309, R310, R447 to R455). -/

namespace Sys2Proof.Machine

variable {s t u : State}

/-! ### A buffer returned -/

/-- From s to t buffers have returned to the Coil: the Coil, its entries, and the results of the functions' commands alone have moved. -/
structure State.Freed (s t : State) : Prop where
  inv : t.Inv
  regs : ∀ a, (∀ k, a ≠ fnReg k (coilBase + 0x10)) → t.reg a = s.reg a
  entries : ∀ i j, dkey i j / 256 ≠ 0x1600 → t.entry i j = s.entry i j
  rest : t = { s with regs := t.regs, dict := t.dict, coil := t.coil }

namespace State.Freed

theorem refl (h : s.Inv) : s.Freed s := ⟨h, fun _ _ => rfl, fun _ _ _ => rfl, rfl⟩

theorem trans (h : s.Freed t) (h' : t.Freed u) : s.Freed u :=
  ⟨h'.inv, fun a ha => (h'.regs a ha).trans (h.regs a ha), fun i j hj => (h'.entries i j hj).trans (h.entries i j hj), by
    rw [h'.rest, h.rest]⟩

theorem foldl {α : Type} {f : State → α → State} {l : List α} (h : s.Freed t) (hf : ∀ (v : State) x, v.Inv → v.Freed (f v x)) :
    s.Freed (l.foldl f t) :=
  foldl_all (P := s.Freed) h fun v x hv => hv.trans (hf v x hv.inv)

theorem ite {c : Prop} [Decidable c] (h : s.Freed t) (h' : s.Freed u) : s.Freed (if c then t else u) := by
  split
  · exact h
  · exact h'

theorem stream (h : s.Freed t) (n : Nat) : t.stream n = s.stream n := by rw [h.rest]; rfl

theorem sch (h : s.Freed t) : t.sch = s.sch := by rw [h.rest]

/-- The streams' entries lie beyond those of the Coil. -/
theorem str (h : s.Freed t) (n j : Nat) : t.str n j = s.str n j := h.entries _ _ (by unfold dkey; omega)

theorem setBuf (h : s.Inv) (n k : Nat) (b : Buf) : s.Freed (s.setBuf n k b) := ⟨State.setBuf_inv h .., fun _ _ => rfl, fun _ _ _ => rfl, rfl⟩

theorem countCoil (h : s.Inv) {j : Nat} (hj : j < 256) (k : Nat) : s.Freed (s.countEntry 0x1600 j k) :=
  ⟨State.countEntry_inv h .., fun _ _ => rfl, fun a b hk => by
    rw [State.entry_countEntry h, if_neg fun e => hk (by rw [e]; unfold dkey; omega)], rfl⟩

theorem tryPool (h : s.Inv) {o n k : Nat} {spilled : Bool} (hn : n < 8) (ht : s.tryPool o n spilled = some (t, k)) : s.Freed t := by
  obtain ⟨-, ht⟩ := Option.ite_none_right_eq_some.1 ht
  cases ht
  have hspill : s.Freed (if spilled then s.countEntry 0x1600 (0x40 + n) 1 else s) := .ite (countCoil h (by omega) 1) (refl h)
  have hcount := hspill.trans (countCoil hspill.inv (j := 0x38 + n) (by omega) 1)
  exact hcount.trans (setBuf hcount.inv ..)

theorem coilGrant (h : s.Inv) {o bytes m k : Nat} (ht : s.coilGrant o bytes = some (t, m, k)) : s.Freed t := by
  unfold State.coilGrant at ht
  obtain ⟨hn, ht⟩ := Option.ite_none_left_eq_some.1 ht
  split at ht
  · next hp =>
    cases ht
    exact tryPool h (by omega) hp
  · obtain ⟨hc, ht⟩ := Option.ite_none_left_eq_some.1 ht
    obtain ⟨⟨u, j⟩, hp, he⟩ := Option.map_eq_some_iff.1 ht
    cases he
    simp only [Bool.or_eq_true, decide_eq_true_eq, not_or] at hc
    exact tryPool h (by omega) hp

theorem serveWaiters (h : s.Inv) (n : Nat) : s.Freed (s.serveWaiters n) := by
  refine (refl h).foldl fun v w hv => ?_
  split
  · next x m k hx =>
    have hg := coilGrant hv hx
    have hw : x.Freed { x with coil := { x.coil with waiters := x.coil.waiters.erase w } } :=
      ⟨{ hg.inv with coil := ⟨hg.inv.coil.buffers, hg.inv.coil.bases, hg.inv.coil.bufs, hg.inv.coil.resv⟩ }, fun _ _ => rfl,
        fun _ _ _ => rfl, rfl⟩
    exact hg.trans (.ite (hw.trans (setBuf hw.inv ..)) hw)
  · exact refl hv

theorem allocDone (h : s.Inv) (n k : Nat) : s.Freed (s.allocDone n k) := by
  unfold State.allocDone
  split
  · exact ⟨State.setReg_inv h .., fun a ha => State.reg_setReg_ne h (ha _) _, fun _ _ _ => rfl, rfl⟩
  · exact refl h

theorem freeBuf (h : s.Inv) (n k : Nat) : s.Freed (s.freeBuf n k) := by
  have hdone : s.Freed (if (s.buf n k).zeroing then s.allocDone n k else s) := .ite (allocDone h n k) (refl h)
  have hset := hdone.trans (setBuf hdone.inv n k { s.buf n k with owner := none, zeroing := false })
  exact hset.trans (serveWaiters hset.inv n)

/-- The buffers of a stream's frames without a mark return (R284). -/
theorem sweepFrames (h : s.Inv) (n : Nat) : (s.modStream n Stream.swept).Freed (s.sweepFrames n) :=
  (refl (State.modStream_inv h ..)).foldl fun _ f hv => freeBuf hv f.pic.pool f.pic.buf

end State.Freed

/-- A frame's held mark clears: its stream and the Coil move, and no memory (R19). -/
theorem State.unhold_rest (h : s.Inv) (p : PicRec) :
    s.unhold p = { s with regs := (s.unhold p).regs, dict := (s.unhold p).dict, streams := (s.unhold p).streams, coil := (s.unhold p).coil } := by
  have hf : State.Freed _ (s.unhold p) := .sweepFrames (State.modStream_inv h ..) p.stream
  rw [hf.rest]
  rfl

/-! ### Pictures out of the delivery queue -/

/-- A stream whose picture idx has left the delivery queue; its frame stays held where a slot takes it (R287). -/
def Stream.dequeued (x : Stream) (idx : Nat) (hold : Bool) : Stream :=
  { x with
    queue := x.queue.filter (· != idx)
    frames := x.frames.map fun (f : Frame) => if f.pic.decodeIdx = idx && f.output then { f with output := false, held := hold } else f }

theorem State.takeQueued_eq (s : State) (n idx : Nat) (hold : Bool) :
    s.takeQueued n idx hold = ((s.modStream n fun x => x.dequeued idx hold).sweepFrames n).countEntry (0x2000 + n) 0x23 1 := rfl

theorem State.str_lt (s : State) (n j : Nat) : s.str n j < 2 ^ 64 := BitVec.isLt _

theorem State.str_countEntry_self (h : s.Inv) (n j k : Nat) : (s.countEntry (0x2000 + n) j k).str n j = (s.str n j + k) % 2 ^ 64 :=
  (State.entry_countEntry h ..).trans (if_pos rfl)

theorem State.str_countEntry_ne (h : s.Inv) (n k : Nat) {i j : Nat} (hj : j ≠ i) : (s.countEntry (0x2000 + n) i k).str n j = s.str n j :=
  (State.entry_countEntry h ..).trans (if_neg (by unfold dkey; omega))

/-- From s to t slots have taken the pictures `gone` from the delivery queue of stream n and passed k of them (R309). -/
structure State.Took (s t : State) (n : Nat) (gone : List Nat) (k : Nat) : Prop where
  inv : t.Inv
  queue : (t.stream n).queue = (s.stream n).queue.filter fun o => !gone.contains o
  taken : t.str n 0x23 = (s.str n 0x23 + gone.length) % 2 ^ 64
  passed : t.str n 0x46 = (s.str n 0x46 + k) % 2 ^ 64
  streams : s.StreamsBut t n
  regs : ∀ a, (∀ k, a ≠ fnReg k (coilBase + 0x10)) → t.reg a = s.reg a
  rest : t = { s with regs := t.regs, dict := t.dict, streams := t.streams, coil := t.coil }

namespace State.Took

variable {n k : Nat} {gone : List Nat}

theorem refl (h : s.Inv) (n : Nat) : s.Took s n [] 0 :=
  ⟨h, by simp, (Nat.mod_eq_of_lt (s.str_lt n 0x23)).symm, (Nat.mod_eq_of_lt (s.str_lt n 0x46)).symm, fun _ _ => rfl, fun _ _ => rfl, rfl⟩

/-- A change of the stream that leaves the queue alone. -/
theorem modStream (h : s.Took t n gone k) {f : Stream → Stream} (hf : ∀ x, (f x).queue = x.queue) : s.Took (t.modStream n f) n gone k := by
  refine ⟨State.modStream_inv h.inv .., ?_, h.taken, h.passed, fun m hm => ?_, h.regs, ?_⟩
  · rw [State.stream_modStream h.inv, if_pos rfl, hf, h.queue]
  · rw [State.stream_modStream h.inv, if_neg hm]
    exact h.streams m hm
  · rw [h.rest]
    rfl

/-- One more picture leaves the queue, and buffers without a mark return (R284, R287). -/
theorem takeQueued (h : s.Took t n gone k) (idx : Nat) (hold : Bool) : s.Took (t.takeQueued n idx hold) n (gone ++ [idx]) k := by
  rw [State.takeQueued_eq]
  generalize hg : (fun x : Stream => x.dequeued idx hold) = g
  have hq (x : Stream) : (g x).queue = x.queue.filter (· != idx) := by rw [← hg]; rfl
  have hv : (t.modStream n g).Inv := State.modStream_inv h.inv ..
  have hf : State.Freed _ ((t.modStream n g).sweepFrames n) := .sweepFrames hv n
  have hs (m : Nat) : ((t.modStream n g).sweepFrames n).stream m = if m = n then Stream.swept (g (t.stream n)) else t.stream m := by
    rw [hf.stream, State.stream_modStream hv, State.stream_modStream h.inv, State.stream_modStream h.inv, if_pos rfl]
    split <;> rfl
  have hr := hf.rest
  refine ⟨State.countEntry_inv hf.inv .., ?_, ?_, ?_, fun m hm => ?_, fun a ha => (hf.regs a ha).trans (h.regs a ha), ?_⟩
  · rw [State.stream_countEntry, hs, if_pos rfl]
    exact (hq _).trans (by rw [h.queue, List.filter_filter]; simp [bne, beq_eq_decide, Bool.and_comm])
  · rw [State.str_countEntry_self hf.inv, hf.str, State.str_modStream, State.str_modStream, h.taken, List.length_append, List.length_singleton]
    omega
  · rw [State.str_countEntry_ne hf.inv n 1 (by decide), hf.str]
    exact h.passed
  · rw [State.stream_countEntry, hs, if_neg hm]
    exact h.streams m hm
  · generalize (t.modStream n g).sweepFrames n = w at hr
    rw [hr, h.rest]
    rfl

/-- One more picture counts as passed (R309). -/
theorem pass (h : s.Took t n gone k) : s.Took (t.countEntry (0x2000 + n) 0x46 1) n gone (k + 1) := by
  refine ⟨State.countEntry_inv h.inv .., h.queue, ?_, ?_, h.streams, h.regs, ?_⟩
  · rw [State.str_countEntry_ne h.inv n 1 (by decide), h.taken]
  · rw [State.str_countEntry_self h.inv, h.passed]
    omega
  · rw [h.rest]
    rfl

/-- The older pictures are taken and passed. -/
theorem passAll (older : List Nat) (h : s.Took t n gone k) :
    s.Took (older.foldl (fun t o => (t.takeQueued n o false).countEntry (0x2000 + n) 0x46 1) t) n (gone ++ older) (k + older.length) := by
  induction older generalizing t gone k with
  | nil => simpa using h
  | cons o older ih => simpa [Nat.add_assoc, Nat.add_comm 1] using ih (h.takeQueued o false).pass

/-- The delivery queue without the older pictures and the one taken. -/
theorem queue_last {older : List Nat} {idx : Nat} (h : s.Took t n (older ++ [idx]) k) :
    (t.stream n).queue = (s.stream n).queue.filter fun o => o != idx && !older.contains o := by
  rw [h.queue]
  refine List.filter_congr fun o _ => ?_
  simp [bne, beq_eq_decide, Bool.and_comm]

theorem taken_last {older : List Nat} {idx : Nat} (h : s.Took t n (older ++ [idx]) k) :
    t.str n 0x23 = (s.str n 0x23 + (1 + older.length)) % 2 ^ 64 := by
  rw [h.taken, List.length_append, List.length_singleton, Nat.add_comm 1]

end State.Took
end Sys2Proof.Machine
end

section
/-! PROOF. Slots of a filling step: they take pictures and become void (R309, R310, R324, R325, R329, R331, R348). -/

namespace Sys2Proof.Machine

variable {s t u : State} {q i : Nat} {st : Step} {sl : Slot}

/-! ### A slot written -/

theorem State.slotOf_eq_some : s.slotOf q i = some (st, sl) ↔ (s.queue q).held = some st ∧ st.slots[i]? = some sl := by
  unfold State.slotOf Step.slot?
  simp only [Option.bind_eq_some_iff, Option.map_eq_some_iff, Prod.mk.injEq]
  constructor
  · rintro ⟨_, hq, _, hi, rfl, rfl⟩
    exact ⟨hq, hi⟩
  · rintro ⟨hq, hi⟩
    exact ⟨st, hq, sl, hi, rfl, rfl⟩

theorem State.slotOf_of_sch (h : t.sch = s.sch) (q i : Nat) : t.slotOf q i = s.slotOf q i := by
  unfold State.slotOf State.queue
  rw [h]

theorem State.modSlot_inv (h : s.Inv) (q i : Nat) (f : Slot → Slot) : (s.modSlot q i f).Inv := State.modStep_inv h ..

theorem State.queuesBut_modSlot (h : s.Inv) (q i : Nat) (f : Slot → Slot) : s.QueuesBut (s.modSlot q i f) q := State.queuesBut_modStep h q _

theorem State.slotOf_modSlot_some (h : s.Inv) (hs : s.slotOf q i = some (st, sl)) (f : Slot → Slot) :
    (s.modSlot q i f).slotOf q i = some ({ st with slots := st.slots.modify i f }, f sl) := by
  obtain ⟨hq, hi⟩ := State.slotOf_eq_some.1 hs
  refine State.slotOf_eq_some.2 ⟨?_, ?_⟩
  · exact (State.held_modStep h ..).trans (by rw [hq]; rfl)
  · rw [List.getElem?_modify_eq, hi]
    rfl

/-- A step with a slot whose void values are due is not ready (R312). -/
theorem State.checkReady_due (hs : s.slotOf q i = some (st, sl)) (hd : sl.voidDue = true) : s.checkReady q = s := by
  obtain ⟨hq, hi⟩ := State.slotOf_eq_some.1 hs
  unfold State.checkReady
  rw [hq]
  refine if_neg fun hc => ?_
  have := List.all_eq_true.1 (Bool.and_eq_true_iff.1 hc).2 sl (List.mem_of_getElem? hi)
  rw [hd] at this
  simp at this

/-! ### Engines that stop -/

/-- From s to t the engines of a list have stopped: their cycles count, for the engine and its context, free values are used up, and their
items may count as abandoned (R325). -/
structure State.Stopped (s t : State) (es : List Nat) : Prop where
  inv : t.Inv
  regs : ∀ k, k ≠ preBase + 0x60 → (∀ e ∈ es, k ≠ preBase + 0x20 + 8 * e) → t.reg k = s.reg k
  pre : ∀ d, Tbl.get none t.vid.pre d = if d ∈ es then none else Tbl.get none s.vid.pre d
  rest : t = { s with regs := t.regs, fresh := t.fresh, vid := { s.vid with pre := t.vid.pre }, sch := { s.sch with ctxs := t.sch.ctxs } }

namespace State.Stopped

variable {es : List Nat}

theorem refl (h : s.Inv) : s.Stopped s [] := ⟨h, fun _ _ _ => rfl, fun d => by simp, rfl⟩

theorem stopPre (h : s.Stopped t es) (e c : Nat) : s.Stopped (t.stopPre e c) (es ++ [e]) := by
  have hf : t.freshWord.2.Inv := (State.freshWord_keep t (Kept.refl t)).inv h.inv
  refine ⟨(State.stopPre_keep t e c (Kept.refl t)).inv h.inv, fun k hk hes => ?_, fun d => ?_, ?_⟩
  · have hne : k ≠ preBase + 0x20 + 8 * e := hes e (by simp)
    exact ((State.reg_count hf ..).trans (if_neg hne)).trans (h.regs k hk fun e he => hes e (by simp [he]))
  · refine (Tbl.get_set h.inv.vid.pre e d none).trans ?_
    rw [h.pre]
    by_cases he : d = e <;> simp [he]
  · rw [h.rest]
    rfl

theorem stopAll (es' : List (Nat × Item)) (c : Nat) (h : s.Stopped t es) :
    s.Stopped (es'.foldl (fun t b => t.stopPre b.1 c) t) (es ++ es'.map (·.1)) := by
  induction es' generalizing t es with
  | nil => simpa using h
  | cons b es' ih => simpa using ih (h.stopPre b.1 c)

end State.Stopped

/-- Engine e works for slot i of the step of queue q. -/
def State.worksFor (s : State) (q i e : Nat) : Bool := (Tbl.get none s.vid.pre e).any fun it => it.queue == q && it.slot == i

/-- The engines that work for slot i of the step of queue q, with their items. -/
def State.workOn (s : State) (q i : Nat) : List (Nat × Item) :=
  (List.range 4).filterMap fun e => (Tbl.get none s.vid.pre e).bind fun it => if it.queue == q && it.slot == i then some (e, it) else none

theorem State.workOn_engines (s : State) (q i : Nat) : (s.workOn q i).map (·.1) = (List.range 4).filter (s.worksFor q i) := by
  unfold State.workOn
  rw [List.map_filterMap, ← List.filterMap_eq_filter]
  refine List.filterMap_congr fun e _ => ?_
  unfold Option.guard State.worksFor
  cases hx : Tbl.get none s.vid.pre e with
  | none => simp only [hx]; rfl
  | some it =>
    simp only [hx, Option.bind_some, Option.any_some]
    split <;> rfl

/-- The engines of a slot whose items are abandoned stop (R325). -/
theorem State.abandonItems_stopped (h : s.Inv) (q i : Nat) (st : Step) :
    s.Stopped (s.abandonItems q st (· == i)) ((List.range 4).filter (s.worksFor q i)) := by
  have hs := (State.Stopped.refl h).stopAll (s.workOn q i) st.ctx
  rw [List.nil_append, State.workOn_engines] at hs
  refine ⟨State.count_inv hs.inv .., fun k hk he => ?_, hs.pre, ?_⟩
  · exact ((State.reg_count hs.inv ..).trans (if_neg hk)).trans (hs.regs k hk he)
  · unfold State.abandonItems
    change State.count ((s.workOn q i).foldl _ s) _ _ = _
    rw [hs.rest]
    rfl

/-! ### A slot becomes void -/

/-- A slot that has become void with its values due (R324, R325). -/
def Slot.voided (x : Slot) (code : W16) : Slot := { x with state := .void, status := code, items := [], running := 0, voidDue := true }

/-- The counters and the record of a slot that becomes void (R331). -/
def State.countVoid (s : State) (st : Step) (sl : Slot) (code : W16) : State :=
  let s := (s.count (preBase + 0x58) 1).countEntry (0x2000 + sl.stream) 0x44 1
  if code = 0 then s else (s.setEntry (0x2000 + sl.stream) 0x47 code.toNat).preErr code st.ctx sl.stream

theorem State.preErr_regs (s : State) (code : W16) (c n : Nat) : ∃ r, s.preErr code c n = { s with regs := r } := State.errReg_regs ..

/-- A slot that becomes void counts once for the engines and once for its stream, whose LAST_PRE_CODE shows its code (Table 9.6, R331). -/
theorem State.countVoid_counts (h : s.Inv) (st : Step) (sl : Slot) (code : W16) :
    let t := s.countVoid st sl code
    t.Inv ∧ t.reg (preBase + 0x58) = s.reg (preBase + 0x58) + 1 ∧ t.str sl.stream 0x44 = (s.str sl.stream 0x44 + 1) % 2 ^ 64 ∧
    (code ≠ 0 → t.str sl.stream 0x47 = code.toNat) ∧ t = { s with regs := t.regs, dict := t.dict } := by
  dsimp only
  unfold State.countVoid
  extract_lets v
  have hv : v.Inv := State.countEntry_inv (State.count_inv h ..) ..
  have hreg : v.reg (preBase + 0x58) = s.reg (preBase + 0x58) + 1 := (State.reg_count h ..).trans (if_pos rfl)
  have hstr : v.str sl.stream 0x44 = (s.str sl.stream 0x44 + 1) % 2 ^ 64 := State.str_countEntry_self (State.count_inv h ..) ..
  have hrest : v = { s with regs := v.regs, dict := v.dict } := rfl
  clear_value v
  split
  · next hc => exact ⟨hv, hreg, hstr, fun hne => absurd hc hne, hrest⟩
  · generalize hw : v.setEntry (0x2000 + sl.stream) 0x47 code.toNat = w
    have hi : w.Inv := by rw [← hw]; exact State.setEntry_inv hv ..
    have hentry (j : Nat) : w.str sl.stream j = if dkey (0x2000 + sl.stream) j = dkey (0x2000 + sl.stream) 0x47 then code.toNat % 2 ^ 64
        else v.str sl.stream j := by rw [← hw]; exact State.entry_setEntry hv ..
    have herr : (w.preErr code st.ctx sl.stream).reg (preBase + 0x58) = w.reg (preBase + 0x58) := State.reg_errReg_ne hi (by decide) _
    obtain ⟨r, hr⟩ := State.preErr_regs w code st.ctx sl.stream
    have hstr' (j : Nat) : (w.preErr code st.ctx sl.stream).str sl.stream j = w.str sl.stream j := by rw [hr]; rfl
    refine ⟨State.errReg_inv hi .., herr.trans (by rw [← hw]; exact hreg), ?_, fun _ => ?_, ?_⟩
    · rw [hstr', hentry, if_neg (by unfold dkey; omega), hstr]
    · rw [hstr', hentry, if_pos rfl, Nat.mod_eq_of_lt (by omega)]
    · rw [hr, ← hw, hrest]
      rfl

theorem State.voidSlot_eq {code : W16} (h : s.Inv) (hs : s.slotOf q i = some (st, sl)) (hf : st.state = .filling)
    (ho : sl.state = .waiting ∨ sl.state = .taken) (hp : st.plan ≠ []) :
    s.voidSlot q i code = ((s.abandonItems q st (· == i)).countVoid st sl code).modSlot q i (·.voided code) := by
  have hopen : (sl.state == .void || sl.state == .filled || st.state != .filling) = false := by
    rcases ho with ho | ho <;> rw [ho, hf] <;> rfl
  have hdue : (!st.plan.isEmpty) = true := by simpa using hp
  have ha := State.abandonItems_stopped h q i st
  obtain ⟨hc, -, -, -, hr⟩ := State.countVoid_counts ha.inv st sl code
  have hslot : ((s.abandonItems q st (· == i)).countVoid st sl code).slotOf q i = some (st, sl) := by
    rw [hr, ← hs, ha.rest]
    rfl
  unfold State.voidSlot
  rw [hs]
  simp only [hopen, hdue, Bool.false_eq_true, if_false, if_true, Bool.and_true]
  exact State.checkReady_due (State.slotOf_modSlot_some hc hslot (·.voided code)) rfl

/-- A slot that becomes void loses its items and its engines, and its values are due (R324, R325, R329, R331). -/
theorem State.voidSlot_voids {code : W16} (h : s.Inv) (hs : s.slotOf q i = some (st, sl)) (hf : st.state = .filling)
    (ho : sl.state = .waiting ∨ sl.state = .taken) (hp : st.plan ≠ []) :
    let t := s.voidSlot q i code
    t.slotOf q i = some ({ st with slots := st.slots.modify i (·.voided code) }, sl.voided code) ∧ s.QueuesBut t q ∧
    (∀ e, e < 4 → Tbl.get none t.vid.pre e = if s.worksFor q i e then none else Tbl.get none s.vid.pre e) ∧
    t.reg (preBase + 0x58) = s.reg (preBase + 0x58) + 1 ∧ t.str sl.stream 0x44 = (s.str sl.stream 0x44 + 1) % 2 ^ 64 ∧
    (code ≠ 0 → t.str sl.stream 0x47 = code.toNat) ∧
    t = { s with regs := t.regs, dict := t.dict, fresh := t.fresh, vid := { s.vid with pre := t.vid.pre },
                 sch := { s.sch with queues := t.sch.queues, ctxs := t.sch.ctxs } } := by
  rw [State.voidSlot_eq h hs hf ho hp]
  have ha := State.abandonItems_stopped h q i st
  obtain ⟨hc, hreg, hcount, hcode, hr⟩ := State.countVoid_counts ha.inv st sl code
  have hrest := ha.rest
  have hpre := ha.pre
  have hreg' := ha.regs (preBase + 0x58) (by decide) fun e he => by
    have := List.mem_range.1 (List.mem_filter.1 he).1
    simp only [preBase]
    omega
  generalize s.abandonItems q st (· == i) = v at hrest hpre hreg' hreg hcount hcode hc hr
  generalize v.countVoid st sl code = w at hreg hcount hcode hc hr
  have hsch (p : Nat) : w.queue p = s.queue p := by rw [hr, hrest]; rfl
  have hslot : w.slotOf q i = some (st, sl) := by rw [← hs]; unfold State.slotOf; rw [hsch]
  have hstr (j : Nat) : v.str sl.stream j = s.str sl.stream j := by rw [hrest]; rfl
  refine ⟨State.slotOf_modSlot_some hc hslot _, fun p hne => (State.queuesBut_modSlot hc q i _ p hne).trans (hsch p), fun e he => ?_,
    hreg.trans (by rw [hreg']), hcount.trans (by rw [hstr]), hcode, ?_⟩
  · refine Eq.trans (by rw [hr]; rfl) ((hpre e).trans ?_)
    simp [he]
  · rw [hr, hrest]
    rfl

end Sys2Proof.Machine
end

section
/-! PROOF. SLOT_TAKE_PICTURE, SLOT_VOID and FILL_CLOSE (R309, R310, R324, R325, R348). -/

namespace Sys2Proof.Machine

variable {s t : State}

/-! ### SLOT_TAKE_PICTURE -/

/-- A slot that has taken a picture, whose frame it holds (R309). -/
def Slot.taking (y : Slot) (p : PicRec) : Slot := { y with pic := some p, holding := true }

/-- A stream whose latest taken picture is p (R251). -/
def Stream.tookPic (y : Stream) (p : PicRec) : Stream := { y with tookPts := p.pts, tookDerived := p.ptsDerived, took := true }

/-- The older pictures that a slot passes when it takes the newest (R309). -/
def Slot.passes (sl : Slot) (x : Stream) : List Nat := if sl.pick = 1 then x.queue.dropLast else []

/-- Stream n once the picture idx of frame f has been taken and the older ones passed (R309). -/
def State.takeFrame (s : State) (n : Nat) (older : List Nat) (idx : Nat) (f : Frame) : State :=
  ((older.foldl (fun s o => (s.takeQueued n o false).countEntry (0x2000 + n) 0x46 1) s).takeQueued n idx true).modStream n (·.tookPic f.pic)

theorem State.takeFrame_took (h : s.Inv) (n : Nat) (older : List Nat) (idx : Nat) (f : Frame) :
    s.Took (s.takeFrame n older idx f) n (older ++ [idx]) older.length := by
  have ho := (State.Took.refl h n).passAll older
  rw [List.nil_append, Nat.zero_add] at ho
  exact (ho.takeQueued idx true).modStream fun _ => rfl

theorem State.stream_takeFrame (h : s.Inv) (n : Nat) (older : List Nat) (idx : Nat) (f : Frame) :
    ∃ y : Stream, (s.takeFrame n older idx f).stream n = y.tookPic f.pic :=
  ⟨_, (State.stream_modStream (((State.Took.refl h n).passAll older).takeQueued idx true).inv ..).trans (if_pos rfl)⟩

section take
variable {q : QueueId} {i : Fin 64} {st : Step} {sl : Slot} (hs : s.slotOf q.val i.val = some (st, sl)) (hw : sl.state = .waiting)
  (hh : sl.host = false) (hf : st.state = .filling)
include hs hw hh hf

theorem slotTakePicture_empty (hq : (s.stream sl.stream).queue = []) : exec (.slotTakePicture q i) s = .next s := by
  change execSlotTakePicture q i s = _
  unfold execSlotTakePicture
  simp [hs, hw, hh, hf, hq]

theorem slotTakePicture_takes {idx : Nat} {f : Frame}
    (hidx : (if sl.pick = 1 then (s.stream sl.stream).queue.getLast? else (s.stream sl.stream).queue.head?) = some idx)
    (hframe : (s.stream sl.stream).frames.find? (fun f => f.pic.decodeIdx == idx && f.output) = some f) :
    let u := (s.takeFrame sl.stream (sl.passes (s.stream sl.stream)) idx f).modSlot q.val i.val (·.taking f.pic)
    exec (.slotTakePicture q i) s = .next (if decide (sl.dmgVoid < damageByte (some f.pic)) || (f.pic.taint && sl.taintVoid == 1) then
      (u.modSlot q.val i.val fun y => { y with state := .taken }).voidSlot q.val i.val Code.PRE_DAMAGED else u.startSlot q.val i.val) := by
  intro u
  have hopen : (sl.state != .waiting || sl.host || st.state != .filling) = false := by rw [hw, hh, hf]; rfl
  change execSlotTakePicture q i s = _
  unfold execSlotTakePicture
  simp only [hs, hopen, hidx, hframe, Bool.false_eq_true, if_false]
  exact (apply_ite Host.Outcome.next ..).symm

end take

/-! ### SLOT_VOID -/

section writes
variable {P : State → Prop} {a : Acc1} (hw : ∀ t spm x bs, P t → OptAll P (t.tWrite a spm x bs)) (hs : P s)
include hw hs

theorem State.putCodes_rec (d : Desc) (r i : Nat) (cs : List Nat) : OptAll P (s.putCodes a d r i cs) := by
  unfold State.putCodes
  split
  · exact .some hs
  · dsimp only
    split
    · exact .bind (Q := fun _ => True) .any fun _ _ => hw _ _ _ _ hs
    · exact hw _ _ _ _ hs

theorem State.putVoid_rec (d : Desc) (r n : Nat) : OptAll P (s.putVoid a d r n) := by
  unfold State.putVoid
  refine .bind (State.putCodes_rec hw hs _ _ _ _) fun v hv => ?_
  split
  · exact hw _ _ _ _ hv
  · exact .some hv

/-- What survives a write survives the void values of a job (R325). -/
theorem State.voidJob_rec (j : List Byte) (ds : List (Option Desc)) (slot : Nat) : P (s.voidJob a j ds slot).1 := by
  unfold State.voidJob
  extract_lets put x
  have hput (x : State × Bool) (f : State → Option State) (hx : P x.1) (hf : ∀ t, P t → OptAll P (f t)) : P (put x f).1 := by
    unfold put
    split
    · next t ht => exact hf _ hx t ht
    · exact hx
  clear_value put
  have hfold {β : Type} (l : List β) (f : State × Bool → β → State × Bool) (x : State × Bool) (hx : P x.1)
      (hf : ∀ x y, P x.1 → P (f x y).1) : P (l.foldl f x).1 := foldl_all (P := fun x : State × Bool => P x.1) hx hf
  have hx : P x.1 := by
    unfold x
    split
    · exact hs
    · refine hfold _ _ _ hs fun y r hy => ?_
      split <;> exact hfold _ _ _ hy fun z k hz => hput _ _ hz fun t ht => State.putVoid_rec hw ht _ _ _
  split
  · split
    · exact hfold _ _ _ hx fun y r hy => hput _ _ hy fun t ht => State.putCodes_rec hw ht _ _ _ _
    · exact hx
  · exact hx

end writes

/-- A write moves memory or a scratchpad, and neither the scheduler nor the engines. -/
theorem State.tWrite_aside (s : State) (a : Acc1) (spm : Bool) (x : Nat) (bs : List Byte) :
    OptAll (fun t => t.sch = s.sch ∧ t.vid = s.vid) (s.tWrite a spm x bs) := by
  intro t ht
  unfold State.tWrite at ht
  split_ifs at ht
  · cases ht
    exact ⟨rfl, rfl⟩
  · cases ht
    exact State.spmWrite_rec (P := fun t => t.sch = s.sch ∧ t.vid = s.vid) (fun _ _ _ h => h) (fun _ _ _ h => h) (fun _ h => h) ⟨rfl, rfl⟩ ..
  · rw [State.eq_of_outside (State.outside_memWrite ht)]
    exact ⟨rfl, rfl⟩

/-- The void values of every job of a slot (R325). -/
def State.voidJobs (s : State) (st : Step) (i : Nat) : State :=
  (st.plan.zip st.planDescs).foldl (fun s x => (s.voidJob ⟨0, st.ctx⟩ x.1 x.2 i).1) s

theorem State.voidJobs_aside (s : State) (st : Step) (i : Nat) : (s.voidJobs st i).sch = s.sch ∧ (s.voidJobs st i).vid = s.vid := by
  refine foldl_all (P := fun t : State => t.sch = s.sch ∧ t.vid = s.vid) ⟨rfl, rfl⟩ fun t x ht => ?_
  refine State.voidJob_rec (P := fun t => t.sch = s.sch ∧ t.vid = s.vid) (fun v spm y bs hv w hw => ?_) ht ..
  obtain ⟨h1, h2⟩ := State.tWrite_aside v _ spm y bs w hw
  exact ⟨h1.trans hv.1, h2.trans hv.2⟩

/-- The state once the picture that a slot holds has been let go. -/
def State.letGo (s : State) (sl : Slot) : State := match sl.holding, sl.pic with | true, some p => s.unhold p | _, _ => s

theorem State.letGo_rest (h : s.Inv) (sl : Slot) : (s.letGo sl).sch = s.sch ∧ (s.letGo sl).vid = s.vid ∧ (s.letGo sl).mem = s.mem := by
  unfold State.letGo
  split
  · rw [State.unhold_rest h]
    exact ⟨rfl, rfl, rfl⟩
  · exact ⟨rfl, rfl, rfl⟩

section void
variable {q : QueueId} {i : Fin 64} {st : Step} {sl : Slot} (hs : s.slotOf q.val i.val = some (st, sl))
include hs

theorem slotVoid_waits (hw : sl.voidDue = false ∨ s.vid.power = 2 ∨ 2 ≤ s.power) : exec (.slotVoid q i) s = .next s := by
  change execSlotVoid q i s = _
  unfold execSlotVoid
  rw [hs]
  refine if_pos ?_
  simpa [or_assoc] using hw

theorem slotVoid_writes (hd : sl.voidDue = true) (hv : s.vid.power ≠ 2) (hp : s.power < 2) : exec (.slotVoid q i) s =
    .next ((((s.letGo sl).voidJobs st i.val).modSlot q.val i.val fun x => { x with voidDue := false, holding := false }).checkReady q.val) := by
  change execSlotVoid q i s = _
  unfold execSlotVoid
  rw [hs]
  refine (if_neg ?_).trans rfl
  simpa [hd, hv] using hp

end void

/-! ### FILL_CLOSE -/

/-- A queue whose fill window has closed (R348). -/
def State.shutFill (s : State) (q : Nat) : State := s.setQueue q { (s.queue q) with mayOpen := false }

theorem State.queue_shutFill (h : s.Inv) (q : Nat) : (s.shutFill q).queue q = { s.queue q with mayOpen := false } :=
  (State.queue_setQueue h ..).trans (if_pos rfl)

theorem State.held_shutFill (h : s.Inv) (q : Nat) : ((s.shutFill q).queue q).held = (s.queue q).held := by rw [State.queue_shutFill h]

theorem State.queuesBut_shutFill (h : s.Inv) (q : Nat) : s.QueuesBut (s.shutFill q) q := fun _ hp => (State.queue_setQueue h ..).trans (if_neg hp)

theorem State.closeFill_shuts (h : s.Inv) (q : Nat) (hn : ∀ st, (s.queue q).held = some st → st.state ≠ .filling) :
    s.closeFill q = s.shutFill q := by
  unfold State.closeFill
  extract_lets u
  split
  · rfl
  · next st hst =>
    have := hn st ((State.held_shutFill h q).symm.trans hst)
    exact if_pos (by simpa using this)

/-- The fill close of a step of one slot (R324, R348). -/
theorem State.closeFill_voids (h : s.Inv) (q : Nat) {st : Step} {sl : Slot} (hq : (s.queue q).held = some st) (hf : st.state = .filling)
    (hsl : st.slots = [sl]) (ho : sl.state = .waiting ∨ sl.state = .taken) :
    s.closeFill q = (s.shutFill q).voidSlot q 0 (if sl.state = .waiting then 0 else Code.PRE_CLOSED) := by
  unfold State.closeFill
  change (match ((s.shutFill q).queue q).held with | none => s.shutFill q | some st => _) = _
  rw [State.held_shutFill h, hq]
  rcases ho with ho | ho <;> simp [hf, hsl, ho, State.shutFill]

theorem fillClose_none {q : QueueId} (hp : (s.queue q.val).hasPeriods = false) : exec (.fillClose q) s = .next s :=
  if_neg (by rw [hp]; decide)

theorem fillClose_closes {q : QueueId} (hp : (s.queue q.val).hasPeriods = true) : exec (.fillClose q) s = .next (s.closeFill q.val) :=
  if_pos hp

end Sys2Proof.Machine
end

section
/-! PROOF. O34. -/

namespace Sys2Proof.Machine

/-- Settles O34: what a slot takes from the delivery queue leaves the scheduler, the engines and the memory alone; a void slot's due values
keep its step from becoming ready. -/
theorem slotsTakeAndVoid : Obligations.SlotsTakeAndVoid := by
  unfold Obligations.SlotsTakeAndVoid
  refine ⟨fun s q i st sl h hs hw hh hf => ⟨fun hq => slotTakePicture_empty hs hw hh hf hq, fun idx f hidx hframe => ?_⟩,
    fun s q i code st sl h hs hf ho hp => ?_,
    fun s q i st sl h hs => ⟨fun hw => slotVoid_waits hs hw, fun hd hv hp => ?_⟩,
    fun s q h => ⟨fun hp => fillClose_none hp, fun hp hn => ?_, fun st sl hp hq hf hsl ho => ?_⟩⟩
  · have ht := State.takeFrame_took h sl.stream (sl.passes (s.stream sl.stream)) idx f
    obtain ⟨y, hy⟩ := State.stream_takeFrame h sl.stream (sl.passes (s.stream sl.stream)) idx f
    refine ⟨_, slotTakePicture_takes hs hw hh hf hidx hframe, ?_⟩
    generalize s.takeFrame sl.stream _ idx f = v at ht hy ⊢
    have hsch : v.sch = s.sch := by rw [ht.rest]
    refine ⟨State.slotOf_modSlot_some ht.inv ((State.slotOf_of_sch hsch ..).trans hs) _, fun p hne => ?_, ?_, ?_, ?_, ?_, ht.streams, ?_,
      fun _ => ht.passed, ht.regs, ?_⟩
    · refine (State.queuesBut_modSlot ht.inv _ _ _ p hne).trans ?_
      unfold State.queue
      rw [hsch]
    · exact ht.queue_last
    · exact congrArg Stream.tookPts hy
    · exact congrArg Stream.tookDerived hy
    · exact congrArg Stream.took hy
    · exact ht.taken_last
    · rw [ht.rest]
      rfl
  · obtain ⟨hslot, hbut, hpre, hrest⟩ := State.voidSlot_voids (code := code) h hs hf ho hp
    refine ⟨hslot, hbut, fun e he => (hpre e he).trans ?_, hrest⟩
    cases hx : Tbl.get none s.vid.pre e <;> simp [State.worksFor, hx]
  · obtain ⟨hsch, hvid, hmem⟩ := State.letGo_rest h sl
    obtain ⟨hsch', hvid'⟩ := (s.letGo sl).voidJobs_aside st i.val
    exact ⟨hsch'.trans hsch, hvid'.trans hvid, hmem, slotVoid_writes hs hd hv hp⟩
  · exact ⟨_, (fillClose_closes hp).trans (congrArg Host.Outcome.next (State.closeFill_shuts h q.val hn)), State.queue_shutFill h q.val,
      State.queuesBut_shutFill h q.val, rfl⟩
  · exact ⟨s.shutFill q.val, State.queue_shutFill h q.val, rfl,
      (fillClose_closes hp).trans (congrArg Host.Outcome.next (State.closeFill_voids h q.val hq hf hsl ho))⟩

end Sys2Proof.Machine
end

section
/-! PROOF. Work items: their start on a free engine, and their end (R311, R312, R316, R322, R327, R331). -/

namespace Sys2Proof.Machine

variable {s t w : State} {e : Fin 4} {it : Item} {st : Step} {sl : Slot}

/-! ### WORK_ITEM_START -/

/-- The engines with engine e at an item, or free. -/
def State.setPre (s : State) (e : Nat) (x : Option Item) : State := { s with vid := { s.vid with pre := Tbl.set none s.vid.pre e x } }

theorem State.setPre_inv (h : s.Inv) (e : Nat) (x : Option Item) : (s.setPre e x).Inv :=
  { h with vid := Video.ok_mk h.vid.ee h.vid.pe (Tbl.ok_set h.vid.pre) }

theorem State.pre_setPre (h : s.Inv) (e d : Nat) (x : Option Item) :
    Tbl.get none (s.setPre e x).vid.pre d = if d = e then x else Tbl.get none s.vid.pre d := Tbl.get_set h.vid.pre e d x

/-- An item needs the augmentation record of its slot (R322). -/
def Step.needsAug (st : Step) (sl : Slot) (it : Item) : Bool :=
  jobAug (st.plan.getD it.job []) && st.aug && !(sl.host && jobKind (st.plan.getD it.job []) != 3)

/-- The region list of a slot: latched, or read by its first item (R311). -/
def State.listFor (s : State) (sl : Slot) : Option (List Byte) :=
  match sl.latched with
  | some l => some l
  | none => if sl.host then some [] else s.regionBytes sl.stream

/-- The augmentation record of a slot: as read before, or read by the first item that needs it (R322). -/
def State.augFor (s : State) (st : Step) (sl : Slot) (it : Item) : Option (List Byte) :=
  match sl.aug with
  | some r => some r
  | none => s.memRead (s.ctx st.ctx 0x07 + st.augOff + 32 * it.slot) 32

/-- A slot of which an engine has taken an item. -/
def Slot.begun (x : Slot) (it : Item) (aug : Option (List Byte)) (l : List Byte) : Slot :=
  { x with latched := some l, aug := aug, items := x.items.erase (it.job, it.region), running := x.running + 1 }

/-- Engine e has taken an item. -/
def State.startItem (s : State) (e : Nat) (it : Item) (aug : Slot → Option (List Byte)) (l : List Byte) : State :=
  (s.setPre e (some it)).modSlot it.queue it.slot fun x => x.begun it (aug x) l

theorem State.startItem_starts (h : s.Inv) (hs : s.slotOf it.queue it.slot = some (st, sl)) (e : Nat)
    (aug : Slot → Option (List Byte)) (l : List Byte) :
    let t := s.startItem e it aug l
    Tbl.get none t.vid.pre e = some it ∧ (∀ d, d ≠ e → Tbl.get none t.vid.pre d = Tbl.get none s.vid.pre d) ∧ s.QueuesBut t it.queue ∧
    (∃ st', t.slotOf it.queue it.slot = some (st', sl.begun it (aug sl) l)) ∧
    t = { s with vid := { s.vid with pre := t.vid.pre }, sch := { s.sch with queues := t.sch.queues } } := by
  have hp := State.setPre_inv h e (some it)
  exact ⟨(State.pre_setPre h ..).trans (if_pos rfl), fun d hd => (State.pre_setPre h ..).trans (if_neg hd), State.queuesBut_modSlot hp _ _ _,
    ⟨_, State.slotOf_modSlot_some hp hs _⟩, rfl⟩

/-- What a free engine does with the best item: the slot becomes void where its record or list does not read or the record is out of
range (R322 to R324). -/
def State.startOn (s : State) (e : Nat) (it : Item) (st : Step) (sl : Slot) : Option (List Byte) → Option (List Byte) → State
  | some r, some l =>
    if st.needsAug sl it && !augOk r (jobFilter (st.plan.getD it.job [])) then s.voidSlot it.queue it.slot Code.PRE_AUG
    else s.startItem e it (fun x => if st.needsAug sl it then some r else x.aug) l
  | _, _ => s.voidSlot it.queue it.slot Code.PRE_MEM_UE

theorem workItemStart_none (hb : s.bestItem = none) : exec (.workItemStart e) s = .next s := by
  change execWorkItemStart e s = _
  simp [execWorkItemStart, hb]

section start
variable (he : Tbl.get none s.vid.pre e.val = none) (hon : (s.entry 0x2100 0x01).testBit e.val = true) (hp : s.vid.power = 0)
  (hb : s.bestItem = some it) (hs : s.slotOf it.queue it.slot = some (st, sl))
include he hon hp hb hs

theorem workItemStart_best : exec (.workItemStart e) s =
    .next (s.startOn e.val it st sl (if st.needsAug sl it then s.augFor st sl it else some augIdentity) (s.listFor sl)) := by
  change execWorkItemStart e s = _
  unfold execWorkItemStart
  rw [if_neg (by simp [he, hon, hp]), hb]
  simp only [hs]
  suffices hread : ∀ r l : Option (List Byte), (match r, l with
      | some r, some l => if st.needsAug sl it && !augOk r (jobFilter (st.plan.getD it.job [])) then go (s.voidSlot it.queue it.slot Code.PRE_AUG)
        else go (s.startItem e.val it (fun x => if st.needsAug sl it then some r else x.aug) l)
      | _, _ => go (s.voidSlot it.queue it.slot Code.PRE_MEM_UE)) = .next (s.startOn e.val it st sl r l) from hread _ (s.listFor sl)
  rintro (_ | r) (_ | l)
  · rfl
  · rfl
  · rfl
  · exact (apply_ite Host.Outcome.next ..).symm

theorem workItemStart_takes {r l : List Byte} (hn : st.needsAug sl it = true) (hr : s.augFor st sl it = some r) (hl : s.listFor sl = some l)
    (hok : augOk r (jobFilter (st.plan.getD it.job [])) = true) : exec (.workItemStart e) s = .next (s.startItem e.val it (fun _ => some r) l) := by
  rw [workItemStart_best he hon hp hb hs, hn, if_pos rfl, hr, hl]
  simp only [State.startOn, hn, hok, Bool.not_true, Bool.and_false, Bool.false_eq_true, if_false, if_true]

theorem workItemStart_takesPlain {l : List Byte} (hn : st.needsAug sl it = false) (hl : s.listFor sl = some l) :
    exec (.workItemStart e) s = .next (s.startItem e.val it (·.aug) l) := by
  rw [workItemStart_best he hon hp hb hs, hn, hl]
  simp [State.startOn, hn]

theorem workItemStart_badAug {r l : List Byte} (hn : st.needsAug sl it = true) (hr : s.augFor st sl it = some r) (hl : s.listFor sl = some l)
    (hbad : augOk r (jobFilter (st.plan.getD it.job [])) = false) :
    exec (.workItemStart e) s = .next (s.voidSlot it.queue it.slot Code.PRE_AUG) := by
  rw [workItemStart_best he hon hp hb hs, hn, if_pos rfl, hr, hl]
  simp only [State.startOn, hn, hbad, Bool.not_false, Bool.and_true, if_true]

theorem workItemStart_unread (hu : (st.needsAug sl it = true ∧ s.augFor st sl it = none) ∨ s.listFor sl = none) :
    exec (.workItemStart e) s = .next (s.voidSlot it.queue it.slot Code.PRE_MEM_UE) := by
  rw [workItemStart_best he hon hp hb hs]
  rcases hu with ⟨hn, hr⟩ | hl
  · rw [hn, if_pos rfl, hr]
    rfl
  · rw [hl]
    simp [State.startOn]

end start

/-! ### WORK_ITEM_DONE -/

theorem workItemDone_idle (he : Tbl.get none s.vid.pre e.val = none) (cycles : Nat) : exec (.workItemDone e cycles) s = .next s := by
  change execWorkItemDone e cycles s = _
  unfold execWorkItemDone
  rw [he]

/-- An engine is free again after an item of context c, whose cycles count for both (R331). -/
def State.itemEnds (s : State) (e c cycles : Nat) : State := (s.setPre e none).preBusy e c cycles

theorem State.itemEnds_ends (h : s.Inv) (e c cycles : Nat) :
    let t := s.itemEnds e c cycles
    t.Inv ∧ Tbl.get none t.vid.pre e = none ∧
    (∀ d, d ≠ e → Tbl.get none t.vid.pre d = Tbl.get none s.vid.pre d) ∧
    t.reg (preBase + 0x20 + 8 * e) = s.reg (preBase + 0x20 + 8 * e) + BitVec.ofNat 64 cycles ∧
    s.RegsBut t [preBase + 0x20 + 8 * e] ∧
    t.ctxSt c = { s.ctxSt c with pre := (s.ctxSt c).pre + cycles } ∧
    (∀ d, d ≠ c → t.ctxSt d = s.ctxSt d) ∧
    t = { s with regs := t.regs, vid := { s.vid with pre := t.vid.pre },
                                     sch := { s.sch with ctxs := t.sch.ctxs } } := by
  have hp := State.setPre_inv h e none
  have hc := State.count_inv hp (preBase + 0x20 + 8 * e) cycles
  exact ⟨State.setCtxSt_inv hc .., (State.pre_setPre h ..).trans (if_pos rfl), fun d hd => (State.pre_setPre h ..).trans (if_neg hd),
    (State.reg_count hp ..).trans (if_pos rfl), fun k hk => (State.reg_count hp ..).trans (if_neg (by simpa using hk)),
    (State.ctxSt_setCtxSt hc ..).trans (if_pos rfl), fun d hd => (State.ctxSt_setCtxSt hc ..).trans (if_neg hd), rfl⟩

/-- The counters of an item that is done (R331). -/
def State.countItem (w : State) (st : Step) (sl : Slot) (it : Item) (px sat : Nat) : State :=
  let v := (w.count (preBase + 0x40) px).count (preBase + 0x48) sat
  let v := if !st.isWork sl it.job then v else (v.count (preBase + 0x50) 1).countEntry 0x2100 0x02 1
  v.countEntry 0x2100 0x03 px

theorem State.countItem_counts (h : w.Inv) (st : Step) (sl : Slot) (it : Item) (px sat : Nat) :
    let t := w.countItem st sl it px sat
    t.Inv ∧
    t.reg (preBase + 0x40) = w.reg (preBase + 0x40) + BitVec.ofNat 64 px ∧
    t.reg (preBase + 0x48) = w.reg (preBase + 0x48) + BitVec.ofNat 64 sat ∧
    t.entry 0x2100 0x03 = (w.entry 0x2100 0x03 + px) % 2 ^ 64 ∧
    w.RegsBut t [preBase + 0x40, preBase + 0x48, preBase + 0x50] ∧
    w.EntriesBut t [dkey 0x2100 2, dkey 0x2100 3] ∧
    t = { w with regs := t.regs, dict := t.dict } := by
  dsimp only
  unfold State.countItem
  extract_lets v x
  have hp := State.count_inv h (preBase + 0x40) px
  have hv : v.Inv := State.count_inv hp ..
  have hreg (k : Nat) : v.reg k = if k = preBase + 0x48 then w.reg (preBase + 0x48) + BitVec.ofNat 64 sat
      else if k = preBase + 0x40 then w.reg (preBase + 0x40) + BitVec.ofNat 64 px else w.reg k := by
    unfold v
    rw [State.reg_count hp, State.reg_count h, State.reg_count h, if_neg (by decide : preBase + 0x48 ≠ preBase + 0x40)]
  have hentry (i j : Nat) : v.entry i j = w.entry i j := rfl
  have hrest : v = { w with regs := v.regs, dict := v.dict } := rfl
  clear_value v
  have hx : x.Inv ∧ (∀ k, k ≠ preBase + 0x50 → x.reg k = v.reg k) ∧ (∀ i j, dkey i j ≠ dkey 0x2100 2 → x.entry i j = v.entry i j) ∧
      x = { v with regs := x.regs, dict := x.dict } := by
    unfold x
    split
    · exact ⟨hv, fun _ _ => rfl, fun _ _ _ => rfl, rfl⟩
    · have hc := State.count_inv hv (preBase + 0x50) 1
      exact ⟨State.countEntry_inv hc .., fun k hk => (State.reg_count hv ..).trans (if_neg hk),
        fun i j hj => (State.entry_countEntry hc ..).trans (if_neg hj), rfl⟩
  clear_value x
  obtain ⟨hi, hxreg, hxentry, hxrest⟩ := hx
  refine ⟨State.countEntry_inv hi .., ?_, ?_, ?_, fun k hk => ?_, fun i j hj => ?_, ?_⟩
  · rw [State.reg_countEntry, hxreg _ (by decide), hreg, if_neg (by decide), if_pos rfl]
  · rw [State.reg_countEntry, hxreg _ (by decide), hreg, if_pos rfl]
  · rw [State.entry_countEntry hi, if_pos rfl, hxentry _ _ (by decide), hentry]
  · obtain ⟨h40, h48, h50⟩ : k ≠ preBase + 0x40 ∧ k ≠ preBase + 0x48 ∧ k ≠ preBase + 0x50 := by simpa using hk
    rw [State.reg_countEntry, hxreg _ h50, hreg, if_neg h48, if_neg h40]
  · obtain ⟨h2, h3⟩ : dkey i j ≠ dkey 0x2100 2 ∧ dkey i j ≠ dkey 0x2100 3 := by simpa using hj
    rw [State.entry_countEntry hi, if_neg h3, hxentry _ _ h2, hentry]
  · rw [hxrest, hrest]
    rfl

/-- An item of a slot is done. -/
def State.itemDone (w : State) (st : Step) (sl : Slot) (it : Item) (px sat : Nat) : State :=
  (w.countItem st sl it px sat).modSlot it.queue it.slot fun x => { x with running := x.running - 1 }

section done
variable {cycles : Nat} (he : Tbl.get none s.vid.pre e.val = some it)
include he

theorem workItemDone_gone (hs : s.slotOf it.queue it.slot = none) :
    exec (.workItemDone e cycles) s = .next ((s.setPre e.val none).count (preBase + 0x20 + 8 * e.val) cycles) := by
  have hs' : (s.setPre e.val none).slotOf it.queue it.slot = none := hs
  change execWorkItemDone e cycles s = _
  unfold execWorkItemDone
  rw [he]
  change (match (s.setPre e.val none).slotOf it.queue it.slot with | none => _ | some (st, sl) => _) = _
  rw [hs']
  rfl

variable (hs : s.slotOf it.queue it.slot = some (st, sl))
include hs

theorem workItemDone_unread (hr : (s.itemEnds e.val st.ctx cycles).runItem st sl it = none) :
    exec (.workItemDone e cycles) s = .next ((s.itemEnds e.val st.ctx cycles).voidSlot it.queue it.slot Code.PRE_MEM_UE) := by
  have hs' : (s.setPre e.val none).slotOf it.queue it.slot = some (st, sl) := hs
  change execWorkItemDone e cycles s = _
  unfold execWorkItemDone
  rw [he]
  change (match (s.setPre e.val none).slotOf it.queue it.slot with | none => _ | some (st, sl) => _) = _
  rw [hs']
  change (match (s.itemEnds e.val st.ctx cycles).runItem st sl it with | none => _ | some (w, px, sat) => _) = _
  rw [hr]
  rfl

theorem workItemDone_done {px sat : Nat} (hr : (s.itemEnds e.val st.ctx cycles).runItem st sl it = some (w, px, sat)) :
    exec (.workItemDone e cycles) s = .next (if sl.running ≤ 1 ∧ sl.items = [] then
      (w.itemDone st sl it px sat).fillSlot it.queue it.slot sl else w.itemDone st sl it px sat) := by
  have hs' : (s.setPre e.val none).slotOf it.queue it.slot = some (st, sl) := hs
  change execWorkItemDone e cycles s = _
  unfold execWorkItemDone
  rw [he]
  change (match (s.setPre e.val none).slotOf it.queue it.slot with | none => _ | some (st, sl) => _) = _
  rw [hs']
  change (match (s.itemEnds e.val st.ctx cycles).runItem st sl it with | none => _ | some (w, px, sat) => _) = _
  rw [hr, apply_ite Host.Outcome.next]
  change (if (sl.running ≤ 1 && sl.items.isEmpty) = true then _ else _) = _
  simp only [Bool.and_eq_true, decide_eq_true_eq, List.isEmpty_iff]
  rfl

end done

end Sys2Proof.Machine
end

section
/-! PROOF. O35. -/

namespace Sys2Proof.Machine

/-- Settles O35: an item that starts moves the engines' table and its slot alone; one that ends counts, and what it writes to memory is
`runItem`'s. -/
theorem workItemsRun : Obligations.WorkItemsRun := by
  unfold Obligations.WorkItemsRun
  refine ⟨fun s e h he hon hp => ⟨fun hb => workItemStart_none hb, fun it st sl hb hs => ?_⟩, fun s e cycles he => workItemDone_idle he cycles,
    fun s e cycles it h he hs => ?_, fun s e cycles it st sl h he hs => ?_⟩
  · have hstart (aug : Slot → Option (List Byte)) (l : List Byte) := State.startItem_starts h hs e.val aug l
    refine ⟨fun l hn hl => ?_, fun r l hn hr hl hok => ?_, fun r l hn hr hl hbad => workItemStart_badAug he hon hp hb hs hn hr hl hbad,
      fun hu => workItemStart_unread he hon hp hb hs hu⟩
    · obtain ⟨hpre, hothers, hbut, ⟨st', hslot⟩, hrest⟩ := hstart (·.aug) l
      exact ⟨_, workItemStart_takesPlain he hon hp hb hs hn hl, hpre, hothers, hbut, ⟨st', _, hslot, rfl⟩, hrest⟩
    · obtain ⟨hpre, hothers, hbut, ⟨st', hslot⟩, hrest⟩ := hstart (fun _ => some r) l
      exact ⟨_, workItemStart_takes he hon hp hb hs hn hr hl hok, hpre, hothers, hbut, ⟨st', _, hslot, rfl⟩, hrest⟩
  · have hp := State.setPre_inv h e.val none
    refine ⟨_, workItemDone_gone he hs, (State.pre_setPre h ..).trans (if_pos rfl), fun d hd => (State.pre_setPre h ..).trans (if_neg hd),
      (State.reg_count hp ..).trans (if_pos rfl), fun k hk => (State.reg_count hp ..).trans (if_neg (by simpa using hk)), ?_⟩
    rfl
  · obtain ⟨hi, hpre, hothers, hreg, hregs, hctx, hctxs, hrest⟩ := State.itemEnds_ends h e.val st.ctx cycles
    refine ⟨_, hpre, hothers, hreg, hregs, hctx, hctxs, hrest, fun hr => workItemDone_unread he hs hr, fun w px sat hr => ?_⟩
    have hw : w.Inv := (State.runItem_keep _ st sl it (Kept.refl _) _ hr).inv hi
    obtain ⟨hc, hpx, hsat, hcount, hbut, hentries, hcrest⟩ := State.countItem_counts hw st sl it px sat
    have hqueue (p : Nat) : (w.countItem st sl it px sat).queue p = w.queue p := by rw [hcrest]; rfl
    refine ⟨w.itemDone st sl it px sat, hpx, hsat, hcount, hbut, hentries, fun p hp => ?_, ?_, ?_, workItemDone_done he hs hr⟩
    · exact (State.queuesBut_modSlot hc it.queue it.slot _ p hp).trans (hqueue p)
    · exact (congrArg State.mem hcrest :)
    · exact (State.held_modStep hc ..).trans (by rw [hqueue])

end Sys2Proof.Machine
end

section
/-! PROOF. What a refusal leaves alone, and the record that it puts at the head of the error log (R379, R504, R557). -/

namespace Sys2Proof.Machine

variable {s t u : State}

/-! ### A record of the error log -/

/-- LOGGED and LOST (R557). -/
abbrev logKeys : List Nat := [dkey 0x6000 1, dkey 0x6000 3]

/-- From s to t an error has been recorded: registers, the error log with its counts, and what leaves the port have moved. -/
structure State.Logs (s t : State) : Prop where
  inv : t.Inv
  entries : s.EntriesBut t logKeys
  rest : ∃ r d l o p, t = { s with regs := r, dict := d, log := l, out := o, hp := p }

namespace State.Logs

/-- The parts that may differ, named by the later state. -/
theorem rest_eq (h : s.Logs t) : t = { s with regs := t.regs, dict := t.dict, log := t.log, out := t.out, hp := t.hp } := by
  obtain ⟨_, _, _, _, _, rfl⟩ := h.rest
  rfl

theorem sch (h : s.Logs t) : t.sch = s.sch := by rw [h.rest_eq]

theorem queue (h : s.Logs t) (q : Nat) : t.queue q = s.queue q := by rw [h.rest_eq]; rfl

end State.Logs

theorem State.fnErr_rest (s : State) (code : W16) (k : Nat) : ∃ r o p, s.fnErr code k = { s with regs := r, out := o, hp := p } := by
  obtain ⟨r, hr⟩ := State.errReg_regs s (hpBase + 0x800 + 8 * k) code.toNat
  unfold State.fnErr State.msix
  rw [hr]
  split
  · exact ⟨_, _, _, (State.PortMoves.issue { s with regs := r } ..).rest⟩
  · exact ⟨_, _, _, rfl⟩

theorem State.logRec_rest (s : State) (code : W16) (origin kind obj detail : Nat) :
    ∃ d l, s.logRec code origin kind obj detail = { s with dict := d, log := l } := by
  unfold State.logRec
  dsimp only
  split <;> exact ⟨_, _, rfl⟩

/-- The newest record stands first (R557). -/
theorem State.head_log_logErr (s : State) (code : W16) (origin kind obj detail : Nat) (fn : Option Nat) :
    (s.logErr code origin kind obj detail fn).log.head? = some ⟨s.entry 0x6000 1 + 1, code, origin, kind, obj, detail⟩ := by
  have hrec : (s.logRec code origin kind obj detail).log.head? = some ⟨s.entry 0x6000 1 + 1, code, origin, kind, obj, detail⟩ := rfl
  cases fn with
  | none => exact hrec
  | some k =>
    obtain ⟨r, o, p, he⟩ := State.fnErr_rest (s.logRec code origin kind obj detail) code k
    change ((s.logRec code origin kind obj detail).fnErr code k).log.head? = _
    rw [he]
    exact hrec

theorem State.logErr_logs (h : s.Inv) (code : W16) (origin kind obj detail : Nat) (fn : Option Nat) :
    s.Logs (s.logErr code origin kind obj detail fn) := by
  refine ⟨State.logErr_inv h .., State.entriesBut_logErr h code origin kind obj detail fn, ?_⟩
  obtain ⟨d, l, hr⟩ := State.logRec_rest s code origin kind obj detail
  unfold State.logErr
  rw [hr]
  cases fn with
  | none => exact ⟨_, _, _, _, _, rfl⟩
  | some k =>
    obtain ⟨r, o, p, he⟩ := State.fnErr_rest { s with dict := d, log := l } code k
    exact ⟨r, d, l, o, p, he⟩

/-! ### Codes of the scheduler's family -/

/-- A code of family 7 also enters SCH_ERR, and nothing else (R379). -/
theorem State.famErr_sch (s : State) {code : W16} (hc : code.toNat / 256 = 7) (k : Nat) :
    s.famErr code k = s.errReg (schBase + 0x80) code.toNat := by
  have hne : code ≠ Code.MEM_PARAM_BLOCK := by
    rintro rfl
    exact absurd hc (by decide)
  unfold State.famErr
  simp only [hc, hne]
  rfl

/-- A refusal of the scheduler: its record, and SCH_ERR (R379, R504). -/
theorem State.schRefusal (h : s.Inv) {code : W16} (hc : code.toNat / 256 = 7) (k kind obj detail : Nat) :
    let t := (s.rejectV code k kind obj detail).famErr code k
    s.Logs t ∧ t.log.head? = some ⟨s.entry 0x6000 1 + 1, code, k, kind, obj, detail % 2 ^ 32⟩ ∧
      ∀ a, a ≠ schBase + 0x80 → a ≠ hpBase + 0x800 + 8 * k → t.reg a = s.reg a := by
  have hl := State.logErr_logs h code k kind obj (detail % 2 ^ 32) (some k)
  have hh := State.head_log_logErr s code k kind obj (detail % 2 ^ 32) (some k)
  have hreg (a : Nat) (ha : a ≠ hpBase + 0x800 + 8 * k) := State.reg_logErr h ha code k kind obj (detail % 2 ^ 32)
  unfold State.rejectV
  generalize s.logErr code k kind obj (detail % 2 ^ 32) (some k) = u at hl hh hreg ⊢
  have hi := State.errReg_inv hl.inv (schBase + 0x80) code.toNat
  obtain ⟨r, hr⟩ := State.errReg_regs u (schBase + 0x80) code.toNat
  dsimp only
  rw [State.famErr_sch _ hc]
  refine ⟨⟨hi, fun i j hj => ?_, ?_⟩, ?_, fun a ha hk => (State.reg_errReg_ne hl.inv ha _).trans (hreg a hk)⟩
  · rw [hr]
    exact hl.entries i j hj
  · obtain ⟨_, _, _, _, _, rfl⟩ := hl.rest
    exact ⟨_, _, _, _, _, hr⟩
  · rw [hr]
    exact hh

end Sys2Proof.Machine
end

section
/-! PROOF. O37: queue commands and doorbells (R339, R340, R369, R379, Tables 10.3 and 10.12). -/

namespace Sys2Proof.Machine

variable {s t u : State} {fn : Fn} {q : QueueId} {code : W16}

/-! ### Results of queue commands -/

theorem schReg_ne_schErr (fn : Fn) {o : Nat} (ho : o < 0x80) : schReg fn.val o ≠ schBase + 0x80 := by
  unfold schReg fnReg schBase
  omega

theorem schReg_ne_fnErr (fn : Fn) {o : Nat} (ho : o < 0x80) : schReg fn.val o ≠ hpBase + 0x800 + 8 * fn.val := by
  have := fn.isLt
  unfold schReg fnReg schBase hpBase
  omega

theorem schReg_inj {k o p : Nat} : schReg k o = schReg k p ↔ o = p := by
  unfold schReg fnReg
  omega

/-- A command that is taken shows DONE and no code. -/
theorem State.qResult_taken (s : State) (k q : Nat) : s.qResult k q 0 = s.setReg (schReg k 0x28) 0x10000 := rfl

/-- A refused command shows its code, which is logged; no queue changes (R339, R379). -/
theorem State.qResult_refused (h : s.Inv) (fn : Fn) (q : Nat) (hc : code.toNat / 256 = 7) :
    let t := s.qResult fn.val q code
    (∀ p, t.queue p = s.queue p) ∧ t.reg (schReg fn.val 0x28) = BitVec.ofNat 64 (code.toNat + 0x10000) ∧
      t.log.head? = some ⟨s.entry 0x6000 1 + 1, code, fn.val, 3, q, 0⟩ := by
  have hne : code ≠ 0 := by
    rintro rfl
    exact absurd hc (by decide)
  have hr := State.setReg_inv h (schReg fn.val 0x28) (BitVec.ofNat 64 (code.toNat + 0x10000))
  obtain ⟨hl, hh, hreg⟩ := State.schRefusal hr hc fn.val 3 q 0
  unfold State.qResult
  dsimp only
  rw [if_neg hne]
  exact ⟨hl.queue, (hreg _ (schReg_ne_schErr fn (by decide)) (schReg_ne_fnErr fn (by decide))).trans (State.reg_setReg_self h ..), hh⟩

/-- The first code of a list is one of it. -/
theorem mem_of_firstCode {l : List (Option W16)} (h : firstCode l = some code) : some code ∈ l := by
  induction l with
  | nil => cases h
  | cons c l ih =>
    cases c with
    | none => exact List.mem_cons_of_mem _ (ih h)
    | some d => exact h ▸ List.mem_cons_self ..

theorem ite_code {c : Prop} [Decidable c] {d : W16} (h : some code = if c then some d else none) : code = d :=
  (Option.some.inj (Option.ite_none_right_eq_some.1 h.symm).2).symm

/-- The checks of Table 10.3 give codes of the scheduler's family. -/
theorem State.bindCode_family {k : Nat} {r : List Byte} (h : s.bindCode k r = some code) : code.toNat / 256 = 7 := by
  have hm := mem_of_firstCode h
  have hcode : code = Code.SCH_Q_RANGE ∨ code = Code.SCH_Q_CONTEXT := by
    simp only [List.mem_cons, List.not_mem_nil, or_false] at hm
    rcases hm with e | e | e | e | e | e | e | e | e | e
    all_goals have := ite_code e; tauto
  rcases hcode with rfl | rfl <;> decide

theorem Queue.doorCode_family {x : Queue} {k : Nat} {tail : W32} (h : x.doorCode k tail = some code) : code.toNat / 256 = 7 := by
  have hcode : code = Code.SCH_DB_UNBOUND ∨ code = Code.SCH_DB_OWNER ∨ code = Code.SCH_DB_RANGE := by
    unfold Queue.doorCode at h
    split_ifs at h
    · exact .inl (Option.some.inj h).symm
    · exact .inr (.inl (Option.some.inj h).symm)
    · exact .inr (.inr (Option.some.inj h).symm)
  rcases hcode with rfl | rfl | rfl <;> decide

/-! ### The commands -/

section serving
variable (hs : s.Serving fn.val)
include hs

theorem execBind_serving (now : Nat) : exec (.bind fn q now) s = .next (((s.received 4).timeIs now).qBind fn.val q.val) :=
  State.hostAct_serving hs 4 fun s => (s.timeIs now).qBind fn.val q.val

theorem execUnbind_serving : exec (.unbind fn q) s = .next ((s.received 4).qUnbind fn.val q.val) :=
  State.hostAct_serving hs 4 fun s => s.qUnbind fn.val q.val

theorem execQueueRead_serving : exec (.queueRead fn q) s = .next ((s.received 4).qRead fn.val q.val) :=
  State.hostAct_serving hs 4 fun s => s.qRead fn.val q.val

theorem execDoorbellWrite_serving (tail : W32) : exec (.doorbellWrite fn q tail) s = .next ((s.received 4).doorbell fn.val q.val tail) :=
  State.hostAct_serving hs 4 fun s => s.doorbell fn.val q.val tail

end serving

/-! ### Their effects -/

/-- The record of a queue that a BIND has bound (R339, R344). -/
def Queue.rebound (x : Queue) (r : List Byte) : Queue :=
  { bound := true, record := r, lastCode := x.lastCode, stale := x.stale + (if x.fetching then 1 else 0) }

theorem State.qBind_bound {k q : Nat} (hb : (s.queue q).bound = true) : s.qBind k q = s.qResult k q Code.SCH_Q_STATE := by
  simp only [State.qBind, hb, if_true]

theorem State.qBind_rejected {k q : Nat} (hb : (s.queue q).bound = false) (hc : s.bindCode k (s.qRec k) = some code) :
    s.qBind k q = s.qResult k q code := by
  simp only [State.qBind, hb, hc, Bool.false_eq_true, if_false]

/-- A queue that does not count periods of its own. -/
theorem State.qBind_taken {k q : Nat} (hb : (s.queue q).bound = false) (hc : s.bindCode k (s.qRec k) = none) {y : Queue}
    (hy : y = (s.queue q).rebound (s.qRec k)) (hown : ¬(y.lead = 0xFF ∧ y.f 0x14 4 ≠ 0)) : s.qBind k q = (s.setQueue q y).qResult k q 0 := by
  subst hy
  simp only [State.qBind, hb, hc, Bool.false_eq_true, if_false]
  exact congrArg (fun u : State => u.qResult k q 0) (if_neg hown)

/-- A queue whose period 0 opens with the BIND (R346). -/
theorem State.qBind_opens {k q : Nat} (hb : (s.queue q).bound = false) (hc : s.bindCode k (s.qRec k) = none) {y : Queue}
    (hy : y = (s.queue q).rebound (s.qRec k)) (hown : y.lead = 0xFF ∧ y.f 0x14 4 ≠ 0) :
    s.qBind k q = ((s.setQueue q y).queueOpening q).qResult k q 0 := by
  subst hy
  simp only [State.qBind, hb, hc, Bool.false_eq_true, if_false]
  exact congrArg (fun u : State => u.qResult k q 0) (if_pos hown)

/-- Period 0 of a queue that holds no step opens (R346, R347). -/
theorem State.queueOpening_vacant {q : Nat} (hv : (s.queue q).held = none) : s.queueOpening q = s.setQueue q { s.queue q with
    mayOpen := (s.queue q).bound && s.ctxState (s.queue q).ctx == 2, openAt := s.sch.now, latch := s.settings,
    shedAt := s.sch.shed.contains (s.queue q).ctx } := by
  unfold State.queueOpening
  rw [hv]

theorem State.qUnbind_stranger {k q : Nat} (hm : s.qMine k q = false) : s.qUnbind k q = s.qResult k q Code.SCH_Q_CONTEXT := by
  simp only [State.qUnbind, hm, Bool.not_false, if_true]

theorem State.qRead_stranger {k q : Nat} (hm : s.qMine k q = false) : s.qRead k q = s.qResult k q Code.SCH_Q_CONTEXT := by
  simp only [State.qRead, hm, Bool.not_false, if_true]

theorem State.qUnbind_busy {k q : Nat} (hm : s.qMine k q = true) (hv : (s.queue q).held.isSome = true) :
    s.qUnbind k q = s.qResult k q Code.SCH_Q_STATE := by
  simp only [State.qUnbind, hm, hv, Bool.not_true, Bool.false_eq_true, if_false, if_true]

theorem State.qUnbind_vacant {k q : Nat} (hm : s.qMine k q = true) (hv : (s.queue q).held = none) :
    s.qUnbind k q = (s.setQueue q { s.queue q with bound := false, mayOpen := false }).qResult k q 0 := by
  unfold State.qUnbind
  dsimp only
  rw [if_neg (by rw [hm]; decide), if_neg (by rw [hv]; decide)]

/-- A queue written, and DONE shown. -/
theorem State.setQueue_done (h : s.Inv) (fn : Fn) (q : Nat) (x : Queue) :
    let t := (s.setQueue q x).qResult fn.val q 0
    t.queue q = x ∧ s.QueuesBut t q ∧ t.reg (schReg fn.val 0x28) = 0x10000 ∧ s.RegsBut t [schReg fn.val 0x28] ∧
      t = { s with regs := t.regs, sch := { s.sch with queues := t.sch.queues } } := by
  have hi := State.setQueue_inv h q x
  refine ⟨(State.queue_setQueue h ..).trans (if_pos rfl), fun p hp => (State.queue_setQueue h ..).trans (if_neg hp),
    State.reg_setReg_self hi .., fun a ha => State.reg_setReg_ne hi (by simpa using ha) _, rfl⟩

/-- A queue whose period 0 opens with the BIND, and DONE shown (R346). -/
theorem State.setQueue_opens (h : s.Inv) (fn : Fn) (q : Nat) {y : Queue} (hb : y.bound = true) (hv : y.held = none) :
    let t := ((s.setQueue q y).queueOpening q).qResult fn.val q 0
    t.queue q = { y with
      mayOpen := s.ctxState y.ctx == 2, openAt := s.sch.now, latch := s.settings, shedAt := s.sch.shed.contains y.ctx } ∧
    s.QueuesBut t q ∧ t.reg (schReg fn.val 0x28) = 0x10000 ∧ s.RegsBut t [schReg fn.val 0x28] := by
  have hx : (s.setQueue q y).queue q = y := (State.queue_setQueue h ..).trans (if_pos rfl)
  have ho := State.queueOpening_vacant (s := s.setQueue q y) (q := q) (by rw [hx, hv])
  rw [hx, hb, Bool.true_and] at ho
  obtain ⟨hq, hqs, hreg, hregs, -⟩ := State.setQueue_done (State.setQueue_inv h q y) fn q { y with
    mayOpen := (s.setQueue q y).ctxState y.ctx == 2, openAt := (s.setQueue q y).sch.now, latch := (s.setQueue q y).settings,
    shedAt := (s.setQueue q y).sch.shed.contains y.ctx }
  dsimp only
  rw [ho]
  exact ⟨hq, fun p hp => (hqs p hp).trans ((State.queue_setQueue h ..).trans (if_neg hp)), hreg, hregs⟩

/-- The record of a queue is shown word by word (Table 10.12). -/
theorem State.qRead_shows (h : s.Inv) (fn : Fn) (q : Nat) (hm : s.qMine fn.val q = true) :
    let t := s.qRead fn.val q
    (∀ i, i < 4 → t.reg (schReg fn.val (8 * i)) = BitVec.ofNat 64 ((s.queue q).f (8 * i) 8)) ∧
      t.reg (schReg fn.val 0x28) = 0x10000 ∧ s.RegsBut t ([0, 8, 0x10, 0x18, 0x28].map (schReg fn.val)) ∧ t = { s with regs := t.regs } := by
  let w (i : Nat) : W64 := BitVec.ofNat 64 ((s.queue q).f (8 * i) 8)
  have heq : s.qRead fn.val q = ((((s.setReg (schReg fn.val 0) (w 0)).setReg (schReg fn.val 8) (w 1)).setReg (schReg fn.val 16) (w 2)).setReg
      (schReg fn.val 24) (w 3)).setReg (schReg fn.val 0x28) 0x10000 := by
    unfold State.qRead
    rw [hm]
    rfl
  have h0 := State.setReg_inv h (schReg fn.val 0) (w 0)
  have h1 := State.setReg_inv h0 (schReg fn.val 8) (w 1)
  have h2 := State.setReg_inv h1 (schReg fn.val 16) (w 2)
  have h3 := State.setReg_inv h2 (schReg fn.val 24) (w 3)
  dsimp only
  rw [heq]
  refine ⟨fun i hi => ?_, State.reg_setReg_self h3 .., fun a ha => ?_, rfl⟩
  · rw [State.reg_setReg h3, State.reg_setReg h2, State.reg_setReg h1, State.reg_setReg h0, State.reg_setReg h]
    simp only [schReg_inj]
    interval_cases i <;> simp [w]
  · simp only [List.map_cons, List.map_nil, List.mem_cons, List.not_mem_nil, or_false, not_or] at ha
    obtain ⟨ha0, ha1, ha2, ha3, ha4⟩ := ha
    rw [State.reg_setReg_ne h3 ha4, State.reg_setReg_ne h2 ha3, State.reg_setReg_ne h1 ha2, State.reg_setReg_ne h0 ha1, State.reg_setReg_ne h ha0]

/-- A doorbell write that its checks refuse (R340). -/
theorem State.doorbell_refused (h : s.Inv) (fn : Fn) (q : Nat) {tail : W32} (hc : (s.queue q).doorCode fn.val tail = some code) :
    let t := s.doorbell fn.val q tail
    t.queue q = { s.queue q with lastCode := code } ∧ s.QueuesBut t q ∧ t.entry 0x3400 0x15 = (s.entry 0x3400 0x15 + 1) % 2 ^ 64 ∧
      t.log.head?.map (·.code) = some code := by
  have hq := State.setQueue_inv h q { s.queue q with lastCode := code }
  have hi := State.countEntry_inv hq 0x3400 0x15 1
  obtain ⟨hl, hh, -⟩ := State.schRefusal hi (Queue.doorCode_family hc) fn.val 3 q tail.toNat
  unfold State.doorbell
  dsimp only
  rw [hc]
  dsimp only
  refine ⟨?_, fun p hp => ?_, ?_, by rw [hh]; rfl⟩
  · rw [hl.queue]
    exact (State.queue_setQueue h ..).trans (if_pos rfl)
  · rw [hl.queue]
    exact (State.queue_setQueue h ..).trans (if_neg hp)
  · rw [hl.entries _ _ (by decide), State.entry_countEntry hq, if_pos rfl]
    rfl

/-- A tail inside the ring is taken. -/
theorem State.doorbell_taken {k q : Nat} {tail : W32} (hc : (s.queue q).doorCode k tail = none) :
    s.doorbell k q tail = s.setQueue q { s.queue q with tail := tail } := by
  unfold State.doorbell
  dsimp only
  rw [hc]

/-- Settles O37: a refusal shows and logs its code over queues that stand; a command that is taken writes its own queue and its function's
registers. -/
theorem queueCommands : Obligations.QueueCommands := by
  unfold Obligations.QueueCommands
  intro s0 fn q h0 hs s x refused
  have h : s.Inv := State.received_inv h0 4
  have hrefuse {c : Instr} {u : State} {code : W16} (hu : u.Inv) (hq : ∀ p, u.queue p = s.queue p) (he : u.entry 0x6000 1 = s.entry 0x6000 1)
      (hc : code.toNat / 256 = 7) (hx : exec c s0 = .next (u.qResult fn.val q.val code)) : refused c u code := by
    obtain ⟨hqs, hreg, hlog⟩ := State.qResult_refused hu fn q.val hc
    exact ⟨_, hx, rfl, (hqs _).trans (hq _), fun p _ => (hqs p).trans (hq p), hreg, by rw [hlog, he]⟩
  have hbind (now : Nat) : exec (.bind fn q now) s0 = .next ((s.timeIs now).qBind fn.val q.val) := execBind_serving hs now
  have hunbind : exec (.unbind fn q) s0 = .next (s.qUnbind fn.val q.val) := execUnbind_serving hs
  have hread : exec (.queueRead fn q) s0 = .next (s.qRead fn.val q.val) := execQueueRead_serving hs
  have hdoor (tail : W32) : exec (.doorbellWrite fn q tail) s0 = .next (s.doorbell fn.val q.val tail) := execDoorbellWrite_serving hs tail
  clear_value s
  refine ⟨fun now => ?_, fun hm => ⟨?_, ?_⟩, fun hm => ⟨fun hst => ?_, fun hst => ?_, ?_⟩, fun tail => ⟨fun hc => ?_, fun code hc => ?_⟩⟩
  · have hu : (s.timeIs now).Inv := State.timeIs_inv h now
    refine ⟨fun hx => hrefuse hu (fun _ => rfl) rfl (by decide) ?_, fun code hx hc => hrefuse hu (fun _ => rfl) rfl (State.bindCode_family hc) ?_,
      fun hx hc => ⟨fun hown => ?_, fun hlead hown => ?_⟩⟩
    · exact (hbind now).trans (congrArg Host.Outcome.next (State.qBind_bound (s := s.timeIs now) hx))
    · exact (hbind now).trans (congrArg Host.Outcome.next (State.qBind_rejected (s := s.timeIs now) hx hc))
    · have ht := State.qBind_taken (s := s.timeIs now) (q := q.val) hx hc rfl fun ho => hown.elim (fun hl => hl ho.1) ho.2
      obtain ⟨hq, hqs, hreg, hregs, hrest⟩ := State.setQueue_done hu fn q.val (x.rebound (s.qRec fn.val))
      exact ⟨_, (hbind now).trans (congrArg Host.Outcome.next ht), hq, hqs, hreg, hregs, hrest⟩
    · have ht := State.qBind_opens (s := s.timeIs now) (q := q.val) hx hc rfl ⟨hlead, hown⟩
      obtain ⟨hq, hqs, hreg, hregs⟩ := State.setQueue_opens hu fn q.val (y := x.rebound (s.qRec fn.val)) rfl rfl
      exact ⟨_, (hbind now).trans (congrArg Host.Outcome.next ht), hq, hqs, hreg, hregs⟩
  · exact hrefuse h (fun _ => rfl) rfl (by decide) (hunbind.trans (congrArg Host.Outcome.next (State.qUnbind_stranger hm)))
  · exact hrefuse h (fun _ => rfl) rfl (by decide) (hread.trans (congrArg Host.Outcome.next (State.qRead_stranger hm)))
  · exact hrefuse h (fun _ => rfl) rfl (by decide) (hunbind.trans (congrArg Host.Outcome.next (State.qUnbind_busy hm hst)))
  · exact ⟨_, hunbind.trans (congrArg Host.Outcome.next (State.qUnbind_vacant hm hst)), State.setQueue_done h fn q.val _⟩
  · exact ⟨_, hread, State.qRead_shows h fn q.val hm⟩
  · refine ⟨_, (hdoor tail).trans (congrArg Host.Outcome.next (State.doorbell_taken hc)), (State.queue_setQueue h ..).trans (if_pos rfl),
      fun p hp => (State.queue_setQueue h ..).trans (if_neg hp), rfl⟩
  · exact ⟨_, hdoor tail, State.doorbell_refused h fn q.val hc⟩

end Sys2Proof.Machine
end

section
/-! PROOF. DESC_FETCH and the descriptors that arrive (R341 to R344, R480). -/

namespace Sys2Proof.Machine

variable {s t u : State} {q : QueueId} {d : Fetched} {now : Nat}

/-! ### The fetch -/

/-- What is no read leaves alone, whatever tags are free. -/
theorem State.serveWaits_posted {o : Out} (wb : WriteBack) (hr : o.reads = none) (hk : s.canIssue o.fnOf = true)
    (hl : s.leave o.fnOf o = some t) : s.serveWaits [] [] false [⟨o, wb⟩] =
      { t.takeOff o.fnOf o with hp := { (t.takeOff o.fnOf o).hp with waits := [] } } := by
  rw [State.serveWaits]
  dsimp only
  rw [hk, hr, hl]
  rfl

/-- A posted write leaves at once where nothing waits and no translation is used (R505, R508). -/
theorem State.issue_write (hw : s.hp.waits = []) {k : Nat} (hk : s.canIssue k = true) (hm : s.atsMode k = 0) (addr : W64) (bs : List Byte)
    (wb : WriteBack) : s.issue (.write k false addr bs) wb = { s with out := s.out ++ [.write k false addr bs] } := by
  let o : Out := .write k false addr bs
  let u : State := { s with hp := { s.hp with waits := [⟨o, wb⟩] } }
  have hu : s.issue o wb = u.serveWaits [] [] false [⟨o, wb⟩] := by
    unfold State.issue
    rw [hw]
    rfl
  rw [hu, State.serveWaits_posted (s := u) (o := o) (t := u.send o) wb rfl hk (if_pos hm)]
  change ({ s with hp := { s.hp with waits := [] }, out := s.out ++ [o] } : State) = _
  rw [← hw]

theorem State.mayFetch_canIssue {p : Nat} (h : s.mayFetch p = true) : s.canIssue (s.queue p).fn = true := by
  unfold State.mayFetch at h
  simp only [Bool.and_eq_true] at h
  exact h.1.2

/-- Address of the descriptor at HEAD (R341). -/
def Queue.headAddr (x : Queue) : W64 := BitVec.ofNat 64 (x.f 0 8 + 128 * (x.head.toNat % x.ring))

/-- The read of the descriptor at HEAD is asked for, and HEAD advances. -/
def State.askDesc (s : State) (q : QueueId) : State :=
  (s.issue (.read (s.queue q.val).fn false (s.queue q.val).headAddr 128 (.desc q)) .no).setQueue q.val
    { s.queue q.val with head := (s.queue q.val).head + 1, fetching := true }

theorem descFetch_idle (hm : s.mayFetch q.val = false) : exec (.descFetch q) s = .next s := by
  change execDescFetch q s = _
  simp only [execDescFetch, hm, Bool.not_false, if_true]

theorem descFetch_wakes (hm : s.mayFetch q.val = true) (hp : 2 ≤ s.power ∨ s.tth.nap ≠ 0) : exec (.descFetch q) s = .next s.wakeUp := by
  have hc : (decide (2 ≤ s.power) || decide (s.tth.nap ≠ 0)) = true := by simpa using hp
  change execDescFetch q s = _
  simp only [execDescFetch, hm, Bool.not_true, Bool.false_eq_true, if_false, hc, if_true]

theorem descFetch_asks (hm : s.mayFetch q.val = true) (hp : s.power < 2) (hn : s.tth.nap = 0) : exec (.descFetch q) s =
    .next (if (s.queue q.val).f 8 8 = 0 then s.askDesc q else (s.askDesc q).hostWrite (s.queue q.val).fn
      (BitVec.ofNat 64 ((s.queue q.val).f 8 8)) (bytesLE 8 ((s.queue q.val).head + 1).toNat) (.queue q.val)) := by
  have hc : (decide (2 ≤ s.power) || decide (s.tth.nap ≠ 0)) = false := by simp [hn, hp]
  change execDescFetch q s = _
  simp only [execDescFetch, hm, Bool.not_true, Bool.false_eq_true, if_false, hc]
  rfl

theorem State.askDesc_asks (h : s.Inv) (q : QueueId) : let t := s.askDesc q
    t.Inv ∧ t.queue q.val = { s.queue q.val with head := (s.queue q.val).head + 1, fetching := true } ∧ s.QueuesBut t q.val ∧
      t = { s with sch := { s.sch with queues := t.sch.queues }, out := t.out, hp := t.hp } := by
  have hm := State.PortMoves.issue s (.read (s.queue q.val).fn false (s.queue q.val).headAddr 128 (.desc q)) .no
  have hqs (p : Nat) := hm.read (f := fun u => u.queue p) fun _ _ _ => rfl
  unfold State.askDesc
  generalize s.issue _ .no = u at hm hqs ⊢
  refine ⟨State.setQueue_inv (hm.inv h) .., (State.queue_setQueue (hm.inv h) ..).trans (if_pos rfl), fun p hp => ?_, ?_⟩
  · exact (State.queue_setQueue (hm.inv h) ..).trans ((if_neg hp).trans (hqs p))
  · rw [hm.rest]
    rfl

/-- HEAD is written back where the queue asks for it (R341). -/
def State.fetchDesc (s : State) (q : QueueId) : State :=
  if (s.queue q.val).f 8 8 = 0 then s.askDesc q else (s.askDesc q).hostWrite (s.queue q.val).fn
    (BitVec.ofNat 64 ((s.queue q.val).f 8 8)) (bytesLE 8 ((s.queue q.val).head + 1).toNat) (.queue q.val)

theorem State.fetchDesc_moves (s : State) (q : QueueId) : (s.askDesc q).PortMoves (s.fetchDesc q) := by
  unfold State.fetchDesc
  split
  · exact .refl _
  · exact .issue ..

/-- What leaves the port where nothing holds it back. -/
theorem State.fetchDesc_sends (hm : s.mayFetch q.val = true) (hw : s.hp.waits = []) (hf : s.hp.flying.length < 512)
    (ha : s.atsMode (s.queue q.val).fn = 0) : let x := s.queue q.val
    (s.fetchDesc q).hp = { s.hp with flying := s.hp.flying ++ [{ fn := x.fn, read := .desc q }] } ∧
    (s.fetchDesc q).out = s.out ++ ([.read x.fn false x.headAddr 128 (.desc q)] ++
      (if x.f 8 8 = 0 then [] else [.write x.fn false (BitVec.ofNat 64 (x.f 8 8)) (bytesLE 8 (x.head + 1).toNat)])) := by
  have hk := State.mayFetch_canIssue hm
  have hread : s.askDesc q = { s with
      hp := { s.hp with flying := s.hp.flying ++ [{ fn := (s.queue q.val).fn, read := .desc q }] }
      out := s.out ++ [.read (s.queue q.val).fn false (s.queue q.val).headAddr 128 (.desc q)]
      sch := (s.setQueue q.val { s.queue q.val with head := (s.queue q.val).head + 1, fetching := true }).sch } := by
    unfold State.askDesc
    rw [State.issue_read hw hf hk ha]
    rfl
  unfold State.fetchDesc
  dsimp only
  split
  · rw [hread, List.append_nil]
    exact ⟨rfl, rfl⟩
  · rw [State.hostWrite, hread, State.issue_write (by exact hw) (by exact hk) (by exact ha)]
    exact ⟨rfl, List.append_assoc ..⟩

/-! ### Descriptors that are rejected -/

/-- A rejected descriptor before its record: it shows as the latest code of its queue and its context, and counts. -/
def State.descCounted (s : State) (p : Nat) (code : W16) : State :=
  ((s.setQueue p { s.queue p with lastCode := code }).setEntry (0x3000 + (s.queue p).ctx) 0x1D code.toNat).countEntry 0x3400 0x14 1

theorem State.descCounted_inv (h : s.Inv) (p : Nat) (code : W16) : (s.descCounted p code).Inv :=
  State.countEntry_inv (State.setEntry_inv (State.setQueue_inv h ..) ..) ..

theorem State.entry_descCounted (h : s.Inv) (p : Nat) (code : W16) (i j : Nat) : (s.descCounted p code).entry i j =
    if dkey i j = dkey 0x3400 0x14 then (s.entry 0x3400 0x14 + 1) % 2 ^ 64
    else if dkey i j = dkey (0x3000 + (s.queue p).ctx) 0x1D then code.toNat else s.entry i j := by
  have hq := State.setQueue_inv h p { s.queue p with lastCode := code }
  have hcode : code.toNat % 2 ^ 64 = code.toNat := Nat.mod_eq_of_lt (by have := code.isLt; omega)
  have hne : dkey 0x3400 0x14 ≠ dkey (0x3000 + (s.queue p).ctx) 0x1D := by unfold dkey; omega
  unfold State.descCounted
  rw [State.entry_countEntry (State.setEntry_inv hq ..), State.entry_setEntry hq, State.entry_setEntry hq, if_neg hne, hcode]
  rfl

/-- A rejected descriptor counts, is logged, and shows as the latest code of its queue and its context (R343). -/
theorem State.descReject_leaves (h : s.Inv) (p : Nat) (code : W16) : let t := s.descReject p code
    let x := s.queue p
    t.queue p = { x with lastCode := code } ∧ s.QueuesBut t p ∧ t.ctx x.ctx 0x1D = code.toNat ∧
      t.entry 0x3400 0x14 = (s.entry 0x3400 0x14 + 1) % 2 ^ 64 ∧ t.log.head? = some ⟨s.entry 0x6000 1 + 1, code, x.fn, 3, p, 0⟩ ∧
      s.EntriesBut t [dkey 0x3400 0x14, dkey (0x3000 + x.ctx) 0x1D, dkey 0x6000 1, dkey 0x6000 3] := by
  have he := State.entry_descCounted h p code
  have hq (j : Nat) : (s.descCounted p code).queue j = if j = p then { s.queue p with lastCode := code } else s.queue j :=
    State.queue_setQueue h ..
  have hl := State.logErr_logs (State.descCounted_inv h p code) code (s.queue p).fn 3 p 0 (some (s.queue p).fn)
  have hh := State.head_log_logErr (s.descCounted p code) code (s.queue p).fn 3 p 0 (some (s.queue p).fn)
  have hdef : s.descReject p code = (s.descCounted p code).logErr code (s.queue p).fn 3 p 0 (some (s.queue p).fn) := rfl
  dsimp only
  rw [hdef]
  generalize (s.descCounted p code).logErr code (s.queue p).fn 3 p 0 (some (s.queue p).fn) = t at hl hh
  refine ⟨(hl.queue p).trans ((hq p).trans (if_pos rfl)), fun j hj => (hl.queue j).trans ((hq j).trans (if_neg hj)), ?_, ?_, ?_, fun i j hk => ?_⟩
  · rw [State.ctx, hl.entries _ _ (by simp only [logKeys, List.mem_cons, List.not_mem_nil, or_false]; unfold dkey; omega), he,
      if_neg (by unfold dkey; omega), if_pos rfl]
  · rw [hl.entries _ _ (by decide), he, if_pos rfl]
  · rw [hh, he, if_neg (by decide), if_neg (by unfold dkey; omega)]
  · simp only [List.mem_cons, List.not_mem_nil, or_false, not_or] at hk
    obtain ⟨hcount, hcode, hlogged, hlost⟩ := hk
    rw [hl.entries i j (by simpa using ⟨hlogged, hlost⟩), he, if_neg hcount, if_neg hcode]

/-! ### The end of a fetch -/

/-- The state once the read for queue q has landed. -/
def State.descLanded (s : State) (q : QueueId) (d : Fetched) (now : Nat) : State := ((s.timeIs now).land (.desc q)).received d.size

theorem State.descLanded_moves (s : State) (q : QueueId) (d : Fetched) (now : Nat) : (s.timeIs now).PortMoves (s.descLanded q d now) :=
  (State.PortMoves.land ..).trans (State.PortMoves.received ..)

section fetched
variable {p : Nat}

theorem State.endFetch_stale (hs : 0 < (s.queue p).stale) : s.endFetch p =
    ((s.setQueue p { s.queue p with stale := (s.queue p).stale - 1 }).countEntry 0x3400 0x14 1, false) := by
  unfold State.endFetch
  exact if_pos hs

variable (hs : (s.queue p).stale = 0)
include hs

theorem State.endFetch_unawaited (hf : (s.queue p).fetching = false) : s.endFetch p = (s, false) := by
  simp only [State.endFetch, hs, hf, Nat.lt_irrefl, if_false, Bool.not_false, if_true]

theorem State.endFetch_gone (hf : (s.queue p).fetching = true) (hg : (s.queue p).bound = false ∨ s.ctxState (s.queue p).ctx ≠ 2) :
    s.endFetch p = ((s.setQueue p { s.queue p with fetching := false }).countEntry 0x3400 0x14 1, false) := by
  have hc : ((s.queue p).bound && (s.setQueue p { s.queue p with fetching := false }).ctxState (s.queue p).ctx == 2) = false := by
    rw [Bool.and_eq_false_iff, beq_eq_false_iff_ne]
    exact hg
  unfold State.endFetch
  dsimp only
  rw [if_neg (by rw [hs]; decide), if_neg (by rw [hf]; decide)]
  exact if_neg (by rw [hc]; decide)

theorem State.endFetch_opens (hf : (s.queue p).fetching = true) (hb : (s.queue p).bound = true) (hg : s.ctxState (s.queue p).ctx = 2) :
    s.endFetch p = (s.setQueue p { s.queue p with fetching := false }, true) := by
  have hc : ((s.queue p).bound && (s.setQueue p { s.queue p with fetching := false }).ctxState (s.queue p).ctx == 2) = true := by
    rw [Bool.and_eq_true, beq_iff_eq]
    exact ⟨hb, hg⟩
  unfold State.endFetch
  dsimp only
  rw [if_neg (by rw [hs]; decide), if_neg (by rw [hf]; decide)]
  exact if_pos hc

end fetched

theorem descArrival_unasked (ha : s.awaits (.desc q) = false) : exec (.descArrival q d now) s = .next (s.timeIs now) := by
  change execDescArrival q d now s = _
  simp only [execDescArrival, ha, Bool.not_false, if_true]

section asked
variable (ha : s.awaits (.desc q) = true)
include ha

theorem descArrival_ends (he : (s.descLanded q d now).endFetch q.val = (t, false)) : exec (.descArrival q d now) s = .next t := by
  change execDescArrival q d now s = _
  unfold State.descLanded at he
  simp only [execDescArrival, ha, he, Bool.not_true, Bool.false_eq_true, if_false]

theorem descArrival_failed (he : (s.descLanded q .failed now).endFetch q.val = (t, true)) :
    exec (.descArrival q .failed now) s = .next (t.descReject q.val Code.SCH_DESC_FETCH) := by
  change execDescArrival q .failed now s = _
  unfold State.descLanded at he
  simp only [execDescArrival, ha, he, Bool.not_true, Bool.false_eq_true, if_false]

theorem descArrival_rejected {bs : List Byte} {code : W16} (he : (s.descLanded q (.bytes bs) now).endFetch q.val = (t, true))
    (hc : t.descCheck (t.queue q.val) bs = .error code) : exec (.descArrival q (.bytes bs) now) s = .next (t.descReject q.val code) := by
  change execDescArrival q (.bytes bs) now s = _
  unfold State.descLanded at he
  simp only [execDescArrival, ha, he, hc, Bool.not_true, Bool.false_eq_true, if_false]

theorem descArrival_opens {bs : List Byte} {vs : List (Nat × Nat)} (he : (s.descLanded q (.bytes bs) now).endFetch q.val = (t, true))
    (hc : t.descCheck (t.queue q.val) bs = .ok vs) : exec (.descArrival q (.bytes bs) now) s = .next (t.openStep q.val bs vs) := by
  change execDescArrival q (.bytes bs) now s = _
  unfold State.descLanded at he
  simp only [execDescArrival, ha, he, hc, Bool.not_true, Bool.false_eq_true, if_false]

end asked

/-- The checks of a descriptor read neither the port nor the scheduler's tables, and of the queue its record. -/
theorem State.descCheck_congr (s : State) (p : HostPort) (o : List Out) (c : Sched) (x : Queue) (bs : List Byte) :
    ({ s with hp := p, out := o, sch := c } : State).descCheck { x with fetching := false } bs = s.descCheck x bs := rfl

end Sys2Proof.Machine
end

section
/-! PROOF. O38: descriptors open steps (R308, R341 to R344, R347, R603). -/

namespace Sys2Proof.Machine

variable {s t u : State}

/-! ### The opening of a step -/

/-- The state in which a step of queue q opens: it and its context have counted, and its lead is in use (R347). -/
def State.opening (s : State) (q : Nat) : State :=
  let x := s.queue q
  let u := ({ s with sch := { s.sch with serial := s.sch.serial + 1 } } : State).setQueue q { x with
    mayOpen := false, periods := if x.hasPeriods then x.periods else (x.periods + 1) % 2 ^ 32 }
  (if x.lead = 0xFF then u else u.modStream x.lead fun y => { y with used := true }).countCtx x.ctx 0x20 1

theorem State.opening_opens (h : s.Inv) (q : Nat) : let w := s.opening q
    let x := s.queue q
    w = { s with dict := w.dict, streams := w.streams, sch := { s.sch with queues := w.sch.queues, serial := s.sch.serial + 1 } } ∧
      w.queue q = { x with mayOpen := false, periods := if x.hasPeriods then x.periods else (x.periods + 1) % 2 ^ 32 } ∧ s.QueuesBut w q ∧
      w.ctx x.ctx 0x20 = (s.ctx x.ctx 0x20 + 1) % 2 ^ 64 ∧ s.EntriesBut w [dkey (0x3000 + x.ctx) 0x20] ∧ s.StreamsBut w x.lead ∧
      (x.lead ≠ 0xFF → w.stream x.lead = { s.stream x.lead with used := true }) := by
  have h1 : ({ s with sch := { s.sch with serial := s.sch.serial + 1 } } : State).Inv := { h with }
  have h2 := State.setQueue_inv h1 q { s.queue q with
    mayOpen := false, periods := if (s.queue q).hasPeriods then (s.queue q).periods else ((s.queue q).periods + 1) % 2 ^ 32 }
  have hq (p : Nat) := State.queue_setQueue h1 q p { s.queue q with
    mayOpen := false, periods := if (s.queue q).hasPeriods then (s.queue q).periods else ((s.queue q).periods + 1) % 2 ^ 32 }
  unfold State.opening
  dsimp only
  split
  · next hl =>
    refine ⟨rfl, (hq q).trans (if_pos rfl), fun p hp => (hq p).trans (if_neg hp), (State.entry_countEntry h2 ..).trans (if_pos rfl),
      fun i j hk => (State.entry_countEntry h2 ..).trans (if_neg (by simpa using hk)), fun _ _ => rfl, fun hne => absurd hl hne⟩
  · have h3 := State.modStream_inv h2 (s.queue q).lead fun y => { y with used := true }
    have hx (n : Nat) := State.stream_modStream h2 (s.queue q).lead n fun y => { y with used := true }
    exact ⟨rfl, (hq q).trans (if_pos rfl), fun p hp => (hq p).trans (if_neg hp), (State.entry_countEntry h3 ..).trans (if_pos rfl),
      fun i j hk => (State.entry_countEntry h3 ..).trans (if_neg (by simpa using hk)), fun n hn => (hx n).trans (if_neg hn),
      fun _ => (hx _).trans (if_pos rfl)⟩

theorem State.shed_opening (s : State) (q : Nat) : (s.opening q).sch.shed = s.sch.shed := by
  unfold State.opening
  dsimp only
  split <;> rfl

/-- Slots that wait for a picture, none of a voided period, do not start at the opening (R295, R309). -/
theorem State.startHosts_waits {q : Nat} {st : Step} (hw : ∀ sl ∈ st.slots, sl.host = false ∧ (s.stream sl.stream).voided = false) :
    s.startHosts q st = s := by
  unfold State.startHosts
  refine List.foldlRecOn (motive := (· = s)) _ _ rfl fun u hu x hx => ?_
  obtain ⟨hhost, hvoid⟩ := hw x.1 (List.fst_mem_of_mem_zipIdx hx)
  rw [hu, hhost, hvoid]
  rfl

section step
variable {q : Nat} {d : List Byte} {vs : List (Nat × Nat)}

/-- The step that opens has the checks of R308 and R603 before it, but for one that is shed. -/
theorem State.openStep_eq (s : State) (q : Nat) (d : List Byte) (vs : List (Nat × Nat)) : s.openStep q d vs =
    (let w := s.opening q
     let st := s.newStep q d vs
     if (if (s.queue q).hasPeriods then (s.queue q).shedAt else w.sch.shed.contains st.ctx) then w.shedStep q st
     else match w.openChecks st with
       | .error e => (((w.setStep q (some st)).preErr e st.ctx 0).logDev e 2 st.ctx).faultCtx st.ctx q e
       | .ok (jobs, ds, fs) =>
         let t := (w.setStep q (some { st with plan := jobs, planDescs := ds, fills := fs })).startHosts q st
         if (s.queue q).hasPeriods ∧ !(s.queue q).mayOpen then t.closeFill q else t) := rfl

/-- The context of queue q was shed when its period opened, or is so now where the queue has no periods (R473). -/
def State.isShed (s : State) (q : Nat) : Bool := if (s.queue q).hasPeriods then (s.queue q).shedAt else s.sch.shed.contains (s.queue q).ctx

theorem State.openStep_sheds (hs : s.isShed q = true) : s.openStep q d vs = (s.opening q).shedStep q (s.newStep q d vs) := by
  rw [State.openStep_eq]
  dsimp only
  rw [State.shed_opening]
  exact if_pos hs

variable (hs : s.isShed q = false)
include hs

theorem State.openStep_fails {e : W16} (he : (s.opening q).openChecks (s.newStep q d vs) = .error e) : s.openStep q d vs =
    ((((s.opening q).setStep q (some (s.newStep q d vs))).preErr e (s.newStep q d vs).ctx 0).logDev e 2 (s.newStep q d vs).ctx).faultCtx
      (s.newStep q d vs).ctx q e := by
  rw [State.openStep_eq]
  dsimp only
  rw [State.shed_opening, he]
  exact if_neg (by rw [Bool.not_eq_true]; exact hs)

/-- Slots that all wait for a picture of the present period. -/
theorem State.openStep_opens {jobs : List (List Byte)} {ds : List (List (Option Desc))} {fs : List (Desc × List Byte)}
    (he : (s.opening q).openChecks (s.newStep q d vs) = .ok (jobs, ds, fs)) (hm : (s.queue q).hasPeriods = true → (s.queue q).mayOpen = true)
    (hw : ∀ sl ∈ (s.newStep q d vs).slots, sl.host = false ∧ ((s.opening q).stream sl.stream).voided = false) :
    s.openStep q d vs = (s.opening q).setStep q (some { s.newStep q d vs with plan := jobs, planDescs := ds, fills := fs }) := by
  rw [State.openStep_eq]
  dsimp only
  rw [State.shed_opening, he]
  refine (if_neg (by rw [Bool.not_eq_true]; exact hs)).trans ?_
  dsimp only
  have hw' := State.startHosts_waits (q := q) (st := s.newStep q d vs)
    (s := (s.opening q).setStep q (some { s.newStep q d vs with plan := jobs, planDescs := ds, fills := fs })) hw
  rw [hw']
  exact if_neg fun ⟨hp, ho⟩ => by
    rw [hm hp] at ho
    cases ho

end step

theorem State.voided_opening (h : s.Inv) (q n : Nat) : ((s.opening q).stream n).voided = (s.stream n).voided := by
  obtain ⟨-, -, -, -, -, hbut, hlead⟩ := State.opening_opens h q
  by_cases hn : n = (s.queue q).lead
  · by_cases hl : (s.queue q).lead = 0xFF
    · unfold State.opening
      dsimp only
      rw [if_pos hl]
      rfl
    · rw [hn, hlead hl]
  · rw [hbut n hn]

/-! ### What an arrival leaves -/

section landed
variable (s) (q : QueueId) (d : Fetched) (now : Nat)

theorem State.descLanded_rest : ∃ p o, s.descLanded q d now = { s with hp := p, out := o, sch := { s.sch with now := max s.sch.now now } } :=
  ⟨_, _, (s.descLanded_moves q d now).rest⟩

theorem State.descLanded_inv (h : s.Inv) : (s.descLanded q d now).Inv := (s.descLanded_moves q d now).inv (State.timeIs_inv h now)

theorem State.descLanded_queue (p : Nat) : (s.descLanded q d now).queue p = s.queue p := by
  obtain ⟨_, _, he⟩ := s.descLanded_rest q d now
  rw [he]
  rfl

theorem State.descLanded_entry (i j : Nat) : (s.descLanded q d now).entry i j = s.entry i j := by
  obtain ⟨_, _, he⟩ := s.descLanded_rest q d now
  rw [he]
  rfl

end landed

/-- A descriptor of no use to its queue only counts (R344). -/
theorem State.setQueue_counts (h : s.Inv) (q : QueueId) (d : Fetched) (now : Nat) (x : Queue) :
    let t := ((s.descLanded q d now).setQueue q.val x).countEntry 0x3400 0x14 1
    t.queue q.val = x ∧ s.QueuesBut t q.val ∧ t.entry 0x3400 0x14 = (s.entry 0x3400 0x14 + 1) % 2 ^ 64 ∧ s.EntriesBut t [dkey 0x3400 0x14] ∧
      t = { s with dict := t.dict, hp := t.hp, out := t.out, sch := { s.sch with queues := t.sch.queues, now := max s.sch.now now } } := by
  have hi := s.descLanded_inv q d now h
  have hq := State.setQueue_inv hi q.val x
  have hqueue := s.descLanded_queue q d now
  have hentry := s.descLanded_entry q d now
  obtain ⟨_, _, he⟩ := s.descLanded_rest q d now
  generalize s.descLanded q d now = u at hi hq hqueue hentry he
  refine ⟨(State.queue_setQueue hi ..).trans (if_pos rfl), fun p hp => (State.queue_setQueue hi ..).trans ((if_neg hp).trans (hqueue p)), ?_,
    fun i j hk => (State.entry_countEntry hq ..).trans ((if_neg (by simpa using hk)).trans (hentry i j)), ?_⟩
  · exact (State.entry_countEntry hq ..).trans ((if_pos rfl).trans (by rw [← hentry]; rfl))
  · rw [he]
    rfl

/-- The state in which a descriptor that its queue awaits is checked. -/
def State.fetchDone (s : State) (q : QueueId) (d : Fetched) (now : Nat) : State :=
  (s.descLanded q d now).setQueue q.val { s.queue q.val with fetching := false }

theorem State.fetchDone_leaves (h : s.Inv) (q : QueueId) (d : Fetched) (now : Nat) : let t := s.fetchDone q d now
    t.Inv ∧ t.queue q.val = { s.queue q.val with fetching := false } ∧ s.QueuesBut t q.val ∧ (∀ i j, t.entry i j = s.entry i j) ∧
      t = { s with hp := t.hp, out := t.out, sch := { s.sch with queues := t.sch.queues, now := max s.sch.now now } } := by
  have hi := s.descLanded_inv q d now h
  refine ⟨State.setQueue_inv hi .., (State.queue_setQueue hi ..).trans (if_pos rfl),
    fun p hp => (State.queue_setQueue hi ..).trans ((if_neg hp).trans (s.descLanded_queue q d now p)), s.descLanded_entry q d now, ?_⟩
  obtain ⟨_, _, he⟩ := s.descLanded_rest q d now
  unfold State.fetchDone
  rw [he]
  rfl

theorem State.endFetch_fetchDone {q : QueueId} (hst : (s.queue q.val).stale = 0) (hf : (s.queue q.val).fetching = true)
    (hb : (s.queue q.val).bound = true) (hc : s.ctxState (s.queue q.val).ctx = 2) (d : Fetched) (now : Nat) :
    (s.descLanded q d now).endFetch q.val = (s.fetchDone q d now, true) := by
  have hx := s.descLanded_queue q d now q.val
  have hstate : (s.descLanded q d now).ctxState (s.queue q.val).ctx = s.ctxState (s.queue q.val).ctx := s.descLanded_entry q d now ..
  have he := State.endFetch_opens (s := s.descLanded q d now) (p := q.val) (by rw [hx]; exact hst) (by rw [hx]; exact hf)
    (by rw [hx]; exact hb) (by rw [hx, hstate]; exact hc)
  rw [hx] at he
  exact he

theorem State.descCheck_fetchDone (h : s.Inv) (q : QueueId) (d : Fetched) (now : Nat) (bs : List Byte) :
    (s.fetchDone q d now).descCheck ((s.fetchDone q d now).queue q.val) bs = s.descCheck (s.queue q.val) bs := by
  obtain ⟨-, hq, -, -, hrest⟩ := State.fetchDone_leaves h q d now
  rw [hq, hrest]
  exact State.descCheck_congr ..

/-- Settles O38: a fetch moves its queue and the port; an arrival ends its read, and its descriptor counts, is rejected, or opens a step over
the state in which queue, context and lead have counted it. -/
theorem descriptorsOpenSteps : Obligations.DescriptorsOpenSteps := by
  unfold Obligations.DescriptorsOpenSteps
  refine ⟨fun s q h => ⟨descFetch_idle, descFetch_wakes, fun hm hp hn => ?_⟩, fun s q d now => descArrival_unasked, fun s q d now h ha hst => ?_,
    fun s q d now ha hst hf => ?_, fun s q d now h ha hst hf => ⟨fun hg => ?_, fun hb hc => ⟨fun code hcode => ?_, fun bs vs hd hok => ?_⟩⟩,
    fun s q d vs h => ?_⟩
  · obtain ⟨-, hq, hqs, hrest⟩ := State.askDesc_asks h q
    have hmoves := s.fetchDesc_moves q
    have hqueue (p : Nat) : (s.fetchDesc q).queue p = (s.askDesc q).queue p := hmoves.read (f := fun u => u.queue p) fun _ _ _ => rfl
    refine ⟨s.fetchDesc q, descFetch_asks hm hp hn, (hqueue _).trans hq, fun p hp => (hqueue p).trans (hqs p hp), ?_, fun hw hf ha => ?_⟩
    · rw [hmoves.rest, hrest]
    · exact State.fetchDesc_sends hm hw hf ha
  · have hx := s.descLanded_queue q d now q.val
    have he := State.endFetch_stale (s := s.descLanded q d now) (p := q.val) (by rw [hx]; exact hst)
    rw [hx] at he
    exact ⟨_, descArrival_ends ha he, State.setQueue_counts h q d now _⟩
  · have hx := s.descLanded_queue q d now q.val
    have he := State.endFetch_unawaited (s := s.descLanded q d now) (p := q.val) (by rw [hx]; exact hst) (by rw [hx]; exact hf)
    exact ⟨_, descArrival_ends ha he, (s.descLanded_moves q d now).rest⟩
  · have hx := s.descLanded_queue q d now q.val
    have hstate (c : Nat) : (s.descLanded q d now).ctxState c = s.ctxState c := s.descLanded_entry q d now ..
    have he := State.endFetch_gone (s := s.descLanded q d now) (p := q.val) (by rw [hx]; exact hst) (by rw [hx]; exact hf)
      (by rw [hx, hstate]; exact hg)
    rw [hx] at he
    exact ⟨_, descArrival_ends ha he, State.setQueue_counts h q d now _⟩
  · have he := State.endFetch_fetchDone hst hf hb hc d now
    obtain ⟨hi, hq, hqs, hent, -⟩ := State.fetchDone_leaves h q d now
    obtain ⟨hq', hqs', hlast, hcount, hlog, hbut⟩ := State.descReject_leaves hi q.val code
    have hexec : exec (.descArrival q d now) s = .next ((s.fetchDone q d now).descReject q.val code) := by
      rcases hcode with ⟨rfl, rfl⟩ | ⟨bs, rfl, hbad⟩
      · exact descArrival_failed ha he
      · exact descArrival_rejected ha he ((State.descCheck_fetchDone h q _ now bs).trans hbad)
    rw [hq] at hq' hlast hlog hbut
    rw [hent] at hcount hlog
    exact ⟨_, hexec, hq', fun p hp => (hqs' p hp).trans (hqs p hp), hlast, hcount, hlog, fun i j hk => (hbut i j hk).trans (hent i j)⟩
  · subst hd
    obtain ⟨-, hq, hqs, -, hrest⟩ := State.fetchDone_leaves h q (.bytes bs) now
    exact ⟨_, descArrival_opens ha (State.endFetch_fetchDone hst hf hb hc _ now) ((State.descCheck_fetchDone h q _ now bs).trans hok),
      hq, hqs, hrest⟩
  · obtain ⟨hrest, hq, hqs, hsteps, hent, hstr, hlead⟩ := State.opening_opens h q
    exact ⟨s.opening q, hrest, hq, hqs, hsteps, hent, hstr, hlead, State.openStep_sheds, fun e hs he => State.openStep_fails hs he,
      fun jobs ds fs hs he hm hw => State.openStep_opens hs he hm fun sl hsl =>
        ⟨(hw sl hsl).1, (State.voided_opening h ..).trans (hw sl hsl).2⟩⟩

end Sys2Proof.Machine
end

section
/-! PROOF. What the end of steps sets off: closing records, freed buffers, hitches that serve their waiters, clusters given away. It opens no
step, leaves each open step to its context, and moves of the contexts only VT and what Table 10.1 has after it (R337, R338, R350, R368). -/

namespace Sys2Proof.Machine

variable {s t u : State}

/-- From s to t no step is opened, each step is left to its context, and of a context's entries only those from VT on have moved. -/
structure State.Aftermath (s t : State) : Prop where
  inv : t.Inv
  ctx : ∀ c j, c < 1024 → j < 0x1E → t.ctx c j = s.ctx c j
  steps : ∀ p st, (t.queue p).held = some st → ∃ st', (s.queue p).held = some st' ∧ st'.ctx = st.ctx

namespace State.Aftermath

theorem refl (h : s.Inv) : s.Aftermath s := ⟨h, fun _ _ _ _ => rfl, fun _ st hs => ⟨st, hs, rfl⟩⟩

theorem trans (h : s.Aftermath t) (h' : t.Aftermath u) : s.Aftermath u := by
  refine ⟨h'.inv, fun c j hc hj => (h'.ctx c j hc hj).trans (h.ctx c j hc hj), fun p st hs => ?_⟩
  obtain ⟨st', hs', e'⟩ := h'.steps p st hs
  obtain ⟨st'', hs'', e''⟩ := h.steps p st' hs'
  exact ⟨st'', hs'', e''.trans e'⟩

/-- A queue without a step stays so. -/
theorem vacant (h : s.Aftermath t) {p : Nat} (hp : (s.queue p).held = none) : (t.queue p).held = none := by
  rcases hs : (t.queue p).held with _ | st
  · rfl
  · obtain ⟨_, hs', -⟩ := h.steps p st hs
    rw [hp] at hs'
    cases hs'

/-! ### Single writes -/

theorem same (h : s.Aftermath t) (hi : u.Inv) (hd : u.dict = t.dict) (hq : u.sch.queues = t.sch.queues) : s.Aftermath u := by
  refine ⟨hi, fun c j hc hj => ?_, fun p st hs => h.steps p st ?_⟩
  · have := h.ctx c j hc hj
    unfold State.ctx State.entry at this ⊢
    rwa [hd]
  · unfold State.queue at hs ⊢
    rwa [← hq]

theorem setEntry (h : s.Aftermath t) {i j : Nat} (hj : j < 256) (hij : i < 0x3000 ∨ 0x3400 ≤ i ∨ 0x1E ≤ j) (x : Nat) :
    s.Aftermath (t.setEntry i j x) := by
  refine ⟨State.setEntry_inv h.inv i j x, fun c k hc hk => ?_, h.steps⟩
  rw [State.ctx, State.entry_setEntry h.inv, if_neg]
  · exact h.ctx c k hc hk
  · unfold dkey
    omega

theorem countEntry (h : s.Aftermath t) {i j : Nat} (hj : j < 256) (hij : i < 0x3000 ∨ 0x3400 ≤ i ∨ 0x1E ≤ j) (x : Nat) :
    s.Aftermath (t.countEntry i j x) := h.setEntry hj hij _

/-- A queue is written with no step, or with one of the context whose step it held at first. -/
theorem setQueue (h : s.Aftermath t) {p : Nat} {x : Queue} (hx : ∀ st, x.held = some st → ∃ st', (s.queue p).held = some st' ∧ st'.ctx = st.ctx) :
    s.Aftermath (t.setQueue p x) := by
  refine ⟨State.setQueue_inv h.inv p x, h.ctx, fun r st hs => ?_⟩
  rw [State.queue_setQueue h.inv] at hs
  split at hs
  · next e =>
    subst e
    exact hx st hs
  · exact h.steps r st hs

theorem setStep (h : s.Aftermath t) {p : Nat} {x : Step} (hx : ∃ st', (s.queue p).held = some st' ∧ st'.ctx = x.ctx) :
    s.Aftermath (t.setStep p (some x)) := h.setQueue fun _ e => by cases e; exact hx

theorem dropStep (h : s.Aftermath t) (p : Nat) : s.Aftermath (t.setStep p none) := h.setQueue nofun

theorem setReg (h : s.Aftermath t) (k : Nat) (x : W64) : s.Aftermath (t.setReg k x) := h.same (State.setReg_inv h.inv k x) rfl rfl

theorem count (h : s.Aftermath t) (k x : Nat) : s.Aftermath (t.count k x) := h.setReg k _

theorem freshWord (h : s.Aftermath t) : s.Aftermath t.freshWord.2 := h.same ((State.freshWord_keep t (Kept.refl t)).inv h.inv) rfl rfl

theorem modIb (h : s.Aftermath t) (n : Nat) {f : Ibex → Ibex} (hf : ∀ i, i.ok → (f i).ok) : s.Aftermath (t.modIb n f) :=
  h.same (State.modIb_inv h.inv n hf) rfl rfl

theorem modStream (h : s.Aftermath t) (n : Nat) (f : Stream → Stream) : s.Aftermath (t.modStream n f) :=
  h.same (State.modStream_inv h.inv n f) rfl rfl

theorem setHitch (h : s.Aftermath t) (k : Nat) (x : Hitch) : s.Aftermath (t.setHitch k x) := h.same (State.setHitch_inv h.inv k x) rfl rfl

theorem setCtxSt (h : s.Aftermath t) (k : Nat) (x : CtxSt) : s.Aftermath (t.setCtxSt k x) := h.same (State.setCtxSt_inv h.inv k x) rfl rfl

theorem setBuf (h : s.Aftermath t) (n k : Nat) (b : Buf) : s.Aftermath (t.setBuf n k b) := h.same (State.setBuf_inv h.inv n k b) rfl rfl

/-- A list gone through. -/
theorem foldl {α : Type} (h : s.Aftermath t) {f : State → α → State} {l : List α} (hf : ∀ v x, x ∈ l → s.Aftermath v → s.Aftermath (f v x)) :
    s.Aftermath (l.foldl f t) := List.foldlRecOn (motive := fun v => s.Aftermath v) l f h fun _ hv _ hx => hf _ _ hx hv

/-- A step on the list of open steps was open at first. -/
theorem opened (h : s.Aftermath t) {x : Nat × Step} (hx : x ∈ t.openSteps) : ∃ st', (s.queue x.1).held = some st' ∧ st'.ctx = x.2.ctx :=
  h.steps _ _ (State.openSteps_held h.inv hx)

/-! ### Closing records -/

theorem issue (h : s.Aftermath t) (o : Out) (wb : WriteBack) : s.Aftermath (t.issue o wb) :=
  h.same ((State.issue_keep t o wb (Kept.refl t)).inv h.inv) (State.Settled.serveWaits ..).1 (congrArg Sched.queues (State.Settled.serveWaits ..).2)

theorem msix (h : s.Aftermath t) (k n : Nat) : s.Aftermath (t.msix k n) := by
  unfold State.msix
  split
  · exact h.issue ..
  · exact h.same (State.modFn_inv h.inv ..) rfl rfl

theorem coalesce (h : s.Aftermath t) (n : Nat) : s.Aftermath (t.coalesce n) := by
  unfold State.coalesce
  split
  · exact h
  · dsimp only
    split
    · exact (h.msix ..).modStream ..
    · exact h.modStream ..

theorem placeRecord (h : s.Aftermath t) (n : Nat) (rec : List Byte) (closing : Bool) : s.Aftermath (t.placeRecord n rec closing) := by
  unfold State.placeRecord
  extract_lets tail lg phase v w x
  have hw : s.Aftermath w := (h.issue ..).setReg ..
  split
  · refine State.Aftermath.coalesce ?_ n
    unfold x
    split
    · exact hw
    · exact hw.issue ..
  · exact hw

theorem logRec (h : s.Aftermath t) (code : W16) (origin kind obj detail : Nat) : s.Aftermath (t.logRec code origin kind obj detail) := by
  have hv : s.Aftermath (if 64 ≤ t.log.length then t.countEntry 0x6000 3 1 else t) := by
    split
    · exact h.countEntry (by decide) (by decide) 1
    · exact h
  have hw := hv.setEntry (i := 0x6000) (j := 1) (by decide) (by decide) (t.entry 0x6000 1 + 1)
  exact hw.same ((State.logRec_keep t code origin kind obj detail (Kept.refl t)).inv h.inv) rfl rfl

theorem errReg (h : s.Aftermath t) (a code : Nat) : s.Aftermath (t.errReg a code) := by
  unfold State.errReg
  split
  · exact h
  · exact h.setReg ..

theorem fnErr (h : s.Aftermath t) (code : W16) (k : Nat) : s.Aftermath (t.fnErr code k) := (h.errReg ..).msix ..

/-- A closing record goes to the ring of its stream, waits, or is lost. -/
theorem putClosing (h : s.Aftermath t) {n : Nat} (hn : n < 64) (ib : Nat) (rec : List Byte) : s.Aftermath (t.putClosing n ib rec) := by
  unfold State.putClosing
  split_ifs
  · exact (h.modStream ..).placeRecord ..
  · exact (h.modStream ..).modStream ..
  · exact h
  · have hl := ((h.count (ibexReg ib 5 0x68) 1).setEntry (i := 0x2000 + n) (j := 0x1D) (by decide) (by omega) Code.SCL_RING_OVERRUN.toNat).logRec
      Code.SCL_RING_OVERRUN originDev 1 n 0
    dsimp only
    split
    · exact hl.setEntry (by decide) (by omega) _
    · exact hl

theorem closeAll (h : s.Aftermath t) (own : Bool) {st : Step} (hst : ∀ sl ∈ st.slots, sl.stream < 64) (kind : Nat) (status : W16) (keep : Bool) :
    s.Aftermath (t.closeAll own st kind status keep) := by
  refine h.foldl fun v x hx hv => ?_
  have hn := hst x.1 (List.fst_mem_of_mem_zipIdx hx)
  dsimp only
  split_ifs
  · exact hv
  · exact hv.putClosing hn ..
  · exact hv.putClosing hn ..

/-! ### Buffers -/

theorem tryPool (h : s.Aftermath t) {o n k : Nat} {spilled : Bool} (hn : n < 8) (ht : t.tryPool o n spilled = some (u, k)) : s.Aftermath u := by
  unfold State.tryPool at ht
  dsimp only at ht
  obtain ⟨-, ht⟩ := Option.ite_none_right_eq_some.1 ht
  cases ht
  refine (State.Aftermath.countEntry ?_ (by omega) (.inl (by decide)) 1).setBuf ..
  split
  · exact h.countEntry (by omega) (.inl (by decide)) 1
  · exact h

theorem coilGrant (h : s.Aftermath t) {o bytes m k : Nat} (ht : t.coilGrant o bytes = some (u, m, k)) : s.Aftermath u := by
  unfold State.coilGrant at ht
  dsimp only at ht
  obtain ⟨hn, ht⟩ := Option.ite_none_left_eq_some.1 ht
  split at ht
  · next hp =>
    cases ht
    exact h.tryPool (by omega) hp
  · obtain ⟨hc, ht⟩ := Option.ite_none_left_eq_some.1 ht
    obtain ⟨⟨v, j⟩, hp, he⟩ := Option.map_eq_some_iff.1 ht
    cases he
    refine h.tryPool ?_ hp
    rw [Bool.or_eq_true, decide_eq_true_eq, decide_eq_true_eq, not_or] at hc
    omega

theorem serveWaiters (h : s.Aftermath t) (n : Nat) : s.Aftermath (t.serveWaiters n) := by
  refine h.foldl fun v w _ hv => ?_
  split
  · next v' m k ht =>
    have hg := hv.coilGrant ht
    have hw : s.Aftermath { v' with coil := { v'.coil with waiters := v'.coil.waiters.erase w } } :=
      hg.same { hg.inv with coil := ⟨hg.inv.coil.buffers, hg.inv.coil.bases, hg.inv.coil.bufs, hg.inv.coil.resv⟩ } rfl rfl
    dsimp only
    split
    · exact hw.setBuf ..
    · exact hw
  · exact hv

theorem freeBuf (h : s.Aftermath t) (n k : Nat) : s.Aftermath (t.freeBuf n k) := by
  unfold State.freeBuf
  refine (State.Aftermath.setBuf ?_ ..).serveWaiters n
  split
  · unfold State.allocDone
    split
    · exact h.setReg ..
    · exact h
  · exact h

theorem unholdAll (h : s.Aftermath t) (st : Step) : s.Aftermath (t.unholdAll st) := by
  refine h.foldl fun v sl _ hv => ?_
  split
  · exact ((hv.modStream ..).modStream ..).foldl fun _ _ _ hw => hw.freeBuf ..
  · exact hv

/-! ### What a step holds -/

theorem endLoans (h : s.Aftermath t) (p : Loan → Bool) : s.Aftermath (t.endLoans p) := by
  refine h.foldl fun v e _ hv => ?_
  split
  · exact hv.setCtxSt ..
  · exact hv

theorem withdrawWait (h : s.Aftermath t) (p : Nat) (st : Step) : s.Aftermath (t.withdrawWait p st) := by
  unfold State.withdrawWait
  split
  · exact h
  · dsimp only
    split
    · exact h.setHitch ..
    · exact (h.setHitch ..).endLoans _

theorem stopPre (h : s.Aftermath t) (e k : Nat) : s.Aftermath (t.stopPre e k) :=
  ((h.freshWord.count (preBase + 0x20 + 8 * e) t.freshWord.1.toNat).setCtxSt k _).same
    ((State.stopPre_keep t e k (Kept.refl t)).inv h.inv) rfl rfl

theorem abandonItems (h : s.Aftermath t) (p : Nat) (st : Step) (which : Nat → Bool) : s.Aftermath (t.abandonItems p st which) :=
  State.Aftermath.count (h.foldl fun _ _ _ hv => hv.stopPre ..) ..

/-! ### The Ibex clusters that a step leaves -/

theorem gapEnds (h : s.Aftermath t) (n : Nat) : s.Aftermath (t.gapEnds n) := by
  obtain ⟨v, hd, e⟩ := State.gapEnds_next h.inv n
  have hv : s.Aftermath v := by
    obtain ⟨_, _, _, rfl⟩ := hd.rest
    exact h.same hd.inv rfl rfl
  rcases e with e | e <;> rw [e]
  · exact hv
  · exact hv.modIb n fun _ hi => ⟨hi.spm, hi.spmSyn, hi.acc, hi.accSyn, hi.slots, hi.regions⟩

theorem charge (h : s.Aftermath t) (k cycles : Nat) : s.Aftermath (t.charge k cycles) := by
  unfold State.charge
  extract_lets p w num charged payer paid spender spent last
  have hs : s.Aftermath spent := ((h.setEntry (j := 0x1E) (by decide) (by omega) _).setCtxSt ..).setCtxSt ..
  exact hs.same { hs.inv with ctxs := hs.inv.ctxs } rfl rfl

theorem leaveIbexes (h : s.Aftermath t) (st : Step) (sure : Option Nat) : s.Aftermath (t.leaveIbexes st sure) := by
  unfold State.leaveIbexes
  split
  · refine h.foldl fun v r _ hv => ?_
    dsimp only
    split
    · exact ((hv.charge ..).gapEnds _).modIb _ fun _ => Ibex.stop_ok
    · exact ((hv.freshWord.charge ..).gapEnds _).modIb _ fun _ => Ibex.stop_ok
  · exact h

theorem tally (h : s.Aftermath t) (st : Step) : s.Aftermath (t.tally st) := by
  unfold State.tally
  extract_lets v w
  have hv : s.Aftermath v := by
    unfold v
    split
    · exact h.countEntry (by decide) (by omega) _
    · exact h
  have hw : s.Aftermath w := by
    unfold w
    split
    · exact hv.countEntry (by decide) (by omega) _
    · exact hv
  split
  · exact hw
  · exact hw.freshWord.countEntry (by decide) (by omega) _

theorem unreserve (h : s.Aftermath t) (p : Nat) :
    s.Aftermath ((List.range 8).foldl (fun s n => if (s.ib n).reserved = some p then s.modIb n fun i => { i with reserved := none } else s) t) := by
  refine h.foldl fun v n _ hv => ?_
  split
  · exact hv.modIb n fun _ hi => ⟨hi.spm, hi.spmSyn, hi.acc, hi.accSyn, hi.slots, hi.regions⟩
  · exact hv

theorem releaseParts (h : s.Aftermath t) (c : Nat) : s.Aftermath (t.releaseParts c) := by
  refine h.foldl fun v n _ hv => ?_
  split
  · exact hv.modIb n fun _ hi => Ibex.evict_ok hi
  · exact hv

/-- A step that is gone. -/
theorem takeStep (h : s.Aftermath t) (p : Nat) (st : Step) (sure : Option Nat) : s.Aftermath (t.takeStep p st sure) := by
  unfold State.takeStep
  extract_lets a b d
  have hb : s.Aftermath b := (((h.leaveIbexes st sure).dropStep p).tally st).unreserve p
  have hd : s.Aftermath d := by
    refine hb.foldl fun v x hx hv => ?_
    split
    · exact hv.setStep (hb.opened hx)
    · exact hv
  exact (((hd.abandonItems ..).withdrawWait ..).endLoans _).unholdAll st

end State.Aftermath

end Sys2Proof.Machine
end

section
/-! PROOF. What the end of steps sets off, continued: hitches and placement (R354 to R356, R365, R368). -/

namespace Sys2Proof.Machine

variable {s t u : State}

namespace State.Aftermath

/-! ### Hitches -/

theorem raiseVt (h : s.Aftermath t) (k : Nat) : s.Aftermath (t.raiseVt k) := by
  unfold State.raiseVt
  extract_lets act ref
  split
  · exact h
  · split
    · exact h.setEntry (by decide) (by omega) _
    · exact h

theorem leaveIdle (h : s.Aftermath t) : s.Aftermath t.leaveIdle := by
  unfold State.leaveIdle
  split
  · exact (h.setEntry (by decide) (by decide) _).foldl fun _ n _ hv =>
      hv.modIb n fun _ hi => ⟨hi.spm, hi.spmSyn, hi.acc, hi.accSyn, hi.slots, hi.regions⟩
  · exact h

theorem hitchDone (h : s.Aftermath t) (rs : List Rank) (on : Bool) : s.Aftermath (t.hitchDone rs on) := by
  refine h.foldl fun v r _ hv => ?_
  split_ifs
  · refine State.Aftermath.count ?_ ..
    exact hv.modIb _ fun _ hi => ⟨hi.spm, hi.spmSyn, hi.acc, hi.accSyn, hi.slots, hi.regions⟩
  · exact hv.count ..
  · exact hv

theorem serveLoop (k fuel : Nat) {t : State} (h : s.Aftermath t) : s.Aftermath (t.serveLoop k fuel) := by
  induction fuel generalizing t with
  | zero => exact h
  | succ fuel ih =>
    unfold State.serveLoop
    dsimp only
    split
    · exact h
    · next w ws _ =>
      split
      · exact h
      · split
        · exact ih (h.setHitch ..)
        · next st hst =>
          have hv : s.Aftermath (if st.active then t else (t.raiseVt st.ctx).leaveIdle) := by
            split
            · exact h
            · exact (h.raiseVt _).leaveIdle
          exact ih (((hv.hitchDone ..).setHitch ..).setStep (h.steps _ st hst))

theorem releaseHitch (h : s.Aftermath t) (k : Nat) : s.Aftermath (t.releaseHitch k) := by
  unfold State.releaseHitch
  extract_lets v w
  have hv : s.Aftermath v := h.endLoans _
  refine State.Aftermath.serveLoop _ _ (State.Aftermath.setHitch ?_ ..)
  refine hv.foldl fun x y hy hx => ?_
  split
  · exact hx.setStep (hv.opened hy)
  · exact hx

theorem forceHitches (h : s.Aftermath t) (st : Step) : s.Aftermath (t.forceHitches st) := by
  unfold State.forceHitches
  extract_lets v
  have hv : s.Aftermath v := by
    unfold v
    split
    · exact h.serveLoop ..
    · exact h
  refine hv.foldl fun w k _ hw => ?_
  split
  · exact ((hw.releaseHitch k).countEntry (by decide) (by decide) _).countEntry (by decide) (by omega) _
  · exact hw

/-! ### Placement -/

theorem flipSpm (h : s.Aftermath t) (n w k : Nat) : s.Aftermath (t.flipSpm n w k) := by
  refine h.same ((State.flipSpm_keep t n w k (Kept.refl t)).inv h.inv) ?_ ?_ <;>
  · unfold State.flipSpm
    split <;> rfl

theorem flipAcc (h : s.Aftermath t) (n e m j k : Nat) : s.Aftermath (t.flipAcc n e m j k) := by
  refine h.same ((State.flipAcc_keep t n e m j k (Kept.refl t)).inv h.inv) ?_ ?_ <;>
  · unfold State.flipAcc
    dsimp only
    split <;> rfl

theorem grantIbex (h : s.Aftermath t) (n k : Nat) : s.Aftermath (t.grantIbex n k).1 := by
  unfold State.grantIbex
  split
  · exact h
  · dsimp only
    split
    · exact h
    · refine State.Aftermath.flipAcc (State.Aftermath.flipSpm (h.same (State.setIb_inv h.inv n ?_) rfl rfl) ..) ..
      have hg := foldl_all (P := Ibex.ok) (l := t.evictions n k [] (t.victims n)) (h.inv.ib n) fun _ v hi => Ibex.evict_ok (c := v) hi
      exact ⟨Tbl.ok_clear hg.spm, Tbl.ok_clear hg.spmSyn, Tbl.ok_clear hg.acc, Tbl.ok_clear hg.accSyn, Tbl.ok_set hg.slots, hg.regions⟩

theorem reserveFor (h : s.Aftermath t) (p : Nat) (st : Step) : s.Aftermath (t.reserveFor p st) := by
  unfold State.reserveFor
  extract_lets want
  refine h.foldl fun v n _ hv => ?_
  dsimp only
  split
  · exact hv.modIb n fun _ hi => ⟨hi.spm, hi.spmSyn, hi.acc, hi.accSyn, hi.slots, hi.regions⟩
  · exact hv

theorem unblock (h : s.Aftermath t) (p : Nat) (st : Step) : s.Aftermath (t.unblock p st) := by
  unfold State.unblock
  split
  · exact h
  · split
    · exact h
    · dsimp only
      split
      · exact h
      · next hl => exact h.setStep (h.opened (List.mem_of_mem_filter (hl ▸ mem_foldl_pick ..)))

theorem preemptFor (h : s.Aftermath t) (p : Nat) (st : Step) : s.Aftermath (t.preemptFor p st) := by
  unfold State.preemptFor
  dsimp only
  split
  · exact h
  · split
    · exact h
    · next hl => exact h.setStep (h.opened (List.mem_of_mem_filter (hl ▸ mem_foldl_pick ..)))

/-- The open step of a queue is placed. -/
theorem place (h : s.Aftermath t) {p : Nat} {st : Step} (hst : (t.queue p).held = some st) (ibs : List Nat) : s.Aftermath (t.place p st ibs) := by
  unfold State.place
  extract_lets again switched a b ranks ranks' ov d st'
  have ha : s.Aftermath a := by
    refine h.foldl fun v n _ hv => ?_
    refine State.Aftermath.modIb ?_ n fun _ hi => Ibex.begin_ok hi
    dsimp only
    split
    · exact (hv.grantIbex ..).countEntry (by decide) (by decide) _
    · exact hv.grantIbex ..
  have hd : s.Aftermath d := by
    unfold d
    split
    · exact (ha.unreserve p).countEntry (by decide) (by decide) _
    · exact ha.unreserve p
  refine State.Aftermath.countEntry (hd.setQueue fun x hx => ?_) (by decide) (by decide) _
  cases hx
  exact h.steps p st hst

theorem tryPlace (h : s.Aftermath t) (p : Nat) : s.Aftermath (t.tryPlace p) := by
  unfold State.tryPlace
  split
  · exact h
  · next st hst =>
    split
    · exact h
    · extract_lets us g
      split
      · exact (h.unblock ..).preemptFor ..
      · exact h.place hst ..

theorem schedule (h : s.Aftermath t) : s.Aftermath t.schedule := by
  unfold State.schedule
  split
  · exact h
  · refine State.Aftermath.foldl (h.foldl fun v p _ hv => ?_) fun v p _ hv => hv.tryPlace p
    split
    · split
      · exact hv.reserveFor ..
      · exact hv
    · exact hv

/-! ### Steps abandoned together -/

/-- Steps that leave one after the other: their queues are empty in the end. -/
theorem takeEach (xs : List (Nat × Step)) : ∀ {s t : State}, s.Aftermath t →
    let v := xs.foldl (fun s x => match (s.queue x.1).held with | some st => s.takeStep x.1 st none | none => s) t
    s.Aftermath v ∧ ∀ x ∈ xs, (v.queue x.1).held = none := by
  induction xs with
  | nil => exact fun h => ⟨h, nofun⟩
  | cons x xs ih =>
    intro s t h
    have hstep (v : State) (hv : v.Inv) : ∃ w, (match (v.queue x.1).held with | some st => v.takeStep x.1 st none | none => v) = w ∧
        v.Aftermath w ∧ (w.queue x.1).held = none := by
      rcases hq : (v.queue x.1).held with _ | st
      · exact ⟨_, rfl, .refl hv, hq⟩
      · exact ⟨_, rfl, (refl hv).takeStep .., ((⟨hv, rfl, False.elim⟩ : v.Settled False x.1 0 _).takeStep st none).vacant trivial⟩
    obtain ⟨w, hw, hvw, hnone⟩ := hstep t h.inv
    rw [List.foldl_cons, hw]
    obtain ⟨hsv, hxs⟩ := ih (h.trans hvw)
    refine ⟨hsv, fun y hy => ?_⟩
    rcases List.mem_cons.1 hy with rfl | hy
    · exact (ih (refl hvw.inv)).1.vacant hnone
    · exact hxs y hy

theorem abandonAll (h : s.Aftermath t) {xs : List (Nat × Step)} (hxs : ∀ x ∈ xs, ∀ sl ∈ x.2.slots, sl.stream < 64) (code : Nat → Option W16) :
    s.Aftermath (t.abandonAll xs code) ∧ ∀ x ∈ xs, ((t.abandonAll xs code).queue x.1).held = none := by
  unfold State.abandonAll
  extract_lets a b
  obtain ⟨hv, hnone⟩ : s.Aftermath a ∧ ∀ x ∈ xs, (a.queue x.1).held = none := takeEach xs h
  have hrest (s : State) (hs : s.Aftermath a) : s.Aftermath (xs.foldl (fun s x => match code x.1 with
      | some c => s.closeAll ((s.queue x.1).lead == 0xFF) x.2 2 c false
      | none => s) b) := by
    refine State.Aftermath.foldl (hs.foldl fun _ _ _ hw => hw.forceHitches _) fun w x hx hw => ?_
    split
    · exact hw.closeAll _ (hxs x hx) ..
    · exact hw
  exact ⟨hrest s hv, fun x hx => (hrest a (refl hv.inv)).vacant (hnone x hx)⟩

end State.Aftermath

end Sys2Proof.Machine
end

section
/-! PROOF. A context that faults over a step (R337). -/

namespace Sys2Proof.Machine

variable {s t u : State} {c v q : Nat}

/-- The entries that a change of a context's state writes: STATE itself, the herd's CONTEXTS and EXACT_READY. -/
def State.stateKeys (s : State) (c : Nat) : List Nat := [dkey (0x3000 + c) 0x02, dkey 0x3500 (0x30 + s.ctx c 4), dkey 0x4000 2]

theorem State.setCtxState_inv (h : s.Inv) (c v : Nat) : (s.setCtxState c v).Inv := (State.setCtxState_keep s c v (Kept.refl s)).inv h

/-- A count before STATE is written is one of the two others. -/
theorem State.setCtxState_eq (h : s.Inv) (c v : Nat) : ∃ d, s.setCtxState c v = ({ s with dict := d } : State).setEntry (0x3000 + c) 0x02 v ∧
    ({ s with dict := d } : State).Inv ∧ s.EntriesBut { s with dict := d } (s.stateKeys c) := by
  have hkeep {u : State} (hu : u.Inv ∧ s.EntriesBut u (s.stateKeys c) ∧ ∃ d, u = { s with dict := d }) (i j x : Nat) (hk : dkey i j ∈ s.stateKeys c) :
      (u.setEntry i j x).Inv ∧ s.EntriesBut (u.setEntry i j x) (s.stateKeys c) ∧ ∃ d, u.setEntry i j x = { s with dict := d } := by
    obtain ⟨hi, he, d, rfl⟩ := hu
    refine ⟨State.setEntry_inv hi .., fun a b hab => ?_, _, rfl⟩
    rw [State.entry_setEntry hi, if_neg fun e : dkey a b = _ => hab (e ▸ hk)]
    exact he a b hab
  have hherd : dkey 0x3500 (0x30 + s.ctx c 4) ∈ s.stateKeys c := by simp [State.stateKeys]
  have hexact : dkey 0x4000 2 ∈ s.stateKeys c := by simp [State.stateKeys]
  unfold State.setCtxState
  extract_lets old hd exact a b d e
  have ha : a.Inv ∧ s.EntriesBut a (s.stateKeys c) ∧ ∃ d, a = { s with dict := d } := by
    unfold a
    split
    · exact hkeep ⟨h, fun _ _ _ => rfl, _, rfl⟩ _ _ _ hherd
    · exact ⟨h, fun _ _ _ => rfl, _, rfl⟩
  have hb : b.Inv ∧ s.EntriesBut b (s.stateKeys c) ∧ ∃ d, b = { s with dict := d } := by
    unfold b
    split
    · exact hkeep ha _ _ _ hherd
    · exact ha
  have hd : d.Inv ∧ s.EntriesBut d (s.stateKeys c) ∧ ∃ x, d = { s with dict := x } := by
    unfold d
    split
    · exact hkeep hb _ _ _ hexact
    · exact hb
  have he : e.Inv ∧ s.EntriesBut e (s.stateKeys c) ∧ ∃ x, e = { s with dict := x } := by
    unfold e
    split
    · exact hkeep hd _ _ _ hexact
    · exact hd
  obtain ⟨hi, hk, x, hx⟩ := he
  rw [hx] at hi hk ⊢
  exact ⟨x, rfl, hi, hk⟩

/-- A context's state written: it stands there, and beside it only the two counts of contexts have moved. -/
theorem State.setCtxState_writes (h : s.Inv) (c : Nat) {v : Nat} (hv : v < 2 ^ 64) :
    (s.setCtxState c v).ctxState c = v ∧ s.EntriesBut (s.setCtxState c v) (s.stateKeys c) ∧
    s.setCtxState c v = { s with dict := (s.setCtxState c v).dict } := by
  obtain ⟨d, he, hi, hk⟩ := State.setCtxState_eq h c v
  rw [he]
  refine ⟨?_, fun i j hij => ?_, rfl⟩
  · exact (State.entry_setEntry hi ..).trans ((if_pos rfl).trans (Nat.mod_eq_of_lt hv))
  · rw [State.entry_setEntry hi, if_neg fun e : dkey i j = _ => hij (e ▸ List.mem_cons_self ..)]
    exact hk i j hij

/-- The open step of a queue is one of its context's. -/
theorem State.mem_stepsOf (h : s.Inv) {st : Step} (hst : (s.queue q).held = some st) : (q, st) ∈ s.stepsOf st.ctx := by
  obtain ⟨e, he, rfl⟩ : ∃ e ∈ s.sch.queues, e.1 = q := by
    by_contra hno
    have hget : s.queue q = {} := Tbl.get_unlisted fun e he hq => hno ⟨e, he, hq⟩
    rw [hget] at hst
    cases hst
  rw [State.queue, Tbl.get_of_mem (Tbl.canon_pairwise h.queues) he] at hst
  exact List.mem_filter.2 ⟨List.mem_filterMap.2 ⟨e, he, by rw [hst]; rfl⟩, beq_self_eq_true _⟩

/-- An entry of a context written with LAST_CODE leaves STATE alone. -/
theorem State.lastCode_writes (h : s.Inv) (c : Nat) (code : W16) :
    let t := s.setEntry (0x3000 + c) 0x1D code.toNat
    t.ctx c 0x1D = code.toNat ∧ ∀ j, j < 256 → j ≠ 0x1D → t.ctx c j = s.ctx c j := by
  refine ⟨(State.entry_setEntry h ..).trans ((if_pos rfl).trans (Nat.mod_eq_of_lt (by have := code.isLt; omega))), fun j hj hne => ?_⟩
  refine (State.entry_setEntry h ..).trans (if_neg ?_)
  unfold dkey
  omega

/-- A READY context faults over the step of a queue: it is FAULTED, with the code, and its steps are gone (R337). -/
theorem State.faultCtx_faulted (h : s.Inv) (hc : c < 1024) (hready : s.ctxState c = 2)
    (hsl : ∀ x ∈ s.stepsOf c, ∀ sl ∈ x.2.slots, sl.stream < 64) (q : Nat) (code : W16) :
    let t := s.faultCtx c q code
    t.ctxState c = 3 ∧ t.ctx c 0x1D = code.toNat ∧ ∀ x ∈ s.stepsOf c, (t.queue x.1).held = none := by
  obtain ⟨hstate, -, hrest⟩ := State.setCtxState_writes h c (v := 3) (by decide)
  have hsteps : ((s.setCtxState c 3).unshed c).stepsOf c = s.stepsOf c := by rw [hrest]; rfl
  have hi : ((s.setCtxState c 3).unshed c).Inv := (State.unshed_keep _ c (Kept.refl _)).inv (State.setCtxState_inv h c 3)
  unfold State.faultCtx State.faultSteps State.faultOnly
  simp only [hready, ne_eq, not_true_eq_false, if_false]
  rw [hsteps]
  change ((s.setCtxState c 3).unshed c).ctxState c = 3 at hstate
  generalize (s.setCtxState c 3).unshed c = a at hi hstate ⊢
  have hmem (x : Nat × Step) : x ∈ (s.stepsOf c).filter (fun x => [q].contains x.1) ++ (s.stepsOf c).filter (fun x => !([q].contains x.1)) ↔
      x ∈ s.stepsOf c := by
    rw [List.mem_append, List.mem_filter, List.mem_filter]
    cases [q].contains x.1 <;> simp
  obtain ⟨hgone, hnone⟩ := (State.Aftermath.refl hi).abandonAll (fun x hx => hsl x ((hmem x).1 hx))
    fun p => some (if [q].contains p then code else Code.SCH_CTX_FAULTED)
  generalize a.abandonAll _ _ = b at hgone hnone ⊢
  have hb := hgone.releaseParts c
  have hleft (x) (hx : x ∈ s.stepsOf c) : ((b.releaseParts c).queue x.1).held = none :=
    ((State.Aftermath.refl hgone.inv).releaseParts c).vacant (hnone x ((hmem x).2 hx))
  generalize b.releaseParts c = d at hb hleft ⊢
  obtain ⟨hcode, hctx⟩ := State.lastCode_writes hb.inv c code
  suffices hend : ∀ t, (d.setEntry (0x3000 + c) 0x1D code.toNat).Aftermath t →
      t.ctxState c = 3 ∧ t.ctx c 0x1D = code.toNat ∧ ∀ x ∈ s.stepsOf c, (t.queue x.1).held = none from
    hend _ (((State.Aftermath.refl (State.setEntry_inv hb.inv ..)).countEntry (by decide) (.inr (.inr (by decide))) 1).fnErr ..).schedule
  intro t ht
  refine ⟨?_, ?_, fun x hx => ?_⟩
  · exact (ht.ctx c 2 hc (by decide)).trans ((hctx 2 (by decide) (by decide)).trans ((hb.ctx c 2 hc (by decide)).trans hstate))
  · exact (ht.ctx c 0x1D hc (by decide)).trans hcode
  · exact ht.vacant (hleft x hx)

end Sys2Proof.Machine
end

section
/-! PROOF. What leaves the hitches alone: an instruction that is passed, a step that parks, and placement (R354, R365). -/

namespace Sys2Proof.Machine

variable {s t : State} {n q k : Nat} {l : Loaded}

/-! ### A step that parks -/

/-- A list gone through, no element of which writes a hitch. -/
theorem State.foldl_hitches {α : Type} {f : State → α → State} (hf : ∀ u x, (f u x).sch.hitches = u.sch.hitches) (s : State) (xs : List α) :
    (xs.foldl f s).sch.hitches = s.sch.hitches :=
  foldl_all (P := fun u : State => u.sch.hitches = s.sch.hitches) rfl fun u x hu => (hf u x).trans hu

theorem State.gapEnds_hitches (s : State) (n : Nat) : (s.gapEnds n).sch.hitches = s.sch.hitches := by
  unfold State.gapEnds State.dummies
  split
  · dsimp only
    split <;> rfl
  · rfl

theorem State.leaveIbexes_hitches (s : State) (st : Step) (sure : Option Nat) : (s.leaveIbexes st sure).sch.hitches = s.sch.hitches := by
  unfold State.leaveIbexes
  split
  · refine State.foldl_hitches (fun u r => ?_) s st.ranks
    dsimp only
    split
    · exact State.gapEnds_hitches ..
    · exact State.gapEnds_hitches ..
  · rfl

theorem State.lendChain_hitches (w root : Nat) (fuel : Nat) : ∀ (s : State) (k : Nat), (s.lendChain w root k fuel).sch.hitches = s.sch.hitches := by
  induction fuel with
  | zero => exact fun _ _ => rfl
  | succ fuel ih =>
    intro s k
    unfold State.lendChain
    extract_lets h steps lent u
    split
    · rfl
    · split
      · exact ih ..
      · rfl

/-! ### Placement -/

theorem State.reserveFor_hitches (s : State) (q : Nat) (st : Step) : (s.reserveFor q st).sch.hitches = s.sch.hitches := by
  unfold State.reserveFor
  extract_lets want
  refine State.foldl_hitches (fun u m => ?_) s _
  dsimp only
  split <;> rfl

theorem State.grantIbex_hitches (s : State) (n c : Nat) : (s.grantIbex n c).1.sch.hitches = s.sch.hitches := by
  have hspm (u : State) (w k : Nat) : (u.flipSpm n w k).sch = u.sch := by
    unfold State.flipSpm
    split <;> rfl
  have hacc (u : State) (e m j k : Nat) : (u.flipAcc n e m j k).sch = u.sch := by
    unfold State.flipAcc
    dsimp only
    split <;> rfl
  unfold State.grantIbex
  split
  · rfl
  · dsimp only
    split
    · rfl
    · exact congrArg Sched.hitches ((hacc ..).trans (hspm ..))

theorem State.place_hitches (s : State) (q : Nat) (st : Step) (ibs : List Nat) : (s.place q st ibs).sch.hitches = s.sch.hitches := by
  unfold State.place
  extract_lets again switched a b ranks ranks' ov d st'
  have ha : a.sch.hitches = s.sch.hitches := by
    refine State.foldl_hitches (fun u m => ?_) s ibs
    dsimp only
    split
    · exact State.grantIbex_hitches ..
    · exact State.grantIbex_hitches ..
  have hb : b.sch.hitches = a.sch.hitches := State.foldl_hitches (fun u m => by split <;> rfl) a _
  have hd : d.sch.hitches = b.sch.hitches := by
    unfold d
    clear_value b
    split <;> rfl
  clear_value d
  exact hd.trans (hb.trans ha)

theorem State.unblock_hitches (s : State) (q : Nat) (st : Step) : (s.unblock q st).sch.hitches = s.sch.hitches := by
  unfold State.unblock
  split
  · rfl
  · split
    · rfl
    · dsimp only
      split <;> rfl

theorem State.preemptFor_hitches (s : State) (q : Nat) (st : Step) : (s.preemptFor q st).sch.hitches = s.sch.hitches := by
  unfold State.preemptFor
  dsimp only
  split
  · rfl
  · split <;> rfl

theorem State.tryPlace_hitches (s : State) (q : Nat) : (s.tryPlace q).sch.hitches = s.sch.hitches := by
  unfold State.tryPlace
  split
  · rfl
  · split
    · rfl
    · extract_lets us g
      split
      · exact (State.preemptFor_hitches ..).trans (State.unblock_hitches ..)
      · exact State.place_hitches ..

/-- Placement writes no hitch. -/
theorem State.schedule_hitches (s : State) : s.schedule.sch.hitches = s.sch.hitches := by
  unfold State.schedule
  split
  · rfl
  · refine (State.foldl_hitches State.tryPlace_hitches ..).trans (State.foldl_hitches (fun u q => ?_) s _)
    split
    · split
      · exact State.reserveFor_hitches ..
      · rfl
    · rfl

/-- A rank that waits, and the step that then parks, write no hitch. -/
theorem State.waitHitch_hitches (s : State) (n : Nat) (l : Loaded) : (s.waitHitch n l).sch.hitches = s.sch.hitches := by
  unfold State.waitHitch State.parkCheck
  split
  · rfl
  · split
    · rfl
    · split
      · rfl
      · extract_lets a st b d h
        have hd : d.sch.hitches = s.sch.hitches := State.leaveIbexes_hitches ..
        refine (State.schedule_hitches _).trans ?_
        split
        · exact (State.lendChain_hitches ..).trans hd
        · exact hd

/-! ### An instruction that is passed -/

theorem State.hitchDone_hitches (s : State) (rs : List Rank) (on : Bool) : (s.hitchDone rs on).sch.hitches = s.sch.hitches := by
  refine State.foldl_hitches (fun u r => ?_) s rs
  split_ifs <;> rfl

/-- Where a hitch instruction is passed, the walker is empty and no hitch is written (R365). -/
theorem State.passAll_passed (h : s.Inv) (n : Nat) (l : Loaded) :
    (s.passAll n l).Inv ∧ ((s.passAll n l).ib n).cur = none ∧ (s.passAll n l).sch.hitches = s.sch.hitches := by
  refine ⟨(State.passAll_keep s n l (Kept.refl s)).inv h, ?_⟩
  unfold State.passAll
  extract_lets rs u
  have hi : u.Inv := State.modStep_inv ((State.hitchDone_keep s rs true (Kept.refl s)).inv h) ..
  have hu : u.sch.hitches = s.sch.hitches := State.hitchDone_hitches ..
  have hp := ((State.passCur_passed hi n l [ibexReg n 2 0x50]).modRank fun r => { r with hpassed := r.hpassed + 1 }).count
    (List.mem_singleton_self _) 1
  exact ⟨hp.cur, (congrArg (fun u : State => u.sch.hitches) hp.rest_eq).trans hu⟩

/-! ### Hitches by number -/

theorem State.hitch_congr (h : t.sch.hitches = s.sch.hitches) (j : Nat) : t.hitch j = s.hitch j := by unfold State.hitch; rw [h]

/-- Hitch k is written and nothing that follows writes one. -/
theorem State.setHitch_alone (h : s.Inv) {x : Hitch} (ht : t.sch.hitches = (s.setHitch k x).sch.hitches) :
    t.hitch k = x ∧ s.HitchesBut t k :=
  ⟨(State.hitch_congr ht k).trans ((State.hitch_setHitch h ..).trans (if_pos rfl)),
    fun j hj => (State.hitch_congr ht j).trans ((State.hitch_setHitch h ..).trans (if_neg hj))⟩

/-- A hitch without waiters serves none. -/
theorem State.serveHitch_alone (hw : (s.hitch k).waiters = []) : s.serveHitch k = s := by
  unfold State.serveHitch
  rw [hw]
  rfl

theorem State.endLoans_hitches (s : State) (p : Loan → Bool) : (s.endLoans p).sch.hitches = s.sch.hitches := by
  refine State.foldl_hitches (fun u e => ?_) s _
  split <;> rfl

/-- Before a released hitch serves, no other write has been to a hitch. -/
theorem State.releaseHitch_eq (h : s.Inv) (k : Nat) : ∃ w : State, w.Inv ∧ w.sch.hitches = s.sch.hitches ∧
    s.releaseHitch k = (w.setHitch k { w.hitch k with held := false, holder := 0, count := 1 }).serveHitch k := by
  refine ⟨_, ?_, ?_, rfl⟩
  · refine foldl_all (P := State.Inv) ((State.endLoans_keep s _ (Kept.refl s)).inv h) fun v x hv => ?_
    split
    · exact State.setStep_inv hv ..
    · exact hv
  · exact (State.foldl_hitches (fun v x => by split <;> rfl) _ _).trans (State.endLoans_hitches ..)

/-- A lock hitch without waiters is released: it is free. -/
theorem State.releaseHitch_alone (h : s.Inv) (hw : (s.hitch k).waiters = []) :
    (s.releaseHitch k).hitch k = { s.hitch k with held := false, holder := 0, count := 1 } ∧ s.HitchesBut (s.releaseHitch k) k := by
  obtain ⟨w, hi, hh, he⟩ := State.releaseHitch_eq h k
  have hk : w.hitch k = s.hitch k := State.hitch_congr hh k
  obtain ⟨hself, hbut⟩ := State.setHitch_alone (x := { w.hitch k with held := false, holder := 0, count := 1 }) hi rfl
  rw [he, State.serveHitch_alone (by rw [hself, hk]; exact hw), hself, hk]
  exact ⟨rfl, fun j hj => (hk ▸ hbut j hj).trans (State.hitch_congr hh j)⟩

end Sys2Proof.Machine
end

section
/-! PROOF. The hitch instructions of rank 0, and the host's writes of hitches (R364, R365, R369, R370). -/

namespace Sys2Proof.Machine

variable {s t : State} {n op cycles : Nat} {l : Loaded} {st : Step} {r : Rank} {f : Loaded → State → Except W16 State}

/-! ### The frame of a hitch instruction -/

/-- The state in which rank 0 runs a hitch instruction: the cycles have been charged to the rank. -/
def State.hitchTimed (s : State) (l : Loaded) (cycles : Nat) : State := s.modRank l.queue l.rank fun r => { r with cycles := r.cycles + cycles }

theorem State.hitchTimed_inv (h : s.Inv) (l : Loaded) (cycles : Nat) : (s.hitchTimed l cycles).Inv := State.modRank_inv h ..

theorem State.runHitch_head (hc : s.curOf n op = some (l, st, r)) (hj : s.jobs n = []) (hr : l.rank = 0) :
    s.runHitch n op cycles f = match f l (s.hitchTimed l cycles) with
      | .ok t => t
      | .error code => (s.hitchTimed l cycles).unitFault n l [] code := by
  unfold State.runHitch
  rw [hc, hj]
  exact if_pos hr

theorem State.runHitch_ok (hc : s.curOf n op = some (l, st, r)) (hj : s.jobs n = []) (hr : l.rank = 0) (hf : f l (s.hitchTimed l cycles) = .ok t) :
    s.runHitch n op cycles f = t := by
  rw [State.runHitch_head hc hj hr, hf]

theorem State.runHitch_fault {code : W16} (hc : s.curOf n op = some (l, st, r)) (hj : s.jobs n = []) (hr : l.rank = 0)
    (hf : f l (s.hitchTimed l cycles) = .error code) : s.runHitch n op cycles f = (s.hitchTimed l cycles).unitFault n l [] code := by
  rw [State.runHitch_head hc hj hr, hf]

/-! ### The instructions -/

/-- Rank 0 joins the waiters at the tail. -/
theorem State.joinHitch_waits (h : s.Inv) (n : Nat) (l : Loaded) (k m : Nat) :
    (s.joinHitch n l k m).hitch k = { s.hitch k with waiters := (s.hitch k).waiters ++ [⟨l.queue, m⟩] } ∧ s.HitchesBut (s.joinHitch n l k m) k :=
  State.setHitch_alone h (State.waitHitch_hitches ..)

/-- A hitch is written and rank 0 passes. -/
theorem State.passAll_setHitch (h : s.Inv) (n : Nat) (l : Loaded) (k : Nat) (x : Hitch) (f : Step → Step) :
    let t := ((s.setHitch k x).modStep l.queue f).passAll n l
    (t.ib n).cur = none ∧ t.hitch k = x ∧ s.HitchesBut t k := by
  obtain ⟨-, hcur, hh⟩ := State.passAll_passed (State.modStep_inv (State.setHitch_inv h k x) l.queue f) n l
  exact ⟨hcur, State.setHitch_alone h hh⟩

theorem State.hwait_passes (hl : (s.hitch (hitchNo l.raw)).lock = false) (hw : (s.hitch (hitchNo l.raw)).waiters = [])
    (hm : hitchN l.raw ≤ (s.hitch (hitchNo l.raw)).count) : s.hwait n l = .ok ((s.setHitch (hitchNo l.raw)
      { s.hitch (hitchNo l.raw) with count := (s.hitch (hitchNo l.raw)).count - hitchN l.raw }).passAll n l) := by
  unfold State.hwait
  simp only [hl, hw, hm, Bool.false_eq_true, if_false, List.isEmpty_nil, decide_true, Bool.and_self, if_true]

theorem State.hwait_waits (hl : (s.hitch (hitchNo l.raw)).lock = false)
    (hw : (s.hitch (hitchNo l.raw)).waiters ≠ [] ∨ (s.hitch (hitchNo l.raw)).count < hitchN l.raw) :
    s.hwait n l = .ok (s.joinHitch n l (hitchNo l.raw) (hitchN l.raw)) := by
  have hno : ((s.hitch (hitchNo l.raw)).waiters.isEmpty && decide (hitchN l.raw ≤ (s.hitch (hitchNo l.raw)).count)) = false := by
    rw [Bool.and_eq_false_iff, List.isEmpty_eq_false_iff, decide_eq_false_iff_not, Nat.not_le]
    exact hw
  unfold State.hwait
  simp only [hl, hno, Bool.false_eq_true, if_false]

theorem State.hwait_mode (hl : (s.hitch (hitchNo l.raw)).lock = true) : s.hwait n l = .error Code.SCH_HITCH_MODE := if_pos hl

theorem State.hacquire_passes (hl : (s.hitch (hitchNo l.raw)).lock = true) (hw : (s.hitch (hitchNo l.raw)).waiters = [])
    (hm : (s.hitch (hitchNo l.raw)).count = 1) : s.hacquire n l = .ok (((s.setHitch (hitchNo l.raw)
      { s.hitch (hitchNo l.raw) with count := 0, holder := l.ctx, held := true }).modStep l.queue fun st =>
        { st with holds := st.holds ++ [hitchNo l.raw] }).passAll n l) := by
  unfold State.hacquire
  simp only [hl, hw, hm, Bool.not_true, Bool.false_eq_true, if_false, List.isEmpty_nil, beq_self_eq_true, Bool.and_self, if_true]

theorem State.hacquire_waits (hl : (s.hitch (hitchNo l.raw)).lock = true)
    (hw : (s.hitch (hitchNo l.raw)).waiters ≠ [] ∨ (s.hitch (hitchNo l.raw)).count ≠ 1) :
    s.hacquire n l = .ok (s.joinHitch n l (hitchNo l.raw) 1) := by
  have hno : ((s.hitch (hitchNo l.raw)).waiters.isEmpty && (s.hitch (hitchNo l.raw)).count == 1) = false := by
    rw [Bool.and_eq_false_iff, List.isEmpty_eq_false_iff, beq_eq_false_iff_ne]
    exact hw
  unfold State.hacquire
  simp only [hl, hno, Bool.not_true, Bool.false_eq_true, if_false]

theorem State.hacquire_mode (hl : (s.hitch (hitchNo l.raw)).lock = false) : s.hacquire n l = .error Code.SCH_HITCH_MODE := by
  unfold State.hacquire
  simp only [hl, Bool.not_false, if_true]

theorem State.hsignal_passes (hl : (s.hitch (hitchNo l.raw)).lock = false) (hm : (s.hitch (hitchNo l.raw)).count + hitchN l.raw ≤ 65535) :
    s.hsignal n l = .ok ((((s.setHitch (hitchNo l.raw)
      { s.hitch (hitchNo l.raw) with count := (s.hitch (hitchNo l.raw)).count + hitchN l.raw }).passAll n l).serveHitch (hitchNo l.raw)).schedule) := by
  unfold State.hsignal
  simp only [hl, Nat.not_lt.2 hm, Bool.false_eq_true, if_false]

theorem State.hsignal_overflow (hl : (s.hitch (hitchNo l.raw)).lock = false) (hm : 65535 < (s.hitch (hitchNo l.raw)).count + hitchN l.raw) :
    s.hsignal n l = .error Code.SCH_HITCH_OVF := by
  unfold State.hsignal
  simp only [hl, hm, Bool.false_eq_true, if_false, if_true]

theorem State.hsignal_mode (hl : (s.hitch (hitchNo l.raw)).lock = true) : s.hsignal n l = .error Code.SCH_HITCH_MODE := if_pos hl

theorem State.hrelease_passes (hl : (s.hitch (hitchNo l.raw)).lock = true) (hh : (s.hitch (hitchNo l.raw)).held = true)
    (ho : (s.hitch (hitchNo l.raw)).holder = l.ctx) : s.hrelease n l = .ok ((s.passAll n l).releaseHitch (hitchNo l.raw)).schedule := by
  unfold State.hrelease
  simp only [hl, hh, ho, Bool.not_true, bne_self_eq_false, Bool.or_self, Bool.false_eq_true, if_false]

theorem State.hrelease_mode (hno : (s.hitch (hitchNo l.raw)).lock = false ∨ (s.hitch (hitchNo l.raw)).held = false ∨
    (s.hitch (hitchNo l.raw)).holder ≠ l.ctx) : s.hrelease n l = .error Code.SCH_HITCH_MODE := by
  have hcond : (!(s.hitch (hitchNo l.raw)).lock || !(s.hitch (hitchNo l.raw)).held || (s.hitch (hitchNo l.raw)).holder != l.ctx) = true := by
    simp only [Bool.or_eq_true, Bool.not_eq_true', bne_iff_ne, or_assoc]
    exact hno
  exact if_pos hcond

/-- What serves a hitch without waiters and then places steps has written nothing more to a hitch. -/
theorem State.served_alone (h : s.Inv) {k : Nat} {x : Hitch} (ht : t.sch.hitches = (s.setHitch k x).sch.hitches) (hx : x.waiters = []) :
    ((t.serveHitch k).schedule).hitch k = x ∧ s.HitchesBut (t.serveHitch k).schedule k := by
  have hself := (State.setHitch_alone h ht).1
  rw [State.serveHitch_alone (by rw [hself]; exact hx)]
  exact State.setHitch_alone h ((State.schedule_hitches t).trans ht)

/-! ### The host's writes -/

/-- A refused write of a hitch writes no part of the scheduler. -/
theorem State.hitchRefuse_sch (h : s.Inv) {code : W16} (hc : code.toNat / 256 = 7) (fn k v : Nat) : (s.hitchRefuse code fn k v).sch = s.sch :=
  (State.schRefusal h hc fn 7 k v).1.sch

/-- SCH_HSIG (R369). -/
theorem State.hostSignal_eq (s : State) (fn v : Nat) : s.hostSignal fn v =
    if field v 31 16 = 0 ∨ (s.hitch (v % 4096)).lock = true ∨ 65535 < (s.hitch (v % 4096)).count + field v 31 16 then
      s.hitchRefuse (if field v 31 16 = 0 then Code.SCH_HITCH_FIELD else if (s.hitch (v % 4096)).lock then Code.SCH_HITCH_MODE
        else Code.SCH_HITCH_OVF) fn (v % 4096) v
    else ((s.setHitch (v % 4096) { s.hitch (v % 4096) with
      count := (s.hitch (v % 4096)).count + field v 31 16 }).serveHitch (v % 4096)).schedule := by
  unfold State.hostSignal
  by_cases hm : field v 31 16 = 0
  · simp only [hm, true_or, if_true]
  by_cases hl : (s.hitch (v % 4096)).lock = true
  · simp only [hm, hl, true_or, or_true, if_true, if_false]
  by_cases hc : 65535 < (s.hitch (v % 4096)).count + field v 31 16
  · simp only [hm, hl, hc, or_true, if_true, if_false, Bool.false_eq_true]
  · simp only [hm, hl, hc, Bool.false_eq_true, or_self, if_false]

end Sys2Proof.Machine
end

section
/-! PROOF. O22: hitches. -/

namespace Sys2Proof.Machine

/-- HITCH_TIMEOUT: the context of a step that waits faults (R365). -/
theorem State.hitchTimeout_faults {s : State} {q : QueueId} {st : Step} {w : Nat × Nat × Nat} (h : s.Inv) (hst : (s.queue q.val).held = some st)
    (hw : st.waits = some w) : ∃ t, exec (.hitchTimeout q) s = .next t ∧ t = s.faultCtx st.ctx q.val Code.SCH_HITCH_TIMEOUT ∧
      (st.ctx < 1024 → s.ctxState st.ctx = 2 → (∀ x ∈ s.stepsOf st.ctx, ∀ sl ∈ x.2.slots, sl.stream < 64) → t.ctxState st.ctx = 3 ∧
        t.ctx st.ctx 0x1D = Code.SCH_HITCH_TIMEOUT.toNat ∧ (t.queue q.val).held = none) := by
  have hexec : exec (.hitchTimeout q) s = .next (s.faultCtx st.ctx q.val Code.SCH_HITCH_TIMEOUT) := by
    change execHitchTimeout q s = _
    unfold execHitchTimeout
    rw [hst]
    exact if_pos (by rw [hw]; rfl)
  refine ⟨_, hexec, rfl, fun hc hready hsl => ?_⟩
  obtain ⟨hstate, hcode, hnone⟩ := State.faultCtx_faulted h hc hready hsl q.val Code.SCH_HITCH_TIMEOUT
  exact ⟨hstate, hcode, hnone (q.val, st) (State.mem_stepsOf h hst)⟩

/-- SCH_HITCHk: what is taken, and what is refused (R369, R370). -/
theorem State.hostHitch_eq (s : State) (fn k v : Nat) :
    let h := s.hitch k
    let busy := (h.held || !h.waiters.isEmpty) && (bitOf v 27 != h.lock || field v 35 28 != h.herds || (h.held && v % 65536 != h.count))
    let wrong := bitOf v 27 && v % 65536 != (if h.held then 0 else 1)
    s.hostHitch fn k v = if busy = true ∨ wrong = true then
        s.hitchRefuse (if busy then Code.SCH_HITCH_BUSY else Code.SCH_HITCH_MODE) fn k v
      else ((s.setHitch k { h with count := v % 65536, lock := bitOf v 27, herds := field v 35 28 }).serveHitch k).schedule := by
  intro h busy wrong
  change (if busy = true then s.hitchRefuse Code.SCH_HITCH_BUSY fn k v else if wrong = true then s.hitchRefuse Code.SCH_HITCH_MODE fn k v
    else ((s.setHitch k { h with count := v % 65536, lock := bitOf v 27, herds := field v 35 28 }).serveHitch k).schedule) = _
  generalize busy = b
  generalize wrong = w
  cases b
  · cases w
    · simp only [Bool.false_eq_true, or_self, if_false]
    · simp only [Bool.false_eq_true, or_true, if_true, if_false]
  · simp only [true_or, if_true]

section
variable {s : State} {n : IbexId} {l : Loaded} {st : Step} {r : Rank} {cycles : Nat}

/-- HSIGNAL where it is passed (R365). -/
theorem execHsignal_passes (h : s.Inv) (hj : s.jobs n.val = []) (hr : l.rank = 0) (hc : s.curOf n.val 0x05 = some (l, st, r))
    (hl : (s.hitch (hitchNo l.raw)).lock = false) (hm : (s.hitch (hitchNo l.raw)).count + hitchN l.raw ≤ 65535) :
    let x := { s.hitch (hitchNo l.raw) with count := (s.hitch (hitchNo l.raw)).count + hitchN l.raw }
    let t := ((((s.hitchTimed l 0).setHitch (hitchNo l.raw) x).passAll n.val l).serveHitch (hitchNo l.raw)).schedule
    exec (.hsignal n) s = .next t ∧
      ((s.hitch (hitchNo l.raw)).waiters = [] → t.hitch (hitchNo l.raw) = x ∧ s.HitchesBut t (hitchNo l.raw)) := by
  intro x t
  refine ⟨congrArg Host.Outcome.next (State.runHitch_ok hc hj hr (State.hsignal_passes hl hm)), fun hw => ?_⟩
  have hi := State.hitchTimed_inv h l 0
  obtain ⟨-, -, hh⟩ := State.passAll_passed (State.setHitch_inv hi (hitchNo l.raw) x) n.val l
  exact State.served_alone (s := s.hitchTimed l 0) hi hh hw

/-- HRELEASE where it is passed (R365). -/
theorem execHrelease_passes (h : s.Inv) (hj : s.jobs n.val = []) (hr : l.rank = 0) (hc : s.curOf n.val 0x07 = some (l, st, r))
    (hl : (s.hitch (hitchNo l.raw)).lock = true) (hh : (s.hitch (hitchNo l.raw)).held = true) (ho : (s.hitch (hitchNo l.raw)).holder = l.ctx) :
    let t := (((s.hitchTimed l 0).passAll n.val l).releaseHitch (hitchNo l.raw)).schedule
    exec (.hrelease n) s = .next t ∧ ((s.hitch (hitchNo l.raw)).waiters = [] →
      t.hitch (hitchNo l.raw) = { s.hitch (hitchNo l.raw) with held := false, holder := 0, count := 1 } ∧ s.HitchesBut t (hitchNo l.raw)) := by
  refine ⟨congrArg Host.Outcome.next (State.runHitch_ok hc hj hr (State.hrelease_passes hl hh ho)), fun hw => ?_⟩
  obtain ⟨hi, -, hp⟩ := State.passAll_passed (State.hitchTimed_inv h l 0) n.val l
  have hk (j : Nat) : ((s.hitchTimed l 0).passAll n.val l).hitch j = s.hitch j := State.hitch_congr hp j
  generalize (s.hitchTimed l 0).passAll n.val l = u at hi hk ⊢
  obtain ⟨hself, hbut⟩ := State.releaseHitch_alone (k := hitchNo l.raw) hi (by rw [hk]; exact hw)
  have hs (j : Nat) := State.hitch_congr (State.schedule_hitches (u.releaseHitch (hitchNo l.raw))) j
  exact ⟨(hs _).trans (hself.trans (by rw [hk])), fun j hj => (hs j).trans ((hbut j hj).trans (hk j))⟩

end

/-- Settles O22: each hitch instruction of rank 0 and each write of the host is one write of its hitch, and what follows it (the ranks that
pass or park, placement) writes none but to serve waiters; a time-out is a fault of the context. -/
theorem hitchesServeInOrder : Obligations.HitchesServeInOrder := by
  unfold Obligations.HitchesServeInOrder
  refine ⟨fun s n l st r cycles h hj hr => ?_, fun s0 fn v h hs => ?_, fun s0 fn k v h hs => ?_,
    fun s q st w h hst hw => State.hitchTimeout_faults h hst hw⟩
  · have hi := State.hitchTimed_inv h l cycles
    refine ⟨fun hc => ⟨fun hl hw hm => ?_, fun hl hw => ?_, fun hl => ?_⟩, fun hc => ⟨fun hl hw hm => ?_, fun hl hw => ?_, fun hl => ?_⟩,
      fun h0 hc => ⟨fun hl hm => ?_, fun hl hm => ?_, fun hl => ?_⟩, fun h0 hc => ⟨fun hl hh ho => ?_, fun hno => ?_⟩⟩
    · obtain ⟨-, hcur, hh⟩ := State.passAll_passed (State.setHitch_inv hi ..) n.val l
      obtain ⟨hself, hbut⟩ := State.setHitch_alone hi hh
      exact ⟨_, congrArg Host.Outcome.next (State.runHitch_ok hc hj hr (State.hwait_passes hl hw hm)), hcur, hself, hbut, rfl⟩
    · obtain ⟨hself, hbut⟩ := State.joinHitch_waits hi n.val l (hitchNo l.raw) (hitchN l.raw)
      exact ⟨_, congrArg Host.Outcome.next (State.runHitch_ok hc hj hr (State.hwait_waits hl hw)), hself, hbut, rfl⟩
    · exact congrArg Host.Outcome.next (State.runHitch_fault hc hj hr (State.hwait_mode hl))
    · obtain ⟨hcur, hself, hbut⟩ := State.passAll_setHitch hi n.val l (hitchNo l.raw)
        { s.hitch (hitchNo l.raw) with count := 0, holder := l.ctx, held := true } fun st => { st with holds := st.holds ++ [hitchNo l.raw] }
      exact ⟨_, congrArg Host.Outcome.next (State.runHitch_ok hc hj hr (State.hacquire_passes hl hw hm)), hcur, hself, hbut, rfl⟩
    · obtain ⟨hself, hbut⟩ := State.joinHitch_waits hi n.val l (hitchNo l.raw) 1
      exact ⟨_, congrArg Host.Outcome.next (State.runHitch_ok hc hj hr (State.hacquire_waits hl hw)), hself, hbut, rfl⟩
    · exact congrArg Host.Outcome.next (State.runHitch_fault hc hj hr (State.hacquire_mode hl))
    · subst h0
      obtain ⟨he, ht⟩ := execHsignal_passes h hj hr hc hl hm
      exact ⟨_, he, ht, rfl⟩
    · subst h0
      exact congrArg Host.Outcome.next (State.runHitch_fault hc hj hr (State.hsignal_overflow hl hm))
    · subst h0
      exact congrArg Host.Outcome.next (State.runHitch_fault hc hj hr (State.hsignal_mode hl))
    · subst h0
      obtain ⟨he, ht⟩ := execHrelease_passes h hj hr hc hl hh ho
      exact ⟨_, he, ht, rfl⟩
    · subst h0
      exact congrArg Host.Outcome.next (State.runHitch_fault hc hj hr (State.hrelease_mode hno))
  · have hi := State.received_inv h 4
    have hexec : exec (.schHsigWrite fn v) s0 = .next ((s0.received 4).hostSignal fn.val v.toNat) :=
      State.hostAct_serving hs 4 fun s => s.hostSignal fn.val v.toNat
    rw [State.hostSignal_eq] at hexec
    refine ⟨fun hm hl hc => ?_, fun hno => ?_⟩
    · rw [if_neg (by rw [hl]; simp [hm, Nat.not_lt.2 hc])] at hexec
      exact ⟨_, hexec, fun hw => State.served_alone hi rfl hw, rfl⟩
    · rw [if_pos hno] at hexec
      refine ⟨_, hexec, State.hitchRefuse_sch hi ?_ .., rfl⟩
      split_ifs <;> decide
  · have hi := State.received_inv h 8
    have hexec : exec (.schHitchWrite fn k v) s0 =
        .next (if fn.val = 0 then (s0.received 8).hostHitch 0 k.val v.toNat else s0.received 8) :=
      State.hostAct_serving hs 8 fun s => if fn.val = 0 then s.hostHitch 0 k.val v.toNat else s
    refine ⟨fun hf => ?_, fun hf hb hw => ?_, fun hf hno => ?_⟩
    · rw [if_neg hf] at hexec
      exact hexec
    · rw [if_pos hf, State.hostHitch_eq, if_neg (by rw [hb, hw]; decide)] at hexec
      exact ⟨_, hexec, fun hn => State.served_alone hi rfl hn, rfl⟩
    · rw [if_pos hf, State.hostHitch_eq, if_pos hno] at hexec
      refine ⟨_, hexec, State.hitchRefuse_sch hi ?_ .., rfl⟩
      split_ifs <;> decide

end Sys2Proof.Machine
end

section
/-! PROOF. Free units of a herd's aperture, a context that starts unshed, and the pseudo-channels that leave self-refresh (R335, R388, R398,
R474). -/

namespace Sys2Proof.Machine

variable {s t u : State} {c : Nat}

/-! ### The lowest run of free units -/

/-- One unit further up: the length of the run of free units that ends there, and the run sought, once it is found. -/
def freeNext (free : Nat → Bool) (u : Nat) : Nat × Option Nat → Nat → Nat × Option Nat
  | (run, some y), _ => (run, some y)
  | (run, none), x =>
    let run' := if free x then run + 1 else 0
    (run', if run' = u then some (x + 1 - u) else none)

/-- What is known after m units: a run that was found is free, and the last units are as free as they count. -/
def FreeUpTo (free : Nat → Bool) (u m : Nat) : Nat × Option Nat → Prop
  | (_, some y) => ∀ i, y ≤ i → i < y + u → free i = true
  | (run, none) => run ≤ m ∧ ∀ i, m - run ≤ i → i < m → free i = true

theorem freeUpTo_freeNext {free : Nat → Bool} {u m : Nat} {a : Nat × Option Nat} (h : FreeUpTo free u m a) :
    FreeUpTo free u (m + 1) (freeNext free u a m) := by
  obtain ⟨run, _ | y⟩ := a
  · obtain ⟨hle, hrun⟩ := h
    have hnew : (if free m then run + 1 else 0) ≤ m + 1 ∧ ∀ i, m + 1 - (if free m then run + 1 else 0) ≤ i → i < m + 1 → free i = true := by
      split
      · next hf =>
        refine ⟨by omega, fun i hlo hhi => ?_⟩
        rcases Nat.lt_succ_iff_lt_or_eq.1 hhi with hi | rfl
        · exact hrun i (by omega) hi
        · exact hf
      · exact ⟨by omega, fun i hlo hhi => by omega⟩
    unfold freeNext
    dsimp only
    generalize (if free m then run + 1 else 0) = k at hnew ⊢
    obtain ⟨hk, hfree⟩ := hnew
    split
    · next e =>
      subst e
      exact fun i hlo hhi => hfree i hlo (by omega)
    · exact ⟨hk, hfree⟩
  · exact h

/-- What is found is free (R388). -/
theorem State.freeRun_free {h u x : Nat} (hx : s.freeRun h u = some x) : ∀ i, x ≤ i → i < x + u → s.unitFree h i = true := by
  have hscan (m : Nat) : FreeUpTo (s.unitFree h) u m ((List.range m).foldl (freeNext (s.unitFree h) u) (0, none)) := by
    induction m with
    | zero => exact ⟨Nat.le_refl 0, fun i _ hi => absurd hi (Nat.not_lt_zero i)⟩
    | succ m ih =>
      rw [List.range_succ, List.foldl_append]
      exact freeUpTo_freeNext ih
  have hend := hscan (s.apertureMib (h + 1) / 2)
  have hfold : s.freeRun h u = ((List.range (s.apertureMib (h + 1) / 2)).foldl (freeNext (s.unitFree h) u) (0, none)).2 := by
    refine congrArg Prod.snd (List.foldl_ext _ _ _ fun a x _ => ?_)
    obtain ⟨run, _ | y⟩ := a <;> rfl
  rw [hfold] at hx
  generalize List.foldl _ _ _ = r at hend hx
  obtain ⟨run, _ | y⟩ := r
  · cases hx
  · cases hx
    exact hend

/-- The state with an allocation added (R388). -/
def State.withAlloc (s : State) (a : Alloc) : State := { s with mem := { s.mem with allocs := s.mem.allocs ++ [a] } }

theorem State.unitFree_withAlloc (s : State) (a : Alloc) (i : Nat) :
    (s.withAlloc a).unitFree a.herd i = true ↔ s.unitFree a.herd i = true ∧ (i < a.unit ∨ a.unit + a.size ≤ i) := by
  unfold State.unitFree State.withAlloc
  rw [List.any_append, Bool.not_or, Bool.and_eq_true, List.any_cons, List.any_nil]
  simp only [beq_self_eq_true, Bool.true_and, Bool.or_false, Bool.not_eq_true', Bool.and_eq_false_iff, decide_eq_false_iff_not, Nat.not_le, Nat.not_lt]

/-! ### The queues of a context that starts unshed -/

/-- Queues of a list taken out of shedding one after the other. -/
theorem State.unshedQueues (xs : List (Nat × Queue)) : ∀ {s : State}, s.Inv →
    let t := xs.foldl (fun s e => s.setQueue e.1 { (s.queue e.1) with shedAt := false }) s
    t.Inv ∧ (∀ q, t.queue q = if ∃ e ∈ xs, e.1 = q then { s.queue q with shedAt := false } else s.queue q) ∧
      t = { s with sch := { s.sch with queues := t.sch.queues } } := by
  induction xs with
  | nil => exact fun h => ⟨h, fun q => (if_neg (by simp)).symm, rfl⟩
  | cons e xs ih =>
    intro s h
    obtain ⟨hi, hq, hr⟩ := ih (State.setQueue_inv h e.1 { s.queue e.1 with shedAt := false })
    rw [List.foldl_cons]
    generalize List.foldl _ _ _ = t at hi hq hr ⊢
    refine ⟨hi, fun q => ?_, hr⟩
    rw [hq, State.queue_setQueue h]
    by_cases hqe : q = e.1
    · subst hqe
      simp
    · have hex : (∃ x ∈ e :: xs, x.1 = q) ↔ ∃ x ∈ xs, x.1 = q := by simp [Ne.symm hqe]
      simp only [hex, if_neg hqe]

/-- A period opened shed for the context is one no more; of another context it stays as it was. -/
theorem Queue.unshed_eq (x : Queue) (c : Nat) :
    (if (x.shedAt && x.ctx == c) = true then { x with shedAt := false } else x) = { x with shedAt := x.shedAt && x.ctx != c } := by
  unfold bne
  rcases hc : x.ctx == c
  · simp
  · cases hs : x.shedAt
    · simp [← hs]
    · simp

/-- A context starts unshed: it is off the list, and so are the present periods of its queues (R474). -/
theorem State.startUnshed_unsheds (h : s.Inv) (c : Nat) :
    let t := s.startUnshed c
    t.Inv ∧ c ∉ t.sch.shed ∧ (∀ q, t.queue q = { s.queue q with shedAt := (s.queue q).shedAt && (s.queue q).ctx != c }) ∧
      t = { s with sch := { s.sch with shed := t.sch.shed, queues := t.sch.queues } } := by
  have hu : (s.unshed c).Inv := (State.unshed_keep s c (Kept.refl s)).inv h
  obtain ⟨hi, hq, hr⟩ := State.unshedQueues (s.sch.queues.filter fun e => e.2.shedAt && e.2.ctx == c) hu
  unfold State.startUnshed
  generalize List.foldl _ _ _ = t at hi hq hr ⊢
  refine ⟨hi, ?_, fun q => ?_, ?_⟩
  · rw [hr]
    exact fun hc => absurd (List.mem_filter.1 hc).2 (by simp)
  · have hlisted : (∃ e ∈ s.sch.queues.filter (fun e => e.2.shedAt && e.2.ctx == c), e.1 = q) ↔
        ((s.queue q).shedAt && (s.queue q).ctx == c) = true := by
      constructor
      · rintro ⟨e, he, rfl⟩
        obtain ⟨he, hp⟩ := List.mem_filter.1 he
        rwa [State.queue, Tbl.get_of_mem (Tbl.canon_pairwise h.queues) he]
      · intro hp
        by_contra hno
        have hget : s.queue q = {} := Tbl.get_unlisted fun e he hk => hno ⟨e, List.mem_filter.2 ⟨he, by
          rw [← hk, State.queue, Tbl.get_of_mem (Tbl.canon_pairwise h.queues) he] at hp
          exact hp⟩, hk⟩
        rw [hget] at hp
        cases hp
    rw [hq]
    change (if _ then ({ s.queue q with shedAt := false } : Queue) else s.queue q) = _
    simp only [hlisted]
    exact Queue.unshed_eq ..
  · rw [hr]
    rfl

/-! ### Self-refresh -/

/-- A table filtered by what its keys hold. -/
theorem Tbl.get_filter {α : Type} {d : α} {t : Tbl α} (h : t.Pairwise fun a b => a.1 < b.1) (g : Nat × α → Bool) (k : Nat) :
    Tbl.get d (t.filter g) k = if g (k, Tbl.get d t k) then Tbl.get d t k else d := by
  have he : t.filter g = Tbl.keep t fun k _ => g (k, Tbl.get d t k) := List.filter_congr fun e he => by dsimp only; rw [Tbl.get_of_mem h he]
  rw [he, Tbl.get_keep h fun k => g (k, Tbl.get d t k)]

/-- What stays listed: all but self-refresh outside the dozing class. -/
theorem PcPower.leaves_eq (w : PcPower) (dozing : Bool) :
    (if (w != .selfRefresh || dozing) = true then w else .active) = if w = .selfRefresh ∧ dozing = false then .active else w := by
  cases w <;> cases dozing <;> rfl

/-- Outside Nap, the pseudo-channels of the steady class leave self-refresh (R398). -/
theorem State.wakeSteady_wakes (h : s.Inv) (hp : s.power ≠ 2) :
    let t := s.wakeSteady
    (∀ p, Tbl.get .active t.mem.power p = if Tbl.get .active s.mem.power p = .selfRefresh ∧ t.dozing p = false then .active
      else Tbl.get .active s.mem.power p) ∧ t = { s with mem := { s.mem with power := t.mem.power } } := by
  obtain ⟨-, -, -, -, -, -, hpow, -⟩ := h.mem
  unfold State.wakeSteady
  rw [if_neg hp]
  refine ⟨fun p => ?_, rfl⟩
  change Tbl.get .active (s.mem.power.filter _) p = if _ ∧ s.dozing p = false then _ else _
  rw [Tbl.get_filter (Tbl.canon_pairwise hpow)]
  exact PcPower.leaves_eq ..

end Sys2Proof.Machine
end

section
/-! PROOF. The commands of a context entry: ENABLE, DISABLE, CLEAR_FAULT (R335, R337, R338). -/

namespace Sys2Proof.Machine

variable {s t u : State} {o : Origin} {c : Nat} {i : CtxId}

/-- A request in a mailbox stands in the mailbox, its length in a register, and its bytes in the port's count. -/
theorem State.asked_rest (s : State) (o : Origin) (idx sub : Nat) (v : List Byte) :
    ∃ d r x, s.asked o idx sub v = { s with dm := d, regs := r, hp := { s.hp with rx := x } } := by
  cases o with
  | kdp => exact ⟨_, _, _, rfl⟩
  | fn k =>
    unfold State.asked State.dmRequest
    exact ⟨_, _, _, rfl⟩

theorem State.asked_gate {idx sub : Nat} {v : List Byte} (hg : s.dictGate o idx sub true v = none) :
    (s.asked o idx sub v).dictGate o idx sub true v = none := (State.dictGate_congr (State.asked_dict ..) ..).trans hg

/-! ### A context that goes on, or begins -/

/-- A context starts unshed and takes a state (R335, R337, R474). -/
theorem State.starts_next (h : s.Inv) (c : Nat) {v : Nat} (hv : v < 2 ^ 64) :
    let t := (s.startUnshed c).setCtxState c v
    t.Inv ∧ t.ctxState c = v ∧ s.EntriesBut t (s.stateKeys c) ∧ c ∉ t.sch.shed ∧
      (∀ q, t.queue q = { s.queue q with shedAt := (s.queue q).shedAt && (s.queue q).ctx != c }) ∧
      t = { s with dict := t.dict, sch := { s.sch with shed := t.sch.shed, queues := t.sch.queues } } := by
  obtain ⟨hi, hshed, hq, hr⟩ := State.startUnshed_unsheds h c
  generalize s.startUnshed c = u at hi hshed hq hr ⊢
  obtain ⟨hst, he, hrest⟩ := State.setCtxState_writes hi c hv
  have hkeys : u.stateKeys c = s.stateKeys c := by rw [hr]; rfl
  have hentry (a b : Nat) : u.entry a b = s.entry a b := by rw [hr]; rfl
  refine ⟨State.setCtxState_inv hi c v, hst, fun a b hab => (he a b (hkeys ▸ hab)).trans (hentry a b), ?_, fun q => ?_, ?_⟩
  · rw [hrest]
    exact hshed
  · rw [hrest]
    exact hq q
  · rw [hrest, hr]

/-- CLEAR_FAULT of a FAULTED context. -/
theorem State.ctxClear_ok (hs : s.ctxState c = 3) : s.ctxClear c = .ok ((s.startUnshed c).setCtxState c (if s.ctx c 0x07 = 0 then 1 else 2)) :=
  if_neg (not_not.2 hs)

/-- CLEAR_FAULT (R337). -/
theorem execClearFault_clears (h : s.Inv) (hr : s.Reaches o) (hg : s.dictGate o (0x3000 + i.val) 0x01 true [3] = none)
    (hs : s.ctxState i.val = 3) : ∃ t : State, exec (.clearFault o i) s = .next (t.answered o 0) ∧
      t.ctxState i.val = (if s.ctx i.val 0x07 = 0 then 1 else 2) ∧ s.EntriesBut t (s.stateKeys i.val) ∧
      (i.val ∉ t.sch.shed ∧ ∀ q, t.queue q = { s.queue q with shedAt := (s.queue q).shedAt && (s.queue q).ctx != i.val }) ∧
      t = { s.asked o (0x3000 + i.val) 0x01 [3] with dict := t.dict, sch := { s.sch with shed := t.sch.shed, queues := t.sch.queues } } := by
  have hi := State.asked_inv h o (0x3000 + i.val) 0x01 [3]
  have hgate := State.asked_gate hg
  have hexec (t : State) (ht : (s.asked o (0x3000 + i.val) 0x01 [3]).ctxClear i.val = .ok t) : exec (.clearFault o i) s = .next (t.answered o 0) :=
    State.dictCmd_taken hr hgate ht
  obtain ⟨d, r, x, ha⟩ := State.asked_rest s o (0x3000 + i.val) 0x01 [3]
  rw [ha] at hi hexec ⊢
  have hv : (if s.ctx i.val 0x07 = 0 then 1 else 2) < 2 ^ 64 := by split <;> decide
  obtain ⟨-, hst, he, hshed, hq, hrest⟩ := State.starts_next hi i.val hv
  exact ⟨_, hexec _ (State.ctxClear_ok hs), hst, he, ⟨hshed, hq⟩, hrest⟩

/-! ### ENABLE -/

theorem State.withAlloc_inv (h : s.Inv) (a : Alloc) : (s.withAlloc a).Inv := { h with mem := h.mem }

/-- An entry below the contexts is none that a change of a context's state writes. -/
theorem State.not_stateKeys {a b : Nat} (hab : dkey a b < 0x300000) (s : State) (c : Nat) : dkey a b ∉ s.stateKeys c := by
  unfold State.stateKeys
  simp only [List.mem_cons, List.not_mem_nil, or_false, not_or]
  generalize dkey a b = k at hab ⊢
  unfold dkey
  omega

/-- Both runs of units that an ENABLE takes. -/
theorem State.ctxEnable_ok (hs : s.ctxState c = 0) (hok : s.enableOk c = true) {x y : Nat}
    (hx : s.freeRun (s.ctx c 4) (s.ctx c 0x06 / 0x200000) = some x)
    (hy : (s.withAlloc ⟨s.ctx c 4, x, s.ctx c 0x06 / 0x200000, c, false⟩).freeRun (s.ctx c 4) (s.saveSize c / 0x200000) = some y) :
    s.ctxEnable c = .ok (((((s.withAlloc ⟨s.ctx c 4, x, s.ctx c 0x06 / 0x200000, c, false⟩).withAlloc
      ⟨s.ctx c 4, y, s.saveSize c / 0x200000, c, true⟩).startUnshed c).setCtxState c 1).wakeSteady) := by
  have hmem : (s.herdAlloc (s.ctx c 0x04) (s.ctx c 0x06 / 0x200000) c false).bind (fun s => s.herdAlloc (s.ctx c 0x04) (s.saveSize c / 0x200000) c true) =
      some ((s.withAlloc ⟨s.ctx c 4, x, s.ctx c 0x06 / 0x200000, c, false⟩).withAlloc ⟨s.ctx c 4, y, s.saveSize c / 0x200000, c, true⟩) := by
    unfold State.herdAlloc
    rw [hx]
    exact congrArg (Option.map _) hy
  unfold State.ctxEnable
  rw [if_neg (not_not.2 hs), hok, hmem]
  rfl

/-- Where either has no room, ENABLE is refused. -/
theorem State.ctxEnable_full (hs : s.ctxState c = 0) (hok : s.enableOk c = true)
    (hfull : s.freeRun (s.ctx c 4) (s.ctx c 0x06 / 0x200000) = none ∨ ∃ x, s.freeRun (s.ctx c 4) (s.ctx c 0x06 / 0x200000) = some x ∧
      (s.withAlloc ⟨s.ctx c 4, x, s.ctx c 0x06 / 0x200000, c, false⟩).freeRun (s.ctx c 4) (s.saveSize c / 0x200000) = none) :
    s.ctxEnable c = .error Code.SCH_CTX_MEMORY := by
  have hmem : (s.herdAlloc (s.ctx c 0x04) (s.ctx c 0x06 / 0x200000) c false).bind
      (fun s => s.herdAlloc (s.ctx c 0x04) (s.saveSize c / 0x200000) c true) = none := by
    unfold State.herdAlloc
    rcases hfull with hx | ⟨x, hx, hy⟩
    · rw [hx]
      rfl
    · rw [hx]
      exact congrArg (Option.map _) hy
  unfold State.ctxEnable
  rw [if_neg (not_not.2 hs), hok, hmem]
  rfl

/-- Where the settings fail, ENABLE is refused with the check's code. -/
theorem State.ctxEnable_refused (hno : s.ctxState c ≠ 0 ∨ s.enableOk c = false) :
    s.ctxEnable c = .error (if s.ctxState c ≠ 0 then Code.SCH_CTX_STATE else Code.SCH_CTX_CONFIG) := by
  unfold State.ctxEnable
  by_cases hs : s.ctxState c ≠ 0
  · rw [if_pos hs, if_pos hs]
  · rw [if_neg hs, if_neg hs, hno.resolve_left hs]
    rfl

/-- Window and save area are taken, the context starts unshed and ENABLING, and the herd's pseudo-channels leave self-refresh (R335, R398). -/
theorem State.enables_next (h : s.Inv) (hp : s.power = 0) (a b : Alloc) (c : Nat) :
    let t := ((((s.withAlloc a).withAlloc b).startUnshed c).setCtxState c 1).wakeSteady
    t.ctxState c = 1 ∧ t.mem = { s.mem with allocs := s.mem.allocs ++ [a, b], power := t.mem.power } ∧
      (∀ p, Tbl.get .active t.mem.power p = if Tbl.get .active s.mem.power p = .selfRefresh ∧ t.dozing p = false then .active
        else Tbl.get .active s.mem.power p) ∧ s.EntriesBut t (s.stateKeys c) ∧
      (c ∉ t.sch.shed ∧ ∀ q, t.queue q = { s.queue q with shedAt := (s.queue q).shedAt && (s.queue q).ctx != c }) ∧
      t = { s with dict := t.dict, mem := t.mem, sch := { s.sch with shed := t.sch.shed, queues := t.sch.queues } } := by
  have hw := State.withAlloc_inv (State.withAlloc_inv h a) b
  obtain ⟨hi, hst, he, hshed, hq, hrest⟩ := State.starts_next hw c (v := 1) (by decide)
  generalize (((s.withAlloc a).withAlloc b).startUnshed c).setCtxState c 1 = u at hi hst he hshed hq hrest ⊢
  have hrun : u.power = 0 := (he 0x1400 0x02 (State.not_stateKeys (a := 0x1400) (b := 2) (by decide) _ c)).trans hp
  have humem : u.mem = { s.mem with allocs := s.mem.allocs ++ [a, b] } := by
    rw [hrest]
    exact congrArg (fun l => { s.mem with allocs := l }) (List.append_assoc ..)
  obtain ⟨hpc, hmem⟩ := State.wakeSteady_wakes hi (by rw [hrun]; decide)
  generalize u.wakeSteady = t at hpc hmem ⊢
  have hdict : t.dict = u.dict := by rw [hmem]
  have hsch : t.sch = u.sch := by rw [hmem]
  have hctx (a b : Nat) : t.entry a b = u.entry a b := by unfold State.entry; rw [hdict]
  refine ⟨(hctx ..).trans hst, ?_, fun p => ?_, fun a b hab => (hctx a b).trans (he a b hab), ⟨?_, fun q => ?_⟩, ?_⟩
  · rw [hmem, humem]
  · rw [hpc, humem]
  · rw [hsch]
    exact hshed
  · unfold State.queue at hq ⊢
    rw [hsch]
    exact hq q
  · rw [hmem, hrest]
    rfl

/-- ENABLE of a DISABLED context with room for its window and save area (R335). -/
theorem execContextEnable_enables (h : s.Inv) (hr : s.Reaches o) (hg : s.dictGate o (0x3000 + i.val) 0x01 true [1] = none)
    (hs : s.ctxState i.val = 0) (hok : s.enableOk i.val = true) {x y : Nat}
    (hx : s.freeRun (s.ctx i.val 4) (s.ctx i.val 0x06 / 0x200000) = some x)
    (hy : (s.withAlloc ⟨s.ctx i.val 4, x, s.ctx i.val 0x06 / 0x200000, i.val, false⟩).freeRun (s.ctx i.val 4) (s.saveSize i.val / 0x200000) = some y) :
    ∃ t : State, exec (.contextEnable o i) s = .next (t.answered o 0) ∧ t.ctxState i.val = 1 ∧
      t.mem = { s.mem with allocs := s.mem.allocs ++ [⟨s.ctx i.val 4, x, s.ctx i.val 0x06 / 0x200000, i.val, false⟩,
        ⟨s.ctx i.val 4, y, s.saveSize i.val / 0x200000, i.val, true⟩], power := t.mem.power } ∧
      (∀ p, Tbl.get .active t.mem.power p = if Tbl.get .active s.mem.power p = .selfRefresh ∧ t.dozing p = false then .active
        else Tbl.get .active s.mem.power p) ∧ s.EntriesBut t (s.stateKeys i.val) ∧
      (i.val ∉ t.sch.shed ∧ ∀ q, t.queue q = { s.queue q with shedAt := (s.queue q).shedAt && (s.queue q).ctx != i.val }) ∧
      t = { s.asked o (0x3000 + i.val) 0x01 [1] with
        dict := t.dict, mem := t.mem, sch := { s.sch with shed := t.sch.shed, queues := t.sch.queues } } := by
  have hi := State.asked_inv h o (0x3000 + i.val) 0x01 [1]
  have hpow := (State.asked_awake hr (0x3000 + i.val) 0x01 [1]).1
  have hgate := State.asked_gate hg
  have hexec (t : State) (ht : (s.asked o (0x3000 + i.val) 0x01 [1]).ctxEnable i.val = .ok t) : exec (.contextEnable o i) s = .next (t.answered o 0) :=
    State.dictCmd_taken hr hgate ht
  obtain ⟨d, r, z, ha⟩ := State.asked_rest s o (0x3000 + i.val) 0x01 [1]
  rw [ha] at hi hpow hexec ⊢
  exact ⟨_, hexec _ (State.ctxEnable_ok (s := { s with dm := d, regs := r, hp := { s.hp with rx := z } }) hs hok hx hy),
    State.enables_next hi hpow ..⟩

/-! ### DISABLE -/

/-- The entries of a context but STATE are none that a change of its state writes. -/
theorem State.ctx_not_stateKeys (s : State) (hc : c < 1024) {j : Nat} (hj : j < 256) (hne : j ≠ 2) : dkey (0x3000 + c) j ∉ s.stateKeys c := by
  unfold State.stateKeys dkey
  simp only [List.mem_cons, List.not_mem_nil, or_false, not_or]
  omega

/-- An entry of a context written, and the others of it. -/
theorem State.ctx_setEntry (h : s.Inv) (c j k v : Nat) :
    (s.setEntry (0x3000 + c) j v).ctx c k = if k = j then v % 2 ^ 64 else s.ctx c k := by
  refine (State.entry_setEntry h ..).trans ?_
  have hkey : dkey (0x3000 + c) k = dkey (0x3000 + c) j ↔ k = j := by
    unfold dkey
    omega
  simp only [hkey]
  rfl

/-- A context enters DISABLING: its addresses read 0, and its steps stand as they did (R338). -/
theorem State.ctxLeave_next (h : s.Inv) (hc : c < 1024) :
    let t := s.ctxLeave c
    t.Inv ∧ t.ctxState c = 4 ∧ t.ctx c 0x07 = 0 ∧ t.ctx c 0x1B = 0 ∧ t.ctx c 0x1C = 0 ∧ t.stepsOf c = s.stepsOf c := by
  have h1 := State.setEntry_inv h (0x3000 + c) 0x07 0
  have h2 := State.setEntry_inv h1 (0x3000 + c) 0x1B 0
  have h3 := State.setEntry_inv h2 (0x3000 + c) 0x1C 0
  have hread (k : Nat) (hk : k = 0x07 ∨ k = 0x1B ∨ k = 0x1C) :
      (((s.setEntry (0x3000 + c) 0x07 0).setEntry (0x3000 + c) 0x1B 0).setEntry (0x3000 + c) 0x1C 0).ctx c k = 0 := by
    rw [State.ctx_setEntry h2, State.ctx_setEntry h1, State.ctx_setEntry h]
    rcases hk with rfl | rfl | rfl <;> rfl
  unfold State.ctxLeave
  dsimp only
  have hsteps : (((s.setEntry (0x3000 + c) 0x07 0).setEntry (0x3000 + c) 0x1B 0).setEntry (0x3000 + c) 0x1C 0).stepsOf c = s.stepsOf c := rfl
  generalize ((s.setEntry (0x3000 + c) 0x07 0).setEntry (0x3000 + c) 0x1B 0).setEntry (0x3000 + c) 0x1C 0 = u at h3 hread hsteps ⊢
  have hu : (u.unshed c).Inv := (State.unshed_keep u c (Kept.refl u)).inv h3
  obtain ⟨hst, he, hrest⟩ := State.setCtxState_writes hu c (v := 4) (by decide)
  have hctx (k : Nat) (hk : k = 0x07 ∨ k = 0x1B ∨ k = 0x1C) : ((u.unshed c).setCtxState c 4).ctx c k = 0 :=
    (he _ _ (State.ctx_not_stateKeys _ hc (by omega) (by omega))).trans (hread k hk)
  refine ⟨State.setCtxState_inv hu c 4, hst, hctx _ (by decide), hctx _ (by decide), hctx _ (by decide), ?_⟩
  rw [hrest, ← hsteps]
  rfl

/-- A context that leaves an Ibex is resident there no more. -/
theorem Ibex.slotOf_evict (i : Ibex) (c : Nat) : (i.evict c).slotOf c = none := by
  unfold Ibex.slotOf
  rw [Option.map_eq_none_iff, List.find?_eq_none]
  intro e he
  obtain ⟨x, hx, hr⟩ := List.mem_filterMap.1 he
  obtain ⟨r, hx', rfl⟩ := Option.map_eq_some_iff.1 hr
  have hkeep := (List.mem_filter.1 hx).2
  simp only [hx'] at hkeep
  simpa using hkeep

/-- Partitions released: the context is resident on no Ibex (R337). -/
theorem State.releaseParts_gone (h : s.Inv) (c : Nat) : ∀ n, n < 8 → ((s.releaseParts c).ib n).slotOf c = none := by
  have hall (xs : List Nat) : (xs.foldl (fun s n => if ((s.ib n).slotOf c).isSome then s.modIb n fun i => i.evict c else s) s).Inv ∧
      ∀ n ∈ xs, ((xs.foldl (fun s n => if ((s.ib n).slotOf c).isSome then s.modIb n fun i => i.evict c else s) s).ib n).slotOf c = none := by
    induction xs using List.reverseRecOn with
    | nil => exact ⟨h, nofun⟩
    | append_singleton xs m ih =>
      rw [List.foldl_append]
      generalize List.foldl _ s xs = u at ih
      obtain ⟨hi, hgone⟩ := ih
      rw [List.foldl_cons, List.foldl_nil]
      split
      · refine ⟨State.modIb_inv hi m fun _ hx => Ibex.evict_ok hx, fun n hn => ?_⟩
        rw [State.ib_modIb hi]
        split
        · exact Ibex.slotOf_evict ..
        · next hne => exact hgone n ((List.mem_append.1 hn).resolve_right (by simpa using hne))
      · next hnone =>
        refine ⟨hi, fun n hn => ?_⟩
        rcases List.mem_append.1 hn with hn | hn
        · exact hgone n hn
        · cases List.mem_singleton.1 hn
          simpa using hnone
  exact fun n hn => (hall (List.range 8)).2 n (List.mem_range.2 hn)

/-- DISABLE, with its code in LAST_CODE where there was a step to abandon. -/
theorem State.stopOnly_eq (s : State) (c : Nat) (code : W16) : s.stopOnly c (some code) = State.releaseParts
    (if s.stepsOf c = [] then s.abandonAll (s.stepsOf c) fun _ => some code
      else (s.abandonAll (s.stepsOf c) fun _ => some code).setEntry (0x3000 + c) 0x1D code.toNat) c := by
  unfold State.stopOnly
  cases s.stepsOf c with
  | nil => rfl
  | cons x xs => rw [if_neg (List.cons_ne_nil x xs)]

/-- The steps of a context abandoned with a code, and its partitions released (R338). -/
theorem State.stopOnly_stops (h : s.Inv) (hc : c < 1024) (hsl : ∀ x ∈ s.stepsOf c, ∀ sl ∈ x.2.slots, sl.stream < 64) (code : W16) :
    let t := s.stopOnly c (some code)
    (∀ j, j < 0x1D → t.ctx c j = s.ctx c j) ∧ t.stepsOf c = [] ∧ (s.stepsOf c ≠ [] → t.ctx c 0x1D = code.toNat) ∧
      ∀ n, n < 8 → (t.ib n).slotOf c = none := by
  obtain ⟨hab, hnone⟩ := (State.Aftermath.refl h).abandonAll hsl fun _ => some code
  rw [State.stopOnly_eq]
  generalize s.abandonAll (s.stepsOf c) (fun _ => some code) = a at hab hnone ⊢
  have hb : ∃ b, (if s.stepsOf c = [] then a else a.setEntry (0x3000 + c) 0x1D code.toNat) = b ∧ b.Inv ∧ b.sch = a.sch ∧
      (∀ j, j < 0x1D → b.ctx c j = a.ctx c j) ∧ (s.stepsOf c ≠ [] → b.ctx c 0x1D = code.toNat) := by
    split
    · next hs => exact ⟨a, rfl, hab.inv, rfl, fun _ _ => rfl, fun hn => absurd hs hn⟩
    · obtain ⟨hcode, hctx⟩ := State.lastCode_writes hab.inv c code
      exact ⟨_, rfl, State.setEntry_inv hab.inv .., rfl, fun j hj => hctx j (by omega) (by omega), fun _ => hcode⟩
  obtain ⟨b, he, hi, hsch, hctx, hcode⟩ := hb
  rw [he]
  have ht := (State.Aftermath.refl hi).releaseParts c
  refine ⟨fun j hj => ?_, ?_, fun hn => (ht.ctx c 0x1D hc (by decide)).trans (hcode hn), State.releaseParts_gone hi c⟩
  · exact (ht.ctx c j hc (by omega)).trans ((hctx j hj).trans (hab.ctx c j hc (by omega)))
  · refine List.eq_nil_iff_forall_not_mem.2 fun x hx => ?_
    obtain ⟨hopen, hxc⟩ := List.mem_filter.1 hx
    obtain ⟨st, hst, hstc⟩ := ht.opened hopen
    have hast : (a.queue x.1).held = some st := by
      unfold State.queue at hst ⊢
      rwa [← hsch]
    obtain ⟨st', hst', hc'⟩ := hab.steps _ _ hast
    have hmem := State.mem_stepsOf h hst'
    rw [hc'.trans (hstc.trans (beq_iff_eq.1 hxc))] at hmem
    rw [hnone _ hmem] at hast
    cases hast

/-- DISABLE of a READY or FAULTED context (R338). -/
theorem execContextDisable_disables (h : s.Inv) (hr : s.Reaches o) (hg : s.dictGate o (0x3000 + i.val) 0x01 true [2] = none)
    (hs : s.ctxState i.val = 2 ∨ s.ctxState i.val = 3) (hsl : ∀ x ∈ s.stepsOf i.val, ∀ sl ∈ x.2.slots, sl.stream < 64) : ∃ u : State,
      exec (.contextDisable o i) s = .next (u.schedule.answered o 0) ∧ u.ctxState i.val = 4 ∧ u.ctx i.val 0x07 = 0 ∧
      u.ctx i.val 0x1B = 0 ∧ u.ctx i.val 0x1C = 0 ∧ u.stepsOf i.val = [] ∧
      (s.stepsOf i.val ≠ [] → u.ctx i.val 0x1D = Code.SCH_CTX_DISABLED.toNat) ∧ ∀ n, n < 8 → (u.ib n).slotOf i.val = none := by
  have hi := State.asked_inv h o (0x3000 + i.val) 0x01 [2]
  have hgate := State.asked_gate hg
  have hexec (t : State) (ht : (s.asked o (0x3000 + i.val) 0x01 [2]).ctxDisable i.val = .ok t) : exec (.contextDisable o i) s = .next (t.answered o 0) :=
    State.dictCmd_taken hr hgate ht
  have hctx (j : Nat) : (s.asked o (0x3000 + i.val) 0x01 [2]).ctx i.val j = s.ctx i.val j := by
    unfold State.ctx State.entry
    rw [State.asked_dict]
  have hsteps : (s.asked o (0x3000 + i.val) 0x01 [2]).stepsOf i.val = s.stepsOf i.val := by
    obtain ⟨d, r, x, ha⟩ := State.asked_rest s o (0x3000 + i.val) 0x01 [2]
    rw [ha]
    rfl
  generalize s.asked o (0x3000 + i.val) 0x01 [2] = a at hi hexec hctx hsteps
  obtain ⟨hli, hst, h7, h1b, h1c, hls⟩ := State.ctxLeave_next hi i.isLt
  rw [hsteps] at hls
  have hok : a.ctxDisable i.val = .ok ((a.ctxLeave i.val).stopCtx i.val (some Code.SCH_CTX_DISABLED)) :=
    if_neg fun ⟨h2, h3⟩ => hs.elim (fun e => h2 ((hctx 2).trans e)) fun e => h3 ((hctx 2).trans e)
  have hnext := hexec _ hok
  unfold State.stopCtx at hnext
  generalize a.ctxLeave i.val = b at hli hst h7 h1b h1c hls hnext
  obtain ⟨hkeep, hnone, hcode, hslots⟩ := State.stopOnly_stops hli i.isLt (by rw [hls]; exact hsl) Code.SCH_CTX_DISABLED
  rw [hls] at hcode
  exact ⟨_, hnext, (hkeep 2 (by decide)).trans hst, (hkeep _ (by decide)).trans h7, (hkeep _ (by decide)).trans h1b,
    (hkeep _ (by decide)).trans h1c, hnone, hcode, hslots⟩

/-! ### Refusals -/

/-- A command of a context entry in a state, or with settings, that it may not have (R335, R337, R338). -/
theorem contextCommand_refused (hr : s.Reaches o) {v : Byte} {x : Instr} {code : W16} (hg : s.dictGate o (0x3000 + i.val) 0x01 true [v] = none)
    (hx : (v, x, code) ∈ [(1, Instr.contextEnable o i, if s.ctxState i.val ≠ 0 then Code.SCH_CTX_STATE else Code.SCH_CTX_CONFIG),
      (2, .contextDisable o i, Code.SCH_CTX_STATE), (3, .clearFault o i, Code.SCH_CTX_STATE)])
    (h1 : v = 1 → s.ctxState i.val ≠ 0 ∨ s.enableOk i.val = false) (h2 : v = 2 → s.ctxState i.val ≠ 2 ∧ s.ctxState i.val ≠ 3)
    (h3 : v = 3 → s.ctxState i.val ≠ 3) :
    exec x s = .next (((s.asked o (0x3000 + i.val) 0x01 [v]).rejectEntry code o (0x3000 + i.val) 0x01 [v]).answered o code) := by
  have hgate := State.asked_gate hg
  have hst : (s.asked o (0x3000 + i.val) 0x01 [v]).ctxState i.val = s.ctxState i.val := by
    unfold State.ctxState State.ctx State.entry
    rw [State.asked_dict]
  have hok : (s.asked o (0x3000 + i.val) 0x01 [v]).enableOk i.val = s.enableOk i.val := by
    obtain ⟨d, r, z, ha⟩ := State.asked_rest s o (0x3000 + i.val) 0x01 [v]
    rw [ha]
    rfl
  simp only [List.mem_cons, Prod.mk.injEq, List.not_mem_nil, or_false] at hx
  obtain ⟨rfl, rfl, rfl⟩ | ⟨rfl, rfl, rfl⟩ | ⟨rfl, rfl, rfl⟩ := hx
  · refine State.dictCmd_refused hr (.inr ⟨hgate, ?_⟩)
    rw [← hst]
    exact State.ctxEnable_refused (by rw [hst, hok]; exact h1 rfl)
  · exact State.dictCmd_refused hr (.inr ⟨hgate, if_pos (by rw [hst]; exact h2 rfl)⟩)
  · exact State.dictCmd_refused hr (.inr ⟨hgate, if_pos (by rw [hst]; exact h3 rfl)⟩)

end Sys2Proof.Machine
end

section
/-! PROOF. CONTEXT_READY and CONTEXT_DISABLED: memory zeroed, and a context's memory and buffers returned (R85, R335, R338, R388, R451). -/

namespace Sys2Proof.Machine

variable {s t u : State} {c : Nat}

/-! ### Pages zeroed where no flip waits -/

/-- From s to t pages have been zeroed and no flip has acted: bytes that were 0 stay so, and pseudo-channels have counted what it cost. -/
structure State.Zeroing (s t : State) : Prop where
  inv : t.Inv
  regs : ∀ a, (∀ p, a ≠ pcReg p 0x18 ∧ a ≠ pcReg p 0x20 ∧ a ≠ pcReg p 0x28) → t.reg a = s.reg a
  zeros : ∀ k, Tbl.get 0 s.mem.hbm k = 0 → Tbl.get 0 t.mem.hbm k = 0
  common : t.mem.common = s.mem.common
  rest : t = { s with regs := t.regs, mem := t.mem }

namespace State.Zeroing

theorem refl (h : s.Inv) : s.Zeroing s := ⟨h, fun _ _ => rfl, fun _ => id, rfl, rfl⟩

theorem trans (h : s.Zeroing t) (h' : t.Zeroing u) : s.Zeroing u :=
  ⟨h'.inv, fun a ha => (h'.regs a ha).trans (h.regs a ha), fun k hk => h'.zeros k (h.zeros k hk), h'.common.trans h.common, by
    rw [h'.rest, h.rest]⟩

/-- Data addresses lie where they lay. -/
theorem mapAddr (h : s.Zeroing t) (a : Nat) : t.mapAddr a = s.mapAddr a := by
  have hrot (j : Nat) : t.rotation j = s.rotation j := by
    unfold State.rotation
    refine List.foldl_ext _ _ _ fun b k hk => ?_
    rw [h.regs _ fun p => ?_]
    have := List.mem_range.1 hk
    unfold pcReg memBase
    omega
  have hmask (m : Nat) : t.pcMask m = s.pcMask m := by rw [h.rest]; rfl
  unfold State.mapAddr State.commonMib
  simp only [hrot, hmask, h.common]

theorem flipArmed (h : s.Zeroing t) (x : Nat) : t.flipArmed x = s.flipArmed x := by
  unfold State.flipArmed State.regField
  rw [h.regs _ fun p => ?_]
  unfold pcReg memBase intBase
  omega

theorem count (h : s.Inv) (p : Nat) {o : Nat} (ho : o = 0x18 ∨ o = 0x20 ∨ o = 0x28) (n : Nat) : s.Zeroing (s.count (pcReg p o) n) := by
  refine ⟨State.setReg_inv h .., fun a ha => State.reg_setReg_ne h ?_ _, fun _ => id, rfl, rfl⟩
  rcases ho with rfl | rfl | rfl
  · exact (ha p).1
  · exact (ha p).2.1
  · exact (ha p).2.2

theorem openRow (h : s.Inv) (w : Nat) : s.Zeroing (s.openRow w) := by
  have hc : s.Zeroing (s.count (pcReg (w / 2 ^ 27) (if s.rowIsOpen w then 0x28 else 0x20)) 1) := count h _ (by split <;> simp) 1
  exact ⟨(State.openRow_keep s w (Kept.refl s)).inv h, hc.regs, hc.zeros, rfl, rfl⟩

theorem openLines (h : s.Inv) (page : Nat) (ws : List Nat) : s.Zeroing (s.openLines page ws) :=
  foldl_all (P := s.Zeroing) (refl h) fun _ w hv => hv.trans (openRow hv.inv w)

end State.Zeroing

theorem Tbl.get_clear {α : Type} {d : α} {t : Tbl α} (h : t.Pairwise fun a b => a.1 < b.1) (lo n k : Nat) :
    Tbl.get d (Tbl.clear t lo n) k = if lo ≤ k ∧ k < lo + n then d else Tbl.get d t k := by
  refine (Tbl.get_keep h (fun k => decide (k < lo) || decide (lo + n ≤ k)) k).trans ?_
  by_cases hk : lo ≤ k ∧ k < lo + n
  · rw [if_pos hk, if_neg (by simp; omega)]
  · rw [if_neg hk, if_pos (by simp; omega)]

/-- A page zeroed where no flip waits reads 0 (R425). -/
theorem State.zeroPage_zeroes (h : s.Inv) (hf : ∀ x, s.flipArmed x = false) (page : Nat) :
    s.Zeroing (s.zeroPage page) ∧ ∀ j, j < 2048 → Tbl.get 0 (s.zeroPage page).mem.hbm (page * 2048 + j) = 0 := by
  obtain ⟨hhbm, -⟩ := h.mem
  have hget (k : Nat) : Tbl.get 0 (s.mem.zeroPage page).hbm k = if page * 2048 ≤ k ∧ k < page * 2048 + 2048 then 0 else Tbl.get 0 s.mem.hbm k :=
    Tbl.get_clear (Tbl.canon_pairwise hhbm) ..
  have hz : s.Zeroing { s with mem := s.mem.zeroPage page } := by
    refine ⟨{ h with mem := Memory.zeroPage_wf h.mem }, fun _ _ => rfl, fun k hk => (hget k).trans ?_, rfl, rfl⟩
    split
    · rfl
    · exact hk
  have hcost := (State.Zeroing.openLines hz.inv page (List.range 256)).trans
    (State.Zeroing.openRow (State.Zeroing.openLines hz.inv page (List.range 256)).inv (checkWordNo page 0))
  have hall := hcost.trans (State.Zeroing.count hcost.inv (page / 2 ^ 19) (.inl rfl) 2064)
  have he : s.zeroPage page = (((({ s with mem := s.mem.zeroPage page } : State).openLines page (List.range 256)).openRow
      (checkWordNo page 0)).count (pcReg (page / 2 ^ 19) 0x18) 2064) := by
    have hm (x : Nat) : ({ s with mem := s.mem.zeroPage page } : State).flipArmed x = false := hf x
    unfold State.zeroPage
    refine if_neg ?_
    simp only [hm, Bool.or_self, Bool.and_false, Bool.false_eq_true, not_false_eq_true]
  rw [he]
  exact ⟨hz.trans hall, fun j hj => hall.zeros _ ((hget _).trans (if_pos ⟨by omega, by omega⟩))⟩

/-- Pages zeroed one after the other, by the data addresses of their units. -/
theorem State.zeroPages_zero (a : Nat) (xs : List Nat) : ∀ {s : State}, s.Inv → (∀ x, s.flipArmed x = false) →
    let t := xs.foldl (fun s i => s.zeroPage (physKey (s.mapAddr (a + i * 2048)) / 2048)) s
    s.Zeroing t ∧ ∀ i ∈ xs, ∀ j, j < 2048 → Tbl.get 0 t.mem.hbm (physKey (s.mapAddr (a + i * 2048)) / 2048 * 2048 + j) = 0 := by
  induction xs with
  | nil => exact fun h _ => ⟨.refl h, nofun⟩
  | cons x xs ih =>
    intro s h hf
    obtain ⟨hz, hzero⟩ := State.zeroPage_zeroes h hf (physKey (s.mapAddr (a + x * 2048)) / 2048)
    obtain ⟨hrest, hzeros⟩ := ih hz.inv fun y => (hz.flipArmed y).trans (hf y)
    rw [List.foldl_cons]
    refine ⟨hz.trans hrest, fun i hi j hj => ?_⟩
    rcases List.mem_cons.1 hi with rfl | hi
    · exact hrest.zeros _ (hzero j hj)
    · rw [← hz.mapAddr (a + i * 2048)]
      exact hzeros i hi j hj

/-- The place of a unit of 2 KiB is the first byte of a page (R385). -/
theorem State.physKey_unit (s : State) {a : Nat} (ha : a % 2048 = 0) : physKey (s.mapAddr a) / 2048 * 2048 = physKey (s.mapAddr a) := by
  obtain ⟨p, b, j, he⟩ : ∃ p b j, physKey (s.mapAddr a) = p * 2 ^ 30 + (b * 2 ^ 20 + j * 2048 + a % 2 ^ 35 % 2048) := ⟨_, _, _, rfl⟩
  rw [he]
  omega

/-- A range of whole units zeroed where no flip waits: every byte reads 0. -/
theorem State.zeroRange_zeroes (h : s.Inv) (hf : ∀ x, s.flipArmed x = false) {a : Nat} (ha : a % 2048 = 0) (n : Nat) :
    s.Zeroing (s.zeroRange a n) ∧ ∀ i j, i < n / 2048 → j < 2048 →
      Tbl.get 0 (s.zeroRange a n).mem.hbm (physKey (s.mapAddr (a + i * 2048)) + j) = 0 := by
  obtain ⟨hz, hzero⟩ := State.zeroPages_zero a (List.range (n / 2048)) h hf
  refine ⟨⟨(State.zeroRange_keep s a n (Kept.refl s)).inv h, hz.regs, hz.zeros, hz.common, ?_⟩, fun i j hi hj => ?_⟩
  · have hrest := hz.rest
    unfold State.zeroRange
    generalize List.foldl _ s _ = u at hrest ⊢
    rw [hrest]
  · rw [← State.physKey_unit s (a := a + i * 2048) (by omega)]
    exact hzero i (List.mem_range.2 hi) j hj

/-! ### What any zeroing leaves -/

/-- Operations of memory write entries of memory and of the error log alone. -/
theorem State.entry_of_aside (hs : s.Inv) (ht : t.Inv) (h : t.aside = s.aside) {i j : Nat}
    (hk : dkey i j / 256 ≠ 0x1500 ∧ dkey i j / 256 ≠ 0x6000) : t.entry i j = s.entry i j := by
  have hd : farDict t.dict = farDict s.dict := congrArg (fun u : State => u.dict) h
  have hget (u : State) (hu : u.Inv) : Tbl.get (dictReset (dkey i j)) (farDict u.dict) (dkey i j) = Tbl.get (dictReset (dkey i j)) u.dict (dkey i j) :=
    (Tbl.get_keep (Tbl.canon_pairwise hu.dict) (fun k => decide (k / 256 ≠ 0x1500) && decide (k / 256 ≠ 0x6000)) _).trans (if_pos (by simp [hk]))
  unfold State.entry
  rw [← hget t ht, ← hget s hs, hd]

/-- An entry of a context stands through a range zeroed. -/
theorem State.ctx_zeroRange (h : s.Inv) (a n : Nat) (hc : c < 1024) {j : Nat} (hj : j < 256) : (s.zeroRange a n).ctx c j = s.ctx c j :=
  State.entry_of_aside h ((State.zeroRange_keep s a n (Kept.refl s)).inv h) (State.zeroRange_aside s a n) (by unfold dkey; omega)

/-! ### CONTEXT_READY -/

/-- Window and save area zeroed. -/
def State.zeroBoth (s : State) (w sv : Alloc) : State := (s.zeroRange w.addr (w.size * 0x200000)).zeroRange sv.addr (sv.size * 0x200000)

/-- Their addresses, and the size of the save area, shown. -/
def State.showBoth (s : State) (c : Nat) (w sv : Alloc) : State :=
  let u := (s.setEntry (0x3000 + c) 0x07 w.addr).setEntry (0x3000 + c) 0x1B sv.addr
  u.setEntry (0x3000 + c) 0x1C (u.saveSize c)

theorem State.zeroBoth_inv (h : s.Inv) (w sv : Alloc) : (s.zeroBoth w sv).Inv :=
  (State.zeroRange_keep _ _ _ (State.zeroRange_keep s _ _ (Kept.refl s))).inv h

theorem State.ctx_zeroBoth (h : s.Inv) (w sv : Alloc) (hc : c < 1024) {j : Nat} (hj : j < 256) : (s.zeroBoth w sv).ctx c j = s.ctx c j :=
  (State.ctx_zeroRange ((State.zeroRange_keep s w.addr (w.size * 0x200000) (Kept.refl s)).inv h) _ _ hc hj).trans (State.ctx_zeroRange h _ _ hc hj)

theorem State.saveSize_congr (h : ∀ j, j = 0x08 ∨ j = 0x09 ∨ j = 0x16 → t.ctx c j = s.ctx c j) : t.saveSize c = s.saveSize c := by
  unfold State.saveSize State.imageSize
  rw [h _ (.inl rfl), h _ (.inr (.inl rfl)), h _ (.inr (.inr rfl))]

theorem State.showBoth_shows (h : s.Inv) (c : Nat) (w sv : Alloc) :
    let t := s.showBoth c w sv
    t.Inv ∧ t.ctx c 0x07 = w.addr % 2 ^ 64 ∧ t.ctx c 0x1B = sv.addr % 2 ^ 64 ∧ t.ctx c 0x1C = s.saveSize c % 2 ^ 64 ∧
      t = { s with dict := t.dict } := by
  have h1 := State.setEntry_inv h (0x3000 + c) 0x07 w.addr
  have h2 := State.setEntry_inv h1 (0x3000 + c) 0x1B sv.addr
  have hsize : ((s.setEntry (0x3000 + c) 0x07 w.addr).setEntry (0x3000 + c) 0x1B sv.addr).saveSize c = s.saveSize c :=
    State.saveSize_congr fun j hj => by
      rw [State.ctx_setEntry h1, State.ctx_setEntry h, if_neg (by omega), if_neg (by omega)]
  unfold State.showBoth
  extract_lets u
  refine ⟨State.setEntry_inv h2 .., ?_, ?_, ?_, rfl⟩
  · rw [State.ctx_setEntry h2, if_neg (by decide), State.ctx_setEntry h1, if_neg (by decide), State.ctx_setEntry h, if_pos rfl]
  · rw [State.ctx_setEntry h2, if_neg (by decide), State.ctx_setEntry h1, if_pos rfl]
  · rw [State.ctx_setEntry h2, if_pos rfl, hsize]

/-- What is zeroed where no flip is armed (R335). -/
theorem State.zeroBoth_zeroes (h : s.Inv) (hf : ∀ x, s.flipArmed x = false) (w sv : Alloc) :
    s.Zeroing (s.zeroBoth w sv) ∧ ∀ a ∈ [w, sv], ∀ i j, i < a.size * 1024 → j < 2048 →
      Tbl.get 0 (s.zeroBoth w sv).mem.hbm (physKey (s.mapAddr (a.addr + i * 2048)) + j) = 0 := by
  have haddr (a : Alloc) : a.addr % 2048 = 0 := by
    unfold Alloc.addr
    omega
  obtain ⟨hw, hwz⟩ := State.zeroRange_zeroes h hf (haddr w) (w.size * 0x200000)
  obtain ⟨hsv, hsz⟩ := State.zeroRange_zeroes hw.inv (fun x => (hw.flipArmed x).trans (hf x)) (haddr sv) (sv.size * 0x200000)
  refine ⟨hw.trans hsv, fun a ha i j hi hj => ?_⟩
  rcases List.mem_pair.1 ha with rfl | rfl
  · exact hsv.zeros _ (hwz i j (by omega) hj)
  · rw [← hw.mapAddr]
    exact hsz i j (by omega) hj

/-- The addresses written allocation by allocation. -/
theorem State.showBoth_eq (s : State) (c : Nat) {w sv : Alloc} (hw : w.save = false) (hsv : sv.save = true) :
    let u := [w, sv].foldl (fun s a => s.setEntry (0x3000 + c) (if a.save then 0x1B else 0x07) a.addr) s
    u.setEntry (0x3000 + c) 0x1C (u.saveSize c) = s.showBoth c w sv := by
  unfold State.showBoth
  simp only [List.foldl_cons, List.foldl_nil, hw, hsv, Bool.false_eq_true, if_false, if_true]

/-- CONTEXT_READY of an ENABLING context (R335). -/
theorem execContextReady_readies {i : CtxId} {w sv : Alloc} (hs : s.ctxState i.val = 1)
    (hmine : (s.mem.allocs.filter fun a => a.ctx == i.val) = [w, sv]) (hw : w.save = false) (hsv : sv.save = true) :
    exec (.contextReady i) s = .next (((s.zeroBoth w sv).showBoth i.val w sv).setCtxState i.val 2) := by
  have hzero : [w, sv].foldl (fun s a => s.zeroRange a.addr (a.size * 0x200000)) s = s.zeroBoth w sv := by
    unfold State.zeroBoth
    rw [List.foldl_cons, List.foldl_cons, List.foldl_nil]
  change execContextReady i s = _
  unfold execContextReady
  rw [if_neg (not_not.2 hs), hmine]
  dsimp only
  rw [hzero, State.showBoth_eq (s.zeroBoth w sv) i.val hw hsv]

/-- Memory and registers that move, and then entries alone. -/
theorem State.dict_frames {v : State} (hu : u = { s with regs := u.regs, mem := u.mem }) (hv : v = { u with dict := v.dict })
    (ht : t = { v with dict := t.dict }) : t.mem = u.mem ∧ t.regs = u.regs ∧ t = { s with regs := t.regs, dict := t.dict, mem := t.mem } := by
  have hd : t = { u with dict := t.dict } := by rw [ht, hv]
  refine ⟨by rw [hd], by rw [hd], ?_⟩
  rw [hd, hu]

/-- What CONTEXT_READY leaves: the context READY, its addresses shown, and its memory zeroed (R335). -/
theorem State.ready_next (h : s.Inv) (i : CtxId) (w sv : Alloc) :
    let t := ((s.zeroBoth w sv).showBoth i.val w sv).setCtxState i.val 2
    t.ctxState i.val = 2 ∧ t.ctx i.val 0x07 = w.addr % 2 ^ 64 ∧ t.ctx i.val 0x1B = sv.addr % 2 ^ 64 ∧
      t.ctx i.val 0x1C = s.saveSize i.val % 2 ^ 64 ∧
      ((∀ x, s.flipArmed x = false) →
        (∀ a ∈ [w, sv], ∀ i j, i < a.size * 1024 → j < 2048 → Tbl.get 0 t.mem.hbm (physKey (s.mapAddr (a.addr + i * 2048)) + j) = 0) ∧
        (∀ a, (∀ p x, a ≠ pcReg p x) → t.reg a = s.reg a) ∧ t = { s with regs := t.regs, dict := t.dict, mem := t.mem }) := by
  have hz := State.zeroBoth_zeroes (w := w) (sv := sv) h
  have hsize := State.saveSize_congr fun j hj => State.ctx_zeroBoth h w sv i.isLt (j := j) (by omega)
  have hzi := State.zeroBoth_inv h w sv
  generalize s.zeroBoth w sv = u at hz hsize hzi ⊢
  obtain ⟨hvi, h7, h1b, h1c, hv⟩ := State.showBoth_shows hzi i.val w sv
  generalize u.showBoth i.val w sv = v at hvi h7 h1b h1c hv ⊢
  obtain ⟨hst, he, ht⟩ := State.setCtxState_writes hvi i.val (v := 2) (by decide)
  generalize v.setCtxState i.val 2 = t at hst he ht ⊢
  have hctx (j : Nat) (hj : j < 256) (hne : j ≠ 2) : t.ctx i.val j = v.ctx i.val j := he _ _ (State.ctx_not_stateKeys v i.isLt hj hne)
  refine ⟨hst, (hctx _ (by decide) (by decide)).trans h7, (hctx _ (by decide) (by decide)).trans h1b,
    (hctx _ (by decide) (by decide)).trans (h1c.trans (by rw [hsize])), fun hf => ?_⟩
  obtain ⟨hzero, hbytes⟩ := hz hf
  obtain ⟨hmem, hregs, hframe⟩ := State.dict_frames hzero.rest hv ht
  refine ⟨by rw [hmem]; exact hbytes, fun a ha => ?_, hframe⟩
  unfold State.reg
  rw [hregs]
  exact hzero.regs a fun p => ⟨ha p _, ha p _, ha p _⟩

/-! ### CONTEXT_DISABLED -/

/-- What an owner held returns to the Coil (R451). -/
theorem State.releaseOwner_freed (h : s.Inv) (o : Nat) : s.Freed (s.releaseOwner o []) := by
  unfold State.releaseOwner
  refine State.Freed.foldl (State.Freed.foldl (.refl h) fun v n hv => ?_) fun v n hv => State.Freed.foldl (.refl hv) fun x b hx => ?_
  · exact ⟨(State.setResv_keep v o n 0 (Kept.refl v)).inv hv, fun _ _ => rfl, fun _ _ _ => rfl, rfl⟩
  · exact .ite (State.Freed.freeBuf hx ..) (.refl hx)

/-- A DISABLING context is gone: its memory and its buffers are back (R338, R388, R451). -/
theorem State.ctxGone_next (h : s.Inv) (c : Nat) :
    let t := s.ctxGone c
    t.ctxState c = 0 ∧ t.mem.allocs = s.mem.allocs.filter (fun a => a.ctx != c) ∧
      (∀ a, (∀ k, a ≠ fnReg k (coilBase + 0x10)) → t.reg a = s.reg a) ∧
      t = { s with regs := t.regs, dict := t.dict, mem := t.mem, coil := t.coil } := by
  have hi : (s.freeHerd c).Inv := { h with mem := h.mem }
  have hf := State.releaseOwner_freed hi (0x100 + c)
  unfold State.ctxGone
  dsimp only
  generalize (s.freeHerd c).releaseOwner (0x100 + c) [] = u at hf ⊢
  obtain ⟨hst, -, hrest⟩ := State.setCtxState_writes hf.inv c (v := 0) (by decide)
  refine ⟨hst, ?_, fun a ha => ?_, ?_⟩
  · rw [hrest, hf.rest]
    rfl
  · rw [hrest]
    exact hf.regs a ha
  · rw [hrest, hf.rest]
    rfl

end Sys2Proof.Machine
end

section
/-! PROOF. O36: contexts. -/

namespace Sys2Proof.Machine

/-- Settles O36: the commands of a context entry are its owner's effects behind the common checks; the steps of a context that is disabled
are gone because nothing that their end sets off opens one. -/
theorem contextsLiveAndEnd : Obligations.ContextsLiveAndEnd := by
  unfold Obligations.ContextsLiveAndEnd
  refine ⟨fun s o c h hr => ⟨fun v x code hg hx h1 h2 h3 => contextCommand_refused hr hg hx h1 h2 h3,
    fun hg hs hok => ⟨fun hfull => ?_, fun x y hx hy => ?_⟩, fun hg hs hsl => execContextDisable_disables h hr hg hs hsl, fun hg hs => execClearFault_clears h hr hg hs⟩,
    fun s c h => ⟨fun w sv hs hmine hw hsv => ?_, fun hs => ?_⟩⟩
  · have hst : (s.asked o (0x3000 + c.val) 0x01 [1]).ctxEnable c.val = .error Code.SCH_CTX_MEMORY := by
      obtain ⟨d, r, z, ha⟩ := State.asked_rest s o (0x3000 + c.val) 0x01 [1]
      rw [ha]
      exact State.ctxEnable_full hs hok hfull
    exact State.dictCmd_refused hr (.inr ⟨State.asked_gate hg, hst⟩)
  · obtain ⟨t, hexec, hst, hmem, hpow, he, hun, hrest⟩ := execContextEnable_enables h hr hg hs hok hx hy
    refine ⟨t, hexec, hst, hmem, hpow, State.freeRun_free hx, fun u hlo hhi => ?_, he, hun, hrest⟩
    exact (State.unitFree_withAlloc s ⟨s.ctx c.val 4, x, s.ctx c.val 0x06 / 0x200000, c.val, false⟩ u).1 (State.freeRun_free hy u hlo hhi)
  · exact ⟨_, execContextReady_readies hs hmine hw hsv, State.ready_next h c w sv⟩
  · exact ⟨_, if_pos hs, State.ctxGone_next h c.val⟩

end Sys2Proof.Machine
end
